-- ==== Sys2Proof/Word.lean ====
section
/-! DEFINITION. The word types of the module: a byte, a 32-bit register word, a 64-bit scalar, an address.
Bits are numbered from 0 at the least significant end (R11); byte 0 of a field holds its bits 7:0 (R12). -/

namespace Sys2Proof

/-- One byte of the little-endian, byte-addressed device (R12). -/
abbrev Byte := BitVec 8

/-- One register word (every register is 32 bits wide). -/
abbrev Word := BitVec 32

/-- One scalar register of a sequencer context (R108). -/
abbrev Scalar := BitVec 64

/-- A module physical address (R3). -/
abbrev PAddr := BitVec 48

end Sys2Proof
end

