-- ==== Sys2Proof/Syntax.lean ====
section
/-! DEFINITION. The commands the module takes: one constructor per row of spec/opcode_table.json, with the operands
that the row needs to be one whole step. A command is either something an outside agent does (a register write, a
received flit, a pin) or one indivisible step of an engine of the module, named by its unit. -/

namespace Sys2Proof

/-- Who makes a register or memory access (R155, R286 INFO.REQ, R392, R466, R490, R491). -/
inductive Requester where
  | pilot (core : Fin 4)
  | debug
  | shore (core : Fin 16)
  | mgmt
deriving DecidableEq, Repr

/-- The two steps of a SHOAL operation that its row names: its issue by a context (R135), and its run (R217). -/
inductive ShoalPhase where
  | issue (c : Fin 2)
  | run
deriving DecidableEq, Repr

/-- Direction of one side of a Strait port (R321). -/
inductive Dir where
  | rx
  | tx
deriving DecidableEq, Repr

/-- A codeword that a received flit overlaps and that arrived with symbols in error (R288, R289): its number on the line, and the
lane and place in the lane of each such symbol. -/
structure FecWord where
  num : Nat
  hits : List (Fin 9 × Fin 68)
deriving DecidableEq, Repr

/-- A memory controller, with the Lagoon of an Island as one (R287). -/
inductive MemUnit where
  | lag (p : Fin 144)
  | hbm (s : Fin 8)
  | lpx (ch : Fin 32)
deriving DecidableEq, Repr

/-- Where a PCP command came from: an accepted ring entry, or an URGENT mailbox message (R397, R400). -/
inductive PcpSrc where
  | ring (ring : Fin 64) (seq : BitVec 32)
  | urgent (m : Fin 8)
deriving DecidableEq, Repr

/-- One module taking part in an election (R359): its id, election priority and certificate serial number. -/
structure Candidate where
  id : BitVec 10
  prio : BitVec 8
  serial : BitVec 128
deriving DecidableEq, Repr

/-- A group of 64 parameters whose residue check fails, and whether its repeat fails as well (R376). -/
structure GroupRetry where
  group : Nat
  again : Bool
deriving DecidableEq, Repr

/-- The steps of a checkpoint drain (R383, R384): the target header is cleared and the segments are sent, then the
header is written complete and LOCK is released. -/
inductive DrainPhase where
  | begin
  | finish
deriving DecidableEq, Repr

/-- Why a checkpoint drain is abandoned (R384). -/
inductive AbandonCause where
  | buddyDeparted
  | descriptorFailed
  | limit300s
deriving DecidableEq, Repr

/-- The numbered steps of a replay that act on this module (R381). The operand of `keep` is what the buddy reports of itself: no
suspect (none), or a suspect Island of its own that can be substituted (false) or not (true). -/
inductive ReplayPhase where
  | keep (buddy : Option Bool)
  | unload
  | substitute
  | reloadSet
  | rerun
  | compareSet
  | finish
deriving DecidableEq, Repr

/-- The steps of a restore (R387): the image that this module's buddy holds for it is fetched, where the buddy is connected; the
newest complete image is loaded, of the one that was fetched and those that the host has copied from storage to the given module
physical addresses; the job is loaded; and it runs from the RESUME Tide of the image. -/
inductive RestorePhase where
  | fetch
  | loadImage (images : List (BitVec 48))
  | reloadSet
  | resume
deriving DecidableEq, Repr

/-- One module's answer to a manager command of SCOPE 1 (R414, R415, R460): its id and its reject code, 0 for none. -/
structure ModuleAnswer where
  id : BitVec 10
  code : BitVec 8
deriving DecidableEq, Repr

/-- What sends a context's oldest signal (R137, R447): the context, and how often the transfer over the Isthmus fails its CRC in a row. -/
structure SigSend where
  c : Fin 2
  resends : Nat
deriving DecidableEq, Repr

/-- What moves a reduction channel on (R350, R447): the channel, and whether the two adder lanes differ on the chunk (`some`), and then
whether they differ on its repeat as well. -/
structure ChunkStep where
  ch : Fin 8
  adder : Option Bool
deriving DecidableEq, Repr

/-- What one loopback depth of MAINT_RUN found (R285, R319, R320): whether the partner refused depth 4, the errors of each lane, and
the places where something went wrong at depths 1 to 3 of a port. -/
structure DepthResult where
  refused : Bool
  laneErrs : List Nat
  faults : List Nat
deriving DecidableEq, Repr

/-- One test case run on an Island or an update unit (R437, R438, R440): its number, the rows of a CSUM case's product, and what the
first run and the repeat put out. That is for a CSUM case the product C in FP32 row by row, then its transpose; for an XCHK case
the output regions in the case's order. -/
structure CaseRun where
  case : BitVec 16
  rows : Fin 513
  first : List (BitVec 8)
  second : List (BitVec 8)
deriving DecidableEq, Repr

/-- An event handed to fault handling (R449, R461): class, type, unit word, and the record fields of R461. -/
structure FaultEvent where
  cls : BitVec 8
  typ : BitVec 8
  unit : BitVec 16
  lisl : BitVec 8
  sctx : BitVec 1
  code : BitVec 16
  info : BitVec 32
  detail0 : BitVec 64
  detail1 : BitVec 64
deriving DecidableEq, Repr

/-- What sets the protection latch (R496). -/
inductive ProtCause where
  | overvoltage
  | overcurrent
  | undervoltage
  | railFault
deriving DecidableEq, Repr

/-- The reference clocks (R498). -/
inductive Clock where
  | sys
  | str
  | pe
  | mgt
deriving DecidableEq, Repr

/-- One reading of the thermal sensors, in whole degrees (R510). -/
structure Temps where
  junction : BitVec 8
  hbm : BitVec 8
  lpddr : BitVec 8
  baseplate : BitVec 8
  regulator : BitVec 8
deriving DecidableEq, Repr

/-- A received management frame (R500, R501): its source MAC and the fields of the memory-access service. -/
structure MgmtFrame where
  src : BitVec 48
  len : BitVec 16
  tag : BitVec 32
  addr : BitVec 64
  data : List (BitVec 8)
  pilotSameCycle : Bool
deriving DecidableEq, Repr

/-- An inbound PCIe memory request (R506): address, and the data of a write or the length of a read. -/
inductive PcieReq where
  | rd (addr : BitVec 64) (len : Nat)
  | wr (addr : BitVec 64) (data : List (BitVec 8))
deriving DecidableEq, Repr

/-- A load or a store of a core or of the debug access path to module physical memory (R37, R38). -/
inductive CoreAccess where
  | rd (addr : BitVec 48) (len : Nat)
  | wr (addr : BitVec 48) (data : List (BitVec 8))
deriving DecidableEq, Repr

/-- The commands of the module, in the order of the opcode table. -/
inductive Instr where
  /-- NOP (R118). Sequencer instruction that does nothing but take its issue slot. -/
  | nop (p : Fin 144) (c : Fin 2)
  /-- HALT (R140). Context stops issuing and becomes IDLE once its issued work completes. -/
  | halt (p : Fin 144) (c : Fin 2)
  /-- BR (R122). Branch to TARGET, faulting LOOP_EXIT if it would leave an active loop. -/
  | br (p : Fin 144) (c : Fin 2)
  /-- LOOP (R123). Pushes a hardware loop with a count read at issue, or skips the body on count 0. -/
  | loop (p : Fin 144) (c : Fin 2)
  /-- FENCE (R126). Holds the context until earlier engine work of the selected classes has completed. -/
  | fence (p : Fin 144) (c : Fin 2)
  /-- TMARK (R139). Tide mark: the context stops issuing and enters TMARK once its issued work completes. -/
  | tmark (p : Fin 144) (c : Fin 2)
  /-- BRK (R127). Debug break stops the context with code BREAK. -/
  | brk (p : Fin 144) (c : Fin 2)
  /-- CMP (R121). Compares two scalar operands and writes a predicate. -/
  | cmp (p : Fin 144) (c : Fin 2)
  /-- PSET (R121). Combines two predicates into a destination predicate. -/
  | pset (p : Fin 144) (c : Fin 2)
  /-- ADD (R120). 64-bit scalar addition modulo 2^64. -/
  | add (p : Fin 144) (c : Fin 2)
  /-- SUB (R120). 64-bit scalar subtraction modulo 2^64. -/
  | sub (p : Fin 144) (c : Fin 2)
  /-- MUL (R120). 64-bit scalar multiply keeping the low 64 bits. -/
  | mul (p : Fin 144) (c : Fin 2)
  /-- AND (R120). 64-bit bitwise AND. -/
  | and (p : Fin 144) (c : Fin 2)
  /-- OR (R120). 64-bit bitwise OR. -/
  | or (p : Fin 144) (c : Fin 2)
  /-- XOR (R120). 64-bit bitwise XOR. -/
  | xor (p : Fin 144) (c : Fin 2)
  /-- SHL (R120). Shift left by bits [5:0] of the second operand. -/
  | shl (p : Fin 144) (c : Fin 2)
  /-- SHR (R120). Logical shift right filling with zeros. -/
  | shr (p : Fin 144) (c : Fin 2)
  /-- SRA (R120). Arithmetic shift right filling with the sign bit. -/
  | sra (p : Fin 144) (c : Fin 2)
  /-- MIN (R120). Signed minimum of two scalars. -/
  | min (p : Fin 144) (c : Fin 2)
  /-- MAX (R120). Signed maximum of two scalars. -/
  | max (p : Fin 144) (c : Fin 2)
  /-- MINU (R120). Unsigned minimum of two scalars. -/
  | minu (p : Fin 144) (c : Fin 2)
  /-- RDSYS (R120). Reads a system value such as Tide number or logical Island into a register. -/
  | rdsys (p : Fin 144) (c : Fin 2)
  /-- LI (R119). Loads a 64-bit immediate into a register. -/
  | li (p : Fin 144) (c : Fin 2)
  /-- LDS (R128). Issues a scalar load from a device virtual address. -/
  | lds (p : Fin 144) (c : Fin 2)
  /-- STS (R128). Scalar store of 32 or 64 bits to a device virtual address. -/
  | sts (p : Fin 144) (c : Fin 2)
  /-- LDSHAPE (R129). Issues a shape-word load that is clamped to MAX. -/
  | ldshape (p : Fin 144) (c : Fin 2)
  /-- SCALAR_LOAD_RETURN (R113). Data of an LDS or LDSHAPE returns and is written to the destination register. -/
  | scalarLoadReturn (p : Fin 144) (c : Fin 2)
  /-- MM (R131). Matrix instruction checked at issue and placed in the array queue. -/
  | mm (p : Fin 144) (c : Fin 2)
  /-- MATRIX_ACCEPT (R515). The array accepts the queued matrix instruction and begins its first weight-set load. -/
  | matrixAccept (p : Fin 144)
  /-- WEIGHT_LOAD (R74). The load engine fills one weight buffer with a weight set, one row copy per two cycles. -/
  | weightLoad (p : Fin 144)
  /-- PASS_ISSUE (R82). A row group issues its pass of a weight set into the array. -/
  | passIssue (p : Fin 144)
  /-- PASS_APPLY (R84). A pass result is applied to its accumulator entry nine cycles after issue. -/
  | passApply (p : Fin 144)
  /-- ACCUMULATOR_CLEAR (R97). Start-up clear of every accumulator entry, ending with INIT_DONE. -/
  | accumulatorClear (p : Fin 144)
  /-- DRAIN (R134). Ebb drain instruction checked at issue and placed in the Ebb queue. -/
  | drain (p : Fin 144) (c : Fin 2)
  /-- EBB_DRAIN_BEGIN (R179). The Ebb copies the descriptor slot, checks descriptor and Charts, and starts reading. -/
  | ebbDrainBegin (p : Fin 144)
  /-- EBB_READ_CYCLE (R160). The Ebb reads up to eight tile rows and sends them down the element chain. -/
  | ebbReadCycle (p : Fin 144)
  /-- EBB_ELEMENT_WRITE (R176). Converted elements of a read cycle are written and become visible. -/
  | ebbElementWrite (p : Fin 144)
  /-- FERRY (R135). Sequencer enqueues a Ferry descriptor on Ferry 4q + FSEL. -/
  | ferry (p : Fin 144) (c : Fin 2)
  /-- FRY_SUBMIT (R211). A Pilot submission queues a Ferry descriptor, or sets SUBREJ when full. -/
  | frySubmit (r : Requester) (f : Fin 16) (v : BitVec 32)
  /-- MOVE (R202). Ferry copies a region between Charts with permutation and conversion. -/
  | move (f : Fin 16)
  /-- COMPRESS (R204). Ferry writes a dense Chart region into sparse tile slots. -/
  | compress (f : Fin 16)
  /-- EXPAND (R204). Ferry decodes sparse tile slots into a dense Chart. -/
  | expand (f : Fin 16)
  /-- BYTES (R205). Ferry copies LEN bytes, optionally to a remote global address. -/
  | bytes (f : Fin 16)
  /-- GATHER (R219). Shoal copies rows chosen by an index list. -/
  | gather (p : Fin 144) (ph : ShoalPhase)
  /-- SCATTER (R220). Shoal merges rows into destinations chosen by an index list. -/
  | scatter (p : Fin 144) (ph : ShoalPhase)
  /-- SHOAL_MERGE (R226). Shoal merges two key lists into keys and origin words. -/
  | shoalMerge (p : Fin 144) (ph : ShoalPhase)
  /-- SEGRED (R227). Shoal reduces segments of rows given by an offset list. -/
  | segred (p : Fin 144) (ph : ShoalPhase)
  /-- TOPK (R228). Shoal ranks expert scores per token and writes experts, positions and counts. -/
  | topk (p : Fin 144) (ph : ShoalPhase)
  /-- PACK (R230). Shoal dispatches token rows by expert and position, dropping entries over capacity. -/
  | pack (p : Fin 144) (ph : ShoalPhase)
  /-- UNPACK (R231). Shoal returns expert rows to entry order, writing +0 for dropped entries. -/
  | unpack (p : Fin 144) (ph : ShoalPhase)
  /-- SPMM (R240). Shoal multiplies the sparse-path tiles of A by B into C. -/
  | spmm (p : Fin 144) (ph : ShoalPhase)
  /-- MERGE_UNIT_OPERATION (R223). A merge unit applies one Shoal write or merge to a Lagoon line. -/
  | mergeUnitOperation (p : Fin 144) (u : Fin 16)
  /-- BSIG (R137). Signal or decrement enters the context's signal queue. -/
  | bsig (p : Fin 144) (c : Fin 2)
  /-- BRST (R151). Buoy reset enters the context's signal queue. -/
  | brst (p : Fin 144) (c : Fin 2)
  /-- SIGNAL_QUEUE_SEND (R137). The signal queue sends a BSIG or BRST once its AFTER classes have completed. -/
  | signalQueueSend (p : Fin 144) (x : SigSend)
  /-- BWAIT (R152). Context waits until a local Buoy reaches a threshold. -/
  | bwait (p : Fin 144) (c : Fin 2)
  /-- BUOY_APPLY (R153). The Buoy unit applies the operations arriving in one cycle in fixed order. -/
  | buoyApply (q : Fin 4)
  /-- BUOY_RELEASE (R152). A release from the Buoy unit reaches a waiting context, which resumes. -/
  | buoyRelease (p : Fin 144) (c : Fin 2)
  /-- WAIT_REPORT (R138). A context in WAIT passes the wait-report limit and WAITLONG is reported. -/
  | waitReport (p : Fin 144) (c : Fin 2)
  /-- ISL_SEQ_RUN (R145). Writing 1 to a RUN bit resumes a STOPPED or IDLE context at ISL_SEQ_PC. -/
  | islSeqRun (r : Requester) (p : Fin 144) (c : Fin 2)
  /-- ISL_SEQ_STOP (R146). Writing 0 to a RUN bit stops the context after the instruction in flight. -/
  | islSeqStop (r : Requester) (p : Fin 144) (c : Fin 2)
  /-- BUOY_VAL_WRITE (R155). A manual write sets a Buoy count, sets HAND and releases waiters. -/
  | buoyValWrite (r : Requester) (q : Fin 4) (b : Fin 16384) (v : BitVec 32)
  /-- BUOY_DUMP_GO (R159). Writing BUOY_DUMP_CTL.GO starts a dump of the Quarter's Buoy records. -/
  | buoyDumpGo (r : Requester) (q : Fin 4)
  /-- BUOY_DUMP_RECORD (R159). The Buoy unit writes one dump record in an idle cycle. -/
  | buoyDumpRecord (q : Fin 4)
  /-- ISL_LMAP_WRITE (R518). A write of a logical-to-physical binding updates VALID and ISL_PSTATE. -/
  | islLmapWrite (r : Requester) (l : Fin 136) (v : BitVec 32)
  /-- ISL_POLICY_WRITE (R22). Writes the spare policy code, ignored while a program is loaded. -/
  | islPolicyWrite (r : Requester) (v : BitVec 32)
  /-- PLACER_BIND (R24). The Placer binds logical Islands to healthy physical Islands at start-up or load. -/
  | placerBind (atLoad : Bool) (policy : BitVec 2)
  /-- SWAP_GO (R28). Writing GO starts a spare swap or rejects it with REJ. -/
  | swapGo (r : Requester) (v : BitVec 32)
  /-- SWAP_ABORT (R32). Writing ABORT abandons an unapplied swap and returns the destination to SPARE. -/
  | swapAbort (r : Requester) (v : BitVec 32)
  /-- SWAP_COPY_LINE (R28). The swap copy moves one line from source to destination in an idle Lagoon cycle. -/
  | swapCopyLine
  /-- SWAP_RELEASE (R516). Firmware writes RELEASE after retargeting pages and T1 Charts, ending the hold. -/
  | swapRelease (r : Requester)
  /-- TEST (R466). ISL_TEST_CTL command moving a SPARE Island to TESTING. -/
  | test (r : Requester) (p : Fin 144)
  /-- RELEASE (R466). ISL_TEST_CTL command returning a TESTING Island to SPARE. -/
  | release (r : Requester) (p : Fin 144)
  /-- RETIRE (R466). ISL_TEST_CTL command retiring a SPARE or TESTING Island. -/
  | retire (r : Requester) (p : Fin 144)
  /-- CHT_INV (R193). Starts invalidation of cached translations or Charts in the Quarter. -/
  | chtInv (r : Requester) (q : Fin 4) (v : BitVec 32)
  /-- CHT_INV_DONE (R210). An invalidation completes, clearing GO and setting DONE. -/
  | chtInvDone (q : Fin 4)
  /-- T1_VALIDATION (R195). CHT_T1_CTL.GO validates a T1 descriptor into a Chart slot. -/
  | t1Validation (r : Requester) (q : Fin 4) (v : BitVec 32)
  /-- FLIT_TRANSMIT (R293). The transmitter sends a DATA, CTRL or IDLE flit at a flit position. -/
  | flitTransmit (k : Fin 16)
  /-- DATA_FLIT (R295). A received DATA flit is accepted in sequence or discarded with NAK. -/
  | dataFlit (k : Fin 16) (flit : List (BitVec 8)) (fec : List FecWord)
  /-- CTRL_FLIT (R294). A received CTRL flit updates credits and carries SUB requests. -/
  | ctrlFlit (k : Fin 16) (flit : List (BitVec 8)) (fec : List FecWord)
  /-- IDLE_FLIT (R293). A received IDLE flit carries only ACK and NAK state. -/
  | idleFlit (k : Fin 16) (flit : List (BitVec 8)) (fec : List FecWord)
  /-- NAK (R296). A received NAK starts a replay from ACK + 1. -/
  | nak (k : Fin 16) (ack : BitVec 12)
  /-- RETRY_TIMEOUT (R296). The oldest unacknowledged flit waits RETRY_TO and a replay starts. -/
  | retryTimeout (k : Fin 16)
  /-- LANE_LOCK_LOSS (R303). A lane's CDR loses lock and the lane is declared failed. -/
  | laneLockLoss (k : Fin 16) (lanes : List (Fin 9))
  /-- LANE_CE_WINDOW (R303). A 65,536-codeword window ends and lanes over LANE_THR are declared failed. -/
  | laneCeWindow (k : Fin 16) (syms : List Nat) (codewords : Nat)
  /-- SPARE_REQ (R304). Received SPARE_REQ makes the transmitter choose boundary B and answer SPARE_ACK. -/
  | spareReq (k : Fin 16) (codeword : Nat)
  /-- SPARE_ACK (R304). Received SPARE_ACK arms the receiver to take L8 from codeword B. -/
  | spareAck (k : Fin 16)
  /-- LANE_SWITCH (R304). At codeword B the failed lane's symbols move to L8. -/
  | laneSwitch (k : Fin 16) (dir : Dir) (codeword : Nat)
  /-- TRAINING_COMPLETE (R290). Lane training succeeds and the port moves to HELLO. -/
  | trainingComplete (k : Fin 16) (rxFailed txFailed : List (Fin 9))
  /-- TRAINING_TIMEOUT (R313). Training fails or passes 500 ms and the port enters DOWN. -/
  | trainingTimeout (k : Fin 16)
  /-- RETRAIN_COMPLETE (R306). A retrain finishes within 50 ms and traffic resumes. -/
  | retrainComplete (k : Fin 16)
  /-- RETRAIN_TIMEOUT (R306). A retrain does not finish within 50 ms and the port departs. -/
  | retrainTimeout (k : Fin 16)
  /-- HELLO_TIMEOUT (R313). The hello is not verified within 200 ms and the port enters DOWN. -/
  | helloTimeout (k : Fin 16)
  /-- DOWN_TIMER (R313). One second after entering DOWN without HOLD the port retrains. -/
  | downTimer (k : Fin 16)
  /-- HOLD_CLEAR (R313). Software clears STR_STATUS.HOLD, permitting training again. -/
  | holdClear (r : Requester) (k : Fin 16) (secondPassed : Bool)
  /-- EN (R322). Writing STR_CTL.EN enables a port, or departs it and moves it to OFF. -/
  | en (r : Requester) (k : Fin 16) (on : Bool)
  /-- MAINT (R319). Writing STR_CTL.MAINT enters or leaves MAINT. -/
  | maint (r : Requester) (k : Fin 16) (on : Bool)
  /-- RETRAIN (R306). Software request to retrain the port. -/
  | retrain (r : Requester) (k : Fin 16)
  /-- ADMIT (R322). Writing ADMIT in VERIFIED moves the port to ACTIVE. -/
  | admitPort (r : Requester) (k : Fin 16)
  /-- LEAVE (R317). Software LEAVE sends LEAVE and departs the port. -/
  | leave (r : Requester) (k : Fin 16)
  /-- MGMT (R316). A hello or HELLO_REQ fragment is received and reassembled. -/
  | mgmt (k : Fin 16)
  /-- RD (R308). A remote read request is served or forwarded. -/
  | rd (k : Fin 16) (vc : Fin 4)
  /-- RD_RSP (R311). A read response completes its tracker entry or is discarded as late. -/
  | rdRsp (k : Fin 16) (vc : Fin 4)
  /-- WR (R308). A remote write request is served or forwarded. -/
  | wr (k : Fin 16) (vc : Fin 4)
  /-- MERGE (R308). A remote merge is applied by the merge unit of its line. -/
  | merge (k : Fin 16) (vc : Fin 4)
  /-- BUOY (R308). A remote Buoy signal, decrement or reset arrives. -/
  | buoy (k : Fin 16) (vc : Fin 4)
  /-- CPL (R311). A completion response completes its tracker entry. -/
  | cpl (k : Fin 16) (vc : Fin 4)
  /-- TRACKER_TIMEOUT (R311). A tracker entry in use past TRK_TO completes with TIMEOUT. -/
  | trackerTimeout (q : Fin 4) (n : Fin 4096)
  /-- TRACKER_QUARANTINE_END (R311). A timed-out entry becomes allocatable after a further TRK_TO. -/
  | trackerQuarantineEnd (q : Fin 4) (n : Fin 4096)
  /-- LB_REQ (R320). A received request for a far-end loopback is answered LB_ACK or LB_REFUSE. -/
  | lbReq (k : Fin 16)
  /-- LB_ACK (R320). The partner's consent starts a depth-4 loopback. -/
  | lbAck (k : Fin 16)
  /-- LB_REFUSE (R320). The partner refuses depth 4 and REFUSED is set. -/
  | lbRefuse (k : Fin 16)
  /-- STRAIT_LOOPBACK_GO (R319). LB_CTL.GO starts a Strait loopback at the selected depth. -/
  | straitLoopbackGo (r : Requester) (k : Fin 16) (v : BitVec 32)
  /-- STRAIT_LOOPBACK_DONE (R319). A Strait loopback finishes and sets DONE, PASS and LB_RESULT. -/
  | straitLoopbackDone (k : Fin 16) (laneErrs : List Nat) (faults : List Nat) (badReads : List Nat)
  /-- LOAD (R326). TIDE_CTL.LOAD checks the loaded state and enters the start marker or rejects. -/
  | load (r : Requester)
  /-- UNLOAD (R327). TIDE_CTL.UNLOAD clears LOADED and stops every context. -/
  | unload (r : Requester)
  /-- FAILNOW (R341). Firmware raises FAIL with reason FIRMWARE. -/
  | failnow (r : Requester)
  /-- TIDE_GO_WRITE (R334). Writing TIDE_GO.GO at a HELD root sends GO. -/
  | tideGoWrite (r : Requester) (v : BitVec 32)
  /-- MARK (R333). A child's MARK is received and, when complete, the subtree aggregate moves up. -/
  | mark (k : Option (Fin 16))
  /-- GO (R335). A received GO is forwarded and starts the next Tide. -/
  | go (k : Option (Fin 16))
  /-- TIDE_DEADLINE (R340). The Tide timer passes the deadline and a STRETCH or TIMEOUT is raised. -/
  | tideDeadline (elapsedUs : Nat)
  /-- STRETCH (R340). A STRETCH request moves toward the root, which grants or fails it. -/
  | stretch (k : Fin 16)
  /-- STRETCH_GO (R340). A granted stretch is received and K increments. -/
  | stretchGo (k : Fin 16)
  /-- FAIL (R341). A FAIL message is received, propagated, and the module enters FAILED. -/
  | fail (k : Fin 16)
  /-- BUCKET_TRIGGER (R349). An armed bucket's trigger Buoy reaches THR and the channel starts it. -/
  | bucketTrigger (ch : Fin 8)
  /-- REDUCE_CHUNK (R350). A channel sends, sums or writes one chunk of a bucket. -/
  | reduceChunk (x : ChunkStep)
  /-- REDUCE (R356). A REDUCE message is received, checked and summed or forwarded. -/
  | reduce (k : Fin 16)
  /-- HEARTBEAT (R359). The manager sends its 100 ms heartbeat to the standby. -/
  | heartbeat
  /-- HEARTBEAT_MISS (R359). Three missed heartbeats make the standby take the manager role. -/
  | heartbeatMiss
  /-- ELECTION (R359). Modules elect a manager and standby over VC 3 at start-up. -/
  | election (cands : List Candidate)
  /-- ADAM (R372). Update unit runs an Adam descriptor over its parameters. -/
  | adam (u : Fin 8) (retries : List GroupRetry)
  /-- MOMENTUM (R372). Update unit runs a momentum descriptor. -/
  | momentum (u : Fin 8) (retries : List GroupRetry)
  /-- SGD (R372). Update unit runs an SGD descriptor. -/
  | sgd (u : Fin 8) (retries : List GroupRetry)
  /-- UCODE (R374). Update unit runs a microprogram per parameter. -/
  | ucode (u : Fin 8) (retries : List GroupRetry)
  /-- RELOAD (R375). Rewrites working copies from P in CUR. -/
  | reload (u : Fin 8) (retries : List GroupRetry)
  /-- KEEP (R375). Copies COUNT words from G to M1. -/
  | keep (u : Fin 8) (retries : List GroupRetry)
  /-- COMPARE (R375). Compares words of G and M1 under TOL and counts differences. -/
  | compare (u : Fin 8) (retries : List GroupRetry)
  /-- FUU_SET_GO (R370). FUU_CTL.GO runs the RELOAD, KEEP or COMPARE descriptor set. -/
  | fuuSetGo (r : Requester) (u : Fin 8) (v : BitVec 32)
  /-- LOCK_RELEASE (R390). Writing 0 to FUU_STATE.LOCK releases the checkpoint lock. -/
  | lockRelease (r : Requester) (u : Fin 8)
  /-- CHECKPOINT_DRAIN (R383). Firmware drains the locked buffer to the buddy as an image. -/
  | checkpointDrain (ph : DrainPhase)
  /-- DRAIN_ABANDON (R384). A drain that cannot finish in 300 s or fails is abandoned and LOCK released. -/
  | drainAbandon (why : AbandonCause)
  /-- REPLAY (R381). Manager substitutes, reloads and reruns a window before commit. -/
  | replay (ph : ReplayPhase)
  /-- RESTORE (R387). Manager resumes the job from the newest complete image. -/
  | restore (ph : RestorePhase)
  /-- SCRUB_INTERVAL (R282). A scrubber reads its next 64-byte unit and corrects it. -/
  | scrubInterval (m : MemUnit)
  /-- SCRUB_WRITE_BACK (R283). A scrub correction is written back unless a newer write intervened. -/
  | scrubWriteBack (m : MemUnit)
  /-- CONTROLLER_TRAINING_LOST (R281). A memory controller loses training and enters FAILED. -/
  | controllerTrainingLost (m : MemUnit) (regained : Bool)
  /-- MEMORY_MAINT (R284). CTL.MAINT enters or leaves the controller's MAINT state. -/
  | memoryMaint (r : Requester) (m : MemUnit) (on : Bool)
  /-- MEMORY_LOOPBACK_GO (R285). LB_CTL.GO starts a memory loopback at the selected depth. -/
  | memoryLoopbackGo (r : Requester) (m : MemUnit) (v : BitVec 32)
  /-- MEMORY_LOOPBACK_DONE (R285). A memory loopback finishes and sets LB_RESULT. -/
  | memoryLoopbackDone (m : MemUnit) (mismatch : Nat) (lane : Option Nat)
  /-- ODECC_READ (R287). Every 60 s the stack's on-die ECC count is read into CNT_ODECC. -/
  | odeccRead (stack : Fin 8) (n : Nat)
  /-- IN_RING (R395). Client rings the inbound mailbox doorbell, interrupting the serving core. -/
  | inRing (r : Requester) (m : Fin 8)
  /-- OUT_RING (R395). The Pilot rings the outbound doorbell, interrupting the client. -/
  | outRing (c : Fin 4) (m : Fin 8)
  /-- HELLO (R404). A HELLO opens or resumes a command ring. -/
  | hello (m : Fin 8)
  /-- PLT_RDB (R401). A ring doorbell sets PEND and interrupts the ring's owner. -/
  | pltRdb (r : Requester) (ring : Fin 64)
  /-- COMMAND_ACCEPT (R401). The owning core accepts a command entry in SEQ order. -/
  | commandAccept (c : Fin 4) (ring : Fin 64)
  /-- COMMAND_COMPLETE (R401). A command's completion entry is written and INFLIGHT cleared. -/
  | commandComplete (src : PcpSrc)
  /-- PCP_NOP (R411). PCP command that does nothing. -/
  | pcpNop (src : PcpSrc)
  /-- RING_CLOSE (R408). Closes a ring and possibly its context. -/
  | ringClose (src : PcpSrc)
  /-- PILOT_STATUS (R411). Returns the Pilot cores' status and firmware version. -/
  | pilotStatus (src : PcpSrc)
  /-- MEM_ALLOC (R411). Allocates and maps memory in a chosen tier. -/
  | memAlloc (src : PcpSrc)
  /-- MEM_FREE (R411). Frees an allocation. -/
  | memFree (src : PcpSrc)
  /-- MAP (R412). Maps a VA range to a physical range in all Quarters. -/
  | map (src : PcpSrc)
  /-- UNMAP (R412). Unmaps a VA range in all Quarters. -/
  | unmap (src : PcpSrc)
  /-- CTX_RECOVER (R431). Clears a context fence and reopens its rings. -/
  | ctxRecover (src : PcpSrc)
  /-- CHART_WRITE (R411). Writes a Chart entry and invalidates caches. -/
  | chartWrite (src : PcpSrc)
  /-- T1_VALIDATE (R195). PCP command that validates a T1 descriptor into a Chart. -/
  | t1Validate (src : PcpSrc)
  /-- TENSOR_PLACE (R411). Places a distributed tensor and writes its block owners. -/
  | tensorPlace (src : PcpSrc)
  /-- PROG_LOAD (R414). Loads a Tide program on the module or the Archipelago. -/
  | progLoad (src : PcpSrc) (answers : List ModuleAnswer)
  /-- PROG_UNLOAD (R415). Unloads the Tide program, failing a running one first. -/
  | progUnload (src : PcpSrc) (answers : List ModuleAnswer)
  /-- JOB_RESUME_CONTINUE (R416). Resumes a HALTed job with the given ACTION. -/
  | jobResumeContinue (src : PcpSrc)
  /-- JOB_RESUME_REWIND (R416). Rewinds a HALTed job to its window's first Tide. -/
  | jobResumeRewind (src : PcpSrc)
  /-- JOB_RESUME_RESTORE (R416). Restores a HALTed job from an image. -/
  | jobResumeRestore (src : PcpSrc)
  /-- BATCH_CANCEL (R417). Cancels a micro-batch by advancing its generation tag. -/
  | batchCancel (src : PcpSrc)
  /-- CKPT_CFG (R411). Configures storage copies of checkpoint images. -/
  | ckptCfg (src : PcpSrc)
  /-- CKPT_NOW (R411). Requests a checkpoint lock. -/
  | ckptNow (src : PcpSrc)
  /-- BUOY_SET (R411). Sets a Buoy count through the Pilot. -/
  | buoySet (src : PcpSrc)
  /-- BUOY_DUMP (R411). Dumps all Buoys of the module. -/
  | buoyDump (src : PcpSrc)
  /-- REG_READ (R412). Reads up to four permitted registers. -/
  | regRead (src : PcpSrc)
  /-- REG_WRITE (R412). Writes a permitted register under a mask. -/
  | regWrite (src : PcpSrc)
  /-- FERRY_SUBMIT (R411). Submits a Ferry descriptor through the Pilot. -/
  | ferrySubmit (src : PcpSrc)
  /-- PLACE_PIN (R419). Pins an Island, page range or block-owner range. -/
  | placePin (src : PcpSrc)
  /-- PLACE_UNPIN (R419). Removes a pin. -/
  | placeUnpin (src : PcpSrc)
  /-- PLACE_QUERY (R411). Returns the binding of a logical Island. -/
  | placeQuery (src : PcpSrc)
  /-- UNIT_QUERY (R420). Returns a unit's STATE and SEQ. -/
  | unitQuery (src : PcpSrc)
  /-- UNIT_SET (R422). Compare-and-set intent on a unit's state. -/
  | unitSet (src : PcpSrc)
  /-- MAINT_RUN (R422). Runs the loopback depths of a unit in MAINT. -/
  | maintRun (src : PcpSrc) (results : List DepthResult)
  /-- LOG_CFG (R424). Starts a new log ring. -/
  | logCfg (src : PcpSrc)
  /-- TRACE_SET (R426). Enables or disables trace points. -/
  | traceSet (src : PcpSrc)
  /-- ATTEST (R482). Writes a signed attestation report. -/
  | attest (src : PcpSrc)
  /-- FW_UPDATE (R483). Verifies and writes a firmware image to a copy. -/
  | fwUpdate (src : PcpSrc)
  /-- TESTPACK_INSTALL (R458). Installs a signed test pack. -/
  | testpackInstall (src : PcpSrc) (answers : List ModuleAnswer)
  /-- TESTPACK_RUN (R460). Runs a test suite on a SPARE Island. -/
  | testpackRun (src : PcpSrc) (runs : List CaseRun)
  /-- TESTPACK_QUERY (R460). Returns test history of a physical Island. -/
  | testpackQuery (src : PcpSrc)
  /-- TESTPACK_POLICY (R459). Sets the test and threshold policy block. -/
  | testpackPolicy (src : PcpSrc)
  /-- TESTPACK_EXPORT (R464). Configures the CPER export ring. -/
  | testpackExport (src : PcpSrc)
  /-- WATCHDOG_EXPIRY (R427). A Pilot core's watchdog expires and the core is reset. -/
  | watchdogExpiry (c : Fin 4)
  /-- KICK (R434). A Pilot core restarts its 50 ms watchdog count. -/
  | kick (c : Fin 4)
  /-- READY (R430). A restarted Pilot core writes READY and serves its remaining rings. -/
  | ready (c : Fin 4)
  /-- RING_ADOPTION (R429). Fifty ms after expiry a ready core adopts the failed core's work. -/
  | ringAdoption (c : Fin 4)
  /-- FENCE_TIMER_EXPIRY (R431). A fence timer reaches 500 ms and the context is fenced. -/
  | fenceTimerExpiry (ring : Fin 64)
  /-- NO_READY_PILOT (R432). No Pilot core ready for 500 ms raises FAILNOW. -/
  | noReadyPilot
  /-- PLT_ROWN_WRITE (R430). A change of ring owner takes effect only if the owner is not ready. -/
  | pltRownWrite (c : Fin 4) (ring : Fin 64) (owner : Fin 4)
  /-- SHR_RST (R435). Resets selected Shore cores. -/
  | shrRst (r : Requester) (cores : BitVec 16)
  /-- HISTORY_EVENT (R449). A counted event is checked against its threshold and may act. -/
  | historyEvent (ev : FaultEvent)
  /-- HISTORY_WRITE (R452). The history block is written after an action or every 600 s. -/
  | historyWrite
  /-- DUE_TEST (R453). An Island falls due for a test and a swap or in-place test starts. -/
  | dueTest (p : Fin 144)
  /-- TEST_FORCED (R455). A test deferred for MAX_DEFER hours is forced at a checkpoint. -/
  | testForced (p : Fin 144) (runs : List CaseRun)
  /-- TEST_CASE (R440). An Island runs one test case and is charged on failure. -/
  | testCase (p : Fin 144) (run : CaseRun) (peers : List (BitVec 64))
  /-- ROM (R467). Boot stage that verifies manifests and loads the Pilot section. -/
  | rom
  /-- IDENTITY (R467). Boot stage that derives and checks the identity key. -/
  | identity (puf : List (BitVec 8))
  /-- ISTHMUS (R467). Boot stage that trains the Isthmus pairs. -/
  | isthmus (failedPairs : List (Fin 6))
  /-- MEMORY (R467). Boot stage that repairs and trains memory PHYs. -/
  | memory (failed : List MemUnit)
  /-- ISLANDS (R467). Boot stage that tests Islands and binds them. -/
  | islands (marchFailed : List (Fin 144)) (runs : List (BitVec 16 × CaseRun)) (fuuRuns : List (BitVec 16 × CaseRun))
  /-- SHORE (R467). Boot stage that loads and releases the Shore OS. -/
  | shore
  /-- STRAITS (R467). Boot stage that enables every Strait port. -/
  | straits
  /-- BOOT_READY (R467). The module reaches READY and serves PCP. -/
  | bootReady
  /-- BOOT_STAGE_TIMEOUT (R468). A boot stage passes its limit and its outcome is applied. -/
  | bootStageTimeout
  /-- BOOT_RCV_GO (R474). Verifies and runs a recovery image in RECOVERY. -/
  | bootRcvGo (r : Requester) (v : BitVec 32)
  /-- INDEX_RESERVATION (R479). Reserves the next block of signature indices in flash. -/
  | indexReservation (readsBack : Bool)
  /-- FLASH_PROGRAM (R489). BOOT_FL_CTL programs pages of a flash device. -/
  | flashProgram (r : Requester) (v : BitVec 32)
  /-- FLASH_ERASE (R489). BOOT_FL_CTL erases a flash sector. -/
  | flashErase (r : Requester) (v : BitVec 32)
  /-- FLASH_OPERATION_DONE (R489). A flash operation completes and sets DONE or ERR. -/
  | flashOperationDone (failed : Bool)
  /-- PWR_EN_HIGH (R494). PWR_EN rises and the power-up sequence begins. -/
  | pwrEnHigh (inputOk : Bool)
  /-- PWR_GOOD (R494). Every rail reaches regulation and PWR_GOOD rises. -/
  | pwrGood
  /-- RAIL_TIMEOUT (R494). A rail not in regulation 40 ms after PWR_EN trips protection. -/
  | railTimeout
  /-- RESET_RELEASE (R494). The internal reset is released and stage ROM begins. -/
  | resetRelease
  /-- PWR_EN_LOW (R495). PWR_EN falls and the module powers down. -/
  | pwrEnLow
  /-- PROTECTION_EVENT (R496). Overvoltage, overcurrent, undervoltage or rail fault sets the latch and powers down. -/
  | protectionEvent (cause : ProtCause)
  /-- RST_N_LOW (R497). RST_N low resets everything except the rails. -/
  | rstNLow
  /-- RST_N_HIGH (R497). Boot restarts 10 ms after RST_N returns high. -/
  | rstNHigh
  /-- CLOCK_LOSS (R499). A reference clock is lost with its listed effect. -/
  | clockLoss (k : Clock)
  /-- CLOCK_RESTORED (R499). CLK_STR back for 1 ms lets Strait training resume. -/
  | clockRestored (k : Clock)
  /-- SENSOR_READ (R510). Thermal sensors are read every 100 µs. -/
  | sensorRead (t : Temps)
  /-- THERMAL_TRIP_LATCH (R511). Five ms after a trip the protection latch is set. -/
  | thermalTripLatch
  /-- PCAP_N_CHANGE (R509). PCAP_N changes, applying or removing the alternate cap. -/
  | pcapNChange (low : Bool)
  /-- POWER_CONTROL_UPDATE (R509). Every 2 µs the controller reads input power and adjusts W. -/
  | powerControlUpdate (pin : Nat) (vin : BitVec 12) (satFor1ms : Bool)
  /-- GATE_WINDOW (R508). At a 256-cycle window boundary an Island takes the new gate count. -/
  | gateWindow (p : Fin 144)
  /-- READ (R501). A management READ frame is checked and answered. -/
  | read (f : MgmtFrame)
  /-- WRITE (R501). A management WRITE frame is checked, performed and answered. -/
  | write (f : MgmtFrame)
  /-- PCIE_INBOUND_REQUEST (R506). An inbound PCIe request is accepted or completed as Unsupported Request. -/
  | pcieInboundRequest (q : PcieReq)
  /-- PE_PERST_RELEASE (R506). PE_PERST_N is released 100 ms after stage SHORE begins. -/
  | pePerstRelease
  /-- MGT_LB_GO (R507). Starts a management or PCIe loopback. -/
  | mgtLbGo (r : Requester) (v : BitVec 32)
  /-- MGT_LOOPBACK_DONE (R507). A management or PCIe loopback finishes with its result. -/
  | mgtLoopbackDone (errs : Nat)
  /-- RC_COUNTER_READ (R16). A read of an RC field returns its value and clears it. -/
  | rcCounterRead (r : Requester) (a : BitVec 48)
  /-- REGISTER_WRITE (R16). A write to a register field that has no row of its own. -/
  | registerWrite (r : Requester) (a : BitVec 48) (v : BitVec 32)
  /-- CORE_MEMORY_ACCESS (R37). A Shore core, Pilot core or the debug access path loads or stores module physical memory through its windows. -/
  | coreMemoryAccess (r : Requester) (acc : CoreAccess)
  /-- INPUT_IN_RANGE (R494). The 48 V input comes into range while a power-up sequence is held on an out-of-range input, and the sequence continues. -/
  | inputInRange
  /-- MANAGEMENT_LINK_UP (R500). Clause 73 auto-negotiation and link training with the partner succeed, and MGT_STATUS.MLINK becomes 1. -/
  | managementLinkUp (fec : BitVec 2)
  /-- MANAGEMENT_LINK_DOWN (R514). The management link goes down for a reason other than clock loss, which clears MLINK and sets MGT_ALERT.MDOWN. -/
  | managementLinkDown
  /-- STORAGE_LINK_DOWN (R505). The PCIe storage link goes down, which clears PLINK, sets MGT_ALERT.PDOWN and logs AER events. -/
  | storageLinkDown
  /-- SHORE_RESTART_DONE (R435). A Shore core reset through SHR_RST has restarted from the boot vector, and the hardware clears its SHR_RST bit. -/
  | shoreRestartDone (core : Fin 16)
  /-- DROPPED_FRAME (R500). A received management frame that is tagged, has a bad FCS or carries a foreign EtherType is dropped and counted in MGT_CNT_DROP. -/
  | droppedFrame
deriving DecidableEq, Repr

end Sys2Proof
end

