-- ==== Sys2Proof/Decode.lean ====
section
/-! DEFINITION. The command that a word spells by the opcode table's bits. The module is a block: it takes commands from
outside and decodes none. No row of the opcode table gives bits, so no word spells a command. -/

namespace Sys2Proof

/-- The command whose bits are `w`: none, because no row of the table has bits. -/
def decodeTableWord (_nbits _w : Nat) : Option Instr := none

end Sys2Proof
end

