-- ==== Sys2Proof/Machine/Hash.lean ====
section
/-! DEFINITION. The bit mixers the spec names by their publications: the Philox4x32-10 generator (R66), the CRC-64 of a
flit (R292), the CRC-32 of a frame (R500), and SHAKE256 (R436, R471, R475). -/

namespace Sys2Proof.Machine

/-- One Philox4x32 round on counter words c and key words k. -/
def philoxRound (c : Nat × Nat × Nat × Nat) (k : Nat × Nat) : Nat × Nat × Nat × Nat :=
  let (c0, c1, c2, c3) := c
  let p0 := 0xD2511F53 * c0
  let p1 := 0xCD9E8D57 * c2
  (((p1 / 2 ^ 32) ^^^ c1) ^^^ k.1, p1 % 2 ^ 32, ((p0 / 2 ^ 32) ^^^ c3) ^^^ k.2, p0 % 2 ^ 32)

/-- `n` rounds, the key bumped by the Weyl constants between rounds. -/
def philoxRounds : Nat → (Nat × Nat × Nat × Nat) → (Nat × Nat) → (Nat × Nat × Nat × Nat)
  | 0, c, _ => c
  | n + 1, c, k => philoxRounds n (philoxRound c k) ((k.1 + 0x9E3779B9) % 2 ^ 32, (k.2 + 0xBB67AE85) % 2 ^ 32)

/-- Philox4x32-10 of counter (c0, c1, c2, c3) and key (k0, k1): its four output words (R66). -/
def philox (c0 c1 c2 c3 k0 k1 : Nat) : List Nat :=
  let r := philoxRounds 10 (c0, c1, c2, c3) (k0, k1)
  [r.1, r.2.1, r.2.2.1, r.2.2.2]

/-- The random word of element `e` of its group of 32, whose first element begins at device virtual address `va` (R66). -/
def randWord (seed tide va e : Nat) : Nat :=
  (philox (tide % 2 ^ 32) (va % 2 ^ 32) (va / 2 ^ 32 % 2 ^ 20) (e / 4) (seed % 2 ^ 32) (seed / 2 ^ 32 % 2 ^ 32)).getD (e % 4) 0

/-- Reverses the low `w` bits of a number. -/
def revBits : Nat → Nat → Nat
  | 0, _ => 0
  | w + 1, n => (n % 2) * 2 ^ w + revBits w (n / 2)

/-- One bit step of a right-shifting CRC with reflected polynomial `poly`. -/
def crcStep (poly c : Nat) : Nat := if c % 2 = 1 then (c / 2) ^^^ poly else c / 2

/-- One byte of a right-shifting CRC. -/
def crcByte (poly c : Nat) (b : Byte) : Nat :=
  (List.range 8).foldl (fun c _ => crcStep poly c) (c ^^^ b.toNat)

/-- CRC-64 of the ECMA-182 polynomial, from all ones, each byte least significant bit first, final value inverted (R292). -/
def crc64 (bs : List Byte) : Nat :=
  (bs.foldl (crcByte (revBits 64 0x42F0E1EBA9EA3693)) (2 ^ 64 - 1)) ^^^ (2 ^ 64 - 1)

/-- The IEEE 802.3 CRC-32. -/
def crc32 (bs : List Byte) : Nat :=
  (bs.foldl (crcByte 0xEDB88320) (2 ^ 32 - 1)) ^^^ (2 ^ 32 - 1)

/-! ### The sponge of SHAKE256: a state of five planes of five 64-bit lanes -/

/-- The polynomial x^8 + x^6 + x^5 + x^4 + 1 steps the generator of the round constants. -/
def spongeLfsr (r : Nat) : Nat := if r < 128 then 2 * r else (2 * r) ^^^ 0x171

/-- Seven steps of the generator: bit 2^j - 1 of a round's constant is the bit the j-th of them gives out. -/
def spongeIota : Nat → Nat → Nat → Nat × Nat
  | 0, _, r => (0, r)
  | n + 1, p, r =>
    let (c, r') := spongeIota n (2 * p) (spongeLfsr r)
    ((r % 2) * 2 ^ (p - 1) + c, r')

/-- Turns a 64-bit lane left by n < 64. -/
def turn (n x : Nat) : Nat := (x <<< n) % 2 ^ 64 + x >>> (64 - n)

/-- For every lane of each plane: which lane comes to it, and by how much it is turned on the way. -/
def spongeMoves : List (List (Nat × Nat)) :=
  [(0, 0), (6, 44), (12, 43), (18, 21), (24, 14)] ::
   [(3, 28), (9, 20), (10, 3), (16, 45), (22, 61)] ::
   [(1, 1), (7, 6), (13, 25), (19, 8), (20, 18)] ::
   [(4, 27), (5, 36), (11, 10), (17, 15), (23, 56)] ::
   [(2, 62), (8, 55), (14, 39), (15, 41), (21, 2)] :: []

/-- Every lane takes up the parity of the columns beside it. -/
def spongeMix (st : List (List Nat)) : List (List Nat) :=
  match st.foldl (List.zipWith (· ^^^ ·)) [0, 0, 0, 0, 0] with
  | [p, q, r, s, t] =>
    let d := [t ^^^ turn 1 q, p ^^^ turn 1 r, q ^^^ turn 1 s, r ^^^ turn 1 t, s ^^^ turn 1 p]
    st.map (List.zipWith (· ^^^ ·) d)
  | _ => st

/-- The one non-linear step, within a plane: a lane flips where its right neighbour is 0 and the one after it 1. -/
def spongeBend (pl : List Nat) : List Nat :=
  let g (u v w : Nat) := u ^^^ (w ^^^ (v &&& w))
  match pl with
  | [p, q, r, s, t] => [g p q r, g q r s, g r s t, g s t p, g t p q]
  | _ => pl

/-- One round on the planes, and the generator after it. -/
def spongeRound (m : List (List Nat) × Nat) : List (List Nat) × Nat :=
  let flat := (spongeMix m.1).flatten
  let (c, r) := spongeIota 7 1 m.2
  match spongeMoves.map fun pl => spongeBend (pl.map fun q => turn q.2 (flat.getD q.1 0)) with
  | (p :: ps) :: rest => (((p ^^^ c) :: ps) :: rest, r)
  | st => (st, r)

/-- The permutation: twenty-four rounds. -/
def spongePerm (st : List (List Nat)) : List (List Nat) :=
  ((List.range 24).foldl (fun m _ => spongeRound m) (st, 1)).1

/-- Eight bytes as a little-endian lane. -/
def lane (bs : List Byte) : Nat := (bs.take 8).foldr (fun b n => b.toNat + 256 * n) 0

/-- A lane as eight little-endian bytes. -/
def laneBytes (n : Nat) : List Byte := (List.range 8).map fun i => BitVec.ofNat 8 (n / 256 ^ i)

/-- Takes a 136-byte block into the first seventeen lanes and permutes. -/
def shakeAbsorb (st : List (List Nat)) (blk : List Byte) : List (List Nat) :=
  spongePerm ((List.range 5).map fun y => (List.range 5).map fun x =>
    let old := (st.getD y []).getD x 0
    if x + 5 * y < 17 then old ^^^ lane (blk.drop (8 * (x + 5 * y))) else old)

/-- Absorbs a padded message block by block. -/
def shakeAbsorbAll : Nat → List (List Nat) → List Byte → List (List Nat)
  | 0, st, _ => st
  | n + 1, st, bs => shakeAbsorbAll n (shakeAbsorb st (bs.take 136)) (bs.drop 136)

/-- Squeezes `n` 136-byte blocks. -/
def shakeSqueeze : Nat → List (List Nat) → List Byte
  | 0, _ => []
  | n + 1, st => (st.flatten.take 17).flatMap laneBytes ++ shakeSqueeze n (spongePerm st)

/-- SHAKE256 of a message, `out` bytes long. -/
def shake256 (msg : List Byte) (out : Nat) : List Byte :=
  let r := msg.length % 136
  let pad : List Byte :=
    if r = 135 then [0x9F#8] else (0x1F#8) :: (List.replicate (134 - r) (0#8) ++ [0x80#8])
  let p := msg ++ pad
  (shakeSqueeze (out / 136 + 1) (shakeAbsorbAll (p.length / 136) (List.replicate 5 [0, 0, 0, 0, 0]) p)).take out

end Sys2Proof.Machine
end

