-- ==== Sys2Proof/Config.lean ====
section
/-! DEFINITION. What an implementation fixes and the spec leaves open: constants without a body. No proof can see a value
of one, so a claim that rests on none of them holds for every choice. -/

namespace Sys2Proof

/-- A value the spec leaves open after an operation that goes on: the `n`-th one drawn (State.freeCtr counts them). Log
entry 1. -/
opaque Config.freeWord : Nat → BitVec 64

/-- The contents of the boot ROM, which R39 says are not published. Log entry 2. -/
opaque Config.bootRom : Nat → BitVec 8

/-- The Ebb's fixed algorithm for FUNC 3 to 7 (R167): its result lies within 2 ulp of the exact value; this chooses which of
the candidates it is, for a function code, whether it is the derivative, and the FP32 input. Log entry 3. -/
opaque Config.ebbChoice : Nat → Bool → BitVec 32 → Nat

/-- Which of the two binary64 neighbours of an exact power the Pilot's evaluation for BC1 and BC2 gives (R372): the one of the
larger magnitude or not, for the base in binary64 and the exponent. Log entry 4. -/
opaque Config.powF64 : BitVec 64 → Nat → Bool

/-- Whether an XMSS^MT signature verifies: public key, message, signature (R314, R471, R473). Log entry 5. -/
opaque Config.xmssVerify : List (BitVec 8) → List (BitVec 8) → List (BitVec 8) → Bool

/-- The XMSS^MT signature that the identity key makes over a message at an index (R477, R479). Log entry 5. -/
opaque Config.xmssSign : Nat → List (BitVec 8) → List (BitVec 8)

/-- The digest of the root public key in mask ROM, whose value and place the spec does not give (R471, R473). Log entry 2. -/
opaque Config.romDigest : List (BitVec 8)

/-- The 256-bit seed that the fuzzy extractor reconstructs from the PUF bits and the helper data: the spec names the kind of
code and not the code (R475). Log entry 38. -/
opaque Config.fuzzySeed : List (BitVec 8) → List (BitVec 8) → List (BitVec 8)

/-- The public key that RFC 8391 generates from SK_SEED, SK_PRF and PUB_SEED (R475). Log entry 5. -/
opaque Config.xmssPublic : List (BitVec 8) → List (BitVec 8) → List (BitVec 8) → List (BitVec 8)

end Sys2Proof
end

