-- ==== Sys2Proof/Machine/Float.lean ====
section
/-! DEFINITION. Numbers: format codes and encodings (R44, R45), exact values, rounding and narrowing (R61 to R65), FP32
arithmetic (R46, R47, R57), and microscaling blocks (R48 to R51). A value is exact: a sign, a magnitude `m` and a power of
two `e`, standing for ±m × 2^e. -/

namespace Sys2Proof.Machine

/-- An exact value, an infinity or a NaN. A zero keeps its sign. -/
inductive FVal where
  | nan
  | inf (neg : Bool)
  | fin (neg : Bool) (m : Nat) (e : Int)
deriving DecidableEq, Repr

/-- The shape of a floating-point format (R45): mantissa bits, exponent bits, bias, whether it has infinities, and the
encoding of its largest finite value. -/
structure FFmt where
  mb : Nat
  eb : Nat
  bias : Nat
  hasInf : Bool
  maxEnc : Nat
  nanEnc : Nat
deriving DecidableEq, Repr

/-- The floating-point formats by code (R44, R45, R46); none for INT8, INT32 and the reserved codes. -/
def fmtShape : Nat → Option FFmt
  | 0 => some ⟨23, 8, 127, true, 0x7F7FFFFF, 0x7FC00000⟩
  | 1 => some ⟨7, 8, 127, true, 0x7F7F, 0x7FC0⟩
  | 2 => some ⟨10, 5, 15, true, 0x7BFF, 0x7E00⟩
  | 3 => some ⟨3, 4, 7, false, 0x7E, 0x7F⟩
  | 4 => some ⟨2, 5, 15, true, 0x7B, 0x7E⟩
  | 5 => some ⟨2, 3, 3, false, 0x1F, 0x1F⟩
  | 6 => some ⟨1, 2, 1, false, 0x7, 0x7⟩
  | _ => none

/-- Element width in bits (R44). -/
def fmtBits : Nat → Nat
  | 0 => 32
  | 1 => 16
  | 2 => 16
  | 3 => 8
  | 4 => 8
  | 5 => 6
  | 6 => 4
  | 7 => 8
  | 8 => 32
  | _ => 0

/-- Element size in bytes of a format that is not MX (R188). -/
def fmtBytes (f : Nat) : Nat := fmtBits f / 8

/-- The two microscaling formats. -/
def fmtIsMx (f : Nat) : Bool := f == 5 || f == 6

/-- A format code that R44 defines. -/
def fmtOk (f : Nat) : Bool := decide (f ≤ 8)

/-- A format code of a floating-point format. -/
def fmtIsFloat (f : Nat) : Bool := decide (f ≤ 6)

/-- The low `w` bits of `n` as a two's complement number. -/
def sext (w n : Nat) : Int :=
  let v := n % 2 ^ w
  if v < 2 ^ (w - 1) then (v : Int) else (v : Int) - (2 ^ w : Nat)

/-- The `w`-bit two's complement pattern of an integer, modulo 2^w. -/
def toPat (w : Nat) (i : Int) : Nat := (i % ((2 ^ w : Nat) : Int)).toNat

/-- The exact value of a whole number. -/
def FVal.ofInt (i : Int) : FVal := .fin (decide (i < 0)) i.natAbs 0

/-- Bits `[hi:lo]` of a number (R11). -/
def bitsOf (n hi lo : Nat) : Nat := (n / 2 ^ lo) % 2 ^ (hi + 1 - lo)

/-- The value of a floating-point pattern (R45). In E4M3 only E = 15, M = 7 is NaN; the MX elements have no special
values. -/
def decodeFloat (s : FFmt) (n : Nat) : FVal :=
  let m := n % 2 ^ s.mb
  let e := (n / 2 ^ s.mb) % 2 ^ s.eb
  let neg := (n / 2 ^ (s.mb + s.eb)) % 2 == 1
  if s.hasInf ∧ e = 2 ^ s.eb - 1 then (if m = 0 then .inf neg else .nan)
  else if s.mb = 3 ∧ s.eb = 4 ∧ e = 15 ∧ m = 7 then .nan
  else if e = 0 then .fin neg m (1 - (s.bias : Int) - s.mb)
  else .fin neg (m + 2 ^ s.mb) ((e : Int) - s.bias - s.mb)

/-- Widening (R61): the exact value of an element's pattern in format `f`. An MX element is without its scale. -/
def decodeFmt (f n : Nat) : FVal :=
  match fmtShape f with
  | some s => decodeFloat s n
  | none => if f = 7 then .ofInt (sext 8 n) else .ofInt (sext 32 n)

/-- floor(log2) of the magnitude m × 2^e of a non-zero value. -/
def flog2 (m : Nat) (e : Int) : Int := (Nat.log2 m : Int) + e

/-- How a conversion rounds (R64, R65): to nearest even, or stochastically with the element's 32-bit random word. -/
inductive RMode where
  | rne
  | stoch (r : Nat)
deriving DecidableEq, Repr

/-- A magnitude m × 2^e as a whole number of units 2^u, rounded (R64, R65). -/
def roundTo (rm : RMode) (m : Nat) (e u : Int) : Nat :=
  if u ≤ e then m * 2 ^ (e - u).toNat
  else
    let k := (u - e).toNat
    let q := m / 2 ^ k
    let r := m % 2 ^ k
    match rm with
    | .rne => if 2 * r > 2 ^ k ∨ (2 * r = 2 ^ k ∧ q % 2 = 1) then q + 1 else q
    | .stoch w => if r * 2 ^ 32 / 2 ^ k + w ≥ 2 ^ 32 then q + 1 else q

/-- The spacing exponent of a format at a magnitude: fixed in the subnormal range (before R64). -/
def ulpExp (s : FFmt) (m : Nat) (e : Int) : Int :=
  max (flog2 m e - s.mb) (1 - (s.bias : Int) - s.mb)

/-- The magnitude of the largest finite value of a format, in units 2^u. -/
def maxMag (s : FFmt) : Nat × Int :=
  match decodeFloat s s.maxEnc with
  | .fin _ m e => (m, e)
  | _ => (0, 0)

/-- Whether a finite magnitude rounds above the largest finite value of the format (R62). -/
def overflows (s : FFmt) (rm : RMode) (m : Nat) (e : Int) : Bool :=
  if m = 0 then false else
  let u := ulpExp s m e
  let q := roundTo rm m e u
  let (mm, me) := maxMag s
  if u ≤ me then decide (q > mm * 2 ^ (me - u).toNat) else decide (q * 2 ^ (u - me).toNat > mm)

/-- The pattern, sign bit left out, of q × 2^u where that is representable. -/
def encodeMag (s : FFmt) (q : Nat) (u : Int) : Nat :=
  if q = 0 then 0
  else
    let emin := 1 - (s.bias : Int) - s.mb
    -- bring q down to mb+1 bits if rounding carried it up
    let (q', u') := if q ≥ 2 ^ (s.mb + 1) then (q / 2, u + 1) else (q, u)
    if q' < 2 ^ s.mb then q' else (u' - emin + 1).toNat * 2 ^ s.mb + (q' - 2 ^ s.mb)

/-- Narrowing to a floating-point format that is not an MX element (R61, R62). -/
def narrowFloat (s : FFmt) (sat : Bool) (rm : RMode) : FVal → Nat
  | .nan => s.nanEnc
  | .inf neg =>
    let sg := if neg then 2 ^ (s.mb + s.eb) else 0
    if s.hasInf then sg + (2 ^ s.eb - 1) * 2 ^ s.mb
    else if sat then sg + s.maxEnc else s.nanEnc
  | .fin neg m e =>
    let sg := if neg then 2 ^ (s.mb + s.eb) else 0
    if m = 0 then sg
    else if overflows s rm m e then
      (if sat then sg + s.maxEnc
       else if s.hasInf then sg + (2 ^ s.eb - 1) * 2 ^ s.mb else s.nanEnc)
    else
      let u := ulpExp s m e
      sg + encodeMag s (roundTo rm m e u) u

/-- Narrowing to an MX element (R51): a magnitude above the maximum is clamped. NaN and infinity never reach it. -/
def narrowElem (s : FFmt) (rm : RMode) : FVal → Nat
  | .fin neg m e =>
    let sg := if neg then 2 ^ (s.mb + s.eb) else 0
    if m = 0 then sg
    else if overflows s rm m e then sg + s.maxEnc
    else
      let u := ulpExp s m e
      sg + encodeMag s (roundTo rm m e u) u
  | _ => 0

/-- Narrowing to INT8 (R63). -/
def narrowInt8 (rm : RMode) : FVal → Nat
  | .nan => 0
  | .inf neg => if neg then 0x80 else 0x7F
  | .fin neg m e =>
    let q := roundTo rm m e 0
    if neg then toPat 8 (-(min q 128 : Nat)) else min q 127

/-- Narrowing to a format that is not MX (R62, R63); INT32 takes a whole number's pattern. -/
def narrow (f : Nat) (sat : Bool) (rm : RMode) (v : FVal) : Nat :=
  match fmtShape f with
  | some s => narrowFloat s sat rm v
  | none =>
    if f = 7 then narrowInt8 rm v
    else match v with
      | .fin neg m e => toPat 32 (if neg then -(roundTo rm m e 0 : Nat) else (roundTo rm m e 0 : Nat))
      | _ => 0

/-- Whether the conversion is one that the overflow counters count: a finite value whose rounded magnitude exceeds the
maximum finite value of the destination (R181, EBB_CNT_OVF); for INT8, one that R63 clamps. -/
def narrowOvf (f : Nat) (rm : RMode) (v : FVal) : Bool :=
  match fmtShape f, v with
  | some s, .fin _ m e => overflows s rm m e
  | none, .fin neg m e => f == 7 && decide ((if neg then 128 else 127) < roundTo rm m e 0)
  | _, _ => false

/-! ### FP32 arithmetic -/

/-- The FP32 shape. -/
def fp32 : FFmt := ⟨23, 8, 127, true, 0x7F7FFFFF, 0x7FC00000⟩

/-- The value of an FP32 pattern. -/
def f32 (n : Nat) : FVal := decodeFloat fp32 n

/-- An exact value rounded once to FP32, to nearest even, overflow giving infinity (R54, R57). -/
def toF32 (v : FVal) : Nat := narrowFloat fp32 false .rne v

/-- A finite value as a signed multiple of 2^u, where u is at most its exponent. -/
def finAt (neg : Bool) (m : Nat) (e u : Int) : Int :=
  let x : Int := ((m * 2 ^ (e - u).toNat : Nat) : Int)
  if neg then -x else x

/-- Exact sum (IEEE 754): opposite infinities give NaN; a sum of exactly zero is +0 unless both are −0. -/
def FVal.add : FVal → FVal → FVal
  | .nan, _ => .nan
  | _, .nan => .nan
  | .inf a, .inf b => if a = b then .inf a else .nan
  | .inf a, _ => .inf a
  | _, .inf b => .inf b
  | .fin na ma ea, .fin nb mb eb =>
    let u := min ea eb
    let t := finAt na ma ea u + finAt nb mb eb u
    if t = 0 then .fin (na && nb && decide (ma = 0) && decide (mb = 0)) 0 0
    else .fin (decide (t < 0)) t.natAbs u

/-- Exact product (IEEE 754): infinity × 0 is NaN. -/
def FVal.mul : FVal → FVal → FVal
  | .nan, _ => .nan
  | _, .nan => .nan
  | .inf a, .inf b => .inf (a != b)
  | .inf a, .fin nb mb _ => if mb = 0 then .nan else .inf (a != nb)
  | .fin na ma _, .inf b => if ma = 0 then .nan else .inf (na != b)
  | .fin na ma ea, .fin nb mb eb => .fin (na != nb) (ma * mb) (ea + eb)

/-- Negation. -/
def FVal.neg : FVal → FVal
  | .nan => .nan
  | .inf a => .inf (!a)
  | .fin n m e => .fin (!n) m e

/-- Numeric order of two values that are not NaN: `lt a b` is a < b; +0 and −0 are equal. -/
def FVal.lt : FVal → FVal → Bool
  | .nan, _ => false
  | _, .nan => false
  | .inf a, .inf b => a && !b
  | .inf a, _ => a
  | _, .inf b => !b
  | .fin na ma ea, .fin nb mb eb =>
    let u := min ea eb
    decide (finAt na ma ea u < finAt nb mb eb u)

/-- Magnitude. -/
def FVal.abs : FVal → FVal
  | .nan => .nan
  | .inf _ => .inf false
  | .fin _ m e => .fin false m e

/-- NaN or an infinity. -/
def FVal.nonfin : FVal → Bool
  | .fin _ _ _ => false
  | _ => true

/-- A zero of either sign. -/
def FVal.isZero : FVal → Bool
  | .fin _ m _ => m == 0
  | _ => false

/-- FP32 sum rounded to nearest even (R57, R164). -/
def f32Add (a b : Nat) : Nat := toF32 ((f32 a).add (f32 b))

/-- FP32 product rounded to nearest even (R164). -/
def f32Mul (a b : Nat) : Nat := toF32 ((f32 a).mul (f32 b))

/-- The quotient a / b of two finite magnitudes with `k` extra quotient bits and a sticky bit, enough for one correct
rounding to FP32. -/
def divMag (ma mb : Nat) (k : Nat) : Nat :=
  let n := ma * 2 ^ k
  2 * (n / mb) + (if n % mb = 0 then 0 else 1)

/-- IEEE 754 quotient, exact up to a sticky bit below the 64th significant bit. -/
def FVal.div : FVal → FVal → FVal
  | .nan, _ => .nan
  | _, .nan => .nan
  | .inf _, .inf _ => .nan
  | .inf a, .fin nb _ _ => .inf (a != nb)
  | .fin na _ _, .inf b => .fin (na != b) 0 0
  | .fin na ma ea, .fin nb mb eb =>
    if mb = 0 then (if ma = 0 then .nan else .inf (na != nb))
    else
      let k := 64 + Nat.log2 mb
      .fin (na != nb) (divMag ma mb k) (ea - eb - k - 1)

/-- FP32 quotient rounded to nearest even. -/
def f32Div (a b : Nat) : Nat := toF32 ((f32 a).div (f32 b))

/-- IEEE 754 square root, exact up to a sticky bit; the root of −0 is −0 and of a negative value NaN. -/
def FVal.sqrt : FVal → FVal
  | .nan => .nan
  | .inf a => if a then .nan else .inf false
  | .fin n m e =>
    if m = 0 then .fin n 0 0
    else if n then .nan
    else
      let odd : Nat := if e % 2 = 0 then 0 else 1
      let x := m * 2 ^ (128 + odd)
      let r := Nat.sqrt x
      .fin false (2 * r + (if r * r = x then 0 else 1)) ((e - 128 - odd) / 2 - 1)

/-- FP32 square root rounded to nearest even. -/
def f32Sqrt (a : Nat) : Nat := toF32 (f32 a).sqrt

/-- The binary64 shape, for the norms that R345 and R365 keep in binary64. -/
def fp64 : FFmt := ⟨52, 11, 1023, true, 0x7FEFFFFFFFFFFFFF, 0x7FF8000000000000⟩

/-- The value of a binary64 pattern. -/
def f64 (n : Nat) : FVal := decodeFloat fp64 n

/-- An exact value rounded once to binary64. -/
def toF64 (v : FVal) : Nat := narrowFloat fp64 false .rne v

/-- binary64 sum rounded to nearest even. -/
def f64Add (a b : Nat) : Nat := toF64 ((f64 a).add (f64 b))

/-! ### Microscaling blocks -/

/-- The E8M0 scale of a byte (R45): 2^(X − 127), or NaN for 0xFF. -/
def scaleVal (x : Nat) : FVal := if x = 0xFF then .nan else .fin false 1 ((x : Int) - 127)

/-- The value of an MX element under its block's scale byte (R48). -/
def mxVal (f scale elem : Nat) : FVal := (scaleVal scale).mul (decodeFmt f elem)

/-- Element `i` of a packed MX block (R49). -/
def mxElem (f : Nat) (block : List Byte) (i : Nat) : Nat :=
  let at8 (j : Nat) : Nat := (block.getD j 0).toNat
  if f = 6 then (at8 (i / 2) / 2 ^ (4 * (i % 2))) % 16
  else
    let j := i / 4
    let g := at8 (3 * j) + 256 * at8 (3 * j + 1) + 65536 * at8 (3 * j + 2)
    (g / 2 ^ (6 * (i % 4))) % 64

/-- Bytes of a packed block: 24 for MXFP6, 16 for MXFP4 (R49). -/
def mxBytes (f : Nat) : Nat := if f = 5 then 24 else 16

/-- Thirty-two element patterns packed into a block (R49). -/
def mxPack (f : Nat) (es : List Nat) : List Byte :=
  if f = 6 then (List.range 16).map fun i => BitVec.ofNat 8 (es.getD (2 * i) 0 + 16 * es.getD (2 * i + 1) 0)
  else
    (List.range 8).flatMap fun j =>
      let g := es.getD (4 * j) 0 + 2 ^ 6 * es.getD (4 * j + 1) 0 + 2 ^ 12 * es.getD (4 * j + 2) 0
        + 2 ^ 18 * es.getD (4 * j + 3) 0
      [BitVec.ofNat 8 g, BitVec.ofNat 8 (g / 256), BitVec.ofNat 8 (g / 65536)]

/-- The larger of two magnitudes. -/
def magMax (a b : FVal) : FVal := if a.lt b then b else a

/-- The scale byte that R51 chooses for a block of values, and whether the block is a NaN block or all zero. -/
def mxScale (f : Nat) (vs : List FVal) : Nat :=
  if vs.any FVal.nonfin then 0xFF
  else
    match (vs.map FVal.abs).foldl magMax (.fin false 0 0) with
    | .fin _ m e =>
      if m = 0 then 0x7F
      else
        let emax : Int := if f = 5 then 4 else 2
        (max 0 (flog2 m e - emax + 127)).toNat
    | _ => 0xFF

/-- A value divided exactly by the scale 2^(X − 127). -/
def unscale (x : Nat) : FVal → FVal
  | .fin n m e => .fin n m (e - ((x : Int) - 127))
  | v => v

/-- Converts a block of values to MX (R51): its scale byte, its element patterns, and how many elements were clamped.
`rm i` is the rounding of element `i`. -/
def mxConvert (f : Nat) (rm : Nat → RMode) (vs : List FVal) : Nat × List Nat × Nat :=
  let x := mxScale f vs
  if x = 0xFF ∨ (vs.all FVal.isZero) then (x, vs.map fun _ => 0, 0)
  else
    match fmtShape f with
    | none => (x, [], 0)
    | some s =>
      let us := vs.map (unscale x)
      (x, us.mapIdx fun i v => narrowElem s (rm i) v,
        ((us.mapIdx fun i v => narrowOvf f (rm i) v).filter id).length)

/-- The value that an FP32 result is widened to where an FP32 value is required (R61): an MX element whose scaled
magnitude is 2^128 or more becomes infinite; every other element of a format is exact in FP32. -/
def widen32 : FVal → FVal
  | .fin n m e => if m ≠ 0 ∧ flog2 m e ≥ 128 then .inf n else .fin n m e
  | v => v

end Sys2Proof.Machine
end

