-- ==== Sys2Proof/Machine/RegMap.lean ====
section
/-! DEFINITION. The register map: every register of the module with its window, offset, array shape, and the bits, type
and reset value of each field, as the register tables of the chapters give them. `Reg.<NAME>` is a register's module
physical address, `Fd.<NAME>_<FIELD>` a field. A register's word is `State.regs` at its address. -/

namespace Sys2Proof.Machine

/-- The four register field types (R16). -/
inductive FieldType where
  | rw
  | ro
  | w1c
  | rc
deriving DecidableEq, Repr

/-- One field: its lowest bit, its width, its type and its reset value. -/
structure Fld where
  lo : Nat
  w : Nat
  ty : FieldType
  rst : Nat
deriving DecidableEq, Repr

/-- One register or array of registers: offset in its window, the array's (count, stride) pairs, whether it exists in
Quarter 0 only, and its fields. -/
structure RegRow where
  off : Nat
  dims : List (Nat × Nat)
  q0 : Bool
  fields : List Fld
deriving DecidableEq, Repr

/-- Physical address of physical Island `p`'s register window (R39). -/
def islWin (p : Nat) : Nat := 0x4000000 + p * 0x10000
/-- Physical address of Quarter `q`'s register window (R39). -/
def qtrWin (q : Nat) : Nat := 0x5000000 + q * 0x100000
/-- Physical address of the module-level register window (R39). -/
def modWin : Nat := 0x6000000
/-- Physical address of the registers of module-wide Buoy `b` (R157): Quarter `q`'s window at 0x100_0000 + q × 0x40_0000,
256 bytes a Buoy. -/
def buoyWin (b : Nat) : Nat := 0x1000000 + (b / 16384) * 0x400000 + (b % 16384) * 256

/-! ### Fields -/

def Fd.ISL_SEQ_CTL_RUN0 : Fld := ⟨0, 1, .rw, 0⟩
def Fd.ISL_SEQ_CTL_RUN1 : Fld := ⟨1, 1, .rw, 0⟩
def Fd.ISL_SEQ_CTL_ARB_RST : Fld := ⟨2, 1, .ro, 0⟩
def Fd.ISL_SEQ_CTL_ENTRY0 : Fld := ⟨3, 1, .rw, 0⟩
def Fd.ISL_SEQ_CTL_ENTRY1 : Fld := ⟨4, 1, .rw, 0⟩

def Fd.ISL_SEQ_STATUS_ST0 : Fld := ⟨0, 3, .ro, 0⟩
def Fd.ISL_SEQ_STATUS_ST1 : Fld := ⟨3, 3, .ro, 0⟩
def Fd.ISL_SEQ_STATUS_FAV : Fld := ⟨6, 1, .ro, 0⟩

def Fd.ISL_SEQ_PC_PC : Fld := ⟨0, 14, .rw, 0⟩

def Fd.ISL_SEQ_CTXID_CTX : Fld := ⟨0, 4, .rw, 0⟩

def Fd.ISL_SEQ_FAULT_CODE : Fld := ⟨0, 8, .ro, 0⟩
def Fd.ISL_SEQ_FAULT_PC : Fld := ⟨8, 14, .ro, 0⟩
def Fd.ISL_SEQ_FAULT_VALID : Fld := ⟨22, 1, .w1c, 0⟩
def Fd.ISL_SEQ_FAULT_MULTI : Fld := ⟨23, 1, .w1c, 0⟩

def Fd.ISL_SEQ_FINFO_INFO : Fld := ⟨0, 32, .ro, 0⟩

def Fd.ISL_SEQ_TIDE_TIDE : Fld := ⟨0, 32, .ro, 0⟩

def Fd.ISL_SEQ_WTO_LIMIT : Fld := ⟨0, 16, .rw, 0x400⟩

def Fd.ISL_SEQ_EVT_WAITLONG0 : Fld := ⟨0, 1, .w1c, 0⟩
def Fd.ISL_SEQ_EVT_WAITLONG1 : Fld := ⟨1, 1, .w1c, 0⟩
def Fd.ISL_SEQ_EVT_CLAMP : Fld := ⟨2, 1, .w1c, 0⟩

def Fd.ISL_SEQ_CNT_ISSUE_COUNT : Fld := ⟨0, 32, .rc, 0⟩

def Fd.ISL_SEQ_CNT_STALL_COUNT : Fld := ⟨0, 32, .rc, 0⟩

def Fd.ISL_SEQ_CNT_CLAMP_COUNT : Fld := ⟨0, 32, .rc, 0⟩

def Fd.ISL_SEQ_CNT_DRHOLD_COUNT : Fld := ⟨0, 32, .rc, 0⟩

def Fd.ISL_SEQ_SREG_WORD : Fld := ⟨0, 32, .rw, 0⟩

def Fd.ISL_SEQ_PRED_P0 : Fld := ⟨0, 1, .ro, 1⟩
def Fd.ISL_SEQ_PRED_P : Fld := ⟨1, 7, .rw, 0⟩

def Fd.ISL_SEQ_LOOP_START : Fld := ⟨0, 14, .ro, 0⟩
def Fd.ISL_SEQ_LOOP_END : Fld := ⟨14, 14, .ro, 0⟩
def Fd.ISL_SEQ_LOOP_VALID : Fld := ⟨31, 1, .ro, 0⟩

def Fd.ISL_SEQ_LOOP_COUNT_COUNT : Fld := ⟨0, 32, .ro, 0⟩

def Fd.ISL_SEQ_LOOP_ITER_ITER : Fld := ⟨0, 32, .ro, 0⟩


def Fd.ISL_LAG_STATUS_STATE : Fld := ⟨0, 2, .ro, 0⟩
def Fd.ISL_LAG_STATUS_SCRUB_ACT : Fld := ⟨2, 1, .ro, 0⟩

def Fd.ISL_LAG_SCRUB_EN : Fld := ⟨0, 1, .rw, 1⟩
def Fd.ISL_LAG_SCRUB_INTERVAL : Fld := ⟨8, 24, .rw, 64⟩

def Fd.ISL_LAG_SCRUB_POS_UNIT : Fld := ⟨0, 32, .ro, 0⟩

def Fd.ISL_LAG_SCRUB_PASS_COUNT : Fld := ⟨0, 32, .ro, 0⟩

def Fd.ISL_LAG_ERR_CE : Fld := ⟨0, 1, .w1c, 0⟩
def Fd.ISL_LAG_ERR_UE : Fld := ⟨1, 1, .w1c, 0⟩
def Fd.ISL_LAG_ERR_CE_MULTI : Fld := ⟨2, 1, .w1c, 0⟩
def Fd.ISL_LAG_ERR_UE_MULTI : Fld := ⟨3, 1, .w1c, 0⟩

def Fd.ISL_LAG_CE_ADDR_LO_ADDR : Fld := ⟨0, 32, .ro, 0⟩

def Fd.ISL_LAG_CE_ADDR_HI_ADDR : Fld := ⟨0, 16, .ro, 0⟩

def Fd.ISL_LAG_CE_INFO_SYMBOL : Fld := ⟨0, 7, .ro, 0⟩
def Fd.ISL_LAG_CE_INFO_LOC : Fld := ⟨7, 5, .ro, 0⟩
def Fd.ISL_LAG_CE_INFO_REQ : Fld := ⟨12, 4, .ro, 0⟩
def Fd.ISL_LAG_CE_INFO_LISL : Fld := ⟨16, 8, .ro, 0⟩

def Fd.ISL_LAG_UE_ADDR_LO_ADDR : Fld := ⟨0, 32, .ro, 0⟩

def Fd.ISL_LAG_UE_ADDR_HI_ADDR : Fld := ⟨0, 16, .ro, 0⟩

def Fd.ISL_LAG_UE_INFO_SYMBOL : Fld := ⟨0, 7, .ro, 0⟩
def Fd.ISL_LAG_UE_INFO_LOC : Fld := ⟨7, 5, .ro, 0⟩
def Fd.ISL_LAG_UE_INFO_REQ : Fld := ⟨12, 4, .ro, 0⟩
def Fd.ISL_LAG_UE_INFO_LISL : Fld := ⟨16, 8, .ro, 0⟩
def Fd.ISL_LAG_UE_INFO_POISON : Fld := ⟨24, 1, .ro, 0⟩

def Fd.ISL_LAG_CNT_CE_COUNT : Fld := ⟨0, 32, .rc, 0⟩

def Fd.ISL_LAG_CNT_UE_COUNT : Fld := ⟨0, 32, .rc, 0⟩

def Fd.ISL_LAG_CNT_POISON_COUNT : Fld := ⟨0, 32, .rc, 0⟩

def Fd.ISL_LAG_CNT_SCRUB_CE_COUNT : Fld := ⟨0, 32, .rc, 0⟩





def Fd.ACC_STATUS_ARRAY_BUSY : Fld := ⟨0, 1, .ro, 0⟩
def Fd.ACC_STATUS_LOAD_BUSY : Fld := ⟨1, 1, .ro, 0⟩
def Fd.ACC_STATUS_WBUF : Fld := ⟨2, 1, .ro, 0⟩
def Fd.ACC_STATUS_INIT_DONE : Fld := ⟨3, 1, .ro, 0⟩
def Fd.ACC_STATUS_HOLD : Fld := ⟨4, 1, .ro, 0⟩

def Fd.ACC_CFG_SKIP_EN : Fld := ⟨0, 1, .rw, 1⟩

def Fd.ACC_ERR_PARITY : Fld := ⟨0, 1, .w1c, 0⟩
def Fd.ACC_ERR_PARITY_MULTI : Fld := ⟨1, 1, .w1c, 0⟩

def Fd.ACC_ERR_ADDR_TROW : Fld := ⟨0, 13, .ro, 0⟩
def Fd.ACC_ERR_ADDR_ENTRY : Fld := ⟨13, 5, .ro, 0⟩
def Fd.ACC_ERR_ADDR_BYTES : Fld := ⟨18, 4, .ro, 0⟩
def Fd.ACC_ERR_ADDR_PORT : Fld := ⟨22, 1, .ro, 0⟩

def Fd.ACC_CNT_ISSUE_COUNT : Fld := ⟨0, 32, .rc, 0⟩

def Fd.ACC_CNT_SKIP_COUNT : Fld := ⟨0, 32, .rc, 0⟩

def Fd.ACC_CNT_WAIT_COUNT : Fld := ⟨0, 32, .rc, 0⟩

def Fd.ACC_CNT_HOLD_COUNT : Fld := ⟨0, 32, .rc, 0⟩

def Fd.ACC_CNT_LOADS_COUNT : Fld := ⟨0, 32, .rc, 0⟩

def Fd.ACC_WALK_WORD : Fld := ⟨0, 32, .rw, 0⟩

def Fd.EBB_STATUS_BUSY : Fld := ⟨0, 1, .ro, 0⟩
def Fd.EBB_STATUS_QDEPTH : Fld := ⟨1, 4, .ro, 0⟩
def Fd.EBB_STATUS_SLOT : Fld := ⟨5, 4, .ro, 0⟩

def Fd.EBB_ERR_NONFIN : Fld := ⟨0, 1, .w1c, 0⟩
def Fd.EBB_ERR_BOUND : Fld := ⟨1, 1, .w1c, 0⟩
def Fd.EBB_ERR_LOSS_MULTI : Fld := ⟨2, 1, .w1c, 0⟩
def Fd.EBB_ERR_FAULT : Fld := ⟨3, 1, .w1c, 0⟩

def Fd.EBB_FIRST_TROW : Fld := ⟨0, 13, .ro, 0⟩
def Fd.EBB_FIRST_ENTRY : Fld := ⟨13, 5, .ro, 0⟩
def Fd.EBB_FIRST_SLOT : Fld := ⟨18, 4, .ro, 0⟩
def Fd.EBB_FIRST_KIND : Fld := ⟨22, 1, .ro, 0⟩
def Fd.EBB_FIRST_SCTX : Fld := ⟨23, 1, .ro, 0⟩
def Fd.EBB_FIRST_VALID : Fld := ⟨24, 1, .ro, 0⟩

def Fd.EBB_FIRST_VAL_VAL : Fld := ⟨0, 32, .ro, 0⟩

def Fd.EBB_LOSS_VAL : Fld := ⟨0, 32, .ro, 0⟩

def Fd.EBB_TIDE_NONFIN_COUNT : Fld := ⟨0, 32, .ro, 0⟩

def Fd.EBB_TIDE_BOUND_COUNT : Fld := ⟨0, 32, .ro, 0⟩

def Fd.EBB_CNT_ROWS_COUNT : Fld := ⟨0, 32, .rc, 0⟩

def Fd.EBB_CNT_NONFIN_COUNT : Fld := ⟨0, 32, .rc, 0⟩

def Fd.EBB_CNT_BOUND_COUNT : Fld := ⟨0, 32, .rc, 0⟩

def Fd.EBB_CNT_OOBW_COUNT : Fld := ⟨0, 32, .rc, 0⟩

def Fd.EBB_CNT_WAIT_COUNT : Fld := ⟨0, 32, .rc, 0⟩

def Fd.EBB_CNT_OVF_COUNT : Fld := ⟨0, 32, .rc, 0⟩

def Fd.EBB_DESC_W0_SRC : Fld := ⟨0, 4, .rw, 0⟩
def Fd.EBB_DESC_W0_MODE : Fld := ⟨4, 2, .rw, 0⟩
def Fd.EBB_DESC_W0_FUNC : Fld := ⟨6, 4, .rw, 0⟩
def Fd.EBB_DESC_W0_RMODE : Fld := ⟨10, 1, .rw, 0⟩
def Fd.EBB_DESC_W0_SAT : Fld := ⟨11, 1, .rw, 0⟩
def Fd.EBB_DESC_W0_OUT_T : Fld := ⟨12, 1, .rw, 0⟩
def Fd.EBB_DESC_W0_SCALE_VEC : Fld := ⟨13, 1, .rw, 0⟩
def Fd.EBB_DESC_W0_BIAS_EN : Fld := ⟨14, 1, .rw, 0⟩
def Fd.EBB_DESC_W0_SAVE_EN : Fld := ⟨15, 1, .rw, 0⟩
def Fd.EBB_DESC_W0_GATE_EN : Fld := ⟨16, 1, .rw, 0⟩
def Fd.EBB_DESC_W0_LOSS : Fld := ⟨17, 1, .rw, 0⟩

def Fd.EBB_DESC_W1_SCALE : Fld := ⟨0, 32, .rw, 0⟩

def Fd.EBB_DESC_W2_BOUND : Fld := ⟨0, 32, .rw, 0⟩

def Fd.EBB_DESC_W3_ALPHA : Fld := ⟨0, 32, .rw, 0⟩

def Fd.EBB_DESC_W4_BLK_ROWS : Fld := ⟨0, 14, .rw, 0⟩
def Fd.EBB_DESC_W4_MROWS : Fld := ⟨16, 14, .rw, 0⟩

def Fd.EBB_DESC_W5_NVALID : Fld := ⟨0, 14, .rw, 0⟩
def Fd.EBB_DESC_W5_GRP : Fld := ⟨16, 5, .rw, 0⟩

def Fd.EBB_DESC_W6_SCH : Fld := ⟨0, 6, .rw, 0⟩
def Fd.EBB_DESC_W6_BCH : Fld := ⟨8, 6, .rw, 0⟩
def Fd.EBB_DESC_W6_ZCH : Fld := ⟨16, 6, .rw, 0⟩
def Fd.EBB_DESC_W6_GCH : Fld := ⟨24, 6, .rw, 0⟩










def Fd.SHL_STATUS_BUSY : Fld := ⟨0, 1, .ro, 0⟩
def Fd.SHL_STATUS_QDEPTH : Fld := ⟨1, 4, .ro, 0⟩
def Fd.SHL_STATUS_SOP : Fld := ⟨5, 4, .ro, 0⟩

def Fd.SHL_CFG_THRESH : Fld := ⟨0, 11, .rw, 0x40⟩

def Fd.SHL_ERR_FAULT : Fld := ⟨0, 1, .w1c, 0⟩
def Fd.SHL_ERR_MULTI : Fld := ⟨1, 1, .w1c, 0⟩

def Fd.SHL_ERR_INFO_CODE : Fld := ⟨0, 12, .ro, 0⟩
def Fd.SHL_ERR_INFO_SOP : Fld := ⟨12, 4, .ro, 0⟩
def Fd.SHL_ERR_INFO_SCTX : Fld := ⟨16, 1, .ro, 0⟩

def Fd.SHL_ERR_ENTRY_ENTRY : Fld := ⟨0, 32, .ro, 0⟩

def Fd.SHL_CNT_OPS_COUNT : Fld := ⟨0, 32, .rc, 0⟩

def Fd.SHL_CNT_OOBW_COUNT : Fld := ⟨0, 32, .rc, 0⟩

def Fd.SHL_CNT_MERGE_COUNT : Fld := ⟨0, 32, .rc, 0⟩

def Fd.SHL_CNT_STALE_COUNT : Fld := ⟨0, 32, .rc, 0⟩

def Fd.SHL_CNT_CAPDROP_COUNT : Fld := ⟨0, 32, .rc, 0⟩

def Fd.SHL_CNT_UNSORT_COUNT : Fld := ⟨0, 32, .rc, 0⟩

def Fd.SHL_CNT_SEGBAD_COUNT : Fld := ⟨0, 32, .rc, 0⟩

def Fd.SHL_CNT_REUSE_COUNT : Fld := ⟨0, 32, .rc, 0⟩

def Fd.SHL_CNT_SPTILE_COUNT : Fld := ⟨0, 32, .rc, 0⟩

def Fd.SHL_GEN_TAG : Fld := ⟨0, 16, .rw, 0⟩

def Fd.ISL_SENT_CFG_EN : Fld := ⟨0, 1, .rw, 0⟩
def Fd.ISL_SENT_CFG_RLOG2 : Fld := ⟨1, 4, .rw, 6⟩
def Fd.ISL_SENT_CFG_TOL : Fld := ⟨8, 5, .rw, 20⟩

def Fd.ISL_SENT_KEY_LO_KEY : Fld := ⟨0, 32, .rw, 0⟩

def Fd.ISL_SENT_KEY_HI_KEY : Fld := ⟨0, 32, .rw, 0⟩

def Fd.ISL_SENT_ERR_MISMATCH : Fld := ⟨0, 1, .w1c, 0⟩
def Fd.ISL_SENT_ERR_MULTI : Fld := ⟨1, 1, .w1c, 0⟩

def Fd.ISL_SENT_FIRST_COL : Fld := ⟨0, 5, .ro, 0⟩
def Fd.ISL_SENT_FIRST_SCTX : Fld := ⟨5, 1, .ro, 0⟩
def Fd.ISL_SENT_FIRST_VALID : Fld := ⟨6, 1, .ro, 0⟩

def Fd.ISL_SENT_FIRST_TILE_INDEX : Fld := ⟨0, 32, .ro, 0⟩

def Fd.ISL_SENT_FIRST_DIFF_VAL : Fld := ⟨0, 32, .ro, 0⟩

def Fd.ISL_SENT_CNT_SAMPLED_COUNT : Fld := ⟨0, 32, .rc, 0⟩

def Fd.ISL_SENT_CNT_MISMATCH_COUNT : Fld := ⟨0, 32, .rc, 0⟩

def Fd.BUOY_VAL_COUNT : Fld := ⟨0, 31, .rw, 0⟩

def Fd.BUOY_FLAGS_UNDER : Fld := ⟨0, 1, .w1c, 0⟩
def Fd.BUOY_FLAGS_SAT : Fld := ⟨1, 1, .w1c, 0⟩
def Fd.BUOY_FLAGS_HAND : Fld := ⟨2, 1, .w1c, 0⟩
def Fd.BUOY_FLAGS_WAITERS : Fld := ⟨12, 9, .ro, 0⟩

def Fd.BUOY_LSIG_SRC_MOD : Fld := ⟨0, 10, .ro, 0⟩
def Fd.BUOY_LSIG_SRC_LISL : Fld := ⟨10, 8, .ro, 0⟩
def Fd.BUOY_LSIG_SRC_SCTX : Fld := ⟨18, 1, .ro, 0⟩
def Fd.BUOY_LSIG_SRC_KIND : Fld := ⟨19, 3, .ro, 0⟩
def Fd.BUOY_LSIG_SRC_PORT : Fld := ⟨22, 6, .ro, 0⟩

def Fd.BUOY_LSIG_INFO_PC : Fld := ⟨0, 14, .ro, 0⟩
def Fd.BUOY_LSIG_INFO_TIDE : Fld := ⟨16, 16, .ro, 0⟩

def Fd.BUOY_LSIG_VAL_VAL : Fld := ⟨0, 32, .ro, 0⟩

def Fd.BUOY_LWAIT_SRC_LISL : Fld := ⟨0, 8, .ro, 0⟩
def Fd.BUOY_LWAIT_SRC_SCTX : Fld := ⟨8, 1, .ro, 0⟩
def Fd.BUOY_LWAIT_SRC_PC : Fld := ⟨9, 14, .ro, 0⟩
def Fd.BUOY_LWAIT_SRC_PENDING : Fld := ⟨23, 1, .ro, 0⟩

def Fd.BUOY_LWAIT_THR_THR : Fld := ⟨0, 32, .ro, 0⟩

def Fd.FRY_STATUS_BUSY : Fld := ⟨0, 1, .ro, 0⟩
def Fd.FRY_STATUS_QDEPTH : Fld := ⟨1, 7, .ro, 0⟩
def Fd.FRY_STATUS_OP : Fld := ⟨8, 4, .ro, 0⟩

def Fd.FRY_ERR_FAULT : Fld := ⟨0, 1, .w1c, 0⟩
def Fd.FRY_ERR_MULTI : Fld := ⟨1, 1, .w1c, 0⟩
def Fd.FRY_ERR_SUBREJ : Fld := ⟨2, 1, .w1c, 0⟩

def Fd.FRY_ERR_INFO_CODE : Fld := ⟨0, 12, .ro, 0⟩
def Fd.FRY_ERR_INFO_LISL : Fld := ⟨12, 8, .ro, 0⟩
def Fd.FRY_ERR_INFO_SCTX : Fld := ⟨20, 1, .ro, 0⟩

def Fd.FRY_SUBMIT_LO_ADDR : Fld := ⟨6, 26, .rw, 0⟩

def Fd.FRY_SUBMIT_HI_ADDR : Fld := ⟨0, 16, .rw, 0⟩

def Fd.FRY_SUBMIT_CTL_GO : Fld := ⟨0, 1, .rw, 0⟩

def Fd.FRY_CNT_DESC_COUNT : Fld := ⟨0, 32, .rc, 0⟩

def Fd.FRY_CNT_KIB_COUNT : Fld := ⟨0, 32, .rc, 0⟩

def Fd.FRY_CNT_OOBW_COUNT : Fld := ⟨0, 32, .rc, 0⟩

def Fd.FRY_CNT_DENSE_COUNT : Fld := ⟨0, 32, .rc, 0⟩

def Fd.STR_CTL_EN : Fld := ⟨0, 1, .rw, 0⟩
def Fd.STR_CTL_MAINT : Fld := ⟨1, 1, .rw, 0⟩
def Fd.STR_CTL_RETRAIN : Fld := ⟨2, 1, .rw, 0⟩
def Fd.STR_CTL_ADMIT : Fld := ⟨3, 1, .rw, 0⟩
def Fd.STR_CTL_LEAVE : Fld := ⟨4, 1, .rw, 0⟩

def Fd.STR_STATUS_STATE : Fld := ⟨0, 3, .ro, 0⟩
def Fd.STR_STATUS_HOLD : Fld := ⟨3, 1, .w1c, 0⟩
def Fd.STR_STATUS_TX_SPARED : Fld := ⟨4, 4, .ro, 0xF⟩
def Fd.STR_STATUS_RX_SPARED : Fld := ⟨8, 4, .ro, 0xF⟩
def Fd.STR_STATUS_SCHED : Fld := ⟨12, 1, .ro, 0⟩
def Fd.STR_STATUS_FAR_LB : Fld := ⟨13, 1, .ro, 0⟩

def Fd.STR_PARTNER_MOD : Fld := ⟨0, 10, .ro, 0⟩
def Fd.STR_PARTNER_PORT : Fld := ⟨10, 4, .ro, 0⟩
def Fd.STR_PARTNER_VALID : Fld := ⟨14, 1, .ro, 0⟩

def Fd.STR_EXPECT_MOD : Fld := ⟨0, 10, .rw, 0⟩
def Fd.STR_EXPECT_PORT : Fld := ⟨10, 4, .rw, 0⟩
def Fd.STR_EXPECT_EN : Fld := ⟨14, 1, .rw, 0⟩

def Fd.STR_ERR_CRC : Fld := ⟨0, 1, .w1c, 0⟩
def Fd.STR_ERR_FEC_UE : Fld := ⟨1, 1, .w1c, 0⟩
def Fd.STR_ERR_RETRY_LIMIT : Fld := ⟨2, 1, .w1c, 0⟩
def Fd.STR_ERR_LANE_FAIL : Fld := ⟨3, 1, .w1c, 0⟩
def Fd.STR_ERR_HELLO_FAIL : Fld := ⟨4, 1, .w1c, 0⟩
def Fd.STR_ERR_MISMATCH : Fld := ⟨5, 1, .w1c, 0⟩
def Fd.STR_ERR_PROTOCOL : Fld := ⟨6, 1, .w1c, 0⟩
def Fd.STR_ERR_DOWN : Fld := ⟨7, 1, .w1c, 0⟩

def Fd.STR_TIMERS_RETRY_TO : Fld := ⟨0, 16, .rw, 0x7D⟩
def Fd.STR_TIMERS_RETRY_LIMIT : Fld := ⟨16, 8, .rw, 0x20⟩

def Fd.STR_LANE_THR_THR : Fld := ⟨0, 16, .rw, 0x400⟩

def Fd.STR_CNT_FLIT_TX_COUNT : Fld := ⟨0, 32, .rc, 0⟩

def Fd.STR_CNT_FLIT_RX_COUNT : Fld := ⟨0, 32, .rc, 0⟩

def Fd.STR_CNT_CRC_COUNT : Fld := ⟨0, 32, .rc, 0⟩

def Fd.STR_CNT_FEC_CE_COUNT : Fld := ⟨0, 32, .rc, 0⟩

def Fd.STR_CNT_FEC_UE_COUNT : Fld := ⟨0, 32, .rc, 0⟩

def Fd.STR_CNT_RETRY_COUNT : Fld := ⟨0, 32, .rc, 0⟩

def Fd.STR_CNT_DROP_COUNT : Fld := ⟨0, 32, .rc, 0⟩

def Fd.STR_CNT_DOWN_COUNT : Fld := ⟨0, 32, .rc, 0⟩

def Fd.STR_LANE_CE_COUNT : Fld := ⟨0, 32, .rc, 0⟩

def Fd.STR_LB_CTL_DEPTH : Fld := ⟨0, 3, .rw, 0⟩
def Fd.STR_LB_CTL_INJECT : Fld := ⟨3, 1, .rw, 0⟩
def Fd.STR_LB_CTL_GO : Fld := ⟨4, 1, .rw, 0⟩
def Fd.STR_LB_CTL_DONE : Fld := ⟨5, 1, .w1c, 0⟩
def Fd.STR_LB_CTL_PASS : Fld := ⟨6, 1, .ro, 0⟩

def Fd.STR_LB_RESULT_ERRS : Fld := ⟨0, 16, .ro, 0⟩
def Fd.STR_LB_RESULT_LANE : Fld := ⟨16, 4, .ro, 0xF⟩
def Fd.STR_LB_RESULT_REFUSED : Fld := ⟨20, 1, .ro, 0⟩

def Fd.STR_LB_ADDR_LO_ADDR : Fld := ⟨18, 14, .rw, 0⟩

def Fd.STR_LB_ADDR_HI_ADDR : Fld := ⟨0, 16, .rw, 0⟩

def Fd.STR_LB_LANE_ERR_COUNT : Fld := ⟨0, 32, .ro, 0⟩

def Fd.STR_ROUTE_PORT : Fld := ⟨0, 4, .rw, 0⟩
def Fd.STR_ROUTE_VALID : Fld := ⟨4, 1, .rw, 0⟩

def Fd.STR_SELF_ID : Fld := ⟨0, 10, .rw, 0⟩
def Fd.STR_SELF_VALID : Fld := ⟨10, 1, .rw, 0⟩

def Fd.STR_TRK_STATUS_INUSE : Fld := ⟨0, 13, .ro, 0⟩

def Fd.STR_TRK_TO_LIMIT : Fld := ⟨0, 16, .rw, 0x186A⟩

def Fd.STR_CNT_TRK_FULL_COUNT : Fld := ⟨0, 32, .rc, 0⟩

def Fd.STR_CNT_TXN_TO_COUNT : Fld := ⟨0, 32, .rc, 0⟩

def Fd.STR_CNT_LATE_COUNT : Fld := ⟨0, 32, .rc, 0⟩

def Fd.STR_CNT_NOROUTE_COUNT : Fld := ⟨0, 32, .rc, 0⟩

def Fd.STR_CNT_FWD_COUNT : Fld := ⟨0, 32, .rc, 0⟩

def Fd.TIDE_CTL_LOAD : Fld := ⟨0, 1, .rw, 0⟩
def Fd.TIDE_CTL_UNLOAD : Fld := ⟨1, 1, .rw, 0⟩
def Fd.TIDE_CTL_FAILNOW : Fld := ⟨2, 1, .rw, 0⟩

def Fd.TIDE_CFG_PROFILE : Fld := ⟨0, 1, .rw, 0⟩
def Fd.TIDE_CFG_ROOT : Fld := ⟨1, 1, .rw, 0⟩
def Fd.TIDE_CFG_PARENT : Fld := ⟨2, 4, .rw, 0⟩
def Fd.TIDE_CFG_HOLDGO : Fld := ⟨6, 1, .rw, 0⟩
def Fd.TIDE_CFG_NTYPES : Fld := ⟨8, 4, .rw, 0⟩

def Fd.TIDE_CHILD_MASK : Fld := ⟨0, 16, .rw, 0⟩

def Fd.TIDE_SEED_LO_VAL : Fld := ⟨0, 32, .rw, 0⟩

def Fd.TIDE_SEED_HI_VAL : Fld := ⟨0, 32, .rw, 0⟩

def Fd.TIDE_FIRST_NUM : Fld := ⟨0, 32, .rw, 0⟩

def Fd.TIDE_NUM_NUM : Fld := ⟨0, 32, .ro, 0⟩

def Fd.TIDE_STEP_NUM : Fld := ⟨0, 32, .ro, 0⟩

def Fd.TIDE_STRETCH_SQ : Fld := ⟨0, 16, .rw, 0x3E8⟩
def Fd.TIDE_STRETCH_SMAX : Fld := ⟨16, 4, .rw, 8⟩

def Fd.TIDE_STATUS_STATE : Fld := ⟨0, 3, .ro, 0⟩
def Fd.TIDE_STATUS_K : Fld := ⟨3, 4, .ro, 0⟩
def Fd.TIDE_STATUS_OWN : Fld := ⟨7, 1, .ro, 0⟩
def Fd.TIDE_STATUS_KIDS : Fld := ⟨8, 16, .ro, 0⟩

def Fd.TIDE_GO_GO : Fld := ⟨0, 1, .rw, 0⟩
def Fd.TIDE_GO_CMD : Fld := ⟨8, 8, .rw, 0⟩

def Fd.TIDE_FAIL_REASON : Fld := ⟨0, 4, .ro, 0⟩
def Fd.TIDE_FAIL_MODULE : Fld := ⟨4, 10, .ro, 0⟩

def Fd.TIDE_ERR_LOADREJ : Fld := ⟨0, 1, .w1c, 0⟩
def Fd.TIDE_ERR_GROUP : Fld := ⟨1, 1, .w1c, 0⟩
def Fd.TIDE_ERR_OVERRUN : Fld := ⟨2, 1, .w1c, 0⟩
def Fd.TIDE_ERR_XOVF : Fld := ⟨3, 1, .w1c, 0⟩
def Fd.TIDE_ERR_FAIL : Fld := ⟨4, 1, .w1c, 0⟩

def Fd.TIDE_LOADERR_CODE : Fld := ⟨0, 8, .ro, 0⟩

def Fd.TIDE_AGG_FLAGS_FLAGS : Fld := ⟨0, 4, .ro, 0⟩

def Fd.TIDE_AGG_NONFIN_COUNT : Fld := ⟨0, 32, .ro, 0⟩

def Fd.TIDE_AGG_BOUND_COUNT : Fld := ⟨0, 32, .ro, 0⟩

def Fd.TIDE_AGG_LOSSN_COUNT : Fld := ⟨0, 32, .ro, 0⟩

def Fd.TIDE_AGG_LOSS_VAL : Fld := ⟨0, 32, .ro, 0⟩

def Fd.TIDE_AGG_NSQ_LO_VAL : Fld := ⟨0, 32, .ro, 0⟩

def Fd.TIDE_AGG_NSQ_HI_VAL : Fld := ⟨0, 32, .ro, 0⟩

def Fd.TIDE_AGG_IDS_IDS : Fld := ⟨0, 32, .ro, 0⟩

def Fd.TIDE_AGG_NSUSPECT_COUNT : Fld := ⟨0, 32, .ro, 0⟩

def Fd.TIDE_GNSQ_LO_VAL : Fld := ⟨0, 32, .ro, 0⟩

def Fd.TIDE_GNSQ_HI_VAL : Fld := ⟨0, 32, .ro, 0⟩

def Fd.TIDE_GCMD_CMD : Fld := ⟨0, 8, .ro, 0⟩

def Fd.TIDE_BKT_LO_ADDR : Fld := ⟨12, 20, .rw, 0⟩

def Fd.TIDE_BKT_HI_ADDR : Fld := ⟨0, 16, .rw, 0⟩

def Fd.TIDE_GRP_LO_ADDR : Fld := ⟨12, 20, .rw, 0⟩

def Fd.TIDE_GRP_HI_ADDR : Fld := ⟨0, 16, .rw, 0⟩

def Fd.TIDE_CNT_TIDES_COUNT : Fld := ⟨0, 32, .rc, 0⟩

def Fd.TIDE_CNT_STRETCH_COUNT : Fld := ⟨0, 32, .rc, 0⟩

def Fd.TIDE_CNT_OVERRUN_COUNT : Fld := ⟨0, 32, .rc, 0⟩

def Fd.TIDE_CNT_HELD_COUNT : Fld := ⟨0, 32, .rc, 0⟩

def Fd.TIDE_CNT_XOVF_COUNT : Fld := ⟨0, 32, .rc, 0⟩

def Fd.TIDE_TYPE_TLEN : Fld := ⟨0, 24, .rw, 0⟩

def Fd.TIDE_BCN_CFG_EN : Fld := ⟨0, 1, .rw, 0⟩
def Fd.TIDE_BCN_CFG_POLICY : Fld := ⟨1, 1, .rw, 0⟩
def Fd.TIDE_BCN_CFG_REPLAY : Fld := ⟨2, 1, .rw, 0⟩
def Fd.TIDE_BCN_CFG_GTYPE : Fld := ⟨4, 4, .rw, 0⟩
def Fd.TIDE_BCN_CFG_WSTEP : Fld := ⟨8, 8, .rw, 1⟩
def Fd.TIDE_BCN_CFG_WARM : Fld := ⟨16, 8, .rw, 20⟩

def Fd.TIDE_BCN_ALPHA_VAL : Fld := ⟨0, 32, .rw, 0x3C23D70A⟩

def Fd.TIDE_BCN_SPIKE_VAL : Fld := ⟨0, 32, .rw, 0x40000000⟩

def Fd.TIDE_BCN_NFMAX_COUNT : Fld := ⟨0, 32, .rw, 0⟩

def Fd.TIDE_BCN_BDMAX_COUNT : Fld := ⟨0, 32, .rw, 0⟩

def Fd.TIDE_BCN_EMA_VAL : Fld := ⟨0, 32, .rw, 0⟩

def Fd.TIDE_BCN_WINS_COUNT : Fld := ⟨0, 32, .rw, 0⟩

def Fd.TIDE_BCN_WLOSS_VAL : Fld := ⟨0, 32, .ro, 0⟩

def Fd.TIDE_BCN_WLOSSN_COUNT : Fld := ⟨0, 32, .ro, 0⟩

def Fd.TIDE_BCN_WNONFIN_COUNT : Fld := ⟨0, 32, .ro, 0⟩

def Fd.TIDE_BCN_WBOUND_COUNT : Fld := ⟨0, 32, .ro, 0⟩

def Fd.TIDE_BCN_VERDICT_VERDICT : Fld := ⟨0, 3, .ro, 0⟩
def Fd.TIDE_BCN_VERDICT_WPLAUS : Fld := ⟨3, 1, .ro, 0⟩
def Fd.TIDE_BCN_VERDICT_REASON : Fld := ⟨4, 4, .ro, 0⟩

def Fd.TIDE_BCN_CNT_SKIP_COUNT : Fld := ⟨0, 32, .rc, 0⟩

def Fd.TIDE_BCN_CNT_REPLAY_COUNT : Fld := ⟨0, 32, .rc, 0⟩

def Fd.TIDE_BCN_CNT_UPD_COUNT : Fld := ⟨0, 32, .rc, 0⟩

def Fd.TIDE_QSTATUS_DONE : Fld := ⟨0, 1, .ro, 0⟩

def Fd.TIDE_SLOT_LO_ADDR : Fld := ⟨12, 20, .rw, 0⟩

def Fd.TIDE_SLOT_HI_ADDR : Fld := ⟨0, 16, .rw, 0⟩

def Fd.RCH_STATUS_BUSY : Fld := ⟨0, 1, .ro, 0⟩
def Fd.RCH_STATUS_BKT : Fld := ⟨1, 11, .ro, 0⟩
def Fd.RCH_STATUS_ARMED : Fld := ⟨16, 12, .ro, 0⟩

def Fd.RCH_CNT_ELEM_COUNT : Fld := ⟨0, 32, .rc, 0⟩

def Fd.RCH_CNT_BKT_COUNT : Fld := ⟨0, 32, .rc, 0⟩

def Fd.TIDE_BCN_PLAUS_LO_BITS : Fld := ⟨0, 32, .ro, 0⟩

def Fd.TIDE_BCN_PLAUS_HI_BITS : Fld := ⟨0, 4, .ro, 0⟩

def Fd.BUOY_ERR_UNDER : Fld := ⟨0, 1, .w1c, 0⟩
def Fd.BUOY_ERR_SAT : Fld := ⟨1, 1, .w1c, 0⟩
def Fd.BUOY_ERR_MULTI : Fld := ⟨2, 1, .w1c, 0⟩

def Fd.BUOY_ERR_ID_BIDX : Fld := ⟨0, 14, .ro, 0⟩
def Fd.BUOY_ERR_ID_PORT : Fld := ⟨14, 6, .ro, 0⟩
def Fd.BUOY_ERR_ID_MOD : Fld := ⟨20, 10, .ro, 0⟩

def Fd.BUOY_DUMP_ADDR_LO_ADDR : Fld := ⟨12, 20, .rw, 0⟩

def Fd.BUOY_DUMP_ADDR_HI_ADDR : Fld := ⟨0, 16, .rw, 0⟩

def Fd.BUOY_DUMP_CTL_GO : Fld := ⟨0, 1, .rw, 0⟩
def Fd.BUOY_DUMP_CTL_DONE : Fld := ⟨1, 1, .w1c, 0⟩
def Fd.BUOY_DUMP_CTL_ERR : Fld := ⟨2, 1, .w1c, 0⟩

def Fd.BUOY_CNT_OPS_COUNT : Fld := ⟨0, 32, .rc, 0⟩

def Fd.BUOY_CNT_UNDER_COUNT : Fld := ⟨0, 32, .rc, 0⟩

def Fd.BUOY_CNT_HAND_COUNT : Fld := ⟨0, 32, .rc, 0⟩

def Fd.CHT_INV_CTX : Fld := ⟨0, 4, .rw, 0⟩
def Fd.CHT_INV_SCOPE : Fld := ⟨4, 2, .rw, 0⟩
def Fd.CHT_INV_GO : Fld := ⟨6, 1, .rw, 0⟩
def Fd.CHT_INV_DONE : Fld := ⟨7, 1, .w1c, 0⟩

def Fd.CHT_ERR_XLATE : Fld := ⟨0, 1, .w1c, 0⟩
def Fd.CHT_ERR_PROT : Fld := ⟨1, 1, .w1c, 0⟩
def Fd.CHT_ERR_BOT : Fld := ⟨2, 1, .w1c, 0⟩
def Fd.CHT_ERR_MULTI : Fld := ⟨3, 1, .w1c, 0⟩

def Fd.CHT_ERR_VA_LO_VA : Fld := ⟨0, 32, .ro, 0⟩

def Fd.CHT_ERR_VA_HI_VA : Fld := ⟨0, 20, .ro, 0⟩

def Fd.CHT_ERR_INFO_CTX : Fld := ⟨0, 4, .ro, 0⟩
def Fd.CHT_ERR_INFO_LISL : Fld := ⟨4, 8, .ro, 0⟩
def Fd.CHT_ERR_INFO_WR : Fld := ⟨12, 1, .ro, 0⟩
def Fd.CHT_ERR_INFO_ENG : Fld := ⟨13, 3, .ro, 0⟩
def Fd.CHT_ERR_INFO_WHY : Fld := ⟨16, 4, .ro, 0⟩

def Fd.CHT_T1_SRC_LO_ADDR : Fld := ⟨0, 32, .rw, 0⟩

def Fd.CHT_T1_SRC_HI_ADDR : Fld := ⟨0, 16, .rw, 0⟩

def Fd.CHT_T1_CTL_CTX : Fld := ⟨0, 4, .rw, 0⟩
def Fd.CHT_T1_CTL_LISL : Fld := ⟨4, 8, .rw, 0⟩
def Fd.CHT_T1_CTL_SLOT : Fld := ⟨12, 6, .rw, 0⟩
def Fd.CHT_T1_CTL_GO : Fld := ⟨18, 1, .rw, 0⟩
def Fd.CHT_T1_CTL_DONE : Fld := ⟨19, 1, .w1c, 0⟩
def Fd.CHT_T1_CTL_STATUS : Fld := ⟨20, 4, .ro, 0⟩

def Fd.CHT_CNT_WALK_COUNT : Fld := ⟨0, 32, .rc, 0⟩

def Fd.CHT_CNT_XLATE_COUNT : Fld := ⟨0, 32, .rc, 0⟩

def Fd.CHT_CNT_PROT_COUNT : Fld := ⟨0, 32, .rc, 0⟩

def Fd.CHT_CTX_PT_ROOT_EN : Fld := ⟨0, 1, .rw, 0⟩
def Fd.CHT_CTX_PT_ROOT_ROOT_LO : Fld := ⟨16, 16, .rw, 0⟩

def Fd.CHT_CTX_PT_ROOTHI_ROOT_HI : Fld := ⟨0, 16, .rw, 0⟩

def Fd.CHT_CTX_PT_CT_CT_LO : Fld := ⟨12, 20, .rw, 0⟩

def Fd.CHT_CTX_PT_CTHI_CT_HI : Fld := ⟨0, 16, .rw, 0⟩

def Fd.CHT_BOT_LO_WORD : Fld := ⟨0, 32, .rw, 0⟩

def Fd.CHT_BOT_HI_WORD : Fld := ⟨0, 32, .rw, 0⟩

def Fd.FUU_CTL_SET : Fld := ⟨0, 2, .rw, 0⟩
def Fd.FUU_CTL_GO : Fld := ⟨2, 1, .rw, 0⟩
def Fd.FUU_CTL_DONE : Fld := ⟨3, 1, .w1c, 0⟩

def Fd.FUU_STATE_CUR : Fld := ⟨0, 1, .ro, 0⟩
def Fd.FUU_STATE_LOCK : Fld := ⟨1, 1, .rw, 0⟩
def Fd.FUU_STATE_INPLACE : Fld := ⟨2, 1, .ro, 0⟩
def Fd.FUU_STATE_BUSY : Fld := ⟨3, 1, .ro, 0⟩

def Fd.FUU_TBL_LO_ADDR : Fld := ⟨6, 26, .rw, 0⟩

def Fd.FUU_TBL_HI_ADDR : Fld := ⟨0, 16, .rw, 0⟩

def Fd.FUU_TBL_N_COUNT : Fld := ⟨0, 11, .rw, 0⟩

def Fd.FUU_BOFF_LO_OFF : Fld := ⟨0, 32, .rw, 0⟩

def Fd.FUU_BOFF_HI_OFF : Fld := ⟨0, 16, .rw, 0⟩

def Fd.FUU_T_COUNT : Fld := ⟨0, 32, .rw, 0⟩

def Fd.FUU_EPS_VAL : Fld := ⟨0, 32, .rw, 0x322BCC77⟩

def Fd.FUU_CLIP_VAL : Fld := ⟨0, 32, .rw, 0x7F800000⟩

def Fd.FUU_CMP_TOL : Fld := ⟨0, 16, .rw, 0⟩

def Fd.FUU_CMP_CNT_COUNT : Fld := ⟨0, 32, .ro, 0⟩

def Fd.FUU_CMP_FIRST_INDEX : Fld := ⟨0, 32, .ro, 0⟩

def Fd.FUU_ERR_FAULT : Fld := ⟨0, 1, .w1c, 0⟩
def Fd.FUU_ERR_REEXEC : Fld := ⟨1, 1, .w1c, 0⟩
def Fd.FUU_ERR_HARD : Fld := ⟨2, 1, .w1c, 0⟩

def Fd.FUU_ERR_INFO_CODE : Fld := ⟨0, 8, .ro, 0⟩
def Fd.FUU_ERR_INFO_ENTRY : Fld := ⟨8, 10, .ro, 0⟩

def Fd.FUU_CNT_PARAMS_COUNT : Fld := ⟨0, 32, .rc, 0⟩

def Fd.FUU_CNT_REEXEC_COUNT : Fld := ⟨0, 32, .rc, 0⟩

def Fd.FUU_UCODE_WORD : Fld := ⟨0, 32, .rw, 0⟩


def Fd.PLT_CORE_READY : Fld := ⟨0, 1, .rw, 0⟩
def Fd.PLT_CORE_RESTARTS : Fld := ⟨8, 8, .ro, 0⟩
def Fd.PLT_CORE_EXPIRED : Fld := ⟨16, 1, .w1c, 0⟩

def Fd.PLT_WDOG_KICK : Fld := ⟨0, 1, .rw, 0⟩
def Fd.PLT_WDOG_LEFT : Fld := ⟨16, 6, .ro, 50⟩

def Fd.PLT_CTXF_FENCED : Fld := ⟨0, 16, .w1c, 0⟩

def Fd.PLT_SHRWR_EN : Fld := ⟨0, 1, .rw, 0⟩

def Fd.PLT_RDB_RING : Fld := ⟨0, 6, .rw, 0⟩
def Fd.PLT_RDB_GO : Fld := ⟨8, 1, .rw, 0⟩

def Fd.PLT_MOWN_OWNER : Fld := ⟨0, 16, .rw, 0xE4E4⟩

def Fd.PLT_ROWN_OWNER : Fld := ⟨0, 2, .rw, 0⟩
def Fd.PLT_ROWN_PEND : Fld := ⟨2, 1, .w1c, 0⟩
def Fd.PLT_ROWN_FTIMER : Fld := ⟨3, 1, .ro, 0⟩

def Fd.PLT_MBX_IN_IN : Fld := ⟨0, 32, .rw, 0⟩

def Fd.PLT_MBX_OUT_OUT : Fld := ⟨0, 32, .rw, 0⟩

def Fd.PLT_MBX_DB_IN_RING : Fld := ⟨0, 1, .rw, 0⟩
def Fd.PLT_MBX_DB_OUT_RING : Fld := ⟨1, 1, .rw, 0⟩
def Fd.PLT_MBX_DB_OVR : Fld := ⟨2, 1, .w1c, 0⟩

def Fd.SHR_RST_CORE : Fld := ⟨0, 16, .rw, 0⟩

def Fd.SHR_STATUS_RUN : Fld := ⟨0, 16, .ro, 0⟩

def Fd.SHR_MBX_IRQ_TARGET : Fld := ⟨0, 24, .rw, 0⟩

def Fd.MGT_STATUS_MLINK : Fld := ⟨0, 1, .ro, 0⟩
def Fd.MGT_STATUS_MFEC : Fld := ⟨1, 2, .ro, 0⟩
def Fd.MGT_STATUS_PLINK : Fld := ⟨3, 1, .ro, 0⟩
def Fd.MGT_STATUS_PRATE : Fld := ⟨4, 3, .ro, 0⟩
def Fd.MGT_STATUS_PWIDTH : Fld := ⟨7, 5, .ro, 0⟩
def Fd.MGT_STATUS_CAP_ACT : Fld := ⟨12, 1, .ro, 0⟩
def Fd.MGT_STATUS_THROTTLE : Fld := ⟨13, 1, .ro, 0⟩
def Fd.MGT_STATUS_PCAP : Fld := ⟨14, 1, .ro, 0⟩

def Fd.MGT_PCAP_LIMIT : Fld := ⟨0, 12, .rw, 0x960⟩
def Fd.MGT_PCAP_ALT : Fld := ⟨16, 12, .rw, 0x640⟩

def Fd.MGT_GATE_W : Fld := ⟨0, 8, .ro, 0⟩
def Fd.MGT_GATE_LEFF : Fld := ⟨16, 12, .ro, 0x960⟩

def Fd.MGT_PWR_PIN : Fld := ⟨0, 12, .ro, 0⟩
def Fd.MGT_PWR_VIN : Fld := ⟨16, 12, .ro, 0⟩

def Fd.MGT_TEMP_TJ : Fld := ⟨0, 8, .ro, 0⟩
def Fd.MGT_TEMP_THBM : Fld := ⟨8, 8, .ro, 0⟩
def Fd.MGT_TEMP_TBASE : Fld := ⟨16, 8, .ro, 0⟩
def Fd.MGT_TEMP_TVR : Fld := ⟨24, 8, .ro, 0⟩

def Fd.MGT_THERM_THROTTLE : Fld := ⟨0, 8, .rw, 0x5F⟩

def Fd.MGT_ALERT_THROTTLE : Fld := ⟨0, 1, .w1c, 0⟩
def Fd.MGT_ALERT_CAPSAT : Fld := ⟨1, 1, .w1c, 0⟩
def Fd.MGT_ALERT_PCAP : Fld := ⟨2, 1, .w1c, 0⟩
def Fd.MGT_ALERT_PDOWN : Fld := ⟨3, 1, .w1c, 0⟩
def Fd.MGT_ALERT_MDOWN : Fld := ⟨4, 1, .w1c, 0⟩
def Fd.MGT_ALERT_CLK : Fld := ⟨5, 1, .w1c, 0⟩

def Fd.MGT_ALERT_EN_THROTTLE : Fld := ⟨0, 1, .rw, 0⟩
def Fd.MGT_ALERT_EN_CAPSAT : Fld := ⟨1, 1, .rw, 0⟩
def Fd.MGT_ALERT_EN_PCAP : Fld := ⟨2, 1, .rw, 0⟩
def Fd.MGT_ALERT_EN_PDOWN : Fld := ⟨3, 1, .rw, 0⟩
def Fd.MGT_ALERT_EN_MDOWN : Fld := ⟨4, 1, .rw, 0⟩
def Fd.MGT_ALERT_EN_CLK : Fld := ⟨5, 1, .rw, 0⟩

def Fd.MGT_MAC_LO_MAC : Fld := ⟨0, 32, .rw, 0⟩

def Fd.MGT_MAC_HI_MAC : Fld := ⟨0, 16, .rw, 0⟩

def Fd.MGT_WIN_LO_BASE_LO : Fld := ⟨12, 20, .rw, 0⟩

def Fd.MGT_WIN_HI_BASE_HI : Fld := ⟨0, 16, .rw, 0⟩

def Fd.MGT_WIN_SIZE_SIZE : Fld := ⟨0, 20, .rw, 0⟩

def Fd.MGT_LB_PORT : Fld := ⟨0, 1, .rw, 0⟩
def Fd.MGT_LB_DEPTH : Fld := ⟨1, 2, .rw, 0⟩
def Fd.MGT_LB_GO : Fld := ⟨3, 1, .rw, 0⟩
def Fd.MGT_LB_DONE : Fld := ⟨4, 1, .w1c, 0⟩
def Fd.MGT_LB_PASS : Fld := ⟨5, 1, .ro, 0⟩
def Fd.MGT_LB_ERRS : Fld := ⟨16, 16, .ro, 0⟩

def Fd.MGT_CNT_REQ_COUNT : Fld := ⟨0, 32, .rc, 0⟩

def Fd.MGT_CNT_DENIED_COUNT : Fld := ⟨0, 32, .rc, 0⟩

def Fd.MGT_CNT_DROP_COUNT : Fld := ⟨0, 32, .rc, 0⟩

def Fd.MGT_CNT_GATED_COUNT : Fld := ⟨0, 32, .rc, 0⟩

def Fd.BOOT_STATUS_STAGE : Fld := ⟨0, 4, .ro, 1⟩
def Fd.BOOT_STATUS_MODE : Fld := ⟨4, 1, .ro, 0⟩
def Fd.BOOT_STATUS_FWCOPY : Fld := ⟨5, 1, .ro, 0⟩
def Fd.BOOT_STATUS_RECOVERY : Fld := ⟨6, 1, .ro, 0⟩
def Fd.BOOT_STATUS_READY : Fld := ⟨7, 1, .ro, 0⟩
def Fd.BOOT_STATUS_ID_FAIL : Fld := ⟨8, 1, .ro, 0⟩
def Fd.BOOT_STATUS_ISTHMUS : Fld := ⟨9, 1, .ro, 0⟩
def Fd.BOOT_STATUS_MEMORY : Fld := ⟨10, 1, .ro, 0⟩
def Fd.BOOT_STATUS_ISLANDS : Fld := ⟨11, 1, .ro, 0⟩
def Fd.BOOT_STATUS_SHORE : Fld := ⟨12, 1, .ro, 0⟩
def Fd.BOOT_STATUS_RESTARTS : Fld := ⟨16, 4, .ro, 0⟩

def Fd.BOOT_ERR_IMG_A : Fld := ⟨0, 1, .w1c, 0⟩
def Fd.BOOT_ERR_IMG_B : Fld := ⟨1, 1, .w1c, 0⟩
def Fd.BOOT_ERR_CFG : Fld := ⟨2, 1, .w1c, 0⟩
def Fd.BOOT_ERR_REPAIR : Fld := ⟨3, 1, .w1c, 0⟩
def Fd.BOOT_ERR_FL : Fld := ⟨4, 1, .w1c, 0⟩
def Fd.BOOT_ERR_IDX : Fld := ⟨5, 1, .w1c, 0⟩

def Fd.BOOT_FL_CTL_OP : Fld := ⟨0, 2, .rw, 0⟩
def Fd.BOOT_FL_CTL_DEV : Fld := ⟨2, 1, .rw, 0⟩
def Fd.BOOT_FL_CTL_GO : Fld := ⟨3, 1, .rw, 0⟩
def Fd.BOOT_FL_CTL_DONE : Fld := ⟨4, 1, .w1c, 0⟩
def Fd.BOOT_FL_CTL_ERR : Fld := ⟨5, 1, .w1c, 0⟩
def Fd.BOOT_FL_CTL_BUSY : Fld := ⟨6, 1, .ro, 0⟩

def Fd.BOOT_FL_ADDR_OFF : Fld := ⟨0, 27, .rw, 0⟩

def Fd.BOOT_FL_SRC_LO_ADDR : Fld := ⟨8, 24, .rw, 0⟩

def Fd.BOOT_FL_SRC_HI_ADDR : Fld := ⟨0, 16, .rw, 0⟩

def Fd.BOOT_FL_LEN_BYTES : Fld := ⟨0, 17, .rw, 0⟩

def Fd.BOOT_RCV_LEN : Fld := ⟨0, 23, .rw, 0⟩
def Fd.BOOT_RCV_GO : Fld := ⟨31, 1, .rw, 0⟩

def Fd.ISL_POLICY_POLICY : Fld := ⟨0, 2, .rw, 0⟩
def Fd.ISL_POLICY_LOADED : Fld := ⟨31, 1, .ro, 0⟩

def Fd.ISL_LMAP_PHYS : Fld := ⟨0, 8, .rw, 0xFF⟩
def Fd.ISL_LMAP_VALID : Fld := ⟨8, 1, .ro, 0⟩
def Fd.ISL_LMAP_PIN : Fld := ⟨9, 1, .rw, 0⟩

def Fd.ISL_PSTATE_STATE : Fld := ⟨0, 3, .ro, 0⟩
def Fd.ISL_PSTATE_LOGICAL : Fld := ⟨3, 8, .ro, 0xFF⟩
def Fd.ISL_PSTATE_SEQ : Fld := ⟨16, 16, .ro, 0⟩

def Fd.ISL_SWAP_CTL_SRC : Fld := ⟨0, 8, .rw, 0⟩
def Fd.ISL_SWAP_CTL_DST : Fld := ⟨8, 8, .rw, 0⟩
def Fd.ISL_SWAP_CTL_GO : Fld := ⟨16, 1, .rw, 0⟩
def Fd.ISL_SWAP_CTL_COPIED : Fld := ⟨17, 1, .ro, 0⟩
def Fd.ISL_SWAP_CTL_REJ : Fld := ⟨18, 1, .w1c, 0⟩
def Fd.ISL_SWAP_CTL_ABORT : Fld := ⟨19, 1, .rw, 0⟩
def Fd.ISL_SWAP_CTL_AFTER : Fld := ⟨20, 2, .rw, 0⟩
def Fd.ISL_SWAP_CTL_RELEASE : Fld := ⟨22, 1, .rw, 0⟩
def Fd.ISL_SWAP_CTL_HOLD : Fld := ⟨23, 1, .ro, 0⟩

def Fd.ISL_SWAP_CURSOR_LINES : Fld := ⟨0, 16, .ro, 0⟩

def Fd.ISL_TEST_CTL_SEL : Fld := ⟨0, 8, .rw, 0⟩
def Fd.ISL_TEST_CTL_CMD : Fld := ⟨8, 2, .rw, 0⟩
def Fd.ISL_TEST_CTL_GO : Fld := ⟨10, 1, .rw, 0⟩
def Fd.ISL_TEST_CTL_REJ : Fld := ⟨11, 1, .w1c, 0⟩

def Fd.HBM_STATUS_STATE : Fld := ⟨0, 2, .ro, 0⟩
def Fd.HBM_STATUS_SCRUB_ACT : Fld := ⟨2, 1, .ro, 0⟩
def Fd.HBM_STATUS_LB_BUSY : Fld := ⟨3, 1, .ro, 0⟩

def Fd.HBM_SCRUB_EN : Fld := ⟨0, 1, .rw, 1⟩
def Fd.HBM_SCRUB_INTERVAL : Fld := ⟨8, 24, .rw, 336⟩

def Fd.HBM_SCRUB_POS_UNIT : Fld := ⟨0, 32, .ro, 0⟩

def Fd.HBM_SCRUB_PASS_COUNT : Fld := ⟨0, 32, .ro, 0⟩

def Fd.HBM_ERR_CE : Fld := ⟨0, 1, .w1c, 0⟩
def Fd.HBM_ERR_UE : Fld := ⟨1, 1, .w1c, 0⟩
def Fd.HBM_ERR_CE_MULTI : Fld := ⟨2, 1, .w1c, 0⟩
def Fd.HBM_ERR_UE_MULTI : Fld := ⟨3, 1, .w1c, 0⟩
def Fd.HBM_ERR_LINK : Fld := ⟨4, 1, .w1c, 0⟩

def Fd.HBM_CE_ADDR_LO_ADDR : Fld := ⟨0, 32, .ro, 0⟩

def Fd.HBM_CE_ADDR_HI_ADDR : Fld := ⟨0, 16, .ro, 0⟩

def Fd.HBM_CE_INFO_SYMBOL : Fld := ⟨0, 7, .ro, 0⟩
def Fd.HBM_CE_INFO_LOC : Fld := ⟨7, 5, .ro, 0⟩
def Fd.HBM_CE_INFO_REQ : Fld := ⟨12, 4, .ro, 0⟩
def Fd.HBM_CE_INFO_LISL : Fld := ⟨16, 8, .ro, 0⟩

def Fd.HBM_UE_ADDR_LO_ADDR : Fld := ⟨0, 32, .ro, 0⟩

def Fd.HBM_UE_ADDR_HI_ADDR : Fld := ⟨0, 16, .ro, 0⟩

def Fd.HBM_UE_INFO_SYMBOL : Fld := ⟨0, 7, .ro, 0⟩
def Fd.HBM_UE_INFO_LOC : Fld := ⟨7, 5, .ro, 0⟩
def Fd.HBM_UE_INFO_REQ : Fld := ⟨12, 4, .ro, 0⟩
def Fd.HBM_UE_INFO_LISL : Fld := ⟨16, 8, .ro, 0⟩
def Fd.HBM_UE_INFO_POISON : Fld := ⟨24, 1, .ro, 0⟩

def Fd.HBM_CNT_CE_COUNT : Fld := ⟨0, 32, .rc, 0⟩

def Fd.HBM_CNT_UE_COUNT : Fld := ⟨0, 32, .rc, 0⟩

def Fd.HBM_CNT_POISON_COUNT : Fld := ⟨0, 32, .rc, 0⟩

def Fd.HBM_CNT_SCRUB_CE_COUNT : Fld := ⟨0, 32, .rc, 0⟩

def Fd.HBM_CNT_ODECC_COUNT : Fld := ⟨0, 32, .rc, 0⟩

def Fd.HBM_CTL_MAINT : Fld := ⟨0, 1, .rw, 0⟩

def Fd.HBM_LB_CTL_DEPTH : Fld := ⟨0, 2, .rw, 0⟩
def Fd.HBM_LB_CTL_GO : Fld := ⟨2, 1, .rw, 0⟩
def Fd.HBM_LB_CTL_DONE : Fld := ⟨3, 1, .w1c, 0⟩
def Fd.HBM_LB_CTL_PASS : Fld := ⟨4, 1, .ro, 0⟩

def Fd.HBM_LB_RESULT_MISMATCH : Fld := ⟨0, 16, .ro, 0⟩
def Fd.HBM_LB_RESULT_LANE : Fld := ⟨16, 10, .ro, 0x3FF⟩

def Fd.LPX_STATUS_STATE : Fld := ⟨0, 2, .ro, 0⟩
def Fd.LPX_STATUS_SCRUB_ACT : Fld := ⟨2, 1, .ro, 0⟩
def Fd.LPX_STATUS_LB_BUSY : Fld := ⟨3, 1, .ro, 0⟩

def Fd.LPX_SCRUB_EN : Fld := ⟨0, 1, .rw, 1⟩
def Fd.LPX_SCRUB_INTERVAL : Fld := ⟨8, 24, .rw, 1073⟩

def Fd.LPX_SCRUB_POS_UNIT : Fld := ⟨0, 32, .ro, 0⟩

def Fd.LPX_SCRUB_PASS_COUNT : Fld := ⟨0, 32, .ro, 0⟩

def Fd.LPX_ERR_CE : Fld := ⟨0, 1, .w1c, 0⟩
def Fd.LPX_ERR_UE : Fld := ⟨1, 1, .w1c, 0⟩
def Fd.LPX_ERR_CE_MULTI : Fld := ⟨2, 1, .w1c, 0⟩
def Fd.LPX_ERR_UE_MULTI : Fld := ⟨3, 1, .w1c, 0⟩
def Fd.LPX_ERR_LINK : Fld := ⟨4, 1, .w1c, 0⟩

def Fd.LPX_CE_ADDR_LO_ADDR : Fld := ⟨0, 32, .ro, 0⟩

def Fd.LPX_CE_ADDR_HI_ADDR : Fld := ⟨0, 16, .ro, 0⟩

def Fd.LPX_CE_INFO_SYMBOL : Fld := ⟨0, 7, .ro, 0⟩
def Fd.LPX_CE_INFO_LOC : Fld := ⟨7, 5, .ro, 0⟩
def Fd.LPX_CE_INFO_REQ : Fld := ⟨12, 4, .ro, 0⟩
def Fd.LPX_CE_INFO_LISL : Fld := ⟨16, 8, .ro, 0⟩

def Fd.LPX_UE_ADDR_LO_ADDR : Fld := ⟨0, 32, .ro, 0⟩

def Fd.LPX_UE_ADDR_HI_ADDR : Fld := ⟨0, 16, .ro, 0⟩

def Fd.LPX_UE_INFO_SYMBOL : Fld := ⟨0, 7, .ro, 0⟩
def Fd.LPX_UE_INFO_LOC : Fld := ⟨7, 5, .ro, 0⟩
def Fd.LPX_UE_INFO_REQ : Fld := ⟨12, 4, .ro, 0⟩
def Fd.LPX_UE_INFO_LISL : Fld := ⟨16, 8, .ro, 0⟩
def Fd.LPX_UE_INFO_POISON : Fld := ⟨24, 1, .ro, 0⟩

def Fd.LPX_CNT_CE_COUNT : Fld := ⟨0, 32, .rc, 0⟩

def Fd.LPX_CNT_UE_COUNT : Fld := ⟨0, 32, .rc, 0⟩

def Fd.LPX_CNT_POISON_COUNT : Fld := ⟨0, 32, .rc, 0⟩

def Fd.LPX_CNT_SCRUB_CE_COUNT : Fld := ⟨0, 32, .rc, 0⟩


def Fd.LPX_CTL_MAINT : Fld := ⟨0, 1, .rw, 0⟩

def Fd.LPX_LB_CTL_DEPTH : Fld := ⟨0, 2, .rw, 0⟩
def Fd.LPX_LB_CTL_GO : Fld := ⟨2, 1, .rw, 0⟩
def Fd.LPX_LB_CTL_DONE : Fld := ⟨3, 1, .w1c, 0⟩
def Fd.LPX_LB_CTL_PASS : Fld := ⟨4, 1, .ro, 0⟩

def Fd.LPX_LB_RESULT_MISMATCH : Fld := ⟨0, 16, .ro, 0⟩
def Fd.LPX_LB_RESULT_LANE : Fld := ⟨16, 10, .ro, 0x3FF⟩

/-! ### Addresses -/

/-- ISL_SEQ_CTL (R146). -/
def Reg.ISL_SEQ_CTL (p : Nat) : Nat := islWin p
/-- ISL_SEQ_STATUS (R146). -/
def Reg.ISL_SEQ_STATUS (p : Nat) : Nat := islWin p + 0x4
/-- ISL_SEQ_PC (R146). -/
def Reg.ISL_SEQ_PC (p i : Nat) : Nat := islWin p + 0x10 + i * 0x4
/-- ISL_SEQ_CTXID (R146). -/
def Reg.ISL_SEQ_CTXID (p i : Nat) : Nat := islWin p + 0x18 + i * 0x4
/-- ISL_SEQ_FAULT (R146). -/
def Reg.ISL_SEQ_FAULT (p i : Nat) : Nat := islWin p + 0x20 + i * 0x8
/-- ISL_SEQ_FINFO (R146). -/
def Reg.ISL_SEQ_FINFO (p i : Nat) : Nat := islWin p + 0x24 + i * 0x8
/-- ISL_SEQ_TIDE (R146). -/
def Reg.ISL_SEQ_TIDE (p : Nat) : Nat := islWin p + 0x30
/-- ISL_SEQ_WTO (R146). -/
def Reg.ISL_SEQ_WTO (p : Nat) : Nat := islWin p + 0x34
/-- ISL_SEQ_EVT (R146). -/
def Reg.ISL_SEQ_EVT (p : Nat) : Nat := islWin p + 0x38
/-- ISL_SEQ_CNT_ISSUE (R146). -/
def Reg.ISL_SEQ_CNT_ISSUE (p i : Nat) : Nat := islWin p + 0x40 + i * 0x4
/-- ISL_SEQ_CNT_STALL (R146). -/
def Reg.ISL_SEQ_CNT_STALL (p i : Nat) : Nat := islWin p + 0x48 + i * 0x4
/-- ISL_SEQ_CNT_CLAMP (R146). -/
def Reg.ISL_SEQ_CNT_CLAMP (p : Nat) : Nat := islWin p + 0x50
/-- ISL_SEQ_CNT_DRHOLD (R146). -/
def Reg.ISL_SEQ_CNT_DRHOLD (p : Nat) : Nat := islWin p + 0x54
/-- ISL_SEQ_SREG (R146). -/
def Reg.ISL_SEQ_SREG (p i j : Nat) : Nat := islWin p + 0x100 + i * 0x100 + j * 0x4
/-- ISL_SEQ_PRED (R146). -/
def Reg.ISL_SEQ_PRED (p i : Nat) : Nat := islWin p + 0x300 + i * 0x4
/-- ISL_SEQ_LOOP (R146). -/
def Reg.ISL_SEQ_LOOP (p i j : Nat) : Nat := islWin p + 0x310 + i * 0x40 + j * 0x10
/-- ISL_SEQ_LOOP_COUNT (R146). -/
def Reg.ISL_SEQ_LOOP_COUNT (p i j : Nat) : Nat := islWin p + 0x314 + i * 0x40 + j * 0x10
/-- ISL_SEQ_LOOP_ITER (R146). -/
def Reg.ISL_SEQ_LOOP_ITER (p i j : Nat) : Nat := islWin p + 0x318 + i * 0x40 + j * 0x10
/-- ISL_SEQ_LOOP_RSV (R146). -/
def Reg.ISL_SEQ_LOOP_RSV (p i j : Nat) : Nat := islWin p + 0x31C + i * 0x40 + j * 0x10
/-- ISL_LAG_STATUS (R287). -/
def Reg.ISL_LAG_STATUS (p : Nat) : Nat := islWin p + 0x1000
/-- ISL_LAG_SCRUB (R287). -/
def Reg.ISL_LAG_SCRUB (p : Nat) : Nat := islWin p + 0x1004
/-- ISL_LAG_SCRUB_POS (R287). -/
def Reg.ISL_LAG_SCRUB_POS (p : Nat) : Nat := islWin p + 0x1008
/-- ISL_LAG_SCRUB_PASS (R287). -/
def Reg.ISL_LAG_SCRUB_PASS (p : Nat) : Nat := islWin p + 0x100C
/-- ISL_LAG_ERR (R287). -/
def Reg.ISL_LAG_ERR (p : Nat) : Nat := islWin p + 0x1010
/-- ISL_LAG_CE_ADDR_LO (R287). -/
def Reg.ISL_LAG_CE_ADDR_LO (p : Nat) : Nat := islWin p + 0x1014
/-- ISL_LAG_CE_ADDR_HI (R287). -/
def Reg.ISL_LAG_CE_ADDR_HI (p : Nat) : Nat := islWin p + 0x1018
/-- ISL_LAG_CE_INFO (R287). -/
def Reg.ISL_LAG_CE_INFO (p : Nat) : Nat := islWin p + 0x101C
/-- ISL_LAG_UE_ADDR_LO (R287). -/
def Reg.ISL_LAG_UE_ADDR_LO (p : Nat) : Nat := islWin p + 0x1020
/-- ISL_LAG_UE_ADDR_HI (R287). -/
def Reg.ISL_LAG_UE_ADDR_HI (p : Nat) : Nat := islWin p + 0x1024
/-- ISL_LAG_UE_INFO (R287). -/
def Reg.ISL_LAG_UE_INFO (p : Nat) : Nat := islWin p + 0x1028
/-- ISL_LAG_CNT_CE (R287). -/
def Reg.ISL_LAG_CNT_CE (p : Nat) : Nat := islWin p + 0x1030
/-- ISL_LAG_CNT_UE (R287). -/
def Reg.ISL_LAG_CNT_UE (p : Nat) : Nat := islWin p + 0x1034
/-- ISL_LAG_CNT_POISON (R287). -/
def Reg.ISL_LAG_CNT_POISON (p : Nat) : Nat := islWin p + 0x1038
/-- ISL_LAG_CNT_SCRUB_CE (R287). -/
def Reg.ISL_LAG_CNT_SCRUB_CE (p : Nat) : Nat := islWin p + 0x103C
/-- ISL_LAG_CNT_ODECC (R287). -/
def Reg.ISL_LAG_CNT_ODECC (p : Nat) : Nat := islWin p + 0x1040
/-- ISL_LAG_CTL (R287). -/
def Reg.ISL_LAG_CTL (p : Nat) : Nat := islWin p + 0x104C
/-- ISL_LAG_LB_CTL (R287). -/
def Reg.ISL_LAG_LB_CTL (p : Nat) : Nat := islWin p + 0x1050
/-- ISL_LAG_LB_RESULT (R287). -/
def Reg.ISL_LAG_LB_RESULT (p : Nat) : Nat := islWin p + 0x1054
/-- ACC_STATUS (R105). -/
def Reg.ACC_STATUS (p : Nat) : Nat := islWin p + 0x2000
/-- ACC_CFG (R105). -/
def Reg.ACC_CFG (p : Nat) : Nat := islWin p + 0x2004
/-- ACC_ERR (R105). -/
def Reg.ACC_ERR (p : Nat) : Nat := islWin p + 0x2008
/-- ACC_ERR_ADDR (R105). -/
def Reg.ACC_ERR_ADDR (p : Nat) : Nat := islWin p + 0x200C
/-- ACC_CNT_ISSUE (R105). -/
def Reg.ACC_CNT_ISSUE (p : Nat) : Nat := islWin p + 0x2010
/-- ACC_CNT_SKIP (R105). -/
def Reg.ACC_CNT_SKIP (p : Nat) : Nat := islWin p + 0x2014
/-- ACC_CNT_WAIT (R105). -/
def Reg.ACC_CNT_WAIT (p : Nat) : Nat := islWin p + 0x2018
/-- ACC_CNT_HOLD (R105). -/
def Reg.ACC_CNT_HOLD (p : Nat) : Nat := islWin p + 0x201C
/-- ACC_CNT_LOADS (R105). -/
def Reg.ACC_CNT_LOADS (p : Nat) : Nat := islWin p + 0x2020
/-- ACC_WALK (R105). -/
def Reg.ACC_WALK (p i j : Nat) : Nat := islWin p + 0x2100 + i * 0x20 + j * 0x4
/-- EBB_STATUS (R181). -/
def Reg.EBB_STATUS (p : Nat) : Nat := islWin p + 0x3000
/-- EBB_ERR (R181). -/
def Reg.EBB_ERR (p : Nat) : Nat := islWin p + 0x3004
/-- EBB_FIRST (R181). -/
def Reg.EBB_FIRST (p : Nat) : Nat := islWin p + 0x3008
/-- EBB_FIRST_VAL (R181). -/
def Reg.EBB_FIRST_VAL (p : Nat) : Nat := islWin p + 0x300C
/-- EBB_LOSS (R181). -/
def Reg.EBB_LOSS (p : Nat) : Nat := islWin p + 0x3010
/-- EBB_TIDE_NONFIN (R181). -/
def Reg.EBB_TIDE_NONFIN (p : Nat) : Nat := islWin p + 0x3014
/-- EBB_TIDE_BOUND (R181). -/
def Reg.EBB_TIDE_BOUND (p : Nat) : Nat := islWin p + 0x3018
/-- EBB_CNT_ROWS (R181). -/
def Reg.EBB_CNT_ROWS (p : Nat) : Nat := islWin p + 0x3020
/-- EBB_CNT_NONFIN (R181). -/
def Reg.EBB_CNT_NONFIN (p : Nat) : Nat := islWin p + 0x3024
/-- EBB_CNT_BOUND (R181). -/
def Reg.EBB_CNT_BOUND (p : Nat) : Nat := islWin p + 0x3028
/-- EBB_CNT_OOBW (R181). -/
def Reg.EBB_CNT_OOBW (p : Nat) : Nat := islWin p + 0x302C
/-- EBB_CNT_WAIT (R181). -/
def Reg.EBB_CNT_WAIT (p : Nat) : Nat := islWin p + 0x3030
/-- EBB_CNT_OVF (R181). -/
def Reg.EBB_CNT_OVF (p : Nat) : Nat := islWin p + 0x3034
/-- EBB_DESC_W0 (R180). -/
def Reg.EBB_DESC_W0 (p i : Nat) : Nat := islWin p + 0x3100 + i * 0x40
/-- EBB_DESC_W1 (R180). -/
def Reg.EBB_DESC_W1 (p i : Nat) : Nat := islWin p + 0x3104 + i * 0x40
/-- EBB_DESC_W2 (R180). -/
def Reg.EBB_DESC_W2 (p i : Nat) : Nat := islWin p + 0x3108 + i * 0x40
/-- EBB_DESC_W3 (R180). -/
def Reg.EBB_DESC_W3 (p i : Nat) : Nat := islWin p + 0x310C + i * 0x40
/-- EBB_DESC_W4 (R180). -/
def Reg.EBB_DESC_W4 (p i : Nat) : Nat := islWin p + 0x3110 + i * 0x40
/-- EBB_DESC_W5 (R180). -/
def Reg.EBB_DESC_W5 (p i : Nat) : Nat := islWin p + 0x3114 + i * 0x40
/-- EBB_DESC_W6 (R180). -/
def Reg.EBB_DESC_W6 (p i : Nat) : Nat := islWin p + 0x3118 + i * 0x40
/-- EBB_DESC_W7 (R180). -/
def Reg.EBB_DESC_W7 (p i : Nat) : Nat := islWin p + 0x311C + i * 0x40
/-- EBB_DESC_W8 (R180). -/
def Reg.EBB_DESC_W8 (p i : Nat) : Nat := islWin p + 0x3120 + i * 0x40
/-- EBB_DESC_W9 (R180). -/
def Reg.EBB_DESC_W9 (p i : Nat) : Nat := islWin p + 0x3124 + i * 0x40
/-- EBB_DESC_W10 (R180). -/
def Reg.EBB_DESC_W10 (p i : Nat) : Nat := islWin p + 0x3128 + i * 0x40
/-- EBB_DESC_W11 (R180). -/
def Reg.EBB_DESC_W11 (p i : Nat) : Nat := islWin p + 0x312C + i * 0x40
/-- EBB_DESC_W12 (R180). -/
def Reg.EBB_DESC_W12 (p i : Nat) : Nat := islWin p + 0x3130 + i * 0x40
/-- EBB_DESC_W13 (R180). -/
def Reg.EBB_DESC_W13 (p i : Nat) : Nat := islWin p + 0x3134 + i * 0x40
/-- EBB_DESC_W14 (R180). -/
def Reg.EBB_DESC_W14 (p i : Nat) : Nat := islWin p + 0x3138 + i * 0x40
/-- EBB_DESC_W15 (R180). -/
def Reg.EBB_DESC_W15 (p i : Nat) : Nat := islWin p + 0x313C + i * 0x40
/-- SHL_STATUS (R247). -/
def Reg.SHL_STATUS (p : Nat) : Nat := islWin p + 0x4000
/-- SHL_CFG (R247). -/
def Reg.SHL_CFG (p : Nat) : Nat := islWin p + 0x4004
/-- SHL_ERR (R247). -/
def Reg.SHL_ERR (p : Nat) : Nat := islWin p + 0x4008
/-- SHL_ERR_INFO (R247). -/
def Reg.SHL_ERR_INFO (p : Nat) : Nat := islWin p + 0x400C
/-- SHL_ERR_ENTRY (R247). -/
def Reg.SHL_ERR_ENTRY (p : Nat) : Nat := islWin p + 0x4010
/-- SHL_CNT_OPS (R247). -/
def Reg.SHL_CNT_OPS (p : Nat) : Nat := islWin p + 0x4020
/-- SHL_CNT_OOBW (R247). -/
def Reg.SHL_CNT_OOBW (p : Nat) : Nat := islWin p + 0x4024
/-- SHL_CNT_MERGE (R247). -/
def Reg.SHL_CNT_MERGE (p : Nat) : Nat := islWin p + 0x4028
/-- SHL_CNT_STALE (R247). -/
def Reg.SHL_CNT_STALE (p : Nat) : Nat := islWin p + 0x402C
/-- SHL_CNT_CAPDROP (R247). -/
def Reg.SHL_CNT_CAPDROP (p : Nat) : Nat := islWin p + 0x4030
/-- SHL_CNT_UNSORT (R247). -/
def Reg.SHL_CNT_UNSORT (p : Nat) : Nat := islWin p + 0x4034
/-- SHL_CNT_SEGBAD (R247). -/
def Reg.SHL_CNT_SEGBAD (p : Nat) : Nat := islWin p + 0x4038
/-- SHL_CNT_REUSE (R247). -/
def Reg.SHL_CNT_REUSE (p : Nat) : Nat := islWin p + 0x403C
/-- SHL_CNT_SPTILE (R247). -/
def Reg.SHL_CNT_SPTILE (p : Nat) : Nat := islWin p + 0x4040
/-- SHL_GEN (R247). -/
def Reg.SHL_GEN (p i : Nat) : Nat := islWin p + 0x4080 + i * 0x4
/-- ISL_SENT_CFG (R465). -/
def Reg.ISL_SENT_CFG (p : Nat) : Nat := islWin p + 0x5000
/-- ISL_SENT_KEY_LO (R465). -/
def Reg.ISL_SENT_KEY_LO (p : Nat) : Nat := islWin p + 0x5004
/-- ISL_SENT_KEY_HI (R465). -/
def Reg.ISL_SENT_KEY_HI (p : Nat) : Nat := islWin p + 0x5008
/-- ISL_SENT_ERR (R465). -/
def Reg.ISL_SENT_ERR (p : Nat) : Nat := islWin p + 0x500C
/-- ISL_SENT_FIRST (R465). -/
def Reg.ISL_SENT_FIRST (p : Nat) : Nat := islWin p + 0x5010
/-- ISL_SENT_FIRST_TILE (R465). -/
def Reg.ISL_SENT_FIRST_TILE (p : Nat) : Nat := islWin p + 0x5014
/-- ISL_SENT_FIRST_DIFF (R465). -/
def Reg.ISL_SENT_FIRST_DIFF (p : Nat) : Nat := islWin p + 0x5018
/-- ISL_SENT_CNT_SAMPLED (R465). -/
def Reg.ISL_SENT_CNT_SAMPLED (p : Nat) : Nat := islWin p + 0x5020
/-- ISL_SENT_CNT_MISMATCH (R465). -/
def Reg.ISL_SENT_CNT_MISMATCH (p : Nat) : Nat := islWin p + 0x5024
/-- BUOY_VAL (R157). -/
def Reg.BUOY_VAL (b : Nat) : Nat := buoyWin b
/-- BUOY_FLAGS (R157). -/
def Reg.BUOY_FLAGS (b : Nat) : Nat := buoyWin b + 0x4
/-- BUOY_LSIG_SRC (R157). -/
def Reg.BUOY_LSIG_SRC (b : Nat) : Nat := buoyWin b + 0x8
/-- BUOY_LSIG_INFO (R157). -/
def Reg.BUOY_LSIG_INFO (b : Nat) : Nat := buoyWin b + 0xC
/-- BUOY_LSIG_VAL (R157). -/
def Reg.BUOY_LSIG_VAL (b : Nat) : Nat := buoyWin b + 0x10
/-- BUOY_LWAIT_SRC (R157). -/
def Reg.BUOY_LWAIT_SRC (b : Nat) : Nat := buoyWin b + 0x14
/-- BUOY_LWAIT_THR (R157). -/
def Reg.BUOY_LWAIT_THR (b : Nat) : Nat := buoyWin b + 0x18
/-- FRY_STATUS (R211). -/
def Reg.FRY_STATUS (q i : Nat) : Nat := qtrWin q + i * 0x4000
/-- FRY_ERR (R211). -/
def Reg.FRY_ERR (q i : Nat) : Nat := qtrWin q + 0x4 + i * 0x4000
/-- FRY_ERR_INFO (R211). -/
def Reg.FRY_ERR_INFO (q i : Nat) : Nat := qtrWin q + 0x8 + i * 0x4000
/-- FRY_SUBMIT_LO (R211). -/
def Reg.FRY_SUBMIT_LO (q i : Nat) : Nat := qtrWin q + 0x10 + i * 0x4000
/-- FRY_SUBMIT_HI (R211). -/
def Reg.FRY_SUBMIT_HI (q i : Nat) : Nat := qtrWin q + 0x14 + i * 0x4000
/-- FRY_SUBMIT_CTL (R211). -/
def Reg.FRY_SUBMIT_CTL (q i : Nat) : Nat := qtrWin q + 0x18 + i * 0x4000
/-- FRY_CNT_DESC (R211). -/
def Reg.FRY_CNT_DESC (q i : Nat) : Nat := qtrWin q + 0x20 + i * 0x4000
/-- FRY_CNT_KIB (R211). -/
def Reg.FRY_CNT_KIB (q i : Nat) : Nat := qtrWin q + 0x24 + i * 0x4000
/-- FRY_CNT_OOBW (R211). -/
def Reg.FRY_CNT_OOBW (q i : Nat) : Nat := qtrWin q + 0x28 + i * 0x4000
/-- FRY_CNT_DENSE (R211). -/
def Reg.FRY_CNT_DENSE (q i : Nat) : Nat := qtrWin q + 0x2C + i * 0x4000
/-- STR_CTL (R322). -/
def Reg.STR_CTL (q i : Nat) : Nat := qtrWin q + 0x20000 + i * 0x1000
/-- STR_STATUS (R322). -/
def Reg.STR_STATUS (q i : Nat) : Nat := qtrWin q + 0x20004 + i * 0x1000
/-- STR_PARTNER (R322). -/
def Reg.STR_PARTNER (q i : Nat) : Nat := qtrWin q + 0x20008 + i * 0x1000
/-- STR_EXPECT (R322). -/
def Reg.STR_EXPECT (q i : Nat) : Nat := qtrWin q + 0x2000C + i * 0x1000
/-- STR_ERR (R322). -/
def Reg.STR_ERR (q i : Nat) : Nat := qtrWin q + 0x20010 + i * 0x1000
/-- STR_TIMERS (R322). -/
def Reg.STR_TIMERS (q i : Nat) : Nat := qtrWin q + 0x20014 + i * 0x1000
/-- STR_LANE_THR (R322). -/
def Reg.STR_LANE_THR (q i : Nat) : Nat := qtrWin q + 0x20018 + i * 0x1000
/-- STR_CNT_FLIT_TX (R322). -/
def Reg.STR_CNT_FLIT_TX (q i : Nat) : Nat := qtrWin q + 0x20040 + i * 0x1000
/-- STR_CNT_FLIT_RX (R322). -/
def Reg.STR_CNT_FLIT_RX (q i : Nat) : Nat := qtrWin q + 0x20044 + i * 0x1000
/-- STR_CNT_CRC (R322). -/
def Reg.STR_CNT_CRC (q i : Nat) : Nat := qtrWin q + 0x20048 + i * 0x1000
/-- STR_CNT_FEC_CE (R322). -/
def Reg.STR_CNT_FEC_CE (q i : Nat) : Nat := qtrWin q + 0x2004C + i * 0x1000
/-- STR_CNT_FEC_UE (R322). -/
def Reg.STR_CNT_FEC_UE (q i : Nat) : Nat := qtrWin q + 0x20050 + i * 0x1000
/-- STR_CNT_RETRY (R322). -/
def Reg.STR_CNT_RETRY (q i : Nat) : Nat := qtrWin q + 0x20054 + i * 0x1000
/-- STR_CNT_DROP (R322). -/
def Reg.STR_CNT_DROP (q i : Nat) : Nat := qtrWin q + 0x20058 + i * 0x1000
/-- STR_CNT_DOWN (R322). -/
def Reg.STR_CNT_DOWN (q i : Nat) : Nat := qtrWin q + 0x2005C + i * 0x1000
/-- STR_LANE_CE (R322). -/
def Reg.STR_LANE_CE (q i j : Nat) : Nat := qtrWin q + 0x20080 + i * 0x1000 + j * 0x4
/-- STR_LB_CTL (R322). -/
def Reg.STR_LB_CTL (q i : Nat) : Nat := qtrWin q + 0x20100 + i * 0x1000
/-- STR_LB_RESULT (R322). -/
def Reg.STR_LB_RESULT (q i : Nat) : Nat := qtrWin q + 0x20104 + i * 0x1000
/-- STR_LB_ADDR_LO (R322). -/
def Reg.STR_LB_ADDR_LO (q i : Nat) : Nat := qtrWin q + 0x20108 + i * 0x1000
/-- STR_LB_ADDR_HI (R322). -/
def Reg.STR_LB_ADDR_HI (q i : Nat) : Nat := qtrWin q + 0x2010C + i * 0x1000
/-- STR_LB_LANE_ERR (R322). -/
def Reg.STR_LB_LANE_ERR (q i j : Nat) : Nat := qtrWin q + 0x20140 + i * 0x1000 + j * 0x4
/-- STR_ROUTE (R323). -/
def Reg.STR_ROUTE (q i : Nat) : Nat := qtrWin q + 0x24000 + i * 0x4
/-- STR_SELF (R323). -/
def Reg.STR_SELF (q : Nat) : Nat := qtrWin q + 0x25000
/-- STR_TRK_STATUS (R323). -/
def Reg.STR_TRK_STATUS (q : Nat) : Nat := qtrWin q + 0x25004
/-- STR_TRK_TO (R323). -/
def Reg.STR_TRK_TO (q : Nat) : Nat := qtrWin q + 0x25008
/-- STR_CNT_TRK_FULL (R323). -/
def Reg.STR_CNT_TRK_FULL (q : Nat) : Nat := qtrWin q + 0x25010
/-- STR_CNT_TXN_TO (R323). -/
def Reg.STR_CNT_TXN_TO (q : Nat) : Nat := qtrWin q + 0x25014
/-- STR_CNT_LATE (R323). -/
def Reg.STR_CNT_LATE (q : Nat) : Nat := qtrWin q + 0x25018
/-- STR_CNT_NOROUTE (R323). -/
def Reg.STR_CNT_NOROUTE (q : Nat) : Nat := qtrWin q + 0x2501C
/-- STR_CNT_FWD (R323). -/
def Reg.STR_CNT_FWD (q : Nat) : Nat := qtrWin q + 0x25020
/-- TIDE_CTL (R361). -/
def Reg.TIDE_CTL : Nat := qtrWin 0 + 0x60000
/-- TIDE_CFG (R361). -/
def Reg.TIDE_CFG : Nat := qtrWin 0 + 0x60004
/-- TIDE_CHILD (R361). -/
def Reg.TIDE_CHILD : Nat := qtrWin 0 + 0x60008
/-- TIDE_SEED_LO (R361). -/
def Reg.TIDE_SEED_LO : Nat := qtrWin 0 + 0x6000C
/-- TIDE_SEED_HI (R361). -/
def Reg.TIDE_SEED_HI : Nat := qtrWin 0 + 0x60010
/-- TIDE_FIRST (R361). -/
def Reg.TIDE_FIRST : Nat := qtrWin 0 + 0x60014
/-- TIDE_NUM (R361). -/
def Reg.TIDE_NUM : Nat := qtrWin 0 + 0x60018
/-- TIDE_STEP (R361). -/
def Reg.TIDE_STEP : Nat := qtrWin 0 + 0x6001C
/-- TIDE_STRETCH (R361). -/
def Reg.TIDE_STRETCH : Nat := qtrWin 0 + 0x60020
/-- TIDE_STATUS (R361). -/
def Reg.TIDE_STATUS : Nat := qtrWin 0 + 0x60024
/-- TIDE_GO (R361). -/
def Reg.TIDE_GO : Nat := qtrWin 0 + 0x60028
/-- TIDE_FAIL (R361). -/
def Reg.TIDE_FAIL : Nat := qtrWin 0 + 0x6002C
/-- TIDE_ERR (R361). -/
def Reg.TIDE_ERR : Nat := qtrWin 0 + 0x60030
/-- TIDE_LOADERR (R361). -/
def Reg.TIDE_LOADERR : Nat := qtrWin 0 + 0x60034
/-- TIDE_AGG_FLAGS (R361). -/
def Reg.TIDE_AGG_FLAGS : Nat := qtrWin 0 + 0x60040
/-- TIDE_AGG_NONFIN (R361). -/
def Reg.TIDE_AGG_NONFIN : Nat := qtrWin 0 + 0x60044
/-- TIDE_AGG_BOUND (R361). -/
def Reg.TIDE_AGG_BOUND : Nat := qtrWin 0 + 0x60048
/-- TIDE_AGG_LOSSN (R361). -/
def Reg.TIDE_AGG_LOSSN : Nat := qtrWin 0 + 0x6004C
/-- TIDE_AGG_LOSS (R361). -/
def Reg.TIDE_AGG_LOSS : Nat := qtrWin 0 + 0x60050
/-- TIDE_AGG_NSQ_LO (R361). -/
def Reg.TIDE_AGG_NSQ_LO : Nat := qtrWin 0 + 0x60054
/-- TIDE_AGG_NSQ_HI (R361). -/
def Reg.TIDE_AGG_NSQ_HI : Nat := qtrWin 0 + 0x60058
/-- TIDE_AGG_IDS (R361). -/
def Reg.TIDE_AGG_IDS : Nat := qtrWin 0 + 0x6005C
/-- TIDE_AGG_NSUSPECT (R361). -/
def Reg.TIDE_AGG_NSUSPECT : Nat := qtrWin 0 + 0x60060
/-- TIDE_GNSQ_LO (R361). -/
def Reg.TIDE_GNSQ_LO : Nat := qtrWin 0 + 0x60068
/-- TIDE_GNSQ_HI (R361). -/
def Reg.TIDE_GNSQ_HI : Nat := qtrWin 0 + 0x6006C
/-- TIDE_GCMD (R361). -/
def Reg.TIDE_GCMD : Nat := qtrWin 0 + 0x60070
/-- TIDE_BKT_LO (R361). -/
def Reg.TIDE_BKT_LO : Nat := qtrWin 0 + 0x60080
/-- TIDE_BKT_HI (R361). -/
def Reg.TIDE_BKT_HI : Nat := qtrWin 0 + 0x60084
/-- TIDE_GRP_LO (R361). -/
def Reg.TIDE_GRP_LO : Nat := qtrWin 0 + 0x60088
/-- TIDE_GRP_HI (R361). -/
def Reg.TIDE_GRP_HI : Nat := qtrWin 0 + 0x6008C
/-- TIDE_CNT_TIDES (R361). -/
def Reg.TIDE_CNT_TIDES : Nat := qtrWin 0 + 0x600A0
/-- TIDE_CNT_STRETCH (R361). -/
def Reg.TIDE_CNT_STRETCH : Nat := qtrWin 0 + 0x600A4
/-- TIDE_CNT_OVERRUN (R361). -/
def Reg.TIDE_CNT_OVERRUN : Nat := qtrWin 0 + 0x600A8
/-- TIDE_CNT_HELD (R361). -/
def Reg.TIDE_CNT_HELD : Nat := qtrWin 0 + 0x600AC
/-- TIDE_CNT_XOVF (R361). -/
def Reg.TIDE_CNT_XOVF : Nat := qtrWin 0 + 0x600B0
/-- TIDE_TYPE (R361). -/
def Reg.TIDE_TYPE (i : Nat) : Nat := qtrWin 0 + 0x600C0 + i * 0x4
/-- TIDE_BCN_CFG (R389). -/
def Reg.TIDE_BCN_CFG : Nat := qtrWin 0 + 0x60100
/-- TIDE_BCN_ALPHA (R389). -/
def Reg.TIDE_BCN_ALPHA : Nat := qtrWin 0 + 0x60104
/-- TIDE_BCN_SPIKE (R389). -/
def Reg.TIDE_BCN_SPIKE : Nat := qtrWin 0 + 0x60108
/-- TIDE_BCN_NFMAX (R389). -/
def Reg.TIDE_BCN_NFMAX : Nat := qtrWin 0 + 0x6010C
/-- TIDE_BCN_BDMAX (R389). -/
def Reg.TIDE_BCN_BDMAX : Nat := qtrWin 0 + 0x60110
/-- TIDE_BCN_EMA (R389). -/
def Reg.TIDE_BCN_EMA : Nat := qtrWin 0 + 0x60114
/-- TIDE_BCN_WINS (R389). -/
def Reg.TIDE_BCN_WINS : Nat := qtrWin 0 + 0x60118
/-- TIDE_BCN_WLOSS (R389). -/
def Reg.TIDE_BCN_WLOSS : Nat := qtrWin 0 + 0x6011C
/-- TIDE_BCN_WLOSSN (R389). -/
def Reg.TIDE_BCN_WLOSSN : Nat := qtrWin 0 + 0x60120
/-- TIDE_BCN_WNONFIN (R389). -/
def Reg.TIDE_BCN_WNONFIN : Nat := qtrWin 0 + 0x60124
/-- TIDE_BCN_WBOUND (R389). -/
def Reg.TIDE_BCN_WBOUND : Nat := qtrWin 0 + 0x60128
/-- TIDE_BCN_VERDICT (R389). -/
def Reg.TIDE_BCN_VERDICT : Nat := qtrWin 0 + 0x60130
/-- TIDE_BCN_CNT_SKIP (R389). -/
def Reg.TIDE_BCN_CNT_SKIP : Nat := qtrWin 0 + 0x60134
/-- TIDE_BCN_CNT_REPLAY (R389). -/
def Reg.TIDE_BCN_CNT_REPLAY : Nat := qtrWin 0 + 0x60138
/-- TIDE_BCN_CNT_UPD (R389). -/
def Reg.TIDE_BCN_CNT_UPD : Nat := qtrWin 0 + 0x6013C
/-- TIDE_QSTATUS (R362). -/
def Reg.TIDE_QSTATUS (q : Nat) : Nat := qtrWin q + 0x60200
/-- TIDE_SLOT_LO (R362). -/
def Reg.TIDE_SLOT_LO (q : Nat) : Nat := qtrWin q + 0x60208
/-- TIDE_SLOT_HI (R362). -/
def Reg.TIDE_SLOT_HI (q : Nat) : Nat := qtrWin q + 0x6020C
/-- RCH_STATUS (R362). -/
def Reg.RCH_STATUS (q i : Nat) : Nat := qtrWin q + 0x60240 + i * 0x20
/-- RCH_CNT_ELEM (R362). -/
def Reg.RCH_CNT_ELEM (q i : Nat) : Nat := qtrWin q + 0x60244 + i * 0x20
/-- RCH_CNT_BKT (R362). -/
def Reg.RCH_CNT_BKT (q i : Nat) : Nat := qtrWin q + 0x60248 + i * 0x20
/-- TIDE_BCN_PLAUS_LO (R389). -/
def Reg.TIDE_BCN_PLAUS_LO (q : Nat) : Nat := qtrWin q + 0x60280
/-- TIDE_BCN_PLAUS_HI (R389). -/
def Reg.TIDE_BCN_PLAUS_HI (q : Nat) : Nat := qtrWin q + 0x60284
/-- BUOY_ERR (R158). -/
def Reg.BUOY_ERR (q : Nat) : Nat := qtrWin q + 0x70000
/-- BUOY_ERR_ID (R158). -/
def Reg.BUOY_ERR_ID (q : Nat) : Nat := qtrWin q + 0x70004
/-- BUOY_DUMP_ADDR_LO (R158). -/
def Reg.BUOY_DUMP_ADDR_LO (q : Nat) : Nat := qtrWin q + 0x70008
/-- BUOY_DUMP_ADDR_HI (R158). -/
def Reg.BUOY_DUMP_ADDR_HI (q : Nat) : Nat := qtrWin q + 0x7000C
/-- BUOY_DUMP_CTL (R158). -/
def Reg.BUOY_DUMP_CTL (q : Nat) : Nat := qtrWin q + 0x70010
/-- BUOY_CNT_OPS (R158). -/
def Reg.BUOY_CNT_OPS (q : Nat) : Nat := qtrWin q + 0x70020
/-- BUOY_CNT_UNDER (R158). -/
def Reg.BUOY_CNT_UNDER (q : Nat) : Nat := qtrWin q + 0x70024
/-- BUOY_CNT_HAND (R158). -/
def Reg.BUOY_CNT_HAND (q : Nat) : Nat := qtrWin q + 0x70028
/-- CHT_INV (R210). -/
def Reg.CHT_INV (q : Nat) : Nat := qtrWin q + 0x80000
/-- CHT_ERR (R210). -/
def Reg.CHT_ERR (q : Nat) : Nat := qtrWin q + 0x80004
/-- CHT_ERR_VA_LO (R210). -/
def Reg.CHT_ERR_VA_LO (q : Nat) : Nat := qtrWin q + 0x80008
/-- CHT_ERR_VA_HI (R210). -/
def Reg.CHT_ERR_VA_HI (q : Nat) : Nat := qtrWin q + 0x8000C
/-- CHT_ERR_INFO (R210). -/
def Reg.CHT_ERR_INFO (q : Nat) : Nat := qtrWin q + 0x80010
/-- CHT_T1_SRC_LO (R210). -/
def Reg.CHT_T1_SRC_LO (q : Nat) : Nat := qtrWin q + 0x80020
/-- CHT_T1_SRC_HI (R210). -/
def Reg.CHT_T1_SRC_HI (q : Nat) : Nat := qtrWin q + 0x80024
/-- CHT_T1_CTL (R210). -/
def Reg.CHT_T1_CTL (q : Nat) : Nat := qtrWin q + 0x80028
/-- CHT_CNT_WALK (R210). -/
def Reg.CHT_CNT_WALK (q : Nat) : Nat := qtrWin q + 0x80040
/-- CHT_CNT_XLATE (R210). -/
def Reg.CHT_CNT_XLATE (q : Nat) : Nat := qtrWin q + 0x80044
/-- CHT_CNT_PROT (R210). -/
def Reg.CHT_CNT_PROT (q : Nat) : Nat := qtrWin q + 0x80048
/-- CHT_CTX_PT_ROOT (R210). -/
def Reg.CHT_CTX_PT_ROOT (q i : Nat) : Nat := qtrWin q + 0x80100 + i * 0x10
/-- CHT_CTX_PT_ROOTHI (R210). -/
def Reg.CHT_CTX_PT_ROOTHI (q i : Nat) : Nat := qtrWin q + 0x80104 + i * 0x10
/-- CHT_CTX_PT_CT (R210). -/
def Reg.CHT_CTX_PT_CT (q i : Nat) : Nat := qtrWin q + 0x80108 + i * 0x10
/-- CHT_CTX_PT_CTHI (R210). -/
def Reg.CHT_CTX_PT_CTHI (q i : Nat) : Nat := qtrWin q + 0x8010C + i * 0x10
/-- CHT_BOT_LO (R210). -/
def Reg.CHT_BOT_LO (q i : Nat) : Nat := qtrWin q + 0x90000 + i * 0x8
/-- CHT_BOT_HI (R210). -/
def Reg.CHT_BOT_HI (q i : Nat) : Nat := qtrWin q + 0x90004 + i * 0x8
/-- FUU_CTL (R390). -/
def Reg.FUU_CTL (q i : Nat) : Nat := qtrWin q + 0xA0000 + i * 0x1000
/-- FUU_STATE (R390). -/
def Reg.FUU_STATE (q i : Nat) : Nat := qtrWin q + 0xA0004 + i * 0x1000
/-- FUU_TBL_LO (R390). -/
def Reg.FUU_TBL_LO (q i : Nat) : Nat := qtrWin q + 0xA0010 + i * 0x1000
/-- FUU_TBL_HI (R390). -/
def Reg.FUU_TBL_HI (q i : Nat) : Nat := qtrWin q + 0xA0014 + i * 0x1000
/-- FUU_TBL_N (R390). -/
def Reg.FUU_TBL_N (q i : Nat) : Nat := qtrWin q + 0xA0018 + i * 0x1000
/-- FUU_BOFF_LO (R390). -/
def Reg.FUU_BOFF_LO (q i : Nat) : Nat := qtrWin q + 0xA0020 + i * 0x1000
/-- FUU_BOFF_HI (R390). -/
def Reg.FUU_BOFF_HI (q i : Nat) : Nat := qtrWin q + 0xA0024 + i * 0x1000
/-- FUU_T (R390). -/
def Reg.FUU_T (q i : Nat) : Nat := qtrWin q + 0xA0028 + i * 0x1000
/-- FUU_EPS (R390). -/
def Reg.FUU_EPS (q i : Nat) : Nat := qtrWin q + 0xA002C + i * 0x1000
/-- FUU_CLIP (R390). -/
def Reg.FUU_CLIP (q i : Nat) : Nat := qtrWin q + 0xA0030 + i * 0x1000
/-- FUU_CMP (R390). -/
def Reg.FUU_CMP (q i : Nat) : Nat := qtrWin q + 0xA0034 + i * 0x1000
/-- FUU_CMP_CNT (R390). -/
def Reg.FUU_CMP_CNT (q i : Nat) : Nat := qtrWin q + 0xA0038 + i * 0x1000
/-- FUU_CMP_FIRST (R390). -/
def Reg.FUU_CMP_FIRST (q i : Nat) : Nat := qtrWin q + 0xA003C + i * 0x1000
/-- FUU_ERR (R390). -/
def Reg.FUU_ERR (q i : Nat) : Nat := qtrWin q + 0xA0040 + i * 0x1000
/-- FUU_ERR_INFO (R390). -/
def Reg.FUU_ERR_INFO (q i : Nat) : Nat := qtrWin q + 0xA0044 + i * 0x1000
/-- FUU_CNT_PARAMS (R390). -/
def Reg.FUU_CNT_PARAMS (q i : Nat) : Nat := qtrWin q + 0xA0050 + i * 0x1000
/-- FUU_CNT_REEXEC (R390). -/
def Reg.FUU_CNT_REEXEC (q i : Nat) : Nat := qtrWin q + 0xA0054 + i * 0x1000
/-- FUU_UCODE (R390). -/
def Reg.FUU_UCODE (q i j : Nat) : Nat := qtrWin q + 0xA0800 + i * 0x1000 + j * 0x8
/-- FUU_UCODE_HI (R390). -/
def Reg.FUU_UCODE_HI (q i j : Nat) : Nat := qtrWin q + 0xA0804 + i * 0x1000 + j * 0x8
/-- PLT_CORE (R434). -/
def Reg.PLT_CORE (i : Nat) : Nat := modWin + i * 0x4
/-- PLT_WDOG (R434). -/
def Reg.PLT_WDOG (i : Nat) : Nat := modWin + 0x10 + i * 0x4
/-- PLT_CTXF (R434). -/
def Reg.PLT_CTXF : Nat := modWin + 0x40
/-- PLT_SHRWR (R434). -/
def Reg.PLT_SHRWR : Nat := modWin + 0x44
/-- PLT_RDB (R434). -/
def Reg.PLT_RDB : Nat := modWin + 0x48
/-- PLT_MOWN (R434). -/
def Reg.PLT_MOWN : Nat := modWin + 0x4C
/-- PLT_ROWN (R434). -/
def Reg.PLT_ROWN (i : Nat) : Nat := modWin + 0x100 + i * 0x4
/-- PLT_MBX_IN (R434). -/
def Reg.PLT_MBX_IN (i j : Nat) : Nat := modWin + 0x1000 + i * 0x100 + j * 0x4
/-- PLT_MBX_OUT (R434). -/
def Reg.PLT_MBX_OUT (i j : Nat) : Nat := modWin + 0x1040 + i * 0x100 + j * 0x4
/-- PLT_MBX_DB (R434). -/
def Reg.PLT_MBX_DB (i : Nat) : Nat := modWin + 0x1080 + i * 0x100
/-- SHR_RST (R435). -/
def Reg.SHR_RST : Nat := modWin + 0x10000
/-- SHR_STATUS (R435). -/
def Reg.SHR_STATUS : Nat := modWin + 0x10004
/-- SHR_MBX_IRQ (R435). -/
def Reg.SHR_MBX_IRQ : Nat := modWin + 0x10008
/-- MGT_STATUS (R514). -/
def Reg.MGT_STATUS : Nat := modWin + 0x20000
/-- MGT_PCAP (R514). -/
def Reg.MGT_PCAP : Nat := modWin + 0x20004
/-- MGT_GATE (R514). -/
def Reg.MGT_GATE : Nat := modWin + 0x20008
/-- MGT_PWR (R514). -/
def Reg.MGT_PWR : Nat := modWin + 0x2000C
/-- MGT_TEMP (R514). -/
def Reg.MGT_TEMP : Nat := modWin + 0x20010
/-- MGT_THERM (R514). -/
def Reg.MGT_THERM : Nat := modWin + 0x20014
/-- MGT_ALERT (R514). -/
def Reg.MGT_ALERT : Nat := modWin + 0x20018
/-- MGT_ALERT_EN (R514). -/
def Reg.MGT_ALERT_EN : Nat := modWin + 0x2001C
/-- MGT_MAC_LO (R514). -/
def Reg.MGT_MAC_LO : Nat := modWin + 0x20020
/-- MGT_MAC_HI (R514). -/
def Reg.MGT_MAC_HI : Nat := modWin + 0x20024
/-- MGT_WIN_LO (R514). -/
def Reg.MGT_WIN_LO (i : Nat) : Nat := modWin + 0x20040 + i * 0x10
/-- MGT_WIN_HI (R514). -/
def Reg.MGT_WIN_HI (i : Nat) : Nat := modWin + 0x20044 + i * 0x10
/-- MGT_WIN_SIZE (R514). -/
def Reg.MGT_WIN_SIZE (i : Nat) : Nat := modWin + 0x20048 + i * 0x10
/-- MGT_LB (R514). -/
def Reg.MGT_LB : Nat := modWin + 0x20080
/-- MGT_CNT_REQ (R514). -/
def Reg.MGT_CNT_REQ : Nat := modWin + 0x200A0
/-- MGT_CNT_DENIED (R514). -/
def Reg.MGT_CNT_DENIED : Nat := modWin + 0x200A4
/-- MGT_CNT_DROP (R514). -/
def Reg.MGT_CNT_DROP : Nat := modWin + 0x200A8
/-- MGT_CNT_GATED (R514). -/
def Reg.MGT_CNT_GATED : Nat := modWin + 0x200AC
/-- BOOT_STATUS (R490). -/
def Reg.BOOT_STATUS : Nat := modWin + 0x30000
/-- BOOT_ERR (R490). -/
def Reg.BOOT_ERR : Nat := modWin + 0x30004
/-- BOOT_FL_CTL (R490). -/
def Reg.BOOT_FL_CTL : Nat := modWin + 0x30010
/-- BOOT_FL_ADDR (R490). -/
def Reg.BOOT_FL_ADDR : Nat := modWin + 0x30014
/-- BOOT_FL_SRC_LO (R490). -/
def Reg.BOOT_FL_SRC_LO : Nat := modWin + 0x30018
/-- BOOT_FL_SRC_HI (R490). -/
def Reg.BOOT_FL_SRC_HI : Nat := modWin + 0x3001C
/-- BOOT_FL_LEN (R490). -/
def Reg.BOOT_FL_LEN : Nat := modWin + 0x30020
/-- BOOT_RCV (R490). -/
def Reg.BOOT_RCV : Nat := modWin + 0x30030
/-- ISL_POLICY (R32). -/
def Reg.ISL_POLICY : Nat := modWin + 0x40000
/-- ISL_LMAP (R32). -/
def Reg.ISL_LMAP (i : Nat) : Nat := modWin + 0x40100 + i * 0x4
/-- ISL_PSTATE (R518). -/
def Reg.ISL_PSTATE (i : Nat) : Nat := modWin + 0x40400 + i * 0x4
/-- ISL_SWAP_CTL (R32). -/
def Reg.ISL_SWAP_CTL : Nat := modWin + 0x40800
/-- ISL_SWAP_CURSOR (R32). -/
def Reg.ISL_SWAP_CURSOR : Nat := modWin + 0x40804
/-- ISL_TEST_CTL (R466). -/
def Reg.ISL_TEST_CTL : Nat := modWin + 0x40900
/-- HBM_STATUS (R287). -/
def Reg.HBM_STATUS (q i : Nat) : Nat := qtrWin q + 0x40000 + i * 0x2000
/-- HBM_SCRUB (R287). -/
def Reg.HBM_SCRUB (q i : Nat) : Nat := qtrWin q + 0x40004 + i * 0x2000
/-- HBM_SCRUB_POS (R287). -/
def Reg.HBM_SCRUB_POS (q i : Nat) : Nat := qtrWin q + 0x40008 + i * 0x2000
/-- HBM_SCRUB_PASS (R287). -/
def Reg.HBM_SCRUB_PASS (q i : Nat) : Nat := qtrWin q + 0x4000C + i * 0x2000
/-- HBM_ERR (R287). -/
def Reg.HBM_ERR (q i : Nat) : Nat := qtrWin q + 0x40010 + i * 0x2000
/-- HBM_CE_ADDR_LO (R287). -/
def Reg.HBM_CE_ADDR_LO (q i : Nat) : Nat := qtrWin q + 0x40014 + i * 0x2000
/-- HBM_CE_ADDR_HI (R287). -/
def Reg.HBM_CE_ADDR_HI (q i : Nat) : Nat := qtrWin q + 0x40018 + i * 0x2000
/-- HBM_CE_INFO (R287). -/
def Reg.HBM_CE_INFO (q i : Nat) : Nat := qtrWin q + 0x4001C + i * 0x2000
/-- HBM_UE_ADDR_LO (R287). -/
def Reg.HBM_UE_ADDR_LO (q i : Nat) : Nat := qtrWin q + 0x40020 + i * 0x2000
/-- HBM_UE_ADDR_HI (R287). -/
def Reg.HBM_UE_ADDR_HI (q i : Nat) : Nat := qtrWin q + 0x40024 + i * 0x2000
/-- HBM_UE_INFO (R287). -/
def Reg.HBM_UE_INFO (q i : Nat) : Nat := qtrWin q + 0x40028 + i * 0x2000
/-- HBM_CNT_CE (R287). -/
def Reg.HBM_CNT_CE (q i : Nat) : Nat := qtrWin q + 0x40030 + i * 0x2000
/-- HBM_CNT_UE (R287). -/
def Reg.HBM_CNT_UE (q i : Nat) : Nat := qtrWin q + 0x40034 + i * 0x2000
/-- HBM_CNT_POISON (R287). -/
def Reg.HBM_CNT_POISON (q i : Nat) : Nat := qtrWin q + 0x40038 + i * 0x2000
/-- HBM_CNT_SCRUB_CE (R287). -/
def Reg.HBM_CNT_SCRUB_CE (q i : Nat) : Nat := qtrWin q + 0x4003C + i * 0x2000
/-- HBM_CNT_ODECC (R287). -/
def Reg.HBM_CNT_ODECC (q i : Nat) : Nat := qtrWin q + 0x40040 + i * 0x2000
/-- HBM_CTL (R287). -/
def Reg.HBM_CTL (q i : Nat) : Nat := qtrWin q + 0x4004C + i * 0x2000
/-- HBM_LB_CTL (R287). -/
def Reg.HBM_LB_CTL (q i : Nat) : Nat := qtrWin q + 0x40050 + i * 0x2000
/-- HBM_LB_RESULT (R287). -/
def Reg.HBM_LB_RESULT (q i : Nat) : Nat := qtrWin q + 0x40054 + i * 0x2000
/-- LPX_STATUS (R287). -/
def Reg.LPX_STATUS (q i : Nat) : Nat := qtrWin q + 0xC0000 + i * 0x1000
/-- LPX_SCRUB (R287). -/
def Reg.LPX_SCRUB (q i : Nat) : Nat := qtrWin q + 0xC0004 + i * 0x1000
/-- LPX_SCRUB_POS (R287). -/
def Reg.LPX_SCRUB_POS (q i : Nat) : Nat := qtrWin q + 0xC0008 + i * 0x1000
/-- LPX_SCRUB_PASS (R287). -/
def Reg.LPX_SCRUB_PASS (q i : Nat) : Nat := qtrWin q + 0xC000C + i * 0x1000
/-- LPX_ERR (R287). -/
def Reg.LPX_ERR (q i : Nat) : Nat := qtrWin q + 0xC0010 + i * 0x1000
/-- LPX_CE_ADDR_LO (R287). -/
def Reg.LPX_CE_ADDR_LO (q i : Nat) : Nat := qtrWin q + 0xC0014 + i * 0x1000
/-- LPX_CE_ADDR_HI (R287). -/
def Reg.LPX_CE_ADDR_HI (q i : Nat) : Nat := qtrWin q + 0xC0018 + i * 0x1000
/-- LPX_CE_INFO (R287). -/
def Reg.LPX_CE_INFO (q i : Nat) : Nat := qtrWin q + 0xC001C + i * 0x1000
/-- LPX_UE_ADDR_LO (R287). -/
def Reg.LPX_UE_ADDR_LO (q i : Nat) : Nat := qtrWin q + 0xC0020 + i * 0x1000
/-- LPX_UE_ADDR_HI (R287). -/
def Reg.LPX_UE_ADDR_HI (q i : Nat) : Nat := qtrWin q + 0xC0024 + i * 0x1000
/-- LPX_UE_INFO (R287). -/
def Reg.LPX_UE_INFO (q i : Nat) : Nat := qtrWin q + 0xC0028 + i * 0x1000
/-- LPX_CNT_CE (R287). -/
def Reg.LPX_CNT_CE (q i : Nat) : Nat := qtrWin q + 0xC0030 + i * 0x1000
/-- LPX_CNT_UE (R287). -/
def Reg.LPX_CNT_UE (q i : Nat) : Nat := qtrWin q + 0xC0034 + i * 0x1000
/-- LPX_CNT_POISON (R287). -/
def Reg.LPX_CNT_POISON (q i : Nat) : Nat := qtrWin q + 0xC0038 + i * 0x1000
/-- LPX_CNT_SCRUB_CE (R287). -/
def Reg.LPX_CNT_SCRUB_CE (q i : Nat) : Nat := qtrWin q + 0xC003C + i * 0x1000
/-- LPX_CNT_ODECC (R287). -/
def Reg.LPX_CNT_ODECC (q i : Nat) : Nat := qtrWin q + 0xC0040 + i * 0x1000
/-- LPX_CTL (R287). -/
def Reg.LPX_CTL (q i : Nat) : Nat := qtrWin q + 0xC004C + i * 0x1000
/-- LPX_LB_CTL (R287). -/
def Reg.LPX_LB_CTL (q i : Nat) : Nat := qtrWin q + 0xC0050 + i * 0x1000
/-- LPX_LB_RESULT (R287). -/
def Reg.LPX_LB_RESULT (q i : Nat) : Nat := qtrWin q + 0xC0054 + i * 0x1000
/-- Word `j` of EBB_DESC[i] (R180, R181). -/
def Reg.EBB_DESC (p i j : Nat) : Nat := islWin p + 0x3100 + i * 0x40 + j * 0x4

/-! ### The map -/

/-- Part 1 of the registers of an Island register window (R105, R146, R181, R247, R287, R465). -/
def islRegs1 : List RegRow := [
  ⟨0x0, [], false, [Fd.ISL_SEQ_CTL_RUN0, Fd.ISL_SEQ_CTL_RUN1, Fd.ISL_SEQ_CTL_ARB_RST, Fd.ISL_SEQ_CTL_ENTRY0, Fd.ISL_SEQ_CTL_ENTRY1]⟩,
  ⟨0x4, [], false, [Fd.ISL_SEQ_STATUS_ST0, Fd.ISL_SEQ_STATUS_ST1, Fd.ISL_SEQ_STATUS_FAV]⟩,
  ⟨0x10, [(2, 0x4)], false, [Fd.ISL_SEQ_PC_PC]⟩,
  ⟨0x18, [(2, 0x4)], false, [Fd.ISL_SEQ_CTXID_CTX]⟩,
  ⟨0x20, [(2, 0x8)], false, [Fd.ISL_SEQ_FAULT_CODE, Fd.ISL_SEQ_FAULT_PC, Fd.ISL_SEQ_FAULT_VALID, Fd.ISL_SEQ_FAULT_MULTI]⟩,
  ⟨0x24, [(2, 0x8)], false, [Fd.ISL_SEQ_FINFO_INFO]⟩,
  ⟨0x30, [], false, [Fd.ISL_SEQ_TIDE_TIDE]⟩,
  ⟨0x34, [], false, [Fd.ISL_SEQ_WTO_LIMIT]⟩,
  ⟨0x38, [], false, [Fd.ISL_SEQ_EVT_WAITLONG0, Fd.ISL_SEQ_EVT_WAITLONG1, Fd.ISL_SEQ_EVT_CLAMP]⟩,
  ⟨0x40, [(2, 0x4)], false, [Fd.ISL_SEQ_CNT_ISSUE_COUNT]⟩,
  ⟨0x48, [(2, 0x4)], false, [Fd.ISL_SEQ_CNT_STALL_COUNT]⟩,
  ⟨0x50, [], false, [Fd.ISL_SEQ_CNT_CLAMP_COUNT]⟩,
  ⟨0x54, [], false, [Fd.ISL_SEQ_CNT_DRHOLD_COUNT]⟩,
  ⟨0x100, [(2, 0x100), (64, 0x4)], false, [Fd.ISL_SEQ_SREG_WORD]⟩,
  ⟨0x300, [(2, 0x4)], false, [Fd.ISL_SEQ_PRED_P0, Fd.ISL_SEQ_PRED_P]⟩,
  ⟨0x310, [(2, 0x40), (4, 0x10)], false, [Fd.ISL_SEQ_LOOP_START, Fd.ISL_SEQ_LOOP_END, Fd.ISL_SEQ_LOOP_VALID]⟩,
  ⟨0x314, [(2, 0x40), (4, 0x10)], false, [Fd.ISL_SEQ_LOOP_COUNT_COUNT]⟩,
  ⟨0x318, [(2, 0x40), (4, 0x10)], false, [Fd.ISL_SEQ_LOOP_ITER_ITER]⟩,
  ⟨0x31C, [(2, 0x40), (4, 0x10)], false, []⟩,
  ⟨0x1000, [], false, [Fd.ISL_LAG_STATUS_STATE, Fd.ISL_LAG_STATUS_SCRUB_ACT]⟩]

/-- Part 2 of the registers of an Island register window (R105, R146, R181, R247, R287, R465). -/
def islRegs2 : List RegRow := [
  ⟨0x1004, [], false, [Fd.ISL_LAG_SCRUB_EN, Fd.ISL_LAG_SCRUB_INTERVAL]⟩,
  ⟨0x1008, [], false, [Fd.ISL_LAG_SCRUB_POS_UNIT]⟩,
  ⟨0x100C, [], false, [Fd.ISL_LAG_SCRUB_PASS_COUNT]⟩,
  ⟨0x1010, [], false, [Fd.ISL_LAG_ERR_CE, Fd.ISL_LAG_ERR_UE, Fd.ISL_LAG_ERR_CE_MULTI, Fd.ISL_LAG_ERR_UE_MULTI]⟩,
  ⟨0x1014, [], false, [Fd.ISL_LAG_CE_ADDR_LO_ADDR]⟩,
  ⟨0x1018, [], false, [Fd.ISL_LAG_CE_ADDR_HI_ADDR]⟩,
  ⟨0x101C, [], false, [Fd.ISL_LAG_CE_INFO_SYMBOL, Fd.ISL_LAG_CE_INFO_LOC, Fd.ISL_LAG_CE_INFO_REQ, Fd.ISL_LAG_CE_INFO_LISL]⟩,
  ⟨0x1020, [], false, [Fd.ISL_LAG_UE_ADDR_LO_ADDR]⟩,
  ⟨0x1024, [], false, [Fd.ISL_LAG_UE_ADDR_HI_ADDR]⟩,
  ⟨0x1028, [], false, [Fd.ISL_LAG_UE_INFO_SYMBOL, Fd.ISL_LAG_UE_INFO_LOC, Fd.ISL_LAG_UE_INFO_REQ, Fd.ISL_LAG_UE_INFO_LISL, Fd.ISL_LAG_UE_INFO_POISON]⟩,
  ⟨0x1030, [], false, [Fd.ISL_LAG_CNT_CE_COUNT]⟩,
  ⟨0x1034, [], false, [Fd.ISL_LAG_CNT_UE_COUNT]⟩,
  ⟨0x1038, [], false, [Fd.ISL_LAG_CNT_POISON_COUNT]⟩,
  ⟨0x103C, [], false, [Fd.ISL_LAG_CNT_SCRUB_CE_COUNT]⟩,
  ⟨0x1040, [], false, []⟩,
  ⟨0x104C, [], false, []⟩,
  ⟨0x1050, [], false, []⟩,
  ⟨0x1054, [], false, []⟩,
  ⟨0x2000, [], false, [Fd.ACC_STATUS_ARRAY_BUSY, Fd.ACC_STATUS_LOAD_BUSY, Fd.ACC_STATUS_WBUF, Fd.ACC_STATUS_INIT_DONE, Fd.ACC_STATUS_HOLD]⟩,
  ⟨0x2004, [], false, [Fd.ACC_CFG_SKIP_EN]⟩]

/-- Part 3 of the registers of an Island register window (R105, R146, R181, R247, R287, R465). -/
def islRegs3 : List RegRow := [
  ⟨0x2008, [], false, [Fd.ACC_ERR_PARITY, Fd.ACC_ERR_PARITY_MULTI]⟩,
  ⟨0x200C, [], false, [Fd.ACC_ERR_ADDR_TROW, Fd.ACC_ERR_ADDR_ENTRY, Fd.ACC_ERR_ADDR_BYTES, Fd.ACC_ERR_ADDR_PORT]⟩,
  ⟨0x2010, [], false, [Fd.ACC_CNT_ISSUE_COUNT]⟩,
  ⟨0x2014, [], false, [Fd.ACC_CNT_SKIP_COUNT]⟩,
  ⟨0x2018, [], false, [Fd.ACC_CNT_WAIT_COUNT]⟩,
  ⟨0x201C, [], false, [Fd.ACC_CNT_HOLD_COUNT]⟩,
  ⟨0x2020, [], false, [Fd.ACC_CNT_LOADS_COUNT]⟩,
  ⟨0x2100, [(16, 0x20), (8, 0x4)], false, [Fd.ACC_WALK_WORD]⟩,
  ⟨0x3000, [], false, [Fd.EBB_STATUS_BUSY, Fd.EBB_STATUS_QDEPTH, Fd.EBB_STATUS_SLOT]⟩,
  ⟨0x3004, [], false, [Fd.EBB_ERR_NONFIN, Fd.EBB_ERR_BOUND, Fd.EBB_ERR_LOSS_MULTI, Fd.EBB_ERR_FAULT]⟩,
  ⟨0x3008, [], false, [Fd.EBB_FIRST_TROW, Fd.EBB_FIRST_ENTRY, Fd.EBB_FIRST_SLOT, Fd.EBB_FIRST_KIND, Fd.EBB_FIRST_SCTX, Fd.EBB_FIRST_VALID]⟩,
  ⟨0x300C, [], false, [Fd.EBB_FIRST_VAL_VAL]⟩,
  ⟨0x3010, [], false, [Fd.EBB_LOSS_VAL]⟩,
  ⟨0x3014, [], false, [Fd.EBB_TIDE_NONFIN_COUNT]⟩,
  ⟨0x3018, [], false, [Fd.EBB_TIDE_BOUND_COUNT]⟩,
  ⟨0x3020, [], false, [Fd.EBB_CNT_ROWS_COUNT]⟩,
  ⟨0x3024, [], false, [Fd.EBB_CNT_NONFIN_COUNT]⟩,
  ⟨0x3028, [], false, [Fd.EBB_CNT_BOUND_COUNT]⟩,
  ⟨0x302C, [], false, [Fd.EBB_CNT_OOBW_COUNT]⟩,
  ⟨0x3030, [], false, [Fd.EBB_CNT_WAIT_COUNT]⟩]

/-- Part 4 of the registers of an Island register window (R105, R146, R181, R247, R287, R465). -/
def islRegs4 : List RegRow := [
  ⟨0x3034, [], false, [Fd.EBB_CNT_OVF_COUNT]⟩,
  ⟨0x3100, [(16, 0x40)], false, [Fd.EBB_DESC_W0_SRC, Fd.EBB_DESC_W0_MODE, Fd.EBB_DESC_W0_FUNC, Fd.EBB_DESC_W0_RMODE, Fd.EBB_DESC_W0_SAT, Fd.EBB_DESC_W0_OUT_T, Fd.EBB_DESC_W0_SCALE_VEC, Fd.EBB_DESC_W0_BIAS_EN, Fd.EBB_DESC_W0_SAVE_EN, Fd.EBB_DESC_W0_GATE_EN, Fd.EBB_DESC_W0_LOSS]⟩,
  ⟨0x3104, [(16, 0x40)], false, [Fd.EBB_DESC_W1_SCALE]⟩,
  ⟨0x3108, [(16, 0x40)], false, [Fd.EBB_DESC_W2_BOUND]⟩,
  ⟨0x310C, [(16, 0x40)], false, [Fd.EBB_DESC_W3_ALPHA]⟩,
  ⟨0x3110, [(16, 0x40)], false, [Fd.EBB_DESC_W4_BLK_ROWS, Fd.EBB_DESC_W4_MROWS]⟩,
  ⟨0x3114, [(16, 0x40)], false, [Fd.EBB_DESC_W5_NVALID, Fd.EBB_DESC_W5_GRP]⟩,
  ⟨0x3118, [(16, 0x40)], false, [Fd.EBB_DESC_W6_SCH, Fd.EBB_DESC_W6_BCH, Fd.EBB_DESC_W6_ZCH, Fd.EBB_DESC_W6_GCH]⟩,
  ⟨0x311C, [(16, 0x40)], false, []⟩,
  ⟨0x3120, [(16, 0x40)], false, []⟩,
  ⟨0x3124, [(16, 0x40)], false, []⟩,
  ⟨0x3128, [(16, 0x40)], false, []⟩,
  ⟨0x312C, [(16, 0x40)], false, []⟩,
  ⟨0x3130, [(16, 0x40)], false, []⟩,
  ⟨0x3134, [(16, 0x40)], false, []⟩,
  ⟨0x3138, [(16, 0x40)], false, []⟩,
  ⟨0x313C, [(16, 0x40)], false, []⟩,
  ⟨0x4000, [], false, [Fd.SHL_STATUS_BUSY, Fd.SHL_STATUS_QDEPTH, Fd.SHL_STATUS_SOP]⟩,
  ⟨0x4004, [], false, [Fd.SHL_CFG_THRESH]⟩,
  ⟨0x4008, [], false, [Fd.SHL_ERR_FAULT, Fd.SHL_ERR_MULTI]⟩]

/-- Part 5 of the registers of an Island register window (R105, R146, R181, R247, R287, R465). -/
def islRegs5 : List RegRow := [
  ⟨0x400C, [], false, [Fd.SHL_ERR_INFO_CODE, Fd.SHL_ERR_INFO_SOP, Fd.SHL_ERR_INFO_SCTX]⟩,
  ⟨0x4010, [], false, [Fd.SHL_ERR_ENTRY_ENTRY]⟩,
  ⟨0x4020, [], false, [Fd.SHL_CNT_OPS_COUNT]⟩,
  ⟨0x4024, [], false, [Fd.SHL_CNT_OOBW_COUNT]⟩,
  ⟨0x4028, [], false, [Fd.SHL_CNT_MERGE_COUNT]⟩,
  ⟨0x402C, [], false, [Fd.SHL_CNT_STALE_COUNT]⟩,
  ⟨0x4030, [], false, [Fd.SHL_CNT_CAPDROP_COUNT]⟩,
  ⟨0x4034, [], false, [Fd.SHL_CNT_UNSORT_COUNT]⟩,
  ⟨0x4038, [], false, [Fd.SHL_CNT_SEGBAD_COUNT]⟩,
  ⟨0x403C, [], false, [Fd.SHL_CNT_REUSE_COUNT]⟩,
  ⟨0x4040, [], false, [Fd.SHL_CNT_SPTILE_COUNT]⟩,
  ⟨0x4080, [(16, 0x4)], false, [Fd.SHL_GEN_TAG]⟩,
  ⟨0x5000, [], false, [Fd.ISL_SENT_CFG_EN, Fd.ISL_SENT_CFG_RLOG2, Fd.ISL_SENT_CFG_TOL]⟩,
  ⟨0x5004, [], false, [Fd.ISL_SENT_KEY_LO_KEY]⟩,
  ⟨0x5008, [], false, [Fd.ISL_SENT_KEY_HI_KEY]⟩,
  ⟨0x500C, [], false, [Fd.ISL_SENT_ERR_MISMATCH, Fd.ISL_SENT_ERR_MULTI]⟩,
  ⟨0x5010, [], false, [Fd.ISL_SENT_FIRST_COL, Fd.ISL_SENT_FIRST_SCTX, Fd.ISL_SENT_FIRST_VALID]⟩,
  ⟨0x5014, [], false, [Fd.ISL_SENT_FIRST_TILE_INDEX]⟩,
  ⟨0x5018, [], false, [Fd.ISL_SENT_FIRST_DIFF_VAL]⟩,
  ⟨0x5020, [], false, [Fd.ISL_SENT_CNT_SAMPLED_COUNT]⟩]

/-- Part 6 of the registers of an Island register window (R105, R146, R181, R247, R287, R465). -/
def islRegs6 : List RegRow := [
  ⟨0x5024, [], false, [Fd.ISL_SENT_CNT_MISMATCH_COUNT]⟩]

/-- The registers of an Island register window (R105, R146, R181, R247, R287, R465). -/
def islRegs : List RegRow :=
  islRegs1 ++ islRegs2 ++ islRegs3 ++ islRegs4 ++ islRegs5 ++ islRegs6

/-- Part 1 of the registers of a Quarter register window (R158, R210, R211, R287, R322, R323, R361, R362, R389, R390). -/
def qtrRegs1 : List RegRow := [
  ⟨0x0, [(4, 0x4000)], false, [Fd.FRY_STATUS_BUSY, Fd.FRY_STATUS_QDEPTH, Fd.FRY_STATUS_OP]⟩,
  ⟨0x4, [(4, 0x4000)], false, [Fd.FRY_ERR_FAULT, Fd.FRY_ERR_MULTI, Fd.FRY_ERR_SUBREJ]⟩,
  ⟨0x8, [(4, 0x4000)], false, [Fd.FRY_ERR_INFO_CODE, Fd.FRY_ERR_INFO_LISL, Fd.FRY_ERR_INFO_SCTX]⟩,
  ⟨0x10, [(4, 0x4000)], false, [Fd.FRY_SUBMIT_LO_ADDR]⟩,
  ⟨0x14, [(4, 0x4000)], false, [Fd.FRY_SUBMIT_HI_ADDR]⟩,
  ⟨0x18, [(4, 0x4000)], false, [Fd.FRY_SUBMIT_CTL_GO]⟩,
  ⟨0x20, [(4, 0x4000)], false, [Fd.FRY_CNT_DESC_COUNT]⟩,
  ⟨0x24, [(4, 0x4000)], false, [Fd.FRY_CNT_KIB_COUNT]⟩,
  ⟨0x28, [(4, 0x4000)], false, [Fd.FRY_CNT_OOBW_COUNT]⟩,
  ⟨0x2C, [(4, 0x4000)], false, [Fd.FRY_CNT_DENSE_COUNT]⟩,
  ⟨0x20000, [(4, 0x1000)], false, [Fd.STR_CTL_EN, Fd.STR_CTL_MAINT, Fd.STR_CTL_RETRAIN, Fd.STR_CTL_ADMIT, Fd.STR_CTL_LEAVE]⟩,
  ⟨0x20004, [(4, 0x1000)], false, [Fd.STR_STATUS_STATE, Fd.STR_STATUS_HOLD, Fd.STR_STATUS_TX_SPARED, Fd.STR_STATUS_RX_SPARED, Fd.STR_STATUS_SCHED, Fd.STR_STATUS_FAR_LB]⟩,
  ⟨0x20008, [(4, 0x1000)], false, [Fd.STR_PARTNER_MOD, Fd.STR_PARTNER_PORT, Fd.STR_PARTNER_VALID]⟩,
  ⟨0x2000C, [(4, 0x1000)], false, [Fd.STR_EXPECT_MOD, Fd.STR_EXPECT_PORT, Fd.STR_EXPECT_EN]⟩,
  ⟨0x20010, [(4, 0x1000)], false, [Fd.STR_ERR_CRC, Fd.STR_ERR_FEC_UE, Fd.STR_ERR_RETRY_LIMIT, Fd.STR_ERR_LANE_FAIL, Fd.STR_ERR_HELLO_FAIL, Fd.STR_ERR_MISMATCH, Fd.STR_ERR_PROTOCOL, Fd.STR_ERR_DOWN]⟩,
  ⟨0x20014, [(4, 0x1000)], false, [Fd.STR_TIMERS_RETRY_TO, Fd.STR_TIMERS_RETRY_LIMIT]⟩,
  ⟨0x20018, [(4, 0x1000)], false, [Fd.STR_LANE_THR_THR]⟩,
  ⟨0x20040, [(4, 0x1000)], false, [Fd.STR_CNT_FLIT_TX_COUNT]⟩,
  ⟨0x20044, [(4, 0x1000)], false, [Fd.STR_CNT_FLIT_RX_COUNT]⟩,
  ⟨0x20048, [(4, 0x1000)], false, [Fd.STR_CNT_CRC_COUNT]⟩]

/-- Part 2 of the registers of a Quarter register window (R158, R210, R211, R287, R322, R323, R361, R362, R389, R390). -/
def qtrRegs2 : List RegRow := [
  ⟨0x2004C, [(4, 0x1000)], false, [Fd.STR_CNT_FEC_CE_COUNT]⟩,
  ⟨0x20050, [(4, 0x1000)], false, [Fd.STR_CNT_FEC_UE_COUNT]⟩,
  ⟨0x20054, [(4, 0x1000)], false, [Fd.STR_CNT_RETRY_COUNT]⟩,
  ⟨0x20058, [(4, 0x1000)], false, [Fd.STR_CNT_DROP_COUNT]⟩,
  ⟨0x2005C, [(4, 0x1000)], false, [Fd.STR_CNT_DOWN_COUNT]⟩,
  ⟨0x20080, [(4, 0x1000), (9, 0x4)], false, [Fd.STR_LANE_CE_COUNT]⟩,
  ⟨0x20100, [(4, 0x1000)], false, [Fd.STR_LB_CTL_DEPTH, Fd.STR_LB_CTL_INJECT, Fd.STR_LB_CTL_GO, Fd.STR_LB_CTL_DONE, Fd.STR_LB_CTL_PASS]⟩,
  ⟨0x20104, [(4, 0x1000)], false, [Fd.STR_LB_RESULT_ERRS, Fd.STR_LB_RESULT_LANE, Fd.STR_LB_RESULT_REFUSED]⟩,
  ⟨0x20108, [(4, 0x1000)], false, [Fd.STR_LB_ADDR_LO_ADDR]⟩,
  ⟨0x2010C, [(4, 0x1000)], false, [Fd.STR_LB_ADDR_HI_ADDR]⟩,
  ⟨0x20140, [(4, 0x1000), (9, 0x4)], false, [Fd.STR_LB_LANE_ERR_COUNT]⟩,
  ⟨0x24000, [(1024, 0x4)], false, [Fd.STR_ROUTE_PORT, Fd.STR_ROUTE_VALID]⟩,
  ⟨0x25000, [], false, [Fd.STR_SELF_ID, Fd.STR_SELF_VALID]⟩,
  ⟨0x25004, [], false, [Fd.STR_TRK_STATUS_INUSE]⟩,
  ⟨0x25008, [], false, [Fd.STR_TRK_TO_LIMIT]⟩,
  ⟨0x25010, [], false, [Fd.STR_CNT_TRK_FULL_COUNT]⟩,
  ⟨0x25014, [], false, [Fd.STR_CNT_TXN_TO_COUNT]⟩,
  ⟨0x25018, [], false, [Fd.STR_CNT_LATE_COUNT]⟩,
  ⟨0x2501C, [], false, [Fd.STR_CNT_NOROUTE_COUNT]⟩,
  ⟨0x25020, [], false, [Fd.STR_CNT_FWD_COUNT]⟩]

/-- Part 3 of the registers of a Quarter register window (R158, R210, R211, R287, R322, R323, R361, R362, R389, R390). -/
def qtrRegs3 : List RegRow := [
  ⟨0x60000, [], true, [Fd.TIDE_CTL_LOAD, Fd.TIDE_CTL_UNLOAD, Fd.TIDE_CTL_FAILNOW]⟩,
  ⟨0x60004, [], true, [Fd.TIDE_CFG_PROFILE, Fd.TIDE_CFG_ROOT, Fd.TIDE_CFG_PARENT, Fd.TIDE_CFG_HOLDGO, Fd.TIDE_CFG_NTYPES]⟩,
  ⟨0x60008, [], true, [Fd.TIDE_CHILD_MASK]⟩,
  ⟨0x6000C, [], true, [Fd.TIDE_SEED_LO_VAL]⟩,
  ⟨0x60010, [], true, [Fd.TIDE_SEED_HI_VAL]⟩,
  ⟨0x60014, [], true, [Fd.TIDE_FIRST_NUM]⟩,
  ⟨0x60018, [], true, [Fd.TIDE_NUM_NUM]⟩,
  ⟨0x6001C, [], true, [Fd.TIDE_STEP_NUM]⟩,
  ⟨0x60020, [], true, [Fd.TIDE_STRETCH_SQ, Fd.TIDE_STRETCH_SMAX]⟩,
  ⟨0x60024, [], true, [Fd.TIDE_STATUS_STATE, Fd.TIDE_STATUS_K, Fd.TIDE_STATUS_OWN, Fd.TIDE_STATUS_KIDS]⟩,
  ⟨0x60028, [], true, [Fd.TIDE_GO_GO, Fd.TIDE_GO_CMD]⟩,
  ⟨0x6002C, [], true, [Fd.TIDE_FAIL_REASON, Fd.TIDE_FAIL_MODULE]⟩,
  ⟨0x60030, [], true, [Fd.TIDE_ERR_LOADREJ, Fd.TIDE_ERR_GROUP, Fd.TIDE_ERR_OVERRUN, Fd.TIDE_ERR_XOVF, Fd.TIDE_ERR_FAIL]⟩,
  ⟨0x60034, [], true, [Fd.TIDE_LOADERR_CODE]⟩,
  ⟨0x60040, [], true, [Fd.TIDE_AGG_FLAGS_FLAGS]⟩,
  ⟨0x60044, [], true, [Fd.TIDE_AGG_NONFIN_COUNT]⟩,
  ⟨0x60048, [], true, [Fd.TIDE_AGG_BOUND_COUNT]⟩,
  ⟨0x6004C, [], true, [Fd.TIDE_AGG_LOSSN_COUNT]⟩,
  ⟨0x60050, [], true, [Fd.TIDE_AGG_LOSS_VAL]⟩,
  ⟨0x60054, [], true, [Fd.TIDE_AGG_NSQ_LO_VAL]⟩]

/-- Part 4 of the registers of a Quarter register window (R158, R210, R211, R287, R322, R323, R361, R362, R389, R390). -/
def qtrRegs4 : List RegRow := [
  ⟨0x60058, [], true, [Fd.TIDE_AGG_NSQ_HI_VAL]⟩,
  ⟨0x6005C, [], true, [Fd.TIDE_AGG_IDS_IDS]⟩,
  ⟨0x60060, [], true, [Fd.TIDE_AGG_NSUSPECT_COUNT]⟩,
  ⟨0x60068, [], true, [Fd.TIDE_GNSQ_LO_VAL]⟩,
  ⟨0x6006C, [], true, [Fd.TIDE_GNSQ_HI_VAL]⟩,
  ⟨0x60070, [], true, [Fd.TIDE_GCMD_CMD]⟩,
  ⟨0x60080, [], true, [Fd.TIDE_BKT_LO_ADDR]⟩,
  ⟨0x60084, [], true, [Fd.TIDE_BKT_HI_ADDR]⟩,
  ⟨0x60088, [], true, [Fd.TIDE_GRP_LO_ADDR]⟩,
  ⟨0x6008C, [], true, [Fd.TIDE_GRP_HI_ADDR]⟩,
  ⟨0x600A0, [], true, [Fd.TIDE_CNT_TIDES_COUNT]⟩,
  ⟨0x600A4, [], true, [Fd.TIDE_CNT_STRETCH_COUNT]⟩,
  ⟨0x600A8, [], true, [Fd.TIDE_CNT_OVERRUN_COUNT]⟩,
  ⟨0x600AC, [], true, [Fd.TIDE_CNT_HELD_COUNT]⟩,
  ⟨0x600B0, [], true, [Fd.TIDE_CNT_XOVF_COUNT]⟩,
  ⟨0x600C0, [(16, 0x4)], true, [Fd.TIDE_TYPE_TLEN]⟩,
  ⟨0x60100, [], true, [Fd.TIDE_BCN_CFG_EN, Fd.TIDE_BCN_CFG_POLICY, Fd.TIDE_BCN_CFG_REPLAY, Fd.TIDE_BCN_CFG_GTYPE, Fd.TIDE_BCN_CFG_WSTEP, Fd.TIDE_BCN_CFG_WARM]⟩,
  ⟨0x60104, [], true, [Fd.TIDE_BCN_ALPHA_VAL]⟩,
  ⟨0x60108, [], true, [Fd.TIDE_BCN_SPIKE_VAL]⟩,
  ⟨0x6010C, [], true, [Fd.TIDE_BCN_NFMAX_COUNT]⟩]

/-- Part 5 of the registers of a Quarter register window (R158, R210, R211, R287, R322, R323, R361, R362, R389, R390). -/
def qtrRegs5 : List RegRow := [
  ⟨0x60110, [], true, [Fd.TIDE_BCN_BDMAX_COUNT]⟩,
  ⟨0x60114, [], true, [Fd.TIDE_BCN_EMA_VAL]⟩,
  ⟨0x60118, [], true, [Fd.TIDE_BCN_WINS_COUNT]⟩,
  ⟨0x6011C, [], true, [Fd.TIDE_BCN_WLOSS_VAL]⟩,
  ⟨0x60120, [], true, [Fd.TIDE_BCN_WLOSSN_COUNT]⟩,
  ⟨0x60124, [], true, [Fd.TIDE_BCN_WNONFIN_COUNT]⟩,
  ⟨0x60128, [], true, [Fd.TIDE_BCN_WBOUND_COUNT]⟩,
  ⟨0x60130, [], true, [Fd.TIDE_BCN_VERDICT_VERDICT, Fd.TIDE_BCN_VERDICT_WPLAUS, Fd.TIDE_BCN_VERDICT_REASON]⟩,
  ⟨0x60134, [], true, [Fd.TIDE_BCN_CNT_SKIP_COUNT]⟩,
  ⟨0x60138, [], true, [Fd.TIDE_BCN_CNT_REPLAY_COUNT]⟩,
  ⟨0x6013C, [], true, [Fd.TIDE_BCN_CNT_UPD_COUNT]⟩,
  ⟨0x60200, [], false, [Fd.TIDE_QSTATUS_DONE]⟩,
  ⟨0x60208, [], false, [Fd.TIDE_SLOT_LO_ADDR]⟩,
  ⟨0x6020C, [], false, [Fd.TIDE_SLOT_HI_ADDR]⟩,
  ⟨0x60240, [(2, 0x20)], false, [Fd.RCH_STATUS_BUSY, Fd.RCH_STATUS_BKT, Fd.RCH_STATUS_ARMED]⟩,
  ⟨0x60244, [(2, 0x20)], false, [Fd.RCH_CNT_ELEM_COUNT]⟩,
  ⟨0x60248, [(2, 0x20)], false, [Fd.RCH_CNT_BKT_COUNT]⟩,
  ⟨0x60280, [], false, [Fd.TIDE_BCN_PLAUS_LO_BITS]⟩,
  ⟨0x60284, [], false, [Fd.TIDE_BCN_PLAUS_HI_BITS]⟩,
  ⟨0x70000, [], false, [Fd.BUOY_ERR_UNDER, Fd.BUOY_ERR_SAT, Fd.BUOY_ERR_MULTI]⟩]

/-- Part 6 of the registers of a Quarter register window (R158, R210, R211, R287, R322, R323, R361, R362, R389, R390). -/
def qtrRegs6 : List RegRow := [
  ⟨0x70004, [], false, [Fd.BUOY_ERR_ID_BIDX, Fd.BUOY_ERR_ID_PORT, Fd.BUOY_ERR_ID_MOD]⟩,
  ⟨0x70008, [], false, [Fd.BUOY_DUMP_ADDR_LO_ADDR]⟩,
  ⟨0x7000C, [], false, [Fd.BUOY_DUMP_ADDR_HI_ADDR]⟩,
  ⟨0x70010, [], false, [Fd.BUOY_DUMP_CTL_GO, Fd.BUOY_DUMP_CTL_DONE, Fd.BUOY_DUMP_CTL_ERR]⟩,
  ⟨0x70020, [], false, [Fd.BUOY_CNT_OPS_COUNT]⟩,
  ⟨0x70024, [], false, [Fd.BUOY_CNT_UNDER_COUNT]⟩,
  ⟨0x70028, [], false, [Fd.BUOY_CNT_HAND_COUNT]⟩,
  ⟨0x80000, [], false, [Fd.CHT_INV_CTX, Fd.CHT_INV_SCOPE, Fd.CHT_INV_GO, Fd.CHT_INV_DONE]⟩,
  ⟨0x80004, [], false, [Fd.CHT_ERR_XLATE, Fd.CHT_ERR_PROT, Fd.CHT_ERR_BOT, Fd.CHT_ERR_MULTI]⟩,
  ⟨0x80008, [], false, [Fd.CHT_ERR_VA_LO_VA]⟩,
  ⟨0x8000C, [], false, [Fd.CHT_ERR_VA_HI_VA]⟩,
  ⟨0x80010, [], false, [Fd.CHT_ERR_INFO_CTX, Fd.CHT_ERR_INFO_LISL, Fd.CHT_ERR_INFO_WR, Fd.CHT_ERR_INFO_ENG, Fd.CHT_ERR_INFO_WHY]⟩,
  ⟨0x80020, [], false, [Fd.CHT_T1_SRC_LO_ADDR]⟩,
  ⟨0x80024, [], false, [Fd.CHT_T1_SRC_HI_ADDR]⟩,
  ⟨0x80028, [], false, [Fd.CHT_T1_CTL_CTX, Fd.CHT_T1_CTL_LISL, Fd.CHT_T1_CTL_SLOT, Fd.CHT_T1_CTL_GO, Fd.CHT_T1_CTL_DONE, Fd.CHT_T1_CTL_STATUS]⟩,
  ⟨0x80040, [], false, [Fd.CHT_CNT_WALK_COUNT]⟩,
  ⟨0x80044, [], false, [Fd.CHT_CNT_XLATE_COUNT]⟩,
  ⟨0x80048, [], false, [Fd.CHT_CNT_PROT_COUNT]⟩,
  ⟨0x80100, [(16, 0x10)], false, [Fd.CHT_CTX_PT_ROOT_EN, Fd.CHT_CTX_PT_ROOT_ROOT_LO]⟩,
  ⟨0x80104, [(16, 0x10)], false, [Fd.CHT_CTX_PT_ROOTHI_ROOT_HI]⟩]

/-- Part 7 of the registers of a Quarter register window (R158, R210, R211, R287, R322, R323, R361, R362, R389, R390). -/
def qtrRegs7 : List RegRow := [
  ⟨0x80108, [(16, 0x10)], false, [Fd.CHT_CTX_PT_CT_CT_LO]⟩,
  ⟨0x8010C, [(16, 0x10)], false, [Fd.CHT_CTX_PT_CTHI_CT_HI]⟩,
  ⟨0x90000, [(8192, 0x8)], false, [Fd.CHT_BOT_LO_WORD]⟩,
  ⟨0x90004, [(8192, 0x8)], false, [Fd.CHT_BOT_HI_WORD]⟩,
  ⟨0xA0000, [(2, 0x1000)], false, [Fd.FUU_CTL_SET, Fd.FUU_CTL_GO, Fd.FUU_CTL_DONE]⟩,
  ⟨0xA0004, [(2, 0x1000)], false, [Fd.FUU_STATE_CUR, Fd.FUU_STATE_LOCK, Fd.FUU_STATE_INPLACE, Fd.FUU_STATE_BUSY]⟩,
  ⟨0xA0010, [(2, 0x1000)], false, [Fd.FUU_TBL_LO_ADDR]⟩,
  ⟨0xA0014, [(2, 0x1000)], false, [Fd.FUU_TBL_HI_ADDR]⟩,
  ⟨0xA0018, [(2, 0x1000)], false, [Fd.FUU_TBL_N_COUNT]⟩,
  ⟨0xA0020, [(2, 0x1000)], false, [Fd.FUU_BOFF_LO_OFF]⟩,
  ⟨0xA0024, [(2, 0x1000)], false, [Fd.FUU_BOFF_HI_OFF]⟩,
  ⟨0xA0028, [(2, 0x1000)], false, [Fd.FUU_T_COUNT]⟩,
  ⟨0xA002C, [(2, 0x1000)], false, [Fd.FUU_EPS_VAL]⟩,
  ⟨0xA0030, [(2, 0x1000)], false, [Fd.FUU_CLIP_VAL]⟩,
  ⟨0xA0034, [(2, 0x1000)], false, [Fd.FUU_CMP_TOL]⟩,
  ⟨0xA0038, [(2, 0x1000)], false, [Fd.FUU_CMP_CNT_COUNT]⟩,
  ⟨0xA003C, [(2, 0x1000)], false, [Fd.FUU_CMP_FIRST_INDEX]⟩,
  ⟨0xA0040, [(2, 0x1000)], false, [Fd.FUU_ERR_FAULT, Fd.FUU_ERR_REEXEC, Fd.FUU_ERR_HARD]⟩,
  ⟨0xA0044, [(2, 0x1000)], false, [Fd.FUU_ERR_INFO_CODE, Fd.FUU_ERR_INFO_ENTRY]⟩,
  ⟨0xA0050, [(2, 0x1000)], false, [Fd.FUU_CNT_PARAMS_COUNT]⟩]

/-- Part 8 of the registers of a Quarter register window (R158, R210, R211, R287, R322, R323, R361, R362, R389, R390). -/
def qtrRegs8 : List RegRow := [
  ⟨0xA0054, [(2, 0x1000)], false, [Fd.FUU_CNT_REEXEC_COUNT]⟩,
  ⟨0xA0800, [(2, 0x1000), (256, 0x8)], false, [Fd.FUU_UCODE_WORD]⟩,
  ⟨0xA0804, [(2, 0x1000), (256, 0x8)], false, []⟩,
  ⟨0x40000, [(2, 0x2000)], false, [Fd.HBM_STATUS_STATE, Fd.HBM_STATUS_SCRUB_ACT, Fd.HBM_STATUS_LB_BUSY]⟩,
  ⟨0x40004, [(2, 0x2000)], false, [Fd.HBM_SCRUB_EN, Fd.HBM_SCRUB_INTERVAL]⟩,
  ⟨0x40008, [(2, 0x2000)], false, [Fd.HBM_SCRUB_POS_UNIT]⟩,
  ⟨0x4000C, [(2, 0x2000)], false, [Fd.HBM_SCRUB_PASS_COUNT]⟩,
  ⟨0x40010, [(2, 0x2000)], false, [Fd.HBM_ERR_CE, Fd.HBM_ERR_UE, Fd.HBM_ERR_CE_MULTI, Fd.HBM_ERR_UE_MULTI, Fd.HBM_ERR_LINK]⟩,
  ⟨0x40014, [(2, 0x2000)], false, [Fd.HBM_CE_ADDR_LO_ADDR]⟩,
  ⟨0x40018, [(2, 0x2000)], false, [Fd.HBM_CE_ADDR_HI_ADDR]⟩,
  ⟨0x4001C, [(2, 0x2000)], false, [Fd.HBM_CE_INFO_SYMBOL, Fd.HBM_CE_INFO_LOC, Fd.HBM_CE_INFO_REQ, Fd.HBM_CE_INFO_LISL]⟩,
  ⟨0x40020, [(2, 0x2000)], false, [Fd.HBM_UE_ADDR_LO_ADDR]⟩,
  ⟨0x40024, [(2, 0x2000)], false, [Fd.HBM_UE_ADDR_HI_ADDR]⟩,
  ⟨0x40028, [(2, 0x2000)], false, [Fd.HBM_UE_INFO_SYMBOL, Fd.HBM_UE_INFO_LOC, Fd.HBM_UE_INFO_REQ, Fd.HBM_UE_INFO_LISL, Fd.HBM_UE_INFO_POISON]⟩,
  ⟨0x40030, [(2, 0x2000)], false, [Fd.HBM_CNT_CE_COUNT]⟩,
  ⟨0x40034, [(2, 0x2000)], false, [Fd.HBM_CNT_UE_COUNT]⟩,
  ⟨0x40038, [(2, 0x2000)], false, [Fd.HBM_CNT_POISON_COUNT]⟩,
  ⟨0x4003C, [(2, 0x2000)], false, [Fd.HBM_CNT_SCRUB_CE_COUNT]⟩,
  ⟨0x40040, [(2, 0x2000)], false, [Fd.HBM_CNT_ODECC_COUNT]⟩,
  ⟨0x4004C, [(2, 0x2000)], false, [Fd.HBM_CTL_MAINT]⟩]

/-- Part 9 of the registers of a Quarter register window (R158, R210, R211, R287, R322, R323, R361, R362, R389, R390). -/
def qtrRegs9 : List RegRow := [
  ⟨0x40050, [(2, 0x2000)], false, [Fd.HBM_LB_CTL_DEPTH, Fd.HBM_LB_CTL_GO, Fd.HBM_LB_CTL_DONE, Fd.HBM_LB_CTL_PASS]⟩,
  ⟨0x40054, [(2, 0x2000)], false, [Fd.HBM_LB_RESULT_MISMATCH, Fd.HBM_LB_RESULT_LANE]⟩,
  ⟨0xC0000, [(8, 0x1000)], false, [Fd.LPX_STATUS_STATE, Fd.LPX_STATUS_SCRUB_ACT, Fd.LPX_STATUS_LB_BUSY]⟩,
  ⟨0xC0004, [(8, 0x1000)], false, [Fd.LPX_SCRUB_EN, Fd.LPX_SCRUB_INTERVAL]⟩,
  ⟨0xC0008, [(8, 0x1000)], false, [Fd.LPX_SCRUB_POS_UNIT]⟩,
  ⟨0xC000C, [(8, 0x1000)], false, [Fd.LPX_SCRUB_PASS_COUNT]⟩,
  ⟨0xC0010, [(8, 0x1000)], false, [Fd.LPX_ERR_CE, Fd.LPX_ERR_UE, Fd.LPX_ERR_CE_MULTI, Fd.LPX_ERR_UE_MULTI, Fd.LPX_ERR_LINK]⟩,
  ⟨0xC0014, [(8, 0x1000)], false, [Fd.LPX_CE_ADDR_LO_ADDR]⟩,
  ⟨0xC0018, [(8, 0x1000)], false, [Fd.LPX_CE_ADDR_HI_ADDR]⟩,
  ⟨0xC001C, [(8, 0x1000)], false, [Fd.LPX_CE_INFO_SYMBOL, Fd.LPX_CE_INFO_LOC, Fd.LPX_CE_INFO_REQ, Fd.LPX_CE_INFO_LISL]⟩,
  ⟨0xC0020, [(8, 0x1000)], false, [Fd.LPX_UE_ADDR_LO_ADDR]⟩,
  ⟨0xC0024, [(8, 0x1000)], false, [Fd.LPX_UE_ADDR_HI_ADDR]⟩,
  ⟨0xC0028, [(8, 0x1000)], false, [Fd.LPX_UE_INFO_SYMBOL, Fd.LPX_UE_INFO_LOC, Fd.LPX_UE_INFO_REQ, Fd.LPX_UE_INFO_LISL, Fd.LPX_UE_INFO_POISON]⟩,
  ⟨0xC0030, [(8, 0x1000)], false, [Fd.LPX_CNT_CE_COUNT]⟩,
  ⟨0xC0034, [(8, 0x1000)], false, [Fd.LPX_CNT_UE_COUNT]⟩,
  ⟨0xC0038, [(8, 0x1000)], false, [Fd.LPX_CNT_POISON_COUNT]⟩,
  ⟨0xC003C, [(8, 0x1000)], false, [Fd.LPX_CNT_SCRUB_CE_COUNT]⟩,
  ⟨0xC0040, [(8, 0x1000)], false, []⟩,
  ⟨0xC004C, [(8, 0x1000)], false, [Fd.LPX_CTL_MAINT]⟩,
  ⟨0xC0050, [(8, 0x1000)], false, [Fd.LPX_LB_CTL_DEPTH, Fd.LPX_LB_CTL_GO, Fd.LPX_LB_CTL_DONE, Fd.LPX_LB_CTL_PASS]⟩]

/-- Part 10 of the registers of a Quarter register window (R158, R210, R211, R287, R322, R323, R361, R362, R389, R390). -/
def qtrRegs10 : List RegRow := [
  ⟨0xC0054, [(8, 0x1000)], false, [Fd.LPX_LB_RESULT_MISMATCH, Fd.LPX_LB_RESULT_LANE]⟩]

/-- The registers of a Quarter register window (R158, R210, R211, R287, R322, R323, R361, R362, R389, R390). -/
def qtrRegs : List RegRow :=
  qtrRegs1 ++ qtrRegs2 ++ qtrRegs3 ++ qtrRegs4 ++ qtrRegs5 ++ qtrRegs6 ++ qtrRegs7 ++ qtrRegs8 ++ qtrRegs9 ++ qtrRegs10

/-- Part 1 of the registers of the module-level register window (R32, R434, R435, R466, R490, R514, R518). -/
def modRegs1 : List RegRow := [
  ⟨0x0, [(4, 0x4)], false, [Fd.PLT_CORE_READY, Fd.PLT_CORE_RESTARTS, Fd.PLT_CORE_EXPIRED]⟩,
  ⟨0x10, [(4, 0x4)], false, [Fd.PLT_WDOG_KICK, Fd.PLT_WDOG_LEFT]⟩,
  ⟨0x40, [], false, [Fd.PLT_CTXF_FENCED]⟩,
  ⟨0x44, [], false, [Fd.PLT_SHRWR_EN]⟩,
  ⟨0x48, [], false, [Fd.PLT_RDB_RING, Fd.PLT_RDB_GO]⟩,
  ⟨0x4C, [], false, [Fd.PLT_MOWN_OWNER]⟩,
  ⟨0x100, [(64, 0x4)], false, [Fd.PLT_ROWN_OWNER, Fd.PLT_ROWN_PEND, Fd.PLT_ROWN_FTIMER]⟩,
  ⟨0x1000, [(8, 0x100), (16, 0x4)], false, [Fd.PLT_MBX_IN_IN]⟩,
  ⟨0x1040, [(8, 0x100), (16, 0x4)], false, [Fd.PLT_MBX_OUT_OUT]⟩,
  ⟨0x1080, [(8, 0x100)], false, [Fd.PLT_MBX_DB_IN_RING, Fd.PLT_MBX_DB_OUT_RING, Fd.PLT_MBX_DB_OVR]⟩,
  ⟨0x10000, [], false, [Fd.SHR_RST_CORE]⟩,
  ⟨0x10004, [], false, [Fd.SHR_STATUS_RUN]⟩,
  ⟨0x10008, [], false, [Fd.SHR_MBX_IRQ_TARGET]⟩,
  ⟨0x20000, [], false, [Fd.MGT_STATUS_MLINK, Fd.MGT_STATUS_MFEC, Fd.MGT_STATUS_PLINK, Fd.MGT_STATUS_PRATE, Fd.MGT_STATUS_PWIDTH, Fd.MGT_STATUS_CAP_ACT, Fd.MGT_STATUS_THROTTLE, Fd.MGT_STATUS_PCAP]⟩,
  ⟨0x20004, [], false, [Fd.MGT_PCAP_LIMIT, Fd.MGT_PCAP_ALT]⟩,
  ⟨0x20008, [], false, [Fd.MGT_GATE_W, Fd.MGT_GATE_LEFF]⟩,
  ⟨0x2000C, [], false, [Fd.MGT_PWR_PIN, Fd.MGT_PWR_VIN]⟩,
  ⟨0x20010, [], false, [Fd.MGT_TEMP_TJ, Fd.MGT_TEMP_THBM, Fd.MGT_TEMP_TBASE, Fd.MGT_TEMP_TVR]⟩,
  ⟨0x20014, [], false, [Fd.MGT_THERM_THROTTLE]⟩,
  ⟨0x20018, [], false, [Fd.MGT_ALERT_THROTTLE, Fd.MGT_ALERT_CAPSAT, Fd.MGT_ALERT_PCAP, Fd.MGT_ALERT_PDOWN, Fd.MGT_ALERT_MDOWN, Fd.MGT_ALERT_CLK]⟩]

/-- Part 2 of the registers of the module-level register window (R32, R434, R435, R466, R490, R514, R518). -/
def modRegs2 : List RegRow := [
  ⟨0x2001C, [], false, [Fd.MGT_ALERT_EN_THROTTLE, Fd.MGT_ALERT_EN_CAPSAT, Fd.MGT_ALERT_EN_PCAP, Fd.MGT_ALERT_EN_PDOWN, Fd.MGT_ALERT_EN_MDOWN, Fd.MGT_ALERT_EN_CLK]⟩,
  ⟨0x20020, [], false, [Fd.MGT_MAC_LO_MAC]⟩,
  ⟨0x20024, [], false, [Fd.MGT_MAC_HI_MAC]⟩,
  ⟨0x20040, [(4, 0x10)], false, [Fd.MGT_WIN_LO_BASE_LO]⟩,
  ⟨0x20044, [(4, 0x10)], false, [Fd.MGT_WIN_HI_BASE_HI]⟩,
  ⟨0x20048, [(4, 0x10)], false, [Fd.MGT_WIN_SIZE_SIZE]⟩,
  ⟨0x20080, [], false, [Fd.MGT_LB_PORT, Fd.MGT_LB_DEPTH, Fd.MGT_LB_GO, Fd.MGT_LB_DONE, Fd.MGT_LB_PASS, Fd.MGT_LB_ERRS]⟩,
  ⟨0x200A0, [], false, [Fd.MGT_CNT_REQ_COUNT]⟩,
  ⟨0x200A4, [], false, [Fd.MGT_CNT_DENIED_COUNT]⟩,
  ⟨0x200A8, [], false, [Fd.MGT_CNT_DROP_COUNT]⟩,
  ⟨0x200AC, [], false, [Fd.MGT_CNT_GATED_COUNT]⟩,
  ⟨0x30000, [], false, [Fd.BOOT_STATUS_STAGE, Fd.BOOT_STATUS_MODE, Fd.BOOT_STATUS_FWCOPY, Fd.BOOT_STATUS_RECOVERY, Fd.BOOT_STATUS_READY, Fd.BOOT_STATUS_ID_FAIL, Fd.BOOT_STATUS_ISTHMUS, Fd.BOOT_STATUS_MEMORY, Fd.BOOT_STATUS_ISLANDS, Fd.BOOT_STATUS_SHORE, Fd.BOOT_STATUS_RESTARTS]⟩,
  ⟨0x30004, [], false, [Fd.BOOT_ERR_IMG_A, Fd.BOOT_ERR_IMG_B, Fd.BOOT_ERR_CFG, Fd.BOOT_ERR_REPAIR, Fd.BOOT_ERR_FL, Fd.BOOT_ERR_IDX]⟩,
  ⟨0x30010, [], false, [Fd.BOOT_FL_CTL_OP, Fd.BOOT_FL_CTL_DEV, Fd.BOOT_FL_CTL_GO, Fd.BOOT_FL_CTL_DONE, Fd.BOOT_FL_CTL_ERR, Fd.BOOT_FL_CTL_BUSY]⟩,
  ⟨0x30014, [], false, [Fd.BOOT_FL_ADDR_OFF]⟩,
  ⟨0x30018, [], false, [Fd.BOOT_FL_SRC_LO_ADDR]⟩,
  ⟨0x3001C, [], false, [Fd.BOOT_FL_SRC_HI_ADDR]⟩,
  ⟨0x30020, [], false, [Fd.BOOT_FL_LEN_BYTES]⟩,
  ⟨0x30030, [], false, [Fd.BOOT_RCV_LEN, Fd.BOOT_RCV_GO]⟩,
  ⟨0x40000, [], false, [Fd.ISL_POLICY_POLICY, Fd.ISL_POLICY_LOADED]⟩]

/-- Part 3 of the registers of the module-level register window (R32, R434, R435, R466, R490, R514, R518). -/
def modRegs3 : List RegRow := [
  ⟨0x40100, [(136, 0x4)], false, [Fd.ISL_LMAP_PHYS, Fd.ISL_LMAP_VALID, Fd.ISL_LMAP_PIN]⟩,
  ⟨0x40400, [(144, 0x4)], false, [Fd.ISL_PSTATE_STATE, Fd.ISL_PSTATE_LOGICAL, Fd.ISL_PSTATE_SEQ]⟩,
  ⟨0x40800, [], false, [Fd.ISL_SWAP_CTL_SRC, Fd.ISL_SWAP_CTL_DST, Fd.ISL_SWAP_CTL_GO, Fd.ISL_SWAP_CTL_COPIED, Fd.ISL_SWAP_CTL_REJ, Fd.ISL_SWAP_CTL_ABORT, Fd.ISL_SWAP_CTL_AFTER, Fd.ISL_SWAP_CTL_RELEASE, Fd.ISL_SWAP_CTL_HOLD]⟩,
  ⟨0x40804, [], false, [Fd.ISL_SWAP_CURSOR_LINES]⟩,
  ⟨0x40900, [], false, [Fd.ISL_TEST_CTL_SEL, Fd.ISL_TEST_CTL_CMD, Fd.ISL_TEST_CTL_GO, Fd.ISL_TEST_CTL_REJ]⟩]

/-- The registers of the module-level register window (R32, R434, R435, R466, R490, R514, R518). -/
def modRegs : List RegRow :=
  modRegs1 ++ modRegs2 ++ modRegs3

/-- Part 1 of the registers of one Buoy's 256 bytes (R157). -/
def buoyRegs1 : List RegRow := [
  ⟨0x0, [], false, [Fd.BUOY_VAL_COUNT]⟩,
  ⟨0x4, [], false, [Fd.BUOY_FLAGS_UNDER, Fd.BUOY_FLAGS_SAT, Fd.BUOY_FLAGS_HAND, Fd.BUOY_FLAGS_WAITERS]⟩,
  ⟨0x8, [], false, [Fd.BUOY_LSIG_SRC_MOD, Fd.BUOY_LSIG_SRC_LISL, Fd.BUOY_LSIG_SRC_SCTX, Fd.BUOY_LSIG_SRC_KIND, Fd.BUOY_LSIG_SRC_PORT]⟩,
  ⟨0xC, [], false, [Fd.BUOY_LSIG_INFO_PC, Fd.BUOY_LSIG_INFO_TIDE]⟩,
  ⟨0x10, [], false, [Fd.BUOY_LSIG_VAL_VAL]⟩,
  ⟨0x14, [], false, [Fd.BUOY_LWAIT_SRC_LISL, Fd.BUOY_LWAIT_SRC_SCTX, Fd.BUOY_LWAIT_SRC_PC, Fd.BUOY_LWAIT_SRC_PENDING]⟩,
  ⟨0x18, [], false, [Fd.BUOY_LWAIT_THR_THR]⟩]

/-- The registers of one Buoy's 256 bytes (R157). -/
def buoyRegs : List RegRow :=
  buoyRegs1

/-- Whether offset `x` is reached by the array shape `dims` from its base: some index in range at each dimension. -/
def dimsHit : List (Nat × Nat) → Nat → Bool
  | [], x => x == 0
  | (n, st) :: ds, x => decide (x / st < n) && dimsHit ds (x % st)

/-- Whether the row holds the register at offset `x` of its window. -/
def RegRow.hit (r : RegRow) (x : Nat) : Bool := decide (r.off ≤ x) && dimsHit r.dims (x - r.off)

/-- The row of the register at physical address `a`, if there is a register there (R17, R39). -/
def regRow? (a : Nat) : Option RegRow :=
  if a % 4 ≠ 0 then none
  else if 0x1000000 ≤ a ∧ a < 0x2000000 then buoyRegs.find? (·.hit (a % 256))
  else if 0x4000000 ≤ a ∧ a < 0x4900000 then islRegs.find? (·.hit (a % 0x10000))
  else if 0x5000000 ≤ a ∧ a < 0x5400000 then
    (qtrRegs.find? (·.hit (a % 0x100000))).filter (fun r => !r.q0 || decide (a < 0x5100000))
  else if 0x6000000 ≤ a ∧ a < 0x6100000 then modRegs.find? (·.hit (a % 0x100000))
  else none

/-- The value of one field placed at its bits. -/
def Fld.place (f : Fld) (v : Nat) : Nat := (v % 2 ^ f.w) * 2 ^ f.lo

/-- The word that a row's fields have at reset. -/
def RegRow.reset (r : RegRow) : Word := BitVec.ofNat 32 ((r.fields.map fun f => f.place f.rst).sum)

/-- What a register that nothing has written reads: its reset value, and 0 where the map has no register. -/
def regReset (a : Nat) : Word :=
  match regRow? a with
  | some r => r.reset
  | none => 0

/-- Reads field `f` of a register word. -/
def Fld.get (f : Fld) (w : Word) : Nat := (w.toNat / 2 ^ f.lo) % 2 ^ f.w

/-- Replaces field `f` of a register word; the other bits stay. -/
def Fld.put (f : Fld) (w : Word) (v : Nat) : Word :=
  BitVec.ofNat 32 (w.toNat - f.place (f.get w) + f.place v)

/-- The bits of a row's fields of type `t`, as a mask. -/
def RegRow.mask (r : RegRow) (t : FieldType) : Word :=
  BitVec.ofNat 32 (((r.fields.filter (·.ty = t)).map fun f => f.place (2 ^ f.w - 1)).sum)

/-- A software write of `v` over `old` (R16, R17): RW fields take the written bits, a 1 clears a W1C bit, RO, RC and
reserved bits are not written. -/
def RegRow.swWrite (r : RegRow) (old v : Word) : Word :=
  let rw := r.mask .rw
  let w1c := r.mask .w1c
  ((old &&& ~~~rw) ||| (v &&& rw)) &&& ~~~(v &&& w1c)

/-- What a read leaves behind (R16): every RC field becomes 0. -/
def RegRow.rcClear (r : RegRow) (old : Word) : Word := old &&& ~~~(r.mask .rc)

end Sys2Proof.Machine
end

