-- ==== Sys2Proof/Machine/Table.lean ====
section
/-! DEFINITION. Tables: sparse data by key in one canonical form. A table lists (key, value) pairs with keys strictly
rising, and lists no pair whose value is what an unlisted key reads (a default function of the key). Memory, registers and
every array of units are tables, so that equal contents are equal data. -/

namespace Sys2Proof.Machine

/-- A table: pairs of a key and a value. -/
abbrev Table (α : Type) := List (Nat × α)

/-- Reads a key: the first pair with that key, or the default. -/
def tget {α : Type} (d : Nat → α) : Table α → Nat → α
  | [], k => d k
  | (j, v) :: r, k => if j = k then v else tget d r k

/-- Removes every pair with a key. -/
def tdel {α : Type} : Table α → Nat → Table α
  | [], _ => []
  | (j, v) :: r, k => if j = k then tdel r k else (j, v) :: tdel r k

/-- Inserts a pair before the first larger key. -/
def tins {α : Type} (k : Nat) (v : α) : Table α → Table α
  | [] => [(k, v)]
  | (j, w) :: r => if k < j then (k, v) :: (j, w) :: r else (j, w) :: tins k v r

/-- Writes a key: writing the default removes the pair. -/
def tset {α : Type} [DecidableEq α] (d : Nat → α) (t : Table α) (k : Nat) (v : α) : Table α :=
  if v = d k then tdel t k else tins k v (tdel t k)

/-- Every key of the table is above `k`. -/
def tabove {α : Type} (k : Nat) (t : Table α) : Bool := t.all fun p => decide (k < p.1)

/-- The canonical form: keys strictly rising, and no pair equal to the default. -/
def twf {α : Type} [DecidableEq α] (d : Nat → α) : Table α → Bool
  | [] => true
  | (j, v) :: r => decide (v ≠ d j) && tabove j r && twf d r

end Sys2Proof.Machine
end

