-- ==== Sys2Proof/Machine/State.lean ====
section
/-! DEFINITION. The state of the module as plain data, the reasons a step can stop, and the state after reset. Registers and
memory are tables by module physical address; every unit has a structure for what it holds beside its registers. -/

namespace Sys2Proof.Machine

/-- Why a step stops. -/
inductive Fault where
  /-- Raised by every command whose operands are not well formed (`wellFormed`): no such command exists on the module.
  Safe: the model only stops. -/
  | illFormed
deriving DecidableEq, Repr

/-- Why a command has no meaning. -/
inductive Refusal where
  /-- Raised by an arm of `exec` that has no meaning yet. Safe: the model only stops. -/
  | notModelled (mnemonic : String)
deriving DecidableEq, Repr

/-! ### Memory -/

/-- The condition of one 32-byte codeword (R268, R272, R273): clean, an error in one of its 68 symbols, uncorrectable, or
poisoned. -/
inductive CwErr where
  | ok
  | ce (sym : Fin 68)
  | ue
  | poison
deriving DecidableEq, Repr

/-- An access error (R37, R38, R155, R491): address, requester class, whether it was a write, and its kind (1 unmapped or
RETIRED, 2 BUSY, 3 not permitted, 4 read-only window). -/
structure AccessErr where
  addr : Nat
  req : Nat
  wr : Bool
  kind : Nat
deriving DecidableEq, Repr

/-- What the requester of the last register or memory access got: nothing yet, data, or an access error of a kind with its
data. Kind 5 is the access fault of a core whose load or merging store met an uncorrectable error (R272, R273). -/
inductive BusRsp where
  | none
  | data (bs : List (BitVec 8))
  | err (kind : Nat) (bs : List (BitVec 8))
deriving DecidableEq, Repr

/-- An event reported to the Pilot firmware (R25, R138, R142, R148, R317 and others), with the unit it names. -/
inductive EventKind where
  | islandShortfall
  | memoryShortfall
  | waitLong
  | seqFault
  | buoySat
  | buoyUnder
  | memCe
  | memUe
  | memPoison
  | scrubCe
  | scrubUe
  | odecc
  | ctrlFailed
  | memLoopbackFail
  | stateSkew
  | portUp
  | portDown
  | laneSpared
  | spareLost
  | retry
  | retryLimit
  | fecUe
  | helloFail
  | mismatch
  | txnTimeout
  | strLoopbackFail
  | protocol
  | late
  | accParity
  | sentinel
  | ebbNonfin
  | ferryFail
  | pilotBad
  | remoteBad
  | tideFail
  | tideOverrun
  | xovf
  | fuuFault
  | fuuHard
  | swapRej
  | pilotRestart
  | ringBell
  | mailboxIn
  | mailboxOut
  | thermal
  | other (code : Nat)
deriving DecidableEq, Repr

/-- An event record: kind, unit, two detail words, the Tide number at which it happened (R286, R321, R461), and the Pilot core that it
interrupts (R391). -/
structure Event where
  kind : EventKind
  unit : Nat
  a : Nat
  b : Nat
  tide : Nat
  core : Nat
deriving DecidableEq, Repr

/-! ### Messages -/

/-- A Strait message (R307): header fields, the extension of a MERGE or a masked WR, and the data lines. -/
structure Msg where
  typ : Nat
  vc : Nat
  len : Nat
  masked : Bool
  dst : Nat
  src : Nat
  tag : Nat
  gen : Nat
  hops : Nat
  status : Nat
  /-- Bits [63:0] of bytes 8 to 15: ADDR, or the fields of BUOY, MGMT, TIDE and REDUCE. -/
  addr : Nat
  ext : List (BitVec 8)
  data : List (BitVec 8)
deriving DecidableEq, Repr

/-! ### Work -/

/-- Who issued a piece of work: a sequencer context, or the Pilot through a Ferry submission. -/
inductive WorkSrc where
  | ctx (p c : Nat)
  | pilot
deriving DecidableEq, Repr

/-- An issued instruction that has not completed (R126): its number, its class (0 MM, 1 DRAIN, 2 SHOAL, 3 FERRY, 4 BUOY,
5 STS; 6 for writes of the firmware and the update units), its issuer and PC, whether its own engine has finished with it, and how many remote transactions it still waits
for. -/
structure Work where
  id : Nat
  cls : Nat
  src : WorkSrc
  pc : Nat
  done : Bool
  out : Nat
deriving DecidableEq, Repr

/-- A line of another module's memory that an engine reads for one piece of work: asked for, or returned (and whether it
came with an error mark). -/
structure RemLine where
  work : Nat
  mod : Nat
  addr : Nat
  data : Option (List (BitVec 8))
  bad : Bool
deriving DecidableEq, Repr

/-! ### Island -/

/-- What a context in state WAIT waits for (R126, R138, R139, R140). -/
inductive CtxWait where
  | none
  | buoy (b : Nat) (thr : Int)
  | fence (mask id : Nat)
  | tmark
  | halt
deriving DecidableEq, Repr

/-- What a returning scalar load does (R128, R129, R130). -/
inductive LoadKind where
  | lds (size : Nat)
  | shape (max : Nat) (cbv : Bool) (lisl bidx : Nat)
deriving DecidableEq, Repr

/-- A scalar load on its way: destination, kind, the raw data read, and the PC of the load. -/
structure Load where
  rd : Nat
  kind : LoadKind
  val : Nat
  pc : Nat
deriving DecidableEq, Repr

/-- A signal-queue entry (R137): its work number, reset or signal, where the Buoy is, the amount, the AFTER mask, PC. -/
structure Sig where
  id : Nat
  rst : Bool
  rem : Bool
  mod : Nat
  lisl : Nat
  bidx : Nat
  val : Int
  after : Nat
  pc : Nat
deriving DecidableEq, Repr

/-- What a sequencer context holds beside its registers (R108, R113, R137, R138). -/
structure Ctx where
  wait : CtxWait := .none
  waitReported : Bool := false
  waitCycles : Nat := 0
  loads : List Load := []
  sigq : List Sig := []
deriving DecidableEq, Repr

/-- A matrix instruction in the array queue, with the values it read at issue (R85, R113, R131, R132). -/
structure MmOp where
  id : Nat
  c : Nat
  pc : Nat
  mode : Nat
  add : Bool
  ta : Bool
  tb : Bool
  fa : Nat
  fb : Nat
  cha : Nat
  chb : Nat
  aux : Nat
  base : Nat
  nstr : Nat
  m : Nat
  n : Nat
  k : Nat
  orgA : List Nat
  orgB : List Nat
deriving DecidableEq, Repr

/-- A weight set in a weight buffer: its index, its buffer (0 for an FP32 set, which takes both), and per row copy and column
its L weight values (R73, R77). -/
structure WSet where
  idx : Nat
  buf : Nat
  w : List (List (List FVal))
deriving DecidableEq, Repr

/-- A matrix instruction in the array (R87): its Charts and walk descriptor as copied, SKIP_EN as it was when it was
accepted, the next weight set to load, the sets in the buffers, the set and group row 0 issues next, and the groups of
the current set. `stop` holds the array fault at the point where the stream stops (R185). `staged` is the next weight set as
the other staging entry of the Landing buffer holds it, read while the load before it wrote (R79): one list of columns per
row copy. -/
structure MmRun where
  op : MmOp
  a : Nat
  b : Nat
  walk : Nat
  skip : Bool
  nextLoad : Nat
  sets : List WSet
  curSet : Nat
  curG : Nat
  stop : Option Nat
  staged : Option (List (List (List FVal)))
deriving DecidableEq, Repr

/-- What a pass does to one accumulator entry (R56, R57, R58, R89): nothing but an overwrite with +0 when the exact sum is
zero, an FP32 result, or an integer sum. -/
inductive PassVal where
  | exactZero
  | f32 (bits : Nat)
  | int (v : Int)
deriving DecidableEq, Repr

/-- One entry of a pass in flight: tile row, entry, whether it adds, and the result. -/
structure PassItem where
  trow : Nat
  entry : Nat
  add : Bool
  val : PassVal
deriving DecidableEq, Repr

/-- An issued row-group pass that is not applied yet (R84), with the work number of its instruction. -/
structure Pass where
  id : Nat
  items : List PassItem
deriving DecidableEq, Repr

/-- A drain in the Ebb queue (R134). -/
structure DrainOp where
  id : Nat
  c : Nat
  pc : Nat
  edesc : Nat
  trow : Nat
  count : Nat
  cho : Nat
  org : List Nat
deriving DecidableEq, Repr

/-- A tile row on its way through the Ebb (R164, R176): the row, and for each entry that is valid its s2 and s4. -/
structure EbbRow where
  trow : Nat
  vals : List (Option (Nat × Nat))
deriving DecidableEq, Repr

/-- The drain that reads (R175): its descriptor copy, the Charts it uses (0 where not used), and the next tile-row index to
read. -/
structure EbbRun where
  op : DrainOp
  desc : List Nat
  out : Nat
  sch : Nat
  bch : Nat
  zch : Nat
  gch : Nat
  next : Nat
deriving DecidableEq, Repr

/-- The rows of one read cycle, whose elements are not written yet (R176), with their drain. `last` says that nothing of the
drain follows, and `fault` that a read failed at the element after the ones given (R179). -/
structure EbbBatch where
  op : DrainOp
  desc : List Nat
  out : Nat
  zch : Nat
  rows : List EbbRow
  last : Bool
  fault : Option Nat
deriving DecidableEq, Repr

/-- A Shoal operation in the Shoal queue (R135). -/
structure ShoalOp where
  id : Nat
  c : Nat
  pc : Nat
  sop : Nat
  desc : Int
deriving DecidableEq, Repr

/-- A line operation waiting at a merge unit (R223): which bytes of the line at or above `addr` it writes, as offsets with the
patterns of elements of `eb` bytes, and whose work it is. `mop` is 0 WRITE, 1 ADD, 2 MAX; with `gchk` it carries a slot and a
tag (R225). `answer` is the remote MERGE, with the first STATUS other than OK of its lines so far, which is answered once all its
lines have been applied. `hi` tells of the one element of an ADD or MAX that two pages or blocks share: from which of its bytes
on it lies at another address (log entry 118). -/
structure LineOp where
  work : Option Nat
  lisl : Nat
  addr : Nat
  mop : Nat
  gchk : Bool
  tslot : Nat
  tag : Nat
  eb : Nat
  items : List (Nat × Nat)
  answer : Option (Nat × Msg)
  hi : Option (Nat × Nat) := none
deriving DecidableEq, Repr

/-- A line in a lane's reuse buffer (R213): its module (0 for this one, else the id plus 1), its address, its bytes. -/
structure LaneLine where
  mod : Nat
  addr : Nat
  data : List (BitVec 8)
deriving DecidableEq, Repr

/-- The Shoal operation that runs: its descriptor as read (a 512-bit number), its Charts (SRC, DST, AUX), the lists it has
read, how many entries it has done, the lanes' reuse buffers, and whether it has faulted. -/
structure ShoalRun where
  op : ShoalOp
  desc : Nat
  charts : List Nat
  lists : List (List Nat)
  pos : Nat
  lanes : Table (List LaneLine)
  failed : Bool
deriving DecidableEq, Repr

/-- A Chart entry that the Island keeps (R183): module context, slot, and the 128 bytes as one number. -/
structure ChartCopy where
  ctx : Nat
  slot : Nat
  raw : Nat
deriving DecidableEq, Repr

/-- What a physical Island holds beside its registers and memory. -/
structure Isl where
  c0 : Ctx := {}
  c1 : Ctx := {}
  mmq : List MmOp := []
  arr : List MmRun := []
  inflight : List Pass := []
  ebbq : List DrainOp := []
  ebb : Option EbbRun := none
  ebbw : List EbbBatch := []
  shlq : List ShoalOp := []
  shl : Option ShoalRun := none
  mergeq : List LineOp := []
  charts : List ChartCopy := []
  /-- LOSS drains completed in the Tide, and the last value (R173). -/
  lossN : Nat := 0
  lossVal : Nat := 0
  /-- The plausibility flag of the current Tide, a flag held for the next one, and whether the Island has reported its Tide
  mark (R140, R517). -/
  plaus : Bool := false
  plausHeld : Bool := false
  marked : Bool := false
  /-- Result tiles that the sentinel has counted in the Tide (R443). -/
  sentTile : Nat := 0
  /-- The issue slots withheld per 256-cycle window, as the Island last took it (R508). -/
  gateW : Nat := 0
  /-- Accumulator entries with a parity error: byte address of the entry and the bytes that fail (R96). -/
  parity : Table Nat := []
deriving DecidableEq, Repr

/-! ### Quarter -/

/-- An operation on its way to a Buoy unit (R153): port, Buoy index in the Quarter, kind (1 signal or decrement, 2 reset,
4 clamp), amount, and its issuer. -/
structure BuoyArr where
  port : Nat
  bidx : Nat
  /-- The logical Island that named the Buoy's Quarter. -/
  tl : Nat
  kind : Nat
  val : Int
  mod : Nat
  lisl : Nat
  sctx : Nat
  pc : Nat
  /-- The local issuer: physical Island and context, with the work number. -/
  src : Option (Nat × Nat × Nat)
  /-- The remote request that is answered with a CPL. -/
  answer : Option Msg
deriving DecidableEq, Repr

/-- A wait that a Buoy unit holds (R152): Buoy, threshold, and the waiting context. -/
structure BuoyWait where
  bidx : Nat
  thr : Int
  p : Nat
  c : Nat
deriving DecidableEq, Repr

/-- What a tracked request was for, so that its response can complete it. -/
inductive TxUse where
  | sig (work : Nat) (p c lisl bidx pc : Nat)
  | read (work mod addr : Nat)
  | write (work : Nat)
deriving DecidableEq, Repr

/-- A tracker entry in use (R310): the port its request left through, the request, and its use. -/
structure Trk where
  port : Nat
  msg : Msg
  use : TxUse
deriving DecidableEq, Repr

/-- A translation that a Quarter caches (R193): context, page number in 2 MiB units, the page entry and its level. -/
structure TlbEnt where
  ctx : Nat
  vpn : Nat
  pte : Nat
  giga : Bool
deriving DecidableEq, Repr

/-- What a Quarter holds beside its registers. -/
structure Qtr where
  tlb : List TlbEnt := []
  arrivals : List BuoyArr := []
  waits : List BuoyWait := []
  releases : List (Nat × Nat) := []
  dumpPos : Nat := 0
  trk : Table (Option Trk) := []
  gens : Table Nat := []
  quarantine : List Nat := []
  /-- Requests that wait for a tracker entry, with their stream (R310, R328). -/
  waitTrk : List (Nat × Msg × TxUse) := []
deriving DecidableEq, Repr

/-! ### Strait port -/

/-- A pending SUB of the CTRL flits (R294). -/
structure Sub where
  kind : Nat := 0
  seq : Nat := 0
  arg : Nat := 0
  arg2 : Nat := 0
deriving DecidableEq, Repr

/-- A hello or HELLO_REQ being reassembled (R316). -/
structure Frag where
  kind : Nat
  count : Nat
  next : Nat
  bytes : List (BitVec 8)
deriving DecidableEq, Repr

/-- The transmit PCS of a port (R289): data bits that do not fill a codeword yet, codewords sent since link-up, and what each of the
lanes L0 to L8 carried of the last one. -/
structure Pcs where
  bits : Nat := 0
  len : Nat := 0
  words : Nat := 0
  lanes : List (List Nat) := []
deriving DecidableEq, Repr

/-- What a Strait port holds beside its registers (chapter 11). -/
structure Port where
  /-- Transmit: next DATA sequence number, flits sent and not acknowledged (oldest first), the position in a replay, the ACK
  for which that replay started, replays since ACK advanced, the flit position from link-up, and the last flit sent. -/
  txSeq : Nat := 0
  replay : List (Nat × List (BitVec 8)) := []
  replayAt : Option Nat := none
  replayAck : Option Nat := none
  retry : Nat := 0
  flitPos : Nat := 0
  lastTx : List (BitVec 8) := []
  pcs : Pcs := {}
  /-- Receive: the highest DATA sequence number received in order, whether the next flit carries NAK, the sequence number that
  the next position should hold, the flits that could not be read since a flit that could, whether one of those called for NAK
(R295), and the codewords that could not be corrected of the last flit (R321). -/
  ack : Nat := 4095
  nak : Bool := false
  rxExp : Nat := 0
  rxBad : Nat := 0
  rxNak : Bool := false
  ueSeen : List Nat := []
  /-- Credits: used and latest count received on the transmit side, granted and used up on the receive side, per VC. -/
  used : List Nat := [0, 0, 0, 0]
  cred : List Nat := [4096, 4096, 8192, 1024]
  granted : List Nat := [4096, 4096, 8192, 1024]
  rxUsed : List Nat := [0, 0, 0, 0]
  /-- Messages waiting to be sent per VC with their streams (R328), the unsent bytes of the message being sent, messages
  received per VC, and the received bytes of a message that is not complete. -/
  txq : List (List (Nat × Msg)) := [[], [], [], []]
  txStream : List (BitVec 8) := []
  rxq : List (List Msg) := [[], [], [], []]
  rxStream : List (BitVec 8) := []
  /-- The VC arbiter: unscheduled bytes and body bytes of the current window, the round-robin pointer (R302). -/
  winUnsched : Nat := 0
  winBytes : Nat := 0
  rr : Nat := 0
  /-- Scheduled slots (R330): position in the slot table, and units used of the current entry's grant. -/
  slotPos : Nat := 0
  slotUsed : Nat := 0
  /-- SUBs of the CTRL flits (R294): those pending, in the order of their turns; the last SUBSEQ given; per kind the last one
  received; and those received that have not been acted on. -/
  subs : List Sub := []
  subSeq : Nat := 0
  subSeen : List (Nat × Nat) := []
  subIn : List Sub := []
  /-- A LEAVE that goes out in the next CTRL flit, and whether the port then enters OFF (R317). -/
  leaving : Option Bool := none
  /-- Lane sparing: switches that wait for their codeword, per direction, and whether L8 has failed while idle. -/
  txSwitch : Option (Nat × Nat) := none
  rxSwitch : Option (Nat × Nat) := none
  rxNo8 : Bool := false
  /-- Hello: nonce sent, fragments, and the capabilities of the port (R314, R315, R316). -/
  nonce : Option (List (BitVec 8)) := none
  frag : Option Frag := none
  caps : Nat := 7
  /-- Cycle stamps of the last entries into DOWN (R313). -/
  downs : List Nat := []
  retraining : Bool := false
  /-- A loopback that runs: its depth; and a request for consent that is pending (R320). -/
  lb : Option Nat := none
  lbAsk : Bool := false
  /-- Retries and uncorrectable codewords of the current Tide, each with the Tide number of the first, for their records (R321). -/
  cRetry : Nat := 0
  tRetry : Nat := 0
  cUe : Nat := 0
  tUe : Nat := 0
  /-- Whether the port arrived while the program in force was loaded: it then carries no scheduled traffic (R318). -/
  late : Bool := false
deriving DecidableEq, Repr

/-! ### Ferry -/

/-- A queued Ferry descriptor (R135, R211): its physical address or device virtual address, who issued it, and whether it is one of
a checkpoint drain, whose source address the firmware's own context maps to itself (R383, log entry 124). -/
structure FryOp where
  id : Nat
  src : WorkSrc
  pc : Nat
  addr : Int
  drain : Bool := false
deriving DecidableEq, Repr

/-- The running descriptor: its 512 bits, its two Charts, how many rows, tiles or blocks it has done, the bytes it has written, and whether it
has failed. -/
structure FryRun where
  op : FryOp
  desc : Nat
  charts : List Nat
  pos : Nat
  bytes : Nat
  failed : Bool
deriving DecidableEq, Repr

/-- What a Ferry holds beside its registers. -/
structure Fry where
  queue : List FryOp := []
  run : Option FryRun := none
deriving DecidableEq, Repr

/-! ### Tides and reductions -/

/-- The values of a MARK (R336), and of the aggregate registers (R361). -/
structure MarkVals where
  flags : Nat := 0
  nonfin : Nat := 0
  bound : Nat := 0
  lossn : Nat := 0
  loss : Nat := 0
  nsq : Nat := 0
  suspect : Nat := 0
  slow : Nat := 0
  nsuspect : Nat := 0
deriving DecidableEq, Repr

/-- A chunk that a channel has received from a child (R350): its bucket, the port it came from, its first element, and its
elements (64-bit words in exact traffic, FP32 otherwise). -/
structure Chunk where
  bkt : Nat
  port : Nat
  elem : Nat
  vals : List Nat
deriving DecidableEq, Repr

/-- The bucket a channel works on: table index, next element to send up (or to finish at the root), elements of DST written,
and the sum of squares so far (binary64). -/
structure BktRun where
  bkt : Nat
  up : Nat := 0
  written : Nat := 0
  nsq : Nat := 0
deriving DecidableEq, Repr

/-- What a reduction channel holds (R349, R350): armed buckets that wait for their trigger, triggered ones in order, the one
it works on, and the chunks received and not used, in the order in which they arrived. -/
structure Chan where
  waiting : List Nat := []
  trig : List Nat := []
  cur : Option BktRun := none
  got : List Chunk := []
deriving DecidableEq, Repr

/-- A run of descriptors by a fused update unit (R370): 0 the update, 1 RELOAD, 2 KEEP, 3 COMPARE; the table entry it stands
at, whether it runs in place (R368), and the number under which the working-copy writes of the descriptor at that entry are on
their way to another module. -/
structure FuuRun where
  set : Nat
  pos : Nat
  inplace : Bool
  work : Option Nat
deriving DecidableEq, Repr

/-- What a fused update unit holds beside its registers: its runs, oldest first, whether an update has committed since LOCK was
set (R368), and the number of the update Tide whose result the committed buffer holds (R372). -/
structure Fuu where
  runs : List FuuRun := []
  lockUsed : Bool := false
  updTide : Nat := 0
deriving DecidableEq, Repr

/-- What the TIDE_ block holds beside its registers. -/
structure TideSt where
  /-- The bucket and group tables that loading copied (R347, R348), each entry as a 512-bit number. -/
  buckets : Table Nat := []
  groups : Table Nat := []
  /-- The MARKs of this Tide that children have sent, by port. -/
  kids : List (Nat × MarkVals) := []
  /-- Whether the current Tide number is the start marker of a load (R326). -/
  startMarker : Bool := false
  /-- Module contexts of the entry points that the load put into TMARK (R326). -/
  ctxs : List Nat := []
  /-- Whether the current Tide is an update Tide whose ACTION was UPDATE (R367). -/
  update : Bool := false
  /-- Whether FAIL has been sent (once, R341). -/
  failSent : Bool := false
  /-- The highest STRETCH sent or forwarded upward in this Tide, and the lowest module id that raised one (R340, R336). -/
  stretchUp : Nat := 0
  slow : Option Nat := none
  /-- An overrun message was sent, a contribution left the window, in this Tide (MARK FLAGS). -/
  overrun : Bool := false
  xovf : Bool := false
  /-- Buckets completed in this Tide that this module rooted, for the norm of the MARK (R357). -/
  doneBkts : List Nat := []
  /-- The Tide has started on this module but its Islands wait for RELEASE (R516), and the source and destination of the swap
  that was last applied. -/
  held : Bool := false
  swapped : Nat × Nat := (0, 0)
  /-- A reduction channel read a bad codeword of its source in this Tide (R272). -/
  chPlaus : Bool := false
  /-- What units that are re-executed have reported in this Tide (R447), by UNIT word: repeats or resends. -/
  redone : Table Nat := []
deriving DecidableEq, Repr

/-! ### Firmware -/

/-- A test case (R436, R457): number, KIND, LEVEL, TARGET, program, reference vectors, operands, SEED and reference digest. -/
structure TestCase where
  num : Nat
  kind : Nat
  level : Nat
  target : Nat
  prog : List (BitVec 8)
  refs : List (BitVec 8)
  opd : List (BitVec 8)
  seed : Nat
  digest : Nat
deriving DecidableEq, Repr

/-- A fragment of a report that the manager has received (R318, R464): the module that sent it, the kind, the fragment's index and
count, and its bytes. -/
structure Report where
  src : Nat
  kind : Nat
  index : Nat
  count : Nat
  bytes : List (BitVec 8)
deriving DecidableEq, Repr


/-- A PCP command in flight (R400, R401): where it came from, its opcode, the module context it runs in, the features of its
session, QUIET, TOKEN, arguments A0 to A5, how far a command of several steps has come, and its STATUS and results once it
has been performed. -/
structure Cmd where
  src : PcpSrc
  opc : Nat
  ctx : Nat
  feats : Nat
  quiet : Bool
  token : Nat
  args : List Nat
  stage : Nat
  res : Option (Nat × Nat × Nat)
deriving DecidableEq, Repr

/-- An open ring (R404 to R407): the address of its header, its context, its negotiated features, and whether its client asked
for RESUME last. -/
structure Sess where
  hdr : Nat
  ctx : Nat
  feats : Nat
deriving DecidableEq, Repr

/-- Memory that the firmware has allocated or mapped (R411, R419): context, VA, physical address, bytes, whether pages are
1 GiB, whether MAP made it, and the VA that MEM_ALLOC returned or MAP named, of which it is what is left. -/
structure Alloc where
  ctx : Nat
  va : Nat
  pa : Nat
  bytes : Nat
  giga : Bool
  mapped : Bool
  root : Nat
deriving DecidableEq, Repr

/-- A history entry (R448). -/
structure HistEnt where
  unit : Nat
  typ : Nat
  cls : Nat
  ontime : Nat
  tide : Nat
  code : Nat
  /-- A further uncorrectable error of a codeword within one Tide, which is recorded and not counted (R449, R452). -/
  again : Bool := false
deriving DecidableEq, Repr

/-- The history block (R448) as the firmware holds it. -/
structure Hist where
  ents : List HistEnt := []
  ontime : Nat := 0
  cperId : Nat := 0
  packSeq : Nat := 0
  /-- Islands that are retired or due for retirement: one bit each. -/
  ret : Nat := 0
  replace : Bool := false
  /-- The policy block (R459), 64 bytes as a number; the default values at reset. -/
  policy : Nat := 24 + 72 * 2 ^ 16 + 3 * 2 ^ 32 + 30 * 2 ^ 40 + 3 * 2 ^ 48 + 8 * 2 ^ 56 + 2 * 2 ^ 64 + 2 ^ 72 + 6 * 2 ^ 80
    + 20 * 2 ^ 88 + 8 * 2 ^ 96
  lastpass : Table Nat := []
  /-- Entries that are not in flash yet, whether an action waits for the write, and ONTIME at the last write (R452). -/
  dirty : Bool := false
  urgent : Bool := false
  wrote : Nat := 0
deriving DecidableEq, Repr

/-- A checkpoint drain (R383, R384): the buddy's module id, image slot, image SEQ, RESUME; what is still to be submitted, as source
address, offset in the image and length; how many descriptors have been submitted, and the work numbers of those submitted;
whether one of them failed; and whether the header with COMPLETE 1 has been submitted. -/
structure Drain where
  buddy : Nat
  slot : Nat
  seq : Nat
  resume : Nat
  todo : List (Nat × Nat × Nat)
  count : Nat := 0
  ids : List Nat := []
  failed : Bool := false
  final : Bool := false
deriving DecidableEq, Repr

/-- A replay that this module's firmware performs (R381): the step last done, the Island and the spare of an Island-local
substitution, the window's first Tide, whether this module exchanges shares with its buddy, whether it is itself the suspect module
then, and the number under which the CUR state that it sends is on its way. -/
structure Replay where
  step : Nat
  isl : Option (Nat × Nat)
  first : Nat
  exch : Bool := false
  own : Bool := false
  work : Nat := 0
deriving DecidableEq, Repr

/-- What the Pilot firmware holds (chapters 9, 13, 14 and 15). -/
structure Fw where
  sess : Table (Option Sess) := []
  /-- The context that each mailbox's last successful HELLO named, and the bitmap that it negotiated (R397, R406). -/
  mbxCtx : Table (Option (Nat × Nat)) := []
  /-- Messages that a serving core is to write to OUT (R395), oldest first, each as 16 words. -/
  mbxOut : Table (List (List Nat)) := []
  cmds : List Cmd := []
  /-- Per core and priority class (4 × core + class): the ring that was served last, and how many of its commands in this round
  (R410). -/
  round : Table (Nat × Nat) := []
  /-- The ARR cycle of each Pilot core's last kick (R427). -/
  kicks : Table Nat := []
  allocs : List Alloc := []
  /-- Page-table pages handed out, and block-owner entries handed out. -/
  ptPages : Nat := 0
  botNext : Nat := 0
  /-- Pins of VA ranges (context, VA, bytes) and of block-owner entries (first, count) (R419). -/
  pinVa : List (Nat × Nat × Nat) := []
  pinBot : List (Nat × Nat) := []
  /-- Log ring: base (0: the start-up ring), LOG2, records written (R424). -/
  logBase : Nat := 0
  logLog2 : Nat := 14
  logWr : Nat := 0
  /-- Events whose records have been written, and what the firmware has passed to fault handling and not handled (R286, R321,
  R461), oldest first. -/
  logged : Nat := 0
  faultq : List FaultEvent := []
  /-- Enabled trace points (R426). -/
  trace : List Nat := []
  /-- Export ring: base (0: none), LOG2 (R464). -/
  expBase : Nat := 0
  expLog2 : Nat := 0
  expWr : Nat := 0
  /-- Address and length of the image of the last Tide program that PROG_LOAD loaded, 0 for none (R414). -/
  image : Nat := 0
  imageLen : Nat := 0
  /-- Correctable events of each unit since its last summary record (R464). -/
  corr : Table Nat := []
  /-- Firmware counters and last observed states of units (R421). -/
  unitSeq : Table Nat := []
  unitLast : Table Nat := []
  /-- CKPT_CFG (R411). -/
  storeEvery : Nat := 0
  storeNs : Nat := 0
  storeFirst : Nat := 0
  /-- The core that holds the module-level duties (R391, R429). -/
  duty : Nat := 0
  /-- The core that the events of each Quarter interrupt (R391, R429). -/
  qcore : List Nat := [0, 1, 2, 3]
  /-- Roles (R359): manager and standby module ids plus 1, 0 for none; heartbeats sent. -/
  manager : Nat := 0
  standby : Nat := 0
  heartbeats : Nat := 0
  /-- The modules that took part in the last election. -/
  cands : List Candidate := []
  /-- Reports that this module has received as the manager, oldest first (R318, R384, R431, R451, R464). -/
  inbox : List Report := []
  /-- Checkpoints: SEQ and slot of the newest complete image that this module drained, and the drain in progress (R383). -/
  imgSeq : Nat := 0
  imgSlot : Nat := 1
  drain : Option Drain := none
  /-- The Tide at whose start LOCK was set, and what the header of the next image holds of that moment (R385): RESUME, FUU_T, EMA,
  WINS. -/
  lockTide : Nat := 0
  lockResume : Nat := 0
  lockT : Nat := 0
  lockEma : Nat := 0
  lockWins : Nat := 0
  /-- The buffer that was CUR at the lock (one bit for each unit), the ARR cycle of the lock, the measured time of the last drain in
  milliseconds, ONTIME at the last COMPLETE, the image that was newest when PROG_UNLOAD last unloaded the job, and ONTIME of the
  interruptions (R383, R386, R455). -/
  lockCur : Nat := 0
  lockCycle : Nat := 0
  drainMs : Nat := 0
  imgAt : Nat := 0
  unloadImg : Nat := 0
  interrupts : List Nat := []
  /-- The data-loader position (R385). -/
  loaderPos : Nat := 0
  replay : Option Replay := none
  /-- A restore (R387): the number under which lines of the buddy's image are read, 0 for none, and RESUME of the image loaded. -/
  fetch : Nat := 0
  restored : Option Nat := none
  hist : Hist := {}
  /-- Uncorrectable memory errors that the current Tide has counted: UNIT, TYPE and codeword address (R449). -/
  seen : List (Nat × Nat × Nat) := []
  /-- The built-in suites as the running image holds them, and the cases of the test session in force with the PACK_SEQ of their pack
  (R440, R458). -/
  builtin : List (BitVec 8) := []
  suite : List TestCase := []
  suiteSeq : Nat := 0
  /-- ISTH_LIMIT as the Isthmus took it at start-up (R459). -/
  isthLimit : Nat := 8
  /-- Islands whose test is deferred, with ONTIME at the deferral (R455), under test in service (R454), and Islands to be retired by a swap (R450). -/
  deferred : List (Nat × Nat) := []
  underTest : List Nat := []
  retireSwap : List Nat := []
deriving DecidableEq, Repr

/-! ### Boot, identity and flash -/

/-- A flash operation that runs (R489): 1 program or 2 erase, device, offset, and the source and length of a program. -/
structure FlashOp where
  op : Nat
  dev : Nat
  off : Nat
  src : Nat
  len : Nat
deriving DecidableEq, Repr

/-- What boot and identity hold (chapter 16). -/
structure Boot where
  /-- FWVER of the running image. -/
  fwver : Nat := 0
  /-- Public keys of the running image's key manifest: pack and manufacturing (R473). -/
  packKey : List (BitVec 8) := []
  mfgKey : List (BitVec 8) := []
  /-- The measurement log and register (R481). -/
  meas : List (List (BitVec 8)) := []
  measReg : List (BitVec 8) := []
  /-- Identity: available, serial number, the certificate, the public key in it (R475 to R477). -/
  idOk : Bool := false
  serial : Nat := 0
  cert : List (BitVec 8) := []
  /-- The signature index: next index, LIMIT and SEQ of the current record and its copy (R478, R479). -/
  idxNext : Nat := 0
  idxLimit : Nat := 0
  idxSeq : Nat := 0
  /-- What the spare map's repairs of HBM3E put into effect at this boot: repaired rows as addresses, and the lane repairs of each
  stack (R275). -/
  rowRepairs : List Nat := []
  laneRepairs : List (List (BitVec 8)) := []
  /-- Whether the HISTORY block was rebuilt at this boot (R488). -/
  histNew : Bool := false
  /-- Attempts at stage SHORE, and Quarters that an Isthmus pair reaches. -/
  shoreTries : Nat := 0
  qUp : List Nat := [0, 1, 2, 3]
  flashOp : Option FlashOp := none
  /-- Copies whose image failed verification at this boot. -/
  badImg : List Nat := []
deriving DecidableEq, Repr

/-! ### Power, pins and the management port -/

/-- What the input controller, the pins and the management port hold (chapter 17). -/
structure Power where
  /-- 0 off, 1 sequence held on an out-of-range input, 2 rails ramping, 3 PWR_GOOD with the internal reset asserted, 4 up. -/
  phase : Nat := 4
  pwrEn : Bool := true
  latch : Bool := false
  rstN : Bool := true
  pcapLow : Bool := false
  /-- THERM_TRIP_N is low. -/
  thermTrip : Bool := false
  /-- Sensors that were above their trip limit at the last reading. -/
  hot : List Nat := []
  /-- PE_PERST_N is low. -/
  perst : Bool := true
  /-- Reference clocks that are lost. -/
  lost : List Clock := []
  /-- Stage SHORE has begun, so that PE_PERST_N may be released. -/
  shoreBegun : Bool := false
  /-- Doubled refresh of HBM3E (R275). -/
  hotRefresh : Bool := false
deriving DecidableEq, Repr

/-- A service response frame (R501): OP, STATUS, LEN, TAG, ADDR and data. -/
structure MgmtRsp where
  op : Nat
  status : Nat
  len : Nat
  tag : Nat
  addr : Nat
  data : List (BitVec 8)
deriving DecidableEq, Repr

/-- The outcome of an inbound PCIe request (R506). -/
inductive PcieRsp where
  | none
  | unsupported
  | data (bs : List (BitVec 8))
  | written
deriving DecidableEq, Repr

/-- What a memory controller's scrubber and loopback hold beside their registers (R282, R283): the unit read and not written
back, with its codewords corrected, and whether another write came to it. -/
structure Scrub where
  unit : Nat
  fixes : List Nat
deriving DecidableEq, Repr

/-! ### The module -/

/-- The state of the module. -/
structure State where
  /-- Commands that wait, first in, first out. -/
  pending : List Instr := []
  /-- Registers by physical address (R39 and the register tables). -/
  regs : Table (BitVec 32) := []
  /-- Memory bytes by physical address (R36, R39). -/
  mem : List Host.Cell := []
  /-- Codewords that are not clean, by codeword address (R268). -/
  cw : Table CwErr := []
  /-- Free values drawn so far (the model's own). -/
  freeCtr : Nat := 0
  /-- ARR cycles counted by empty-queue steps (the model's own). -/
  cycle : Nat := 0
  /-- The response to the last access. -/
  bus : BusRsp := .none
  accessErrs : List AccessErr := []
  events : List Event := []
  /-- Number of the next piece of work. -/
  nextWork : Nat := 1
  work : List Work := []
  remLines : List RemLine := []
  isls : Table Isl := []
  qtrs : Table Qtr := []
  ports : Table Port := []
  frys : Table Fry := []
  chans : Table Chan := []
  fuus : Table Fuu := []
  tide : TideSt := {}
  /-- Scrub corrections on their way, by controller: 0 to 143 Lagoons, 144 to 151 stacks, 152 to 183 channels. -/
  scrubs : Table (Option Scrub) := []
  fw : Fw := {}
  boot : Boot := {}
  power : Power := {}
  /-- The last frame that the management port sent, and the last answer to an inbound PCIe request. -/
  mgmtOut : Option MgmtRsp := none
  pcieOut : PcieRsp := .none
deriving DecidableEq, Repr

/-- The machine right after reset. -/
def State.reset : State := {}

end Sys2Proof.Machine
end

