-- ==== Sys2Proof/Machine/Ops.lean ====
section
/-! DEFINITION. The named operations over registers, memory bytes and units. Every other file reads and writes State through
these. -/

namespace Sys2Proof.Machine

/-- The outcome of a command. -/
abbrev Out := Host.Outcome State Fault Refusal

/-! ### Registers -/

/-- The word of the register at physical address `a`. -/
def State.reg (s : State) (a : Nat) : Word := tget regReset s.regs a

/-- Writes the word of a register. -/
def State.setReg (s : State) (a : Nat) (v : Word) : State := { s with regs := tset regReset s.regs a v }

/-- Reads a field of a register. -/
def State.fld (s : State) (a : Nat) (f : Fld) : Nat := f.get (s.reg a)

/-- A hardware write of one field of a register; the register's other bits stay. -/
def State.setFld (s : State) (a : Nat) (f : Fld) (v : Nat) : State := s.setReg a (f.put (s.reg a) v)

/-- Whether a one-bit field is 1. -/
def State.bit (s : State) (a : Nat) (f : Fld) : Bool := s.fld a f == 1

/-- Adds to a counter register, which holds at 0xFFFF_FFFF instead of wrapping (R105, R146, R158, R181, R210, R211, R247,
R287, R322, R361, R390). -/
def State.count (s : State) (a : Nat) (n : Nat) : State :=
  s.setReg a (BitVec.ofNat 32 (min ((s.reg a).toNat + n) 0xFFFFFFFF))

/-- Sets an event bit: the first one sets `f`, a further one while `f` is 1 sets `m`. -/
def State.setErr (s : State) (a : Nat) (f m : Fld) : State :=
  if s.bit a f then s.setFld a m 1 else s.setFld a f 1

/-- A 48-bit address held in a LO and a HI register, each in one field. -/
def State.addr48 (s : State) (lo hi : Nat) : Nat :=
  (s.reg lo).toNat + ((s.reg hi).toNat % 2 ^ 16) * 2 ^ 32

/-- A 64-bit value held in two registers. -/
def State.reg64 (s : State) (lo hi : Nat) : Nat := (s.reg lo).toNat + (s.reg hi).toNat * 2 ^ 32

/-- Writes a 64-bit value to two registers. -/
def State.setReg64 (s : State) (lo hi v : Nat) : State :=
  (s.setReg lo (BitVec.ofNat 32 v)).setReg hi (BitVec.ofNat 32 (v / 2 ^ 32))

/-! ### Memory bytes -/

/-- What a byte that nothing has written reads: the boot ROM's unpublished contents, 0xFF in the NOR flash windows (R39,
R484), 0 elsewhere (DESIGN CHOICE, log entry 6). -/
def memDefault (a : Nat) : Byte :=
  if a < 0x10000 then Config.bootRom a
  else if 0x20000000 ≤ a ∧ a < 0x30000000 then 0xFF#8
  else 0#8

/-- The byte at a physical address. -/
def State.byte (s : State) (a : Nat) : Byte := tget memDefault s.mem a

/-- Replaces the byte at a physical address. -/
def State.setByte (s : State) (a : Nat) (v : Byte) : State := { s with mem := tset memDefault s.mem a v }

/-- Memory is in its canonical form. -/
abbrev Memory.wf (m : List Host.Cell) : Prop := twf memDefault m = true

/-- `n` bytes from a physical address. -/
def State.bytes (s : State) (a n : Nat) : List Byte := (List.range n).map fun i => s.byte (a + i)

/-- Stores bytes from a physical address upward. -/
def State.setBytes (s : State) (a : Nat) : List Byte → State
  | [] => s
  | b :: bs => (s.setByte a b).setBytes (a + 1) bs

/-- Bytes as a little-endian number (R12). -/
def leNat (bs : List Byte) : Nat := bs.foldr (fun b n => b.toNat + 256 * n) 0

/-- A number as `n` little-endian bytes (R12). -/
def leBytes : Nat → Nat → List Byte
  | 0, _ => []
  | n + 1, v => BitVec.ofNat 8 v :: leBytes n (v / 256)

/-- A little-endian number of `n` bytes in memory. -/
def State.memNat (s : State) (a n : Nat) : Nat := leNat (s.bytes a n)

/-! ### Units -/

/-- What physical Island `p` holds. -/
def State.isl (s : State) (p : Nat) : Isl := tget (fun _ => {}) s.isls p
/-- Replaces what physical Island `p` holds. -/
def State.setIsl (s : State) (p : Nat) (x : Isl) : State := { s with isls := tset (fun _ => {}) s.isls p x }
/-- What Quarter `q` holds. -/
def State.qtr (s : State) (q : Nat) : Qtr := tget (fun _ => {}) s.qtrs q
/-- Replaces what Quarter `q` holds. -/
def State.setQtr (s : State) (q : Nat) (x : Qtr) : State := { s with qtrs := tset (fun _ => {}) s.qtrs q x }
/-- What Strait port `k` holds. -/
def State.port (s : State) (k : Nat) : Port := tget (fun _ => {}) s.ports k
/-- Replaces what Strait port `k` holds. -/
def State.setPort (s : State) (k : Nat) (x : Port) : State := { s with ports := tset (fun _ => {}) s.ports k x }
/-- What Ferry `f` holds. -/
def State.fry (s : State) (f : Nat) : Fry := tget (fun _ => {}) s.frys f
/-- Replaces what Ferry `f` holds. -/
def State.setFry (s : State) (f : Nat) (x : Fry) : State := { s with frys := tset (fun _ => {}) s.frys f x }

/-- What reduction channel `ch` holds. -/
def State.chan (s : State) (ch : Nat) : Chan := tget (fun _ => {}) s.chans ch
/-- Replaces what reduction channel `ch` holds. -/
def State.setChan (s : State) (ch : Nat) (x : Chan) : State := { s with chans := tset (fun _ => {}) s.chans ch x }

/-- What fused update unit `u` holds. -/
def State.fuu (s : State) (u : Nat) : Fuu := tget (fun _ => {}) s.fuus u
/-- Replaces what fused update unit `u` holds. -/
def State.setFuu (s : State) (u : Nat) (x : Fuu) : State := { s with fuus := tset (fun _ => {}) s.fuus u x }

/-- What context `c` of an Island holds. -/
def Isl.ctx (x : Isl) (c : Nat) : Ctx := if c = 0 then x.c0 else x.c1
/-- Replaces what context `c` of an Island holds. -/
def Isl.setCtx (x : Isl) (c : Nat) (y : Ctx) : Isl := if c = 0 then { x with c0 := y } else { x with c1 := y }

/-- What sequencer context `c` of Island `p` holds. -/
def State.ctx (s : State) (p c : Nat) : Ctx := (s.isl p).ctx c
/-- Replaces what sequencer context `c` of Island `p` holds. -/
def State.setCtx (s : State) (p c : Nat) (y : Ctx) : State := s.setIsl p ((s.isl p).setCtx c y)

/-! ### Free values, events, errors -/

/-- Draws the next free value: what the spec leaves open (log entry 1). -/
def State.free (s : State) : BitVec 64 × State :=
  (Config.freeWord s.freeCtr, { s with freeCtr := s.freeCtr + 1 })

/-- Records an access error (R37). -/
def State.accessErr (s : State) (addr req : Nat) (wr : Bool) (kind : Nat) : State :=
  { s with accessErrs := s.accessErrs ++ [⟨addr, req, wr, kind⟩] }

/-- The response to the last access. -/
def State.respond (s : State) (r : BusRsp) : State := { s with bus := r }

/-- Whether the module is up: its internal reset is released (R40, R494). While it is off no command but one of its pins acts. -/
def State.up (s : State) : Bool := s.power.phase == 4

/-! ### Organisation (R18, R20, R23, R27) -/

/-- The Quarter of a physical Island (R18, R19). -/
def quarterOf (p : Nat) : Nat := p / 36

/-- Whether a Tide program is loaded. -/
def State.loaded (s : State) : Bool := s.bit Reg.ISL_POLICY Fd.ISL_POLICY_LOADED

/-- Logical Islands per module under the policy in force (R20). -/
def State.logicalCount (s : State) : Nat := if s.fld Reg.ISL_POLICY Fd.ISL_POLICY_POLICY = 0 then 136 else 128

/-- Logical Islands per Quarter (R20). -/
def State.perQuarter (s : State) : Nat := if s.fld Reg.ISL_POLICY Fd.ISL_POLICY_POLICY = 0 then 34 else 32

/-- The home Quarter of a logical Island (R23). -/
def State.home (s : State) (l : Nat) : Nat := l / s.perQuarter

/-- The state code of a physical Island (ISL_PSTATE.STATE). -/
def State.pstate (s : State) (p : Nat) : Nat := s.fld (Reg.ISL_PSTATE p) Fd.ISL_PSTATE_STATE

/-- The logical Island bound to a physical Island, 0xFF for none. -/
def State.logicalOf (s : State) (p : Nat) : Nat := s.fld (Reg.ISL_PSTATE p) Fd.ISL_PSTATE_LOGICAL

/-- The physical Island a logical Island is bound to, if it has a valid binding (R27). -/
def State.physOf (s : State) (l : Nat) : Option Nat :=
  if l < 136 ∧ s.bit (Reg.ISL_LMAP l) Fd.ISL_LMAP_VALID then some (s.fld (Reg.ISL_LMAP l) Fd.ISL_LMAP_PHYS) else none

/-- The module id that Quarter `q` uses (R323). -/
def State.selfId (s : State) (q : Nat) : Nat := s.fld (Reg.STR_SELF q) Fd.STR_SELF_ID

/-- Changes a physical Island's STATE; each change increments SEQ, which wraps (R518). -/
def State.setPstate (s : State) (p st : Nat) : State :=
  if s.pstate p = st then s
  else (s.setFld (Reg.ISL_PSTATE p) Fd.ISL_PSTATE_STATE st).setFld (Reg.ISL_PSTATE p) Fd.ISL_PSTATE_SEQ
    ((s.fld (Reg.ISL_PSTATE p) Fd.ISL_PSTATE_SEQ + 1) % 2 ^ 16)

/-- Sets the logical Island that a physical Island shows. -/
def State.setLogical (s : State) (p l : Nat) : State := s.setFld (Reg.ISL_PSTATE p) Fd.ISL_PSTATE_LOGICAL l

/-- The plausibility register and bit of physical Island `p` (R389). -/
def plausReg (p : Nat) : Nat :=
  if p % 36 < 32 then Reg.TIDE_BCN_PLAUS_LO (p / 36) else Reg.TIDE_BCN_PLAUS_HI (p / 36)

/-- Sets the window's plausibility bit of a physical Island (R389). -/
def State.setPlausBit (s : State) (p : Nat) : State :=
  let a := plausReg p
  s.setReg a (s.reg a ||| BitVec.ofNat 32 (2 ^ (p % 36 % 32)))

/-- Raises the plausibility flag of a physical Island for the current step. A flag raised after the Island has reported its
Tide mark is held for the next Tide (R517). -/
def State.raisePlaus (s : State) (p : Nat) : State :=
  let x := s.isl p
  if x.marked then s.setIsl p { x with plausHeld := true }
  else (s.setIsl p { x with plaus := true }).setPlausBit p

/-- Physical port index S0..S15 to its Quarter and local number (R18). -/
def portQ (k : Nat) : Nat := k / 4
/-- The local number of a port in its Quarter. -/
def portK (k : Nat) : Nat := k % 4

/-! ### Work (R126) -/

/-- Adds an issued piece of work and numbers it. -/
def State.addWork (s : State) (cls : Nat) (src : WorkSrc) (pc : Nat) : Nat × State :=
  (s.nextWork, { s with nextWork := s.nextWork + 1, work := s.work ++ [⟨s.nextWork, cls, src, pc, false, 0⟩] })

/-- Finds a piece of work by number. -/
def State.findWork (s : State) (id : Nat) : Option Work := s.work.find? (·.id == id)

/-- Changes a piece of work. -/
def State.modWork (s : State) (id : Nat) (f : Work → Work) : State :=
  { s with work := s.work.map fun w => if w.id = id then f w else w }

/-- Removes a piece of work and the lines it had read from other modules. -/
def State.dropWork (s : State) (id : Nat) : State :=
  { s with work := s.work.filter (·.id ≠ id), remLines := s.remLines.filter (·.work ≠ id) }

/-- Whether context (p, c) has uncompleted work with a number below `id` in a class of `mask` (R126, R137). -/
def State.workBefore (s : State) (p c mask id : Nat) : Bool :=
  s.work.any fun w => decide (w.src = .ctx p c) && decide (w.id < id) && decide ((mask / 2 ^ w.cls) % 2 = 1)

/-- Whether context (p, c) has any uncompleted work or scalar load (R139). -/
def State.hasWork (s : State) (p c : Nat) : Bool :=
  s.work.any (fun w => decide (w.src = .ctx p c)) || !(s.ctx p c).loads.isEmpty

end Sys2Proof.Machine
end

