-- ==== Sys2Proof/Machine/Msg.lean ====
section
/-! DEFINITION. The Strait message as bytes (R307) and the flit (R291, R292): how a header is laid out, read back and
delimited in a stream. -/

namespace Sys2Proof.Machine

/-- The first word of a header (bytes 0 to 3). -/
def Msg.w0 (m : Msg) : Nat :=
  m.typ % 16 + (m.vc % 4) * 2 ^ 4 + (m.len % 8) * 2 ^ 6 + (if m.masked then 2 ^ 9 else 0) + (m.dst % 1024) * 2 ^ 10
    + (m.src % 1024) * 2 ^ 20

/-- The second word of a header (bytes 4 to 7). -/
def Msg.w1 (m : Msg) : Nat := m.tag % 2 ^ 14 + (m.gen % 4) * 2 ^ 14 + (m.hops % 16) * 2 ^ 16 + (m.status % 16) * 2 ^ 20

/-- Whether an extension of 16 bytes follows a header (R307). -/
def hasExt (typ : Nat) (masked : Bool) : Bool := typ == 4 || masked

/-- The data lines that a message of this type carries: an RD asks for LEN lines and carries none (R308). -/
def dataLines (typ len : Nat) : Nat := if typ = 1 then 0 else len

/-- The bytes of a message (R307). -/
def Msg.encode (m : Msg) : List Byte :=
  leBytes 4 m.w0 ++ leBytes 4 m.w1 ++ leBytes 8 m.addr ++ m.ext ++ m.data

/-- The size of a message in bytes (R307). -/
def Msg.size (m : Msg) : Nat := 16 + m.ext.length + m.data.length

/-- The size that a 16-byte header gives its message. -/
def headerSize (w0 : Nat) : Nat :=
  16 + (if hasExt (w0 % 16) (bitsOf w0 9 9 == 1) then 16 else 0) + 64 * dataLines (w0 % 16) (bitsOf w0 8 6)

/-- Reads a message from exactly its bytes (R307). -/
def Msg.decode (bs : List Byte) : Msg :=
  let w0 := leNat (bs.take 4)
  let w1 := leNat ((bs.drop 4).take 4)
  let typ := w0 % 16
  let masked := bitsOf w0 9 9 == 1
  let x := if hasExt typ masked then 16 else 0
  { typ := typ, vc := bitsOf w0 5 4, len := bitsOf w0 8 6, masked := masked, dst := bitsOf w0 19 10,
    src := bitsOf w0 29 20, tag := bitsOf w1 13 0, gen := bitsOf w1 15 14, hops := bitsOf w1 19 16,
    status := bitsOf w1 23 20, addr := leNat ((bs.drop 8).take 8), ext := (bs.drop 16).take x,
    data := bs.drop (16 + x) }

/-- A message whose fields fit their bits and whose parts have the lengths its header gives. -/
def Msg.wf (m : Msg) : Bool :=
  decide (m.typ < 16) && decide (m.vc < 4) && decide (m.len < 8) && decide (m.dst < 1024) && decide (m.src < 1024)
    && decide (m.tag < 2 ^ 14) && decide (m.gen < 4) && decide (m.hops < 16) && decide (m.status < 16)
    && decide (m.addr < 2 ^ 64) && decide (m.ext.length = if hasExt m.typ m.masked then 16 else 0)
    && decide (m.data.length = 64 * dataLines m.typ m.len)

/-- Credits of a message: 16 bytes each (R299). -/
def Msg.credits (m : Msg) : Nat := m.size / 16

/-- Whether a message is a request, which takes an answer (R308). -/
def Msg.isRequest (m : Msg) : Bool := m.typ == 1 || m.typ == 3 || m.typ == 4 || m.typ == 5

/-- Whether a message is a response (R308). -/
def Msg.isResponse (m : Msg) : Bool := m.typ == 2 || m.typ == 6

/-- The answer to a request: its type, SRC and DST exchanged, tag and generation kept, on VC 1 for a VC 0 request and on
VC 2 for a VC 2 request (R308). -/
def Msg.answer (m : Msg) (status : Nat) (data : List Byte) : Msg :=
  { typ := if m.typ = 1 then 2 else 6, vc := if m.vc = 0 then 1 else m.vc, len := data.length / 64, masked := false,
    dst := m.src, src := m.dst, tag := m.tag, gen := m.gen, hops := 0, status := status, addr := m.addr, ext := [],
    data := data }

/-! ### Fields of the header's last eight bytes (R307) -/

/-- LISL of a BUOY message: byte 8. -/
def Msg.buoyLisl (m : Msg) : Nat := bitsOf m.addr 7 0
/-- BIDX of a BUOY message: bits [13:0] of bytes 10 and 11. -/
def Msg.buoyIdx (m : Msg) : Nat := bitsOf m.addr 29 16
/-- OP of a BUOY message: bits [15:14] of bytes 10 and 11. -/
def Msg.buoyOp (m : Msg) : Nat := bitsOf m.addr 31 30
/-- VAL of a BUOY message: bytes 12 to 15, signed. -/
def Msg.buoyVal (m : Msg) : Int := sext 32 (bitsOf m.addr 63 32)

/-- The last eight header bytes of a BUOY message. -/
def buoyFields (lisl bidx op : Nat) (val : Int) : Nat :=
  lisl % 256 + (bidx % 2 ^ 14) * 2 ^ 16 + (op % 4) * 2 ^ 30 + toPat 32 val * 2 ^ 32

/-! ### Flits (R291, R292) -/

/-- The first word of a flit. -/
def flitWord (kind seq ack : Nat) (nak : Bool) : Nat :=
  kind % 4 + (seq % 4096) * 2 ^ 2 + (ack % 4096) * 2 ^ 14 + (if nak then 2 ^ 26 else 0)

/-- A flit of 256 bytes: word, body of 244 bytes, CRC-64. -/
def flitBytes (kind seq ack : Nat) (nak : Bool) (body : List Byte) : List Byte :=
  let h := leBytes 4 (flitWord kind seq ack nak) ++ (body ++ List.replicate (244 - body.length) 0#8).take 244
  h ++ leBytes 8 (crc64 h)

/-- Whether a received flit is kept: its CRC holds, KIND is not 3 and no reserved bit is set (R292). -/
def flitOk (f : List Byte) : Bool :=
  f.length == 256 && leNat (f.drop 248) == crc64 (f.take 248) && leNat (f.take 4) % 4 != 3
    && bitsOf (leNat (f.take 4)) 31 27 == 0

/-- KIND of a flit. -/
def flitKind (f : List Byte) : Nat := leNat (f.take 4) % 4
/-- SEQ of a flit. -/
def flitSeq (f : List Byte) : Nat := bitsOf (leNat (f.take 4)) 13 2
/-- ACK of a flit. -/
def flitAck (f : List Byte) : Nat := bitsOf (leNat (f.take 4)) 25 14
/-- NAK of a flit. -/
def flitNak (f : List Byte) : Bool := bitsOf (leNat (f.take 4)) 26 26 == 1
/-- Body of a flit. -/
def flitBody (f : List Byte) : List Byte := (f.drop 4).take 244

end Sys2Proof.Machine
end

