-- ==== Sys2Proof/Machine/Memory.lean ====
section
/-! DEFINITION. Module physical memory: the regions of the address map (R36, R39), which accesses complete with an access
error (R37, R38, R281, R284), the symbol code's read and write outcomes (R268 to R273), their records (R287), mirroring
into a swap's destination (R28), and the accumulator's parity (R96). -/

namespace Sys2Proof.Machine

/-- The region a physical address lies in (R36, R39). -/
inductive Region where
  | rom
  | tcm
  | sram
  | regs
  | flash (dev : Nat)
  | lag (p : Nat)
  | acc (p : Nat)
  | prog (p : Nat)
  | hbm (s : Nat)
  | lpx
  | pcie
  | unmapped
deriving DecidableEq, Repr

/-- Base of a physical Island's Lagoon slice. -/
def lagBase (p : Nat) : Nat := 0x40000000 + p * 0x800000
/-- Base of a physical Island's accumulator window. -/
def accBase (p : Nat) : Nat := 0x90000000 + p * 0x100000
/-- Base of a physical Island's program memory. -/
def progBase (p : Nat) : Nat := 0xA0000000 + p * 0x40000
/-- Base of an HBM3E stack. -/
def hbmBase (s : Nat) : Nat := 0x10000000000 + s * 0x900000000
/-- Base of the LPDDR5X regions. -/
def lpxBase : Nat := 0x20000000000

/-- The module physical memory map (R36, R39). -/
def region (a : Nat) : Region :=
  if a < 0x10000 then .rom
  else if 0x100000 ≤ a ∧ a < 0x200000 then .tcm
  else if 0x400000 ≤ a ∧ a < 0x800000 then .sram
  else if 0x1000000 ≤ a ∧ a < 0x2000000 then .regs
  else if 0x4000000 ≤ a ∧ a < 0x4900000 then .regs
  else if 0x5000000 ≤ a ∧ a < 0x5400000 then .regs
  else if 0x6000000 ≤ a ∧ a < 0x6100000 then .regs
  else if 0x20000000 ≤ a ∧ a < 0x28000000 then .flash 0
  else if 0x28000000 ≤ a ∧ a < 0x30000000 then .flash 1
  else if 0x40000000 ≤ a ∧ a < 0x88000000 then .lag ((a - 0x40000000) / 0x800000)
  else if 0x90000000 ≤ a ∧ a < 0x99000000 then .acc ((a - 0x90000000) / 0x100000)
  else if 0xA0000000 ≤ a ∧ a < 0xA2400000 then .prog ((a - 0xA0000000) / 0x40000)
  else if 0x10000000000 ≤ a ∧ a < 0x14800000000 then .hbm ((a - 0x10000000000) / 0x900000000)
  else if 0x20000000000 ≤ a ∧ a < 0x2B400000000 then .lpx
  else if 0x40000000000 ≤ a ∧ a < 0x50000000000 then .pcie
  else .unmapped

/-- The LPDDR5X channel of a physical address (R278). -/
def lpxChannel (a : Nat) : Nat :=
  let g := (a - lpxBase) / 128
  (g % 32) ^^^ (g / 32 % 32)

/-- The LPDDR5X rank of a physical address (R278). -/
def lpxRank (a : Nat) : Nat :=
  let h := (a - lpxBase) / 128 / 32
  (h / 15 / 16) % 3

/-- The LPDDR5X bank, row and page offset of a physical address (R278). -/
def lpxPlace (a : Nat) : Nat × Nat × Nat :=
  let x := a - lpxBase
  let h := x / 128 / 32
  let P := h / 15
  (P % 16, P / 48, 128 * (h % 15) + x % 128)

/-- Where rank `r` of an LPDDR5X channel is built: its package, and the channel of that package (R277). -/
def lpxPackage (ch r : Nat) : Nat × Nat := (6 * (ch / 8) + 3 * (ch % 8 / 4) + r, ch % 4)

/-- Where the check bytes of an LPDDR5X codeword lie in its 2 KiB page (R279). -/
def lpxCheckAt (pageOff : Nat) : Nat := 1920 + 2 * (pageOff / 32)

/-- The HBM3E pseudo-channel of an offset within its stack (R276). -/
def hbmPseudo (off : Nat) : Nat :=
  let b := off % 0x300000000
  (b / 256 % 32) ^^^ (b / 2 ^ 19 % 32)

/-- The HBM3E stack ID, bank group, bank, column block and row of an offset within its stack (R276). -/
def hbmPlace (off : Nat) : Nat × Nat × Nat × Nat × Nat :=
  let b := off % 0x300000000
  (off / 0x300000000, b / 2 ^ 13 % 4, b / 2 ^ 15 % 4, b / 2 ^ 17 % 4, b / 2 ^ 19)

/-- The controller whose codewords hold an address, where the address carries the symbol code (R268, R107). -/
def memUnitOf (a : Nat) : Option MemUnit :=
  match region a with
  | .lag p => if h : p < 144 then some (.lag ⟨p, h⟩) else none
  | .prog p => if h : p < 144 then some (.lag ⟨p, h⟩) else none
  | .hbm s => if h : s < 8 then some (.hbm ⟨s, h⟩) else none
  | .lpx => some (.lpx ⟨lpxChannel a % 32, Nat.mod_lt _ (by decide)⟩)
  | _ => none

/-- The Quarter of a memory controller. -/
def memQuarter : MemUnit → Nat
  | .lag p => p / 36
  | .hbm k => k / 2
  | .lpx ch => ch / 8

/-- The Quarter whose block raises an event (R391), from the unit it names; 0 for those of the module. -/
def eventQuarter (k : EventKind) (unit a : Nat) : Nat :=
  match k with
  | .waitLong | .seqFault | .accParity | .sentinel | .ebbNonfin | .swapRej => unit / 36
  | .portUp | .portDown | .laneSpared | .spareLost | .retry | .retryLimit | .fecUe | .helloFail | .mismatch | .strLoopbackFail
  | .protocol | .tideOverrun | .ferryFail => unit / 4
  | .buoySat | .buoyUnder | .txnTimeout | .late | .islandShortfall => unit
  | .memCe | .memUe | .memPoison | .scrubCe | .scrubUe => match memUnitOf unit with | some m => memQuarter m | none => 0
  | .ctrlFailed | .memLoopbackFail | .memoryShortfall => if unit = 0 then a / 36 else if unit = 1 then a / 2 else a / 8
  | .odecc | .fuuFault | .fuuHard => unit / 2
  | _ => 0

/-- Reports an event to the Pilot firmware, with the Tide number in force; it interrupts the core that serves the Quarter (R391). -/
def State.report (s : State) (k : EventKind) (unit a b : Nat) : State :=
  { s with events := s.events ++ [⟨k, unit, a, b, (s.reg Reg.TIDE_NUM).toNat, s.fw.qcore.getD (eventQuarter k unit a) 0⟩] }

/-- Interrupts a core for a reason that no block of a Quarter raises (R395, R401, R427): a doorbell, a mailbox, a watchdog. The
cores are the Pilot cores, but for `mailboxOut`: there a Shore core, or 16 for the management port. -/
def State.interruptCore (s : State) (k : EventKind) (unit core : Nat) : State :=
  { s with events := s.events ++ [⟨k, unit, 0, 0, (s.reg Reg.TIDE_NUM).toNat, core⟩] }

/-- LOC of an address (R286): bank, pseudo-channel or rank; 0 for program memory (R107). -/
def memLoc (a : Nat) : Nat :=
  match region a with
  | .lag p => (a - lagBase p) / 64 % 32
  | .hbm s => hbmPseudo (a - hbmBase s)
  | .lpx => lpxRank a
  | _ => 0

/-- The address of a register of a memory controller's set (R287), by the offset that all three sets share. -/
def memReg (u : MemUnit) (off : Nat) : Nat :=
  match u with
  | .lag p => islWin p + 0x1000 + off
  | .hbm s => qtrWin (s / 2) + 0x40000 + (s % 2) * 0x2000 + off
  | .lpx ch => qtrWin (ch / 8) + 0xC0000 + (ch % 8) * 0x1000 + off

/-- STATUS.STATE of a controller: 0 TRAINING, 1 UP, 2 MAINT, 3 FAILED. -/
def State.memState (s : State) (u : MemUnit) : Nat := s.fld (memReg u 0x000) Fd.HBM_STATUS_STATE

/-- State of a sequencer context (ISL_SEQ_STATUS). -/
def State.ctxSt (s : State) (p c : Nat) : Nat :=
  s.fld (Reg.ISL_SEQ_STATUS p) (if c = 0 then Fd.ISL_SEQ_STATUS_ST0 else Fd.ISL_SEQ_STATUS_ST1)

/-- Whether a context is IDLE or STOPPED. -/
def State.ctxStopped (s : State) (p c : Nat) : Bool := s.ctxSt p c == 0 || s.ctxSt p c == 5

/-- Whether both contexts of an Island are IDLE or STOPPED (R38, R178). -/
def State.islStopped (s : State) (p : Nat) : Bool := s.ctxStopped p 0 && s.ctxStopped p 1

/-- How an access through the address map completes: performed, or with an access error of a kind (1 unmapped or RETIRED or
controller FAILED, 2 BUSY, 4 read-only). -/
def State.accessKind (s : State) (a : Nat) (wr : Bool) : Nat :=
  match region a with
  | .unmapped => 1
  | .rom => if wr then 4 else 0
  | .flash _ => if wr then 4 else 0
  | .lag p => if s.pstate p = 6 then 1 else 0
  | .acc p => if s.pstate p = 6 then 1 else if s.islStopped p then 0 else 2
  | .prog p => if s.pstate p = 6 then 1 else if s.islStopped p then 0 else 2
  | .hbm k =>
    let st := s.fld (qtrWin (k / 2) + 0x40000 + (k % 2) * 0x2000) Fd.HBM_STATUS_STATE
    if st = 3 then 1 else if st = 2 then 2 else 0
  | .lpx =>
    let ch := lpxChannel a
    let st := s.fld (qtrWin (ch / 8) + 0xC0000 + (ch % 8) * 0x1000) Fd.HBM_STATUS_STATE
    if st = 3 then 1 else if st = 2 then 2 else 0
  | _ => 0

/-! ### The symbol code (R268) -/

/-- Data symbol `i` of a codeword's 32 bytes: bits [4i + 3:4i], for i from 0 to 63. -/
def dataSymbol (bs : List Byte) (i : Nat) : Nat := bitsOf (leNat bs) (4 * i + 3) (4 * i)

/-- The symbols, of the 68 of a codeword, in which what is stored differs from a codeword of the code. -/
def badSymbols (stored right : List Byte) (checkBad : List (Fin 4)) : List Nat :=
  ((List.range 64).filter fun i => dataSymbol stored i != dataSymbol right i) ++ checkBad.map (64 + ·.val)

/-- What the decoder makes of an error in these symbols: one is corrected, two are detected; the device makes no claim about
three or more. -/
def CwErr.ofSymbols : List (Fin 68) → Option CwErr
  | [] => some .ok
  | [i] => some (.ce i)
  | [_, _] => some .ue
  | _ => none

/-! ### Records (R287) -/

/-- The condition of the codeword at an address. -/
def State.cwAt (s : State) (a : Nat) : CwErr := tget (fun _ => .ok) s.cw (a / 32 * 32)

/-- Sets the condition of the codeword at an address. -/
def State.setCw (s : State) (a : Nat) (e : CwErr) : State := { s with cw := tset (fun _ => .ok) s.cw (a / 32 * 32) e }

/-- The INFO word of an error. -/
def memInfo (sym loc req lisl : Nat) (poison : Bool) : Word :=
  BitVec.ofNat 32 (sym % 128 + (loc % 32) * 2 ^ 7 + (req % 16) * 2 ^ 12 + (lisl % 256) * 2 ^ 16
    + (if poison then 2 ^ 24 else 0))

/-- The ERR bit, address and INFO of a correctable error (R287). -/
def State.errCe (s : State) (u : MemUnit) (a sym req lisl : Nat) : State :=
  let cwa := a / 32 * 32
  let s := if s.bit (memReg u 0x010) Fd.HBM_ERR_CE then s else
    ((s.setReg (memReg u 0x014) (BitVec.ofNat 32 cwa)).setReg (memReg u 0x018) (BitVec.ofNat 32 (cwa / 2 ^ 32))).setReg
      (memReg u 0x01C) (memInfo sym (memLoc a) req lisl false)
  s.setErr (memReg u 0x010) Fd.HBM_ERR_CE Fd.HBM_ERR_CE_MULTI

/-- Records a correctable error on a demand read (R271, R287). -/
def State.recordCe (s : State) (u : MemUnit) (a sym req lisl : Nat) : State :=
  let cwa := a / 32 * 32
  let s := s.errCe u a sym req lisl
  (s.count (memReg u 0x030) 1).report .memCe cwa sym (req + lisl * 16)

/-- The ERR bit, address, INFO and counter of an uncorrectable error or poison (R287). -/
def State.errUe (s : State) (u : MemUnit) (a req lisl : Nat) (poison : Bool) : State :=
  let cwa := a / 32 * 32
  let s := if s.bit (memReg u 0x010) Fd.HBM_ERR_UE then s else
    ((s.setReg (memReg u 0x020) (BitVec.ofNat 32 cwa)).setReg (memReg u 0x024) (BitVec.ofNat 32 (cwa / 2 ^ 32))).setReg
      (memReg u 0x028) (memInfo 0x7F (memLoc a) req lisl poison)
  let s := s.setErr (memReg u 0x010) Fd.HBM_ERR_UE Fd.HBM_ERR_UE_MULTI
  s.count (memReg u (if poison then 0x038 else 0x034)) 1

/-- Records an uncorrectable error or poison that a read by a requester finds (R272, R287). -/
def State.recordUe (s : State) (u : MemUnit) (a req lisl : Nat) (poison : Bool) : State :=
  (s.errUe u a req lisl poison).report (if poison then .memPoison else .memUe) (a / 32 * 32) 0x7F (req + lisl * 16)

/-- The requester that a record names when another module asks (R286): no logical Island of this module, and module `m`. In
`lisl`, bits 7:0 are the logical Island and the bits above them the module's id plus 1, 0 for this module. -/
def remLisl (m : Nat) : Nat := 0xFF + 256 * (m + 1)

/-- Reads one codeword's condition for a requester: whether it is bad, and the records (R271, R272). -/
def State.checkCw (s : State) (a req lisl : Nat) : Bool × State :=
  match memUnitOf a with
  | none => (false, s)
  | some u =>
    match s.cwAt a with
    | .ok => (false, s)
    | .ce sym => (false, s.recordCe u a sym req lisl)
    | .ue => (true, s.recordUe u a req lisl false)
    | .poison => (true, s.recordUe u a req lisl true)

/-- Checks `k` codewords from an address upward. -/
def State.checkCws : State → Nat → Nat → Nat → Nat → Bool × State
  | s, _, _, _, 0 => (false, s)
  | s, a, req, lisl, k + 1 =>
    let (b, s) := s.checkCw a req lisl
    let (b', s) := s.checkCws (a + 32) req lisl k
    (b || b', s)

/-- Checks the codewords of a long range (R271, R272): those that are clean change nothing. -/
def State.checkRange (s : State) (a n req lisl : Nat) : Bool × State :=
  ((s.cw.map (·.1)).filter fun c => decide (a / 32 * 32 ≤ c) && decide (c < a + n)).foldl (fun r c =>
    let (b, t) := r.2.checkCw c req lisl
    (r.1 || b, t)) (false, s)

/-- How many codewords a range of bytes touches. -/
def cwSpan (a n : Nat) : Nat := if n = 0 then 0 else (a + n - 1) / 32 - a / 32 + 1

/-- A read of `n` bytes of physical memory by a requester of class `req` for logical Island `lisl`: the bytes as stored, and
whether a codeword was uncorrectable or poisoned (R271, R272). Boot ROM and flash read their contents. -/
def State.readMem (s : State) (a n req lisl : Nat) : List Byte × Bool × State :=
  let (bad, s) := s.checkCws (a / 32 * 32) req lisl (cwSpan a n)
  (s.bytes a n, bad, s)

/-! ### Writes -/

/-- Where a write to a byte of the source of a swap is mirrored: lines the copy cursor has passed (R28). -/
def State.mirrorAddr (s : State) (a : Nat) : Option Nat :=
  if s.bit Reg.ISL_SWAP_CTL Fd.ISL_SWAP_CTL_GO then
    let src := s.fld Reg.ISL_SWAP_CTL Fd.ISL_SWAP_CTL_SRC
    let dst := s.fld Reg.ISL_SWAP_CTL Fd.ISL_SWAP_CTL_DST
    let cur := s.fld Reg.ISL_SWAP_CURSOR Fd.ISL_SWAP_CURSOR_LINES
    match region a with
    | .prog p => if p = src ∧ (a - progBase p) / 256 < cur then some (progBase dst + (a - progBase p)) else none
    | .lag p => if p = src ∧ 1024 + (a - lagBase p) / 256 < cur then some (lagBase dst + (a - lagBase p)) else none
    | _ => none
  else none

/-- Stores one byte, and its mirror. -/
def State.storeByte (s : State) (a : Nat) (b : Byte) : State :=
  match s.mirrorAddr a with
  | some d => (s.setByte a b).setByte d b
  | none => s.setByte a b

/-- Stores bytes, and their mirrors. -/
def State.store (s : State) (a : Nat) : List Byte → State
  | [] => s
  | b :: bs => (s.storeByte a b).store (a + 1) bs

/-- Sets a codeword's condition, and its mirror's. -/
def State.storeCw (s : State) (a : Nat) (e : CwErr) : State :=
  match s.mirrorAddr a with
  | some d => (s.setCw a e).setCw d e
  | none => s.setCw a e

/-- What a write of bytes `lo` to `hi` (exclusive) does to the codeword at `cwa` (R273): a write of all 32 bytes leaves it
clean; a partial one reads it first, and writes it back poisoned when that read finds it bad. -/
def State.writeCw (s : State) (cwa lo hi req lisl : Nat) : Bool × State :=
  match memUnitOf cwa with
  | none => (false, s)
  | some u =>
    if lo ≤ cwa ∧ cwa + 32 ≤ hi then (false, s.storeCw cwa .ok)
    else
      let (bad, s) := s.checkCw cwa req lisl
      if bad then (true, (s.storeCw cwa .poison).count (memReg u 0x038) 1)
      else (false, s.storeCw cwa .ok)

/-- The codeword effects of a write, from a codeword upward. -/
def State.writeCws : State → Nat → Nat → Nat → Nat → Nat → Nat → Bool × State
  | s, _, _, _, _, _, 0 => (false, s)
  | s, cwa, lo, hi, req, lisl, k + 1 =>
    let (b, s) := s.writeCw cwa lo hi req lisl
    let (b', s) := s.writeCws (cwa + 32) lo hi req lisl k
    (b || b', s)

/-- A write of bytes to physical memory by a requester: whether a partial write met a bad codeword, and the state (R273). -/
def State.writeMem (s : State) (a : Nat) (bs : List Byte) (req lisl : Nat) : Bool × State :=
  let (bad, s) := s.writeCws (a / 32 * 32) a (a + bs.length) req lisl (cwSpan a bs.length)
  (bad, s.store a bs)

/-! ### Accesses by an agent with access errors -/

/-- The outcome of a checked access: the access-error kind (0 for none), the data of a read, whether it is bad, the state. -/
structure AccRes where
  kind : Nat
  data : List Byte
  bad : Bool
  st : State

/-- A checked read (R37, R38): an access error reads zero and is recorded. -/
def State.readChk (s : State) (a n req lisl : Nat) : AccRes :=
  let k := if s.accessKind a false ≠ 0 then s.accessKind a false else s.accessKind (a + n - 1) false
  if k ≠ 0 then ⟨k, List.replicate n 0, false, s.accessErr a req false k⟩
  else
    let (d, b, s) := s.readMem a n req lisl
    ⟨0, d, b, s⟩

/-- A checked write (R37, R38): an access error drops the write and is recorded. -/
def State.writeChk (s : State) (a : Nat) (bs : List Byte) (req lisl : Nat) : AccRes :=
  let k := if s.accessKind a true ≠ 0 then s.accessKind a true else s.accessKind (a + bs.length - 1) true
  if k ≠ 0 then ⟨k, [], false, s.accessErr a req true k⟩
  else
    let (b, s) := s.writeMem a bs req lisl
    ⟨0, [], b, s⟩

/-! ### Accumulator (R88, R95, R96) -/

/-- Address of entry `j` of tile row `a` of a physical Island (R88). -/
def accAddr (p a j : Nat) : Nat := accBase p + a * 128 + 4 * j

/-- Records a parity error (R96, R105). -/
def State.recordParity (s : State) (p a j bytes port : Nat) : State :=
  let s := if s.bit (Reg.ACC_ERR p) Fd.ACC_ERR_PARITY then s else
    s.setReg (Reg.ACC_ERR_ADDR p) (BitVec.ofNat 32 (a + j * 2 ^ 13 + bytes * 2 ^ 18 + port * 2 ^ 22))
  let s := s.setErr (Reg.ACC_ERR p) Fd.ACC_ERR_PARITY Fd.ACC_ERR_PARITY_MULTI
  (s.raisePlaus p).report .accParity p (s.reg (Reg.ACC_ERR_ADDR p)).toNat
    (if s.bit (Reg.ACC_ERR p) Fd.ACC_ERR_PARITY_MULTI then 1 else 0)

/-- Reads an accumulator entry through the array port (0) or the drain port (1), with the parity check (R96). -/
def State.readAcc (s : State) (p a j port : Nat) : Nat × State :=
  let ad := accAddr p a j
  let par := tget (fun _ => 0) (s.isl p).parity ad
  let s := if par = 0 then s else s.recordParity p a j par port
  (s.memNat ad 4, s)

/-- Writes an accumulator entry with fresh parity. -/
def State.writeAcc (s : State) (p a j v : Nat) : State :=
  let ad := accAddr p a j
  let x := s.isl p
  (s.setIsl p { x with parity := tset (fun _ => 0) x.parity ad 0 }).setBytes ad (leBytes 4 v)

/-- A window write of bytes within one entry: a full write gives fresh parity; a partial one reads the entry first, with the
parity check at the drain port (R96). -/
def State.writeAccWin (s : State) (p ad : Nat) (bs : List Byte) : State :=
  let e := ad / 4 * 4
  let off := e - accBase p
  let s := if bs.length = 4 then s else (s.readAcc p (off / 128) (off % 128 / 4) 1).2
  let x := s.isl p
  (s.setIsl p { x with parity := tset (fun _ => 0) x.parity e 0 }).setBytes ad bs

end Sys2Proof.Machine
end

