-- ==== Sys2Proof/Machine/SeqOps.lean ====
section
/-! DEFINITION. What the sequencer's rules share: a context's registers (R108), its states and stops (R142 to R145), signal
discards (R150), completion of work and what it wakes (R126, R137, R139, R140), and the report of an engine's fault (R143). -/

namespace Sys2Proof.Machine

/-! ### Registers of a context (R108, R146) -/

/-- Scalar register s(i) of context (p, c); s0 reads 0. -/
def State.sreg (s : State) (p c i : Nat) : Nat :=
  if i = 0 then 0
  else (s.reg (Reg.ISL_SEQ_SREG p c (2 * i))).toNat + (s.reg (Reg.ISL_SEQ_SREG p c (2 * i + 1))).toNat * 2 ^ 32

/-- Writes s(i); a write to s0 is ignored. -/
def State.setSreg (s : State) (p c i v : Nat) : State :=
  if i = 0 then s
  else (s.setReg (Reg.ISL_SEQ_SREG p c (2 * i)) (BitVec.ofNat 32 v)).setReg (Reg.ISL_SEQ_SREG p c (2 * i + 1))
    (BitVec.ofNat 32 (v / 2 ^ 32))

/-- Predicate p(i) of context (p, c); p0 reads 1. -/
def State.pred (s : State) (p c i : Nat) : Bool :=
  i == 0 || (s.reg (Reg.ISL_SEQ_PRED p c)).toNat / 2 ^ i % 2 == 1

/-- Writes predicate p(i), i from 1 to 7. -/
def State.setPred (s : State) (p c i : Nat) (v : Bool) : State :=
  s.setFld (Reg.ISL_SEQ_PRED p c) ⟨i, 1, .rw, 0⟩ (if v then 1 else 0)

/-- The PC of context (p, c). -/
def State.pc (s : State) (p c : Nat) : Nat := s.fld (Reg.ISL_SEQ_PC p c) Fd.ISL_SEQ_PC_PC

/-- Sets the PC of context (p, c). -/
def State.setPc (s : State) (p c v : Nat) : State := s.setFld (Reg.ISL_SEQ_PC p c) Fd.ISL_SEQ_PC_PC v

/-- The module context of context (p, c) (R109). -/
def State.mctx (s : State) (p c : Nat) : Nat := s.fld (Reg.ISL_SEQ_CTXID p c) Fd.ISL_SEQ_CTXID_CTX

/-- The Tide number that Island `p`'s sequencer holds. -/
def State.seqTide (s : State) (p : Nat) : Nat := (s.reg (Reg.ISL_SEQ_TIDE p)).toNat

/-- The RUN bit of context `c`. -/
def runFld (c : Nat) : Fld := if c = 0 then Fd.ISL_SEQ_CTL_RUN0 else Fd.ISL_SEQ_CTL_RUN1
/-- The ENTRY bit of context `c`. -/
def entryFld (c : Nat) : Fld := if c = 0 then Fd.ISL_SEQ_CTL_ENTRY0 else Fd.ISL_SEQ_CTL_ENTRY1
/-- The state field of context `c`. -/
def stFld (c : Nat) : Fld := if c = 0 then Fd.ISL_SEQ_STATUS_ST0 else Fd.ISL_SEQ_STATUS_ST1
/-- The WAITLONG bit of context `c`. -/
def waitLongFld (c : Nat) : Fld := if c = 0 then Fd.ISL_SEQ_EVT_WAITLONG0 else Fd.ISL_SEQ_EVT_WAITLONG1

/-- Sets the state of context (p, c): 0 IDLE, 1 RUN, 2 STALL, 3 WAIT, 4 TMARK, 5 STOPPED. -/
def State.setSt (s : State) (p c st : Nat) : State := s.setFld (Reg.ISL_SEQ_STATUS p) (stFld c) st

/-- Whether context (p, c) is in state RUN or STALL, so that it may issue. A RETIRED Island stays clock-gated and issues
nothing (R41). -/
def State.runs (s : State) (p c : Nat) : Bool := (s.ctxSt p c == 1 || s.ctxSt p c == 2) && s.pstate p != 6

/-- One active loop: body, count and iterations completed (R123, R124). -/
structure LoopEnt where
  start : Nat
  stop : Nat
  count : Nat
  iter : Nat
deriving DecidableEq, Repr

/-- The active loops of context (p, c), innermost first (ISL_SEQ_LOOP). -/
def State.loops (s : State) (p c : Nat) : List LoopEnt :=
  ((List.range 4).filter fun d => s.bit (Reg.ISL_SEQ_LOOP p c d) Fd.ISL_SEQ_LOOP_VALID).map fun d =>
    ⟨s.fld (Reg.ISL_SEQ_LOOP p c d) Fd.ISL_SEQ_LOOP_START, s.fld (Reg.ISL_SEQ_LOOP p c d) Fd.ISL_SEQ_LOOP_END,
      (s.reg (Reg.ISL_SEQ_LOOP_COUNT p c d)).toNat, (s.reg (Reg.ISL_SEQ_LOOP_ITER p c d)).toNat⟩

/-- Writes one entry of the loop stack, or clears it. -/
def State.setLoop (s : State) (p c d : Nat) (l : Option LoopEnt) : State :=
  match l with
  | some l => ((s.setReg (Reg.ISL_SEQ_LOOP p c d) (BitVec.ofNat 32 (l.start + l.stop * 2 ^ 14 + 2 ^ 31))).setReg
      (Reg.ISL_SEQ_LOOP_COUNT p c d) (BitVec.ofNat 32 l.count)).setReg (Reg.ISL_SEQ_LOOP_ITER p c d)
      (BitVec.ofNat 32 l.iter)
  | none => ((s.setReg (Reg.ISL_SEQ_LOOP p c d) 0).setReg (Reg.ISL_SEQ_LOOP_COUNT p c d) 0).setReg
      (Reg.ISL_SEQ_LOOP_ITER p c d) 0

/-- Writes the loop stack, innermost first. -/
def State.setLoops (s : State) (p c : Nat) (ls : List LoopEnt) : State :=
  (((s.setLoop p c 0 ls[0]?).setLoop p c 1 ls[1]?).setLoop p c 2 ls[2]?).setLoop p c 3 ls[3]?

/-! ### Buoy waits of a context -/

/-- Sets BUOY_FLAGS.WAITERS of a Buoy to the number of contexts that wait on it. -/
def State.syncWaiters (s : State) (q b : Nat) : State :=
  s.setFld (Reg.BUOY_FLAGS (16384 * q + b)) Fd.BUOY_FLAGS_WAITERS
    ((s.qtr q).waits.filter (·.bidx == b)).length

/-- Removes the wait of context (p, c) from Quarter `q`'s Buoy unit. It was not released, so its record stays PENDING (R157). -/
def State.dropWait (s : State) (q p c : Nat) : State :=
  match (s.qtr q).waits.find? (fun w => w.p == p && w.c == c) with
  | none => s
  | some w =>
    let x := s.qtr q
    (s.setQtr q { x with waits := x.waits.filter fun v => !(v.p == p && v.c == c) }).syncWaiters q w.bidx

/-- Removes every wait and every release on its way of context (p, c). -/
def State.dropWaits (s : State) (p c : Nat) : State :=
  let s := (((s.dropWait 0 p c).dropWait 1 p c).dropWait 2 p c).dropWait 3 p c
  (List.range 4).foldl (fun s q =>
    let x := s.qtr q
    if x.releases.any (fun r => r == (p, c)) then
      s.setQtr q { x with releases := x.releases.filter (· ≠ (p, c)) } else s) s

/-! ### Stopping a context -/

/-- Puts a context into IDLE or STOPPED: its RUN bit clears and it waits for nothing (R140, R142, R146). -/
def State.stopCtx (s : State) (p c st : Nat) : State :=
  let s := (s.setFld (Reg.ISL_SEQ_CTL p) (runFld c) 0).setSt p c st
  let s := match (s.ctx p c).wait with
    | .buoy _ _ => s.dropWaits p c
    | _ => s
  s.setCtx p c { s.ctx p c with wait := .none, waitReported := false, waitCycles := 0 }

/-- Discards the signal-queue entries of a context that are not sent yet (R150). -/
def State.discardSigs (s : State) (p c : Nat) : State :=
  let ids := (s.ctx p c).sigq.map (·.id)
  let s := s.setCtx p c { s.ctx p c with sigq := [] }
  { s with work := s.work.filter fun w => !(ids.contains w.id) }

/-- Records a fault of a context: the first record is kept and a further one sets MULTI (R142, R144). -/
def State.recordFault (s : State) (p c code pc info : Nat) : State :=
  if s.bit (Reg.ISL_SEQ_FAULT p c) Fd.ISL_SEQ_FAULT_VALID then
    s.setFld (Reg.ISL_SEQ_FAULT p c) Fd.ISL_SEQ_FAULT_MULTI 1
  else
    (s.setReg (Reg.ISL_SEQ_FAULT p c) (BitVec.ofNat 32 (code % 256 + (pc % 2 ^ 14) * 2 ^ 8 + 2 ^ 22))).setReg
      (Reg.ISL_SEQ_FINFO p c) (BitVec.ofNat 32 info)

/-- A sequencer fault (R142): only its context stops; the fault is recorded and reported, the Island's plausibility flag is
raised and unsent signals are discarded, except that BREAK (0x10) does neither (R127, R150). -/
def State.seqFault (s : State) (p c code pc info : Nat) : State :=
  let s := if code = 0x10 then s else s.discardSigs p c
  let s := (s.stopCtx p c 5).recordFault p c code pc info
  let s := if code = 0x10 then s else s.raisePlaus p
  s.report .seqFault p (code % 256 + c % 2 * 2 ^ 8 + pc % 2 ^ 14 * 2 ^ 9) info

/-! ### Completion -/

/-- Ends the wait of a context whose condition now holds: a FENCE whose earlier work has completed, a TMARK or a HALT with no
work left (R126, R139, R140). -/
def State.wakeCtx (s : State) (p c : Nat) : State :=
  let x := s.ctx p c
  let run (s : State) (st : Nat) : State :=
    (s.setCtx p c { s.ctx p c with wait := .none, waitReported := false, waitCycles := 0 }).setSt p c st
  if s.ctxSt p c ≠ 3 then s
  else match x.wait with
    | .fence mask id => if s.workBefore p c mask id then s else run s 1
    | .tmark => if s.hasWork p c then s else run s 4
    | .halt => if s.hasWork p c then s else s.stopCtx p c 0
    | _ => s

/-- An Island's Tide mark (R140, R174): when both contexts are in TMARK or IDLE the Island has finished the Tide. The flag is
set once per Tide, and the Quarter's part is formed from it (R332). -/
def State.islandMark (s : State) (p : Nat) : State :=
  let fin (c : Nat) : Bool := s.ctxSt p c == 0 || s.ctxSt p c == 4
  let x := s.isl p
  if fin 0 && fin 1 && !x.marked && s.loaded && (s.pstate p == 1 || s.pstate p == 4) then s.setIsl p { x with marked := true } else s

/-- The Shoal is free once its operation's last write is visible (R244, R247). -/
def State.shoalFree (s : State) (p id : Nat) : State :=
  let x := s.isl p
  match x.shl with
  | some r =>
    if r.op.id = id then
      let s := (s.setIsl p { x with shl := none }).setFld (Reg.SHL_STATUS p) Fd.SHL_STATUS_BUSY 0
      if r.failed then s else s.count (Reg.SHL_CNT_OPS p) 1
    else s
  | none => s

/-- A Ferry is free once its descriptor's last write is visible (R208, R211). -/
def State.ferryFree (s : State) (id : Nat) : State :=
  match (List.range 16).find? fun f => match (s.fry f).run with
      | some r => decide (r.op.id = id)
      | none => false with
  | some f =>
    let x := s.fry f
    let s := (s.setFry f { x with run := none }).setFld (Reg.FRY_STATUS (f / 4) (f % 4)) Fd.FRY_STATUS_BUSY 0
    match x.run with
    | some r =>
      let s := s.count (Reg.FRY_CNT_KIB (f / 4) (f % 4)) (r.bytes / 1024)
      if r.failed then s else s.count (Reg.FRY_CNT_DESC (f / 4) (f % 4)) 1
    | none => s
  | none => s

/-- Shows BUSY and QDEPTH of an Ebb: a drain reads, or elements of one are still to be written or to be answered (R181). -/
def State.syncEbb (s : State) (p : Nat) : State :=
  let x := s.isl p
  let out := s.work.any fun w => w.cls == 1 && w.done && (w.src == .ctx p 0 || w.src == .ctx p 1)
  (s.setFld (Reg.EBB_STATUS p) Fd.EBB_STATUS_BUSY (if x.ebb.isSome || !x.ebbw.isEmpty || out then 1 else 0)).setFld
    (Reg.EBB_STATUS p) Fd.EBB_STATUS_QDEPTH x.ebbq.length

/-- Frees the engine of a piece of work that completes. -/
def State.engineFree (s : State) (w : Work) : State :=
  match w.cls, w.src with
  | 1, .ctx p _ => s.syncEbb p
  | 2, .ctx p _ => s.shoalFree p w.id
  | 3, _ => s.ferryFree w.id
  | _, _ => s

/-- Work whose engine has finished and whose remote transactions have all been answered completes: it leaves the list, and
its context may wake. -/
def State.finishWork (s : State) (id : Nat) : State :=
  match s.findWork id with
  | none => s
  | some w =>
    if w.done && w.out == 0 then
      let s := (s.dropWork id).engineFree w
      match w.src with
      | .ctx p c => (s.wakeCtx p c).islandMark p
      | .pilot => s
    else s

/-- The engine of a piece of work has finished with it. -/
def State.workDone (s : State) (id : Nat) : State :=
  (s.modWork id fun w => { w with done := true }).finishWork id

/-- A remote transaction of a piece of work is on its way. -/
def State.workOut (s : State) (id : Nat) : State := s.modWork id fun w => { w with out := w.out + 1 }

/-- A remote transaction of a piece of work has been answered. -/
def State.workIn (s : State) (id : Nat) : State :=
  (s.modWork id fun w => { w with out := w.out - 1 }).finishWork id

/-- The physical Island of a piece of work, if a context issued it. -/
def State.workIsl (s : State) (id : Nat) : Option Nat :=
  match s.findWork id with
  | some ⟨_, _, .ctx p _, _, _, _⟩ => some p
  | _ => none

/-- What a bad read does to the issuer of a piece of work (R272, R312): the plausibility flag of its Island is raised, or, for a
Pilot submission, the firmware is notified. -/
def State.workPlaus (s : State) (id : Nat) : State :=
  match s.workIsl id with
  | some p => s.raisePlaus p
  | none => s.report .pilotBad id 10 0

/-- A descriptor of the checkpoint drain fails, or one of its writes (R384). -/
def State.drainFail (s : State) (id : Nat) : State :=
  match s.fw.drain with
  | some d => if d.ids.contains id then { s with fw := { s.fw with drain := some { d with failed := true } } } else s
  | none => s

/-- An engine reports a fault of an operation after it issued (R143): the operation is over, and the issuing context stops
with code ENGINE, the engine number and the engine's own code. -/
def State.engineFault (s : State) (id eng code : Nat) : State :=
  match s.findWork id with
  | none => s
  | some w =>
    match w.src with
    | .ctx p c => (s.seqFault p c 0x0F w.pc (eng + code * 16)).workDone id
    | .pilot => s.workDone id

end Sys2Proof.Machine
end

