-- ==== Sys2Proof/Machine/Txn.lean ====
section
/-! DEFINITION. The transaction layer (R307 to R312): sending and routing messages, the tracker, what the completion of a
request does to the work that made it, and the lines that an engine reads from or writes to another module. -/

namespace Sys2Proof.Machine

/-- STATE of Strait port `k` (R313). -/
def State.portSt (s : State) (k : Nat) : Nat := s.fld (Reg.STR_STATUS (portQ k) (portK k)) Fd.STR_STATUS_STATE

/-- Sets STATE of Strait port `k`. -/
def State.setPortSt (s : State) (k st : Nat) : State := s.setFld (Reg.STR_STATUS (portQ k) (portK k)) Fd.STR_STATUS_STATE st

/-- Puts a message of a stream into the transmit queue of its VC. -/
def State.enqueue (s : State) (k stream : Nat) (m : Msg) : State :=
  let x := s.port k
  s.setPort k { x with txq := x.txq.modify m.vc (· ++ [(stream, m)]) }

/-- Where a message of Quarter `q` for module `dst` goes: the port of its route entry, if the entry is valid (R309). -/
def State.route (s : State) (q dst : Nat) : Option Nat :=
  if s.bit (Reg.STR_ROUTE q dst) Fd.STR_ROUTE_VALID then some (s.fld (Reg.STR_ROUTE q dst) Fd.STR_ROUTE_PORT) else none

/-- The use that a response, or a local status, completes (R126, R149, R311, R312). `status` 0 is OK; the data are those of an
RD_RSP. -/
def State.completeUse (s : State) (use : TxUse) (status : Nat) (data : List Byte) : State :=
  match use with
  | .sig w p c lisl bidx pc =>
    let s := if status = 4 then s.seqFault p c 0x0D pc (bidx + lisl * 2 ^ 14)
      else if status = 0 then s else s.raisePlaus p
    s.workDone w
  | .read w mod addr =>
    let d := if status = 0 then data else List.replicate 64 0
    let s := { s with remLines := s.remLines.map fun l =>
      if l.work = w ∧ l.mod = mod ∧ l.addr = addr then { l with data := some d, bad := status != 0 } else l }
    if status = 0 then s else s.workPlaus w
  | .write w => (if status = 0 then s else (s.workPlaus w).drainFail w).workIn w

/-- The lowest tracker entry of a Quarter that is neither in use nor held back after a timeout (R310, R311). -/
def State.freeTrk (s : State) (q : Nat) : Option Nat :=
  let x := s.qtr q
  (List.range 4096).find? fun i => (tget (fun _ => none) x.trk i).isNone && !(x.quarantine.contains i)

/-- The firmware learns of a request that completes with a STATUS other than OK, of which it writes a record (R312). UNDERFLOW stops
the issuing context, and TIMEOUT has a record of its own (R143, R321). -/
def State.noteStatus (s : State) (m : Msg) (status : Nat) : State :=
  if status = 0 ∨ status = 4 ∨ status = 7 then s else s.report .remoteBad (m.addr % 2 ^ 48) status m.dst

/-- Sends a request that has tracker entry `i` of Quarter `q`: the entry's generation increments, and the request is routed.
Without a route it completes with NO_ROUTE, and on a port that is not ACTIVE with LINK_DOWN, at once (R309, R313). -/
def State.sendReq (s : State) (q i stream : Nat) (m : Msg) (use : TxUse) : State :=
  let x := s.qtr q
  let g := (tget (fun _ => 0) x.gens i + 1) % 4
  let m := { m with tag := q * 4096 + i, gen := g, src := s.selfId q, hops := 0, status := 0 }
  let s := s.setQtr q { x with gens := tset (fun _ => 0) x.gens i g }
  match s.route q m.dst with
  | none => ((s.count (Reg.STR_CNT_NOROUTE q) 1).noteStatus m 5).completeUse use 5 []
  | some k =>
    if s.portSt k ≠ 4 then (s.noteStatus m 6).completeUse use 6 []
    else
      let x := s.qtr q
      let s := s.setQtr q { x with trk := tset (fun _ => none) x.trk i (some ⟨k, m, use⟩) }
      (s.setFld (Reg.STR_TRK_STATUS q) Fd.STR_TRK_STATUS_INUSE
        (s.fld (Reg.STR_TRK_STATUS q) Fd.STR_TRK_STATUS_INUSE + 1)).enqueue k stream m

/-- A request leaves Quarter `q` (R310): it takes a tracker entry, or waits for one. -/
def State.request (s : State) (q stream : Nat) (m : Msg) (use : TxUse) : State :=
  match s.freeTrk q with
  | some i => s.sendReq q i stream m use
  | none =>
    let x := s.qtr q
    (s.setQtr q { x with waitTrk := x.waitTrk ++ [(stream, m, use)] }).count (Reg.STR_CNT_TRK_FULL q) 1

/-- Lets waiting requests take entries that have become free, oldest first. -/
def State.pumpTrk : Nat → State → Nat → State
  | 0, s, _ => s
  | n + 1, s, q =>
    match (s.qtr q).waitTrk, s.freeTrk q with
    | (st, m, use) :: r, some i =>
      State.pumpTrk n ((s.setQtr q { s.qtr q with waitTrk := r }).sendReq q i st m use) q
    | _, _ => s

/-- Frees a tracker entry and completes its use with a status. -/
def State.closeTrk (s : State) (q i : Nat) (t : Trk) (status : Nat) (data : List Byte) : State :=
  let x := s.qtr q
  let s := s.setQtr q { x with trk := tset (fun _ => none) x.trk i none }
  let s := s.setFld (Reg.STR_TRK_STATUS q) Fd.STR_TRK_STATUS_INUSE
    (s.fld (Reg.STR_TRK_STATUS q) Fd.STR_TRK_STATUS_INUSE - 1)
  let s := (s.noteStatus t.msg status).completeUse t.use status data
  s.pumpTrk (s.qtr q).waitTrk.length q

/-- A response arrives (R311): it completes its entry if that is in use and the generation matches; otherwise it is late. -/
def State.takeResponse (s : State) (m : Msg) : State :=
  let q := m.tag / 4096 % 4
  let i := m.tag % 4096
  match tget (fun _ => none) (s.qtr q).trk i with
  | some t =>
    if t.msg.gen = m.gen then s.closeTrk q i t m.status m.data
    else (s.count (Reg.STR_CNT_LATE q) 1).report .late q m.tag m.src
  | none => (s.count (Reg.STR_CNT_LATE q) 1).report .late q m.tag m.src

/-- The VC and stream of an engine's request (R328): VC 2 and the stream of its logical Island while a Tide program is loaded,
VC 0 otherwise and for everything the Pilot submits. -/
def State.engVc (s : State) (lisl : Nat) : Nat × Nat := if s.loaded && lisl < 136 then (2, lisl) else (0, 0)

/-- A request message without its tracker fields. -/
def reqMsg (typ vc len : Nat) (masked : Bool) (dst addr : Nat) (ext data : List Byte) : Msg :=
  { typ := typ, vc := vc, len := len, masked := masked, dst := dst, src := 0, tag := 0, gen := 0, hops := 0,
    status := 0, addr := addr, ext := ext, data := data }

/-- The 64-byte line at `addr` of module `mod` for a piece of work: its data once they have come, and whether they are bad;
until then the line is asked for once (R308, R310). -/
def State.remRead (s : State) (q lisl work mod addr : Nat) : Option (List Byte × Bool) × State :=
  match s.remLines.find? (fun l => l.work == work && l.mod == mod && l.addr == addr) with
  | some l => (l.data.map fun d => (d, l.bad), s)
  | none =>
    let (vc, st) := s.engVc lisl
    let s := { s with remLines := s.remLines ++ [RemLine.mk work mod addr none false] }
    (none, s.request q st (reqMsg 1 vc 1 false mod addr [] []) (.read work mod addr))

/-- The byte enables of a masked write: one bit for each byte of the line (R307). -/
def byteEnables (off n : Nat) : Nat := (2 ^ n - 1) * 2 ^ off

/-- The lines that a piece of work has read of another module follow its own writes. -/
def State.patchLines (s : State) (work mod addr : Nat) (bs : List Byte) : State :=
  let line := addr / 64 * 64
  let off := addr - line
  { s with remLines := s.remLines.map fun l =>
    if l.work = work ∧ l.mod = mod ∧ l.addr = line then
      { l with data := l.data.map fun d => d.take off ++ bs ++ d.drop (off + bs.length) } else l }

/-- Writes bytes of one 64-byte line of module `mod` for a piece of work: `en` has a bit for each byte of `bs`, a whole line,
that is written; the WR is masked unless all are (R307). -/
def State.remWrite (s : State) (q lisl work mod line en : Nat) (bs : List Byte) : State :=
  let (vc, st) := s.engVc lisl
  let m :=
    if en = 2 ^ 64 - 1 then reqMsg 3 vc 1 false mod line [] bs
    else reqMsg 3 vc 1 true mod line (List.replicate 8 0 ++ leBytes 8 en) bs
  (s.workOut work).request q st m (.write work)

/-- Sends the answer to a request that Quarter `q` served (R308): on VC 1, or on VC 2 in stream 254 (R328). Without a valid
route to SRC, or over a port that is not ACTIVE, no answer is sent and the requester times out (R309). -/
def State.sendAnswer (s : State) (q : Nat) (m : Msg) (status : Nat) (data : List Byte) : State :=
  let r := m.answer status data
  match s.route q r.dst with
  | some k => if s.portSt k = 4 then s.enqueue k (if r.vc = 2 then 254 else 0) r else s
  | none => s

/-! ### Names of Lagoon blocks of another module -/

/-- The ADDR by which a request names a logical Island's Lagoon in another module (R27, R199). The spec gives no encoding of
the name; the model uses the unmapped addresses from 0x8000_0000_0000 (DESIGN CHOICE, log entry 7). -/
def lagoonName (l off : Nat) : Nat := 0x800000000000 + l * 0x800000 + off

/-- The module physical address that a received request's ADDR reaches: a logical Island's Lagoon through the binding in
force (R27), and every other address as it is. -/
def State.resolveAddr (s : State) (a : Nat) : Option Nat :=
  if 0x800000000000 ≤ a ∧ a < 0x800000000000 + 136 * 0x800000 then
    (s.physOf ((a - 0x800000000000) / 0x800000)).map fun p => lagBase p + (a - 0x800000000000) % 0x800000
  else some a

end Sys2Proof.Machine
end

