-- ==== Sys2Proof/Machine/Chart.lean ====
section
/-! DEFINITION. Charts (chapter 7): the entry's layout (R184), its check (R185), coordinates and bounds (R186, R187), layouts
(R188 to R190), translation and protection (R191 to R193), T1 Charts (R196), distributed tensors (R197 to R199), and reads
and writes of elements through a Chart. -/

namespace Sys2Proof.Machine

/-! ### The entry -/

/-- A Chart entry (R184). `rsv` says that a reserved bit is set. -/
structure Chart where
  base : Nat
  size : List Nat
  stride : List Int
  fmt : Nat
  ndim : Nat
  swz : Nat
  sparse : Bool
  dist : Bool
  t1 : Bool
  pctx : Nat
  ro : Bool
  valid : Bool
  fill : Nat
  sbase : Nat
  botBase : Nat
  blkLog2 : Nat
  botCount : Nat
  pbase : Nat
  rsv : Bool
deriving DecidableEq, Repr

/-- A field of an entry: byte offset, highest and lowest bit. -/
def chartBits (raw off hi lo : Nat) : Nat := bitsOf raw (8 * off + hi) (8 * off + lo)

/-- The bits that R184 names, as a mask of the 1,024-bit entry. -/
def chartMask : Nat :=
  (2 ^ 52 - 1) + (2 ^ (8 * 72) - 1) * 2 ^ (8 * 8) + (2 ^ 17 - 1) * 2 ^ (8 * 0x50) + 2 ^ (8 * 0x50 + 31)
    + (2 ^ 32 - 1) * 2 ^ (8 * 0x54) + (2 ^ 52 - 1) * 2 ^ (8 * 0x58) + (2 ^ 15 - 1) * 2 ^ (8 * 0x60)
    + (2 ^ 5 - 1) * 2 ^ (8 * 0x60 + 16) + (2 ^ 17 - 1) * 2 ^ (8 * 0x64) + (2 ^ 48 - 1) * 2 ^ (8 * 0x68)

/-- Reads a 128-byte entry (R184). -/
def parseChart (raw : Nat) : Chart :=
  { base := chartBits raw 0 51 0
    size := (List.range 6).map fun d => chartBits raw (0x08 + 4 * d) 31 0
    stride := (List.range 6).map fun d => sext 64 (chartBits raw (0x20 + 8 * d) 63 0)
    fmt := chartBits raw 0x50 3 0, ndim := chartBits raw 0x50 6 4, swz := chartBits raw 0x50 8 7
    sparse := chartBits raw 0x50 9 9 == 1, dist := chartBits raw 0x50 10 10 == 1, t1 := chartBits raw 0x50 11 11 == 1
    pctx := chartBits raw 0x50 15 12, ro := chartBits raw 0x50 16 16 == 1, valid := chartBits raw 0x50 31 31 == 1
    fill := chartBits raw 0x54 31 0, sbase := chartBits raw 0x58 51 0, botBase := chartBits raw 0x60 14 0
    blkLog2 := chartBits raw 0x60 20 16, botCount := chartBits raw 0x64 16 0, pbase := chartBits raw 0x68 47 0
    rsv := (raw % 2 ^ 1024) &&& chartMask != raw % 2 ^ 1024 }

/-- Size of dimension d. -/
def Chart.sz (c : Chart) (d : Nat) : Nat := c.size.getD d 0
/-- Stride of dimension d. -/
def Chart.st (c : Chart) (d : Nat) : Int := c.stride.getD d 0

/-- Element bytes of a Chart's format that is not MX. -/
def Chart.eb (c : Chart) : Nat := fmtBytes c.fmt

/-- The requirements of R188 and R190 on a Chart's layout. -/
def Chart.layoutOk (c : Chart) : Bool :=
  let used := (List.range 6).filter fun d => d < c.ndim
  if c.sparse then c.ndim ≥ 2 && c.base % 16 == 0
  else if fmtIsMx c.fmt then
    c.swz == 0 && c.st 0 == 1 && (used.all fun d => d == 0 || c.st d % 32 == 0) && c.base % 8 == 0
  else match c.swz with
    | 0 => true
    | 1 => c.ndim ≥ 2 && c.st 0 % 1024 == 0 && c.st 1 % 1024 == 0 && (used.all fun d => d < 2 || c.st d % 1024 == 0)
        && c.base % 64 == 0
    | 2 => c.st 0 == 1 && (c.st 1 * c.eb) % 2048 == 0 && c.base % 2048 == 0
    | _ => false

/-- The check of R185 for work of module context `ctx`: passes, fails as CHART, or fails as PROT on a PCTX mismatch. -/
inductive ChartChk where
  | ok
  | chart
  | prot
deriving DecidableEq, Repr

/-- Checks a Chart (R185). -/
def Chart.check (c : Chart) (ctx : Nat) : ChartChk :=
  if !c.valid || c.rsv || !fmtOk c.fmt || c.ndim == 0 || c.ndim == 7
      || (List.range 6).any (fun d => d < c.ndim && c.sz d == 0)
      || !c.layoutOk
      || (c.sparse && (c.swz != 1 || fmtIsMx c.fmt || c.fmt == 8))
      || (c.dist && c.t1)
      || (c.dist && (c.blkLog2 < 16 || c.blkLog2 > 26 || c.botBase + c.botCount > 32768)) then .chart
  else if c.pctx != ctx then .prot
  else .ok

/-! ### Coordinates (R186) and layouts (R188) -/

/-- Coordinate of dimension d. -/
def coordAt (x : List Int) (d : Nat) : Int := x.getD d 0

/-- Whether a coordinate is in bounds (R186). -/
def Chart.inBounds (c : Chart) (x : List Int) : Bool :=
  (List.range 6).all fun d =>
    if d < c.ndim then decide (0 ≤ coordAt x d) && decide (coordAt x d < (c.sz d : Int)) else coordAt x d == 0

/-- T(x) of R188. -/
def Chart.tail (c : Chart) (x : List Int) : Int :=
  ((List.range 6).map fun d => if 2 ≤ d ∧ d < c.ndim then coordAt x d * c.st d else 0).sum

/-- The element offset of an in-bounds coordinate (R188). -/
def Chart.off (c : Chart) (x : List Int) : Int :=
  let i0 := coordAt x 0
  let i1 := coordAt x 1
  if fmtIsMx c.fmt then (i0 - i0 % 32) + i1 * c.st 1 + c.tail x
  else match c.swz with
    | 1 => (i0 / 32) * c.st 0 + (i1 / 32) * c.st 1 + 32 * (i1 % 32) + i0 % 32 + c.tail x
    | _ => i0 * c.st 0 + i1 * c.st 1 + c.tail x

/-- The byte offset of an element, or of its MX block, from the Chart's base (R188, R197). -/
def Chart.byteOff (c : Chart) (x : List Int) : Int :=
  if fmtIsMx c.fmt then c.off x / 32 * (mxBytes c.fmt : Int) else c.off x * (c.eb : Int)

/-- Replaces address bits [10:6] under the XOR layout (R188). -/
def xorAddr (a : Int) (i1 : Int) : Int :=
  let n := a.toNat
  let b := n / 64 % 32
  ((n - b * 64 + (b ^^^ (i1 % 32).toNat) * 64 : Nat) : Int)

/-- The device virtual address of an element of a native Chart (R188). -/
def Chart.va (c : Chart) (x : List Int) : Int :=
  let a := (c.base : Int) + c.byteOff x
  if c.swz == 2 && decide (0 ≤ a) then xorAddr a (coordAt x 1) else a

/-- The address of an element's scale byte (R189). -/
def Chart.scaleVa (c : Chart) (x : List Int) : Int :=
  let blocks : Int := ((c.sz 0 + 31) / 32 : Nat)
  let rec go : List Nat → Int
    | [] => 0
    | d :: ds => coordAt x d + (c.sz d : Int) * go ds
  let hi := go ((List.range 6).filter fun d => 1 ≤ d && d < c.ndim)
  (c.sbase : Int) + coordAt x 0 / 32 + blocks * hi

/-- The device virtual address of a SPARSE Chart's tile slot (R190), and the slot's size. -/
def Chart.slotBytes (c : Chart) : Nat := 16 + 1024 * c.eb

/-- Byte offset of the tile slot that holds a coordinate (R190). -/
def Chart.slotOff (c : Chart) (x : List Int) : Int :=
  ((coordAt x 0 / 32) * c.st 0 + (coordAt x 1 / 32) * c.st 1 + c.tail x) * (c.slotBytes : Int)

/-- The linear element index of a coordinate in its Chart, dimension 0 fastest: the index that groups elements for stochastic
rounding (R66). -/
def Chart.linIdx (c : Chart) (x : List Int) : Int :=
  let rec go : List Nat → Int
    | [] => 0
    | d :: ds => coordAt x d + (c.sz d : Int) * go ds
  go ((List.range 6).filter fun d => d < c.ndim)

/-- The coordinate with a linear element index. -/
def Chart.coordOf (c : Chart) (i : Nat) : List Int :=
  let rec go : List Nat → Nat → List Int
    | [], _ => []
    | d :: ds, n => ((n % max 1 (c.sz d) : Nat) : Int) :: go ds (n / max 1 (c.sz d))
  go ((List.range 6).filter fun d => d < c.ndim) i

/-! ### Who accesses -/

/-- Who makes an access through a Chart or a translation: the Quarter whose registers apply, the module context, the logical
Island (0xFF for the Pilot), the ENG code of CHT_ERR_INFO, the REQ class of R287, and the piece of work. -/
structure Acc where
  q : Nat
  ctx : Nat
  lisl : Nat
  eng : Nat
  req : Nat
  work : Nat
deriving DecidableEq, Repr

/-- A failed access: 0 XLATE, 1 PROT, 2 BOT, with the address and the WHY code (R192, R199, R210). -/
structure XFail where
  kind : Nat
  va : Nat
  why : Nat
deriving DecidableEq, Repr

/-- Records a failed access in CHT_ERR of the requester's Quarter (R192, R210). -/
def State.recordX (s : State) (A : Acc) (wr : Bool) (f : XFail) : State :=
  let e := Reg.CHT_ERR A.q
  let any := s.bit e Fd.CHT_ERR_XLATE || s.bit e Fd.CHT_ERR_PROT || s.bit e Fd.CHT_ERR_BOT
  let s := if any then s.setFld e Fd.CHT_ERR_MULTI 1 else
    ((s.setReg (Reg.CHT_ERR_VA_LO A.q) (BitVec.ofNat 32 f.va)).setReg (Reg.CHT_ERR_VA_HI A.q)
      (BitVec.ofNat 32 (f.va / 2 ^ 32 % 2 ^ 20))).setReg (Reg.CHT_ERR_INFO A.q)
      (BitVec.ofNat 32 (A.ctx % 16 + (A.lisl % 256) * 2 ^ 4 + (if wr then 2 ^ 12 else 0) + (A.eng % 8) * 2 ^ 13
        + (f.why % 16) * 2 ^ 16))
  let s := s.setFld e (match f.kind with | 0 => Fd.CHT_ERR_XLATE | 1 => Fd.CHT_ERR_PROT | _ => Fd.CHT_ERR_BOT) 1
  match f.kind with
  | 0 => s.count (Reg.CHT_CNT_XLATE A.q) 1
  | 1 => s.count (Reg.CHT_CNT_PROT A.q) 1
  | _ => s

/-! ### Translation (R191, R192, R193) -/

/-- Whether a page frame lies wholly in the Lagoon, in HBM3E, or in the LPDDR5X region for checkpoint images and spill. -/
def frameOk (a n : Nat) : Bool :=
  (0x40000000 ≤ a && a + n ≤ 0x88000000) || (0x10000000000 ≤ a && a + n ≤ 0x14800000000)
    || (0x20C00000000 ≤ a && a + n ≤ 0x2B400000000)

/-- Whether a page-table entry has a reserved bit set (R191). -/
def pteRsv (e : Nat) : Bool := bitsOf e 11 4 != 0 || bitsOf e 63 48 != 0

/-- What an uncorrectable read, or a bad line from another module, does to the requester (R272, R312): the issuing Island's
plausibility flag is raised; for a Pilot submission the firmware is notified. -/
def State.badRead (s : State) (A : Acc) : State :=
  match s.workIsl A.work with
  | some p => s.raisePlaus p
  | none => if A.lisl = 0xFF then s.report .pilotBad A.work A.req 0 else s

/-- Reads the codewords' conditions (R271, R272): each is checked and recorded once; one that completes with an access error
is recorded as that (R37). -/
def State.touchCws (s : State) (A : Acc) : List Nat → State
  | [] => s
  | a :: r =>
    let k := s.accessKind a false
    let s := if k ≠ 0 then s.accessErr a A.req false k
      else
        let (bad, s) := s.checkCw a A.req A.lisl
        if bad then s.badRead A else s
    s.touchCws A r

/-- The ADDR of a page-table entry. -/
def pteAddr (e : Nat) : Nat := bitsOf e 47 12 * 4096

/-- A page-table entry as a walk reads it: zero where the read completes with an access error (R37). -/
def State.pteNat (s : State) (a : Nat) : Nat := if s.accessKind a false = 0 then s.memNat a 8 else 0

/-- The L0 entry that a walk reads first. -/
def State.l0At (s : State) (q ctx va : Nat) : Nat :=
  bitsOf (s.reg (Reg.CHT_CTX_PT_ROOT q ctx)).toNat 31 16 * 2 ^ 16
    + ((s.reg (Reg.CHT_CTX_PT_ROOTHI q ctx)).toNat % 2 ^ 16) * 2 ^ 32 + 8 * bitsOf va 51 39

/-- Walks a context's page table (R191, R192): the page entry and whether it is a 1 GiB page, or WHY the walk fails. -/
def State.walk (s : State) (q ctx va : Nat) : Except Nat (Nat × Bool) :=
  let root := s.reg (Reg.CHT_CTX_PT_ROOT q ctx)
  if root.toNat % 2 = 0 then .error 9
  else
    let e0 := s.pteNat (s.l0At q ctx va)
    if e0 % 2 = 0 then .error 0
    else if pteRsv e0 then .error 1
    else if bitsOf e0 1 1 = 1 then .error 2
    else
      let e1 := s.pteNat (pteAddr e0 + 8 * bitsOf va 38 30)
      if e1 % 2 = 0 then .error 0
      else if pteRsv e1 then .error 1
      else if bitsOf e1 1 1 = 1 then
        if pteAddr e1 % 2 ^ 30 ≠ 0 then .error 3
        else if !frameOk (pteAddr e1) (2 ^ 30) || pteAddr e1 < 0x88000000 then .error 4
        else .ok (e1, true)
      else
        let e2 := s.pteNat (pteAddr e1 + 8 * bitsOf va 29 21)
        if e2 % 2 = 0 then .error 0
        else if pteRsv e2 then .error 1
        else if bitsOf e2 1 1 = 0 then .error 2
        else if pteAddr e2 % 2 ^ 21 ≠ 0 then .error 3
        else if !frameOk (pteAddr e2) (2 ^ 21) then .error 4
        else .ok (e2, false)

/-- The entries that a walk reads, in order. -/
def State.walkReads (s : State) (q ctx va : Nat) : List Nat :=
  if (s.reg (Reg.CHT_CTX_PT_ROOT q ctx)).toNat % 2 = 0 then []
  else
    let a0 := s.l0At q ctx va
    let e0 := s.pteNat a0
    if e0 % 2 = 0 ∨ pteRsv e0 ∨ bitsOf e0 1 1 = 1 then [a0]
    else
      let a1 := pteAddr e0 + 8 * bitsOf va 38 30
      let e1 := s.pteNat a1
      if e1 % 2 = 0 ∨ pteRsv e1 ∨ bitsOf e1 1 1 = 1 then [a0, a1] else [a0, a1, pteAddr e1 + 8 * bitsOf va 29 21]

/-- What a walk's reads of the page table record (R271, R272); they are reads of the requester that the walk serves (log entry
111). -/
def State.walkTouch (s : State) (A : Acc) (va : Nat) : State := s.touchCws A (s.walkReads A.q A.ctx va)

/-- The page entry for an address: from the Quarter's translation cache, or by a walk that fills it (R193). A cached entry is
used until a CHT_INV that covers it (DESIGN CHOICE among the two that R193 allows, log entry 8). -/
def State.pageOf (s : State) (A : Acc) (va : Nat) : Except Nat (Nat × Bool) × State :=
  let q := A.q
  let ctx := A.ctx
  let vpn := va / 2 ^ 21
  match (s.qtr q).tlb.find? (fun t => t.ctx == ctx && (if t.giga then t.vpn / 512 == vpn / 512 else t.vpn == vpn)) with
  | some t => (if (s.reg (Reg.CHT_CTX_PT_ROOT q ctx)).toNat % 2 = 0 then .error 9 else .ok (t.pte, t.giga), s)
  | none =>
    let s := if (s.reg (Reg.CHT_CTX_PT_ROOT q ctx)).toNat % 2 = 0 then s else s.count (Reg.CHT_CNT_WALK q) 1
    match s.walk q ctx va with
    | .error w => (.error w, s.walkTouch A va)
    | .ok (e, g) =>
      let s := s.walkTouch A va
      let x := s.qtr q
      (.ok (e, g), s.setQtr q { x with tlb := ⟨ctx, vpn, e, g⟩ :: x.tlb })

/-- The device virtual address bits that CHT_ERR_VA keeps of an exact address. -/
def vaBits (a : Int) : Nat := toPat 52 a

/-- Translates a device virtual address (R192): the module physical address, or the failure. -/
def State.xlate (s : State) (A : Acc) (va : Int) (wr : Bool) : Except XFail Nat × State :=
  if va < 0 ∨ va ≥ 2 ^ 52 then (.error ⟨0, vaBits va, 10⟩, s)
  else
    let v := va.toNat
    match s.pageOf A v with
    | (.error w, s) => (.error ⟨0, v, w⟩, s)
    | (.ok (e, g), s) =>
      if !wr && bitsOf e 2 2 == 0 then (.error ⟨1, v, 5⟩, s)
      else if wr && bitsOf e 3 3 == 0 then (.error ⟨1, v, 6⟩, s)
      else if g then (.ok (bitsOf e 47 30 * 2 ^ 30 + v % 2 ^ 30), s)
      else (.ok (pteAddr e + v % 2 ^ 21), s)

/-! ### Where bytes lie -/

/-- Where a piece of an access lies: in this module's memory, in another module, or nowhere (an unbound Lagoon block, which
reads zero and drops writes, R199). -/
inductive Loc where
  | mem (pa : Nat)
  | rem (mod addr : Nat)
  | void
deriving DecidableEq, Repr

/-- A block-owner entry's part of an access (R197, R199): byte D of a distributed tensor. -/
def State.botLoc (s : State) (A : Acc) (c : Chart) (d : Int) : Except XFail Loc :=
  let va := vaBits ((c.base : Int) + d)
  if d < 0 ∨ d / (2 ^ c.blkLog2 : Nat) ≥ (c.botCount : Int) then .error ⟨2, va, 7⟩
  else
    let n := d.toNat
    let idx := c.botBase + n / 2 ^ c.blkLog2
    let off := n % 2 ^ c.blkLog2
    let lo := (s.reg (Reg.CHT_BOT_LO (idx / 8192) (idx % 8192))).toNat
    let hi := (s.reg (Reg.CHT_BOT_HI (idx / 8192) (idx % 8192))).toNat
    let mod := bitsOf lo 9 0
    let kind := bitsOf lo 11 10
    let tgt := bitsOf lo 19 12
    let la := hi * 65536
    if kind = 0 ∨ kind = 3 ∨ bitsOf lo 31 20 ≠ 0 then .error ⟨2, va, 8⟩
    else if kind = 1 then
      if la + 2 ^ c.blkLog2 > 0x800000 ∨ tgt ≥ s.logicalCount then .error ⟨2, va, 8⟩
      else if mod = s.selfId A.q then
        match s.physOf tgt with
        | some p => .ok (.mem (lagBase p + la + off))
        | none => .ok .void
      else .ok (.rem mod (lagoonName tgt (la + off)))
    else
      if tgt > 7 ∨ la < hbmBase tgt ∨ la + 2 ^ c.blkLog2 > hbmBase (tgt + 1) then .error ⟨2, va, 8⟩
      else if mod = s.selfId A.q then .ok (.mem (la + off))
      else .ok (.rem mod (la + off))

/-- A run of bytes that lie together. -/
structure Piece where
  loc : Loc
  n : Nat
deriving DecidableEq, Repr

/-- The pieces of `n` bytes at a device virtual address: split where a 2 MiB page ends. -/
def State.vaPieces (s : State) (A : Acc) (va : Int) (n : Nat) (wr : Bool) : Except XFail (List Piece) × State :=
  let room := 2 ^ 21 - (va % (2 ^ 21 : Int)).toNat
  match s.xlate A va wr with
  | (.error f, s) => (.error f, s)
  | (.ok pa, s) =>
    if n ≤ room then (.ok [⟨.mem pa, n⟩], s)
    else match s.xlate A (va + room) wr with
      | (.error f, s) => (.error f, s)
      | (.ok pb, s) => (.ok [⟨.mem pa, room⟩, ⟨.mem pb, n - room⟩], s)

/-- The pieces of `n` bytes at byte offset `d` of a Chart's element or tile storage; `va` is their device virtual address
(R188, R196, R197). -/
def State.chartPieces (s : State) (A : Acc) (c : Chart) (d va : Int) (n : Nat) (wr : Bool) :
    Except XFail (List Piece) × State :=
  if wr && c.ro then (.error ⟨1, vaBits va, 6⟩, s)
  else if c.t1 then (.ok [⟨.mem ((c.pbase : Int) + d).toNat, n⟩], s)
  else if c.dist then
    let room := 2 ^ c.blkLog2 - (d % ((2 ^ c.blkLog2 : Nat) : Int)).toNat
    match s.botLoc A c d with
    | .error f => (.error f, s)
    | .ok l =>
      if n ≤ room then (.ok [⟨l, n⟩], s)
      else match s.botLoc A c (d + room) with
        | .error f => (.error f, s)
        | .ok l2 => (.ok [⟨l, room⟩, ⟨l2, n - room⟩], s)
  else s.vaPieces A va n wr

/-! ### Reading and writing pieces -/

/-- The outcome of an access: done, failed, or waiting for a line of another module. -/
inductive AcRes (α : Type) where
  | ok (v : α)
  | fail (f : XFail)
  | wait
deriving DecidableEq, Repr

/-- An element as read: its exact value, and its pattern (an MX element's pattern without the scale). -/
structure Elem where
  val : FVal
  pat : Nat
deriving DecidableEq, Repr

/-- The out-of-bounds value of a Chart (R187): FILL, or +0 for an MX format. -/
def Chart.fillElem (c : Chart) : Elem :=
  if fmtIsMx c.fmt then ⟨.fin false 0 0, 0⟩
  else let n := c.fill % 2 ^ fmtBits c.fmt; ⟨decodeFmt c.fmt n, n⟩

/-- The outcome of an element's write: written, dropped out of bounds, or failed (R187). -/
inductive WrRes where
  | ok
  | oob
  | fail (f : XFail)
deriving DecidableEq, Repr

/-- The device virtual address at which the element with a linear index begins, and the random word of an element (R66):
`va` of the first element of the group of 32, and the index in the group. In a native MX Chart whose SIZE[0] is no multiple of
32 that element can lie inside a block; it then begins where its block does (DESIGN CHOICE, log entry 112). -/
def Chart.randOf (c : Chart) (seed tide : Nat) (x : List Int) : Nat :=
  let i := (c.linIdx x).toNat
  let g := c.coordOf (i / 32 * 32)
  let a := if c.dist then (c.base : Int) + c.byteOff g else c.va g
  randWord seed tide (vaBits a) (i % 32)

/-! ### The Island's Chart copies (R182, R183) -/

/-- The address of a Chart entry: the context's table, logical Island, slot (R182). -/
def State.chartEntry (s : State) (q ctx l slot : Nat) : Nat :=
  bitsOf (s.reg (Reg.CHT_CTX_PT_CT q ctx)).toNat 31 12 * 4096
    + ((s.reg (Reg.CHT_CTX_PT_CTHI q ctx)).toNat % 2 ^ 16) * 2 ^ 32 + (64 * l + slot) * 128

/-- The logical Island under which physical Island `p` looks up its Charts: 0 while it is UNTESTED or TESTING (R441). -/
def State.chartIsl (s : State) (p : Nat) : Nat := if s.pstate p = 0 ∨ s.pstate p = 3 then 0 else s.logicalOf p

/-- The context whose Chart table physical Island `p` uses: 15 while it is UNTESTED or TESTING (R441). -/
def State.chartCtx (s : State) (p ctx : Nat) : Nat := if s.pstate p = 0 ∨ s.pstate p = 3 then 15 else ctx

/-- What an Island's read of a Chart entry records (R271, R272): a read by the mesh stop for its logical Island (log entry
111). -/
def State.chartTouch (s : State) (p a : Nat) : State :=
  let (bad, s) := s.checkCws a 6 (s.logicalOf p) 4
  if bad then s.raisePlaus p else s

/-- The Chart entry that physical Island `p` uses for a slot (R183): its copy, or the entry read from the table and kept. -/
def State.chartOf (s : State) (p ctx slot : Nat) : Nat × State :=
  let x := s.isl p
  match x.charts.find? (fun k => k.ctx == ctx && k.slot == slot) with
  | some k => (k.raw, s)
  | none =>
    let a := s.chartEntry (quarterOf p) (s.chartCtx p ctx) (s.chartIsl p) slot
    let raw := if s.accessKind a false = 0 then s.memNat a 128 else 0
    let s := s.chartTouch p a
    (raw, s.setIsl p { s.isl p with charts := ⟨ctx, slot, raw⟩ :: x.charts })

/-- The seed and Tide number that stochastic rounding uses on this module (R66, R325). -/
def State.seed (s : State) : Nat := s.reg64 Reg.TIDE_SEED_LO Reg.TIDE_SEED_HI
/-- The module's Tide number. -/
def State.tideNum (s : State) : Nat := (s.reg Reg.TIDE_NUM).toNat

end Sys2Proof.Machine
end

