-- ==== Sys2Proof/Machine/Fetch.lean ====
section
/-! DEFINITION. Reading many elements of a Chart as one access of an engine: where each element's bytes lie, the lines of
other modules that must have come first, the checks of the symbol code, once for each codeword, and the values (R186 to
R189), with the decoding of SPARSE tiles (R232 to R237). -/

namespace Sys2Proof.Machine

/-! ### Sparse tiles -/

/-- A tile as decoded: the DENSE bit, the POPCOUNT field, the bitmap as a 1,024-bit number (all ones for a DENSE tile), and
its 1,024 element patterns. -/
structure Tile where
  dense : Bool
  popcount : Nat
  bits : Nat
  vals : List Nat
deriving DecidableEq, Repr

/-- DENSE of a tile header (R233). -/
def hdrDense (h : List Byte) : Bool := bitsOf (leNat h) 4 4 == 1
/-- STRUCT of a tile header. -/
def hdrStruct (h : List Byte) : Nat := bitsOf (leNat h) 6 5
/-- POPCOUNT of a tile header: eleven bits as stored. -/
def hdrPop (h : List Byte) : Nat := bitsOf (leNat h) 26 16

/-- P of R235: the values that a packed tile's decoder reads. -/
def packedCount (e pop : Nat) : Nat := min pop (1024 - 128 / e)

/-- The bytes after the header that a decoder reads (R232, R235). -/
def tileBody (e : Nat) (h : List Byte) : Nat :=
  if hdrDense h then 1024 * e else 128 + packedCount e (hdrPop h) * e

/-- Value `j` of a stream of little-endian values of `e` bytes. -/
def valAt (e : Nat) (bs : List Byte) (j : Nat) : Nat := leNat ((bs.drop (j * e)).take e)

/-- Decodes a packed tile's bits in ascending order (R235): `j` is the number of set bits so far, `c` those of this group,
and `o` the sum of min(c_h, N) over the earlier groups. -/
def unpackBits (e P n : Nat) (bits : Nat) (vs : List Byte) : Nat → Nat → Nat → Nat → Nat → List Nat
  | 0, _, _, _, _ => []
  | fuel + 1, b, j, c, o =>
    let (c, o) := if b % 4 = 0 ∧ b ≠ 0 then (0, o + min c n) else (c, o)
    if bits / 2 ^ b % 2 = 0 then 0 :: unpackBits e P n bits vs fuel (b + 1) j c o
    else
      let v := if n = 4 then (if j < P then valAt e vs j else 0)
        else if c < n ∧ o + c < P then valAt e vs (o + c) else 0
      v :: unpackBits e P n bits vs fuel (b + 1) (j + 1) (c + 1) o

/-- Decodes a tile from its header and the bytes after it (R235, R237). -/
def decodeTile (e : Nat) (h body : List Byte) : Tile :=
  if hdrDense h then ⟨true, hdrPop h, 2 ^ 1024 - 1, (List.range 1024).map (valAt e body)⟩
  else
    let bits := leNat (body.take 128)
    let n := match hdrStruct h with | 1 => 2 | 2 => 1 | _ => 4
    ⟨false, hdrPop h, bits, unpackBits e (packedCount e (hdrPop h)) n bits (body.drop 128) 1024 0 0 0 0⟩

/-- Whether a tile of a Chart takes the sparse path (R237). -/
def sparsePath (fmt thresh : Nat) (h : List Byte) : Bool :=
  !hdrDense h && fmt != 7 && decide (hdrPop h ≤ min thresh 1024)

/-! ### Bytes of many pieces -/

/-- The lines of another module that a run of bytes touches. -/
def linesOf (a n : Nat) : List Nat :=
  if n = 0 then [] else (List.range ((a + n - 1) / 64 - a / 64 + 1)).map fun i => (a / 64 + i) * 64

/-- Asks for lines of another module; whether all have come. -/
def State.askLines (s : State) (A : Acc) (mod : Nat) : List Nat → Bool × State
  | [] => (true, s)
  | l :: r =>
    let (d, s) := s.remRead A.q A.lisl A.work mod l
    let (b, s) := s.askLines A mod r
    (d.isSome && b, s)

/-- Asks for every line of other modules that pieces touch; whether all have come. -/
def State.askPieces (s : State) (A : Acc) : List Piece → Bool × State
  | [] => (true, s)
  | p :: r =>
    let (b, s) := match p.loc with
      | .rem m a => s.askLines A m (linesOf a p.n)
      | _ => (true, s)
    let (b', s) := s.askPieces A r
    (b && b', s)

/-- The codewords of this module that pieces touch, each once, in order. -/
def cwsOf (ps : List Piece) : List Nat :=
  (ps.flatMap fun p => match p.loc with
    | .mem pa => (List.range (cwSpan pa p.n)).map fun i => (pa / 32 + i) * 32
    | _ => []).eraseDups

/-- What reading pieces records: the codewords, and one access error for an unbound Lagoon block (R199). -/
def State.touch (s : State) (A : Acc) (ps : List Piece) : State :=
  let s := if ps.any (fun p => p.loc == .void) then s.accessErr 0 A.req false 1 else s
  s.touchCws A (cwsOf ps)

/-- One byte of this module, zero where the access completes with an access error. -/
def State.peekByte (s : State) (a : Nat) : Byte := if s.accessKind a false = 0 then s.byte a else 0

/-- One byte of another module, of a line that has come. -/
def State.peekRem (s : State) (A : Acc) (mod a : Nat) : Byte :=
  match s.remLines.find? (fun l => l.work == A.work && l.mod == mod && l.addr == a / 64 * 64) with
  | some l => ((l.data.getD []).getD (a % 64) 0)
  | none => 0

/-- The bytes of pieces whose remote lines have come. -/
def State.peek (s : State) (A : Acc) (ps : List Piece) : List Byte :=
  ps.flatMap fun p => (List.range p.n).map fun i => match p.loc with
    | .mem pa => s.peekByte (pa + i)
    | .rem m a => s.peekRem A m (a + i)
    | .void => 0

/-! ### Elements -/

/-- An element as an engine takes it: its value and pattern, and whether it counts as zero for K-slice skipping (R103). -/
structure FElem where
  e : Elem
  zero : Bool
deriving DecidableEq, Repr

/-- Where an element's bytes lie: nowhere (out of bounds), in pieces, in a block with its scale byte, or in the tile slot at a
byte offset. -/
inductive Plan where
  | fill
  | plain (ps : List Piece)
  | mx (ps sc : List Piece) (i : Nat)
  | tile (slot : Int) (b : Nat)
deriving DecidableEq, Repr

/-- Plans one element. -/
def State.planElem (s : State) (A : Acc) (c : Chart) (x : List Int) : Except XFail Plan × State :=
  if !c.inBounds x then (.ok .fill, s)
  else if c.sparse then
    (.ok (.tile (c.slotOff x) (32 * (coordAt x 1 % 32).toNat + (coordAt x 0 % 32).toNat)), s)
  else if fmtIsMx c.fmt then
    match s.chartPieces A c (c.byteOff x) ((c.base : Int) + c.byteOff x) (mxBytes c.fmt) false with
    | (.error f, s) => (.error f, s)
    | (.ok ps, s) =>
      match s.vaPieces A (c.scaleVa x) 1 false with
      | (.error f, s) => (.error f, s)
      | (.ok sc, s) => (.ok (.mx ps sc (coordAt x 0 % 32).toNat), s)
  else
    match s.chartPieces A c (c.byteOff x) (c.va x) c.eb false with
    | (.error f, s) => (.error f, s)
    | (.ok ps, s) => (.ok (.plain ps), s)

/-- Plans elements in order, up to the first that fails. -/
def State.planElems (s : State) (A : Acc) (c : Chart) : List (List Int) → Except XFail (List Plan) × State
  | [] => (.ok [], s)
  | x :: xs =>
    match s.planElem A c x with
    | (.error f, s) => (.error f, s)
    | (.ok p, s) =>
      match s.planElems A c xs with
      | (.error f, s) => (.error f, s)
      | (.ok ps, s) => (.ok (p :: ps), s)

/-- The pieces that plans name. -/
def plansPieces (ps : List Plan) : List Piece :=
  ps.flatMap fun p => match p with
    | .plain ps => ps
    | .mx ps sc _ => ps ++ sc
    | _ => []

/-- The tile slots that plans name, each once, in order. -/
def planSlots (ps : List Plan) : List Int :=
  (ps.filterMap fun p => match p with | .tile d _ => some d | _ => none).eraseDups

/-- The pieces of `n d` bytes from offset `o` of each tile slot. -/
def State.slotPieces (s : State) (A : Acc) (c : Chart) (o : Nat) (n : Int → Nat) :
    List Int → Except XFail (List (Int × List Piece)) × State
  | [] => (.ok [], s)
  | d :: ds =>
    match s.chartPieces A c (d + o) ((c.base : Int) + d + o) (n d) false with
    | (.error f, s) => (.error f, s)
    | (.ok ps, s) =>
      match s.slotPieces A c o n ds with
      | (.error f, s) => (.error f, s)
      | (.ok r, s) => (.ok ((d, ps) :: r), s)

/-- A tile slot as read: its header, and its decoded tile unless only the header was read. -/
structure SlotRead where
  slot : Int
  hdr : List Byte
  tile : Option Tile
deriving DecidableEq, Repr

/-- The pieces of a list of slots. -/
def slotAll (l : List (Int × List Piece)) : List Piece := l.flatMap (·.2)

/-- Reads tile slots (R232, R235). A slot for which `only` holds of its header is read no further. A `quiet` reading leaves the
checks of the symbol code to a later one. -/
def State.readSlots (s : State) (A : Acc) (c : Chart) (quiet : Bool) (only : List Byte → Bool) (ds : List Int) :
    AcRes (List SlotRead) × State :=
  match s.slotPieces A c 0 (fun _ => 16) ds with
  | (.error f, s) => (.fail f, s.recordX A false f)
  | (.ok hs, s) =>
    match s.askPieces A (slotAll hs) with
    | (false, s) => (.wait, s)
    | (true, s) =>
      let hdrs := hs.map fun h => (h.1, s.peek A h.2)
      let hdr (d : Int) : List Byte := ((hdrs.find? (·.1 == d)).map (·.2)).getD []
      let more := ds.filter fun d => !only (hdr d)
      match s.slotPieces A c 16 (fun d => tileBody c.eb (hdr d)) more with
      | (.error f, s) => (.fail f, s.recordX A false f)
      | (.ok bs, s) =>
        match s.askPieces A (slotAll bs) with
        | (false, s) => (.wait, s)
        | (true, s) =>
          let s := if quiet then s else s.touch A (slotAll hs ++ slotAll bs)
          (.ok (ds.map fun d => ⟨d, hdr d,
            ((bs.find? (·.1 == d)).map fun b => decodeTile c.eb (hdr d) (s.peek A b.2))⟩), s)

/-- The value of a planned element. -/
def State.planVal (s : State) (A : Acc) (c : Chart) (slots : List SlotRead) : Plan → FElem
  | .fill => ⟨c.fillElem, !fmtIsMx c.fmt && c.fillElem.val.isZero⟩
  | .plain ps => let n := leNat (s.peek A ps); ⟨⟨decodeFmt c.fmt n, n⟩, false⟩
  | .mx ps sc i =>
    let e := mxElem c.fmt (s.peek A ps) i
    ⟨⟨mxVal c.fmt (leNat (s.peek A sc)) e, e⟩, false⟩
  | .tile d b =>
    match slots.find? (·.slot == d) with
    | some ⟨_, _, some t⟩ =>
      let n := t.vals.getD b 0
      ⟨⟨decodeFmt c.fmt n, n⟩, t.bits / 2 ^ b % 2 == 0⟩
    | _ => ⟨⟨decodeFmt c.fmt 0, 0⟩, true⟩

/-- Reads the elements at a list of coordinates as one access: every element, or the first failure, or waiting for lines of
another module. `thresh` is the Landing's path choice for operand A of a matrix instruction (R237): a sparse-path tile reads
as zeros, from its header alone. -/
def State.fetch (s : State) (A : Acc) (c : Chart) (thresh : Option Nat) (xs : List (List Int)) :
    AcRes (List FElem) × State :=
  match s.planElems A c xs with
  | (.error f, s) => (.fail f, s.recordX A false f)
  | (.ok plans, s) =>
    let only (h : List Byte) : Bool := match thresh with
      | some t => sparsePath c.fmt t h
      | none => false
    match s.readSlots A c false only (planSlots plans) with
    | (.fail f, s) => (.fail f, s)
    | (.wait, s) => (.wait, s)
    | (.ok slots, s) =>
      match s.askPieces A (plansPieces plans) with
      | (false, s) => (.wait, s)
      | (true, s) =>
        let s := s.touch A (plansPieces plans)
        (.ok (plans.map (s.planVal A c slots)), s)

/-- Reads `n` bytes at a device virtual address as one access. -/
def State.fetchVa (s : State) (A : Acc) (va : Int) (n : Nat) : AcRes (List Byte) × State :=
  match s.vaPieces A va n false with
  | (.error f, s) => (.fail f, s.recordX A false f)
  | (.ok ps, s) =>
    match s.askPieces A ps with
    | (false, s) => (.wait, s)
    | (true, s) =>
      let s := s.touch A ps
      (.ok (s.peek A ps), s)

/-! ### Writing -/

/-- Bytes that an access writes: for each, 0 for this module and the id plus 1 for another one, the address, the byte. -/
abbrev WBytes := List (Nat × Nat × Byte)

/-- The address that stands for an unbound Lagoon block (R199). -/
def voidAddr : Nat := 2 ^ 64

/-- Puts bytes where pieces lie, at once; what is left for the end of the access is in `State.commit`. A write that completes
with an access error changes nothing. -/
def State.putPieces (s : State) (A : Acc) : List Piece → List Byte → WBytes × State
  | [], _ => ([], s)
  | p :: ps, bs =>
    let d := bs.take p.n
    let (w, s) : WBytes × State := match p.loc with
      | .void => ([(0, voidAddr, 0)], s)
      | .mem pa => ((List.range d.length).map fun i => (0, pa + i, d.getD i 0),
          if s.accessKind pa true = 0 then s.store pa d else s)
      | .rem m a => ((List.range d.length).map fun i => (m + 1, a + i, d.getD i 0),
          (List.range d.length).foldl (fun s i => s.patchLines A.work m (a + i) [d.getD i 0]) s)
    let (w', s) := s.putPieces A ps (bs.drop p.n)
    (w ++ w', s)

/-- The codeword effects of bytes that an access has written (R273): a codeword written in full is clean, and a partial write
reads it once. -/
def State.commitCws (s : State) (A : Acc) (as : List Nat) : List Nat → State
  | [] => s
  | cw :: r =>
    let k := s.accessKind cw true
    let s := if k ≠ 0 then s.accessErr cw A.req true k
      else
        let full := (List.range 32).all fun i => as.contains (cw + i)
        let (bad, s) := s.writeCw cw (if full then cw else cw + 1) (cw + 32) A.req A.lisl
        if bad then s.badRead A else s
    s.commitCws A as r

/-- Sends the bytes that an access has written to other modules, one WR for each line. -/
def State.commitLines (s : State) (A : Acc) (w : WBytes) : List (Nat × Nat) → State
  | [] => s
  | (m, line) :: r =>
    let mine := w.filter fun b => b.1 == m && b.2.1 / 64 * 64 == line
    let (bs, en) := mine.foldl (fun (a : List Byte × Nat) b => (a.1.set (b.2.1 % 64) b.2.2, a.2 ||| 2 ^ (b.2.1 % 64)))
      (List.replicate 64 0, 0)
    (s.remWrite A.q A.lisl A.work (m - 1) line en bs).commitLines A w r

/-- Ends an access that has put bytes. -/
def State.commit (s : State) (A : Acc) (w : WBytes) : State :=
  let void (b : Nat × Nat × Byte) : Bool := b.1 == 0 && b.2.1 == voidAddr
  let s := if w.any void then s.accessErr 0 A.req true 1 else s
  let here := (w.filter fun b => b.1 == 0 && !void b).map (·.2.1)
  let s := s.commitCws A here (here.map fun a => a / 32 * 32).eraseDups
  s.commitLines A w ((w.filter (·.1 != 0)).map fun b => (b.1, b.2.1 / 64 * 64)).eraseDups

/-- Puts an element's pattern at a coordinate of a Chart that is neither MX nor SPARSE. -/
def State.putElem (s : State) (A : Acc) (c : Chart) (x : List Int) (pat : Nat) : WrRes × WBytes × State :=
  if !c.inBounds x then (.oob, [], s)
  else
    match s.chartPieces A c (c.byteOff x) (c.va x) c.eb true with
    | (.error f, s) => (.fail f, [], s.recordX A true f)
    | (.ok ps, s) =>
      let (w, s) := s.putPieces A ps (leBytes c.eb pat)
      (.ok, w, s)

/-- Puts an MX block and its scale byte at the block of a coordinate (R169, R189). -/
def State.putBlock (s : State) (A : Acc) (c : Chart) (x : List Int) (scale : Nat) (es : List Nat) : WrRes × WBytes × State :=
  if !c.inBounds x then (.oob, [], s)
  else
    match s.chartPieces A c (c.byteOff x) ((c.base : Int) + c.byteOff x) (mxBytes c.fmt) true with
    | (.error f, s) => (.fail f, [], s.recordX A true f)
    | (.ok ps, s) =>
      match s.vaPieces A (c.scaleVa x) 1 true with
      | (.error f, s) => (.fail f, [], s.recordX A true f)
      | (.ok sc, s) =>
        let (w, s) := s.putPieces A ps (mxPack c.fmt es)
        let (w', s) := s.putPieces A sc [BitVec.ofNat 8 scale]
        (.ok, w ++ w', s)

end Sys2Proof.Machine
end

