-- ==== Sys2Proof/Machine/Access.lean ====
section
/-! DEFINITION. Who may write what (R155, R392, R434, R466, R491, R502): the test that every register write of a requester
passes before it acts, and what happens to one that fails it. -/

namespace Sys2Proof.Machine

/-- The REQ code of a requester (R287). The management port's service has none; the model takes that of the Pilot, whose
mailbox and window rules it follows (DESIGN CHOICE, log entry 21). -/
def reqCode : Requester → Nat
  | .shore _ => 8
  | .pilot _ => 9
  | .debug => 12
  | .mgmt => 9

/-- Whether an address lies in mailbox registers IN or DB of mailboxes `lo` to `hi`. -/
def inMbx (lo hi a : Nat) : Bool :=
  decide (modWin + 0x1000 + lo * 0x100 ≤ a) && decide (a < modWin + 0x1000 + (hi + 1) * 0x100)
    && (decide (a % 0x100 < 0x40) || a % 0x100 == 0x80)

/-- Whether an address lies in the window of an expert-level block (R392). -/
def expertWin (a : Nat) : Bool :=
  (decide (0x1000000 ≤ a) && decide (a < 0x2000000)) || (decide (0x4000000 ≤ a) && decide (a < 0x4900000))
    || (decide (0x5000000 ≤ a) && decide (a < 0x5400000)) || (decide (modWin + 0x40000 ≤ a) && decide (a < modWin + 0x50000))

/-- Whether an address is a BUOY_VAL register. -/
def isBuoyVal (a : Nat) : Bool := decide (0x1000000 ≤ a) && decide (a < 0x2000000) && a % 256 == 0

/-- Base of management window `w`. -/
def State.mgtWinBase (s : State) (w : Nat) : Nat :=
  (s.reg (Reg.MGT_WIN_LO w)).toNat / 4096 * 4096 + ((s.reg (Reg.MGT_WIN_HI w)).toNat % 2 ^ 16) * 2 ^ 32
/-- Size of management window `w`; 0 means that it is not valid. -/
def State.mgtWinSize (s : State) (w : Nat) : Nat := s.fld (Reg.MGT_WIN_SIZE w) Fd.MGT_WIN_SIZE_SIZE * 4096

/-- Whether the management service may access `n` bytes at `a` (R502): wholly inside one permitted area. -/
def State.mgmtArea (s : State) (a n : Nat) (wr : Bool) : Bool :=
  let inside (lo hi : Nat) : Bool := decide (lo ≤ a) && decide (a + n ≤ hi)
  let mbx (m : Nat) : Bool :=
    let b := modWin + 0x1000 + m * 0x100
    inside b (b + 0x40) || inside (b + 0x80) (b + 0x84) || (!wr && inside b (b + 0x84))
  if s.bit Reg.BOOT_STATUS Fd.BOOT_STATUS_RECOVERY then inside 0x400000 0x800000 || inside Reg.BOOT_RCV (Reg.BOOT_RCV + 4)
  else
    mbx 6 || mbx 7
      || ((List.range 4).any fun w =>
        s.mgtWinSize w != 0 && inside (s.mgtWinBase w) (s.mgtWinBase w + s.mgtWinSize w))
      || (if wr then inside Reg.MGT_PCAP (Reg.MGT_PCAP + 4) else inside (modWin + 0x20000) (modWin + 0x200B0))

/-- Whether an address lies in the SHR_ block, which only the Pilot cores write (R435), and the debug path with their rights. -/
def isShr (a : Nat) : Bool := decide (modWin + 0x10000 ≤ a) && decide (a < modWin + 0x20000)

/-- Whether a requester is the client of mailbox `m` (R394): the only one that writes IN (R434). -/
def mbxClient (r : Requester) (m : Nat) : Bool :=
  match r with
  | .shore _ => decide (m < 6)
  | .mgmt => decide (6 ≤ m)
  | _ => false

/-- Whether a requester may write the register at `a`. -/
def State.mayWrite (s : State) (r : Requester) (a : Nat) : Bool :=
  match r with
  | .pilot _ => true
  | .debug => true
  | .shore _ =>
    inMbx 0 5 a || a == Reg.PLT_RDB
      || (expertWin a && s.bit Reg.PLT_SHRWR Fd.PLT_SHRWR_EN && !isBuoyVal a && a != Reg.ISL_TEST_CTL)
  | .mgmt => s.mgmtArea a 4 true && !isBuoyVal a && a != Reg.ISL_TEST_CTL && !isShr a

/-- A register write that its requester may not make is dropped and recorded as an access error (R392). -/
def State.denied (s : State) (r : Requester) (a : Nat) : State :=
  (s.accessErr a (reqCode r) true 3).respond (.err 3 [])

/-- Performs a register write if its requester may make it. While the module is off there is no requester and no register. -/
def State.guarded (s : State) (r : Requester) (a : Nat) (act : State → State) : State :=
  if !s.up then s else if s.mayWrite r a then act s else s.denied r a

end Sys2Proof.Machine
end

