-- ==== Sys2Proof/Machine/BuoyOps.lean ====
section
/-! DEFINITION. The Buoy units (chapter 5): ports (R153), the operations of one cycle on one Buoy (R148 to R154), records
(R157, R158), waits and releases (R152), and sending an operation from a signal queue (R137) or a clamp (R130). -/

namespace Sys2Proof.Machine

/-- The largest count (R147). -/
def buoyMax : Nat := 0x7FFFFFFF

/-- The port of Quarter `home`'s Buoy unit on which an operation from Quarter `q` arrives over the Isthmus: 37 to 39, in
ascending Quarter number of the other three. -/
def isthmusPort (home q : Nat) : Nat := 37 + (if q < home then q else q - 1)

/-- The port on which an operation of physical Island `p` arrives at Quarter `home`. -/
def islPort (home p : Nat) : Nat := if quarterOf p = home then p % 36 + 1 else isthmusPort home (quarterOf p)

/-- The port on which an operation that Strait port `k` received arrives at Quarter `home`. -/
def straitPort (home k : Nat) : Nat := if portQ k = home then 40 + portK k else isthmusPort home (portQ k)

/-- Count of Buoy `b` of Quarter `q`. -/
def State.buoy (s : State) (q b : Nat) : Nat := s.fld (Reg.BUOY_VAL (16384 * q + b)) Fd.BUOY_VAL_COUNT

/-- Sets the count of Buoy `b` of Quarter `q`. -/
def State.setBuoy (s : State) (q b v : Nat) : State := s.setFld (Reg.BUOY_VAL (16384 * q + b)) Fd.BUOY_VAL_COUNT v

/-- Writes the last-signaller records of a Buoy, which describe one operation (R157). -/
def State.recordSig (s : State) (q b mod lisl sctx kind port pc val : Nat) : State :=
  let g := 16384 * q + b
  ((s.setReg (Reg.BUOY_LSIG_SRC g) (BitVec.ofNat 32 (mod % 1024 + (lisl % 256) * 2 ^ 10 + (sctx % 2) * 2 ^ 18
    + (kind % 8) * 2 ^ 19 + (port % 64) * 2 ^ 22))).setReg (Reg.BUOY_LSIG_INFO g)
    (BitVec.ofNat 32 (pc % 2 ^ 14 + ((s.reg Reg.TIDE_NUM).toNat % 2 ^ 16) * 2 ^ 16))).setReg (Reg.BUOY_LSIG_VAL g)
    (BitVec.ofNat 32 val)

/-- Records an arrival as a Buoy's last operation. -/
def State.recordArr (s : State) (q : Nat) (a : BuoyArr) : State :=
  s.recordSig q a.bidx a.mod a.lisl a.sctx (if a.kind = 4 then 4 else if a.kind = 2 then 2 else 1) a.port a.pc
    (if a.kind = 2 then 0 else toPat 32 a.val)

/-- The fault INFO of an underflow (R145): BIDX in bits [13:0], LISL in bits [21:14]. -/
def underInfo (bidx lisl : Nat) : Nat := bidx % 2 ^ 14 + (lisl % 256) * 2 ^ 14

/-- Answers an applied, or refused, operation: a local one completes its work, and an underflow stops its context; a remote
one is answered with a CPL (R126, R149, R308). -/
def State.answerArr (s : State) (q : Nat) (a : BuoyArr) (underflow : Bool) : State :=
  match a.answer with
  | some m => s.sendAnswer q m (if underflow then 4 else 0) []
  | none =>
    match a.src with
    | some (p, c, w) =>
      (if underflow then s.seqFault p c 0x0D a.pc (underInfo a.bidx a.tl) else s).workDone w
    | none => s

/-- Releases the waits on a Buoy whose threshold its count meets (R152). -/
def State.releaseWaits (s : State) (q b : Nat) : State :=
  let n : Int := s.buoy q b
  let x := s.qtr q
  let ready := x.waits.filter fun w => w.bidx == b && decide (w.thr ≤ n)
  if ready.isEmpty then s
  else
    let s := s.setQtr q { x with
      waits := x.waits.filter fun w => !(w.bidx == b && decide (w.thr ≤ n))
      releases := x.releases ++ ready.map fun w => (w.p, w.c) }
    let a := Reg.BUOY_LWAIT_SRC (16384 * q + b)
    let s := if ready.any (fun w => s.fld a Fd.BUOY_LWAIT_SRC_LISL == s.logicalOf w.p
        && s.fld a Fd.BUOY_LWAIT_SRC_SCTX == w.c) then s.setFld a Fd.BUOY_LWAIT_SRC_PENDING 0 else s
    s.syncWaiters q b

/-- Trigger Buoy and threshold of a bucket entry (R347): logical Island, index, threshold. -/
def bktTrigger (raw : Nat) : Nat × Nat × Nat :=
  (bitsOf raw (8 * 28 + 21) (8 * 28 + 14), bitsOf raw (8 * 28 + 13) (8 * 28), bitsOf raw (8 * 24 + 31) (8 * 24 + 8))

/-- Buckets whose trigger Buoy is this one and has reached its threshold trigger, in ascending table index (R349, R350); the record of the last wait, if it is one of theirs, is no
longer pending (R157). -/
def State.triggerBkts (s : State) (q b : Nat) : State :=
  let n := s.buoy q b
  (List.range 8).foldl (fun s ch =>
    let x := s.chan ch
    let hit := x.waiting.filter fun i =>
      let (l, bi, thr) := bktTrigger (tget (fun _ => 0) s.tide.buckets i)
      bi == b && s.home l == q && decide (thr ≤ n)
    let a := Reg.BUOY_LWAIT_SRC (16384 * q + b)
    let last := s.fld a Fd.BUOY_LWAIT_SRC_LISL == 0xFF && hit.any fun i =>
      (s.reg (Reg.BUOY_LWAIT_THR (16384 * q + b))).toNat == (bktTrigger (tget (fun _ => 0) s.tide.buckets i)).2.2
    let s := if last then s.setFld a Fd.BUOY_LWAIT_SRC_PENDING 0 else s
    if hit.isEmpty then s
    else s.setChan ch { x with waiting := x.waiting.filter fun i => !(hit.contains i), trig := x.trig ++ hit }) s

/-- Everything that follows a new count of a Buoy. -/
def State.buoyChanged (s : State) (q b : Nat) : State := (s.releaseWaits q b).triggerBkts q b

/-- Applies resets: two in one cycle act as one (R151, R153, R154). -/
def State.applyResets (s : State) (q b : Nat) (ops : List BuoyArr) : State :=
  if ops.isEmpty then s
  else ops.foldl (fun s a => ((s.recordArr q a).answerArr q a false).count (Reg.BUOY_CNT_OPS q) 1) (s.setBuoy q b 0)

/-- Applies every signal of a cycle together, their sum saturating (R148, R153). -/
def State.applySignals (s : State) (q b : Nat) (ops : List BuoyArr) : State :=
  if ops.isEmpty then s
  else
    let t := s.buoy q b + (ops.map fun a => a.val.toNat).sum
    let s := s.setBuoy q b (min t buoyMax)
    let s := if t > buoyMax then
        ((s.setFld (Reg.BUOY_FLAGS (16384 * q + b)) Fd.BUOY_FLAGS_SAT 1).setFld (Reg.BUOY_ERR q) Fd.BUOY_ERR_SAT 1).report
          .buoySat q b 0
      else s
    ops.foldl (fun s a => ((s.recordArr q a).answerArr q a false).count (Reg.BUOY_CNT_OPS q) 1) s

/-- Records an underflow (R149, R158). -/
def State.recordUnder (s : State) (q : Nat) (a : BuoyArr) : State :=
  let s := s.setFld (Reg.BUOY_FLAGS (16384 * q + a.bidx)) Fd.BUOY_FLAGS_UNDER 1
  let s := if s.bit (Reg.BUOY_ERR q) Fd.BUOY_ERR_UNDER then s else
    s.setReg (Reg.BUOY_ERR_ID q) (BitVec.ofNat 32 (a.bidx % 2 ^ 14 + (a.port % 64) * 2 ^ 14 + (a.mod % 1024) * 2 ^ 20))
  let s := s.setErr (Reg.BUOY_ERR q) Fd.BUOY_ERR_UNDER Fd.BUOY_ERR_MULTI
  (s.count (Reg.BUOY_CNT_UNDER q) 1).report .buoyUnder q a.bidx a.port

/-- Applies one decrement (R149): it subtracts, or underflows and is not applied. -/
def State.applyDec (s : State) (q b : Nat) (a : BuoyArr) : State :=
  let n := s.buoy q b
  let d := a.val.natAbs
  if d ≤ n then (((s.setBuoy q b (n - d)).recordArr q a).answerArr q a false).count (Reg.BUOY_CNT_OPS q) 1
  else (s.recordUnder q a).answerArr q a true

/-- Applies the operations of one cycle on one Buoy in the order of R153. -/
def State.applyBuoy (s : State) (q b : Nat) (ops : List BuoyArr) : State :=
  let s := s.applyResets q b (ops.filter (·.kind == 2))
  let s := s.applySignals q b (ops.filter fun a => a.kind != 2 && decide (0 ≤ a.val))
  let s := (ops.filter fun a => a.kind != 2 && decide (a.val < 0)).foldl (fun s a => s.applyDec q b a) s
  s.buoyChanged q b

/-- The operations that a Buoy unit takes in one cycle, in ascending port order: the oldest of each port. -/
def cycleOps (l : List BuoyArr) : List BuoyArr :=
  (List.range 44).filterMap fun p => l.find? (·.port == p)

/-- The operations left after a cycle: the oldest of each port is gone. -/
def cycleRest : List Nat → List BuoyArr → List BuoyArr
  | _, [] => []
  | seen, a :: r => if seen.contains a.port then a :: cycleRest seen r else cycleRest (a.port :: seen) r

/-- One cycle of Quarter `q`'s Buoy unit (R153). -/
def State.buoyCycle (s : State) (q : Nat) : State :=
  let x := s.qtr q
  let ops := cycleOps x.arrivals
  let s := s.setQtr q { x with arrivals := cycleRest [] x.arrivals }
  (ops.map (·.bidx)).dedup.foldl (fun s b => s.applyBuoy q b (ops.filter (·.bidx == b))) s

/-- An operation arrives at a Buoy unit. -/
def State.buoyArrive (s : State) (q : Nat) (a : BuoyArr) : State :=
  let x := s.qtr q
  s.setQtr q { x with arrivals := x.arrivals ++ [a] }

end Sys2Proof.Machine
end

