-- ==== Sys2Proof/Machine/LogOps.lean ====
section
/-! DEFINITION. The firmware's log ring and trace points (R424 to R426), and a software write of a register's fields (R16, R17). -/

namespace Sys2Proof.Machine

/-! ### Registers by their map -/

/-- A software write of a register that acts on its fields only (R16, R17); where the map has no register, nothing. -/
def State.swWrite (s : State) (a : Nat) (v : Word) : State :=
  match regRow? a with
  | some r => s.setReg a (r.swWrite (s.reg a) v)
  | none => s

/-- A software write that keeps the fields of `keep` (those that the rules of the register protect at that moment). -/
def State.swWriteKeep (s : State) (a : Nat) (keep : List Fld) (v : Word) : State :=
  let old := s.reg a
  let s := s.swWrite a v
  keep.foldl (fun s f => s.setFld a f (f.get old)) s

/-! ### The log ring (R424, R425) -/

/-- Base of the log ring in force. -/
def State.logBase (s : State) : Nat := if s.fw.logBase = 0 then 0x600000 else s.fw.logBase

/-- Nanoseconds since start-up, from the ARR cycles that passed (log entry 20). -/
def State.nanos (s : State) : Nat := s.cycle * 50 / 47

/-- Writes a log record: envelope and body (R425); the oldest entry is overwritten. -/
def State.log (s : State) (cls : Nat) (body : List Byte) : State :=
  let base := s.logBase
  let n := s.fw.logWr
  let ent := leBytes 4 n ++ leBytes 1 cls ++ leBytes 1 s.fw.duty ++ leBytes 2 0 ++ leBytes 8 s.nanos
    ++ (body ++ List.replicate 48 0).take 48
  let lost := s.memNat (base + 8) 4
  let s := if s.fw.logBase = 0 ∧ n ≥ 2 ^ s.fw.logLog2 then (s.writeMem (base + 8) (leBytes 4 (lost + 1)) 9 0xFF).2 else s
  let s := (s.writeMem (base + 64 + 64 * (n % 2 ^ s.fw.logLog2)) ent 9 0xFF).2
  let s := (s.writeMem base (leBytes 8 (n + 1)) 9 0xFF).2
  { s with fw := { s.fw with logWr := n + 1 } }

/-- A trace point (R426): a record only while the point is enabled. -/
def State.tracePt (s : State) (pt : Nat) (args : List Nat) : State :=
  if s.fw.trace.contains pt then s.log 5 (leBytes 2 pt ++ leBytes 6 0 ++ (args.map (leBytes 8)).flatten) else s

/-- The Tide number at which a record is written. -/
def State.tideWord (s : State) : Nat := (s.reg Reg.TIDE_NUM).toNat

/-! ### Mailbox messages of the Pilot (R396) -/

/-- Queues a message of 64 bytes to be written to OUT of mailbox `m`. -/
def State.mbxSend (s : State) (m : Nat) (bs : List Byte) : State :=
  let q := tget (fun _ => []) s.fw.mbxOut m
  let ws := (List.range 16).map fun i => leNat (((bs ++ List.replicate 64 0).drop (4 * i)).take 4)
  { s with fw := { s.fw with mbxOut := tset (fun _ => []) s.fw.mbxOut m (q ++ [ws]) } }

/-- NOTIFY on every open mailbox, one that a HELLO has opened: 1 context fenced, 2 recovered, 3 HALT verdict, 4 restore
requested (R396, R431). -/
def State.notify (s : State) (event arg : Nat) : State :=
  (List.range 8).foldl (fun s m =>
    match tget (fun _ => none) s.fw.mbxCtx m with
    | some _ => s.mbxSend m (leBytes 2 5 ++ leBytes 2 event ++ leBytes 4 0 ++ leBytes 8 arg)
    | none => s) s

end Sys2Proof.Machine
end

