-- ==== Sys2Proof/Machine/Export.lean ====
section
/-! DEFINITION. What the firmware makes of events: memory, link and state records (R286, R321, R423), their way to fault handling,
their export as CPER records (R463, R464), and the messages to the manager over VC 3 (R318, R464). -/

namespace Sys2Proof.Machine

/-- Powered-on seconds since manufacture: those of the block and those since start-up (log entry 20). -/
def State.ontime (s : State) : Nat := s.fw.hist.ontime + s.cycle / 940000000

/-- Changes the history. -/
def State.setHist (s : State) (h : Hist) : State := { s with fw := { s.fw with hist := h } }

/-! ### Messages of VC 3 (R316) -/

/-- Splits bytes into fragments of 256, with at least one. -/
def fragments : Nat → List Byte → List (List Byte)
  | 0, _ => []
  | n + 1, l => if l.length ≤ 256 then [l] else l.take 256 :: fragments n (l.drop 256)

/-- The MGMT message of one fragment (R316). -/
def mgmtMsg (src dst kind i n : Nat) (data : List Byte) : Msg :=
  let len := (data.length + 63) / 64
  { typ := 7, vc := 3, len := len, masked := false, dst := dst, src := src, tag := 0, gen := 0, hops := 0, status := 0,
    addr := kind % 256 + (i % 2 ^ 16) * 2 ^ 16 + (n % 2 ^ 16) * 2 ^ 32, ext := [],
    data := data ++ List.replicate (64 * len - data.length) 0 }

/-- Sends bytes to module `dst` through port `k` in fragments (R316). -/
def State.sendFrags (s : State) (k dst kind : Nat) (bs : List Byte) : State :=
  let fs := fragments 64 bs
  fs.zipIdx.foldl (fun s f => s.enqueue k 0 (mgmtMsg (s.selfId (portQ k)) dst kind f.2 fs.length f.1)) s

/-- The port that a message to module `dst` takes, when port `except` may not: that of the route, else the lowest port that
carries VC 3 (R318). -/
def State.vc3Port (s : State) (except : Option Nat) (dst : Nat) : Option Nat :=
  let open3 (k : Nat) : Bool := (s.portSt k == 3 || s.portSt k == 4) && except != some k
  match (s.route 0 dst).filter open3 with
  | some k => some k
  | none => (List.range 16).find? open3

/-- A report to the manager (R318, R384, R431, R451, R464): over VC 3, or kept at once where this module is the manager. The spec
numbers no kinds of MGMT beside the hello's; the model takes 3 to 7 (DESIGN CHOICE, log entry 120). Without a manager, or a port
that carries VC 3, it goes nowhere. -/
def State.toManager (s : State) (except : Option Nat) (kind : Nat) (bs : List Byte) : State :=
  match s.fw.manager with
  | 0 => s
  | id + 1 =>
    if id = s.selfId 0 then { s with fw := { s.fw with inbox := s.fw.inbox ++ [⟨id, kind, 0, 1, bs⟩] } }
    else match s.vc3Port except id with
      | some k => s.sendFrags k id kind bs
      | none => s

/-! ### CPER records (R463, R464) -/

/-- GUID 6b2f0d81-3c94-4e57-a1d2-90e4c37f5a18 as CPER stores it. -/
def cperCreator : List Byte :=
  [0x81, 0x0D, 0x2F, 0x6B, 0x94, 0x3C, 0x57, 0x4E, 0xA1, 0xD2, 0x90, 0xE4, 0xC3, 0x7F, 0x5A, 0x18]
/-- Notification type CMC. -/
def cperCmc : List Byte :=
  [0xB1, 0x8B, 0xCE, 0x2D, 0xD7, 0xBD, 0x0E, 0x45, 0xB9, 0xAD, 0x9C, 0xF4, 0xEB, 0xD4, 0xF8, 0x90]
/-- Notification type MCE. -/
def cperMce : List Byte :=
  [0xFE, 0x6F, 0xF5, 0xE8, 0x9C, 0x91, 0xC5, 0x4C, 0xBA, 0x88, 0x65, 0xAB, 0xE1, 0x49, 0x13, 0xBB]

/-- The text "CPER". -/
def cperSig : List Byte := [0x43, 0x50, 0x45, 0x52]
/-- The text "ZV-T2B-288", padded. -/
def fruText : List Byte := [0x5A, 0x56, 0x2D, 0x54, 0x32, 0x42, 0x2D, 0x32, 0x38, 0x38] ++ List.replicate 10 0

/-- Error severity of CPER: 2 Corrected, 0 Recoverable, 1 Fatal, 3 Informational (R463). -/
def cperSev (sev : Nat) : Nat := if sev = 0 then 2 else if sev = 1 then 0 else if sev = 2 then 1 else 3

/-- The vendor section (R463). -/
def State.cperVendor (s : State) (cls : Nat) (body : List Byte) : List Byte :=
  let id := s.selfId 0 + (if s.bit (Reg.STR_SELF 0) Fd.STR_SELF_VALID then 2 ^ 15 else 0)
  let b := leBytes 2 1 ++ leBytes 1 cls ++ leBytes 1 0x10 ++ leBytes 2 id ++ leBytes 2 0 ++ leBytes 8 s.boot.fwver
    ++ leBytes 8 s.fw.hist.packSeq ++ leBytes 8 s.ontime ++ leBytes 16 s.boot.serial
  b ++ (body ++ List.replicate 48 0).take 48 ++ List.replicate 32 0

/-- The record that the export ring holds (R463); the positions of its fields are those of the UEFI specification (log entry
36). -/
def State.cper (s : State) (cls sev : Nat) (body : List Byte) : List Byte :=
  let plat := shake256 ((s.boot.cert.drop 56).take 68) 16
  let head := cperSig ++ leBytes 2 0x0101 ++ leBytes 4 0 ++ leBytes 2 1 ++ leBytes 4 (cperSev sev) ++ List.replicate 16 0 ++ plat
    ++ List.replicate 16 0 ++ cperCreator ++ (if sev = 0 then cperCmc else cperMce) ++ leBytes 8 s.fw.hist.cperId
    ++ List.replicate 24 0
  let desc := List.replicate 16 0 ++ cperCreator ++ List.replicate 20 0 ++ fruText
  head ++ desc ++ s.cperVendor cls body

/-- Exports a record (R464): CPER_ID advances, the manager gets it, and the export ring holds it where one is configured. -/
def State.exportRec (s : State) (cls sev : Nat) (body : List Byte) : State :=
  let rec0 := s.cper cls sev body
  let s := (s.setHist { s.fw.hist with cperId := s.fw.hist.cperId + 1 }).toManager none 4 rec0
  if s.fw.expBase = 0 then s
  else
    let n := s.fw.expWr
    let b := s.fw.expBase
    let s := (s.writeMem (b + 64 + 1024 * (n % 2 ^ s.fw.expLog2)) (rec0 ++ List.replicate (1024 - rec0.length) 0) 9 0xFF).2
    let s := (s.writeMem b (leBytes 8 (n + 1)) 9 0xFF).2
    { s with fw := { s.fw with expWr := n + 1 } }

/-- Whether a memory or link record is of a correctable type: CE, scrub CE, on-die ECC; link-up and RETRY (log entry 36). -/
def correctable (cls typ : Nat) : Bool :=
  (cls == 1 && (typ == 1 || typ == 4 || typ == 6)) || (cls == 2 && (typ == 1 || typ == 5))

/-- A memory or link record goes to the log ring; a correctable one counts toward its unit's summary, every other one is exported
(R464). -/
def State.record (s : State) (cls typ unit n : Nat) (body : List Byte) : State :=
  let s := s.log cls body
  if correctable cls typ then
    let k := cls * 2 ^ 24 + typ * 2 ^ 16 + unit
    { s with fw := { s.fw with corr := tset (fun _ => 0) s.fw.corr k (tget (fun _ => 0) s.fw.corr k + n) } }
  else s.exportRec cls 1 body

/-- The firmware passes an event to fault handling, which HISTORY_EVENT does (R286, R321, R461). -/
def State.toHandler (s : State) (e : FaultEvent) : State := { s with fw := { s.fw with faultq := s.fw.faultq ++ [e] } }

/-- The UNIT word of physical Island `p` (R462). -/
def islUnit (p : Nat) : Nat := 0x1000 + p

/-- An Island event of class 3. -/
def islEvent (p typ code : Nat) (d0 d1 : Nat) : FaultEvent :=
  { cls := 3, typ := BitVec.ofNat 8 typ, unit := BitVec.ofNat 16 (islUnit p), lisl := 0xFF, sctx := 0,
    code := BitVec.ofNat 16 code, info := 0, detail0 := BitVec.ofNat 64 d0, detail1 := BitVec.ofNat 64 d1 }

/-- An engine event of class 4, of the unit of a UNIT word. -/
def engEvent (typ unit code info d0 d1 : Nat) : FaultEvent :=
  { cls := 4, typ := BitVec.ofNat 8 typ, unit := BitVec.ofNat 16 unit, lisl := 0xFF, sctx := 0, code := BitVec.ofNat 16 code,
    info := BitVec.ofNat 32 info, detail0 := BitVec.ofNat 64 d0, detail1 := BitVec.ofNat 64 d1 }

/-- A unit repeats what failed its check, `n` times (R447): each unit reports at most one such event per Tide. -/
def State.reexec (s : State) (typ unit n d0 d1 : Nat) : State :=
  let m := tget (fun _ => 0) s.tide.redone unit
  let s : State := { s with tide := { s.tide with redone := tset (fun _ => 0) s.tide.redone unit (m + n) } }
  if m = 0 then s.toHandler (engEvent typ unit 0 (if typ = 9 then n else 0) d0 d1) else s

/-! ### Records (R286, R321, R423) -/

/-- The UNIT word of a memory tier and unit (R420): an Island, an HBM3E stack, an LPDDR5X channel. -/
def memUnitWord (tier unit : Nat) : Nat := (if tier = 0 then 1 else tier + 2) * 4096 + unit

/-- A memory record (R286) of an event of Tide `tide` is written and passed to fault handling. -/
def State.logMemAt (s : State) (tide typ tier unit count addr info md : Nat) : State :=
  (s.record 1 typ (memUnitWord tier unit) count (leBytes 1 typ ++ leBytes 1 tier ++ leBytes 2 unit ++ leBytes 4 count ++ leBytes 8 addr ++ leBytes 4 tide
      ++ leBytes 4 (info % 2 ^ 24) ++ leBytes 4 md ++ leBytes 4 0)).toHandler
    { cls := 1, typ := BitVec.ofNat 8 typ, unit := BitVec.ofNat 16 (memUnitWord tier unit),
      lisl := BitVec.ofNat 8 (info / 2 ^ 16), sctx := 0, code := BitVec.ofNat 16 count, info := BitVec.ofNat 32 info,
      detail0 := BitVec.ofNat 64 addr, detail1 := BitVec.ofNat 64 md }

/-- A memory record of an event of the Tide in force. -/
def State.logMem (s : State) (typ tier unit count addr info md : Nat) : State :=
  s.logMemAt s.tideWord typ tier unit count addr info md

/-- The body of a link record (R321). -/
def State.linkBody (s : State) (tide typ k dir reason lane depth count tmod tag addr : Nat) : List Byte :=
  let pm := s.reg (Reg.STR_PARTNER (k / 4) (k % 4))
  leBytes 1 typ ++ leBytes 1 (k % 16 + (dir % 2) * 16 + (reason % 8) * 32) ++ leBytes 2 (lane % 16 + (depth % 8) * 16)
    ++ leBytes 4 count ++ leBytes 4 tide ++ leBytes 2 (pm.toNat % 2 ^ 14) ++ leBytes 2 tmod ++ leBytes 2 tag
    ++ leBytes 6 0 ++ leBytes 8 addr

/-- A link record of an event of Tide `tide` is written and passed to fault handling (R321). -/
def State.logLinkAt (s : State) (tide typ k dir reason lane depth count tmod tag addr : Nat) : State :=
  (s.record 2 typ (0x2000 + k) count (s.linkBody tide typ k dir reason lane depth count tmod tag addr)).toHandler
    { cls := 2, typ := BitVec.ofNat 8 typ, unit := BitVec.ofNat 16 (0x2000 + k), lisl := 0xFF, sctx := 0, code := 0, info := 0,
      detail0 := BitVec.ofNat 64 addr, detail1 := 0 }

/-- A link record of an event of the Tide in force. -/
def State.logLink (s : State) (typ k dir reason lane depth count tmod tag addr : Nat) : State :=
  s.logLinkAt s.tideWord typ k dir reason lane depth count tmod tag addr

/-- A STATE_SKEW record (R423), which is exported (R464). The spec gives no severity for class 7: the model's is recoverable (DESIGN
CHOICE, log entry 36). -/
def State.logSkew (s : State) (unit mst hst exp hseq opc ring seq : Nat) : State :=
  let b := leBytes 2 unit ++ leBytes 1 mst ++ leBytes 1 hst ++ leBytes 2 exp ++ leBytes 2 hseq ++ leBytes 2 opc
    ++ leBytes 2 ring ++ leBytes 4 seq ++ leBytes 4 s.tideWord
  (s.log 7 b).exportRec 7 1 b

end Sys2Proof.Machine
end

