-- ==== Sys2Proof/Machine/TideOps.lean ====
section
/-! DEFINITION. Tides (chapter 12): TIDE messages (R336, R337), when a module's own work is done (R332), the aggregate of a
MARK (R333), the Beacon's verdict (R378), GO and the Tide start (R334, R335), the swap that a Tide start applies (R28), FAIL
(R341), and the checks of a load (R326). -/

namespace Sys2Proof.Machine

/-! ### Tide numbers and configuration -/

/-- Tide types of the job (R325). -/
def State.nTypes (s : State) : Nat := s.fld Reg.TIDE_CFG Fd.TIDE_CFG_NTYPES + 1

/-- Steps of a window: 0 acts as 1 (R389). -/
def State.wStep (s : State) : Nat := max 1 (s.fld Reg.TIDE_BCN_CFG Fd.TIDE_BCN_CFG_WSTEP)

/-- Whether Tide `n` is a gate Tide (R363). -/
def State.isGate (s : State) (n : Nat) : Bool :=
  n % s.nTypes == s.fld Reg.TIDE_BCN_CFG Fd.TIDE_BCN_CFG_GTYPE && n / s.nTypes % s.wStep == s.wStep - 1

/-- STATE of the module's Tide logic: 0 UNLOADED, 1 RUNNING, 2 MARKED, 3 HELD, 4 FAILED. -/
def State.tideSt (s : State) : Nat := s.fld Reg.TIDE_STATUS Fd.TIDE_STATUS_STATE

/-- Sets STATE of the module's Tide logic. -/
def State.setTideSt (s : State) (v : Nat) : State := s.setFld Reg.TIDE_STATUS Fd.TIDE_STATUS_STATE v

/-- Ports toward this module's children in the mark tree, ascending. -/
def State.childPorts (s : State) : List Nat :=
  (List.range 16).filter fun k => s.fld Reg.TIDE_CHILD Fd.TIDE_CHILD_MASK / 2 ^ k % 2 == 1

/-- Whether this module is the root of the mark tree. -/
def State.isRoot (s : State) : Bool := s.bit Reg.TIDE_CFG Fd.TIDE_CFG_ROOT

/-- Port toward the parent. -/
def State.parentPort (s : State) : Nat := s.fld Reg.TIDE_CFG Fd.TIDE_CFG_PARENT

/-- Whether the profile is lockstep. -/
def State.lockstep (s : State) : Bool := s.bit Reg.TIDE_CFG Fd.TIDE_CFG_PROFILE

/-! ### TIDE messages (R336) -/

/-- The module id of the partner of port `k`. -/
def State.partnerId (s : State) (k : Nat) : Nat := s.fld (Reg.STR_PARTNER (portQ k) (portK k)) Fd.STR_PARTNER_MOD

/-- A TIDE message: kind, Tide number and line. -/
def tideMsg (src dst kind n : Nat) (line : List Byte) : Msg :=
  { typ := 8, vc := 2, len := 1, masked := false, dst := dst, src := src, tag := 0, gen := 0, hops := 0, status := 0,
    addr := kind + (n % 2 ^ 32) * 2 ^ 32, ext := [], data := (line ++ List.replicate (64 - line.length) 0#8).take 64 }

/-- KIND of a TIDE message. -/
def Msg.tideKind (m : Msg) : Nat := bitsOf m.addr 7 0
/-- The Tide that a TIDE message concerns. -/
def Msg.tideNo (m : Msg) : Nat := bitsOf m.addr 63 32
/-- A field of a message's first line: byte offset and number of bytes. -/
def Msg.lineNat (m : Msg) (off n : Nat) : Nat := leNat ((m.data.drop off).take n)

/-- Sends a TIDE message through port `k`: it goes ahead of the other messages of VC 2 (R337). A port that is not ACTIVE
sends nothing. -/
def State.sendTide (s : State) (k kind n : Nat) (line : List Byte) : State :=
  if s.portSt k ≠ 4 then s
  else
    let x := s.port k
    let m := tideMsg (s.selfId (portQ k)) (s.partnerId k) kind n line
    let put (q : List (Nat × Msg)) : List (Nat × Msg) :=
      q.takeWhile (fun e => e.2.typ == 8) ++ [(256, m)] ++ q.dropWhile (fun e => e.2.typ == 8)
    s.setPort k { x with txq := x.txq.modify 2 put }

/-- Sends a TIDE message to every child. -/
def State.sendKids (s : State) (kind n : Nat) (line : List Byte) : State :=
  s.childPorts.foldl (fun s k => s.sendTide k kind n line) s

/-- An id field of a MARK: the id with the valid bit (R336). -/
def idField (o : Option Nat) : Nat := match o with | some i => i % 1024 + 2 ^ 15 | none => 0

/-- The lower of two id fields that are valid. -/
def minId (a b : Nat) : Nat :=
  if a / 2 ^ 15 % 2 = 0 then b else if b / 2 ^ 15 % 2 = 0 then a else min a b

/-- The line of a MARK (R336). -/
def MarkVals.line (v : MarkVals) : List Byte :=
  leBytes 4 v.flags ++ leBytes 4 v.nonfin ++ leBytes 4 v.bound ++ leBytes 4 v.lossn ++ leBytes 4 v.loss ++ leBytes 4 0
    ++ leBytes 8 v.nsq ++ leBytes 2 v.suspect ++ leBytes 2 v.slow ++ leBytes 4 v.nsuspect

/-- The values of a received MARK (R336). -/
def Msg.markVals (m : Msg) : MarkVals :=
  { flags := m.lineNat 0 1, nonfin := m.lineNat 4 4, bound := m.lineNat 8 4, lossn := m.lineNat 12 4,
    loss := m.lineNat 16 4, nsq := m.lineNat 24 8, suspect := m.lineNat 32 2, slow := m.lineNat 34 2,
    nsuspect := m.lineNat 36 4 }

/-- Adds a child's values to an aggregate (R333). -/
def MarkVals.combine (a b : MarkVals) : MarkVals :=
  let sat (x y : Nat) : Nat := min (x + y) 0xFFFFFFFF
  { flags := a.flags ||| b.flags, nonfin := sat a.nonfin b.nonfin, bound := sat a.bound b.bound,
    lossn := sat a.lossn b.lossn, loss := f32Add a.loss b.loss, nsq := f64Add a.nsq b.nsq,
    suspect := minId a.suspect b.suspect, slow := minId a.slow b.slow, nsuspect := sat a.nsuspect b.nsuspect }

/-! ### Own work (R332, R333) -/

/-- The physical Islands bound to logical Islands, in ascending logical number. -/
def State.boundIsls (s : State) : List Nat := (List.range s.logicalCount).filterMap s.physOf

/-- Whether a reduction channel has completed every bucket armed in the Tide. -/
def Chan.done (x : Chan) : Bool := x.waiting.isEmpty && x.trig.isEmpty && x.cur.isNone

/-- Whether a Quarter is done with the current Tide (R332). -/
def State.quarterDone (s : State) (q : Nat) : Bool :=
  (s.boundIsls.all fun p => quarterOf p != q || (s.isl p).marked)
    && (s.chan (2 * q)).done && (s.chan (2 * q + 1)).done
    && ((s.fuu (2 * q)).runs.all (·.set != 0)) && ((s.fuu (2 * q + 1)).runs.all (·.set != 0))

/-- NSQ of bucket `i` as the device wrote it into the bucket's entry (R357). -/
def State.bucketNsq (s : State) (i : Nat) : Nat := bitsOf (tget (fun _ => 0) s.tide.buckets i) 319 256

/-- This module's own values, Islands combined in ascending logical number (R333, R174, R357, R517). -/
def State.ownVals (s : State) : MarkVals :=
  let ps := s.boundIsls
  let plaus := s.tide.chPlaus || (List.range 144).any fun p => (s.isl p).plaus
  let sat (x y : Nat) : Nat := min (x + y) 0xFFFFFFFF
  let k := s.fld Reg.TIDE_STATUS Fd.TIDE_STATUS_K
  { flags := (if plaus then 1 else 0) + (if s.tide.xovf then 2 else 0) + (if s.tide.overrun then 4 else 0)
      + (if k ≠ 0 then 8 else 0)
    nonfin := ps.foldl (fun n p => sat n (s.reg (Reg.EBB_TIDE_NONFIN p)).toNat) 0
    bound := ps.foldl (fun n p => sat n (s.reg (Reg.EBB_TIDE_BOUND p)).toNat) 0
    lossn := (ps.filter fun p => (s.isl p).lossN != 0).length
    loss := (ps.filter fun p => (s.isl p).lossN != 0).foldl (fun v p => f32Add v (s.isl p).lossVal) 0
    nsq := (((List.range 2048).filter s.tide.doneBkts.contains).map s.bucketNsq).foldl f64Add 0
    suspect := if plaus then idField (some (s.selfId 0)) else 0
    slow := idField s.tide.slow
    nsuspect := if plaus then 1 else 0 }

/-- The aggregate of this module's subtree: its own values, then the children's in ascending port number (R333). -/
def State.aggregate (s : State) : MarkVals :=
  s.childPorts.foldl (fun v k => match s.tide.kids.find? (·.1 == k) with
    | some (_, w) => v.combine w
    | none => v) s.ownVals

/-- Writes the aggregate registers (R361). -/
def State.setAgg (s : State) (v : MarkVals) : State :=
  let w (s : State) (a n : Nat) : State := s.setReg a (BitVec.ofNat 32 n)
  let s := w (w (w (w s Reg.TIDE_AGG_FLAGS (v.flags % 16)) Reg.TIDE_AGG_NONFIN v.nonfin) Reg.TIDE_AGG_BOUND v.bound)
    Reg.TIDE_AGG_LOSSN v.lossn
  let s := w (s.setReg64 Reg.TIDE_AGG_NSQ_LO Reg.TIDE_AGG_NSQ_HI v.nsq) Reg.TIDE_AGG_LOSS v.loss
  w (w s Reg.TIDE_AGG_IDS (v.suspect + v.slow * 2 ^ 16)) Reg.TIDE_AGG_NSUSPECT v.nsuspect

/-! ### Stopping a job (R31, R327, R341) -/

/-- Abandons a swap that is not applied (R31, R32): mirroring stops, the destination returns to SPARE, the source to ACTIVE;
GO, COPIED and ABORT clear. -/
def State.abortSwap (s : State) : State :=
  if !s.bit Reg.ISL_SWAP_CTL Fd.ISL_SWAP_CTL_GO then s
  else
    let src := s.fld Reg.ISL_SWAP_CTL Fd.ISL_SWAP_CTL_SRC
    let dst := s.fld Reg.ISL_SWAP_CTL Fd.ISL_SWAP_CTL_DST
    let s := (s.setPstate src 1).setPstate dst 2
    let s : State := { s with fw := { s.fw with underTest := s.fw.underTest.filter (· != src) } }
    ((s.setFld Reg.ISL_SWAP_CTL Fd.ISL_SWAP_CTL_GO 0).setFld Reg.ISL_SWAP_CTL Fd.ISL_SWAP_CTL_COPIED 0).setFld
      Reg.ISL_SWAP_CTL Fd.ISL_SWAP_CTL_ABORT 0

/-- Stops a sequencer context without a fault record (R146, R150): its signals that are not sent are discarded. An IDLE
context stays IDLE. -/
def State.haltCtx (s : State) (p c : Nat) : State :=
  if s.ctxSt p c = 0 then s.setFld (Reg.ISL_SEQ_CTL p) (runFld c) 0 else (s.discardSigs p c).stopCtx p c 5

/-- Stops every sequencer context (R327, R341), but those of an Island under test, whose test runs to its end (R456). -/
def State.haltAll (s : State) : State :=
  (List.range 144).foldl (fun s p => if s.pstate p = 3 then s else (s.haltCtx p 0).haltCtx p 1) s

/-- Shows a channel's state in RCH_STATUS (R362). -/
def State.syncChan (s : State) (ch : Nat) : State :=
  let x := s.chan ch
  let a := Reg.RCH_STATUS (ch / 2) (ch % 2)
  let s := s.setFld a Fd.RCH_STATUS_ARMED (x.waiting.length + x.trig.length + (if x.cur.isSome then 1 else 0))
  match x.cur with
  | some b => (s.setFld a Fd.RCH_STATUS_BUSY 1).setFld a Fd.RCH_STATUS_BKT b.bkt
  | none => s.setFld a Fd.RCH_STATUS_BUSY 0

/-- Clears the state of every reduction channel (R327, R341). -/
def State.clearChans (s : State) : State :=
  (List.range 8).foldl (fun s ch => (s.setChan ch {}).syncChan ch) s

/-- The records of a port's retries and uncorrectable codewords since the last ones, at the end of a Tide (R321). -/
def State.flushLink (s : State) (k : Nat) : State :=
  let x := s.port k
  let s := if x.cRetry = 0 then s else s.logLinkAt x.tRetry 5 k 1 0 0xF 0 x.cRetry 0 0 0
  let s := if x.cUe = 0 then s else s.logLinkAt x.tUe 7 k 0 0 0xF 0 x.cUe 0 0 0
  if x.cRetry = 0 ∧ x.cUe = 0 then s else s.setPort k { s.port k with cRetry := 0, cUe := 0 }

/-- The link records of every port (R321). -/
def State.flushLinks (s : State) : State := (List.range 16).foldl State.flushLink s

/-- FAIL on this module (R341): it is recorded, sent once to the parent and every child, every context stops without a fault
record, the channels are aborted, and the firmware is notified. TIDE_FAIL keeps an earlier record while TIDE_ERR.FAIL is 1
(R361). -/
def State.fail (s : State) (reason md : Nat) : State :=
  if s.tideSt = 0 ∨ s.tideSt = 4 then s
  else
    let s := s.flushLinks
    let s := if s.bit Reg.TIDE_ERR Fd.TIDE_ERR_FAIL then s else
      s.setReg Reg.TIDE_FAIL (BitVec.ofNat 32 (reason % 16 + (md % 1024) * 16))
    let s := s.setFld Reg.TIDE_ERR Fd.TIDE_ERR_FAIL 1
    let line := leBytes 4 reason ++ leBytes 4 md
    let n := s.tideNum
    let s := if s.tide.failSent then s else (if s.isRoot then s else s.sendTide s.parentPort 5 n line).sendKids 5 n line
    let s := { s with tide := { s.tide with failSent := true, held := false } }
    ((s.haltAll.clearChans).setTideSt 4).report .tideFail 0 reason md

/-- FAIL that this module detects. -/
def State.failHere (s : State) (reason : Nat) : State := s.fail reason (s.selfId 0)

/-! ### The Tide start (R335) -/

/-- Copies one register of a source Island to a destination Island. -/
def State.carry (s : State) (a b : Nat) : State := s.setReg b (s.reg a)

/-- Offsets in an Island's window of the registers that an applied swap carries (R28): the sequencer state and, so that the
job's results do not change (R30), the descriptors and settings that loading wrote (log entry 9). -/
def swapOffsets : List Nat :=
  [0x000, 0x004, 0x010, 0x014, 0x018, 0x01C, 0x030, 0x034, 0x300, 0x304, 0x2004, 0x4004]
    ++ ((List.range 32).map fun i => 0x310 + 4 * i)
    ++ ((List.range 128).map fun i => 0x100 + 4 * i)
    ++ ((List.range 128).map fun i => 0x2100 + 4 * i)
    ++ ((List.range 256).map fun i => 0x3100 + 4 * i)
    ++ ((List.range 16).map fun i => 0x4080 + 4 * i)

/-- The state that AFTER selects for the source (R32). -/
def afterState (a : Nat) : Nat := if a = 0 then 2 else if a = 1 then 3 else 6

/-- Applies a swap whose copy has finished (R28, R516, R518). -/
def State.applySwap (s : State) : State :=
  if !(s.bit Reg.ISL_SWAP_CTL Fd.ISL_SWAP_CTL_GO && s.bit Reg.ISL_SWAP_CTL Fd.ISL_SWAP_CTL_COPIED) then s
  else
    let src := s.fld Reg.ISL_SWAP_CTL Fd.ISL_SWAP_CTL_SRC
    let dst := s.fld Reg.ISL_SWAP_CTL Fd.ISL_SWAP_CTL_DST
    let l := s.logicalOf src
    let s := swapOffsets.foldl (fun s o => s.carry (islWin src + o) (islWin dst + o)) s
    let x := s.isl src
    let s := s.setIsl dst { s.isl dst with c0 := x.c0, c1 := x.c1 }
    let s := ((s.setIsl src { x with c0 := {}, c1 := {} }).stopCtx src 0 0).stopCtx src 1 0
    let s := if l < 136 then (s.setFld (Reg.ISL_LMAP l) Fd.ISL_LMAP_PHYS dst).setFld (Reg.ISL_LMAP l) Fd.ISL_LMAP_VALID 1 else s
    let s := (s.setLogical src 0xFF).setLogical dst l
    let s := (s.setPstate src (afterState (s.fld Reg.ISL_SWAP_CTL Fd.ISL_SWAP_CTL_AFTER))).setPstate dst 1
    let s : State := { s with tide := { s.tide with swapped := (src, dst) } }
    let a := Reg.ISL_SWAP_CTL
    ((((s.setFld a Fd.ISL_SWAP_CTL_GO 0).setFld a Fd.ISL_SWAP_CTL_COPIED 0).setFld a Fd.ISL_SWAP_CTL_ABORT 0).setFld a
      Fd.ISL_SWAP_CTL_HOLD 1).tracePt 0x021 [src, dst, s.tideNum]

/-- A unit's commit at the Tide start after an update Tide (R367, R368, R373): CUR changes unless the update ran in place,
and FUU_T counts it. -/
def State.commitUnit (s : State) (u : Nat) : State :=
  let a := Reg.FUU_STATE (u / 2) (u % 2)
  let s := s.setFuu u { s.fuu u with updTide := s.tideNum }
  let s := if s.bit a Fd.FUU_STATE_INPLACE then s else s.setFld a Fd.FUU_STATE_CUR (1 - s.fld a Fd.FUU_STATE_CUR)
  let s := if s.bit a Fd.FUU_STATE_LOCK then s.setFuu u { s.fuu u with lockUsed := true } else s
  s.setReg (Reg.FUU_T (u / 2) (u % 2)) (s.reg (Reg.FUU_T (u / 2) (u % 2)) + 1)

/-- Sets a unit's LOCK for a checkpoint (R369); while it is 1 already, nothing changes. -/
def State.lockUnit (s : State) (u : Nat) : State :=
  let a := Reg.FUU_STATE (u / 2) (u % 2)
  if s.bit a Fd.FUU_STATE_LOCK then s
  else (s.setFld a Fd.FUU_STATE_LOCK 1).setFuu u { s.fuu u with lockUsed := false }

/-- A GO with CKPT locks every unit (R369): the firmware keeps what the image's header says of that moment (R385). RESUME is the
first Tide after the commit that the locked buffer holds; before the first commit it is TIDE_FIRST. -/
def State.lockAll (s : State) (n : Nat) : State :=
  let fresh := (List.range 8).any fun u => !s.bit (Reg.FUU_STATE (u / 2) (u % 2)) Fd.FUU_STATE_LOCK
  let s := (List.range 8).foldl State.lockUnit s
  if fresh then
    let t := (s.reg (Reg.FUU_T 0 0)).toNat
    { s with fw := { s.fw with
      lockTide := n, lockResume := if t = 0 then (s.reg Reg.TIDE_FIRST).toNat else ((s.fuu 0).updTide + 1) % 2 ^ 32
      lockT := t, lockEma := (s.reg Reg.TIDE_BCN_EMA).toNat, lockWins := (s.reg Reg.TIDE_BCN_WINS).toNat
      lockCur := ((List.range 8).map fun u => s.fld (Reg.FUU_STATE (u / 2) (u % 2)) Fd.FUU_STATE_CUR * 2 ^ u).sum
      lockCycle := s.cycle } }
  else s

/-- Address of the table entry `i` of unit `u` (R371). -/
def State.fuuAddr (s : State) (u i : Nat) : Nat := s.addr48 (Reg.FUU_TBL_LO (u / 2) (u % 2)) (Reg.FUU_TBL_HI (u / 2) (u % 2)) + 64 * i

/-- The table entry `i` of unit `u`: 64 bytes (R371). -/
def State.fuuEntry (s : State) (u i : Nat) : Nat := s.memNat (s.fuuAddr u i) 64

/-- OP of a descriptor. -/
def fuuOp (d : Nat) : Nat := bitsOf d 3 0

/-- Whether a run of a set runs a descriptor: a valid one with an OP of the set; one with a reserved OP is faulted by the
update (R370, R377). -/
def fuuInSet (set d : Nat) : Bool :=
  bitsOf d 14 14 == 1 && (if set = 0 then fuuOp d != 4 && fuuOp d != 5 && fuuOp d != 6 else fuuOp d == set + 3)

/-- The next entry at or after `i` that a run of a set runs. -/
def State.fuuNext (s : State) (u set i : Nat) : Option Nat :=
  (List.range (min 1024 (s.fld (Reg.FUU_TBL_N (u / 2) (u % 2)) Fd.FUU_TBL_N_COUNT))).find? fun j =>
    decide (i ≤ j) && fuuInSet set (s.fuuEntry u j)

/-- Starts a run of a set on a unit; a set without a descriptor to run is complete at once. -/
def State.fuuStart (s : State) (u set : Nat) (inplace : Bool) : State :=
  match s.fuuNext u set 0 with
  | none => s
  | some i =>
    let x := s.fuu u
    (s.setFuu u { x with runs := x.runs ++ [FuuRun.mk set i inplace none] }).setFld (Reg.FUU_STATE (u / 2) (u % 2))
      Fd.FUU_STATE_BUSY 1

/-- Starts the update of a Tide on a unit, in place when an update has committed under the LOCK in force (R368). -/
def State.fuuUpdate (s : State) (u : Nat) : State :=
  let a := Reg.FUU_STATE (u / 2) (u % 2)
  let inp := s.bit a Fd.FUU_STATE_LOCK && (s.fuu u).lockUsed
  (s.setFld a Fd.FUU_STATE_INPLACE (if inp then 1 else 0)).fuuStart u 0 inp

/-- Group, channel, flags and numbers of a bucket entry (R347). -/
def bktGrp (raw : Nat) : Nat := bitsOf raw 165 160
/-- Channel of a bucket entry. -/
def bktCh (raw : Nat) : Nat := bitsOf raw 168 166
/-- EXACT of a bucket entry. -/
def bktExact (raw : Nat) : Bool := bitsOf raw 169 169 == 1
/-- NORM of a bucket entry. -/
def bktNorm (raw : Nat) : Bool := bitsOf raw 170 170 == 1
/-- VALID of a bucket entry. -/
def bktValid (raw : Nat) : Bool := bitsOf raw 171 171 == 1
/-- TYPE of a bucket entry. -/
def bktType (raw : Nat) : Nat := bitsOf raw 175 172
/-- EXP of a bucket entry, signed. -/
def bktExp (raw : Nat) : Int := sext 9 (bitsOf raw 184 176)
/-- NSTEP of a bucket entry. -/
def bktNstep (raw : Nat) : Nat := bitsOf raw 199 192
/-- SRC of a bucket entry. -/
def bktSrc (raw : Nat) : Nat := bitsOf raw 47 0
/-- DST of a bucket entry. -/
def bktDst (raw : Nat) : Nat := bitsOf raw 111 64
/-- BYTES of a bucket entry. -/
def bktBytes (raw : Nat) : Nat := bitsOf raw 159 128

/-- Whether a bucket is armed in Tide `n` (R349). -/
def State.armedIn (s : State) (n raw : Nat) : Bool :=
  bktValid raw && bktType raw == n % s.nTypes && decide (1 ≤ bktNstep raw)
    && n / s.nTypes % bktNstep raw == bktNstep raw - 1

/-- A channel registers its wait at the Buoy unit of its bucket's trigger Buoy as a BWAIT does (R349, R157, R158): the records show
no logical Island, context 0 and PC 0 (DESIGN CHOICE, log entry 122). A wait that its count meets already registers nothing. -/
def State.channelWait (s : State) (raw : Nat) : State :=
  let t := bktTrigger raw
  let q := s.home t.1
  let g := 16384 * q + t.2.1
  if t.2.2 ≤ s.buoy q t.2.1 then s
  else ((s.setReg (Reg.BUOY_LWAIT_SRC g) (BitVec.ofNat 32 (0xFF + 2 ^ 23))).setReg (Reg.BUOY_LWAIT_THR g)
    (BitVec.ofNat 32 t.2.2)).count (Reg.BUOY_CNT_OPS q) 1

/-- Arms the buckets of Tide `n` (R349): each waits for its trigger Buoy, and one whose Buoy already meets THR triggers. -/
def State.armBuckets (s : State) (n : Nat) : State :=
  let s := s.tide.buckets.foldl (fun s e =>
    if s.armedIn n e.2 then
      let x := s.chan (bktCh e.2)
      (s.setChan (bktCh e.2) { x with waiting := x.waiting ++ [e.1] }).channelWait e.2
    else s) s
  let s := s.tide.buckets.foldl (fun s e =>
    if s.armedIn n e.2 then
      let t := bktTrigger e.2
      s.triggerBkts (s.home t.1) t.2.1
    else s) s
  (List.range 8).foldl State.syncChan s

/-- What a Tide start does to one Island before its contexts resume: the marks and counts of the old Tide are gone, a held
plausibility flag counts in the new one, and Chart copies are dropped (R174, R183, R517). -/
def State.islNewTide (s : State) (p : Nat) : State :=
  let x := s.isl p
  let s := s.setIsl p { x with marked := false, plaus := x.plausHeld, plausHeld := false, lossN := 0, lossVal := 0,
                               sentTile := 0, charts := [] }
  let s := (s.setReg (Reg.EBB_TIDE_NONFIN p) 0).setReg (Reg.EBB_TIDE_BOUND p) 0
  if x.plausHeld then s.setPlausBit p else s

/-- Starts one Island under R141 and R112. -/
def State.islStart (s : State) (p : Nat) : State :=
  let s := s.setReg (Reg.ISL_SEQ_TIDE p) (s.reg (Reg.ISL_SEQ_TIDE p) + 1)
  let s := if s.lockstep then s.setFld (Reg.ISL_SEQ_STATUS p) Fd.ISL_SEQ_STATUS_FAV 0 else s
  let go (s : State) (c : Nat) : State := if s.ctxSt p c = 4 then s.setSt p c 1 else s
  (go (go s 0) 1).islandMark p

/-- Starts every Island. -/
def State.islsStart (s : State) : State := (List.range 144).foldl State.islStart s

/-- Place of the slot table of Tide type `t` and local port `k` of a Quarter (R329). -/
def State.slotBase (s : State) (q t k : Nat) : Nat := s.addr48 (Reg.TIDE_SLOT_LO q) (Reg.TIDE_SLOT_HI q) + (4 * t + k) * 4096

/-- Entry `i` of the slot table of Tide type `t` and local port `k` of a Quarter (R329). -/
def State.slotEntry (s : State) (q t k i : Nat) : Nat :=
  s.memNat (s.slotBase q t k + 4 * i) 4

/-- The entries of a slot table from entry `i` up to the first with LAST, at most `n` of them; none when entry 0 has LINES 0
(R329). -/
def State.slotsFrom (s : State) (q t k : Nat) : Nat → Nat → List Nat
  | 0, _ => []
  | n + 1, i =>
    let e := s.slotEntry q t k i
    if i = 0 ∧ bitsOf e 19 8 = 0 then []
    else if bitsOf e 31 31 = 1 then [e] else e :: s.slotsFrom q t k n (i + 1)

/-- A slot table (R329). -/
def State.slotTable (s : State) (q t k : Nat) : List Nat := s.slotsFrom q t k 1024 0

/-- A port reads its slot table for Tide `n` (R271, R272): an uncorrectable error is recorded, and the entries are used as stored
(DESIGN CHOICE, log entry 111). -/
def State.slotTouch (s : State) (n k : Nat) : State :=
  let t := n % s.nTypes
  (s.checkRange (s.slotBase (portQ k) t (portK k)) (4 * max 1 (s.slotTable (portQ k) t (portK k)).length) 10 0xFF).2

/-- Moves a port to the new Tide's slot table (R330, R346). -/
def State.portNewTide (s : State) (n k : Nat) : State :=
  let s := s.slotTouch n k
  let x := s.port k
  let x := if s.lockstep then { x with rr := 0, winUnsched := 0, winBytes := 0 } else x
  let same := (n + 2 ^ 32 - 1) % 2 ^ 32 % s.nTypes == n % s.nTypes
  s.setPort k (if !s.lockstep && same then x else { x with slotPos := 0, slotUsed := 0 })

/-- Clears the window's records at its first Tide: the Beacon's sums and every Quarter's plausibility masks (R378, R389). -/
def State.newWindow (s : State) : State :=
  let s := (((s.setReg Reg.TIDE_BCN_WLOSS 0).setReg Reg.TIDE_BCN_WLOSSN 0).setReg Reg.TIDE_BCN_WNONFIN 0).setReg
    Reg.TIDE_BCN_WBOUND 0
  let s := s.setFld Reg.TIDE_BCN_VERDICT Fd.TIDE_BCN_VERDICT_WPLAUS 0
  (List.range 4).foldl (fun s q => (s.setReg (Reg.TIDE_BCN_PLAUS_LO q) 0).setReg (Reg.TIDE_BCN_PLAUS_HI q) 0) s

/-- The start of Tide `n` on this module, with CMD and GNSQ of its GO (R335, R367, R369, R379). -/
def State.tideStart (s : State) (n cmd gnsq : Nat) : State :=
  let first := s.tide.startMarker
  let k := s.fld Reg.TIDE_STATUS Fd.TIDE_STATUS_K
  let s := s.flushLinks
  let s := if s.tide.update then (List.range 8).foldl State.commitUnit s else s
  let s := if cmd / 4 % 2 = 1 then (s.lockAll n).tracePt 0x040 [n] else s
  let s := (s.setReg Reg.TIDE_NUM (BitVec.ofNat 32 n)).setReg Reg.TIDE_STEP (BitVec.ofNat 32 (n / s.nTypes))
  let s := (s.setReg64 Reg.TIDE_GNSQ_LO Reg.TIDE_GNSQ_HI gnsq).setReg Reg.TIDE_GCMD (BitVec.ofNat 32 (cmd % 256))
  let s := s.count Reg.TIDE_CNT_TIDES 1
  let s := if first || s.isGate ((n + 2 ^ 32 - 1) % 2 ^ 32) then s.newWindow else s
  let s := { s with tide := { s.tide with
    kids := [], startMarker := false, update := cmd % 4 == 1, stretchUp := 0, slow := none, overrun := false,
    xovf := false, doneBkts := [], chPlaus := false, redone := [] }, fw := { s.fw with seen := [] } }
  let s := s.setReg Reg.TIDE_STATUS 1
  let s := (List.range 4).foldl (fun s q => s.setReg (Reg.TIDE_QSTATUS q) 0) s
  let s := s.applySwap
  let s := (List.range 16).foldl (fun s k => s.portNewTide n k) s
  let s := (List.range 144).foldl State.islNewTide s
  let s := s.armBuckets n
  let s := if cmd % 4 = 1 then (List.range 8).foldl State.fuuUpdate s else s
  let s := s.tracePt 0x010 [n, k]
  if s.bit Reg.ISL_SWAP_CTL Fd.ISL_SWAP_CTL_HOLD then { s with tide := { s.tide with held := true } } else s.islsStart

/-! ### GO (R334) and the Beacon (R378) -/

/-- The line of a GO (R336). -/
def goLine (cmd gnsq flags : Nat) : List Byte :=
  leBytes 4 (cmd % 256) ++ leBytes 4 0 ++ leBytes 8 gnsq ++ leBytes 4 flags

/-- The root sends GO for the next Tide (R334, R341, R379): CMD as TIDE_GO holds it, ACTION NONE for the GO that ends a start
marker; the hardware clears CKPT. A wrap of the Tide number is a FAIL. -/
def State.sendGo (s : State) : State :=
  let n := s.tideNum
  if n = 0xFFFFFFFF ∧ !s.tide.startMarker then s.failHere 5
  else
    let c := s.fld Reg.TIDE_GO Fd.TIDE_GO_CMD
    let cmd := if s.tide.startMarker then c / 4 * 4 else c
    let gnsq := s.reg64 Reg.TIDE_AGG_NSQ_LO Reg.TIDE_AGG_NSQ_HI
    let flags := s.fld Reg.TIDE_AGG_FLAGS Fd.TIDE_AGG_FLAGS_FLAGS
    let n' := (n + 1) % 2 ^ 32
    let s := s.setFld Reg.TIDE_GO Fd.TIDE_GO_CMD (c - (c / 4 % 2) * 4)
    let s := s.setFld Reg.TIDE_GO Fd.TIDE_GO_GO 0
    (s.sendKids 2 n' (goLine cmd gnsq flags)).tideStart n' cmd gnsq

/-- The Beacon's sums over the window, with one more aggregate (R378). -/
def State.beaconAdd (s : State) (v : MarkVals) : State :=
  let sat (a b : Nat) : Word := BitVec.ofNat 32 (min (a + b) 0xFFFFFFFF)
  let s := s.setReg Reg.TIDE_BCN_WLOSS (BitVec.ofNat 32 (f32Add (s.reg Reg.TIDE_BCN_WLOSS).toNat v.loss))
  let s := s.setReg Reg.TIDE_BCN_WLOSSN (sat (s.reg Reg.TIDE_BCN_WLOSSN).toNat v.lossn)
  let s := s.setReg Reg.TIDE_BCN_WNONFIN (sat (s.reg Reg.TIDE_BCN_WNONFIN).toNat v.nonfin)
  let s := s.setReg Reg.TIDE_BCN_WBOUND (sat (s.reg Reg.TIDE_BCN_WBOUND).toNat v.bound)
  if v.flags % 2 = 1 then s.setFld Reg.TIDE_BCN_VERDICT Fd.TIDE_BCN_VERDICT_WPLAUS 1 else s

/-- L of R378: the window's mean loss, FP32. -/
def State.beaconL (s : State) : Nat :=
  toF32 ((f32 (s.reg Reg.TIDE_BCN_WLOSS).toNat).div (.ofInt (s.reg Reg.TIDE_BCN_WLOSSN).toNat))

/-- The Beacon's verdict (0 NONE, 1 UPDATE, 2 SKIP, 3 REPLAY, 4 HALT) and REASON at the mark of Tide `n` (R378). -/
def State.beaconVerdict (s : State) (n : Nat) (nsq : Nat) : Nat × Nat :=
  let bad := if s.bit Reg.TIDE_BCN_CFG Fd.TIDE_BCN_CFG_POLICY then 4 else 2
  let lossN := (s.reg Reg.TIDE_BCN_WLOSSN).toNat
  let l := s.beaconL
  if s.tide.startMarker || !s.isGate n then (0, 0)
  else if s.bit Reg.TIDE_BCN_VERDICT Fd.TIDE_BCN_VERDICT_WPLAUS then
    if s.bit Reg.TIDE_BCN_CFG Fd.TIDE_BCN_CFG_REPLAY then (4, 7) else (3, 1)
  else if (s.reg Reg.TIDE_BCN_WNONFIN).toNat > (s.reg Reg.TIDE_BCN_NFMAX).toNat then (bad, 2)
  else if (s.reg Reg.TIDE_BCN_WBOUND).toNat > (s.reg Reg.TIDE_BCN_BDMAX).toNat then (bad, 3)
  else if (f64 nsq).nonfin then (bad, 6)
  else if lossN > 0 && (f32 l).nonfin then (bad, 5)
  else if lossN > 0
      && decide ((s.reg Reg.TIDE_BCN_WINS).toNat ≥ s.fld Reg.TIDE_BCN_CFG Fd.TIDE_BCN_CFG_WARM)
      && (f32 (f32Mul (s.reg Reg.TIDE_BCN_EMA).toNat (s.reg Reg.TIDE_BCN_SPIKE).toNat)).lt (f32 l) then (bad, 4)
  else (1, 0)

/-- The moving average after an UPDATE (R378). -/
def State.beaconEma (s : State) : State :=
  if (s.reg Reg.TIDE_BCN_WLOSSN).toNat = 0 then s
  else
    let l := s.beaconL
    let al := (s.reg Reg.TIDE_BCN_ALPHA).toNat
    let one := 0x3F800000
    let ema := if (s.reg Reg.TIDE_BCN_WINS).toNat = 0 then l
      else f32Add (f32Mul al l) (f32Mul (toF32 ((f32 one).add (f32 al).neg)) (s.reg Reg.TIDE_BCN_EMA).toNat)
    (s.setReg Reg.TIDE_BCN_EMA (BitVec.ofNat 32 ema)).count Reg.TIDE_BCN_WINS 1

/-- Records a verdict: the register, the counters, the average, and ACTION in CMD (R378). -/
def State.beaconRecord (s : State) (v reason : Nat) : State :=
  let s := (s.setFld Reg.TIDE_BCN_VERDICT Fd.TIDE_BCN_VERDICT_VERDICT v).setFld Reg.TIDE_BCN_VERDICT
    Fd.TIDE_BCN_VERDICT_REASON reason
  let s := match v with
    | 1 => s.beaconEma.count Reg.TIDE_BCN_CNT_UPD 1
    | 2 => s.count Reg.TIDE_BCN_CNT_SKIP 1
    | 3 => s.count Reg.TIDE_BCN_CNT_REPLAY 1
    | _ => s
  let c := s.fld Reg.TIDE_GO Fd.TIDE_GO_CMD
  s.setFld Reg.TIDE_GO Fd.TIDE_GO_CMD (c / 4 * 4 + (if v ≤ 2 then v else 0))

/-- The root's aggregate is complete (R334, R378). The client is notified of HALT by the core that holds the module's duties, once it
serves (R391, R428). -/
def State.rootMark (s : State) (v : MarkVals) : State :=
  let s := if s.tide.startMarker then s else s.beaconAdd v
  if !s.bit Reg.TIDE_CFG Fd.TIDE_CFG_HOLDGO then s.sendGo
  else
    let s := s.setTideSt 3
    if !s.bit Reg.TIDE_BCN_CFG Fd.TIDE_BCN_CFG_EN then s
    else
      let (w, reason) := s.beaconVerdict s.tideNum v.nsq
      let s := (s.beaconRecord w reason).tracePt 0x011 [s.tideNum, w, reason]
      let gateReplay := s.bit Reg.TIDE_BCN_CFG Fd.TIDE_BCN_CFG_REPLAY && !s.tide.startMarker && s.isGate s.tideNum
      if w ≥ 3 || gateReplay then
        (if w = 4 ∧ s.bit (Reg.PLT_CORE s.fw.duty) Fd.PLT_CORE_READY then s.notify 3 s.tideNum else s).report (.other 0x300) 0 w reason
      else s.sendGo

/-- Whether the MARK of every child has arrived. -/
def State.kidsIn (s : State) : Bool := s.childPorts.all fun k => s.tide.kids.any (·.1 == k)

/-- Forms the Quarters' parts and, once this module's own work is done and every child has marked, the MARK (R332, R333,
R334). Every command that can complete work ends in it. -/
def tideCheck (s : State) : State :=
  if s.tideSt ≠ 1 then s
  else
    let s := (List.range 4).foldl (fun s q =>
      s.setFld (Reg.TIDE_QSTATUS q) Fd.TIDE_QSTATUS_DONE (if s.quarterDone q then 1 else 0)) s
    if !(List.range 4).all s.quarterDone then s
    else
      let s := s.setFld Reg.TIDE_STATUS Fd.TIDE_STATUS_OWN 1
      if !s.kidsIn then s
      else
        let v := s.aggregate
        let s := s.setAgg v
        if s.isRoot then s.rootMark v
        else (s.sendTide s.parentPort 1 s.tideNum v.line).setTideSt 2

/-- The outcome of a command after which work may have completed. -/
def settled (s : State) : Out := .next (tideCheck s)

/-! ### The checks of a load (R326) -/

/-- Entries of a table of 64-byte entries, one bit of which says that they are valid. -/
def State.validEntries (s : State) (base n byte bit : Nat) : Table Nat :=
  ((List.range n).filter fun i => (s.byte (base + 64 * i + byte)).toNat / 2 ^ bit % 2 == 1).map fun i =>
    (i, s.memNat (base + 64 * i) 64)

/-- Base of the bucket table. -/
def State.bktBase (s : State) : Nat := s.addr48 Reg.TIDE_BKT_LO Reg.TIDE_BKT_HI
/-- Base of the group table. -/
def State.grpBase (s : State) : Nat := s.addr48 Reg.TIDE_GRP_LO Reg.TIDE_GRP_HI

/-- Whether a range lies in HBM3E. -/
def inHbm (a n : Nat) : Bool := decide (0x10000000000 ≤ a) && decide (a + n ≤ 0x14800000000)

/-- The bits that R347 names in a bucket entry. -/
def bktMask : Nat :=
  (2 ^ 48 - 1) + (2 ^ 48 - 1) * 2 ^ 64 + (2 ^ 32 - 1) * 2 ^ 128 + (2 ^ 25 - 1) * 2 ^ 160 + (2 ^ 32 - 1) * 2 ^ 192
    + (2 ^ 22 - 1) * 2 ^ 224 + (2 ^ 96 - 1) * 2 ^ 256

/-- Whether a valid bucket keeps R347: alignment, HBM3E, overlap, ranges. -/
def State.bktOk (s : State) (raw : Nat) : Bool :=
  let src := bktSrc raw
  let dst := bktDst raw
  let n := bktBytes raw
  let t := bktTrigger raw
  src % 64 == 0 && inHbm src n && inHbm dst n && (src == dst || decide (src + n ≤ dst) || decide (dst + n ≤ src))
    && n % 64 == 0 && decide (64 ≤ n) && decide (n ≤ 67108864) && decide (1 ≤ bktNstep raw) && decide (1 ≤ t.2.2)
    && decide (-200 ≤ bktExp raw) && decide (bktExp raw ≤ 64) && decide (t.1 < s.logicalCount)

/-- VALID of a group entry. -/
def grpValid (raw : Nat) : Bool := bitsOf raw 32 32 == 1
/-- GID of a group entry. -/
def grpGid (raw : Nat) : Nat := bitsOf raw 15 0
/-- The word of tree `c` of a group entry. -/
def grpTree (raw c : Nat) : Nat := bitsOf raw (8 * (32 + 4 * c) + 31) (8 * (32 + 4 * c))
/-- Whether this module is the root of a tree. -/
def treeRoot (w : Nat) : Bool := bitsOf w 4 4 == 1
/-- Port toward the parent in a tree. -/
def treeParent (w : Nat) : Nat := bitsOf w 3 0
/-- Ports toward the children in a tree, ascending. -/
def treeKids (w : Nat) : List Nat := (List.range 16).filter fun k => bitsOf w 31 16 / 2 ^ k % 2 == 1

/-- Whether a tree that a valid bucket uses keeps R348. -/
def State.treeOk (s : State) (groups : Table Nat) (raw : Nat) : Bool :=
  let g := tget (fun _ => 0) groups (bktGrp raw)
  let w := grpTree g (bktCh raw)
  grpValid g && ((treeKids w).all fun k => s.portSt k == 4) && (treeRoot w || s.portSt (treeParent w) == 4)

/-- Whether a stream is reserved (R328). -/
def streamRsv (n : Nat) : Bool := decide (144 ≤ n) && decide (n ≤ 253)

/-- Whether a slot-table entry of the job names a reserved stream. -/
def State.slotsBad (s : State) : Bool :=
  (List.range 16).any fun k => (List.range s.nTypes).any fun t =>
    (s.slotTable (portQ k) t (portK k)).any fun e => streamRsv (bitsOf e 7 0)

/-- A memory controller of the module that is FAILED (R281). -/
def State.ctrlFailed (s : State) : Bool :=
  ((List.range 8).any fun i => s.fld (qtrWin (i / 2) + 0x40000 + (i % 2) * 0x2000) Fd.HBM_STATUS_STATE == 3)
    || ((List.range 32).any fun i => s.fld (qtrWin (i / 8) + 0xC0000 + (i % 8) * 0x1000) Fd.HBM_STATUS_STATE == 3)

/-- The code of the first check of R326 that fails, 0 when every check passes. -/
def State.loadCheck (s : State) : Nat :=
  let bkts := s.validEntries s.bktBase 2048 21 3
  let grps := s.validEntries s.grpBase 64 4 0
  let ports := s.childPorts ++ (if s.isRoot then [] else [s.parentPort])
  if s.lockstep && bkts.any (fun b => !bktExact b.2) then 1
  else if (List.range s.logicalCount).any (fun l => !s.bit (Reg.ISL_LMAP l) Fd.ISL_LMAP_VALID) then 2
  else if s.ctrlFailed then 3
  else if !s.bit (Reg.STR_SELF 0) Fd.STR_SELF_VALID then 4
  else if ports.any (fun k => s.portSt k != 4) then 5
  else if bkts.any (fun b => !s.bktOk b.2) then 6
  else if bkts.any (fun b => !s.treeOk grps b.2) then 7
  else if s.slotsBad then 8
  else 0

/-- Clears the ENTRY bits of every context (R326). -/
def State.clearEntries (s : State) : State :=
  (List.range 144).foldl (fun s p => (s.setFld (Reg.ISL_SEQ_CTL p) Fd.ISL_SEQ_CTL_ENTRY0 0).setFld (Reg.ISL_SEQ_CTL p)
    Fd.ISL_SEQ_CTL_ENTRY1 0) s

/-- What an accepted load does to one context (R326): one with an entry point on a bound Island is put into TMARK, every
other becomes IDLE, but those of an Island under test (R456). -/
def State.loadCtx (s : State) (p c : Nat) : State :=
  if s.pstate p = 3 then s
  else if s.bit (Reg.ISL_SEQ_CTL p) (entryFld c) && decide (s.logicalOf p < s.logicalCount) && s.physOf (s.logicalOf p) == some p
  then ((s.stopCtx p c 4).setFld (Reg.ISL_SEQ_CTL p) (runFld c) 1)
  else s.stopCtx p c 0

/-- Shows STR_STATUS.SCHED of each port (R329). -/
def State.setSched (s : State) : State :=
  (List.range 16).foldl (fun s k =>
    let some1 := (List.range s.nTypes).any fun t => !(s.slotTable (portQ k) t (portK k)).isEmpty
    s.setFld (Reg.STR_STATUS (portQ k) (portK k)) Fd.STR_STATUS_SCHED (if some1 then 1 else 0)) s

/-- A port that arrived under an earlier program carries scheduled traffic once a program names it (R318). -/
def State.namePort (s : State) (k : Nat) : State :=
  if s.bit (Reg.STR_STATUS (portQ k) (portK k)) Fd.STR_STATUS_SCHED then s.setPort k { s.port k with late := false } else s

/-- An accepted load (R326). -/
def State.loadAccept (s : State) : State :=
  let first := (s.reg Reg.TIDE_FIRST).toNat
  let n := (first + 2 ^ 32 - 1) % 2 ^ 32
  let bkts := s.validEntries s.bktBase 2048 21 3
  let grps := s.validEntries s.grpBase 64 4 0
  let s := s.flushLinks
  let s := s.setFld Reg.ISL_POLICY Fd.ISL_POLICY_LOADED 1
  let s := (s.setReg Reg.TIDE_NUM (BitVec.ofNat 32 n)).setReg Reg.TIDE_STEP (BitVec.ofNat 32 (n / s.nTypes))
  let s := (List.range 144).foldl (fun s p =>
    let s := (s.loadCtx p 0).loadCtx p 1
    let x := s.isl p
    (s.setIsl p { x with marked := false, plaus := false, plausHeld := false }).setReg (Reg.ISL_SEQ_TIDE p)
      (BitVec.ofNat 32 n)) s
  let s := s.clearEntries
  let ctxs := ((List.range 144).flatMap fun p => [(p, 0), (p, 1)]).filterMap fun e =>
    if s.ctxSt e.1 e.2 = 4 then some (s.fld (Reg.ISL_SEQ_CTXID e.1 e.2) Fd.ISL_SEQ_CTXID_CTX) else none
  let s := (s.checkRange s.bktBase 131072 10 0xFF).2
  let s := (s.checkRange s.grpBase 4096 10 0xFF).2
  let s := { s with tide := { buckets := bkts, groups := grps, startMarker := true, ctxs := ctxs.dedup }, fw := { s.fw with seen := [] } }
  let s := s.clearChans
  let s := (List.range 16).foldl State.namePort s.setSched
  let s := s.setReg Reg.TIDE_STATUS 1
  (List.range 144).foldl State.islandMark s

/-- A rejected load (R326). -/
def State.loadReject (s : State) (code : Nat) : State :=
  ((s.setFld Reg.TIDE_ERR Fd.TIDE_ERR_LOADREJ 1).setReg Reg.TIDE_LOADERR (BitVec.ofNat 32 code)).clearEntries

/-- TIDE_CTL.LOAD (R326). -/
def State.load (s : State) : State :=
  if s.loaded then s
  else if s.loadCheck ≠ 0 then s.loadReject s.loadCheck
  else tideCheck s.loadAccept

/-- Without a program no port is scheduled (R322). -/
def State.clearSched (s : State) : State :=
  (List.range 16).foldl (fun s k => s.setFld (Reg.STR_STATUS (portQ k) (portK k)) Fd.STR_STATUS_SCHED 0) s

/-- TIDE_CTL.UNLOAD (R327). -/
def State.unload (s : State) : State :=
  if s.tideSt = 2 ∨ s.tideSt = 3 ∨ s.tideSt = 4 then
    (((s.flushLinks.clearSched.setFld Reg.ISL_POLICY Fd.ISL_POLICY_LOADED 0).haltAll.clearChans).abortSwap).setTideSt 0
  else s

end Sys2Proof.Machine
end

