-- ==== Sys2Proof/Machine/Sequencer.lean ====
section
/-! DEFINITION. Issue of a sequencer instruction (R106, R107, R111 to R125): fetch, predicate, checks in order, readiness,
the effect, END processing and the next PC. Each instruction's own meaning names its opcode, its reserved bits, its source
registers and its effect. -/

namespace Sys2Proof.Machine

/-! ### The word -/

/-- A field of an instruction word. -/
def ifld (w hi lo : Nat) : Nat := bitsOf w hi lo

/-- The mask of the bits from `hi` to `lo`. -/
def maskOf (hi lo : Nat) : Nat := (2 ^ (hi + 1 - lo) - 1) * 2 ^ lo

/-- The common fields of every instruction (R117). -/
def commonMask : Nat := maskOf 11 0

/-- The lowest bit that is set. -/
def lowBit (n : Nat) : Nat := ((List.range 128).find? fun i => n / 2 ^ i % 2 == 1).getD 128

/-- The INFO of fault RESERVED (R145): the lowest non-zero bit outside the named fields, or lowest bit of a field that holds
a reserved value; nothing when the encoding is clean. `mask` names the fields, `bad` the fields with reserved values. Where both
hold, the lower of the two positions is recorded (DESIGN CHOICE, log entry 113). -/
def rsvInfo (mask : Nat) (bad : List (Bool × Nat)) (w : Nat) : Option Nat :=
  let r := w - (w &&& (mask ||| commonMask))
  let c := (if r = 0 then [] else [lowBit r]) ++ (bad.filter (·.1)).map (·.2)
  c.foldl (fun m b => match m with | some x => some (min x b) | none => some b) none

/-- The opcodes of R118. -/
def definedOpc (o : Nat) : Bool :=
  decide (o ≤ 0x06) || o == 0x08 || o == 0x09 || (decide (0x10 ≤ o) && decide (o ≤ 0x1B)) || o == 0x1D || o == 0x1F
    || o == 0x20 || o == 0x21 || o == 0x22 || o == 0x30 || o == 0x40 || o == 0x50 || o == 0x60 || o == 0x70 || o == 0x71
    || o == 0x72

/-- The opcode of a word. -/
def opc (w : Nat) : Nat := ifld w 7 0

/-! ### The effect of an instruction -/

/-- What an instruction does when it executes: it goes on at the next PC, goes to an address without END processing (LOOP), is
a taken branch, keeps its PC (BRK), or faults. -/
inductive Act where
  | next (s : State)
  | goto (s : State) (pc : Nat)
  | branch (s : State) (target : Nat)
  | stay (s : State)
  | fault (s : State) (code info : Nat)

/-- END processing (R124): the loops that remain and the next PC after the instruction at `pc` issues. -/
def endProc (pc : Nat) : List LoopEnt → List LoopEnt × Nat
  | [] => ([], pc + 1)
  | l :: r =>
    if l.stop ≠ pc then (l :: r, pc + 1)
    else if (l.iter + 1) % 2 ^ 32 = l.count then endProc pc r
    else ({ l with iter := (l.iter + 1) % 2 ^ 32 } :: r, l.start)

/-- What an issue does beside the instruction's effect: the counter, the arbiter, and state RUN (R111, R146). -/
def State.issued (s : State) (p c : Nat) : State :=
  (s.count (Reg.ISL_SEQ_CNT_ISSUE p c) 1).setFld (Reg.ISL_SEQ_STATUS p) Fd.ISL_SEQ_STATUS_FAV (1 - c)

/-- Moves to the next PC; at 16,384 the instruction's effect stays and the context stops with PC_RANGE (R125). -/
def State.toPc (s : State) (p c pc next : Nat) : State :=
  if next ≥ 16384 then s.seqFault p c 0x03 pc 0 else s.setPc p c next

/-- Completes an instruction's issue at `pc`: END processing, the branch check of R122, and the next PC. -/
def State.conclude (s : State) (p c pc : Nat) (a : Act) : State :=
  let ls := s.loops p c
  let (rest, after) := endProc pc ls
  match a with
  | .next t => ((t.issued p c).setLoops p c rest).toPc p c pc after
  | .goto t n => (t.issued p c).toPc p c pc n
  | .stay t => t.issued p c
  | .branch t n =>
    if rest.any fun l => decide (n < l.start) || decide (l.stop < n) then s.seqFault p c 0x05 pc n
    else ((t.issued p c).setLoops p c rest).setPc p c n
  | .fault t code info => t.seqFault p c code pc info

/-- The parts of an instruction's meaning: whether a word is this instruction, its reserved check, and its effect at a PC. -/
structure Meaning where
  mine : Nat → Bool
  rsv : Nat → Option Nat
  act : State → Nat → Nat → Act

/-! ### Readiness (R111) -/

/-- The registers of an origin pair (R132). -/
def originRegs (n : Nat) : List Nat := if n = 0 then [] else [n, n + 1]

/-- The register fields that an instruction reads, by its opcode. -/
def srcFields (w : Nat) : List Nat :=
  match opc w with
  | 0x03 => [ifld w 30 26]
  | 0x08 => ifld w 19 15 :: (if ifld w 25 25 = 1 then [] else [ifld w 24 20])
  | 0x20 => [ifld w 21 17]
  | 0x21 => [ifld w 16 12, ifld w 21 17]
  | 0x22 => [ifld w 21 17]
  | 0x30 => [ifld w 71 67, ifld w 76 72, ifld w 81 77, ifld w 96 92] ++ originRegs (ifld w 86 82) ++ originRegs (ifld w 91 87)
  | 0x40 => [ifld w 33 29, ifld w 52 48] ++ originRegs (ifld w 63 59)
  | 0x50 => [ifld w 20 16]
  | 0x60 => [ifld w 20 16]
  | o => if 0x10 ≤ o ∧ o ≤ 0x1B then ifld w 21 17 :: (if ifld w 27 27 = 1 then [] else [ifld w 26 22]) else []

/-- The source registers of an instruction (R111). s0 is a constant and always available (R108). -/
def srcRegs (w : Nat) : List Nat := (srcFields w).filter (· != 0)

/-- The Ferry that FSEL selects: 4q + FSEL (R135). -/
def ferryOf (p w : Nat) : Nat := 4 * quarterOf p + ifld w 13 12

/-- Matrix instructions of an Island that are not yet streaming (R114): those in the queue, and those accepted whose first
pass has not issued. -/
def Isl.mmWaiting (x : Isl) : Nat :=
  x.mmq.length + (x.arr.filter fun r => r.curSet == 0 && r.curG == 0).length

/-- Whether the engine queue or signal queue that an instruction needs has room (R114). -/
def State.hasRoom (s : State) (p c w : Nat) : Bool :=
  match opc w with
  | 0x30 => decide ((s.isl p).mmWaiting < 4)
  | 0x40 => decide ((s.isl p).ebbq.length < 8)
  | 0x50 => decide ((s.isl p).shlq.length < 8)
  | 0x60 => decide ((s.fry (ferryOf p w)).queue.length < 64)
  | 0x70 => decide ((s.ctx p c).sigq.length < 16)
  | 0x72 => decide ((s.ctx p c).sigq.length < 16)
  | _ => true

/-- The word of the instruction that a context issues next (R106, R107). -/
def State.iword (s : State) (p c : Nat) : Nat := leNat (s.bytes (progBase p + 16 * s.pc p c) 16)

/-- Whether the predicate of a word turns its instruction off (R117). -/
def State.predOff (s : State) (p c w : Nat) : Bool := s.pred p c (ifld w 10 8) == (ifld w 11 11 == 1)

/-- Whether a source register of an instruction still waits for its load, or its queue is full (R111). -/
def State.lacks (s : State) (p c w : Nat) : Bool :=
  (srcRegs w).any (fun r => (s.ctx p c).loads.any (·.rd == r)) || !s.hasRoom p c w

/-- Whether a context is ready to issue (R111): it runs, and its next instruction lacks nothing or is turned off. -/
def State.ready (s : State) (p c : Nat) : Bool :=
  s.runs p c && (s.predOff p c (s.iword p c) || !s.lacks p c (s.iword p c))

/-- Whether both contexts are ready and the round-robin pointer favours the other one, which then issues (R111). -/
def State.yields (s : State) (p c : Nat) : Bool :=
  s.ready p c && s.ready p (1 - c) && s.fld (Reg.ISL_SEQ_STATUS p) Fd.ISL_SEQ_STATUS_FAV == 1 - c

/-- A running context shows RUN while it is ready and STALL while it is not (R146). -/
def State.syncCtx (s : State) (p c : Nat) : State :=
  if s.runs p c then s.setSt p c (if s.ready p c then 1 else 2) else s

/-- Issue of one instruction by context (p, c). Nothing happens unless the context runs, the arbiter does not pick the other one,
and its next instruction is this one; a context that is not ready stalls. The fetch reads the word through the symbol code with
REQ 5 (R107). The checks come in the order UNDEF_OPC, predicate, RESERVED, then the instruction's own (R117, R118). -/
def State.issue (s : State) (p c : Nat) (m : Meaning) : State :=
  if !s.runs p c || s.yields p c then s
  else
    let pc := s.pc p c
    let a := progBase p + 16 * pc
    let (bytes, bad, t) := s.readMem a 16 5 (s.logicalOf p)
    let w := leNat bytes
    if bad then t.seqFault p c 0x0B pc pc
    else if !definedOpc (opc w) then t.seqFault p c 0x01 pc (opc w)
    else if !m.mine w then s
    else
      let t := t.setSt p c 1
      if s.predOff p c w then t.conclude p c pc (.next t)
      else if s.lacks p c w then s.setSt p c 2
      else match m.rsv w with
        | some b => t.seqFault p c 0x02 pc b
        | none => t.conclude p c pc (m.act t pc w)

/-- The outcome of an issue. -/
def State.issueOut (s : State) (p c : Nat) (m : Meaning) : Out := settled (s.issue p c m)

/-- Adds an issued instruction of a class and continues. -/
def State.addIssue (s : State) (p c cls pc : Nat) : Nat × State := s.addWork cls (.ctx p c) pc

/-! ### Control (R118, R122 to R127, R139, R140) -/

/-- NOP (R118). -/
def execNop (p : Fin 144) (c : Fin 2) (s : State) : Out :=
  s.issueOut p c ⟨fun w => opc w == 0x00, rsvInfo 0 [], fun s _ _ => .next s⟩

/-- HALT (R140): the context becomes IDLE once everything it has issued has completed; until then it waits. -/
def haltAct (p c : Nat) (s : State) : State :=
  if s.hasWork p c then (s.setSt p c 3).setCtx p c { s.ctx p c with wait := .halt, waitReported := false, waitCycles := 0 }
  else (s.stopCtx p c 0).islandMark p

/-- HALT (R140). -/
def execHalt (p : Fin 144) (c : Fin 2) (s : State) : Out :=
  s.issueOut p c ⟨fun w => opc w == 0x01, rsvInfo 0 [], fun s _ _ => .next (haltAct p c s)⟩

/-- BR (R122, R124). -/
def execBr (p : Fin 144) (c : Fin 2) (s : State) : Out :=
  s.issueOut p c ⟨fun w => opc w == 0x02, rsvInfo (maskOf 25 12) [],
    fun s _ w => .branch s (ifld w 25 12)⟩

/-- LOOP (R123): its fault, or the loop it pushes. Where several conditions of LOOP_STACK hold, an empty body (INFO 1) is
recorded before an overflow (0), and that before bad nesting (2) (DESIGN CHOICE, log entry 113). -/
def loopAct (p c : Nat) (s : State) (pc w : Nat) : Act :=
  let e := ifld w 25 12
  let n := if ifld w 30 26 = 0 then ifld w 63 32 else s.sreg p c (ifld w 30 26) % 2 ^ 32
  let ls := s.loops p c
  if e ≤ pc then .fault s 0x04 1
  else if ls.length ≥ 4 then .fault s 0x04 0
  else if ls.any fun l => decide (l.stop < e) then .fault s 0x04 2
  else if n = 0 then .goto s (e + 1)
  else .goto (s.setLoops p c (⟨pc + 1, e, n, 0⟩ :: ls)) (pc + 1)

/-- LOOP (R123). -/
def execLoop (p : Fin 144) (c : Fin 2) (s : State) : Out :=
  s.issueOut p c ⟨fun w => opc w == 0x03, rsvInfo (maskOf 30 12 ||| maskOf 63 32) [],
    loopAct p c⟩

/-- FENCE (R126). -/
def fenceAct (p c : Nat) (s : State) (w : Nat) : State :=
  let mask := ifld w 17 12
  if s.workBefore p c mask s.nextWork then
    (s.setSt p c 3).setCtx p c { s.ctx p c with wait := .fence mask s.nextWork, waitReported := false, waitCycles := 0 }
  else s

/-- FENCE (R126). -/
def execFence (p : Fin 144) (c : Fin 2) (s : State) : Out :=
  s.issueOut p c ⟨fun w => opc w == 0x04, rsvInfo (maskOf 17 12) [],
    fun s _ w => .next (fenceAct p c s w)⟩

/-- TMARK (R139, R140): state TMARK once everything the context has issued has completed. -/
def tmarkAct (p c : Nat) (s : State) (_pc w : Nat) : Act :=
  if ifld w 12 12 = 1 ∧ ifld w 63 32 ≠ s.seqTide p then .fault s 0x0C (ifld w 63 32)
  else if s.hasWork p c then
    .next ((s.setSt p c 3).setCtx p c { s.ctx p c with wait := .tmark, waitReported := false, waitCycles := 0 })
  else .next ((s.setSt p c 4).islandMark p)

/-- TMARK (R139). -/
def execTmark (p : Fin 144) (c : Fin 2) (s : State) : Out :=
  s.issueOut p c ⟨fun w => opc w == 0x05, rsvInfo (maskOf 12 12 ||| maskOf 63 32) [], tmarkAct p c⟩

/-- BRK (R127): the context stops with code BREAK and holds its PC. -/
def execBrk (p : Fin 144) (c : Fin 2) (s : State) : Out :=
  s.issueOut p c ⟨fun w => opc w == 0x06, rsvInfo 0 [],
    fun s pc _ => .stay (s.seqFault p c 0x10 pc 0)⟩

/-! ### Predicates (R121) -/

/-- The second operand of the ALU and of CMP: a register, or the sign-extended immediate. -/
def operandB (p c : Nat) (s : State) (w rb imm : Nat) : BitVec 64 :=
  if imm = 1 then BitVec.ofInt 64 (sext 32 (ifld w 63 32)) else BitVec.ofNat 64 (s.sreg p c rb)

/-- The comparison of CMP. -/
def cmpCond (cond : Nat) (a b : BitVec 64) : Bool :=
  match cond with
  | 0 => a == b
  | 1 => a != b
  | 2 => a.slt b
  | 3 => !a.slt b
  | 4 => a.ult b
  | _ => !a.ult b

/-- CMP (R121). -/
def execCmp (p : Fin 144) (c : Fin 2) (s : State) : Out :=
  s.issueOut p c ⟨fun w => opc w == 0x08,
    fun w => rsvInfo (maskOf 29 12 ||| maskOf 63 32) [(ifld w 14 12 == 0, 12), (decide (ifld w 29 26 > 5), 26)] w,
    fun s _ w => .next (s.setPred p c (ifld w 14 12)
      (cmpCond (ifld w 29 26) (BitVec.ofNat 64 (s.sreg p c (ifld w 19 15))) (operandB p c s w (ifld w 24 20) (ifld w 25 25))))⟩

/-- The combination of PSET. -/
def psetOp (op : Nat) (a b : Bool) : Bool :=
  match op with
  | 0 => a && b
  | 1 => a || b
  | 2 => a != b
  | _ => a && !b

/-- PSET (R121). -/
def execPset (p : Fin 144) (c : Fin 2) (s : State) : Out :=
  s.issueOut p c ⟨fun w => opc w == 0x09,
    fun w => rsvInfo (maskOf 23 12) [(ifld w 14 12 == 0, 12)] w,
    fun s _ w => .next (s.setPred p c (ifld w 14 12)
      (psetOp (ifld w 22 21) (s.pred p c (ifld w 17 15) != (ifld w 23 23 == 1)) (s.pred p c (ifld w 20 18))))⟩

/-! ### Scalar ALU (R119, R120) -/

/-- An ALU instruction: opcode and function of its two operands. -/
def aluMeaning (p c code : Nat) (f : BitVec 64 → BitVec 64 → BitVec 64) : Meaning :=
  ⟨fun w => opc w == code, rsvInfo (maskOf 27 12 ||| maskOf 63 32) [],
    fun s _ w => .next (s.setSreg p c (ifld w 16 12)
      (f (BitVec.ofNat 64 (s.sreg p c (ifld w 21 17))) (operandB p c s w (ifld w 26 22) (ifld w 27 27))).toNat)⟩

/-- The shift amount: bits [5:0] of the second operand. -/
def shamt (b : BitVec 64) : Nat := b.toNat % 64

/-- ADD (R120). -/
def execAdd (p : Fin 144) (c : Fin 2) (s : State) : Out := s.issueOut p c (aluMeaning p c 0x10 fun a b => a + b)
/-- SUB (R120). -/
def execSub (p : Fin 144) (c : Fin 2) (s : State) : Out := s.issueOut p c (aluMeaning p c 0x11 fun a b => a - b)
/-- MUL (R120). -/
def execMul (p : Fin 144) (c : Fin 2) (s : State) : Out := s.issueOut p c (aluMeaning p c 0x12 fun a b => a * b)
/-- AND (R120). -/
def execAnd (p : Fin 144) (c : Fin 2) (s : State) : Out := s.issueOut p c (aluMeaning p c 0x13 fun a b => a &&& b)
/-- OR (R120). -/
def execOr (p : Fin 144) (c : Fin 2) (s : State) : Out := s.issueOut p c (aluMeaning p c 0x14 fun a b => a ||| b)
/-- XOR (R120). -/
def execXor (p : Fin 144) (c : Fin 2) (s : State) : Out := s.issueOut p c (aluMeaning p c 0x15 fun a b => a ^^^ b)
/-- SHL (R120). -/
def execShl (p : Fin 144) (c : Fin 2) (s : State) : Out := s.issueOut p c (aluMeaning p c 0x16 fun a b => a <<< shamt b)
/-- SHR (R120). -/
def execShr (p : Fin 144) (c : Fin 2) (s : State) : Out := s.issueOut p c (aluMeaning p c 0x17 fun a b => a >>> shamt b)
/-- SRA (R120). -/
def execSra (p : Fin 144) (c : Fin 2) (s : State) : Out :=
  s.issueOut p c (aluMeaning p c 0x18 fun a b => a.sshiftRight (shamt b))
/-- MIN (R120). -/
def execMin (p : Fin 144) (c : Fin 2) (s : State) : Out :=
  s.issueOut p c (aluMeaning p c 0x19 fun a b => if a.slt b then a else b)
/-- MAX (R120). -/
def execMax (p : Fin 144) (c : Fin 2) (s : State) : Out :=
  s.issueOut p c (aluMeaning p c 0x1A fun a b => if a.slt b then b else a)
/-- MINU (R120). -/
def execMinu (p : Fin 144) (c : Fin 2) (s : State) : Out :=
  s.issueOut p c (aluMeaning p c 0x1B fun a b => if a.ult b then a else b)

/-- The system value that SEL names (R120). -/
def State.sysValue (s : State) (p c sel : Nat) : Nat :=
  match sel with
  | 0 => s.seqTide p
  | 1 => s.logicalOf p
  | 2 => s.selfId (quarterOf p)
  | 3 => c
  | 4 => s.mctx p c
  | n => match (s.loops p c)[n - 5]? with
    | some l => l.iter
    | none => 0

/-- RDSYS (R120). -/
def execRdsys (p : Fin 144) (c : Fin 2) (s : State) : Out :=
  s.issueOut p c ⟨fun w => opc w == 0x1D,
    fun w => rsvInfo (maskOf 16 12 ||| maskOf 35 32) [(decide (ifld w 35 32 > 8), 32)] w,
    fun s _ w => .next (s.setSreg p c (ifld w 16 12) (s.sysValue p c (ifld w 35 32)))⟩

/-- LI (R119). -/
def execLi (p : Fin 144) (c : Fin 2) (s : State) : Out :=
  s.issueOut p c ⟨fun w => opc w == 0x1F, rsvInfo (maskOf 16 12 ||| maskOf 127 64) [],
    fun s _ w => .next (s.setSreg p c (ifld w 16 12) (ifld w 127 64))⟩

/-! ### Scalar memory (R128 to R130) -/

/-- The accessor of a context's scalar loads and stores. -/
def scalarAcc (s : State) (p c : Nat) : Acc := ⟨quarterOf p, s.mctx p c, s.logicalOf p, 4, 5, 0⟩

/-- The fault of a scalar access (R128): XLATE or PROT with the address. -/
def scalarFault (f : XFail) (va : Int) : Nat × Nat := (if f.kind = 1 then 0x0A else 0x09, toPat 32 va)

/-- The physical address of an aligned scalar access, or its fault; a failed access is recorded in CHT_ERR (R192). A misaligned
address faults ALIGN before it is translated, so that nothing is recorded (DESIGN CHOICE, log entry 113). -/
def State.scalarAddr (s : State) (p c : Nat) (va : Int) (n : Nat) (wr : Bool) : Except (Nat × Nat) Nat × State :=
  if va % (n : Int) ≠ 0 then (.error (0x08, toPat 32 va), s)
  else match s.xlate (scalarAcc s p c) va wr with
    | (.ok pa, s) => (.ok pa, s)
    | (.error f, s) => (.error (scalarFault f va), s.recordX (scalarAcc s p c) wr f)

/-- The base plus the signed offset, exactly (R128, R192). -/
def scalarVa (p c : Nat) (s : State) (w : Nat) : Int := (s.sreg p c (ifld w 21 17) : Int) + sext 32 (ifld w 63 32)

/-- Issues a scalar load: the data are read in issue order, and come back later (R113, R116, log entry 10). -/
def State.startLoad (s : State) (p c pc rd n : Nat) (va : Int) (k : LoadKind) : Act :=
  match s.scalarAddr p c va n false with
  | (.error (code, info), t) => .fault t code info
  | (.ok pa, t) =>
    let r := t.readChk pa n 5 (t.logicalOf p)
    let t := if r.bad then r.st.raisePlaus p else r.st
    let x := t.ctx p c
    .next (t.setCtx p c { x with loads := x.loads ++ [⟨rd, k, leNat r.data, pc⟩] })

/-- Bytes of a SIZE code (R128). -/
def scalarSize (n : Nat) : Nat := if n = 1 then 8 else 4

/-- LDS (R128). -/
def execLds (p : Fin 144) (c : Fin 2) (s : State) : Out :=
  s.issueOut p c ⟨fun w => opc w == 0x20,
    fun w => rsvInfo (maskOf 23 12 ||| maskOf 63 32) [(ifld w 23 22 == 3, 22)] w,
    fun s pc w => s.startLoad p c pc (ifld w 16 12) (scalarSize (ifld w 23 22)) (scalarVa p c s w) (.lds (ifld w 23 22))⟩

/-- STS (R128): the store is written in issue order. -/
def stsAct (p c : Nat) (s : State) (_pc w : Nat) : Act :=
  let n := scalarSize (ifld w 23 22)
  match s.scalarAddr p c (scalarVa p c s w) n true with
  | (.error (code, info), t) => .fault t code info
  | (.ok pa, t) =>
    let r := t.writeChk pa (leBytes n (s.sreg p c (ifld w 16 12))) 5 (t.logicalOf p)
    .next (if r.bad then r.st.raisePlaus p else r.st)

/-- STS (R128). -/
def execSts (p : Fin 144) (c : Fin 2) (s : State) : Out :=
  s.issueOut p c ⟨fun w => opc w == 0x21,
    fun w => rsvInfo (maskOf 23 12 ||| maskOf 63 32) [(ifld w 23 22 == 3, 22)] w,
    stsAct p c⟩

/-- LDSHAPE (R129, R130): a clamp Buoy above the logical count faults at issue, before the address is formed (DESIGN CHOICE, log
entry 113). -/
def ldshapeAct (p c : Nat) (s : State) (pc w : Nat) : Act :=
  let cbv := ifld w 22 22 == 1
  if cbv && decide (ifld w 30 23 ≥ s.logicalCount) then .fault s 0x0E (ifld w 30 23)
  else s.startLoad p c pc (ifld w 16 12) 4 (scalarVa p c s w) (.shape (ifld w 95 64) cbv (ifld w 30 23) (ifld w 109 96))

/-- LDSHAPE (R129). -/
def execLdshape (p : Fin 144) (c : Fin 2) (s : State) : Out :=
  s.issueOut p c ⟨fun w => opc w == 0x22, rsvInfo (maskOf 30 12 ||| maskOf 109 32) [],
    ldshapeAct p c⟩

/-- The value that a returning load writes: SIZE 0 zero-extends, 2 sign-extends (R128). -/
def ldsValue (size v : Nat) : Nat := if size = 2 then toPat 64 (sext 32 v) else v

/-- A clamp (R130): counted, flagged, and signalled to the clamp Buoy when CBV is 1. -/
def State.shapeClamp (s : State) (p c pc : Nat) (cbv : Bool) (lisl bidx : Nat) : State :=
  let s := (s.count (Reg.ISL_SEQ_CNT_CLAMP p) 1).setFld (Reg.ISL_SEQ_EVT p) Fd.ISL_SEQ_EVT_CLAMP 1
  if cbv then
    s.buoyArrive (s.home lisl)
      { port := islPort (s.home lisl) p, bidx := bidx, tl := lisl, kind := 4, val := 1, mod := s.selfId (quarterOf p),
        lisl := s.logicalOf p, sctx := c, pc := pc, src := none, answer := none }
  else s

/-- SCALAR_LOAD_RETURN (R113, R130): the oldest load's data reach its destination register; a shape word is clamped. -/
def execScalarLoadReturn (p : Fin 144) (c : Fin 2) (s : State) : Out :=
  let x := s.ctx p c
  match x.loads with
  | [] => .next s
  | l :: r =>
    let s := s.setCtx p c { x with loads := r }
    let s := match l.kind with
      | .lds size => s.setSreg p c l.rd (ldsValue size l.val)
      | .shape mx cbv lisl bidx =>
        (if l.val > mx then s.shapeClamp p c l.pc cbv lisl bidx else s).setSreg p c l.rd (min l.val mx)
    settled ((s.wakeCtx p c).islandMark p)

/-! ### Origins (R132) -/

/-- The six origin coordinates of an origin register pair; 0 gives zeros. -/
def State.origin (s : State) (p c n : Nat) : List Nat :=
  if n = 0 then [0, 0, 0, 0, 0, 0]
  else
    let a := s.sreg p c n
    let b := s.sreg p c (n + 1)
    [bitsOf a 31 0, bitsOf a 63 32, bitsOf b 15 0, bitsOf b 31 16, bitsOf b 47 32, bitsOf b 63 48]

/-! ### Matrix instructions (R131 to R133) -/

/-- L of R73: elements per DPU pass of an operand pair (R52), 0 for a pair that R52 does not list. -/
def pairL (fa fb : Nat) : Nat :=
  if fa = fb ∧ (fa = 0 ∨ fa = 1 ∨ fa = 2) then 32
  else if (fa = 3 ∨ fa = 4) ∧ (fb = 3 ∨ fb = 4) then 64
  else if fa = fb ∧ fa = 5 then 64
  else if fa = fb ∧ fa = 6 then 128
  else if fa = fb ∧ fa = 7 then 64
  else 0

/-- A walk descriptor (R102): the 32 bytes of ACC_WALK slot `i`. -/
def State.walkDesc (s : State) (p i : Nat) : Nat :=
  leNat ((List.range 8).flatMap fun j => leBytes 4 (s.reg (Reg.ACC_WALK p i j)).toNat)

/-- NSP of a walk descriptor. -/
def walkNsp (d : Nat) : Nat := bitsOf d 2 0
/-- CHAN of a walk descriptor. -/
def walkChan (d : Nat) : Nat := bitsOf d 63 32
/-- OUT[i]. -/
def walkOut (d i : Nat) : Nat := bitsOf d (64 + 16 * i + 15) (64 + 16 * i)
/-- FLT[i]. -/
def walkFlt (d i : Nat) : Nat := bitsOf d (128 + 8 * i + 7) (128 + 8 * i)
/-- STR[i]. -/
def walkStr (d i : Nat) : Nat := bitsOf d (160 + 8 * i + 7) (160 + 8 * i)
/-- DIL[i]. -/
def walkDil (d i : Nat) : Nat := bitsOf d (192 + 8 * i + 7) (192 + 8 * i)
/-- PAD[i]. -/
def walkPad (d i : Nat) : Nat := bitsOf d (224 + 8 * i + 7) (224 + 8 * i)

/-- Whether a walk descriptor is valid (R102). -/
def walkOk (d : Nat) : Bool :=
  decide (1 ≤ walkNsp d) && decide (walkNsp d ≤ 4) && decide (1 ≤ walkChan d) && decide (walkChan d ≤ 65536)
    && (List.range (walkNsp d)).all fun i =>
      walkOut d i != 0 && walkFlt d i != 0 && walkStr d i != 0 && walkDil d i != 0

/-- The product of the used FLT fields. -/
def walkFlts (d : Nat) : Nat := ((List.range (walkNsp d)).map (walkFlt d)).prod

/-- NB of a matrix instruction (R85). -/
def MmOp.nb (o : MmOp) : Nat := (o.n + 31) / 32
/-- The span of a matrix instruction (R85). -/
def MmOp.span (o : MmOp) : Nat := if o.mode = 2 then 16 * o.m else o.m
/-- G of a matrix instruction (R85). -/
def MmOp.g (o : MmOp) : Nat := if o.mode = 2 then o.m else (o.m + 15) / 16
/-- The last tile row of a matrix instruction's footprint, plus one (R115). -/
def MmOp.top (o : MmOp) : Nat := o.base + (o.nb - 1) * o.nstr + o.span

/-- The lowest INFO of MM_PARAM that holds (R133). -/
def State.mmParam (s : State) (p : Nat) (o : MmOp) : Option Nat :=
  let d := s.walkDesc p o.aux
  let mx := o.fa == 5 || o.fa == 6 || o.fb == 5 || o.fb == 6
  if o.m = 0 ∨ o.m > (if o.mode = 2 then 512 else 8192) ∨ o.n = 0 ∨ o.n > 8192 ∨ o.k = 0 ∨ o.k > 65536 then some 0
  else if pairL o.fa o.fb = 0 then some 1
  else if o.top > 8192 ∨ o.base > 8191 then some 2
  else if o.nb > 1 ∧ (o.nstr < o.span ∨ o.nstr % 16 ≠ 0) then some 3
  else if o.mode = 1 ∧ (!walkOk d ∨ o.ta ∨ o.k ≠ walkChan d * walkFlts d) then some 4
  else if mx ∧ (o.ta ∨ o.tb ∨ (o.mode = 1 ∧ walkChan d % 32 ≠ 0)) then some 5
  else none

/-- The matrix instruction that a word and its registers give (R131, R132). -/
def State.mmOf (s : State) (p c pc id w : Nat) : MmOp :=
  { id := id, c := c, pc := pc, mode := ifld w 13 12, add := ifld w 14 14 == 1, ta := ifld w 15 15 == 1,
    tb := ifld w 16 16 == 1, fa := ifld w 20 17, fb := ifld w 24 21, cha := ifld w 30 25, chb := ifld w 36 31,
    aux := ifld w 40 37, base := ifld w 53 41 + s.sreg p c (ifld w 96 92) % 2 ^ 13, nstr := ifld w 66 54,
    m := s.sreg p c (ifld w 71 67), n := s.sreg p c (ifld w 76 72), k := s.sreg p c (ifld w 81 77),
    orgA := s.origin p c (ifld w 86 82), orgB := s.origin p c (ifld w 91 87) }

/-- The reserved check of MM (R118): a reserved format code alone is MM_PARAM. -/
def mmRsv (w : Nat) : Option Nat :=
  let other := rsvInfo (maskOf 96 12)
    [(ifld w 13 12 == 3, 12), (ifld w 86 82 == 31, 82), (ifld w 91 87 == 31, 87),
     (ifld w 13 12 == 0 && ifld w 40 37 != 0, 37 + lowBit (ifld w 40 37))] w
  match other with
  | none => none
  | some b =>
    let fa := if ifld w 20 17 > 8 then min b 17 else b
    some (if ifld w 24 21 > 8 then min fa 21 else fa)

/-- MM (R131, R133): MM_PARAM, the lowest INFO first; a reserved format code before the other parameters. -/
def mmAct (p c : Nat) (s : State) (pc w : Nat) : Act :=
  let o := s.mmOf p c pc s.nextWork w
  if ifld w 20 17 > 8 ∨ ifld w 24 21 > 8 then .fault s 0x06 1
  else match s.mmParam p o with
    | some i => .fault s 0x06 i
    | none =>
      let (_, s) := s.addIssue p c 0 pc
      let x := s.isl p
      .next (s.setIsl p { x with mmq := x.mmq ++ [o] })

/-- MM (R131). -/
def execMm (p : Fin 144) (c : Fin 2) (s : State) : Out :=
  s.issueOut p c ⟨fun w => opc w == 0x30, mmRsv, mmAct p c⟩

/-! ### Engine instructions (R134, R135) -/

/-- DRAIN (R134). A count that fails (INFO 0) is recorded before a range that fails (1) (DESIGN CHOICE, log entry 113). -/
def drainAct (p c : Nat) (s : State) (pc w : Nat) : Act :=
  let trow := ifld w 28 16 + s.sreg p c (ifld w 33 29) % 2 ^ 13
  let n := if ifld w 52 48 = 0 then ifld w 47 34 else s.sreg p c (ifld w 52 48) % 2 ^ 14
  if n = 0 ∨ n > 8192 then .fault s 0x07 0
  else if trow + n - 1 > 8191 then .fault s 0x07 1
  else
    let (id, s) := s.addIssue p c 1 pc
    let x := s.isl p
    let s := s.setIsl p { x with ebbq := x.ebbq ++ [⟨id, c, pc, ifld w 15 12, trow, n, ifld w 58 53, s.origin p c (ifld w 63 59)⟩] }
    .next (s.setFld (Reg.EBB_STATUS p) Fd.EBB_STATUS_QDEPTH (x.ebbq.length + 1))

/-- DRAIN (R134). -/
def execDrain (p : Fin 144) (c : Fin 2) (s : State) : Out :=
  s.issueOut p c ⟨fun w => opc w == 0x40, fun w => rsvInfo (maskOf 63 12) [(ifld w 63 59 == 31, 59)] w,
    drainAct p c⟩

/-- The descriptor address of SHOAL and FERRY (R135), exact. -/
def descVa (p c : Nat) (s : State) (w : Nat) : Int := (s.sreg p c (ifld w 20 16) : Int) + sext 32 (ifld w 63 32)

/-- Issue of a SHOAL instruction (R135). -/
def shoalAct (p c : Nat) (s : State) (pc w : Nat) : Act :=
  let va := descVa p c s w
  if va % 64 ≠ 0 then .fault s 0x08 (toPat 32 va)
  else
    let (id, s) := s.addIssue p c 2 pc
    let x := s.isl p
    let s := s.setIsl p { x with shlq := x.shlq ++ [⟨id, c, pc, ifld w 15 12, va⟩] }
    .next (s.setFld (Reg.SHL_STATUS p) Fd.SHL_STATUS_QDEPTH (x.shlq.length + 1))

/-- Issue of the SHOAL instruction of one sub-operation; a reserved SOP faults RESERVED whichever row it is met under
(R217). -/
def shoalIssue (sop : Nat) (p : Fin 144) (c : Fin 2) (s : State) : State :=
  s.issue p c ⟨fun w => opc w == 0x50 && (ifld w 15 12 == sop || decide (ifld w 15 12 > 7)),
    fun w => rsvInfo (maskOf 20 12 ||| maskOf 63 32) [(decide (ifld w 15 12 > 7), 12)] w,
    shoalAct p c⟩

/-- FERRY (R135). -/
def ferryAct (p c : Nat) (s : State) (pc w : Nat) : Act :=
  let va := descVa p c s w
  if va % 64 ≠ 0 then .fault s 0x08 (toPat 32 va)
  else
    let (id, s) := s.addIssue p c 3 pc
    let f := ferryOf p w
    let x := s.fry f
    let s := s.setFry f { x with queue := x.queue ++ [⟨id, .ctx p c, pc, va, false⟩] }
    .next (s.setFld (Reg.FRY_STATUS (f / 4) (f % 4)) Fd.FRY_STATUS_QDEPTH (x.queue.length + 1))

/-- FERRY (R135). -/
def execFerry (p : Fin 144) (c : Fin 2) (s : State) : Out :=
  s.issueOut p c ⟨fun w => opc w == 0x60, rsvInfo (maskOf 13 12 ||| maskOf 20 16 ||| maskOf 63 32) [],
    ferryAct p c⟩

/-! ### Buoy instructions (R136 to R138) -/

/-- BSIG and BRST (R136, R137): the operation enters the context's signal queue. -/
def sigAct (rst : Bool) (p c : Nat) (s : State) (pc w : Nat) : Act :=
  let l := ifld w 30 23
  if l ≥ s.logicalCount then .fault s 0x0E l
  else
    let (id, s) := s.addIssue p c 4 pc
    let x := s.ctx p c
    let g : Sig := ⟨id, rst, ifld w 12 12 == 1, ifld w 22 13, l, ifld w 44 31, if rst then 0 else sext 32 (ifld w 95 64),
      ifld w 50 45, pc⟩
    .next (s.setCtx p c { x with sigq := x.sigq ++ [g] })

/-- BSIG (R137). -/
def execBsig (p : Fin 144) (c : Fin 2) (s : State) : Out :=
  s.issueOut p c ⟨fun w => opc w == 0x70, rsvInfo (maskOf 50 12 ||| maskOf 95 64) [],
    sigAct false p c⟩

/-- BRST (R151). -/
def execBrst (p : Fin 144) (c : Fin 2) (s : State) : Out :=
  s.issueOut p c ⟨fun w => opc w == 0x72, rsvInfo (maskOf 50 12) [], sigAct true p c⟩

/-- Records a wait at the Buoy unit (R152, R157, R158). -/
def State.registerWait (s : State) (q b : Nat) (thr : Int) (p c pc : Nat) : State :=
  let x := s.qtr q
  let s := (s.setQtr q { x with waits := x.waits ++ [⟨b, thr, p, c⟩] }).syncWaiters q b
  let g := 16384 * q + b
  let s := (s.setReg (Reg.BUOY_LWAIT_SRC g) (BitVec.ofNat 32 (s.logicalOf p % 256 + (c % 2) * 2 ^ 8 + (pc % 2 ^ 14) * 2 ^ 9
    + 2 ^ 23))).setReg (Reg.BUOY_LWAIT_THR g) (BitVec.ofNat 32 (toPat 32 thr))
  s.count (Reg.BUOY_CNT_OPS q) 1

/-- BWAIT (R138, R152). -/
def bwaitAct (p c : Nat) (s : State) (pc w : Nat) : Act :=
  let l := ifld w 30 23
  let b := ifld w 44 31
  let thr := sext 32 (ifld w 95 64)
  if l ≥ s.logicalCount then .fault s 0x0E l
  else if thr ≤ (s.buoy (s.home l) b : Int) then .next s
  else
    let s := s.registerWait (s.home l) b thr p c pc
    .next ((s.setSt p c 3).setCtx p c { s.ctx p c with wait := .buoy b thr, waitReported := false, waitCycles := 0 })

/-- BWAIT (R138). -/
def execBwait (p : Fin 144) (c : Fin 2) (s : State) : Out :=
  s.issueOut p c ⟨fun w => opc w == 0x71, rsvInfo (maskOf 44 23 ||| maskOf 95 64) [], bwaitAct p c⟩

/-- A signal-queue entry is on its way (R137): to a Buoy of this module over the mesh and the Isthmus, to one of another module by a
BUOY message. -/
def State.sendSig (s : State) (p c : Nat) (g : Sig) : State :=
  let q := quarterOf p
  if g.rem && g.mod != s.selfId q then
    let (vc, st) := s.engVc (s.logicalOf p)
    let m := reqMsg 5 vc 0 false g.mod (buoyFields g.lisl g.bidx (if g.rst then 1 else 0) g.val) [] []
    s.request q st m (.sig g.id p c g.lisl g.bidx g.pc)
  else
    s.buoyArrive (s.home g.lisl)
      { port := islPort (s.home g.lisl) p, bidx := g.bidx, tl := g.lisl, kind := if g.rst then 2 else 1, val := g.val,
        mod := s.selfId q, lisl := s.logicalOf p, sctx := c, pc := g.pc, src := some (p, c, g.id), answer := none }

/-- The UNIT word of the Isthmus pair between two Quarters (R462). -/
def pairUnit (a b : Nat) : Nat := 0x6000 + (if min a b = 0 then max a b - 1 else a + b)

/-- The UNIT word of the pair that a signal-queue entry crosses the Isthmus on, none where it does not. -/
def State.sigPair (s : State) (p : Nat) (g : Sig) : Option Nat :=
  if (g.rem && g.mod != s.selfId (quarterOf p)) || s.home g.lisl == quarterOf p then none
  else some (pairUnit (quarterOf p) (s.home g.lisl))

/-- A transfer over an Isthmus pair fails its CRC `n` times in a row (R447): `n` resends below ISTH_LIMIT bring it over; at the limit
the pair has failed, and the firmware raises FAIL. -/
def State.isthmusFails (s : State) (unit n : Nat) : State :=
  let s := s.reexec 9 unit (min n s.fw.isthLimit) 0 0
  if n < s.fw.isthLimit then s
  else (s.toHandler (engEvent 10 unit 0 (tget (fun _ => 0) s.tide.redone unit) 0 0)).failHere 6

/-- SIGNAL_QUEUE_SEND (R137): the oldest entry is sent once the earlier work in its AFTER classes has completed. The operand says
how often its transfer over the Isthmus fails in a row (R447); one that the pair gives up stays unsent (log entry 126). -/
def execSignalQueueSend (p : Fin 144) (o : SigSend) (s : State) : Out :=
  let c := o.c
  let resends := o.resends
  let x := s.ctx p c
  match x.sigq with
  | [] => .next s
  | g :: r =>
    if s.workBefore p c g.after g.id then .next s
    else
      match if resends = 0 then none else s.sigPair p g with
      | none => settled ((s.setCtx p c { x with sigq := r }).sendSig p c g)
      | some u =>
        if resends < s.fw.isthLimit then settled (((s.isthmusFails u resends).setCtx p c { x with sigq := r }).sendSig p c g)
        else settled (s.isthmusFails u resends)

/-- BUOY_APPLY (R153): one ARR cycle of a Quarter's Buoy unit. -/
def execBuoyApply (q : Fin 4) (s : State) : Out := settled (s.buoyCycle q)

/-- BUOY_RELEASE (R152): a release that its unit has sent reaches the waiting context, which resumes. -/
def execBuoyRelease (p : Fin 144) (c : Fin 2) (s : State) : Out :=
  match (List.range 4).find? fun q => (s.qtr q).releases.contains (p.val, c.val) with
  | none => .next s
  | some q =>
    let x := s.qtr q
    let s := s.setQtr q { x with releases := x.releases.erase (p.val, c.val) }
    match s.ctxSt p c, (s.ctx p c).wait with
    | 3, .buoy _ _ =>
      .next ((s.setCtx p c { s.ctx p c with wait := .none, waitReported := false, waitCycles := 0 }).setSt p c 1)
    | _, _ => .next s

/-- WAIT_REPORT (R138): a context that has waited longer than ISL_SEQ_WTO.LIMIT × 1,024 cycles is reported, once per wait. A
LIMIT of 0 turns the report off. The command is the passing of the limit, and the model's cycle count need not reach it (log
entry 20). -/
def execWaitReport (p : Fin 144) (c : Fin 2) (s : State) : Out :=
  let x := s.ctx p c
  if s.ctxSt p c = 3 ∧ !x.waitReported ∧ s.fld (Reg.ISL_SEQ_WTO p) Fd.ISL_SEQ_WTO_LIMIT ≠ 0 then
    .next (((s.setCtx p c { x with waitReported := true }).setFld (Reg.ISL_SEQ_EVT p) (waitLongFld c) 1).report .waitLong p c 0)
  else .next s

/-! ### RUN bits (R145, R146) -/

/-- ISL_SEQ_RUN (R145): a STOPPED or IDLE context resumes at ISL_SEQ_PC. A RETIRED Island stays clock-gated (R41), so that it does
not (DEDUCED, log entry 114). -/
def State.runCtx (s : State) (p c : Nat) : State :=
  if s.ctxStopped p c && s.pstate p != 6 then (s.setFld (Reg.ISL_SEQ_CTL p) (runFld c) 1).setSt p c 1 else s

/-- ISL_SEQ_STOP (R146): the context stops with no fault record; its signals stay in their queue (R150). An IDLE context stays
IDLE. -/
def State.stopRun (s : State) (p c : Nat) : State :=
  if s.ctxSt p c = 0 ∨ s.ctxSt p c = 5 then s.setFld (Reg.ISL_SEQ_CTL p) (runFld c) 0 else s.stopCtx p c 5

/-- ISL_SEQ_RUN (R145). -/
def execIslSeqRun (r : Requester) (p : Fin 144) (c : Fin 2) (s : State) : Out :=
  .next (s.guarded r (Reg.ISL_SEQ_CTL p) fun s => s.runCtx p c)

/-- ISL_SEQ_STOP (R146). -/
def execIslSeqStop (r : Requester) (p : Fin 144) (c : Fin 2) (s : State) : Out :=
  .next (s.guarded r (Reg.ISL_SEQ_CTL p) fun s => s.stopRun p c)

/-! ### Hand writes and dumps of Buoys (R155, R156, R159) -/

/-- BUOY_VAL_WRITE (R155, R156). -/
def State.buoyHand (s : State) (r : Requester) (q b v : Nat) : State :=
  let g := 16384 * q + b
  let a := Reg.BUOY_VAL g
  match r with
  | .shore _ => s.denied r a
  | .mgmt => s.denied r a
  | _ =>
    let n := v % 2 ^ 31
    let s := (s.setBuoy q b n).setFld (Reg.BUOY_FLAGS g) Fd.BUOY_FLAGS_HAND 1
    let s := ((s.recordSig q b (s.selfId q) 0xFF 0 3 0 0 n).count (Reg.BUOY_CNT_HAND q) 1).count (Reg.BUOY_CNT_OPS q) 1
    let s := s.buoyChanged q b
    if s.loaded then ((List.range 36).map (36 * q + ·)).foldl State.raisePlaus s else s

/-- BUOY_VAL_WRITE (R155). -/
def execBuoyValWrite (r : Requester) (q : Fin 4) (b : Fin 16384) (v : BitVec 32) (s : State) : Out :=
  if s.up then .next (s.buoyHand r q b v.toNat) else .next s

/-- BUOY_DUMP_GO (R159): a dump starts at Buoy 0. A GO while one runs changes nothing. -/
def State.dumpGo (s : State) (q : Nat) : State :=
  if s.bit (Reg.BUOY_DUMP_CTL q) Fd.BUOY_DUMP_CTL_GO then s
  else (s.setQtr q { s.qtr q with dumpPos := 0 }).setFld (Reg.BUOY_DUMP_CTL q) Fd.BUOY_DUMP_CTL_GO 1

/-- BUOY_DUMP_GO (R159). -/
def execBuoyDumpGo (r : Requester) (q : Fin 4) (s : State) : Out :=
  .next (s.guarded r (Reg.BUOY_DUMP_CTL q) fun s => s.dumpGo q)

/-- The 32 bytes of a dump record (R159). -/
def State.dumpRecord (s : State) (q b : Nat) : List Byte :=
  let g := 16384 * q + b
  ([Reg.BUOY_VAL g, Reg.BUOY_FLAGS g, Reg.BUOY_LSIG_SRC g, Reg.BUOY_LSIG_INFO g, Reg.BUOY_LSIG_VAL g, Reg.BUOY_LWAIT_SRC g,
    Reg.BUOY_LWAIT_THR g].flatMap fun a => leBytes 4 (s.reg a).toNat) ++ leBytes 4 (q % 4 + b * 4)

/-- BUOY_DUMP_RECORD (R159): one record, in a cycle in which the unit applies no operation. A write that fails stops the dump
with ERR. -/
def execBuoyDumpRecord (q : Fin 4) (s : State) : Out :=
  let x := s.qtr q
  let ctl := Reg.BUOY_DUMP_CTL q
  if !s.bit ctl Fd.BUOY_DUMP_CTL_GO ∨ !x.arrivals.isEmpty then .next s
  else
    let b := x.dumpPos
    let base := s.addr48 (Reg.BUOY_DUMP_ADDR_LO q) (Reg.BUOY_DUMP_ADDR_HI q)
    let r := s.writeChk (base + 32 * b) (s.dumpRecord q b) 6 0xFF
    if r.kind ≠ 0 then .next ((r.st.setFld ctl Fd.BUOY_DUMP_CTL_ERR 1).setFld ctl Fd.BUOY_DUMP_CTL_GO 0)
    else if b = 16383 then
      .next (((r.st.setQtr q { r.st.qtr q with dumpPos := 0 }).setFld ctl Fd.BUOY_DUMP_CTL_GO 0).setFld ctl
        Fd.BUOY_DUMP_CTL_DONE 1)
    else .next (r.st.setQtr q { r.st.qtr q with dumpPos := b + 1 })

end Sys2Proof.Machine
end

