-- ==== Sys2Proof/Machine/Array.lean ====
section
/-! DEFINITION. The dense array (chapter 3): acceptance of a matrix instruction, weight-set loads, row-group passes and their
arithmetic (R52 to R60), K-slice skipping (R103), the applying of passes to the accumulator (R56 to R58, R89), sentinel
sampling (R442 to R444), and the start-up clear (R97). A pass of all 16 rows is one step; the stagger of R82 changes only
when its rows reach the accumulator. -/

namespace Sys2Proof.Machine

/-! ### Extents (R71, R85) -/

/-- L of a matrix instruction. -/
def MmOp.l (o : MmOp) : Nat := pairL o.fa o.fb
/-- S, the number of K slices. -/
def MmOp.s (o : MmOp) : Nat := (o.k + o.l - 1) / o.l
/-- W, the number of weight sets. -/
def MmOp.w (o : MmOp) : Nat := o.s * o.nb
/-- Whether the operands are FP32, whose weight sets take both buffers (R77). -/
def MmOp.fp32 (o : MmOp) : Bool := o.fa == 0
/-- PROB of a GROUPED instruction. -/
def MmOp.prob (o : MmOp) : Nat := o.aux + 1

/-- The values of k in a slice that lie below K (R90). -/
def MmOp.ks (o : MmOp) (sl : Nat) : List Nat := ((List.range o.l).map (o.l * sl + ·)).filter (· < o.k)
/-- The columns of an N block that lie below N (R90). -/
def MmOp.ns (o : MmOp) (nb : Nat) : List Nat := ((List.range 32).map (32 * nb + ·)).filter (· < o.n)
/-- The array rows that issue row group `g` (R72, R90, R100). -/
def MmOp.rows (o : MmOp) (g : Nat) : List Nat :=
  if o.mode = 2 then (List.range 16).filter (· < o.prob) else (List.range 16).filter fun r => 16 * g + r < o.m
/-- The tile row of array row `r` in row group `g` of N block `nb` (R88). -/
def MmOp.trow (o : MmOp) (nb g r : Nat) : Nat :=
  o.base + nb * o.nstr + (if o.mode = 2 then 16 * g + r else 16 * g + r)
/-- The row copies that a load fills with different sets: one for all rows, or one per problem (R72, R100). -/
def MmOp.copies (o : MmOp) : Nat := if o.mode = 2 then o.prob else 1

/-! ### Coordinates (R99 to R101) -/

/-- An origin coordinate. -/
def orgAt (o : List Nat) (d : Nat) : Int := (o.getD d 0 : Nat)

/-- Two coordinates, exchanged for a transposed read, then the higher origin coordinates, with `p` added in dimension 2. -/
def gemmCoord (org : List Nat) (tr : Bool) (k m p : Nat) : List Int :=
  (if tr then [orgAt org 0 + m, orgAt org 1 + k] else [orgAt org 0 + k, orgAt org 1 + m])
    ++ [orgAt org 2 + p, orgAt org 3, orgAt org 4, orgAt org 5]

/-- The mixed-radix digits of a number, least significant first, and what remains. -/
def digits : List Nat → Nat → List Nat × Nat
  | [], n => ([], n)
  | r :: rs, n =>
    let (ds, q) := digits rs (n / r)
    (n % r :: ds, q)

/-- The coordinate of element (m, k) of operand A in CONV mode (R101). -/
def convCoord (d : Nat) (org : List Nat) (m k : Nat) : List Int :=
  let n := walkNsp d
  let dims := (List.range n).reverse
  let (o, b) := digits (dims.map (walkOut d)) m
  let (f, _) := digits (dims.map (walkFlt d)) (k / walkChan d)
  let xs : List Int := (List.range n).map fun j =>
    let i := n - 1 - j
    (o.getD j 0 : Int) * walkStr d i + (f.getD j 0 : Int) * walkDil d i - walkPad d i
  let base := [((k % walkChan d : Nat) : Int)] ++ xs ++ [(b : Int)]
  (List.range 6).map fun j => base.getD j 0 + orgAt org j

/-- The coordinate of element (m, k) of operand A; in GROUPED mode of problem `p`. An MX operand's origin need not be a multiple
of 32 along dimension 0: each element takes its own block's scale (log entry 117). -/
def MmRun.coordA (r : MmRun) (m k p : Nat) : List Int :=
  if r.op.mode = 1 then convCoord r.walk r.op.orgA m k
  else gemmCoord r.op.orgA r.op.ta k m (if r.op.mode = 2 then p else 0)

/-- The coordinate of element (k, n) of operand B; in GROUPED mode of problem `p`. -/
def MmRun.coordB (r : MmRun) (k n p : Nat) : List Int :=
  gemmCoord r.op.orgB r.op.tb k n (if r.op.mode = 2 then p else 0)

/-! ### One pass (R54 to R60) -/

/-- The BF16 parts xh and xl of a finite FP32 value (R59). -/
def split32 (v : FVal) : FVal × FVal :=
  let h := f32 (toF32 v / 2 ^ 16 * 2 ^ 16)
  (h, decodeFmt 1 (narrow 1 false .rne (v.add h.neg)))

/-- The products that one pair of FP32 operands contributes (R59, R60). -/
def products32 (a b : FVal) : List FVal :=
  if a.nonfin || b.nonfin then [a.mul b]
  else
    let (ah, al) := split32 a
    let (bh, bl) := split32 b
    [ah.mul bh, ah.mul bl, al.mul bh]

/-- floor(log2) of the largest product magnitude (R54), none when every product is zero. -/
def emaxOf (ps : List FVal) : Option Int :=
  ps.foldl (fun m p => match p with
    | .fin _ k e => if k = 0 then m else match m with
      | none => some (flog2 k e)
      | some x => some (max x (flog2 k e))
    | _ => m) none

/-- A product's magnitude truncated to a multiple of 2^u, as a signed multiple (R54). -/
def truncAt (u : Int) : FVal → Int
  | .fin neg m e =>
    let q : Nat := if u ≤ e then m * 2 ^ (e - u).toNat else m / 2 ^ (u - e).toNat
    if neg then -(q : Int) else q
  | _ => 0

/-- A floating-point pass over its products (R54, R55, R56). -/
def dpuPass (ps : List FVal) : PassVal :=
  let pinf := ps.contains (.inf false)
  let ninf := ps.contains (.inf true)
  if ps.contains .nan || (pinf && ninf) then .f32 (toF32 .nan)
  else if pinf then .f32 (toF32 (.inf false))
  else if ninf then .f32 (toF32 (.inf true))
  else match emaxOf ps with
    | none => .exactZero
    | some em =>
      let u := em - 60
      let t := (ps.map (truncAt u)).sum
      if t = 0 then .exactZero else .f32 (toF32 (.fin (decide (t < 0)) t.natAbs u))

/-- The whole number of an INT8 value. -/
def intOf : FVal → Int
  | .fin neg m e => let q : Nat := m * 2 ^ e.toNat; if neg then -(q : Int) else q
  | _ => 0

/-- One DPU's pass of two vectors (R54, R58, R59). -/
def passVal (o : MmOp) (a b : List FVal) : PassVal :=
  if o.fa = 7 then .int ((a.zip b).map fun x => intOf x.1 * intOf x.2).sum
  else if o.fp32 then dpuPass ((a.zip b).flatMap fun x => products32 x.1 x.2)
  else dpuPass ((a.zip b).map fun x => x.1.mul x.2)

/-- The exact value of a pass result. -/
def PassVal.val : PassVal → FVal
  | .exactZero => .fin false 0 0
  | .f32 b => Sys2Proof.Machine.f32 b
  | .int v => .ofInt v

/-! ### The state of the array -/

/-- Passes in flight of a piece of work. -/
def Isl.flying (x : Isl) (id : Nat) : Bool := x.inflight.any (·.id == id)

/-- Weight buffers in use. -/
def Isl.bufs (x : Isl) : List Nat := x.arr.flatMap fun r => r.sets.flatMap fun w => if r.op.fp32 then [0, 1] else [w.buf]

/-- A weight buffer that is free for a set of an instruction: both for FP32 (R77), the lower-numbered one otherwise. -/
def Isl.freeBuf (x : Isl) (o : MmOp) : Option Nat :=
  if o.fp32 then (if x.bufs.isEmpty then some 0 else none)
  else if !x.bufs.contains 0 then some 0
  else if !x.bufs.contains 1 then some 1
  else none

/-- The instruction whose next set is to be loaded: the first in the array with sets left that has not stopped (R87). -/
def Isl.loader (x : Isl) : Option MmRun := x.arr.find? fun r => r.stop.isNone && decide (r.nextLoad < r.op.w)

/-- The instruction whose pass row 0 issues next: the first in the array that has not issued every pass. -/
def Isl.issuer (x : Isl) : Option MmRun := x.arr.find? fun r => decide (r.curSet < r.op.w)

/-- Whether an instruction has not issued its first pass. -/
def MmRun.fresh (r : MmRun) : Bool := r.curSet == 0 && r.curG == 0

/-- R91: the first issue is held while the previous instruction, of another ACC_BASE mod 16, is in the array. -/
def Isl.alignHeld (x : Isl) (r : MmRun) : Bool :=
  r.fresh && match (x.arr.takeWhile (·.op.id != r.op.id)).getLast? with
    | some b => b.op.base % 16 != r.op.base % 16
    | none => false

/-- Whether a drain's tile rows overlap a matrix instruction's footprint (R115). -/
def overlaps (o : MmOp) (d : DrainOp) : Bool := decide (d.trow < o.top) && decide (o.base < d.trow + d.count)

/-- R115: the first issue is held while a drain that issued before it, and overlaps it, has tile rows left to read. -/
def Isl.drainHeld (x : Isl) (r : MmRun) : Bool :=
  r.fresh && (x.ebbq.any (fun d => decide (d.id < r.op.id) && overlaps r.op d)
    || match x.ebb with
      | some e => decide (e.op.id < r.op.id) && overlaps r.op e.op && decide (e.next < e.op.count)
      | none => false)

/-- Shows the array's state in ACC_STATUS (R105). HOLD shows the instruction whose pass row 0 issues next, so an instruction is
held only from when the one before it has issued all its passes (log entry 115). -/
def State.syncAcc (s : State) (p : Nat) : State :=
  let x := s.isl p
  let b (v : Bool) : Nat := if v then 1 else 0
  let s := s.setFld (Reg.ACC_STATUS p) Fd.ACC_STATUS_ARRAY_BUSY (b (!x.arr.isEmpty || !x.inflight.isEmpty))
  let loading := match x.loader with
    | some r => (x.freeBuf r.op).isSome
    | none => false
  let s := s.setFld (Reg.ACC_STATUS p) Fd.ACC_STATUS_LOAD_BUSY (b loading)
  let held := match x.issuer with
    | some r => x.alignHeld r
    | none => false
  s.setFld (Reg.ACC_STATUS p) Fd.ACC_STATUS_HOLD (b held)

/-- Replaces an instruction in the array. -/
def Isl.setRun (x : Isl) (r : MmRun) : Isl := { x with arr := x.arr.map fun y => if y.op.id = r.op.id then r else y }

/-- Removes an instruction from the array. -/
def Isl.dropRun (x : Isl) (id : Nat) : Isl := { x with arr := x.arr.filter (·.op.id ≠ id) }

/-- Instructions whose last pass has been applied leave the array and complete; one that has stopped leaves it, and its
context stops, once its earlier passes have been applied (R185). -/
def State.settleArr (s : State) (p : Nat) : State :=
  ((s.isl p).arr.foldl (fun s r =>
    if (s.isl p).flying r.op.id then s
    else if decide (r.curSet = r.op.w) then (s.setIsl p ((s.isl p).dropRun r.op.id)).workDone r.op.id
    else match r.stop with
      | some code =>
        if r.sets.isEmpty then (s.setIsl p ((s.isl p).dropRun r.op.id)).engineFault r.op.id 4 code else s
      | none => s) s).syncAcc p

/-- The array fault code of a failed access (R143). -/
def arrCode (f : XFail) : Nat := match f.kind with | 0 => 0x006 | 1 => 0x007 | _ => 0x008

/-- Who the array's accesses are: request class 0 for operand A and 1 for weight loads. -/
def arrAcc (s : State) (p req : Nat) (o : MmOp) : Acc := ⟨quarterOf p, s.mctx p o.c, s.logicalOf p, 0, req, o.id⟩

/-! ### Acceptance (R97, R102, R103, R183, R185, R515) -/

/-- Checks one operand's Chart: the array fault code if it fails (R143, R185). -/
def arrCheck (raw ctx fmt : Nat) : Option Nat :=
  let c := parseChart raw
  match c.check ctx with
  | .chart => some 0x002
  | .prot => some 0x007
  | .ok => if c.fmt = fmt then none else some 0x003

/-- Accepts the oldest queued matrix instruction: its Charts are read and checked, operand A first, and its walk descriptor
and SKIP_EN are copied. A walk descriptor that was rewritten since R86 checked it at issue is copied as it stands, unchecked
(log entry 117). -/
def State.acceptMm (s : State) (p : Nat) (o : MmOp) (rest : List MmOp) : State :=
  let s := s.setIsl p { s.isl p with mmq := rest }
  let ctx := s.mctx p o.c
  let (a, s) := s.chartOf p ctx o.cha
  match arrCheck a ctx o.fa with
  | some code => (s.engineFault o.id 4 code).syncAcc p
  | none =>
    let (b, s) := s.chartOf p ctx o.chb
    match arrCheck b ctx o.fb with
    | some code => (s.engineFault o.id 4 code).syncAcc p
    | none =>
      let x := s.isl p
      let r : MmRun := ⟨o, a, b, s.walkDesc p o.aux, s.bit (Reg.ACC_CFG p) Fd.ACC_CFG_SKIP_EN, 0, [], 0, 0, none, none⟩
      (s.setIsl p { x with arr := x.arr ++ [r] }).syncAcc p

/-- MATRIX_ACCEPT (R515): the array accepts the oldest queued instruction, once the start-up clear is done (R97) and every
earlier instruction's sets have been loaded (R74, R87). -/
def execMatrixAccept (p : Fin 144) (s : State) : Out :=
  match (s.isl p).mmq with
  | o :: rest =>
    if s.bit (Reg.ACC_STATUS p) Fd.ACC_STATUS_INIT_DONE && (s.isl p).loader.isNone then settled (s.acceptMm p o rest)
    else .next s
  | [] => .next s

/-! ### Weight loads (R73 to R79) -/

/-- The weights of one column: L values, +0 beyond K (R90). -/
def padTo (l : Nat) (vs : List FVal) : List FVal := vs ++ List.replicate (l - vs.length) (.fin false 0 0)

/-- Cuts a list into runs of `n`. -/
def chunksOf {α : Type} (n : Nat) : Nat → List α → List (List α)
  | 0, _ => []
  | f + 1, xs => xs.take n :: chunksOf n f (xs.drop n)

/-- The coordinates of weight set `i`, copy by copy and column by column. -/
def MmRun.setCoords (r : MmRun) (i : Nat) : List (List Int) :=
  let o := r.op
  (List.range o.copies).flatMap fun c => (o.ns (i / o.s)).flatMap fun n => (o.ks (i % o.s)).map fun k => r.coordB k n c

/-- The elements of weight set `i` as one list of columns per row copy, +0 beyond K. -/
def MmRun.setCols (r : MmRun) (i : Nat) (es : List FElem) : List (List (List FVal)) :=
  let o := r.op
  let w := (o.ns (i / o.s)).length
  chunksOf w o.copies ((chunksOf (o.ks (i % o.s)).length (o.copies * w) (es.map (·.e.val))).map (padTo o.l))

/-- Reads weight set `i` from the Lagoon (R79): once, but an FP32 set in GROUPED mode twice, the upper and then the lower halves
of its elements. -/
def State.readSet (s : State) (p : Nat) (r : MmRun) (i : Nat) : AcRes (List FElem) × State :=
  let rd (s : State) := s.fetch (arrAcc s p 1 r.op) (parseChart r.b) none (r.setCoords i)
  match rd s with
  | (.ok es, s) => if r.op.mode = 2 && r.op.fp32 then rd s else (.ok es, s)
  | x => x

/-- Whether the next set is read ahead into the other staging entry: in GEMM and CONV modes, and not of FP32, whose sets occupy
both entries (R79). -/
def MmRun.ahead (r : MmRun) : Bool := r.op.mode != 2 && !r.op.fp32 && decide (r.nextLoad < r.op.w)

/-- Stops an instruction's stream at a failed load (R185). -/
def State.stopLoad (s : State) (p : Nat) (r : MmRun) (f : XFail) : State :=
  (s.setIsl p ((s.isl p).setRun { r with stop := some (arrCode f) })).settleArr p

/-- Reads the next set of an instruction into the other staging entry (R79). -/
def State.stageNext (s : State) (p : Nat) (r : MmRun) : State :=
  if r.ahead then match s.readSet p r r.nextLoad with
    | (.wait, s) => s.syncAcc p
    | (.fail f, s) => s.stopLoad p r f
    | (.ok es, s) => (s.setIsl p ((s.isl p).setRun { r with staged := some (r.setCols r.nextLoad es) })).syncAcc p
  else s.syncAcc p

/-- A weight set in hand is written to a buffer, while the next one is read. -/
def State.loadSet (s : State) (p : Nat) (r : MmRun) (buf : Nat) (cols : List (List (List FVal))) : State :=
  let r := { r with nextLoad := r.nextLoad + 1, sets := r.sets ++ [⟨r.nextLoad, buf, cols⟩], staged := none }
  ((s.setIsl p ((s.isl p).setRun r)).count (Reg.ACC_CNT_LOADS p) 1).stageNext p r

/-- Loads the next weight set of an instruction into a buffer: from its staging entry, or from the Lagoon. -/
def State.loadNext (s : State) (p : Nat) (r : MmRun) (buf : Nat) : State :=
  match r.staged with
  | some cols => s.loadSet p r buf cols
  | none => match s.readSet p r r.nextLoad with
    | (.wait, s) => s
    | (.fail f, s) => s.stopLoad p r f
    | (.ok es, s) => s.loadSet p r buf (r.setCols r.nextLoad es)

/-- WEIGHT_LOAD (R74, R79): the load engine fills a free buffer with the next weight set, and stages the one after it. -/
def execWeightLoad (p : Fin 144) (s : State) : Out :=
  let x := s.isl p
  match x.loader with
  | some r =>
    match x.freeBuf r.op with
    | some b => settled (s.loadNext p r b)
    | none => .next s
  | none => .next s

/-! ### Sentinel sampling (R442 to R444) -/

/-- Whether sentinel tile `i` is sampled (R442). RLOG2 is held to 4 to 10 (R465). -/
def State.sampled (s : State) (p i : Nat) : Bool :=
  let rl := min 10 (max 4 (s.fld (Reg.ISL_SENT_CFG p) Fd.ISL_SENT_CFG_RLOG2))
  ((philox (s.seqTide p) p i 0 (s.reg (Reg.ISL_SENT_KEY_LO p)).toNat (s.reg (Reg.ISL_SENT_KEY_HI p)).toNat).getD 0 0)
    % 2 ^ rl == 0

/-- The exact sum of values. -/
def sumVals (vs : List FVal) : FVal := vs.foldl FVal.add (.fin false 0 0)

/-- The checksum row's result for one column when every row keeps its own problem's weights (R443 in GROUPED mode, log entry
22): one rounding of the exact sum of the rows' products. -/
def groupedSum (o : MmOp) (as bs : List (List FVal)) : PassVal :=
  passVal o as.flatten bs.flatten

/-- The checksum row's result for one column (R443): s_k is the exact sum over the rows, and in FP32 the sum of their split
parts. -/
def checksumVal (o : MmOp) (as : List (List FVal)) (b : List FVal) : PassVal :=
  let sum (f : FVal → FVal) (k : Nat) : FVal := sumVals (as.map fun a => f (a.getD k (.fin false 0 0)))
  let ks := List.range o.l
  if o.fa = 7 then passVal o (ks.map (sum id)) b
  else if o.fp32 then
    dpuPass (ks.flatMap fun k =>
      let (bh, bl) := split32 (b.getD k (.fin false 0 0))
      let ah := sum (fun v => (split32 v).1) k
      let al := sum (fun v => (split32 v).2) k
      [ah.mul bh, ah.mul bl, al.mul bh])
  else dpuPass (ks.map fun k => (sum id k).mul (b.getD k (.fin false 0 0)))

/-- The difference D and the allowance T of one column, if the column fails its check (R443). -/
def sentinelFails (o : MmOp) (tol : Nat) (ys : List FVal) (y : FVal) : Option (FVal × FVal) :=
  if (y :: ys).any FVal.nonfin then none
  else
    let d := ((sumVals ys).add y.neg).abs
    let t : FVal := if o.fa = 7 then .fin false 0 0
      else ((FVal.fin false 1 (-(tol : Int))).mul (sumVals ((ys ++ [y]).map FVal.abs))).add (.fin false 1 (-144))
    if t.lt d then some (d, t) else none

/-- A failing column (R444), which is passed to fault handling with D and T (R461). -/
def State.sentinelMiss (s : State) (p c col tile : Nat) (d t : FVal) : State :=
  let s := ((s.raisePlaus p).setErr (Reg.ISL_SENT_ERR p) Fd.ISL_SENT_ERR_MISMATCH Fd.ISL_SENT_ERR_MULTI).count
    (Reg.ISL_SENT_CNT_MISMATCH p) 1
  let s := if s.bit (Reg.ISL_SENT_FIRST p) Fd.ISL_SENT_FIRST_VALID then s
    else ((s.setReg (Reg.ISL_SENT_FIRST p) (BitVec.ofNat 32 (col + c * 2 ^ 5 + 2 ^ 6))).setReg (Reg.ISL_SENT_FIRST_TILE p)
      (BitVec.ofNat 32 tile)).setReg (Reg.ISL_SENT_FIRST_DIFF p) (BitVec.ofNat 32 (toF32 d))
  (s.report .sentinel p col tile).toHandler { islEvent p 3 0 tile (toF32 d + toF32 t * 2 ^ 32) with
    lisl := BitVec.ofNat 8 (s.logicalOf p), sctx := BitVec.ofNat 1 c, info := BitVec.ofNat 32 col }

/-- Numbers a sentinel tile and checks it when it is sampled. `as` are the operand A vectors of the rows that issue, `ws` the
weights of each of these rows, column by column below N, and `ys` each row's results. -/
def State.sentinel (s : State) (p : Nat) (o : MmOp) (as : List (List FVal)) (ws : List (List (List FVal)))
    (ys : List (List PassVal)) : State :=
  if !s.bit (Reg.ISL_SENT_CFG p) Fd.ISL_SENT_CFG_EN then s
  else
    let i := (s.isl p).sentTile
    let s := s.setIsl p { s.isl p with sentTile := i + 1 }
    if !s.sampled p i then s
    else
      let tol := min 24 (max 10 (s.fld (Reg.ISL_SENT_CFG p) Fd.ISL_SENT_CFG_TOL))
      let s := s.count (Reg.ISL_SENT_CNT_SAMPLED p) 1
      (List.range (ws.headD []).length).foldl (fun s j =>
        let col := ys.map fun r => (r.getD j .exactZero).val
        let bs := ws.map (·.getD j [])
        let y := if o.mode = 2 ∧ o.prob > 1 then groupedSum o as bs else checksumVal o as (bs.headD [])
        match sentinelFails o tol col y.val with
        | some (d, t) => s.sentinelMiss p o.c j i d t
        | none => s) s

/-! ### Issue of a pass (R82, R87, R103) -/

/-- Moves an instruction past its current row group; a set whose last group has issued leaves its buffer (R75). -/
def MmRun.advance (r : MmRun) : MmRun :=
  if r.curG + 1 < r.op.g then { r with curG := r.curG + 1 }
  else { r with curG := 0, curSet := r.curSet + 1, sets := r.sets.filter (·.idx != r.curSet) }

/-- Whether the passes of an instruction's current set add (R89). -/
def MmRun.adds (r : MmRun) : Bool := r.op.add || r.curSet % r.op.s != 0

/-- The items of a pass: the result for each issuing row and each column below N. -/
def passItems (r : MmRun) (rows : List Nat) (ys : List (List PassVal)) : List PassItem :=
  let nb := r.curSet / r.op.s
  (rows.zip ys).flatMap fun y =>
    ((List.range y.2.length).zip y.2).map fun z => ⟨r.op.trow nb r.curG y.1, z.1, r.adds, z.2⟩

/-- Issues the current row group from its weight set. -/
def State.issuePass (s : State) (p : Nat) (r : MmRun) (w : WSet) : State :=
  let o := r.op
  let rows := o.rows r.curG
  let ks := o.ks (r.curSet % o.s)
  let coords := rows.flatMap fun i =>
    ks.map fun k => r.coordA (if o.mode = 2 then r.curG else 16 * r.curG + i) k i
  let c := parseChart r.a
  let thresh := if c.sparse then some (s.fld (Reg.SHL_CFG p) Fd.SHL_CFG_THRESH) else none
  match s.fetch (arrAcc s p 0 o) c thresh coords with
  | (.wait, s) => s
  | (.fail f, s) => (s.setIsl p ((s.isl p).setRun { r with stop := some (arrCode f), sets := [] })).settleArr p
  | (.ok es, s) =>
    if c.sparse && r.skip && r.adds && es.all (·.zero) then
      ((s.setIsl p ((s.isl p).setRun r.advance)).count (Reg.ACC_CNT_SKIP p) 1).settleArr p
    else
      let as := (chunksOf ks.length rows.length (es.map (·.e.val))).map (padTo o.l)
      let copy (i : Nat) : List (List FVal) := w.w.getD (if o.mode = 2 then i else 0) []
      let ys := (rows.zip as).map fun ra => (copy ra.1).map (passVal o ra.2)
      let x := (s.isl p).setRun r.advance
      let s := s.setIsl p { x with inflight := x.inflight ++ [⟨o.id, passItems r rows ys⟩] }
      let s := (s.count (Reg.ACC_CNT_ISSUE p) 1).setFld (Reg.ACC_STATUS p) Fd.ACC_STATUS_WBUF w.buf
      (s.sentinel p o as (rows.map copy) ys).settleArr p

/-- Whether power capping withholds the issue slot of the present cycle (R508): windows of 256 cycles, counted from start-up. -/
def State.withheld (s : State) (p : Nat) : Bool := decide (revBits 8 (s.cycle % 256) < (s.isl p).gateW)

/-- PASS_ISSUE (R82): row 0 issues the next row group, in order, once its weight set is loaded and neither R91, R115 nor power
capping (R81, R508) holds it. A stopped instruction issues the sets that were loaded before the point where it stopped. -/
def execPassIssue (p : Fin 144) (s : State) : Out :=
  let x := s.isl p
  match x.issuer with
  | some r =>
    if x.alignHeld r || x.drainHeld r || s.withheld p then .next s
    else match r.sets.find? (·.idx == r.curSet) with
      | some w => settled (s.issuePass p r w)
      | none => .next s
  | none => .next s

/-! ### Applying a pass (R56 to R58, R84, R96) -/

/-- The entry's new bits. -/
def applyVal (old : Nat) (add : Bool) : PassVal → Nat
  | .exactZero => if add then old else 0
  | .f32 b => if add then f32Add old b else b
  | .int v => if add then toPat 32 ((old : Int) + v) else toPat 32 v

/-- Applies one entry of a pass: a read through the array port, and a write with fresh parity. -/
def State.applyItem (s : State) (p : Nat) (i : PassItem) : State :=
  let (old, s) := s.readAcc p i.trow i.entry 0
  s.writeAcc p i.trow i.entry (applyVal old i.add i.val)

/-- PASS_APPLY (R84): the oldest pass in flight is applied to its accumulator entries. -/
def execPassApply (p : Fin 144) (s : State) : Out :=
  let x := s.isl p
  match x.inflight with
  | [] => .next s
  | q :: r =>
    let s := s.setIsl p { x with inflight := r }
    settled ((q.items.foldl (fun s i => s.applyItem p i) s).settleArr p)

/-- The start-up clear of an accumulator memory (R97). -/
def State.accClear (s : State) (p : Nat) : State :=
  let lo := accBase p
  let s := { s with mem := s.mem.filter fun k => decide (k.1 < lo) || decide (lo + 0x100000 ≤ k.1) }
  let s := s.setIsl p { s.isl p with parity := [] }
  s.setFld (Reg.ACC_STATUS p) Fd.ACC_STATUS_INIT_DONE 1

/-- ACCUMULATOR_CLEAR (R97): every entry becomes +0 with valid parity, and INIT_DONE is set. -/
def execAccumulatorClear (p : Fin 144) (s : State) : Out := if s.up then settled (s.accClear p) else .next s

end Sys2Proof.Machine
end

