-- ==== Sys2Proof/Machine/MemCtl.lean ====
section
/-! DEFINITION. The memory controllers: scrubbers (R282, R283), lost training (R281), MAINT and loopbacks (R284, R285), and
the on-die ECC count (R287). -/

namespace Sys2Proof.Machine

/-- The key of a controller in the table of scrub corrections. -/
def scrubKey : MemUnit → Nat
  | .lag p => p
  | .hbm s => 144 + s
  | .lpx ch => 152 + ch

/-- TIER and UNIT of a controller (R286). -/
def memTier : MemUnit → Nat × Nat
  | .lag p => (0, p)
  | .hbm s => (1, s)
  | .lpx ch => (2, ch)

/-- Whether a controller is DRAM (R287). -/
def isDram : MemUnit → Bool
  | .lag _ => false
  | _ => true

/-- Units of a scrub pass (R282). -/
def scrubUnits : MemUnit → Nat
  | .lag _ => 135168
  | .hbm _ => 603979776
  | .lpx _ => 377487360

/-- The address of a controller's 64-byte unit, in ascending address order (R278, R282). -/
def scrubAddr (m : MemUnit) (u : Nat) : Nat :=
  match m with
  | .lag p => if u < 131072 then lagBase p + 64 * u else progBase p + 64 * (u - 131072)
  | .hbm s => hbmBase s + 64 * u
  | .lpx ch => lpxBase + 128 * (32 * (u / 2) + (ch.val ^^^ (u / 2 % 32))) + 64 * (u % 2)

/-- The correction of a controller that is on its way. -/
def State.scrub (s : State) (m : MemUnit) : Option Scrub := tget (fun _ => none) s.scrubs (scrubKey m)
/-- Sets the correction of a controller that is on its way. -/
def State.setScrub (s : State) (m : MemUnit) (x : Option Scrub) : State :=
  { s with scrubs := tset (fun _ => none) s.scrubs (scrubKey m) x }

/-- A scrub read of one codeword: whether it is to be written back, and the records (R282, R283, R287). -/
def State.scrubCw (s : State) (m : MemUnit) (a : Nat) : Bool × State :=
  match s.cwAt a with
  | .ok => (false, s)
  | .ce sym =>
    (true, ((s.errCe m a sym 11 0xFF).count (memReg m 0x03C) 1).report .scrubCe (a / 32 * 32) sym (11 + 0xFF * 16))
  | .ue => (false, (s.errUe m a 11 0xFF false).report .scrubUe (a / 32 * 32) 0x7F (11 + 0xFF * 16))
  | .poison => (false, (s.errUe m a 11 0xFF true).report .scrubUe (a / 32 * 32) 0x7F (11 + 0xFF * 16))

/-- The scrub read of a unit: the codewords to be written back. -/
def State.scrubRead (s : State) (m : MemUnit) (a : Nat) : List Nat × State :=
  let (b0, s) := s.scrubCw m a
  let (b1, s) := s.scrubCw m (a + 32)
  ((if b0 then [a] else []) ++ (if b1 then [a + 32] else []), s)

/-- The scrubber moves to its next unit, and starts again after the last (R282). -/
def State.scrubNext (s : State) (m : MemUnit) : State :=
  let pos := (s.reg (memReg m 0x008)).toNat + 1
  if pos < scrubUnits m then
    (s.setReg (memReg m 0x008) (BitVec.ofNat 32 pos)).setFld (memReg m 0x000) Fd.HBM_STATUS_SCRUB_ACT 1
  else
    let s := (s.setReg (memReg m 0x008) 0).setFld (memReg m 0x000) Fd.HBM_STATUS_SCRUB_ACT 0
    s.count (memReg m 0x00C) 1

/-- Whether a controller's memory is that of a RETIRED Island, which nothing accesses (R274). -/
def State.sliceGone (s : State) : MemUnit → Bool
  | .lag p => s.pstate p == 6
  | _ => false

/-- SCRUB_INTERVAL (R282): the scrubber reads its next unit when it is enabled and its controller is UP; the slice of a RETIRED
Island is not accessed (R274). -/
def execScrubInterval (m : MemUnit) (s : State) : Out :=
  if !s.bit (memReg m 0x004) Fd.HBM_SCRUB_EN || s.memState m != 1 || (s.scrub m).isSome || s.sliceGone m then .next s
  else
    let pos := (s.reg (memReg m 0x008)).toNat
    let (fix, s) := s.scrubRead m (scrubAddr m pos)
    let s := s.scrubNext m
    .next (if fix.isEmpty then s else s.setScrub m (some ⟨pos, fix⟩))

/-- SCRUB_WRITE_BACK (R283): a codeword that no newer write has replaced becomes clean. -/
def execScrubWriteBack (m : MemUnit) (s : State) : Out :=
  match s.scrub m with
  | none => .next s
  | some x =>
    let s := s.setScrub m none
    if s.sliceGone m then .next s
    else .next (x.fixes.foldl (fun s a => match s.cwAt a with
      | .ce _ => s.setCw a .ok
      | _ => s) s)

/-- CONTROLLER_TRAINING_LOST (R281, R287): LINK is set; a controller that cannot regain its training is FAILED. -/
def execControllerTrainingLost (m : MemUnit) (regained : Bool) (s : State) : Out :=
  if !isDram m || !s.up then .next s
  else
    let s := s.setFld (memReg m 0x010) Fd.HBM_ERR_LINK 1
    if regained then .next s
    else
      let (t, u) := memTier m
      let s := s.setFld (memReg m 0x000) Fd.HBM_STATUS_STATE 3
      let s := s.setFld Reg.BOOT_STATUS Fd.BOOT_STATUS_MEMORY 1
      .next (((s.logMem 7 t u 1 0 (0x7F + 0xFF * 2 ^ 16) (s.selfId 0)).report .ctrlFailed t u 0).report .memoryShortfall t u 0)

/-- CTL.MAINT written (R284): 1 is ignored while a program is loaded, 0 ends MAINT and any loopback. -/
def State.memMaint (s : State) (m : MemUnit) (on : Bool) : State :=
  let st := memReg m 0x000
  if on then
    if s.loaded then s
    else
      let s := s.setFld (memReg m 0x04C) Fd.HBM_CTL_MAINT 1
      if s.memState m = 1 then s.setFld st Fd.HBM_STATUS_STATE 2 else s
  else
    let s := s.setFld (memReg m 0x04C) Fd.HBM_CTL_MAINT 0
    if s.memState m = 2 then
      ((s.setFld st Fd.HBM_STATUS_STATE 1).setFld st Fd.HBM_STATUS_LB_BUSY 0).setFld (memReg m 0x050) Fd.HBM_LB_CTL_GO 0
    else s

/-- MEMORY_MAINT (R284); a Lagoon ignores it (R287). -/
def execMemoryMaint (r : Requester) (m : MemUnit) (on : Bool) (s : State) : Out :=
  .next (s.guarded r (memReg m 0x04C) fun s => if isDram m then s.memMaint m on else s)

/-- LB_CTL written with GO (R284, R285): ignored outside MAINT, with DEPTH 3, and while a loopback runs. -/
def State.memLbGo (s : State) (m : MemUnit) (v : Word) : State :=
  let a := memReg m 0x050
  let s := s.swWriteKeep a [Fd.HBM_LB_CTL_GO] v
  if s.memState m ≠ 2 ∨ s.fld a Fd.HBM_LB_CTL_DEPTH = 3 ∨ s.bit (memReg m 0x000) Fd.HBM_STATUS_LB_BUSY then s
  else (s.setFld a Fd.HBM_LB_CTL_GO 1).setFld (memReg m 0x000) Fd.HBM_STATUS_LB_BUSY 1

/-- MEMORY_LOOPBACK_GO (R285). -/
def execMemoryLoopbackGo (r : Requester) (m : MemUnit) (v : BitVec 32) (s : State) : Out :=
  .next (s.guarded r (memReg m 0x050) fun s => if isDram m then s.memLbGo m (v ||| 4) else s)

/-- Results of a loopback of a memory controller (R285, R287). -/
def State.memLbDone (s : State) (m : MemUnit) (mismatch lane : Nat) : State :=
  let c := memReg m 0x050
  let r := memReg m 0x054
  let s := s.setFld (memReg m 0x000) Fd.HBM_STATUS_LB_BUSY 0
  let s := (s.setFld r Fd.HBM_LB_RESULT_MISMATCH (min mismatch 0xFFFF)).setFld r Fd.HBM_LB_RESULT_LANE lane
  let s := ((s.setFld c Fd.HBM_LB_CTL_GO 0).setFld c Fd.HBM_LB_CTL_DONE 1).setFld c Fd.HBM_LB_CTL_PASS
    (if mismatch = 0 then 1 else 0)
  let (t, u) := memTier m
  if mismatch = 0 then s
  else (s.logMem 8 t u mismatch 0 (0x7F + 0xFF * 2 ^ 16) (s.selfId 0)).report .memLoopbackFail t u mismatch

/-- MEMORY_LOOPBACK_DONE (R285): the number of mismatched beats and the first failing lane. -/
def execMemoryLoopbackDone (m : MemUnit) (mismatch : Nat) (lane : Option Nat) (s : State) : Out :=
  if s.bit (memReg m 0x000) Fd.HBM_STATUS_LB_BUSY then .next (s.memLbDone m mismatch (lane.getD 0x3FF)) else .next s

/-- ODECC_READ (R287): `n` errors since the last read. -/
def execOdeccRead (stack : Fin 8) (n : Nat) (s : State) : Out :=
  let s := if s.up then s.count (memReg (.hbm stack) 0x040) n else s
  if n = 0 ∨ !s.up then .next s
  else .next ((s.logMem 6 1 stack n 0 (0x7F + 0xFF * 2 ^ 16) (s.selfId 0)).report .odecc stack n 0)

/-! ### Records of memory events (R286) -/

/-- The record type of a memory event, 0 for every other event. -/
def memType : EventKind → Nat
  | .memCe => 1
  | .memUe => 2
  | .memPoison => 3
  | .scrubCe => 4
  | .scrubUe => 5
  | _ => 0

/-- Tier and unit of an address. -/
def tierOf (a : Nat) : Nat × Nat := match memUnitOf a with | some u => memTier u | none => (0, 0)

/-- The requesting module of a memory event (R286). -/
def State.memModule (s : State) (e : Event) : Nat := if e.b / 4096 = 0 then s.selfId 0 else e.b / 4096 - 1

/-- The record of a memory event with how many events it stands for (R286). -/
def State.logMemEvent (s : State) (e : Event) (n : Nat) : State :=
  let (t, u) := tierOf e.unit
  let info := e.a % 128 + memLoc e.unit % 32 * 2 ^ 7 + e.b % 16 * 2 ^ 12 + e.b / 16 % 256 * 2 ^ 16
  s.logMemAt e.tide (memType e.kind) t u n e.unit info (s.memModule e)

/-- The record of a request that completed with a STATUS other than OK (R312): the spec gives it no layout, and the model writes a
memory record of TYPE 2 with the request's ADDR, the STATUS as LOC and the destination as MODULE. It concerns no unit of this
module and is not passed to fault handling (DESIGN CHOICE, log entry 123). -/
def State.logRemote (s : State) (e : Event) : State :=
  let (t, u) := tierOf e.unit
  s.record 1 2 (memUnitWord t u) 1 (leBytes 1 2 ++ leBytes 1 t ++ leBytes 2 u ++ leBytes 4 1 ++ leBytes 8 e.unit ++ leBytes 4 e.tide
    ++ leBytes 4 (0x7F + e.a % 32 * 2 ^ 7 + 10 * 2 ^ 12 + 0xFF * 2 ^ 16) ++ leBytes 4 (e.b % 1024) ++ leBytes 4 0)

/-- Whether two correctable events go into one record: one kind, one address, one Tide (R286). -/
def sameCe (e d : Event) : Bool :=
  (e.kind == .memCe || e.kind == .scrubCe) && d.kind == e.kind && d.unit == e.unit && d.tide == e.tide

/-- What the firmware passes to fault handling of an Island's fault (R461): SEQ_FAULT, or the engine's or the array's record where an
engine found it (a Ferry has passed its own), and ACC_PARITY. -/
def State.faultOf (s : State) (e : Event) : Option FaultEvent :=
  let p := e.unit
  let c := e.a / 2 ^ 8 % 2
  let pc := e.a / 2 ^ 9
  let of' (x : FaultEvent) : FaultEvent :=
    { x with lisl := BitVec.ofNat 8 (s.logicalOf p), sctx := BitVec.ofNat 1 c }
  let eng := e.b % 16
  let code := e.b / 16
  match e.kind with
  | .seqFault =>
    if e.a % 256 ≠ 0x0F then some (of' { islEvent p 1 (e.a % 256) pc 0 with info := BitVec.ofNat 32 e.b })
    else if eng = 4 then
      let va := (s.reg (Reg.CHT_ERR_VA_LO (quarterOf p))).toNat
      some (of' (engEvent 11 (islUnit p) code (if 6 ≤ code then va else 0) pc 0))
    else if eng = 3 then none
    else some (of' (engEvent eng (islUnit p) code (if eng = 2 then (s.reg (Reg.SHL_ERR_ENTRY p)).toNat else 0) 0 0))
  | .accParity => some (of' { islEvent p 2 0 e.b 0 with info := BitVec.ofNat 32 e.a })
  | _ => none

/-- Whether a core can handle an event: the Pilot core that it interrupts serves (R391, R428). A client's doorbell needs none. -/
def State.canHandle (s : State) (e : Event) : Bool := e.kind == .mailboxOut || s.bit (Reg.PLT_CORE e.core) Fd.PLT_CORE_READY

/-- The events that the firmware has not handled, up to the first whose core does not serve: it handles them in the order in which they
came (DESIGN CHOICE, log entry 33). -/
def State.newEvents (s : State) : List Event := (s.events.drop s.fw.logged).takeWhile s.canHandle

/-- The firmware writes the records of the memory events since it last did, correctable errors at one address within one Tide as one
record (R286), and passes the faults of Islands to fault handling. It does so when no command waits (log entry 33). -/
def State.logEvents (s : State) : State :=
  let all := s.newEvents
  let new := all.filter fun e => memType e.kind != 0
  let s := { s with fw := { s.fw with logged := s.fw.logged + all.length } }
  let one := new.foldl (fun (l : List Event) e =>
    if l.any (sameCe e) then l else l ++ [e]) []
  let s := one.foldl (fun s e => s.logMemEvent e (max 1 (new.countP (sameCe e)))) s
  let s := (all.filter fun e => e.kind == .remoteBad).foldl State.logRemote s
  (all.filterMap s.faultOf).foldl State.toHandler s

end Sys2Proof.Machine
end

