-- ==== Sys2Proof/Machine/Bus.lean ====
section
/-! DEFINITION. Accesses through the address map by an agent that addresses physical memory: the other module of a Strait
request, a core, the debug access path (R36 to R39, R96, R308). -/

namespace Sys2Proof.Machine

/-- `n` free bytes: what an agent outside the module supplies (log entry 1). -/
def State.freeBytes : State → Nat → List Byte × State
  | s, 0 => ([], s)
  | s, n + 1 =>
    let (w, s) := s.free
    let (r, s) := s.freeBytes n
    (BitVec.ofNat 8 w.toNat :: r, s)

/-- Reads the accumulator entries that a window read touches, with the parity check at the drain port (R96). -/
def State.accReads (s : State) (p a : Nat) : Nat → State
  | 0 => s
  | n + 1 => ((s.readAcc p ((a - accBase p) / 128) ((a - accBase p) % 128 / 4) 1).2).accReads p (a + 4) n

/-- Writes the bytes of a window write entry by entry (R96). -/
def State.accWrites (s : State) (p a : Nat) (bs : List Byte) : Nat → State
  | 0 => s
  | n + 1 =>
    let k := 4 - a % 4
    if bs.isEmpty then s else (s.writeAccWin p a (bs.take k)).accWrites p (a + k) (bs.drop k) n

/-- The access-error kind of a range: that of its first byte, else of its last (R37, R38). -/
def State.rangeKind (s : State) (a n : Nat) (wr : Bool) : Nat :=
  if s.accessKind a wr ≠ 0 then s.accessKind a wr else s.accessKind (a + n - 1) wr

/-- The access-error kind of a range for another module's request. The spec opens no register window to one; the model answers
ACCESS there (DESIGN CHOICE, log entry 27). -/
def State.remKind (s : State) (a n : Nat) (wr : Bool) : Nat :=
  if region a = .regs ∨ region (a + n - 1) = .regs then 1 else s.rangeKind a n wr

/-- A read of memory through the address map: the accumulator windows check parity, and what lies behind the PCIe outbound
window reads a free value (R506). -/
def State.busRead (s : State) (a n req lisl : Nat) : AccRes :=
  let k := s.rangeKind a n false
  if k ≠ 0 then ⟨k, List.replicate n 0, false, s.accessErr a req false k⟩
  else match region a with
    | .acc p => ⟨0, s.bytes a n, false, s.accReads p (a / 4 * 4) ((a % 4 + n + 3) / 4)⟩
    | .pcie => let (d, s) := s.freeBytes n; ⟨0, d, false, s⟩
    | _ => let (d, b, s) := s.readMem a n req lisl; ⟨0, d, b, s⟩

/-- A write of memory through the address map; a write into the PCIe outbound window leaves the module. -/
def State.busWrite (s : State) (a : Nat) (bs : List Byte) (req lisl : Nat) : AccRes :=
  let k := s.rangeKind a bs.length true
  if k ≠ 0 then ⟨k, [], false, s.accessErr a req true k⟩
  else match region a with
    | .acc p => ⟨0, [], false, s.accWrites p a bs (bs.length + 1)⟩
    | .pcie => ⟨0, [], false, s⟩
    | _ => let (b, s) := s.writeMem a bs req lisl; ⟨0, [], b, s⟩

/-- The codeword effects of a write of the enabled bytes of a 64-byte line (R273). -/
def State.maskedCw (s : State) (cwa en req lisl : Nat) : Bool × State :=
  let m := en % 2 ^ 32
  if m = 0 then (false, s) else s.writeCw cwa cwa (if m = 2 ^ 32 - 1 then cwa + 32 else cwa + 1) req lisl

/-- Writes the enabled bytes of one accumulator entry (R96): all four are a 4-byte write, which reads nothing. -/
def State.maskedEntry (s : State) (p ad en : Nat) (bs : List Byte) : State :=
  if en % 16 = 15 then s.writeAccWin p ad (bs.take 4)
  else ((List.range 4).filter fun i => en / 2 ^ i % 2 == 1).foldl (fun s i => s.writeAccWin p (ad + i) [bs.getD i 0]) s

/-- Writes the enabled bytes of a 64-byte line (R307). -/
def State.maskedWrite (s : State) (line en : Nat) (bs : List Byte) (req lisl : Nat) : AccRes :=
  let k := s.rangeKind line 64 true
  if k ≠ 0 then ⟨k, [], false, s.accessErr line req true k⟩
  else
    let on := (List.range 64).filter fun i => en / 2 ^ i % 2 == 1
    match region line with
    | .acc p => ⟨0, [], false,
        (List.range 16).foldl (fun s j => s.maskedEntry p (line + 4 * j) (en / 2 ^ (4 * j)) (bs.drop (4 * j))) s⟩
    | .pcie => ⟨0, [], false, s⟩
    | _ =>
      let (b0, s) := s.maskedCw line en req lisl
      let (b1, s) := s.maskedCw (line + 32) (en / 2 ^ 32) req lisl
      ⟨0, [], b0 || b1, on.foldl (fun s i => s.storeByte (line + i) (bs.getD i 0)) s⟩

/-- Fills a range with free bytes and clean codewords, as a test pattern does whose seed the spec does not give (R319). -/
def State.fillFree (s : State) (a n : Nat) : State :=
  let c := s.freeCtr
  let cells := ((List.range n).map fun i => (a + i, BitVec.ofNat 8 ((Config.freeWord (c + i / 8)).toNat / 256 ^ (i % 8)))).filter
    fun e => e.2 != memDefault e.1
  { s with
    mem := s.mem.filter (fun e => decide (e.1 < a)) ++ cells ++ s.mem.filter (fun e => decide (a + n ≤ e.1))
    cw := s.cw.filter (fun e => decide (e.1 < a) || decide (a + n ≤ e.1))
    freeCtr := c + (n + 7) / 8 }

end Sys2Proof.Machine
end

