-- ==== Sys2Proof/Machine/Func.lean ====
section
/-! DEFINITION. The Ebb's functions F and D (R165 to R167). FUNC 0 to 2 are exact apart from one rounding. For FUNC 3 to 7
the spec bounds the result to within 2 ulp of the exact value and fixes no algorithm: the model computes the exact value in
fixed point, with an error far below an FP32 ulp, collects every FP32 value within 2 ulp of it, and Config.ebbChoice, which
has no value that a proof can see, picks one (log entry 3). -/

namespace Sys2Proof.Machine

/-! ### Fixed point: a natural number stands for itself times 2^−480 -/

/-- 1.0. -/
def fxOne : Nat := 2 ^ 480

/-- Product. -/
def fxMul (a b : Nat) : Nat := a * b / fxOne
/-- Quotient. -/
def fxDiv (a b : Nat) : Nat := a * fxOne / b

/-- The series Σ y^n / n!, from term `t` at index `n`, over `fuel` terms. -/
def expSeries (y : Nat) : Nat → Nat → Nat → Nat → Nat
  | 0, _, _, acc => acc
  | fuel + 1, n, t, acc => expSeries y fuel (n + 1) (fxMul t y / (n + 1)) (acc + t)

/-- Squares a number `n` times. -/
def fxSquares : Nat → Nat → Nat
  | 0, x => x
  | n + 1, x => fxSquares n (fxMul x x)

/-- e^(−x) for x ≥ 0, at least one unit. -/
def fxExpNeg (x : Nat) : Nat :=
  if x ≥ 300 * fxOne then 1
  else max 1 (fxSquares 12 (fxDiv fxOne (expSeries (x / 2 ^ 12) 90 0 fxOne 0)))

/-- arctan(1/k) by its series: `t` is the power of 1/k, over `fuel` terms. -/
def atanSeries (k : Nat) : Nat → Nat → Nat → Int → Int
  | 0, _, _, acc => acc
  | fuel + 1, n, t, acc =>
    let term : Int := (t / (2 * n + 1) : Nat)
    atanSeries k fuel (n + 1) (t / (k * k)) (if n % 2 = 0 then acc + term else acc - term)

/-- π (Machin). -/
def fxPi : Nat := (4 * (4 * atanSeries 5 250 0 (fxOne / 5) 0 - atanSeries 239 100 0 (fxOne / 239) 0)).toNat

/-- Square root. -/
def fxSqrt (a : Nat) : Nat := Nat.sqrt (a * fxOne)

/-- σ(x) and σ(−x) for x ≥ 0. -/
def fxSigma (x : Nat) : Nat × Nat :=
  let e := fxExpNeg x
  (fxDiv fxOne (fxOne + e), max 1 (fxDiv e (fxOne + e)))

/-- Σ 2^n x^(2n+1) / (2n+1)!!, from term `t` at index `n`, with `x2` = x². -/
def erfSeries (x2 : Nat) : Nat → Nat → Nat → Nat → Nat
  | 0, _, _, acc => acc
  | fuel + 1, n, t, acc => erfSeries x2 fuel (n + 1) (2 * fxMul t x2 / (2 * n + 3)) (acc + t)

/-- Φ(x) and Φ(−x) for 0 ≤ x; beyond 16 the tail is below every FP32 unit and is taken as one unit. -/
def fxPhi (x : Nat) : Nat × Nat :=
  if x ≥ 16 * fxOne then (fxOne - 1, 1)
  else
    let x2 := fxMul x x / 2
    let y := fxSqrt x2
    let erf := fxDiv (2 * fxMul (fxExpNeg x2) (erfSeries x2 1200 0 y 0)) (fxSqrt fxPi)
    ((fxOne + min erf fxOne) / 2, max 1 ((fxOne - min erf fxOne) / 2))

/-- φ(x). -/
def fxDensity (x : Nat) : Nat := fxDiv (fxExpNeg (fxMul x x / 2)) (fxSqrt (2 * fxPi))

/-! ### Exact values of FUNC 3 to 7 -/

/-- Signed product of a value of sign `neg` and magnitude. -/
def sgn (neg : Bool) (a : Nat) : Int := if neg then -(a : Int) else a

/-- F or D of a finite value of magnitude `x` (R165), as a signed fixed-point number. -/
def fxFunc (func : Nat) (deriv neg : Bool) (x : Nat) : Int :=
  let pair (pq : Nat × Nat) : Nat × Nat := if neg then (pq.2, pq.1) else pq
  match func, deriv with
  | 3, d =>
    if x ≥ 64 * fxOne then
      (if d then (if neg then -1 else (fxOne : Int) + 1) else (if neg then -1 else (x : Int) - 1))
    else
      let x2 := fxMul x x
      let c := fxSqrt (fxDiv (2 * fxOne) fxPi)
      let u := 2 * fxMul c (x + fxMul x2 x * 44715 / 1000000)
      let (p, q) := pair (fxSigma u)
      if d then
        let du := 2 * fxMul c (fxOne + 3 * x2 * 44715 / 1000000)
        (p : Int) + sgn neg (fxMul (fxMul x du) (fxMul p q))
      else sgn neg (fxMul x p)
  | 4, d =>
    if x ≥ 16 * fxOne then
      (if d then (if neg then -1 else (fxOne : Int) + 1) else (if neg then -1 else (x : Int) - 1))
    else
      let (p, _) := pair (fxPhi x)
      if d then (p : Int) + sgn neg (fxMul x (fxDensity x)) else sgn neg (fxMul x p)
  | 5, d =>
    let (p, q) := pair (fxSigma x)
    if d then (p : Int) + sgn neg (fxMul (fxMul x p) q) else sgn neg (fxMul x p)
  | 6, d =>
    let (p, q) := pair (fxSigma x)
    if d then (fxMul p q : Nat) else p
  | _, d =>
    let e := fxExpNeg (2 * x)
    if d then (fxDiv (fxDiv (4 * e) (fxOne + e)) (fxOne + e) : Nat)
    else sgn neg (fxDiv (fxOne - e) (fxOne + e))

/-- An FP32 value's magnitude in fixed point. -/
def fxOf (m : Nat) (e : Int) : Nat := if 0 ≤ e + 480 then m * 2 ^ (e + 480).toNat else m / 2 ^ (-(e + 480)).toNat

/-- The spacing exponent of FP32 at a fixed-point value. -/
def ulp32 (a : Int) : Int := if a = 0 then -149 else max (-149) ((Nat.log2 a.natAbs : Int) - 480 - 23)

/-- The FP32 patterns within 2 ulp of a fixed-point value, in rising order of value. A result that is zero takes the exact
value's sign. -/
def near32 (a : Int) : List Nat :=
  let u := ulp32 a
  let h := u - 1
  let unit : Int := (2 ^ (h + 480).toNat : Nat)
  let q := a / unit
  ((List.range 12).map fun i => q - 5 + (i : Int)).filterMap fun k =>
    let v : FVal := if k = 0 then .fin (decide (a < 0)) 0 0 else .fin (decide (k < 0)) k.natAbs h
    let pat := toF32 v
    let same := match f32 pat with
      | .fin n m e => decide (n = (match v with | .fin n' _ _ => n' | _ => false)) && decide (m * 2 ^ (e - h).toNat = k.natAbs)
          && decide (h ≤ e ∨ m = 0)
      | _ => false
    if same && decide ((k * unit - a).natAbs ≤ 2 * 2 ^ (u + 480).toNat) then some pat else none

/-- The Ebb's result for FUNC 3 to 7 at a finite input (R167). -/
def ebbApprox (func : Nat) (deriv : Bool) (z : Nat) : Nat :=
  match f32 z with
  | .fin neg m e =>
    let c := near32 (fxFunc func deriv neg (fxOf m e))
    c.getD (Config.ebbChoice func deriv (BitVec.ofNat 32 z) % c.length) 0
  | _ => 0

/-! ### F and D -/

/-- FP32 1.0. -/
def one32 : Nat := 0x3F800000
/-- The canonical FP32 NaN (R46). -/
def nan32 : Nat := 0x7FC00000

/-- Whether an FP32 value is greater than zero. -/
def pos32 (z : Nat) : Bool := (FVal.fin false 0 0).lt (f32 z)

/-- F (R165, R166). -/
def ebbF (func alpha z : Nat) : Nat :=
  match f32 z with
  | .nan => nan32
  | v =>
    match func with
    | 0 => z
    | 1 => if pos32 z then z else 0
    | 2 => if pos32 z then z else f32Mul alpha z
    | n =>
      match v with
      | .inf neg => if n = 6 then (if neg then 0 else one32) else if n = 7 then (if neg then 0xBF800000 else one32)
          else if neg then 0x80000000 else z
      | .fin true 0 _ => if n = 6 then 0x3F000000 else 0x80000000
      | _ => ebbApprox n false z

/-- D (R165, R166). -/
def ebbD (func alpha z : Nat) : Nat :=
  match f32 z with
  | .nan => nan32
  | v =>
    match func with
    | 0 => one32
    | 1 => if pos32 z then one32 else 0
    | 2 => if pos32 z then one32 else alpha
    | n =>
      match v with
      | .inf neg => if n ≤ 5 then (if neg then 0 else one32) else 0
      | _ => ebbApprox n true z

end Sys2Proof.Machine
end

