-- ==== Sys2Proof/Machine/Ebb.lean ====
section
/-! DEFINITION. The Ebb (chapter 6): descriptors (R180) and their checks (R179), placement (R161, R162), the element chain
(R164), conversion and write (R169, R170), plausibility checks (R171, R172), and the loss (R173). -/

namespace Sys2Proof.Machine

/-! ### The descriptor (R180) -/

/-- Bits of word `i` of a descriptor. -/
def eFld (d : List Nat) (i hi lo : Nat) : Nat := bitsOf (d.getD i 0) hi lo
/-- SRC. -/
def eSrc (d : List Nat) : Nat := eFld d 0 3 0
/-- MODE: 0 FORWARD, 1 DERIV, 2 ACCUM. -/
def eMode (d : List Nat) : Nat := eFld d 0 5 4
/-- FUNC. -/
def eFunc (d : List Nat) : Nat := eFld d 0 9 6
/-- RMODE is stochastic. -/
def eStoch (d : List Nat) : Bool := eFld d 0 10 10 == 1
/-- SAT. -/
def eSat (d : List Nat) : Bool := eFld d 0 11 11 == 1
/-- OUT_T. -/
def eOutT (d : List Nat) : Bool := eFld d 0 12 12 == 1
/-- SCALE_VEC. -/
def eScaleVec (d : List Nat) : Bool := eFld d 0 13 13 == 1
/-- BIAS_EN. -/
def eBias (d : List Nat) : Bool := eFld d 0 14 14 == 1
/-- SAVE_EN. -/
def eSave (d : List Nat) : Bool := eFld d 0 15 15 == 1
/-- GATE_EN. -/
def eGate (d : List Nat) : Bool := eFld d 0 16 16 == 1
/-- LOSS. -/
def eLoss (d : List Nat) : Bool := eFld d 0 17 17 == 1
/-- SCALE, BOUND and ALPHA. -/
def eScale (d : List Nat) : Nat := eFld d 1 31 0
/-- BOUND. -/
def eBound (d : List Nat) : Nat := eFld d 2 31 0
/-- ALPHA. -/
def eAlpha (d : List Nat) : Nat := eFld d 3 31 0
/-- BLK_ROWS. -/
def eBlk (d : List Nat) : Nat := eFld d 4 13 0
/-- MROWS as written. -/
def eMrows (d : List Nat) : Nat := eFld d 4 29 16
/-- NVALID. -/
def eNvalid (d : List Nat) : Nat := eFld d 5 13 0
/-- GRP. -/
def eGrp (d : List Nat) : Nat := eFld d 5 20 16
/-- The slots SCH, BCH, ZCH and GCH. -/
def eSch (d : List Nat) : Nat := eFld d 6 5 0
/-- BCH. -/
def eBch (d : List Nat) : Nat := eFld d 6 13 8
/-- ZCH. -/
def eZch (d : List Nat) : Nat := eFld d 6 21 16
/-- GCH. -/
def eGch (d : List Nat) : Nat := eFld d 6 29 24
/-- Whether the drain uses the Z Chart. -/
def eUsesZ (d : List Nat) : Bool := eSave d || eMode d == 1

/-- The copy of descriptor slot `i`. -/
def State.ebbDesc (s : State) (p i : Nat) : List Nat := (List.range 16).map fun j => (s.reg (Reg.EBB_DESC p i j)).toNat

/-- The descriptor checks of R179 that need no Chart, lowest code first. -/
def descCheck (d : List Nat) (count : Nat) : Option Nat :=
  let bound := f32 (eBound d)
  if eSrc d ≠ 0 ∧ eSrc d ≠ 8 then some 0x001
  else if eBlk d = 0 ∨ eBlk d > 8192 ∨ eMrows d > eBlk d ∨ eNvalid d = 0 ∨ eNvalid d > 8192 ∨ eGrp d > 16 then some 0x005
  else if eMode d = 3 ∨ eFunc d > 7 ∨ ((eSave d || eGate d) ∧ eMode d ≠ 0) ∨ (eMode d = 2 ∧ (eFunc d ≠ 0 ∨ eBias d)) then
    some 0x006
  else if bound = .nan ∨ bound.lt (.fin false 0 0) then some 0x007
  else if eLoss d ∧ (count ≠ 1 ∨ eNvalid d ≠ 1) then some 0x008
  else none

/-! ### Placement (R161, R162) -/

/-- MROWS, where 0 stands for BLK_ROWS. -/
def eRows (d : List Nat) : Nat := if eMrows d = 0 then eBlk d else eMrows d

/-- The column, row and problem of entry `e` at index `i` of a drain. -/
def ebbPlace (d : List Nat) (i e : Nat) : Nat × Nat × Nat :=
  let r := i % eBlk d
  (32 * (i / eBlk d) + e, if eGrp d = 0 then r else r / 16, if eGrp d = 0 then 0 else r % 16)

/-- Whether entry `e` at index `i` is valid (R162). -/
def ebbValid (d : List Nat) (i e : Nat) : Bool :=
  let (col, _, prob) := ebbPlace d i e
  decide (col < eNvalid d) && decide (i % eBlk d < eRows d) && (eGrp d == 0 || decide (prob < eGrp d))

/-- The output coordinate of entry `e` at index `i` (R161). -/
def ebbCoord (o : DrainOp) (d : List Nat) (i e : Nat) : List Int :=
  let (col, row, prob) := ebbPlace d i e
  (if eOutT d then [orgAt o.org 0 + row, orgAt o.org 1 + col] else [orgAt o.org 0 + col, orgAt o.org 1 + row])
    ++ [orgAt o.org 2 + prob, orgAt o.org 3, orgAt o.org 4, orgAt o.org 5]

/-- The coordinate of the scale-vector and bias Charts (R163). -/
def ebbVecCoord (o : DrainOp) (d : List Nat) (i e : Nat) : List Int :=
  [orgAt o.org (if eOutT d then 1 else 0) + (ebbPlace d i e).1, 0, 0, 0, 0, 0]

/-! ### Begin (R175, R178, R179) -/

/-- A drain's fault (R179): the issuing context stops, and its drains that are still queued behind are discarded. -/
def State.ebbFault (s : State) (p : Nat) (o : DrainOp) (code : Nat) : State :=
  let x := s.isl p
  let gone := x.ebbq.filter fun d => d.c = o.c
  let s := s.setIsl p { x with ebbq := x.ebbq.filter fun d => d.c ≠ o.c }
  let s := gone.foldl (fun s d => s.dropWork d.id) s
  let s := s.setFld (Reg.EBB_ERR p) Fd.EBB_ERR_FAULT 1
  (s.engineFault o.id 1 code).syncEbb p

/-- The Charts that a drain uses, with the slots that name them: out, scale vector, bias, Z, gate. -/
def ebbSlots (o : DrainOp) (d : List Nat) : List (Option Nat) :=
  [some o.cho, if eScaleVec d then some (eSch d) else none, if eBias d then some (eBch d) else none,
    if eUsesZ d then some (eZch d) else none, if eGate d then some (eGch d) else none]

/-- Reads the Charts of a drain, up to the first that fails its check: CHART, or PROT for a PCTX mismatch; a SPARSE Chart is
CHART (R179, R185, R190). -/
def State.ebbCharts (s : State) (p ctx : Nat) : List (Option Nat) → Except Nat (List Nat) × State
  | [] => (.ok [], s)
  | none :: r =>
    match s.ebbCharts p ctx r with
    | (.ok cs, s) => (.ok (0 :: cs), s)
    | e => e
  | some slot :: r =>
    let (raw, s) := s.chartOf p ctx slot
    let c := parseChart raw
    match c.check ctx with
    | .chart => (.error 0x00B, s)
    | .prot => (.error 0x00A, s)
    | .ok =>
      if c.sparse then (.error 0x00B, s)
      else match s.ebbCharts p ctx r with
        | (.ok cs, s) => (.ok (raw :: cs), s)
        | e => e

/-- Format and layout checks of R179 on the Charts that a drain uses. -/
def ebbFmtCheck (o : DrainOp) (d : List Nat) (cs : List Nat) : Option Nat :=
  let fmt (i : Nat) : Nat := (parseChart (cs.getD i 0)).fmt
  let used (i : Nat) : Bool := ((ebbSlots o d).getD i none).isSome
  let mxBad : Bool := eOutT d || o.org.getD 0 0 % 32 != 0
  if fmt 0 = 8 ∨ (eMode d = 2 ∧ fmt 0 ≠ 0) then some 0x002
  else if (used 1 ∧ fmt 1 > 2) ∨ (used 2 ∧ fmt 2 > 2) ∨ (used 3 ∧ fmt 3 > 6) ∨ (used 4 ∧ fmt 4 > 6) then some 0x003
  else if mxBad ∧ (fmtIsMx (fmt 0) ∨ (used 3 ∧ fmtIsMx (fmt 3))) then some 0x004
  else none

/-- Begins a drain: the slot is copied and everything is checked. -/
def State.beginDrain (s : State) (p : Nat) (o : DrainOp) (rest : List DrainOp) : State :=
  let s := s.setIsl p { s.isl p with ebbq := rest }
  let s := s.setFld (Reg.EBB_STATUS p) Fd.EBB_STATUS_SLOT o.edesc
  let d := s.ebbDesc p o.edesc
  match descCheck d o.count with
  | some code => s.ebbFault p o code
  | none =>
    match s.ebbCharts p (s.mctx p o.c) (ebbSlots o d) with
    | (.error code, s) => s.ebbFault p o code
    | (.ok cs, s) =>
      match ebbFmtCheck o d cs with
      | some code => s.ebbFault p o code
      | none =>
        (s.setIsl p { s.isl p with ebb := some ⟨o, d, cs.getD 0 0, cs.getD 1 0, cs.getD 2 0, cs.getD 3 0, cs.getD 4 0, 0⟩ }).syncEbb p

/-- EBB_DRAIN_BEGIN (R179): the oldest queued drain begins once the previous one has read its last tile row (R175) and the
start-up clear is done (R97). -/
def execEbbDrainBegin (p : Fin 144) (s : State) : Out :=
  let x := s.isl p
  match x.ebbq with
  | o :: rest =>
    if x.ebb.isNone && s.bit (Reg.ACC_STATUS p) Fd.ACC_STATUS_INIT_DONE then settled (s.beginDrain p o rest) else .next s
  | [] => .next s

/-! ### A read cycle (R160, R164) -/

/-- R115: a tile row is held while a matrix instruction that issued before the drain, and whose footprint contains the row, has
passes left to apply. -/
def Isl.rowHeld (x : Isl) (id trow : Nat) : Bool :=
  let cover (o : MmOp) : Bool := decide (o.id < id) && decide (o.base ≤ trow) && decide (trow < o.top)
  x.mmq.any cover || x.arr.any fun r => cover r.op

/-- Who the Ebb's accesses are. -/
def ebbAcc (s : State) (p : Nat) (o : DrainOp) : Acc := ⟨quarterOf p, s.mctx p o.c, s.logicalOf p, 1, 2, o.id⟩

/-- The valid entries of a read cycle, as (index, entry), in order. -/
def ebbEntries (d : List Nat) (i n : Nat) : List (Nat × Nat) :=
  (List.range n).flatMap fun j => ((List.range 32).filter fun e => ebbValid d (i + j) e).map fun e => (i + j, e)

/-- The Charts that a read cycle reads for an element, with the coordinates. -/
def ebbReads (r : EbbRun) (ie : Nat × Nat) : List (Nat × List Int) :=
  let d := r.desc
  let v := ebbVecCoord r.op d ie.1 ie.2
  let x := ebbCoord r.op d ie.1 ie.2
  (if eScaleVec d then [(r.sch, v)] else []) ++ (if eBias d then [(r.bch, v)] else [])
    ++ (if eMode d = 1 then [(r.zch, x)] else []) ++ (if eGate d then [(r.gch, x)] else [])

/-- How many elements, in order, have readable operands, and the failure that ends them. -/
def State.ebbLimit (s : State) (A : Acc) (r : EbbRun) : List (Nat × Nat) → Nat × Option XFail × State
  | [] => (0, none, s)
  | ie :: rest =>
    let (f, s) : Option XFail × State := (ebbReads r ie).foldl (fun (a : Option XFail × State) cx =>
      match a with
      | (some f, s) => (some f, s)
      | (none, s) =>
        match s.planElem A (parseChart cx.1) cx.2 with
        | (.error f, s) => (some f, s)
        | (.ok _, s) => (none, s)) (none, s)
    match f with
    | some f => (0, some f, s)
    | none =>
      let (n, f, s) := s.ebbLimit A r rest
      (n + 1, f, s)

/-- An auxiliary element as FP32 (R61). -/
def aux32 (e : FElem) : Nat := toF32 (widen32 e.e.val)

/-- The element chain up to s4 (R164): the entry, and the FP32 scale, bias, z and gate elements. -/
def ebbChain (d : List Nat) (entry scale bias z gate : Nat) : Nat × Nat :=
  let a := if eSrc d = 8 then toF32 (.ofInt (sext 32 entry)) else entry
  let s1 := f32Mul a scale
  let s2 := if eBias d then f32Add s1 bias else s1
  let s3 := if eMode d = 0 then ebbF (eFunc d) (eAlpha d) s2
    else if eMode d = 1 then f32Mul s2 (ebbD (eFunc d) (eAlpha d) z)
    else s2
  (s2, if eGate d then f32Mul s3 gate else s3)

/-- Fetches one auxiliary Chart's elements for a list of coordinates, or nothing when it is not used. -/
def State.ebbAux (s : State) (A : Acc) (use : Bool) (raw : Nat) (xs : List (List Int)) : AcRes (List FElem) × State :=
  if use then s.fetch A (parseChart raw) none xs else (.ok [], s)

/-- Reads the tile rows of a read cycle through the drain port, with the parity check: rows of 32 entries. -/
def State.readRows (s : State) (p trow : Nat) : Nat → List (List Nat) × State
  | 0 => ([], s)
  | n + 1 =>
    let (row, s) := (List.range 32).foldl (fun (a : List Nat × State) e =>
      let (v, s) := a.2.readAcc p trow e 1
      (a.1 ++ [v], s)) ([], s)
    let (rs, s) := s.readRows p (trow + 1) n
    (row :: rs, s)

/-- Whether a drain writes MX blocks. -/
def EbbRun.mx (r : EbbRun) : Bool :=
  fmtIsMx (parseChart r.out).fmt || (eSave r.desc && fmtIsMx (parseChart r.zch).fmt)

/-- The fault code of a failed access (R179). -/
def ebbCode (f : XFail) : Nat := match f.kind with | 0 => 0x009 | 1 => 0x00A | _ => 0x00C

/-- The rows of a batch from the elements computed: those of rows that hold a valid entry. `els` pairs (index, entry) with s2
and s4. A row of a drain that writes MX blocks is left out unless all its valid elements were computed. -/
def ebbRows (r : EbbRun) (n : Nat) (els : List ((Nat × Nat) × (Nat × Nat))) : List EbbRow :=
  (List.range n).filterMap fun j =>
    let i := r.next + j
    let vals := (List.range 32).map fun e => (els.find? (·.1 == (i, e))).map (·.2)
    let valid := (List.range 32).filter fun e => ebbValid r.desc i e
    if vals.all Option.isNone then none
    else if r.mx && valid.any fun e => (vals.getD e none).isNone then none
    else some ⟨r.op.trow + i, vals⟩

/-- One read cycle of the drain that reads. -/
def State.ebbRead (s : State) (p : Nat) (r : EbbRun) : State :=
  let A := ebbAcc s p r.op
  let d := r.desc
  let n := min 8 (r.op.count - r.next)
  let all := ebbEntries d r.next n
  let (m, fail, s) := s.ebbLimit A r all
  let es := all.take m
  let xs := es.map fun ie => ebbCoord r.op d ie.1 ie.2
  let vs := es.map fun ie => ebbVecCoord r.op d ie.1 ie.2
  match s.ebbAux A (eScaleVec d) r.sch vs with
  | (.ok sc, s) =>
    match s.ebbAux A (eBias d) r.bch vs with
    | (.ok bi, s) =>
      match s.ebbAux A (eMode d == 1) r.zch xs with
      | (.ok zs, s) =>
        match s.ebbAux A (eGate d) r.gch xs with
        | (.ok gs, s) =>
          let (rows, s) := s.readRows p (r.op.trow + r.next) n
          let zero : FElem := ⟨⟨.fin false 0 0, 0⟩, false⟩
          let el (l : List FElem) (k : Nat) : Nat := aux32 (l.getD k zero)
          let els := (List.range es.length).map fun k =>
            let ie := es.getD k (0, 0)
            let entry := (rows.getD (ie.1 - r.next) []).getD ie.2 0
            (ie, ebbChain d entry (if eScaleVec d then el sc k else eScale d) (el bi k) (el zs k) (el gs k))
          let done := fail.isSome || decide (r.op.count ≤ r.next + n)
          let b : EbbBatch := ⟨r.op, d, r.out, r.zch, ebbRows r n els, done, fail.map ebbCode⟩
          let s := match fail with
            | some f => s.recordX A false f
            | none => s
          let x := s.isl p
          let s := s.setIsl p { x with ebb := if done then none else some { r with next := r.next + n }, ebbw := x.ebbw ++ [b] }
          (s.count (Reg.EBB_CNT_ROWS p) n).syncEbb p
        | (_, s) => s.count (Reg.EBB_CNT_WAIT p) 1
      | (_, s) => s.count (Reg.EBB_CNT_WAIT p) 1
    | (_, s) => s.count (Reg.EBB_CNT_WAIT p) 1
  | (_, s) => s.count (Reg.EBB_CNT_WAIT p) 1

/-- EBB_READ_CYCLE (R160): the drain reads its next eight tile rows, or the rows that remain, unless one of them is held by
R115 or an operand has not come, which EBB_CNT_WAIT counts (R177). -/
def execEbbReadCycle (p : Fin 144) (s : State) : Out :=
  let x := s.isl p
  match x.ebb with
  | none => .next s
  | some r =>
    let n := min 8 (r.op.count - r.next)
    if (List.range n).any fun j => x.rowHeld r.op.id (r.op.trow + r.next + j) then
      .next (s.count (Reg.EBB_CNT_WAIT p) 1)
    else settled (s.ebbRead p r)

/-! ### Checks (R171, R172) -/

/-- Checks one element: `v` is s4 (in ACCUM mode the sum), `bad` whether the converted output is not finite. -/
def State.ebbCheck (s : State) (p : Nat) (b : EbbBatch) (trow e v : Nat) (bad : Bool) : State :=
  let nonfin := (f32 v).nonfin || bad
  let big := !nonfin && (f32 (eBound b.desc)).lt (f32 v).abs
  if !nonfin && !big then s
  else
    let s := s.raisePlaus p
    let s := if nonfin then
        ((s.count (Reg.EBB_CNT_NONFIN p) 1).count (Reg.EBB_TIDE_NONFIN p) 1).setFld (Reg.EBB_ERR p) Fd.EBB_ERR_NONFIN 1
      else ((s.count (Reg.EBB_CNT_BOUND p) 1).count (Reg.EBB_TIDE_BOUND p) 1).setFld (Reg.EBB_ERR p) Fd.EBB_ERR_BOUND 1
    let s := if s.bit (Reg.EBB_FIRST p) Fd.EBB_FIRST_VALID then s
      else (s.setReg (Reg.EBB_FIRST p) (BitVec.ofNat 32 (trow + e * 2 ^ 13 + b.op.edesc * 2 ^ 18
        + (if nonfin then 0 else 2 ^ 22) + b.op.c * 2 ^ 23 + 2 ^ 24))).setReg (Reg.EBB_FIRST_VAL p) (BitVec.ofNat 32 v)
    s.report .ebbNonfin p trow v

/-! ### Writes (R169, R170, R176) -/

/-- The rounding of an output element (R66, R169). -/
def ebbRound (s : State) (d : List Nat) (c : Chart) (x : List Int) : RMode :=
  if eStoch d then .stoch (c.randOf s.seed s.tideNum x) else .rne

/-- Counts a dropped write. -/
def State.ebbOob (s : State) (p n : Nat) : State := if n = 0 then s else s.count (Reg.EBB_CNT_OOBW p) n
/-- Counts overflowing conversions. -/
def State.ebbOvf (s : State) (p n : Nat) : State := if n = 0 then s else s.count (Reg.EBB_CNT_OVF p) n

/-- The result of writes: the fault code of a failure, the bytes put, the state. -/
abbrev EbbW := Option Nat × WBytes × State

/-- Goes on after a write. -/
def ebbThen (w : EbbW) (k : State → EbbW) : EbbW :=
  match w with
  | (some c, b, s) => (some c, b, s)
  | (none, b, s) =>
    let (c, b', s) := k s
    (c, b ++ b', s)

/-- No write. -/
def ebbPure (s : State) : EbbW := (none, [], s)

/-- The outcome of a Chart write. -/
def ebbWrote (p : Nat) : WrRes × WBytes × State → EbbW
  | (.fail f, w, s) => (some (ebbCode f), w, s)
  | (.oob, w, s) => (none, w, s.ebbOob p 1)
  | (.ok, w, s) => (none, w, s)

/-- Writes one FP32 value to a Chart that is not MX. -/
def State.ebbElem (s : State) (A : Acc) (p : Nat) (b : EbbBatch) (c : Chart) (rm : RMode) (x : List Int) (v : Nat) : EbbW :=
  let s := s.ebbOvf p (if narrowOvf c.fmt rm (f32 v) then 1 else 0)
  ebbWrote p (s.putElem A c x (narrow c.fmt (eSat b.desc) rm (f32 v)))

/-- Writes one row as an MX block (R169): entries that are not valid, and entries out of bounds, are +0; the latter count. -/
def State.ebbBlock (s : State) (A : Acc) (p : Nat) (b : EbbBatch) (c : Chart) (stoch : Bool) (i : Nat)
    (vals : List (Option Nat)) : EbbW :=
  let x (e : Nat) : List Int := ebbCoord b.op b.desc i e
  let vs := (List.range 32).map fun e =>
    match vals.getD e none with
    | some v => if c.inBounds (x e) then f32 v else .fin false 0 0
    | none => .fin false 0 0
  let oob := ((List.range 32).filter fun e => (vals.getD e none).isSome && !c.inBounds (x e)).length
  let (sc, es, clamps) := mxConvert c.fmt (fun e => if stoch then .stoch (c.randOf s.seed s.tideNum (x e)) else .rne) vs
  let s := (s.ebbOvf p clamps).ebbOob p oob
  match s.putBlock A c (x 0) sc es with
  | (.fail f, w, s) => (some (ebbCode f), w, s)
  | (_, w, s) => (none, w, s)

/-- Saves s2 of one element or row (R164 step 4). -/
def State.ebbSave (s : State) (A : Acc) (p : Nat) (b : EbbBatch) (i e v : Nat) : EbbW :=
  s.ebbElem A p b (parseChart b.zch) .rne (ebbCoord b.op b.desc i e) v

/-- The checks and the output write of one element that is not MX. -/
def State.ebbOut (s : State) (A : Acc) (p : Nat) (b : EbbBatch) (i e v : Nat) : EbbW :=
  let c := parseChart b.out
  let x := ebbCoord b.op b.desc i e
  let rm := ebbRound s b.desc c x
  let s := s.ebbCheck p b (b.op.trow + i) e v (decodeFmt c.fmt (narrow c.fmt (eSat b.desc) rm (f32 v))).nonfin
  s.ebbElem A p b c rm x v

/-- Writes one row in FORWARD or DERIV mode: element by element, the save before the output; MX blocks after the row's
elements. -/
def State.ebbRow (s : State) (A : Acc) (p : Nat) (b : EbbBatch) (r : EbbRow) : EbbW :=
  let i := r.trow - b.op.trow
  let mxO := fmtIsMx (parseChart b.out).fmt
  let save := eSave b.desc
  let mxZ := save && fmtIsMx (parseChart b.zch).fmt
  let w : EbbW := (List.range 32).foldl (fun w e => ebbThen w fun s =>
    match r.vals.getD e none with
    | none => ebbPure s
    | some (s2, s4) =>
      ebbThen (if save && !mxZ then s.ebbSave A p b i e s2 else ebbPure s) fun s =>
        if mxO then ebbPure (s.ebbCheck p b r.trow e s4 false) else s.ebbOut A p b i e s4) (ebbPure s)
  let w := ebbThen w fun s =>
    if mxZ then s.ebbBlock A p b (parseChart b.zch) false i (r.vals.map fun v => v.map (·.1)) else ebbPure s
  ebbThen w fun s =>
    if mxO then s.ebbBlock A p b (parseChart b.out) (eStoch b.desc) i (r.vals.map fun v => v.map (·.2)) else ebbPure s

/-- Adds one element into its destination (R170). -/
def State.ebbAdd (s : State) (A : Acc) (p : Nat) (b : EbbBatch) (i e s4 : Nat) : EbbW :=
  let c := parseChart b.out
  let x := ebbCoord b.op b.desc i e
  match s.planElem A c x with
  | (.error f, s) => (some (ebbCode f), [], s.recordX A false f)
  | (.ok pl, s) =>
    let sum := f32Add (s.planVal A c [] pl).e.pat s4
    let s := s.ebbCheck p b (b.op.trow + i) e sum false
    ebbWrote p (s.putElem A c x sum)

/-- The plans of a row's destinations, up to the first that fails. -/
def State.ebbPlans (s : State) (A : Acc) (c : Chart) : List (List Int) → List Plan × State
  | [] => ([], s)
  | x :: xs =>
    match s.planElem A c x with
    | (.error _, s) => ([], s)
    | (.ok p, s) =>
      let (ps, s) := s.ebbPlans A c xs
      (p :: ps, s)

/-- Whether a drain of Island `p` has a write under way to line `a` of module `mod` (R175). -/
def State.ebbPending (s : State) (p mod a : Nat) : Bool :=
  let mine (id : Nat) : Bool := match s.findWork id with
    | some w => w.cls == 1 && (w.src == .ctx p 0 || w.src == .ctx p 1)
    | none => false
  let hit (m : Msg) (u : TxUse) : Bool := m.dst == mod && m.addr == a && match u with
    | .write id => mine id
    | _ => false
  let x := s.qtr (quarterOf p)
  x.trk.any (fun e => match e.2 with
    | some t => hit t.msg t.use
    | none => false) || x.waitTrk.any fun e => hit e.2.1 e.2.2

/-- Whether a read of pieces in ACCUM mode waits: a line of another module, not read by this drain yet, to which the Ebb has
issued a write that is not visible (R175). -/
def State.ebbHolds (s : State) (A : Acc) (p : Nat) (ps : List Piece) : Bool :=
  ps.any fun pc => match pc.loc with
    | .rem m a => (linesOf a pc.n).any fun l =>
      s.ebbPending p m l && !s.remLines.any fun r => r.work == A.work && r.mod == m && r.addr == l
    | _ => false

/-- Writes one row in ACCUM mode, or waits for lines of another module: the destinations' codewords are checked once, then each
element is read, added and written in order. -/
def State.ebbRowAdd (s : State) (A : Acc) (p : Nat) (b : EbbBatch) (r : EbbRow) : AcRes (Option Nat) × State :=
  let i := r.trow - b.op.trow
  let es := (List.range 32).filter fun e => (r.vals.getD e none).isSome
  let (ps, s) := s.ebbPlans A (parseChart b.out) (es.map (ebbCoord b.op b.desc i))
  if s.ebbHolds A p (plansPieces ps) then (.wait, s)
  else match s.askPieces A (plansPieces ps) with
  | (false, s) => (.wait, s)
  | (true, s) =>
    let s := s.touch A (plansPieces ps)
    let w : EbbW := es.foldl (fun w e => ebbThen w fun s =>
      s.ebbAdd A p b i e ((r.vals.getD e none).getD (0, 0)).2) (ebbPure s)
    (.ok w.1, w.2.2.commit A w.2.1)

/-- A drain whose last element is visible completes (R176); a LOSS drain delivers its value (R173). -/
def State.drainDone (s : State) (p : Nat) (b : EbbBatch) (loss : Option Nat) : State :=
  let s := match loss with
    | some v =>
      let x := s.isl p
      let s := if x.lossN = 0 then s else s.setFld (Reg.EBB_ERR p) Fd.EBB_ERR_LOSS_MULTI 1
      (s.setIsl p { x with lossN := x.lossN + 1, lossVal := v }).setReg (Reg.EBB_LOSS p) (BitVec.ofNat 32 v)
    | none => s
  s.workDone b.op.id

/-- A drain stops: what remains of it is dropped, and the fault is taken. -/
def State.drainStop (s : State) (p : Nat) (o : DrainOp) (code : Nat) : State :=
  let x := s.isl p
  (s.setIsl p { x with ebb := x.ebb.filter (·.op.id != o.id), ebbw := x.ebbw.filter (·.op.id ≠ o.id) }).ebbFault p o code

/-- Writes the rows of the oldest batch; `rest` are the batches behind it. -/
def State.ebbWriteRows (s : State) (A : Acc) (p : Nat) (b : EbbBatch) (rest : List EbbBatch) : List EbbRow → State
  | [] =>
    let loss := if eLoss b.desc then ((b.rows.head?.bind fun r => r.vals.headD none).map (·.2)) else none
    let s := s.setIsl p { s.isl p with ebbw := rest }
    match b.fault with
    | some code => s.drainStop p b.op code
    | none => (if b.last then s.drainDone p b loss else s).syncEbb p
  | r :: rs =>
    if eMode b.desc = 2 then
      match s.ebbRowAdd A p b r with
      | (.ok none, s) => s.ebbWriteRows A p b rest rs
      | (.ok (some code), s) => s.drainStop p b.op code
      | (_, s) => s.setIsl p { s.isl p with ebbw := { b with rows := r :: rs } :: rest }
    else
      let (code, w, s) := s.ebbRow A p b r
      let s := s.commit A w
      match code with
      | none => s.ebbWriteRows A p b rest rs
      | some code => s.drainStop p b.op code

/-- EBB_ELEMENT_WRITE (R176): the elements of the oldest read cycle are checked, converted, written and visible. -/
def execEbbElementWrite (p : Fin 144) (s : State) : Out :=
  match (s.isl p).ebbw with
  | [] => .next s
  | b :: rest => settled (s.ebbWriteRows (ebbAcc s p b.op) p b rest b.rows)

end Sys2Proof.Machine
end

