-- ==== Sys2Proof/Machine/Shoal.lean ====
section
/-! DEFINITION. The Shoal (chapter 8): its descriptor (R216), checks (R217, R218, R226 to R230, R240), lists (R214), lanes with
their reuse buffers (R213), merge units (R221 to R225), overlap (R245), faults (R246), and its eight operations. -/

namespace Sys2Proof.Machine

/-! ### The descriptor (R216) -/

/-- Bits of a descriptor at a byte offset. -/
def sFld (d off hi lo : Nat) : Nat := bitsOf d (8 * off + hi) (8 * off + lo)
/-- SRC. -/
def sSrc (d : Nat) : Nat := sFld d 0 5 0
/-- DST. -/
def sDst (d : Nat) : Nat := sFld d 0 11 6
/-- AUX. -/
def sAux (d : Nat) : Nat := sFld d 0 17 12
/-- MOP. -/
def sMop (d : Nat) : Nat := sFld d 0 19 18
/-- RMODE is stochastic. -/
def sStoch (d : Nat) : Bool := sFld d 0 20 20 == 1
/-- SAT. -/
def sSat (d : Nat) : Bool := sFld d 0 21 21 == 1
/-- GCHK. -/
def sGchk (d : Nat) : Bool := sFld d 0 22 22 == 1
/-- TSLOT. -/
def sTslot (d : Nat) : Nat := sFld d 0 26 23
/-- COUNT. -/
def sCount (d : Nat) : Nat := sFld d 4 31 0
/-- ROWLEN. -/
def sRowlen (d : Nat) : Nat := sFld d 8 31 0
/-- k of PARAM. -/
def sK (d : Nat) : Nat := sFld d 12 3 0
/-- CCLR of PARAM. -/
def sCclr (d : Nat) : Bool := sFld d 12 4 4 == 1
/-- GEN. -/
def sGen (d : Nat) : Nat := sFld d 12 31 16
/-- IDX_VA. -/
def sIdx (d : Nat) : Nat := sFld d 16 51 0
/-- K of SPMM. -/
def sKdim (d : Nat) : Nat := sFld d 16 31 0
/-- AUX_VA. -/
def sAuxVa (d : Nat) : Nat := sFld d 24 51 0
/-- The origin of operand B of SPMM. -/
def sBorg (d : Nat) : List Nat := [sFld d 24 31 0, sFld d 24 63 32, 0, 0, 0, 0]
/-- LVA, or OORG_VA of MERGE. -/
def sLva (d : Nat) : Nat := sFld d 40 51 0
/-- OKEY_VA of MERGE. -/
def sOkey (d : Nat) : Nat := sFld d 32 51 0
/-- An origin at a byte offset, laid out as R201 gives. -/
def orgOf (d off : Nat) : List Nat :=
  [sFld d off 31 0, sFld d (off + 4) 31 0, sFld d (off + 8) 15 0, sFld d (off + 10) 15 0, sFld d (off + 12) 15 0,
    sFld d (off + 14) 15 0]
/-- SORG; dims 2 to 5 are zero where bytes 40 to 47 hold a list address. -/
def sSorg (sop d : Nat) : List Nat :=
  if sop = 4 ∨ sop = 5 ∨ sop = 6 then (orgOf d 32).take 2 ++ [0, 0, 0, 0] else orgOf d 32
/-- DORG. -/
def sDorg (d : Nat) : List Nat := orgOf d 48

/-- Mask of `w` bits at bit `lo` of the word at a byte offset. -/
def bitsAt (off lo w : Nat) : Nat := (2 ^ w - 1) * 2 ^ (8 * off + lo)

/-- The bits that R216 names for an operation; the others are reserved. -/
def sMask (sop : Nat) : Nat :=
  bitsAt 0 0 27 + bitsAt 4 0 32 + bitsAt 8 0 32 + bitsAt 12 0 32
    + (if sop = 7 then bitsAt 16 0 32 + bitsAt 24 0 64 else bitsAt 16 0 52 + bitsAt 24 0 52)
    + (if sop = 2 then bitsAt 32 0 52 + bitsAt 40 0 52
       else if sop = 4 ∨ sop = 5 ∨ sop = 6 then bitsAt 32 0 64 + bitsAt 40 0 52
       else bitsAt 32 0 128)
    + bitsAt 48 0 128

/-- Whether a reserved bit of a descriptor is set. -/
def sRsv (sop d : Nat) : Bool := d &&& sMask sop != d

/-- The MOPs that R217 allows for an operation. -/
def mopOk (sop mop : Nat) : Bool :=
  match sop with
  | 1 => decide (mop ≤ 2)
  | 3 => mop == 1 || mop == 2
  | 7 => decide (mop ≤ 1)
  | _ => mop == 0

/-- Whether a parameter is out of range (PARAM of R246). -/
def sParamBad (sop d : Nat) : Bool :=
  match sop with
  | 2 => decide (sCount d > 2 ^ 31) || decide (sRowlen d > 2 ^ 31)
  | 4 => sRowlen d == 0 || decide (sRowlen d > 1024) || sK d == 0 || decide (sK d > 8) || decide (sK d > sRowlen d)
  | 5 => sRowlen d == 0 || sK d == 0 || decide (sK d > 8)
  | 6 => sRowlen d == 0 || sK d == 0 || decide (sK d > 8)
  | 7 => sKdim d == 0 || decide (sKdim d > 65536)
  | _ => sRowlen d == 0

/-- The list bases that an operation uses; an operation with COUNT 0 uses none but the counts that TOPK clears (R217). -/
def sBases (sop d : Nat) : List Nat :=
  if sCount d = 0 then (if sop = 4 ∧ sCclr d then [sLva d] else [])
  else match sop with
    | 0 => [sIdx d]
    | 1 => [sIdx d]
    | 2 => [sIdx d, sAuxVa d, sOkey d, sLva d]
    | 3 => [sAuxVa d]
    | 7 => []
    | _ => [sIdx d, sAuxVa d, sLva d]

/-- The Chart slots that an operation names: SRC, DST, AUX. -/
def sSlots (sop d : Nat) : List Nat :=
  if sop = 2 then [] else if sop = 7 then [sSrc d, sDst d, sAux d] else [sSrc d, sDst d]

/-- A format that the Shoal takes (R218). -/
def sFmtOk (f : Nat) : Bool := decide (f ≤ 4) || f == 7

/-- Whether the Charts are a combination that R218 does not allow. -/
def sFmtBad (sop d : Nat) (cs : List Chart) : Bool :=
  let c (i : Nat) : Chart := cs.getD i (parseChart 0)
  let sp (i : Nat) : Bool := (c i).sparse
  if sop = 2 then false
  else
    !sFmtOk (c 0).fmt || !sFmtOk (c 1).fmt || sp 1 || (sop == 7) != sp 0
      || (sop == 7 && (!sFmtOk (c 2).fmt || sp 2 || !fmtIsFloat (c 0).fmt || !fmtIsFloat (c 2).fmt || (c 1).fmt != 0))
      || (sop == 4 && !fmtIsFloat (c 0).fmt)
      || (sop == 1 && sMop d != 0 && (c 1).fmt != 0)

/-! ### Faults (R246) -/

/-- The Shoal fault code of a failed access. -/
def shoalCode (f : XFail) : Nat := match f.kind with | 0 => 0x006 | 1 => 0x007 | _ => 0x008

/-- Shows QDEPTH. -/
def State.syncShl (s : State) (p : Nat) : State := s.setFld (Reg.SHL_STATUS p) Fd.SHL_STATUS_QDEPTH (s.isl p).shlq.length

/-- A Shoal fault (R246). -/
def State.shoalFault (s : State) (p : Nat) (o : ShoalOp) (code entry : Nat) : State :=
  let s := if s.bit (Reg.SHL_ERR p) Fd.SHL_ERR_FAULT then s.setFld (Reg.SHL_ERR p) Fd.SHL_ERR_MULTI 1
    else ((s.setFld (Reg.SHL_ERR p) Fd.SHL_ERR_FAULT 1).setReg (Reg.SHL_ERR_INFO p)
      (BitVec.ofNat 32 (code + o.sop * 2 ^ 12 + o.c * 2 ^ 16))).setReg (Reg.SHL_ERR_ENTRY p) (BitVec.ofNat 32 entry)
  let x := s.isl p
  let gone := x.shlq.filter fun d => d.c = o.c
  let s := s.setIsl p { x with shlq := x.shlq.filter (fun d => d.c ≠ o.c), shl := x.shl.map fun r => { r with failed := true } }
  let s := gone.foldl (fun s d => s.dropWork d.id) s
  (s.engineFault o.id 2 code).syncShl p

/-- Who the Shoal's accesses are. -/
def shoalAcc (s : State) (p : Nat) (o : ShoalOp) : Acc := ⟨quarterOf p, s.mctx p o.c, s.logicalOf p, 2, 3, o.id⟩

/-! ### Merge units (R221 to R225) -/

/-- The larger of two FP32 values (R221): NaN wins, and +0 is larger than −0. -/
def max32 (a b : Nat) : Nat :=
  match f32 a, f32 b with
  | .nan, _ => nan32
  | _, .nan => nan32
  | x, y =>
    if x.isZero && y.isZero then (if a = 0 ∨ b = 0 then 0 else a)
    else if x.lt y then b else a

/-- What a merge makes of a destination element (R221). -/
def mergeVal (mop old v : Nat) : Nat := match mop with | 0 => v | 1 => f32Add old v | _ => max32 old v

/-- Where the bytes of the element at an offset of a line operation lie. -/
def LineOp.bytesAt (o : LineOp) (off : Nat) : List Nat :=
  (List.range o.eb).map fun j => match o.hi with
    | some (k, b) => if k ≤ j then b + (j - k) else o.addr + off + j
    | none => o.addr + off + j

/-- The addresses of all bytes that a line operation writes. -/
def LineOp.allBytes (o : LineOp) : List Nat := o.items.flatMap fun i => o.bytesAt i.1

/-- The codewords that a line operation touches, each once. -/
def LineOp.cws (o : LineOp) : List Nat := (o.allBytes.map fun a => a / 32 * 32).eraseDups

/-- The lines that a line operation touches, as line numbers: one, or two for an element that crosses (log entry 118). -/
def LineOp.lines (o : LineOp) : List Nat := (o.allBytes.map (· / 64)).eraseDups

/-- Whether a WRITE covers all 32 bytes of a codeword. -/
def LineOp.covers (o : LineOp) (cw : Nat) : Bool :=
  o.mop == 0 && (List.range 32).all fun b => o.allBytes.contains (cw + b)

/-- The symbol-code effects of a line operation (R273): whether a read met a bad codeword. -/
def State.lineCws (s : State) (o : LineOp) : List Nat → Bool × State
  | [] => (false, s)
  | cw :: r =>
    let (b, s) := s.writeCw cw (if o.covers cw then cw else cw + 1) (cw + 32) 4 o.lisl
    let (b', s) := s.lineCws o r
    (b || b', s)

/-- Applies a line operation to memory: the status of R312 (0 OK, 1 and 2 access errors, 3 a bad codeword), and the state. -/
def State.lineApply (s : State) (p : Nat) (o : LineOp) : Nat × State :=
  if o.gchk && s.fld (Reg.SHL_GEN p o.tslot) Fd.SHL_GEN_TAG != o.tag then (0, s.count (Reg.SHL_CNT_STALE p) 1)
  else
    let k := (o.allBytes.map fun a => s.accessKind a true).foldl (fun k n => if k = 0 then n else k) 0
    let s := s.count (Reg.SHL_CNT_MERGE p) 1
    if k ≠ 0 then (k, s.accessErr o.addr 4 true k)
    else
      let (bad, s) := s.lineCws o o.cws
      let s := o.items.foldl (fun s i =>
        let as := o.bytesAt i.1
        (as.zip (leBytes o.eb (mergeVal o.mop (leNat (as.map s.byte)) i.2))).foldl (fun s ab => s.store ab.1 [ab.2]) s) s
      (if bad then 3 else 0, s)

/-- The merge unit that serves an address (R212). -/
def unitOf (a : Nat) : Nat := a / 64 % 16

/-- The oldest operation at a merge unit, unless an older one at one of its lines waits elsewhere. -/
def Isl.mergeNext (x : Isl) (u : Nat) : Option LineOp :=
  (x.mergeq.find? fun o => unitOf o.addr == u).filter fun o =>
    !(x.mergeq.takeWhile (· != o)).any fun e => e.lines.any fun l => o.lines.contains l

/-- A line of a remote MERGE has been applied with a STATUS (R308, R312): after the last one it is answered with the first STATUS
that was not OK. -/
def State.mergeAnswer (s : State) (p q st : Nat) (m : Msg) : State :=
  let st := if m.status = 0 then st else m.status
  let x := s.isl p
  if x.mergeq.any (·.answer == some (q, m)) then
    s.setIsl p { x with mergeq := x.mergeq.map fun o =>
      if o.answer = some (q, m) then { o with answer := some (q, { m with status := st }) } else o }
  else s.sendAnswer q m st []

/-- MERGE_UNIT_OPERATION (R223): a merge unit applies the oldest operation at its line. The work that sent it goes on, and a
remote MERGE is answered (R308). -/
def execMergeUnitOperation (p : Fin 144) (u : Fin 16) (s : State) : Out :=
  let x := s.isl p
  match x.mergeNext u with
  | none => .next s
  | some o =>
    let s := s.setIsl p { x with mergeq := x.mergeq.erase o }
    let (st, s) := s.lineApply p o
    let s := match o.answer with
      | some (q, m) => s.mergeAnswer p q st m
      | none => if st = 3 then s.raisePlaus p else s
    let s := match o.work with
      | some w => s.workIn w
      | none => s
    settled s

/-- Puts a line operation of a piece of work before a merge unit. -/
def State.lineSend (s : State) (p : Nat) (o : LineOp) : State :=
  let s := match o.work with
    | some w => s.workOut w
    | none => s
  let x := s.isl p
  s.setIsl p { x with mergeq := x.mergeq ++ [o] }

/-- The extension of a MERGE (R307): MOP, GCHK, TSLOT, tag. The spec gives a MERGE whole lines and no byte enables; the model
sends those of a partial line in bytes 8 to 15, where zero stands for a whole line (DESIGN CHOICE, log entry 23). -/
def mergeExt (mop : Nat) (gchk : Bool) (tslot tag en : Nat) : List Byte :=
  leBytes 4 (mop % 4 + (if gchk then 4 else 0) + (tslot % 16) * 8 + (tag % 2 ^ 16) * 2 ^ 16) ++ leBytes 4 0 ++ leBytes 8 en

/-- Elements as a line of 64 bytes with its byte enables. -/
def lineOfItems (eb : Nat) (items : List (Nat × Nat)) : List Byte × Nat :=
  items.foldl (fun (a : List Byte × Nat) i =>
    let b := leBytes eb i.2
    (a.1.take i.1 ++ b ++ a.1.drop (i.1 + b.length), a.2 ||| byteEnables i.1 eb)) (List.replicate 64 0, 0)

/-- Sends a line operation to the merge unit of another module (R223). -/
def State.remMerge (s : State) (q lisl work mod : Nat) (o : LineOp) : State :=
  let (vc, st) := s.engVc lisl
  let (line, en) := lineOfItems o.eb o.items
  let en := if en = 2 ^ 64 - 1 then 0 else en
  (s.workOut work).request q st (reqMsg 4 vc 1 false mod o.addr (mergeExt o.mop o.gchk o.tslot o.tag en) line) (.write work)

/-! ### Destination elements -/

/-- How an operation writes its elements: merge operation, tag check, slot and tag, and whether the destination must lie in a
Lagoon (R224). -/
structure Mrg where
  mop : Nat
  gchk : Bool
  tslot : Nat
  tag : Nat
  lagoon : Bool
deriving DecidableEq, Repr

/-- What one entry writes: line operations being formed, each with where it goes (0 for this module, else the id plus 1), and
the bytes that the lane has put elsewhere. -/
structure Outbox where
  lines : List (Nat × LineOp) := []
  bytes : WBytes := []

/-- Puts an operation of one element into a list of operations, latest first: it joins the latest that is `near` it where that one
`fits`, and else begins one of its own. -/
def joinOp (near fits : Nat × LineOp → Bool) (mod : Nat) (o : LineOp) (ls : List (Nat × LineOp)) : List (Nat × LineOp) :=
  match ls.findIdx? near with
  | some i => match ls[i]? with
    | some k => if fits k then ls.set i (k.1, { k.2 with items := k.2.items ++ o.items }) else (mod, o) :: ls
    | none => (mod, o) :: ls
  | none => (mod, o) :: ls

/-- Adds an element to the line operation of its line, or begins one. An element that is not 4-byte aligned in an ADD or a MAX, or
that repeats an offset of another module's line, begins one of its own, and so does one that crosses its line or its page. -/
def addItem (b : Outbox) (mod work lisl a eb pat : Nat) (m : Mrg) (hi : Option (Nat × Nat)) : Outbox :=
  let line := a / 64 * 64
  let whole := decide (a % 64 + eb ≤ 64) && (m.mop == 0 || a % 4 == 0) && hi.isNone
  let o : LineOp := ⟨some work, lisl, if whole then line else a, m.mop, m.gchk, m.tslot, m.tag, eb,
    [(if whole then a % 64 else 0, pat)], none, hi⟩
  let near (k : Nat × LineOp) : Bool := k.1 == mod && k.2.lines.any fun l => o.lines.contains l
  let fits (k : Nat × LineOp) : Bool :=
    k.2.addr == line && k.2.eb == eb && whole && (mod == 0 || !k.2.items.any fun i => i.1 == a % 64)
  { b with lines := (joinOp near fits mod o b.lines.reverse).reverse }

/-- Adds bytes of a WRITE, each to the line operation of its line: the form of an element that crosses a line or a page. -/
def addBytes (b : Outbox) (mod work lisl a : Nat) (bs : List Byte) (m : Mrg) : Outbox :=
  (bs.zipIdx).foldl (fun b v => addItem b mod work lisl (a + v.2) 1 v.1.toNat m none) b

/-- Sends the line operations of an entry, and ends the lane's own writes. -/
def State.flushBox (s : State) (A : Acc) (b : Outbox) : State :=
  b.lines.foldl (fun s k =>
    if k.1 = 0 then
      match region k.2.addr with
      | .lag p => s.lineSend p k.2
      | _ => s
    else s.remMerge A.q A.lisl A.work (k.1 - 1) k.2) (s.commit A b.bytes)

/-- Whether an address names a Lagoon block of another module. -/
def isLagoonName (a : Nat) : Bool := decide (lagoonName 0 0 ≤ a) && decide (a < lagoonName 136 0)

/-- Writes by the lane: a merge or a tag check cannot go there (R224). -/
def State.laneWrite (s : State) (A : Acc) (m : Mrg) (ps : List Piece) (bs : List Byte) (b : Outbox) :
    Option Nat × Outbox × State :=
  if m.lagoon then (some 0x004, b, s)
  else
    let (w, s) := s.putPieces A ps bs
    (none, { b with bytes := b.bytes ++ w }, s)

/-- The Lagoon that a piece lies in: 0 for one of this module, else the module's id plus 1, with the address. -/
def pieceLagoon (pc : Piece) : Option (Nat × Nat) :=
  match pc.loc with
  | .mem pa => match region pa with
    | .lag _ => some (0, pa)
    | _ => none
  | .rem md a => if isLagoonName a then some (md + 1, a) else none
  | .void => none

/-- An element that lies wholly in Lagoons, as line operations: the WRITE of one that crosses a line, a page or a block goes byte
by byte to the units of its lines; an ADD or MAX of one is an operation of its own, and of one that two blocks of other modules
share the spec gives no form (fault MOP, log entry 118). -/
def lagoonItem (A : Acc) (m : Mrg) (eb pat : Nat) (b : Outbox) : List (Nat × Nat × Nat) → Option Outbox
  | [(md, a, _)] =>
    if m.mop = 0 ∧ 64 < a % 64 + eb then some (addBytes b md A.work A.lisl a (leBytes eb pat) m)
    else some (addItem b md A.work A.lisl a eb pat m none)
  | [(md, a, n), (md', a', _)] =>
    let bs := leBytes eb pat
    if m.mop = 0 then
      some (addBytes (addBytes b md A.work A.lisl a (bs.take n) m) md' A.work A.lisl a' (bs.drop n) m)
    else if md = 0 ∧ md' = 0 then some (addItem b 0 A.work A.lisl a eb pat m (some (n, a')))
    else none
  | _ => none

/-- One destination element: dropped out of bounds, put into line operations of a Lagoon, or written by the lane (R223, R224): the
destination of a merge or a tag check is a Lagoon only through a native page or a block of KIND 1. A write to an unbound Lagoon
block is dropped (R199). -/
def State.dstElem (s : State) (A : Acc) (p : Nat) (c : Chart) (m : Mrg) (x : List Int) (pat : Nat) (b : Outbox) :
    Option Nat × Outbox × State :=
  if !c.inBounds x then (none, b, s.count (Reg.SHL_CNT_OOBW p) 1)
  else
    match s.chartPieces A c (c.byteOff x) (c.va x) c.eb true with
    | (.error f, s) => (some (shoalCode f), b, s.recordX A true f)
    | (.ok ps, s) =>
      let lag := ps.filterMap fun pc => (pieceLagoon pc).map fun l => (l.1, l.2, pc.n)
      if ps.any (fun q => q.loc == .void) then s.laneWrite A { m with lagoon := false } ps (leBytes c.eb pat) b
      else if c.t1 && m.lagoon then (some 0x004, b, s)
      else if lag.length = ps.length then
        match lagoonItem A m c.eb pat b lag with
        | some b => (none, b, s)
        | none => (some 0x004, b, s)
      else s.laneWrite A m ps (leBytes c.eb pat) b

/-- The destination elements of one entry, in order; what was reached before a failure is sent. -/
def State.dstElems (s : State) (A : Acc) (p : Nat) (c : Chart) (m : Mrg) (b : Outbox) : List (List Int × Nat) → Option Nat × State
  | [] => (none, s.flushBox A b)
  | (x, pat) :: r =>
    match s.dstElem A p c m x pat b with
    | (some code, b, s) => (some code, s.flushBox A b)
    | (none, b, s) => s.dstElems A p c m b r

/-- An element converted for its destination (R218): FP32 for ADD and MAX, the Chart's format for WRITE. -/
def shoalPat (s : State) (d : Nat) (c : Chart) (mop : Nat) (x : List Int) (v : FVal) : Nat :=
  if mop ≠ 0 then toF32 v
  else narrow c.fmt (sSat d) (if sStoch d && c.inBounds x then .stoch (c.randOf s.seed s.tideNum x) else .rne) v

/-! ### Lists (R214) -/

/-- Reads `n` words of a list, one page at a time. -/
def State.readList (s : State) (A : Acc) : Nat → Nat → Nat → AcRes (List Nat) × State
  | 0, _, _ => (.ok [], s)
  | fuel + 1, va, n =>
    if n = 0 then (.ok [], s)
    else
      let k := min n ((2 ^ 21 - va % 2 ^ 21) / 4)
      match s.fetchVa A va (4 * k) with
      | (.ok bs, s) =>
        match s.readList A fuel (va + 4 * k) (n - k) with
        | (.ok r, s) => (.ok ((List.range k).map (valAt 4 bs) ++ r), s)
        | r => r
      | (.fail f, s) => (.fail f, s)
      | (.wait, s) => (.wait, s)

/-- A list of `n` words. -/
def State.listAt (s : State) (A : Acc) (va n : Nat) : AcRes (List Nat) × State := s.readList A (4 * n / 2 ^ 21 + 2) va n

/-- Writes words of a list: those of a Lagoon line through its merge unit, the others by the lane. -/
def State.writeWords (s : State) (A : Acc) (va : Nat) (b : Outbox) : List Nat → Option Nat × State
  | [] => (none, s.flushBox A b)
  | w :: r =>
    match s.xlate A va true with
    | (.error f, s) => (some (shoalCode f), (s.recordX A true f).flushBox A b)
    | (.ok pa, s) =>
      match region pa with
      | .lag _ => s.writeWords A (va + 4) (addItem b 0 A.work A.lisl pa 4 w ⟨0, false, 0, 0, false⟩ none) r
      | _ =>
        let (k, s) := s.putPieces A [⟨.mem pa, 4⟩] (leBytes 4 w)
        s.writeWords A (va + 4) { b with bytes := b.bytes ++ k } r

/-! ### Lanes (R213) -/

/-- The lines that a planned element touches, with where its bytes lie in them. -/
def planRefs : Plan → List (Nat × Nat × Nat)
  | .plain ps => ps.flatMap fun q => (List.range q.n).map fun i =>
    match q.loc with
    | .mem pa => (0, (pa + i) / 64 * 64, (pa + i) % 64)
    | .rem m a => (m + 1, (a + i) / 64 * 64, (a + i) % 64)
    | .void => (0, 2 ^ 64, i)
  | _ => []

/-- Plans elements in order, up to the first that fails: the plans before it, and the failure. -/
def State.planPrefix (s : State) (A : Acc) (c : Chart) : List (List Int) → List Plan × Option XFail × State
  | [] => ([], none, s)
  | x :: xs =>
    match s.planElem A c x with
    | (.error f, s) => ([], some f, s)
    | (.ok p, s) =>
      let (ps, f, s) := s.planPrefix A c xs
      (p :: ps, f, s)

/-- The bytes of one line, read from memory: both its codewords are checked. A line of an unbound block reads zero. -/
def State.laneMem (s : State) (A : Acc) (mod line : Nat) : List Byte × State :=
  if line = 2 ^ 64 then (List.replicate 64 0, s.accessErr 0 A.req false 1)
  else if mod = 0 then
    let s := s.touch A [⟨.mem line, 64⟩]
    (s.peek A [⟨.mem line, 64⟩], s)
  else (s.peek A [⟨.rem (mod - 1) line, 64⟩], s)

/-- The lines of one entry: each is taken from the lane's buffer, which counts, or read and kept; the buffer holds the last
eight. Answers the lines and the buffer. -/
def State.laneLines (s : State) (A : Acc) (p : Nat) (buf : List LaneLine) : List (Nat × Nat) →
    List LaneLine × List LaneLine × State
  | [] => ([], buf, s)
  | (m, a) :: r =>
    match buf.find? fun l => l.mod == m && l.addr == a with
    | some l =>
      let (ls, buf, s) := (s.count (Reg.SHL_CNT_REUSE p) 1).laneLines A p buf r
      (l :: ls, buf, s)
    | none =>
      let (d, s) := s.laneMem A m a
      let l : LaneLine := ⟨m, a, d⟩
      let (ls, buf, s) := s.laneLines A p ((buf ++ [l]).drop (buf.length + 1 - 8)) r
      (l :: ls, buf, s)

/-- The pattern of a planned element from an entry's lines. -/
def refsPat (ls : List LaneLine) (p : Plan) : Nat :=
  leNat ((planRefs p).map fun k =>
    match ls.find? fun l => l.mod == k.1 && l.addr == k.2.1 with
    | some l => l.data.getD k.2.2 0
    | none => 0)

/-- The value of a planned element from an entry's lines. -/
def laneVal (c : Chart) (ls : List LaneLine) : Plan → FVal
  | .fill => c.fillElem.val
  | p => decodeFmt c.fmt (refsPat ls p)

/-- What a lane reads for one entry: the values before the first element that fails, and that failure. -/
structure LaneRes where
  vals : List FVal
  fail : Option XFail
  run : ShoalRun

/-- A lane reads the elements of one entry (R213); waiting for lines of another module changes nothing but the requests. -/
def State.laneRead (s : State) (A : Acc) (p : Nat) (r : ShoalRun) (lane : Nat) (c : Chart) (xs : List (List Int)) :
    Option LaneRes × State :=
  let (ps, f, s) := s.planPrefix A c xs
  let refs := ((ps.flatMap planRefs).map fun k => (k.1, k.2.1)).eraseDups
  let buf := tget (fun _ => []) r.lanes lane
  let need := refs.filter fun k => k.1 != 0 && !buf.any fun l => l.mod == k.1 && l.addr == k.2
  match s.askPieces A (need.map fun k => ⟨.rem (k.1 - 1) k.2, 64⟩) with
  | (false, s) => (none, s)
  | (true, s) =>
    let (ls, buf, s) := s.laneLines A p buf refs
    (some ⟨ps.map (laneVal c ls), f, { r with lanes := tset (fun _ => []) r.lanes lane buf }⟩, s)

/-! ### Overlap (R206, R245) -/

/-- An address space in which extents are compared (R206). -/
inductive Space where
  | va
  | phys
  | bot (base : Nat)
deriving DecidableEq, Repr

/-- A byte extent, from its lowest byte to above its highest. -/
structure Extent where
  space : Space
  lo : Int
  hi : Int
deriving DecidableEq, Repr

/-- Whether two extents share a byte. -/
def Extent.meets (a b : Extent) : Bool := a.space == b.space && decide (a.lo < b.hi) && decide (b.lo < a.hi)

/-- The space of a Chart's storage, and the address there of a byte offset with its device virtual address. -/
def Chart.spaceAt (c : Chart) (off va : Int) : Space × Int :=
  if c.t1 then (.phys, (c.pbase : Int) + off) else if c.dist then (.bot c.botBase, off) else (.va, va)

/-- The extents that one in-bounds element occupies, with its scale byte in MX formats and its whole slot in a SPARSE Chart. -/
def Chart.elemExtents (c : Chart) (x : List Int) : List Extent :=
  if !c.inBounds x then []
  else if c.sparse then
    let (sp, a) := c.spaceAt (c.slotOff x) ((c.base : Int) + c.slotOff x)
    [⟨sp, a, a + c.slotBytes⟩]
  else if fmtIsMx c.fmt then
    let (sp, a) := c.spaceAt (c.byteOff x) ((c.base : Int) + c.byteOff x)
    [⟨sp, a, a + mxBytes c.fmt⟩, ⟨.va, c.scaleVa x, c.scaleVa x + 1⟩]
  else
    let (sp, a) := c.spaceAt (c.byteOff x) (c.va x)
    [⟨sp, a, a + c.eb⟩]

/-- Extents joined per address space. -/
def joinExtents (es : List Extent) : List Extent :=
  es.foldl (fun acc e =>
    if acc.any (·.space == e.space) then
      acc.map fun k => if k.space = e.space then ⟨k.space, min k.lo e.lo, max k.hi e.hi⟩ else k
    else acc ++ [e]) []

/-- The extent of a region of a Chart; an MX region's scale plane is an extent of its own. -/
def Chart.region (c : Chart) (xs : List (List Int)) : List Extent :=
  if fmtIsMx c.fmt then
    joinExtents (xs.flatMap fun x => (c.elemExtents x).take 1) ++ joinExtents (xs.flatMap fun x => (c.elemExtents x).drop 1)
  else joinExtents (xs.flatMap c.elemExtents)

/-- The extent of a list of `n` words. -/
def listExtent (va n : Nat) : List Extent := if n = 0 then [] else [⟨.va, va, (va : Int) + 4 * n⟩]

/-- R245: a written region against every read region and every other written region. -/
def overlapping (writes reads : List (List Extent)) : Bool :=
  let hit (a b : List Extent) : Bool := a.any fun x => b.any x.meets
  writes.any (fun w => reads.any (hit w))
    || (List.range writes.length).any fun i => (List.range writes.length).any fun j =>
      decide (i < j) && hit (writes.getD i []) (writes.getD j [])

/-! ### Coordinates of the operations (R219 to R231, R240) -/

/-- A coordinate from an origin and six indices. -/
def sumCoord (org : List Nat) (x : List Nat) : List Int := (List.range 6).map fun d => orgAt org d + (x.getD d 0 : Nat)

/-- The element coordinates of a row: index x along dim 0, `y` along dim 1 and `z` along dim 2, from an origin. -/
def rowCoords (org : List Nat) (n y z : Nat) : List (List Int) := (List.range n).map fun x => sumCoord org [x, y, z]

/-- The destination row of PACK: the expert coordinate has no origin (R230). -/
def packRow (d n p e : Nat) : List (List Int) :=
  (rowCoords (sDorg d) n p 0).map fun x => x.set 2 (e : Int)

/-- Source and destination rows of entry `i` of a row operation, from its lists; no source for a dropped entry, and no
destination for an entry that PACK drops. -/
def entryRows (sop d : Nat) (lists : List (List Nat)) (i : Nat) : Option (List (List Int)) × List (List Int) :=
  let w (l : Nat) : Nat := (lists.getD l []).getD i 0
  let n := sRowlen d
  let so := sSorg sop d
  let dorg := sDorg d
  match sop with
  | 0 => (some (rowCoords so n (w 0) 0), rowCoords dorg n i 0)
  | 1 => (some (rowCoords so n i 0), rowCoords dorg n (w 0) 0)
  | 5 => if w 1 ≥ w 2 then (none, []) else (some (rowCoords so n (i / sK d) 0), packRow d n (w 1) (w 0))
  | _ => (if w 1 ≥ w 2 then none else some (rowCoords so n (w 1) (w 0)), rowCoords dorg n i 0)

/-! ### Begin (R217, R244, R245) -/

/-- Marks the operation as running. -/
def State.shoalRunning (s : State) (p : Nat) (r : ShoalRun) : State := s.setIsl p { s.isl p with shl := some r }

/-- The Charts that an operation names, checked in order (R185); a failure of any kind is CHART. -/
def State.shoalCharts (s : State) (p ctx : Nat) : List Nat → Option (List Nat) × State
  | [] => (some [], s)
  | slot :: r =>
    let (raw, s) := s.chartOf p ctx slot
    if (parseChart raw).check ctx = .ok then
      match s.shoalCharts p ctx r with
      | (some cs, s) => (some (raw :: cs), s)
      | n => n
    else (none, s)

/-- A Chart of the running operation: 0 SRC, 1 DST, 2 AUX. -/
def ShoalRun.chart (r : ShoalRun) (i : Nat) : Chart := parseChart (r.charts.getD i 0)

/-- Reads the lists of an operation in order: each a base and a number of words. -/
def State.readLists (s : State) (A : Acc) : List (Nat × Nat) → AcRes (List (List Nat)) × State
  | [] => (.ok [], s)
  | (va, n) :: r =>
    match s.listAt A va n with
    | (.ok l, s) =>
      match s.readLists A r with
      | (.ok ls, s) => (.ok (l :: ls), s)
      | x => x
    | (.fail f, s) => (.fail f, s)
    | (.wait, s) => (.wait, s)

/-- Reads single words of a list. -/
def State.readWordsAt (s : State) (A : Acc) (va : Nat) : List Nat → AcRes (List Nat) × State
  | [] => (.ok [], s)
  | i :: r =>
    match s.fetchVa A (va + 4 * i : Nat) 4 with
    | (.ok b, s) =>
      match s.readWordsAt A va r with
      | (.ok ws, s) => (.ok (leNat b :: ws), s)
      | x => x
    | (.fail f, s) => (.fail f, s)
    | (.wait, s) => (.wait, s)

/-- The lists that an operation reads at its start. PACK and UNPACK get, as their third list, the capacity of each entry's
expert. -/
def State.shoalLists (s : State) (A : Acc) (sop d : Nat) : AcRes (List (List Nat)) × State :=
  let n := sCount d
  match sop with
  | 0 => s.readLists A [(sIdx d, n)]
  | 1 => s.readLists A [(sIdx d, n)]
  | 2 => s.readLists A [(sIdx d, n), (sAuxVa d, sRowlen d)]
  | 3 => s.readLists A [(sAuxVa d, n + 1)]
  | 4 => if sCclr d then (.ok [List.replicate (sRowlen d) 0], s) else s.readLists A [(sLva d, sRowlen d)]
  | 7 => (.ok [], s)
  | _ =>
    match s.readLists A [(sIdx d, n), (sAuxVa d, n)] with
    | (.ok ls, s) =>
      let es := ls.getD 0 []
      match s.readWordsAt A (sLva d) es.eraseDups with
      | (.ok ws, s) =>
        (.ok (ls ++ [es.map fun e => ((es.eraseDups.zip ws).find? (·.1 == e)).elim 0 (·.2)]), s)
      | (.fail f, s) => (.fail f, s)
      | (.wait, s) => (.wait, s)
    | r => r

/-- The regions that an operation writes and reads (R245). -/
def shoalRegions (sop d : Nat) (cs : List Chart) (lists : List (List Nat)) : List (List Extent) × List (List Extent) :=
  let c (i : Nat) : Chart := cs.getD i (parseChart 0)
  let n := sCount d
  match sop with
  | 2 =>
    let m := sRowlen d
    ([listExtent (sOkey d) (n + m), listExtent (sLva d) (n + m)], [listExtent (sIdx d) n, listExtent (sAuxVa d) m])
  | 3 =>
    let o := lists.getD 0 []
    let rows := (List.range n).flatMap fun i => (List.range (o.getD (i + 1) 0 - o.getD i 0)).map (o.getD i 0 + ·)
    ([(c 1).region ((List.range n).flatMap fun i => rowCoords (sDorg d) (sRowlen d) i 0)],
      [(c 0).region (rows.flatMap fun r => rowCoords (sSorg sop d) (sRowlen d) r 0), listExtent (sAuxVa d) (n + 1)])
  | 4 =>
    ([(c 1).region ((List.range n).flatMap fun t => rowCoords (sDorg d) (sK d) t 0), listExtent (sIdx d) (n * sK d),
        listExtent (sAuxVa d) (n * sK d), listExtent (sLva d) (sRowlen d)],
      [(c 0).region ((List.range n).flatMap fun t => rowCoords (sSorg sop d) (sRowlen d) t 0)])
  | 7 =>
    let tiles := (List.range ((sKdim d + 31) / 32)).flatMap fun kt => (List.range ((n + 31) / 32)).map fun mt =>
      sumCoord (sSorg sop d) [32 * kt, 32 * mt]
    ([(c 1).region ((List.range n).flatMap fun m => rowCoords (sDorg d) (sRowlen d) m 0)],
      [(c 0).region tiles, (c 2).region ((List.range (sKdim d)).flatMap fun k => rowCoords (sBorg d) (sRowlen d) k 0)])
  | _ =>
    let rows := (List.range n).map (entryRows sop d lists)
    let ls := if sop ≤ 1 then [listExtent (sIdx d) n]
      else [listExtent (sIdx d) n, listExtent (sAuxVa d) n]
        ++ [joinExtents ((lists.getD 0 []).eraseDups.flatMap fun e => listExtent (sLva d + 4 * e) 1)]
    ([(c 1).region (rows.flatMap (·.2))], [(c 0).region (rows.flatMap fun r => r.1.getD [])] ++ ls)

/-- The checks of R246 in the order descriptor, MOP, PARAM, ALIGN, Charts, formats, tile origin: the fault code, if any, and the
Charts. -/
def State.shoalCheck (s : State) (p : Nat) (o : ShoalOp) (d : Nat) : Except Nat (List Nat) × State :=
  if sRsv o.sop d then (.error 0x001, s)
  else if !mopOk o.sop (sMop d) then (.error 0x004, s)
  else if sParamBad o.sop d then (.error 0x00A, s)
  else if (sBases o.sop d).any (· % 4 != 0) then (.error 0x009, s)
  else match s.shoalCharts p (s.mctx p o.c) (sSlots o.sop d) with
    | (none, s) => (.error 0x002, s)
    | (some cs, s) =>
      if sFmtBad o.sop d (cs.map parseChart) then (.error 0x003, s)
      else if o.sop = 7 ∧ (sFld d 32 31 0 % 32 ≠ 0 ∨ sFld d 36 31 0 % 32 ≠ 0) then (.error 0x00B, s)
      else (.ok cs, s)

/-- Takes the oldest operation off the queue and makes it the running one. -/
def State.shoalTake (s : State) (p : Nat) (o : ShoalOp) (rest : List ShoalOp) (d : Nat) : State :=
  let s := s.setIsl p { s.isl p with shlq := rest, shl := some ⟨o, d, [], [], 0, [], false⟩ }
  ((s.setFld (Reg.SHL_STATUS p) Fd.SHL_STATUS_BUSY 1).setFld (Reg.SHL_STATUS p) Fd.SHL_STATUS_SOP o.sop).syncShl p

/-- Begins an operation whose descriptor is `d`: checks, lists, overlap. An operation with COUNT 0 then completes, TOPK with
CCLR after its zero counts (R217). -/
def State.shoalBegin (s : State) (p : Nat) (o : ShoalOp) (rest : List ShoalOp) (d : Nat) : State :=
  let A := shoalAcc s p o
  match s.shoalCheck p o d with
  | (.error code, s) => (s.shoalTake p o rest d).shoalFault p o code 0
  | (.ok cs, s) =>
    if sCount d = 0 then
      let s := s.shoalTake p o rest d
      if o.sop = 4 ∧ sCclr d then
        match s.writeWords A (sLva d) {} (List.replicate (sRowlen d) 0) with
        | (some code, s) => s.shoalFault p o code 0
        | (none, s) => s.workDone o.id
      else s.workDone o.id
    else match s.shoalLists A o.sop d with
      | (.wait, s) => s
      | (.fail f, s) => (s.shoalTake p o rest d).shoalFault p o (shoalCode f) 0
      | (.ok ls, s) =>
        let s := s.shoalTake p o rest d
        let (w, r) := shoalRegions o.sop d (cs.map parseChart) ls
        if overlapping w r then s.shoalFault p o 0x005 0
        else
          let s := s.shoalRunning p ⟨o, d, cs, ls, 0, [], false⟩
          if o.sop = 4 ∧ sCclr d then
            match s.writeWords A (sLva d) {} (List.replicate (sRowlen d) 0) with
            | (some code, s) => s.shoalFault p o code 0
            | (none, s) => s
          else s

/-- Reads the descriptor of the oldest queued operation, and begins it if it is of this sub-operation. -/
def State.shoalStart (s : State) (p sop : Nat) : State :=
  match (s.isl p).shlq with
  | [] => s
  | o :: rest =>
    if o.sop ≠ sop then s
    else
      match s.fetchVa (shoalAcc s p o) o.desc 64 with
      | (.ok bs, s) => s.shoalBegin p o rest (leNat bs)
      | (.fail f, s) => (s.shoalTake p o rest 0).shoalFault p o (shoalCode f) 0
      | (.wait, s) => s

/-! ### Running -/

/-- Goes to the next entry; after the last one the engine has finished. Lines kept of other modules are dropped, so that a
later lane read asks again. -/
def State.shoalNext (s : State) (p : Nat) (r : ShoalRun) (total : Nat) : State :=
  let s := { s with remLines := s.remLines.filter (·.work ≠ r.op.id) }
  let s := s.shoalRunning p { r with pos := r.pos + 1 }
  if r.pos + 1 ≥ total then s.workDone r.op.id else s

/-- Ends an entry whose writes answered `code`, and whose source reads failed with `fail`: a failing destination comes before
the failing source element behind it. -/
def State.shoalEntry (s : State) (p : Nat) (r : ShoalRun) (A : Acc) (total entry : Nat) (code : Option Nat) (fail : Option XFail) :
    State :=
  match code, fail with
  | some c, _ => s.shoalFault p r.op c entry
  | none, some f => (s.recordX A false f).shoalFault p r.op (shoalCode f) entry
  | none, none => s.shoalNext p r total

/-- How the elements of an operation are written: SCATTER and SPMM merge with MOP; SCATTER, PACK and UNPACK carry the tag. A merge,
and with GCHK = 1 every operation but SEGRED, needs a destination in a Lagoon (R224, R225). -/
def sMrg (sop d : Nat) : Mrg :=
  let mop := if sop = 1 ∨ sop = 7 then sMop d else 0
  ⟨mop, (sop == 1 || sop == 5 || sop == 6) && sGchk d, sTslot d, sGen d, mop != 0 || (sGchk d && sop != 3)⟩

/-- One entry of GATHER, SCATTER, PACK or UNPACK (R219, R220, R230, R231). -/
def State.runRow (s : State) (p : Nat) (r : ShoalRun) : State :=
  let d := r.desc
  let sop := r.op.sop
  let A := shoalAcc s p r.op
  let c := r.chart 1
  let m := sMrg sop d
  let (src, dst) := entryRows sop d r.lists r.pos
  match src with
  | none =>
    if sop = 5 then (s.count (Reg.SHL_CNT_CAPDROP p) 1).shoalNext p r (sCount d)
    else
      let (code, s) := s.dstElems A p c m {} (dst.map fun x => (x, 0))
      s.shoalEntry p r A (sCount d) r.pos code none
  | some xs =>
    match s.laneRead A p r (r.pos % 32) (r.chart 0) xs with
    | (none, s) => s
    | (some l, s) =>
      let s := s.shoalRunning p l.run
      let (code, s) := s.dstElems A p c m {} ((dst.zip l.vals).map fun xv => (xv.1, shoalPat s d c m.mop xv.1 xv.2))
      s.shoalEntry p l.run A (sCount d) r.pos code l.fail

/-- MERGE's two lists merged (R226): the keys with their origin words. `i` and `j` count the keys taken. -/
def mergeKeys : Nat → List Nat → List Nat → Nat → Nat → List (Nat × Nat)
  | 0, _, _, _, _ => []
  | f + 1, a :: as, b :: bs, i, j =>
    if a ≤ b then (a, i) :: mergeKeys f as (b :: bs) (i + 1) j else (b, 2 ^ 31 + j) :: mergeKeys f (a :: as) bs i (j + 1)
  | f + 1, a :: as, [], i, j => (a, i) :: mergeKeys f as [] (i + 1) j
  | f + 1, [], b :: bs, i, j => (b, 2 ^ 31 + j) :: mergeKeys f [] bs i (j + 1)
  | _ + 1, [], [], _, _ => []

/-- Adjacent pairs of a list whose later key is smaller. -/
def unsorted (l : List Nat) : Nat := ((l.zip l.tail).filter fun x => x.2 < x.1).length

/-- MERGE: all its keys. -/
def State.runMerge (s : State) (p : Nat) (r : ShoalRun) : State :=
  let d := r.desc
  let A := shoalAcc s p r.op
  let a := r.lists.getD 0 []
  let b := r.lists.getD 1 []
  let ks := mergeKeys (a.length + b.length) a b 0 0
  let n := unsorted a + unsorted b
  let s := if n = 0 then s else s.count (Reg.SHL_CNT_UNSORT p) n
  match s.writeWords A (sOkey d) {} (ks.map (·.1)) with
  | (some code, s) => s.shoalFault p r.op code 0
  | (none, s) =>
    match s.writeWords A (sLva d) {} (ks.map (·.2)) with
    | (some code, s) => s.shoalFault p r.op code 0
    | (none, s) => s.shoalNext p r 1

/-- One segment of SEGRED (R227). -/
def State.runSegred (s : State) (p : Nat) (r : ShoalRun) : State :=
  let d := r.desc
  let A := shoalAcc s p r.op
  let c := r.chart 1
  let o := r.lists.getD 0 []
  let lo := o.getD r.pos 0
  let hi := o.getD (r.pos + 1) 0
  let n := sRowlen d
  let dst := rowCoords (sDorg d) n r.pos 0
  let m := sMrg 3 d
  if hi ≤ lo then
    let s := if hi < lo then s.count (Reg.SHL_CNT_SEGBAD p) 1 else s
    let (code, s) := s.dstElems A p c m {} (dst.map fun x => (x, c.fill % 2 ^ fmtBits c.fmt))
    s.shoalEntry p r A (sCount d) r.pos code none
  else
    let xs := (List.range n).flatMap fun x => (List.range (hi - lo)).map fun k => sumCoord (sSorg 3 d) [x, lo + k]
    match s.laneRead A p r (r.pos % 32) (r.chart 0) xs with
    | (none, s) => s
    | (some l, s) =>
      let s := s.shoalRunning p l.run
      let cols := chunksOf (hi - lo) (l.vals.length / (hi - lo)) (l.vals.map toF32)
      let red (v : List Nat) : Nat := v.tail.foldl (fun a b => mergeVal (sMop d) a b) (v.headD 0)
      let (code, s) := s.dstElems A p c m {} ((dst.zip cols).map fun xv => (xv.1, shoalPat s d c 0 xv.1 (f32 (red xv.2))))
      s.shoalEntry p l.run A (sCount d) r.pos code l.fail

/-- Whether score `a` of expert `i` ranks before score `b` of expert `j` (R228). -/
def ranksBefore (a : FVal) (i : Nat) (b : FVal) (j : Nat) : Bool :=
  match a, b with
  | .nan, .nan => decide (i < j)
  | .nan, _ => false
  | _, .nan => true
  | x, y => y.lt x || (!x.lt y && decide (i < j))

/-- The rank of expert `i`: how many rank before it. -/
def rankOf (sc : List FVal) (i : Nat) : Nat :=
  ((List.range sc.length).filter fun j => ranksBefore (sc.getD j .nan) j (sc.getD i .nan) i).length

/-- The writes of one entry of TOPK (R229): expert, score, position, count. -/
def State.topkEntry (s : State) (A : Acc) (p : Nat) (d : Nat) (c : Chart) (t j e cnt : Nat) (sc : FVal) : Option Nat × State :=
  let i := t * sK d + j
  match s.writeWords A (sIdx d + 4 * i) {} [e] with
  | (some code, s) => (some code, s)
  | (none, s) =>
    let x := sumCoord (sDorg d) [j, t]
    match s.dstElems A p c (sMrg 4 d) {} [(x, shoalPat s d c 0 x sc)] with
    | (some code, s) => (some code, s)
    | (none, s) =>
      match s.writeWords A (sAuxVa d + 4 * i) {} [cnt] with
      | (some code, s) => (some code, s)
      | (none, s) => s.writeWords A (sLva d + 4 * e) {} [(cnt + 1) % 2 ^ 32]

/-- The entries of a token, in rank order; `cs` are the counts. -/
def State.topkEntries (s : State) (A : Acc) (p d : Nat) (c : Chart) (t : Nat) (sc : List FVal) :
    Nat → List Nat → List Nat → Option Nat × List Nat × State
  | _, [], cs => (none, cs, s)
  | j, e :: es, cs =>
    let cnt := cs.getD e 0
    match s.topkEntry A p d c t j e cnt (sc.getD e .nan) with
    | (some code, s) => (some code, cs, s)
    | (none, s) => s.topkEntries A p d c t sc (j + 1) es (cs.set e ((cnt + 1) % 2 ^ 32))

/-- One token of TOPK (R228, R229). -/
def State.runTopk (s : State) (p : Nat) (r : ShoalRun) : State :=
  let d := r.desc
  let A := shoalAcc s p r.op
  let n := sRowlen d
  match s.laneRead A p r (r.pos % 32) (r.chart 0) (rowCoords (sSorg 4 d) n r.pos 0) with
  | (none, s) => s
  | (some l, s) =>
    let s := s.shoalRunning p l.run
    match l.fail with
    | some f => (s.recordX A false f).shoalFault p r.op (shoalCode f) r.pos
    | none =>
      let best := (List.range (sK d)).filterMap fun j => (List.range n).find? fun e => rankOf l.vals e == j
      let (code, cs, s) := s.topkEntries A p d (r.chart 1) r.pos l.vals 0 best (r.lists.getD 0 [])
      s.shoalEntry p { l.run with lists := [cs] } A (sCount d) r.pos code none

/-! ### SPMM (R240, R241) -/

/-- The products of row `m`: (k, element) for each set bit of its sparse-path tiles, in ascending k. -/
def spmmItems (d : Nat) (a : Chart) (tiles : List (Nat × SlotRead)) (m : Nat) : List (Nat × FVal) :=
  tiles.flatMap fun kt => match kt.2.tile with
    | some t =>
      (List.range 32).filterMap fun j =>
        let k := 32 * kt.1 + j
        let b := 32 * (m % 32) + j
        if t.bits / 2 ^ b % 2 = 1 ∧ k < sKdim d ∧ a.inBounds (sumCoord (sSorg 7 d) [k, m]) then
          some (k, decodeFmt a.fmt (t.vals.getD b 0))
        else none
    | none => []

/-- acc = RNE32(acc + a × B) over the products (R240). -/
def spmmAcc (ps : List (FVal × FVal)) : Nat := ps.foldl (fun acc x => toF32 ((f32 acc).add (x.1.mul x.2))) 0

/-- The rows of a block, in order: each reads its elements of B on its lane and writes its row of C. -/
def State.spmmRows (s : State) (A : Acc) (p : Nat) (tiles : List (Nat × SlotRead)) (a b c : Chart) (r : ShoalRun) :
    List Nat → Option (Option Nat × Option XFail × Nat) × ShoalRun × State
  | [] => (some (none, none, 0), r, s)
  | m :: ms =>
    let d := r.desc
    let n := sRowlen d
    let items := spmmItems d a tiles m
    let xs := (List.range n).flatMap fun x => items.map fun k => sumCoord (sBorg d) [x, k.1]
    match s.laneRead A p r (m % 32) b xs with
    | (none, s) => (none, r, s)
    | (some l, s) =>
      let cnt := if items.isEmpty then n else l.vals.length / items.length
      let rows := chunksOf items.length cnt l.vals
      let out := (List.range cnt).map fun x => (sumCoord (sDorg d) [x, m], spmmAcc ((items.map (·.2)).zip (rows.getD x [])))
      let (code, s) := if sMop d = 1 ∧ items.isEmpty then (none, s) else s.dstElems A p c (sMrg 7 d) {} out
      match code, l.fail with
      | none, none => s.spmmRows A p tiles a b c l.run ms
      | _, f => (some (code, f, m), l.run, s)

/-- Whether every line of B that the rows of a block need has come. -/
def State.spmmReady (s : State) (A : Acc) (tiles : List (Nat × SlotRead)) (a b : Chart) (r : ShoalRun) (ms : List Nat) :
    Bool × State :=
  let xs := ms.flatMap fun m =>
    (List.range (sRowlen r.desc)).flatMap fun x => (spmmItems r.desc a tiles m).map fun k => sumCoord (sBorg r.desc) [x, k.1]
  let (ps, _, s) := s.planPrefix A b xs
  let refs := ((ps.flatMap planRefs).map fun k => (k.1, k.2.1)).eraseDups
  s.askPieces A ((refs.filter (·.1 != 0)).map fun k => ⟨.rem (k.1 - 1) k.2, 64⟩)

/-- One block of 32 rows of SPMM: its tiles are read once, and those that the array takes are ignored (R237, R240). -/
def State.runSpmm (s : State) (p : Nat) (r : ShoalRun) : State :=
  let d := r.desc
  let A := shoalAcc s p r.op
  let a := r.chart 0
  let c := r.chart 1
  let b := r.chart 2
  let thresh := s.fld (Reg.SHL_CFG p) Fd.SHL_CFG_THRESH
  let total := (sCount d + 31) / 32
  let kts := (List.range ((sKdim d + 31) / 32)).filter fun kt => a.inBounds (sumCoord (sSorg 7 d) [32 * kt, 32 * r.pos])
  let ds := kts.map fun kt => a.slotOff (sumCoord (sSorg 7 d) [32 * kt, 32 * r.pos])
  let entry := 32 * r.pos
  let only (h : List Byte) : Bool := !sparsePath a.fmt thresh h
  match s.readSlots A a true only ds with
  | (.wait, s) => s
  | (.fail f, s) => s.shoalFault p r.op (shoalCode f) entry
  | (.ok slots, s) =>
    let tiles := kts.zip slots
    let ms := (List.range 32).map (entry + ·) |>.filter (· < sCount d)
    match s.spmmReady A tiles a b r ms with
    | (false, s) => s
    | (true, s) =>
      let s := (s.readSlots A a false only ds).2
      let n := (slots.filter (·.tile.isSome)).length
      let s := if n = 0 then s else s.count (Reg.SHL_CNT_SPTILE p) n
      match s.spmmRows A p tiles a b c r ms with
      | (none, _, s) => s
      | (some (none, none, _), r, s) => s.shoalNext p r total
      | (some (code, f, m), r, s) => (s.shoalRunning p r).shoalEntry p r A total m code f

/-! ### The commands -/

/-- One step of the running operation of a sub-operation, or the begin of the oldest queued one (R244). -/
def State.shoalStep (s : State) (p sop : Nat) (f : State → Nat → ShoalRun → State) : State :=
  match (s.isl p).shl with
  | none => s.shoalStart p sop
  | some r =>
    let left : Bool := match s.findWork r.op.id with
      | some w => !w.done
      | none => false
    if r.op.sop = sop ∧ left = true ∧ r.failed = false then f s p r else s

/-- A SHOAL row: its issue by a context, or a step of the Shoal. -/
def shoalRowOut (s : State) (p : Nat) (sop : Nat) (ph : ShoalPhase) (iss : Fin 2 → State) (f : State → Nat → ShoalRun → State) :
    Out :=
  match ph with
  | .issue c => settled (iss c)
  | .run => settled (s.shoalStep p sop f)

/-- GATHER (R219). -/
def execGather (p : Fin 144) (ph : ShoalPhase) (s : State) : Out := shoalRowOut s p 0 ph (fun c => shoalIssue 0 p c s) State.runRow
/-- SCATTER (R220). -/
def execScatter (p : Fin 144) (ph : ShoalPhase) (s : State) : Out := shoalRowOut s p 1 ph (fun c => shoalIssue 1 p c s) State.runRow
/-- MERGE of the Shoal (R226). -/
def execShoalMerge (p : Fin 144) (ph : ShoalPhase) (s : State) : Out :=
  shoalRowOut s p 2 ph (fun c => shoalIssue 2 p c s) State.runMerge
/-- SEGRED (R227). -/
def execSegred (p : Fin 144) (ph : ShoalPhase) (s : State) : Out :=
  shoalRowOut s p 3 ph (fun c => shoalIssue 3 p c s) State.runSegred
/-- TOPK (R228, R229). -/
def execTopk (p : Fin 144) (ph : ShoalPhase) (s : State) : Out := shoalRowOut s p 4 ph (fun c => shoalIssue 4 p c s) State.runTopk
/-- PACK (R230). -/
def execPack (p : Fin 144) (ph : ShoalPhase) (s : State) : Out := shoalRowOut s p 5 ph (fun c => shoalIssue 5 p c s) State.runRow
/-- UNPACK (R231). -/
def execUnpack (p : Fin 144) (ph : ShoalPhase) (s : State) : Out := shoalRowOut s p 6 ph (fun c => shoalIssue 6 p c s) State.runRow
/-- SPMM (R240, R241). -/
def execSpmm (p : Fin 144) (ph : ShoalPhase) (s : State) : Out := shoalRowOut s p 7 ph (fun c => shoalIssue 7 p c s) State.runSpmm

end Sys2Proof.Machine
end

