-- ==== Sys2Proof/Machine/Ferry.lean ====
section
/-! DEFINITION. The Ferries (chapter 7): the descriptor (R201), its checks (R203 to R207, R209), MOVE, COMPRESS, EXPAND and
BYTES, Pilot submissions, and the registers' effects (R211). -/

namespace Sys2Proof.Machine

/-! ### The descriptor (R201) -/

/-- OP. -/
def fOp (d : Nat) : Nat := sFld d 0 3 0
/-- SRC. -/
def fSrc (d : Nat) : Nat := sFld d 0 9 4
/-- DST. -/
def fDst (d : Nat) : Nat := sFld d 0 15 10
/-- RMODE is stochastic. -/
def fStoch (d : Nat) : Bool := sFld d 0 16 16 == 1
/-- SAT. -/
def fSat (d : Nat) : Bool := sFld d 0 17 17 == 1
/-- REMOTE. -/
def fRemote (d : Nat) : Bool := sFld d 0 18 18 == 1
/-- LISL. -/
def fLisl (d : Nat) : Nat := sFld d 0 26 19
/-- CTX. -/
def fCtx (d : Nat) : Nat := sFld d 0 30 27
/-- Field `i` of PERM: the source dimension that feeds destination dimension `i`. -/
def fPerm (d i : Nat) : Nat := sFld d 4 (3 * i + 2) (3 * i)
/-- EXT[i]. -/
def fExt (d i : Nat) : Nat := sFld d (8 + 4 * i) 31 0
/-- SORG and DORG. -/
def fSorg (d : Nat) : List Nat := orgOf d 32
/-- DORG. -/
def fDorg (d : Nat) : List Nat := orgOf d 48
/-- SVA. -/
def fSva (d : Nat) : Nat := sFld d 8 51 0
/-- DADDR. -/
def fDaddr (d : Nat) : Nat := sFld d 16 51 0
/-- LEN. -/
def fLen (d : Nat) : Nat := sFld d 24 39 0
/-- DMOD. -/
def fDmod (d : Nat) : Nat := sFld d 32 9 0

/-- The bits that R201 names. -/
def fMask (d : Nat) : Nat :=
  bitsAt 0 0 31 + bitsAt 4 0 18
    + (if fOp d = 3 then bitsAt 8 0 52 + bitsAt 16 0 52 + bitsAt 24 0 40 + bitsAt 32 0 10
       else bitsAt 8 0 192 + bitsAt 32 0 128 + bitsAt 48 0 128)

/-- Whether OP is reserved or a reserved bit is set. -/
def fRsv (d : Nat) : Bool := decide (fOp d > 3) || d &&& fMask d != d

/-- Whether PERM is a permutation of 0 to 5. -/
def fPermOk (d : Nat) : Bool := (List.range 6).all fun k => (List.range 6).any fun i => fPerm d i == k

/-- Whether PERM is the identity. -/
def fPermId (d : Nat) : Bool := (List.range 6).all fun i => fPerm d i == i

/-! ### Who it works for -/

/-- The Quarter of a Ferry. -/
def ferryQ (f : Nat) : Nat := f / 4

/-- The accessor of a descriptor: the issuing context, or the Pilot with the descriptor's CTX. -/
def ferryAcc (s : State) (f : Nat) (o : FryOp) (d : Nat) : Acc :=
  match o.src with
  | .ctx p c => ⟨ferryQ f, s.mctx p c, s.logicalOf p, 3, 6, o.id⟩
  | .pilot => ⟨ferryQ f, fCtx d, 0xFF, 3, 6, o.id⟩

/-- The Chart entry that a descriptor uses for a slot: the Island's copy, or, for the Pilot, the entry of logical Island LISL in
the table. -/
def State.ferryChart (s : State) (f : Nat) (o : FryOp) (d slot : Nat) : Nat × State :=
  match o.src with
  | .ctx p c => s.chartOf p (s.mctx p c) slot
  | .pilot =>
    let a := s.chartEntry (ferryQ f) (fCtx d) (fLisl d) slot
    (if s.accessKind a false = 0 then s.memNat a 128 else 0,
      s.touchCws (ferryAcc s f o d) ((List.range 4).map fun i => a + 32 * i))

/-- The module context of a descriptor. -/
def ferryCtx (s : State) (o : FryOp) (d : Nat) : Nat :=
  match o.src with
  | .ctx p c => s.mctx p c
  | .pilot => fCtx d

/-! ### Faults (R209) -/

/-- The Ferry fault code of a failed access. -/
def ferryCode (f : XFail) : Nat := match f.kind with | 0 => 0x006 | 1 => 0x007 | _ => 0x008

/-- Shows QDEPTH. -/
def State.syncFry (s : State) (f : Nat) : State :=
  s.setFld (Reg.FRY_STATUS (f / 4) (f % 4)) Fd.FRY_STATUS_QDEPTH (s.fry f).queue.length

/-- A Ferry fault (R209, R211): it is recorded; a sequencer's context stops, and its queued descriptors on this Ferry are
discarded; for a Pilot submission the firmware is notified. -/
def State.ferryFault (s : State) (f : Nat) (o : FryOp) (code : Nat) : State :=
  let q := f / 4
  let k := f % 4
  let (lisl, c) : Nat × Nat := match o.src with
    | .ctx p c => (s.logicalOf p, c)
    | .pilot => (0xFF, 0)
  let s := if s.bit (Reg.FRY_ERR q k) Fd.FRY_ERR_FAULT then s.setFld (Reg.FRY_ERR q k) Fd.FRY_ERR_MULTI 1
    else (s.setFld (Reg.FRY_ERR q k) Fd.FRY_ERR_FAULT 1).setReg (Reg.FRY_ERR_INFO q k)
      (BitVec.ofNat 32 (code + lisl * 2 ^ 12 + c * 2 ^ 20))
  let s := s.toHandler { engEvent 3 (0x8000 + f) code 0 0 0 with lisl := BitVec.ofNat 8 lisl, sctx := BitVec.ofNat 1 c }
  let x := s.fry f
  let x := { x with run := x.run.map fun r => { r with failed := true } }
  match o.src with
  | .ctx _ _ =>
    let gone := x.queue.filter (·.src = o.src)
    let s := s.setFry f { x with queue := x.queue.filter (·.src ≠ o.src) }
    let s := gone.foldl (fun s g => s.dropWork g.id) s
    (s.engineFault o.id 3 code).syncFry f
  | .pilot => ((((s.setFry f x).report .ferryFail f code 0).drainFail o.id).engineFault o.id 3 code).syncFry f

/-! ### Submission (R211) -/

/-- Whether a Ferry's queue takes no more. -/
def State.ferryFull (s : State) (f : Nat) : Bool := decide (64 ≤ (s.fry f).queue.length)

/-- Queues the descriptor at a physical address for the Pilot: its work number. -/
def State.ferryQueue (s : State) (f a : Nat) (drain : Bool) : Nat × State :=
  let (id, s) := s.addWork 3 .pilot 0
  let x := s.fry f
  (id, (s.setFry f { x with queue := x.queue ++ [⟨id, .pilot, 0, a, drain⟩] }).syncFry f)

/-- A write of FRY_SUBMIT_CTL with GO 1: the descriptor is queued, or rejected when the queue is full. -/
def State.ferrySubmit (s : State) (f : Nat) : State :=
  let q := f / 4
  let k := f % 4
  if s.ferryFull f then s.setFld (Reg.FRY_ERR q k) Fd.FRY_ERR_SUBREJ 1
  else (s.ferryQueue f (s.addr48 (Reg.FRY_SUBMIT_LO q k) (Reg.FRY_SUBMIT_HI q k) / 64 * 64) false).2

/-- The firmware submits the descriptor at `a` (R211): its work number. -/
def State.ferryPilot (s : State) (f a : Nat) (drain : Bool) : Nat × State :=
  ((s.setReg (Reg.FRY_SUBMIT_LO (f / 4) (f % 4)) (BitVec.ofNat 32 a)).setReg (Reg.FRY_SUBMIT_HI (f / 4) (f % 4))
    (BitVec.ofNat 32 (a / 2 ^ 32))).ferryQueue f a drain

/-- FRY_SUBMIT (R211): a write of FRY_SUBMIT_CTL. -/
def execFrySubmit (r : Requester) (f : Fin 16) (v : BitVec 32) (s : State) : Out :=
  .next (s.guarded r (Reg.FRY_SUBMIT_CTL (f / 4) (f % 4)) fun s => if v.toNat % 2 = 1 then s.ferrySubmit f else s)

/-! ### Checks before the start (R185, R203 to R207) -/

/-- Whether a MOVE is an in-place transpose (R207): the two Charts as they lie in memory, and the descriptor. -/
def fInPlace (d a b : Nat) : Bool :=
  let c := parseChart a
  a == b && !fmtIsMx c.fmt && !c.sparse && fPerm d 0 == 1 && fPerm d 1 == 0
    && (List.range 6).all (fun i => decide (i < 2) || fPerm d i == i) && fSorg d == fDorg d && fExt d 0 == fExt d 1

/-- Whether the formats of a MOVE, COMPRESS or EXPAND are not allowed (R203, R204). -/
def fFmtBad (d : Nat) (a b : Chart) : Bool :=
  match fOp d with
  | 0 =>
    let n := fExt d (fPerm d 0)
    a.sparse || b.sparse || ((a.fmt == 8) != (b.fmt == 8))
      || (fmtIsMx b.fmt && (orgAt (fDorg d) 0 % 32 != 0 || (n % 32 != 0 && decide (orgAt (fDorg d) 0 + n < (b.sz 0 : Int)))))
  | 1 => a.sparse || !b.sparse || a.fmt != b.fmt
  | _ => !a.sparse || b.sparse || a.fmt != b.fmt

/-- Whether a tile origin is misaligned (R204). -/
def fShapeBad (d : Nat) : Bool :=
  [sFld d 32 31 0, sFld d 36 31 0, sFld d 48 31 0, sFld d 52 31 0].any (· % 32 != 0)

/-- Mixed-radix digits of a number for the radices given, least significant first. -/
def digitsOf (rs : List Nat) (n : Nat) : List Nat := (digits (rs.map (max 1)) n).1

/-- The source index vector whose destination indices are given: field i of PERM names the source dimension of the i-th. -/
def srcIdx (d : Nat) (dst : List Nat) : List Nat :=
  (List.range 6).map fun k => ((List.range 6).find? fun i => fPerm d i == k).elim 0 fun i => dst.getD i 0

/-- Extent of destination dimension `i`. -/
def dstExt (d i : Nat) : Nat := fExt d (fPerm d i)

/-- Rows of a MOVE: destination index vectors with dimension 0 left out. -/
def moveRows (d : Nat) : Nat := ((List.range 5).map fun i => dstExt d (i + 1)).prod

/-- The destination index vectors of row `r`. -/
def moveRow (d r : Nat) : List (List Nat) :=
  let hi := digitsOf ((List.range 5).map fun i => dstExt d (i + 1)) r
  (List.range (dstExt d 0)).map fun x => x :: hi

/-- Tiles of a COMPRESS or EXPAND along each dimension: dims 0 and 1 in whole tiles. -/
def tileExt (d i : Nat) : Nat := if i < 2 then (fExt d i + 31) / 32 else fExt d i

/-- Number of tiles. -/
def tileCount (d : Nat) : Nat := ((List.range 6).map (tileExt d)).prod

/-- The first element's index vector of tile `t`. -/
def tileIdx (d t : Nat) : List Nat :=
  let g := digitsOf ((List.range 6).map (tileExt d)) t
  (List.range 6).map fun i => g.getD i 0 * (if i < 2 then 32 else 1)

/-- The 1,024 index vectors of tile `t`, in the order of the tile's bits. -/
def tileElems (d t : Nat) : List (List Nat) :=
  let o := tileIdx d t
  (List.range 1024).map fun b => [o.getD 0 0 + b % 32, o.getD 1 0 + b / 32, o.getD 2 0, o.getD 3 0, o.getD 4 0, o.getD 5 0]

/-- The regions of a descriptor: source and destination (R206). -/
def ferryRegions (d : Nat) (a b : Chart) : List Extent × List Extent :=
  match fOp d with
  | 0 =>
    let rows := (List.range (moveRows d)).flatMap (moveRow d)
    (a.region (rows.map fun x => sumCoord (fSorg d) (srcIdx d x)), b.region (rows.map (sumCoord (fDorg d))))
  | _ =>
    let el := (List.range (tileCount d)).flatMap (tileElems d)
    (a.region (el.map (sumCoord (fSorg d))), b.region (el.map (sumCoord (fDorg d))))

/-- Whether a BYTES descriptor overlaps itself. -/
def bytesOverlap (d : Nat) : Bool :=
  !fRemote d && decide (fSva d < fDaddr d + fLen d) && decide (fDaddr d < fSva d + fLen d)

/-- All checks before the start: the fault code, or the two Charts. -/
def State.ferryCheck (s : State) (f : Nat) (o : FryOp) (d : Nat) : Except Nat (Nat × Nat) × State :=
  if fRsv d then (.error 0x001, s)
  else if fOp d = 3 then
    if fSva d % 64 ≠ 0 ∨ fDaddr d % 64 ≠ 0 ∨ fLen d % 64 ≠ 0 then (.error 0x00A, s)
    else if fRemote d ∧ o.src ≠ .pilot then (.error 0x009, s)
    else if bytesOverlap d then (.error 0x005, s)
    else (.ok (0, 0), s)
  else if (if fOp d = 0 then !fPermOk d else !fPermId d) then (.error 0x004, s)
  else
    let (a, s) := s.ferryChart f o d (fSrc d)
    let (b, s) := s.ferryChart f o d (fDst d)
    let ca := parseChart a
    let cb := parseChart b
    let ctx := ferryCtx s o d
    if ca.check ctx ≠ .ok ∨ cb.check ctx ≠ .ok then (.error 0x002, s)
    else if fFmtBad d ca cb then (.error 0x003, s)
    else if fOp d ≠ 0 ∧ fShapeBad d then (.error 0x00B, s)
    else
      let (x, y) := ferryRegions d ca cb
      if !(fOp d = 0 ∧ fInPlace d a b) ∧ x.any (fun e => y.any e.meets) then (.error 0x005, s)
      else (.ok (a, b), s)

/-! ### Start (R208) -/

/-- Takes the oldest descriptor off the queue and makes it the running one. -/
def State.ferryTake (s : State) (f : Nat) (o : FryOp) (rest : List FryOp) (d : Nat) : State :=
  let s := s.setFry f { queue := rest, run := some ⟨o, d, [], 0, 0, false⟩ }
  ((s.setFld (Reg.FRY_STATUS (f / 4) (f % 4)) Fd.FRY_STATUS_BUSY 1).setFld (Reg.FRY_STATUS (f / 4) (f % 4))
    Fd.FRY_STATUS_OP (fOp d)).syncFry f

/-- How many steps a descriptor takes: rows, tile pairs, tiles or lines. -/
def ferrySteps (d : Nat) (inplace : Bool) : Nat :=
  match fOp d with
  | 0 =>
    if inplace then
      let n := (fExt d 0 + 31) / 32
      n * n * ((List.range 4).map fun i => fExt d (i + 2)).prod
    else moveRows d
  | 3 => fLen d / 64
  | _ => tileCount d

/-- Starts the descriptor `d`, if it is of this OP; a reserved OP faults under any row. -/
def State.ferryBegin (s : State) (f op : Nat) (o : FryOp) (rest : List FryOp) (d : Nat) : State :=
  if fOp d ≠ op ∧ fOp d ≤ 3 then s
  else
    let t := s.ferryTake f o rest d
    match t.ferryCheck f o d with
    | (.error code, t) => t.ferryFault f o code
    | (.ok (a, b), t) =>
      let t := t.setFry f { t.fry f with run := some ⟨o, d, [a, b], 0, 0, false⟩ }
      if ferrySteps d (fInPlace d a b && fOp d == 0) = 0 then t.workDone o.id else t

/-- Reads the oldest queued descriptor: at a device virtual address, or at a physical address for the Pilot. -/
def State.ferryStart (s : State) (f op : Nat) : State :=
  match (s.fry f).queue with
  | [] => s
  | o :: rest =>
    let A := ferryAcc s f o 0
    let (r, s) : AcRes (List Byte) × State := match o.src with
      | .ctx _ _ => s.fetchVa A o.addr 64
      | .pilot =>
        let s := s.touch A [⟨.mem o.addr.toNat, 64⟩]
        (.ok (s.peek A [⟨.mem o.addr.toNat, 64⟩]), s)
    match r with
    | .ok bs => s.ferryBegin f op o rest (leNat bs)
    | .fail x => (s.ferryTake f o rest 0).ferryFault f o (ferryCode x)
    | .wait => s

/-! ### Running -/

/-- A Chart of the running descriptor. -/
def FryRun.chart (r : FryRun) (i : Nat) : Chart := parseChart (r.charts.getD i 0)

/-- Ends a step: `w` are the bytes it has put, `code` the failure that stopped it. After the last step the engine has
finished. -/
def State.ferryStep (s : State) (f : Nat) (r : FryRun) (A : Acc) (w : WBytes) (total : Nat) (code : Option Nat) : State :=
  let s := (s.commit A w)
  let s := { s with remLines := s.remLines.filter (·.work ≠ r.op.id) }
  let n := (w.filter fun b => !(b.1 == 0 && b.2.1 == voidAddr)).length
  let s := s.setFry f { s.fry f with run := some { r with pos := r.pos + 1, bytes := r.bytes + n } }
  match code with
  | some c => s.ferryFault f r.op c
  | none => if r.pos + 1 ≥ total then s.workDone r.op.id else s

/-- Counts dropped writes. -/
def State.ferryOob (s : State) (f n : Nat) : State :=
  if n = 0 then s else s.count (Reg.FRY_CNT_OOBW (f / 4) (f % 4)) n

/-- Writes of a Ferry: the failure, the bytes put, the state. -/
abbrev FryW := Option Nat × WBytes × State

/-- Writes elements to a Chart that is not MX, in order, up to the first that fails. -/
def State.ferryElems (s : State) (A : Acc) (f : Nat) (c : Chart) : List (List Int × Nat) → FryW
  | [] => (none, [], s)
  | (x, pat) :: r =>
    match s.putElem A c x pat with
    | (.fail e, w, s) => (some (ferryCode e), w, s)
    | (k, w, s) =>
      let s := if k = .oob then s.ferryOob f 1 else s
      let (code, w', s) := s.ferryElems A f c r
      (code, w ++ w', s)

/-- The rounding of a destination element. -/
def ferryRound (s : State) (d : Nat) (c : Chart) (x : List Int) : RMode :=
  if fStoch d && c.inBounds x then .stoch (c.randOf s.seed s.tideNum x) else .rne

/-- The pattern that an element of a source in format `f0` gets: between equal formats a copy, in which an FP32 NaN becomes the
canonical one (R203, R257), and else the converted value, which reaches FP32 as R61 widens it. -/
def ferryPat (s : State) (d f0 : Nat) (c : Chart) (x : List Int) (e : Elem) : Nat :=
  if f0 = c.fmt then (if f0 = 0 then toF32 e.val else e.pat)
  else narrow c.fmt (fSat d) (ferryRound s d c x) (if c.fmt = 0 then widen32 e.val else e.val)

/-- Writes a row as MX blocks (R51, R203) of FP32 values (R61): elements out of bounds are dropped, counted and replaced by +0 in
their block. -/
def State.ferryBlocks (s : State) (A : Acc) (f d : Nat) (c : Chart) : List (List (List Int × FVal)) → FryW
  | [] => (none, [], s)
  | blk :: r =>
    let vs := (List.range 32).map fun i =>
      match blk[i]? with
      | some (x, v) => if c.inBounds x then widen32 v else .fin false 0 0
      | none => .fin false 0 0
    let oob := (blk.filter fun xv => !c.inBounds xv.1).length
    let rm (i : Nat) : RMode := match blk[i]? with
      | some (x, _) => ferryRound s d c x
      | none => .rne
    let (sc, es, _) := mxConvert c.fmt rm vs
    match (s.ferryOob f oob).putBlock A c ((blk.headD ([], .nan)).1) sc es with
    | (.fail e, w, s) => (some (ferryCode e), w, s)
    | (_, w, s) =>
      let (code, w', s) := s.ferryBlocks A f d c r
      (code, w ++ w', s)

/-- Elements that a step reads: the values before the first that fails, and that failure; nothing while lines of another module
are on their way. -/
def State.ferryRead (s : State) (A : Acc) (c : Chart) (xs : List (List Int)) : Option (List Elem × Option XFail) × State :=
  let (ps, fail, s) := s.planPrefix A c xs
  match s.askPieces A (plansPieces ps) with
  | (false, s) => (none, s)
  | (true, s) =>
    let s := s.touch A (plansPieces ps)
    (some (ps.map (fun p => (s.planVal A c [] p).e), fail), s)

/-- One row of a MOVE (R202, R203). -/
def State.moveStep (s : State) (f : Nat) (r : FryRun) : State :=
  let d := r.desc
  let A := ferryAcc s f r.op d
  let a := r.chart 0
  let b := r.chart 1
  let row := moveRow d r.pos
  match s.ferryRead A a (row.map fun x => sumCoord (fSorg d) (srcIdx d x)) with
  | (none, s) => s
  | (some (es, fail), s) =>
    let xs := row.map (sumCoord (fDorg d))
    let (code, w, s) : FryW :=
      if fmtIsMx b.fmt then
        let blks := chunksOf 32 ((row.length + 31) / 32) (xs.zip (es.map (·.val)))
        let blks := if fail.isSome then blks.take (es.length / 32) else blks
        s.ferryBlocks A f d b blks
      else s.ferryElems A f b ((xs.zip es).map fun xe => (xe.1, ferryPat s d a.fmt b xe.1 xe.2))
    let s := match code, fail with
      | none, some x => s.recordX A false x
      | _, _ => s
    s.ferryStep f r A w (ferrySteps d false) (code.or (fail.map ferryCode))

/-- One pair of tiles of an in-place transpose (R207): tiles (i, j) and (j, i) are read and each is written, transposed, in the
other's place. A pair is handled once, at i ≤ j. -/
def State.transposeStep (s : State) (f : Nat) (r : FryRun) : State :=
  let d := r.desc
  let A := ferryAcc s f r.op d
  let c := r.chart 0
  let n := (fExt d 0 + 31) / 32
  let total := ferrySteps d true
  let g := digitsOf [n, n, fExt d 2, fExt d 3, fExt d 4, fExt d 5] r.pos
  let i := g.getD 0 0
  let j := g.getD 1 0
  if j < i then s.ferryStep f r A [] total none
  else
    let elems (i j : Nat) : List (List Nat) :=
      ((List.range 1024).map fun b => [32 * i + b % 32, 32 * j + b / 32, g.getD 2 0, g.getD 3 0, g.getD 4 0, g.getD 5 0]).filter
        fun x => decide (x.getD 0 0 < fExt d 0) && decide (x.getD 1 0 < fExt d 1)
    let es := if i = j then elems i j else elems i j ++ elems j i
    match s.ferryRead A c (es.map (sumCoord (fSorg d))) with
    | (none, s) => s
    | (some (_, some x), s) => (s.recordX A false x).ferryStep f r A [] total (some (ferryCode x))
    | (some (vs, none), s) =>
      let swap (x : List Nat) : List Nat := (x.getD 1 0) :: (x.getD 0 0) :: x.drop 2
      let (code, w, s) := s.ferryElems A f c ((es.zip vs).map fun xv => (sumCoord (fDorg d) (swap xv.1), ferryPat s d c.fmt c [] xv.2))
      s.ferryStep f r A w total code

/-- The packed or DENSE form of a tile of 1,024 patterns (R204, R232 to R234, R242): its bytes, and whether it is DENSE. -/
def tileBytes (fmt thresh : Nat) (vals : List Nat) : List Byte × Bool :=
  let e := fmtBytes fmt
  let isZero (v : Nat) : Bool := if fmt = 7 then v == 0 else v % 2 ^ (fmtBits fmt - 1) == 0
  let nz := (List.range 1024).filter fun b => !isZero (vals.getD b 0)
  let n := nz.length
  let most := (List.range 256).foldl (fun m g => max m ((nz.filter fun b => b / 4 == g).length)) 0
  let dense := decide (n > 1024 - 128 / e)
  let struct := if dense then 0 else if most ≤ 1 then 2 else if most ≤ 2 then 1 else 0
  let hint := if !dense && fmt != 7 && decide (n ≤ min thresh 1024) then 1 else 0
  let hdr := leBytes 16 (fmt + (if dense then 2 ^ 4 else 0) + struct * 2 ^ 5 + hint * 2 ^ 7 + n * 2 ^ 16)
  if dense then (hdr ++ vals.flatMap (leBytes e), true)
  else
    let bits := nz.foldl (fun m b => m + 2 ^ b) 0
    (hdr ++ leBytes 128 bits ++ nz.flatMap (fun b => leBytes e (vals.getD b 0)), false)

/-- The threshold in force for a descriptor: that of the issuing Island, or of logical Island LISL's Island for the Pilot. -/
def State.ferryThresh (s : State) (o : FryOp) (d : Nat) : Nat :=
  match o.src with
  | .ctx p _ => s.fld (Reg.SHL_CFG p) Fd.SHL_CFG_THRESH
  | .pilot => match s.physOf (fLisl d) with
    | some p => s.fld (Reg.SHL_CFG p) Fd.SHL_CFG_THRESH
    | none => s.fld (Reg.SHL_CFG 0) Fd.SHL_CFG_THRESH

/-- One tile of a COMPRESS (R204). A tile whose slot is out of bounds is dropped, and its elements count. -/
def State.compressStep (s : State) (f : Nat) (r : FryRun) : State :=
  let d := r.desc
  let A := ferryAcc s f r.op d
  let a := r.chart 0
  let b := r.chart 1
  let total := tileCount d
  let el := tileElems d r.pos
  match s.ferryRead A a (el.map (sumCoord (fSorg d))) with
  | (none, s) => s
  | (some (_, some x), s) => (s.recordX A false x).ferryStep f r A [] total (some (ferryCode x))
  | (some (vs, none), s) =>
    let x := sumCoord (fDorg d) (tileIdx d r.pos)
    if !b.inBounds x then (s.ferryOob f 1024).ferryStep f r A [] total none
    else
      let (bs, dense) := tileBytes b.fmt (s.ferryThresh r.op d) (vs.map (·.pat))
      match s.chartPieces A b (b.slotOff x) ((b.base : Int) + b.slotOff x) bs.length true with
      | (.error e, s) => (s.recordX A true e).ferryStep f r A [] total (some (ferryCode e))
      | (.ok ps, s) =>
        let (w, s) := s.putPieces A ps bs
        let s := if dense then s.count (Reg.FRY_CNT_DENSE (f / 4) (f % 4)) 1 else s
        s.ferryStep f r A w total none

/-- One tile of an EXPAND (R204): a tile whose slot is out of bounds reads FILL. -/
def State.expandStep (s : State) (f : Nat) (r : FryRun) : State :=
  let d := r.desc
  let A := ferryAcc s f r.op d
  let a := r.chart 0
  let b := r.chart 1
  let total := tileCount d
  let x := sumCoord (fSorg d) (tileIdx d r.pos)
  let dst := (tileElems d r.pos).map (sumCoord (fDorg d))
  let put (s : State) (vs : List Nat) : State :=
    let (code, w, s) := s.ferryElems A f b (dst.zip vs)
    s.ferryStep f r A w total code
  if !a.inBounds x then put s (List.replicate 1024 a.fillElem.pat)
  else match s.readSlots A a false (fun _ => false) [a.slotOff x] with
    | (.wait, s) => s
    | (.fail e, s) => s.ferryStep f r A [] total (some (ferryCode e))
    | (.ok sl, s) =>
      let vals := match sl with
        | [⟨_, _, some t⟩] => t.vals
        | _ => List.replicate 1024 0
      let src := (tileElems d r.pos).map (sumCoord (fSorg d))
      put s ((src.zip vals).map fun xv => if a.inBounds xv.1 then xv.2 else a.fillElem.pat)

/-- A source line of a BYTES: through the descriptor's context, or for a checkpoint drain at the physical address itself (log entry
124). -/
def State.bytesRead (s : State) (A : Acc) (o : FryOp) (a : Nat) : AcRes (List Byte) × State :=
  if o.drain then
    let (bs, bad, s) := s.readMem a 64 A.req A.lisl
    (.ok bs, if bad then s.workPlaus o.id else s)
  else s.fetchVa A a 64

/-- One line of a BYTES (R205). -/
def State.bytesStep (s : State) (f : Nat) (r : FryRun) : State :=
  let d := r.desc
  let A := ferryAcc s f r.op d
  let off := 64 * r.pos
  let total := ferrySteps d false
  match s.bytesRead A r.op (fSva d + off) with
  | (.wait, s) => s
  | (.fail e, s) => s.ferryStep f r A [] total (some (ferryCode e))
  | (.ok bs, s) =>
    let (code, w, s) : FryW :=
      if fRemote d then
        let a := fDaddr d + off
        let l : Loc := if fDmod d = s.selfId A.q then .mem a else .rem (fDmod d) a
        let (w, s) := s.putPieces A [⟨l, 64⟩] bs
        (none, w, s)
      else match s.vaPieces A (fDaddr d + off : Nat) 64 true with
        | (.error e, s) => (some (ferryCode e), [], s.recordX A true e)
        | (.ok ps, s) =>
          let (w, s) := s.putPieces A ps bs
          (none, w, s)
    s.ferryStep f r A w total code

/-- A step of the running descriptor of an OP, or the start of the oldest queued one once every write of the previous one is
visible (R208). -/
def State.ferryRun (s : State) (f op : Nat) (k : State → Nat → FryRun → State) : State :=
  match (s.fry f).run with
  | none => s.ferryStart f op
  | some r =>
    let left : Bool := match s.findWork r.op.id with
      | some w => !w.done
      | none => false
    if fOp r.desc = op ∧ left = true ∧ r.failed = false then k s f r else s

/-- MOVE (R202, R207). -/
def execMove (f : Fin 16) (s : State) : Out :=
  settled (s.ferryRun f 0 fun s f r =>
    if fInPlace r.desc (r.charts.getD 0 0) (r.charts.getD 1 0) then s.transposeStep f r else s.moveStep f r)
/-- COMPRESS (R204). -/
def execCompress (f : Fin 16) (s : State) : Out := settled (s.ferryRun f 1 State.compressStep)
/-- EXPAND (R204). -/
def execExpand (f : Fin 16) (s : State) : Out := settled (s.ferryRun f 2 State.expandStep)
/-- BYTES (R205). -/
def execBytes (f : Fin 16) (s : State) : Out := settled (s.ferryRun f 3 State.bytesStep)

end Sys2Proof.Machine
end

