-- ==== Sys2Proof/Machine/Cht.lean ====
section
/-! DEFINITION. The CHT_ commands: invalidation of cached translations and Charts (R193, R210), and the validation of a T1
descriptor (R194, R195). -/

namespace Sys2Proof.Machine

/-! ### Invalidation -/

/-- A write of CHT_INV (R210): GO, written 1, reads 1 until the invalidation completes; a write of 0 does not stop one. -/
def State.chtInvWrite (s : State) (q : Nat) (v : Word) : State :=
  let a := Reg.CHT_INV q
  let go := s.bit a Fd.CHT_INV_GO || bitsOf v.toNat 6 6 == 1
  (s.swWrite a v).setFld a Fd.CHT_INV_GO (if go then 1 else 0)

/-- CHT_INV: a write of the register with GO 1. -/
def execChtInv (r : Requester) (q : Fin 4) (v : BitVec 32) (s : State) : Out :=
  .next (s.guarded r (Reg.CHT_INV q) fun s => s.chtInvWrite q (v ||| 0x40))

/-- Drops the cached translations of a Quarter that a test selects. -/
def State.dropTlb (s : State) (q : Nat) (f : TlbEnt → Bool) : State :=
  let x := s.qtr q
  s.setQtr q { x with tlb := x.tlb.filter fun t => !f t }

/-- Drops the Chart copies that a Quarter's Islands keep, of the contexts that a test selects. -/
def State.dropCharts (s : State) (q : Nat) (f : Nat → Bool) : State :=
  (List.range 36).foldl (fun s n =>
    let p := 36 * q + n
    let x := s.isl p
    if x.charts.isEmpty then s else s.setIsl p { x with charts := x.charts.filter fun c => !f c.ctx }) s

/-- What an invalidation of a context and scope drops in a Quarter (R210): 0 translations, 1 Charts, 2 both, 3 both of every
context. -/
def State.invalidate (s : State) (q ctx scope : Nat) : State :=
  let s := if scope = 1 then s else s.dropTlb q fun t => scope == 3 || t.ctx == ctx
  if scope = 0 then s else s.dropCharts q fun c => scope == 3 || c == ctx

/-- CHT_INV_DONE (R193, R210): the invalidation takes effect, GO clears and DONE is set. Without one, nothing happens. -/
def execChtInvDone (q : Fin 4) (s : State) : Out :=
  let a := Reg.CHT_INV q
  if !s.bit a Fd.CHT_INV_GO then .next s
  else
    let s := s.invalidate q (s.fld a Fd.CHT_INV_CTX) (s.fld a Fd.CHT_INV_SCOPE)
    .next ((s.setFld a Fd.CHT_INV_GO 0).setFld a Fd.CHT_INV_DONE 1)

/-! ### T1 descriptors (R194) -/

/-- A T1 tensor descriptor. -/
structure T1Desc where
  base : Nat
  size : List Nat
  stride : List Nat
  fmt : Nat
  ndim : Nat
  wr : Bool
  fill : Nat

/-- Reads a 48-byte descriptor (R194). -/
def parseT1 (raw : Nat) : T1Desc :=
  let f (off hi lo : Nat) : Nat := bitsOf raw (8 * off + hi) (8 * off + lo)
  { base := f 0 51 0, size := (List.range 4).map fun d => f (8 + 4 * d) 31 0
    stride := (List.range 4).map fun d => f (24 + 4 * d) 31 0
    fmt := f 40 7 0, ndim := f 41 2 0, wr := f 42 0 0 == 1, fill := f 44 31 0 }

/-- Element bytes and T2 format code of a T1 format (R194, R195). -/
def t1Fmt : Nat → Option (Nat × Nat)
  | 0 => some (4, 0x0)
  | 1 => some (2, 0x1)
  | 2 => some (2, 0x2)
  | 3 => some (1, 0x7)
  | _ => none

/-- Bytes of the extent (R195). -/
def T1Desc.extent (d : T1Desc) (e : Nat) : Nat :=
  e * (1 + (((d.size.zip d.stride).take d.ndim).map fun p => (p.1 - 1) * p.2).sum)

/-- Walks the pages from `va` upward and checks that they follow each other physically from `pa` and carry the permissions
(R195): STATUS 0, 3 or 4. -/
def State.t1Walk (s : State) (q ctx : Nat) (wr : Bool) : Nat → Nat → Nat → State → Nat × State
  | 0, _, _, t => (0, t)
  | n + 1, va, pa, t =>
    let A : Acc := ⟨q, ctx, 0xFF, 5, 9, 0⟩
    let t := (t.count (Reg.CHT_CNT_WALK q) 1).walkTouch A va
    match s.walk q ctx va with
    | .error w => (3, t.recordX A wr ⟨0, va, w⟩)
    | .ok (e, g) =>
      let a := if g then bitsOf e 47 30 * 2 ^ 30 + va % 2 ^ 30 else pteAddr e + va % 2 ^ 21
      if bitsOf e 2 2 = 0 then (4, t.recordX A false ⟨1, va, 5⟩)
      else if wr ∧ bitsOf e 3 3 = 0 then (4, t.recordX A true ⟨1, va, 6⟩)
      else if a ≠ pa then (3, t)
      else s.t1Walk q ctx wr n (va / 2 ^ 21 * 2 ^ 21 + 2 ^ 21) (pa + (2 ^ 21 - va % 2 ^ 21)) t

/-- The physical address of a device virtual address by a walk, 0 when the walk fails. -/
def State.walkAddr (s : State) (q ctx va : Nat) : Nat :=
  match s.walk q ctx va with
  | .ok (e, g) => if g then bitsOf e 47 30 * 2 ^ 30 + va % 2 ^ 30 else pteAddr e + va % 2 ^ 21
  | .error _ => 0

/-- The Chart entry that a valid T1 descriptor becomes (R195). -/
def T1Desc.entry (d : T1Desc) (fmt ctx pa : Nat) : Nat :=
  let dims := List.range d.ndim
  d.base + (dims.map fun i => d.size.getD i 0 * 2 ^ (64 + 32 * i)).sum
    + (dims.map fun i => d.stride.getD i 0 * 2 ^ (256 + 64 * i)).sum
    + (fmt + d.ndim * 16 + 2 ^ 11 + ctx * 2 ^ 12 + (if d.wr then 0 else 2 ^ 16) + 2 ^ 31) * 2 ^ 640
    + d.fill * 2 ^ 672 + pa * 2 ^ 832

/-- Validates the T1 descriptor at a physical address into a Chart slot, with one Quarter's page table (R195): STATUS. The
checks run in the order 5, 1, 2, then the walk. -/
def State.t1Validate (s : State) (q ctx l slot src : Nat) : Nat × State :=
  let (raw, _, s) := s.readMem src 48 9 0xFF
  let d := parseT1 (leNat raw)
  if (s.reg (Reg.CHT_CTX_PT_ROOT q ctx)).toNat % 2 = 0 then (5, s)
  else match t1Fmt d.fmt with
    | none => (1, s)
    | some (e, fmt) =>
      if d.ndim = 0 ∨ d.ndim > 4 ∨ (d.size.take d.ndim).any (· == 0) then (2, s)
      else
        let n := d.extent e
        if d.base + n > 2 ^ 52 ∨ n > 2 ^ 44 then (3, s)
        else
          let pages := (d.base + n - 1) / 2 ^ 21 - d.base / 2 ^ 21 + 1
          let pa := s.walkAddr q ctx d.base
          let (st, s) := s.t1Walk q ctx d.wr pages d.base pa s
          if st ≠ 0 then (st, s)
          else (0, (s.writeMem (s.chartEntry q ctx l slot) (leBytes 128 (d.entry fmt ctx pa)) 9 0xFF).2)

/-- A write of CHT_T1_CTL (R210): GO validates at once; the hardware clears GO and sets DONE. -/
def State.t1CtlWrite (s : State) (q : Nat) (v : Word) : State :=
  let a := Reg.CHT_T1_CTL q
  let s := s.swWriteKeep a [Fd.CHT_T1_CTL_GO] v
  if bitsOf v.toNat 18 18 = 0 then s
  else
    let src := s.addr48 (Reg.CHT_T1_SRC_LO q) (Reg.CHT_T1_SRC_HI q)
    let (st, s) := s.t1Validate q (s.fld a Fd.CHT_T1_CTL_CTX) (s.fld a Fd.CHT_T1_CTL_LISL) (s.fld a Fd.CHT_T1_CTL_SLOT) src
    (s.setFld a Fd.CHT_T1_CTL_STATUS st).setFld a Fd.CHT_T1_CTL_DONE 1

/-- T1_VALIDATION: a write of CHT_T1_CTL with GO 1. -/
def execT1Validation (r : Requester) (q : Fin 4) (v : BitVec 32) (s : State) : Out :=
  .next (s.guarded r (Reg.CHT_T1_CTL q) fun s => s.t1CtlWrite q (v ||| 0x40000))

end Sys2Proof.Machine
end

