-- ==== Sys2Proof/Machine/Org.lean ====
section
/-! DEFINITION. The organisation of the module (chapter 1): bindings (R23 to R25, R518), the spare swap (R26 to R32, R516) and
ISL_TEST_CTL (R466). -/

namespace Sys2Proof.Machine

/-! ### Bindings -/

/-- PHYS of entry `l`. -/
def State.lmapPhys (s : State) (l : Nat) : Nat := s.fld (Reg.ISL_LMAP l) Fd.ISL_LMAP_PHYS

/-- Whether entry `l` is pinned. -/
def State.lmapPin (s : State) (l : Nat) : Bool := s.bit (Reg.ISL_LMAP l) Fd.ISL_LMAP_PIN

/-- Whether a lower-numbered entry names Island `p`. -/
def State.namedBelow (s : State) (l p : Nat) : Bool := (List.range l).any fun j => s.lmapPhys j == p

/-- VALID of an entry by its definition (R32). -/
def State.validNow (s : State) (l : Nat) : Bool :=
  let p := s.lmapPhys l
  decide (p < 144) && quarterOf p == s.home l && !s.namedBelow l p
    && (s.pstate p == 2 || ((s.pstate p == 1 || s.pstate p == 4) && s.logicalOf p == l))

/-- Writes VALID of every entry. -/
def State.syncValid (s : State) : State :=
  (List.range 136).foldl (fun s l => s.setFld (Reg.ISL_LMAP l) Fd.ISL_LMAP_VALID (if s.validNow l then 1 else 0)) s

/-- The entry that binds Island `p` once ISL_PSTATE has followed the bindings (R518): the lowest-numbered entry that names
it, if `p` lies in that entry's home Quarter and is ACTIVE or SPARE. -/
def State.binder (s : State) (p : Nat) : Option Nat :=
  match (List.range 136).find? fun l => s.lmapPhys l == p with
  | some l => if quarterOf p = s.home l ∧ (s.pstate p = 1 ∨ s.pstate p = 2) then some l else none
  | none => none

/-- ISL_PSTATE of one Island follows the bindings (R518). -/
def State.syncIsl (s : State) (p : Nat) : State :=
  match s.binder p with
  | some l => (s.setPstate p 1).setLogical p l
  | none => if s.pstate p = 1 then (s.setPstate p 2).setLogical p 0xFF else s

/-- ISL_PSTATE follows the bindings while no program is loaded (R518). -/
def State.syncBind (s : State) : State := ((List.range 144).foldl State.syncIsl s).syncValid

/-- A write of ISL_LMAP[l] (R32, R518): PHYS is ignored while a program is loaded. -/
def State.lmapWrite (s : State) (l : Nat) (v : Word) : State :=
  let a := Reg.ISL_LMAP l
  if s.loaded then s.swWriteKeep a [Fd.ISL_LMAP_PHYS] v else (s.swWrite a v).syncBind

/-- ISL_LMAP_WRITE. -/
def execIslLmapWrite (r : Requester) (l : Fin 136) (v : BitVec 32) (s : State) : Out :=
  .next (s.guarded r (Reg.ISL_LMAP l) fun s => s.lmapWrite l v)

/-- A write of ISL_POLICY (R22, R32): ignored while a program is loaded, and so is a write of 3. -/
def State.policyWrite (s : State) (v : Word) : State :=
  if s.loaded ∨ v.toNat % 4 = 3 then s else (s.swWrite Reg.ISL_POLICY v).syncValid

/-- ISL_POLICY_WRITE. -/
def execIslPolicyWrite (r : Requester) (v : BitVec 32) (s : State) : Out :=
  .next (s.guarded r Reg.ISL_POLICY fun s => s.policyWrite v)

/-- The healthy physical Islands of a Quarter (R24): ACTIVE or SPARE, ascending. -/
def State.healthy (s : State) (q : Nat) : List Nat :=
  (List.range 36).filterMap fun n => let p := 36 * q + n; if s.pstate p = 1 ∨ s.pstate p = 2 then some p else none

/-- Names the physical Island of an entry. -/
def State.bindTo (s : State) (l p : Nat) : State := s.setFld (Reg.ISL_LMAP l) Fd.ISL_LMAP_PHYS p

/-- Binds an entry that names no Island; ISL_PSTATE follows (R518). Only the Island that it now names can change. -/
def State.bindNew (s : State) (l p : Nat) : State := (s.bindTo l p).syncIsl p

/-- The entries of a Quarter's logical Islands, ascending. -/
def State.quarterEntries (s : State) (q : Nat) : List Nat := (List.range s.perQuarter).map (q * s.perQuarter + ·)

/-- Binds a Quarter as at start-up (R24): the i-th healthy Island to the Quarter's i-th logical Island, a pinned entry keeping
its own; an entry whose default Island is pinned elsewhere takes the lowest Island left (log entry 24). -/
def State.bindQuarter (s : State) (q : Nat) : State :=
  let es := s.quarterEntries q
  let pinned := (es.filter s.lmapPin).map s.lmapPhys
  let hs := s.healthy q
  let s1 := (es.zip hs).foldl (fun s e => if s.lmapPin e.1 || pinned.contains e.2 then s else s.bindNew e.1 e.2) s
  es.foldl (fun s l =>
    if s.lmapPin l || s.lmapPhys l != 0xFF then s
    else match hs.find? fun p => !(es.any fun j => s.lmapPhys j == p) with
      | some p => s.bindNew l p
      | none => s) s1

/-- Reports a shortfall of healthy Islands (R25). -/
def State.reportShort (s : State) : State :=
  (List.range 4).foldl (fun s q =>
    if (s.healthy q).length < s.perQuarter then s.report .islandShortfall q (s.healthy q).length s.perQuarter else s) s

/-- Unbinds every entry that is not pinned; the Islands that no entry names any more become SPARE (R518). -/
def State.unbindAll (s : State) : State :=
  ((List.range 136).foldl (fun s l => if s.lmapPin l then s else s.bindTo l 0xFF) s).syncBind

/-- Binds every Quarter as at start-up. -/
def State.bindStart (s : State) : State :=
  ((List.range 4).foldl State.bindQuarter s.unbindAll).syncBind

/-- Binds the entries that are not valid to spares of their home Quarters (R24). A pinned entry stays as it is even when it is not
valid: R24 binds each entry whose VALID is 0, R9 and R419 never move a pin, and the model follows these (DESIGN CHOICE, log entry
24), so that the load is refused (R32). -/
def State.bindInvalid (s : State) : State :=
  (List.range s.logicalCount).foldl (fun s l =>
    if s.bit (Reg.ISL_LMAP l) Fd.ISL_LMAP_VALID || s.lmapPin l then s
    else match (List.range 36).find? fun n => s.pstate (36 * s.home l + n) == 2 with
      | some n => (s.bindTo l (36 * s.home l + n)).syncBind
      | none => s) s

/-- The Placer binds at a load (R24): a change of the policy code rebinds every entry that is not pinned. -/
def State.placerLoad (s : State) (policy : Nat) : State :=
  if s.loaded then s
  else if policy = 3 ∨ policy = s.fld Reg.ISL_POLICY Fd.ISL_POLICY_POLICY then s.bindInvalid.reportShort
  else (((s.setFld Reg.ISL_POLICY Fd.ISL_POLICY_POLICY policy).bindStart).bindInvalid).reportShort

/-- PLACER_BIND: at start-up under the policy in force, or at a load under the image's policy. -/
def execPlacerBind (atLoad : Bool) (policy : BitVec 2) (s : State) : Out :=
  if s.loaded || !s.up then .next s
  else if atLoad then .next (s.placerLoad policy.toNat)
  else .next s.bindStart.reportShort

/-! ### The swap -/

/-- Fields of ISL_SWAP_CTL. -/
def State.swapFld (s : State) (f : Fld) : Nat := s.fld Reg.ISL_SWAP_CTL f

/-- Whether a GO with the fields in force is rejected (R31, R32). -/
def State.swapBad (s : State) : Bool :=
  let src := s.swapFld Fd.ISL_SWAP_CTL_SRC
  let dst := s.swapFld Fd.ISL_SWAP_CTL_DST
  !s.loaded || decide (src ≥ 144) || decide (dst ≥ 144) || quarterOf src != quarterOf dst || s.pstate src != 1
    || s.pstate dst != 2 || (decide (s.logicalOf src < 136) && s.lmapPin (s.logicalOf src))
    || s.swapFld Fd.ISL_SWAP_CTL_AFTER == 3

/-- Starts the swap that SRC and DST name, or rejects it (R28, R31, R32). -/
def State.swapStart (s : State) : State :=
  if s.swapBad then s.setFld Reg.ISL_SWAP_CTL Fd.ISL_SWAP_CTL_REJ 1
  else
    let src := s.swapFld Fd.ISL_SWAP_CTL_SRC
    let dst := s.swapFld Fd.ISL_SWAP_CTL_DST
    let s := (s.setPstate src 4).setPstate dst 5
    let s := (s.setFld Reg.ISL_SWAP_CTL Fd.ISL_SWAP_CTL_GO 1).setFld Reg.ISL_SWAP_CTL Fd.ISL_SWAP_CTL_COPIED 0
    (s.setReg Reg.ISL_SWAP_CURSOR 0).tracePt 0x020 [src, dst]

/-- Ends the hold of R516: the Islands start the Tide. -/
def State.swapRelease (s : State) : State :=
  if !s.bit Reg.ISL_SWAP_CTL Fd.ISL_SWAP_CTL_HOLD then s
  else
    let s := s.setFld Reg.ISL_SWAP_CTL Fd.ISL_SWAP_CTL_HOLD 0
    if s.tide.held then { s with tide := { s.tide with held := false } }.islsStart else s

/-- A write of ISL_SWAP_CTL (R32): SRC, DST and AFTER are ignored while GO is 1; ABORT abandons a swap; GO starts one, except
in the same write; RELEASE ends a hold. -/
def State.swapCtlWrite (s : State) (v : Word) : State :=
  let a := Reg.ISL_SWAP_CTL
  let busy := s.bit a Fd.ISL_SWAP_CTL_GO
  let go := bitsOf v.toNat 16 16 == 1
  let abort := bitsOf v.toNat 19 19 == 1
  let rel := bitsOf v.toNat 22 22 == 1
  let keep := [Fd.ISL_SWAP_CTL_GO, Fd.ISL_SWAP_CTL_ABORT, Fd.ISL_SWAP_CTL_RELEASE]
    ++ (if busy then [Fd.ISL_SWAP_CTL_SRC, Fd.ISL_SWAP_CTL_DST, Fd.ISL_SWAP_CTL_AFTER] else [])
  let s := s.swWriteKeep a keep v
  let s := if abort then s.abortSwap
    else if go then (if busy then s.setFld a Fd.ISL_SWAP_CTL_REJ 1 else s.swapStart) else s
  if rel then s.swapRelease else s

/-- SWAP_GO: a write of ISL_SWAP_CTL whose GO bit is 1. -/
def execSwapGo (r : Requester) (v : BitVec 32) (s : State) : Out :=
  .next (s.guarded r Reg.ISL_SWAP_CTL fun s => s.swapCtlWrite (v ||| 0x10000))

/-- SWAP_ABORT: a write of ISL_SWAP_CTL whose ABORT bit is 1. -/
def execSwapAbort (r : Requester) (v : BitVec 32) (s : State) : Out :=
  .next (s.guarded r Reg.ISL_SWAP_CTL fun s => s.swapCtlWrite (v ||| 0x80000))

/-- Rejects a swap whose copy met an uncorrectable error (R30). -/
def State.swapReject (s : State) : State :=
  let src := s.swapFld Fd.ISL_SWAP_CTL_SRC
  (s.abortSwap.setFld Reg.ISL_SWAP_CTL Fd.ISL_SWAP_CTL_REJ 1).report .swapRej src 0 0

/-- Copies bytes without the errors that the source's codewords hold. -/
def State.copyLine (s : State) (src dst n : Nat) : State :=
  let d := s.bytes src n
  let s := s.setBytes dst d
  (List.range (n / 32)).foldl (fun s i => s.setCw (dst + 32 * i) .ok) s

/-- SWAP_COPY_LINE (R28, R30): one line of 256 bytes, program memory first; the copy corrects what the code can correct and
stops at an uncorrectable error. The copy reads as the mesh stop (REQ 6), for the source's logical Island. -/
def execSwapCopyLine (s : State) : Out :=
  let a := Reg.ISL_SWAP_CTL
  if !s.bit a Fd.ISL_SWAP_CTL_GO || s.bit a Fd.ISL_SWAP_CTL_COPIED then .next s
  else
    let src := s.swapFld Fd.ISL_SWAP_CTL_SRC
    let dst := s.swapFld Fd.ISL_SWAP_CTL_DST
    let n := s.fld Reg.ISL_SWAP_CURSOR Fd.ISL_SWAP_CURSOR_LINES
    let at' (p : Nat) : Nat := if n < 1024 then progBase p + 256 * n else lagBase p + 256 * (n - 1024)
    let (bad, s) := s.checkCws (at' src) 6 (s.logicalOf src) 8
    if bad then .next s.swapReject
    else
      let s := (s.copyLine (at' src) (at' dst) 256).setFld Reg.ISL_SWAP_CURSOR Fd.ISL_SWAP_CURSOR_LINES (n + 1)
      .next (if n + 1 = 33792 then s.setFld a Fd.ISL_SWAP_CTL_COPIED 1 else s)

/-! ### What the firmware does before it releases a hold (R516) -/

/-- Indices of the entries of `w` bytes that hold a listed byte in a table of `n` entries. -/
def State.listedIn (s : State) (base w n : Nat) : List Nat :=
  (s.mem.filterMap fun c => if base ≤ c.1 ∧ c.1 < base + w * n then some ((c.1 - base) / w) else none).dedup

/-- Moves an address of the source slice to the destination slice. -/
def movedAddr (src dst a : Nat) : Nat := if lagBase src ≤ a ∧ a < lagBase src + 0x800000 then a - lagBase src + lagBase dst else a

/-- Rewrites one L2 entry that maps a page of the source slice. -/
def State.movePte (s : State) (src dst a : Nat) : State :=
  let e := s.memNat a 8
  let f := movedAddr src dst (pteAddr e)
  if e % 2 = 1 ∧ bitsOf e 1 1 = 1 ∧ f ≠ pteAddr e then (s.writeMem a (leBytes 8 (e - pteAddr e + f)) 9 0xFF).2 else s

/-- Rewrites a context's page table (R516). -/
def State.moveTable (s : State) (q ctx src dst : Nat) : State :=
  let root := s.reg (Reg.CHT_CTX_PT_ROOT q ctx)
  if root.toNat % 2 = 0 then s
  else
    let l0 := bitsOf root.toNat 31 16 * 2 ^ 16 + ((s.reg (Reg.CHT_CTX_PT_ROOTHI q ctx)).toNat % 2 ^ 16) * 2 ^ 32
    (s.listedIn l0 8 8192).foldl (fun s i =>
      let e0 := s.memNat (l0 + 8 * i) 8
      if e0 % 2 = 0 then s
      else (s.listedIn (pteAddr e0) 8 512).foldl (fun s j =>
        let e1 := s.memNat (pteAddr e0 + 8 * j) 8
        if e1 % 2 = 0 ∨ bitsOf e1 1 1 = 1 then s
        else (s.listedIn (pteAddr e1) 8 512).foldl (fun s k => s.movePte src dst (pteAddr e1 + 8 * k)) s) s) s

/-- Bytes of the extent of a T1 Chart (R195). -/
def Chart.extent (c : Chart) : Nat :=
  c.eb * (1 + (((List.range c.ndim).map fun d => (c.sz d - 1) * (c.st d).toNat)).sum)

/-- Whether a Chart entry is a valid T1 Chart whose extent touches the Lagoon slice of physical Island `src`. -/
def t1Touches (src raw : Nat) : Bool :=
  let c := parseChart raw
  c.valid && c.t1 && decide (c.pbase < lagBase src + 0x800000) && decide (lagBase src < c.pbase + c.extent)

/-- Validates a T1 Chart again (R195, R196): its entry with the new PBASE, or with VALID 0 where the extent is no longer one
allocation, so that no access through it reaches the old slice (R516; DESIGN CHOICE, log entry 116). -/
def State.t1Again (s : State) (q raw : Nat) : Nat × State :=
  let c := parseChart raw
  let pa := s.walkAddr q c.pctx c.base
  let (st, s) := s.t1Walk q c.pctx (!c.ro) ((c.base + c.extent - 1) / 2 ^ 21 - c.base / 2 ^ 21 + 1) c.base pa s
  (if st = 0 then raw - c.pbase * 2 ^ 832 + pa * 2 ^ 832 else raw - 2 ^ 671, s)

/-- Validates again a context's T1 Charts whose extent lies in the source slice (R196, R516). -/
def State.moveT1 (s : State) (q ctx src : Nat) : State :=
  let base := s.chartEntry q ctx 0 0
  (s.listedIn base 128 8704).foldl (fun s i =>
    let raw := s.memNat (base + 128 * i) 128
    if t1Touches src raw then
      let (new, s) := s.t1Again q raw
      (s.writeMem (base + 128 * i) (leBytes 128 new) 9 0xFF).2
    else s) s

/-- The T1 Charts that a running Ferry works with are validated again as well (R196). -/
def State.moveFry (s : State) (src f : Nat) : State :=
  match (s.fry f).run with
  | none => s
  | some r =>
    let (cs, s) := r.charts.foldl (fun (a : List Nat × State) raw =>
      if t1Touches src raw then let (n, t) := a.2.t1Again (f / 4) raw; (a.1 ++ [n], t) else (a.1 ++ [raw], a.2)) ([], s)
    s.setFry f { s.fry f with run := some { r with charts := cs } }

/-- Drops what a Quarter's CHT_INV with SCOPE 3 drops. -/
def State.invAll (s : State) (q : Nat) : State :=
  let s := s.setQtr q { s.qtr q with tlb := [] }
  (List.range 36).foldl (fun s n => let x := s.isl (36 * q + n); s.setIsl (36 * q + n) { x with charts := [] }) s

/-- What the firmware does at an applied swap before RELEASE (R516): page tables, T1 Charts, invalidation in all four
Quarters, and its own record of allocations. -/
def State.retarget (s : State) (src dst : Nat) : State :=
  let s := (List.range 4).foldl (fun s q => (List.range 16).foldl (fun s c => s.moveTable q c src dst) s) s
  let s := (List.range 4).foldl (fun s q => (List.range 16).foldl (fun s c => s.moveT1 q c src) s) s
  let s := (List.range 16).foldl (State.moveFry · src) s
  let s := (List.range 4).foldl State.invAll s
  { s with fw := { s.fw with allocs := s.fw.allocs.map fun a => { a with pa := movedAddr src dst a.pa } } }

/-- SWAP_RELEASE (R516): the Pilot firmware retargets and then writes RELEASE; another requester only writes it. Outside a hold
nothing happens. -/
def execSwapRelease (r : Requester) (s : State) : Out :=
  settled (s.guarded r Reg.ISL_SWAP_CTL fun s =>
    if !s.bit Reg.ISL_SWAP_CTL Fd.ISL_SWAP_CTL_HOLD then s
    else
      let s := match r with
        | .pilot _ => s.retarget s.tide.swapped.1 s.tide.swapped.2
        | _ => s
      s.swapCtlWrite ((s.reg Reg.ISL_SWAP_CTL &&& 0x30FFFF) ||| 0x400000))

/-! ### ISL_TEST_CTL (R466) -/

/-- A RETIRED Island stays clock-gated for good (R41): what its contexts and engines still held never goes on. -/
def State.gateIsl (s : State) (p : Nat) : State :=
  s.setIsl p { s.isl p with c0 := {}, c1 := {}, mmq := [], arr := [], inflight := [], ebbq := [], ebb := none, ebbw := [],
                            shlq := [], shl := none }

/-- Applies a command of ISL_TEST_CTL: 1 TEST, 2 RELEASE, 3 RETIRE; a rejected one sets REJ. -/
def State.testCmd (s : State) (sel cmd : Nat) : State :=
  let st := s.pstate sel
  let swapping := s.bit Reg.ISL_SWAP_CTL Fd.ISL_SWAP_CTL_GO
    && (s.swapFld Fd.ISL_SWAP_CTL_SRC == sel || s.swapFld Fd.ISL_SWAP_CTL_DST == sel)
  let new? : Option Nat :=
    match cmd with
    | 1 => if st = 2 then some 3 else none
    | 2 => if st = 3 then some 2 else none
    | _ => if st = 2 ∨ st = 3 then some 6 else none
  if cmd = 0 then s
  else match if sel < 144 ∧ !swapping then new? else none with
    | some n => ((if n = 6 ∧ st = 3 then s.gateIsl sel else s).setPstate sel n).syncValid
    | none => s.setFld Reg.ISL_TEST_CTL Fd.ISL_TEST_CTL_REJ 1

/-- A write of ISL_TEST_CTL (R466). -/
def State.testCtlWrite (s : State) (v : Word) : State :=
  let a := Reg.ISL_TEST_CTL
  let s := s.swWriteKeep a [Fd.ISL_TEST_CTL_GO] v
  if bitsOf v.toNat 10 10 = 1 then s.testCmd (s.fld a Fd.ISL_TEST_CTL_SEL) (s.fld a Fd.ISL_TEST_CTL_CMD) else s

/-- The word that gives ISL_TEST_CTL a command. -/
def testWord (p cmd : Nat) : Word := BitVec.ofNat 32 (p % 256 + cmd * 2 ^ 8 + 2 ^ 10)

/-- TEST: SPARE to TESTING. -/
def execTest (r : Requester) (p : Fin 144) (s : State) : Out :=
  .next (s.guarded r Reg.ISL_TEST_CTL fun s => s.testCtlWrite (testWord p 1))

/-- RETIRE: SPARE or TESTING to RETIRED. -/
def execRetire (r : Requester) (p : Fin 144) (s : State) : Out :=
  .next (s.guarded r Reg.ISL_TEST_CTL fun s => s.testCtlWrite (testWord p 3))

/-! ### Islands due for retirement (R450, R451) -/

/-- Whether an Island is retired or due for retirement. -/
def State.retBit (s : State) (p : Nat) : Bool := s.fw.hist.ret / 2 ^ p % 2 == 1

/-- Sets an Island's RET bit. -/
def State.setRet (s : State) (p : Nat) : State :=
  if s.retBit p then s else s.setHist { s.fw.hist with ret := s.fw.hist.ret + 2 ^ p, dirty := true }

/-- The lowest free spare of an Island's Quarter: SPARE with its RET bit clear. -/
def State.freeSpare (s : State) (p : Nat) : Option Nat :=
  ((List.range 36).map (36 * quarterOf p + ·)).find? fun d => s.pstate d == 2 && !s.retBit d

/-- Whether an Island's binding is pinned. -/
def State.pinned (s : State) (p : Nat) : Bool := decide (s.logicalOf p < 136) && s.lmapPin (s.logicalOf p)

/-- Whether the Islands of a Quarter that are neither retired, nor due for it, nor untested no longer cover its logical count. -/
def State.fallsShort (s : State) (q : Nat) : Bool :=
  decide ((List.range 36).countP (fun n => let p := 36 * q + n; s.pstate p != 0 && s.pstate p != 6 && !s.retBit p) < s.perQuarter)

/-- Sets REPLACE and reports MODULE_REPLACE to the manager (R451). -/
def State.setReplace (s : State) : State :=
  if s.fw.hist.replace then s
  else ((s.setHist { s.fw.hist with replace := true, dirty := true, urgent := true }).report (.other 0x451) 0 0 0).toManager none 5
    (leBytes 2 (s.selfId 0))

end Sys2Proof.Machine
end

