-- ==== Sys2Proof/Machine/Image.lean ====
section
/-! DEFINITION. Memory of module contexts as the firmware manages it (R191, R408, R411) and the loading of a Tide program
image (R413, R414). The spec names the sections of an image and, for most, not the layout of their data; the model's layouts
are those of log entry 42. -/

namespace Sys2Proof.Machine

/-! ### The firmware's own memory (log entry 35) -/

/-- The firmware's own area of HBM3E: the last GiB of stack 7. -/
def fwArea : Nat := 0x147C0000000
/-- Operands of test cases, below that area: 16 GiB. -/
def caseArea : Nat := 0x143C0000000
/-- Level-0 page table of a context. -/
def ctxL0 (ctx : Nat) : Nat := fwArea + ctx * 0x400000
/-- Chart table of a context. -/
def ctxChart (ctx : Nat) : Nat := fwArea + ctx * 0x400000 + 0x100000
/-- Where slot tables of Quarter `q`, the bucket table and the group table lie when their registers name no place. -/
def fwSlot (q : Nat) : Nat := fwArea + 0x4000000 + q * 0x40000
/-- Place of the bucket table. -/
def fwBkt : Nat := fwArea + 0x4100000
/-- Place of the group table. -/
def fwGrp : Nat := fwArea + 0x4120000
/-- Page `i` of the pages that lower tables take. -/
def ptPage (i : Nat) : Nat := fwArea + 0x4800000 + i * 4096
/-- Pages that lower tables may take. -/
def ptMax : Nat := 240000

/-- Fills a range of HBM3E with zeros and clean codewords. -/
def State.zeroFill (s : State) (a n : Nat) : State :=
  { s with
    mem := s.mem.filter (fun e => decide (e.1 < a) || decide (a + n ≤ e.1))
    cw := s.cw.filter (fun e => decide (e.1 < a) || decide (a + n ≤ e.1)) }

/-- A write of 8 bytes by the firmware. -/
def State.put8 (s : State) (a v : Nat) : State := (s.writeMem a (leBytes 8 v) 9 0xFF).2

/-- Invalidates a context's translations and Charts in every Quarter through CHT_INV (R210). -/
def State.invNow (s : State) (ctx scope : Nat) : State :=
  (List.range 4).foldl (fun s q =>
    let a := Reg.CHT_INV q
    let s := (s.setFld a Fd.CHT_INV_CTX ctx).setFld a Fd.CHT_INV_SCOPE scope
    (s.invalidate q ctx scope).setFld a Fd.CHT_INV_DONE 1) s

/-- Whether a range lies in memory that the firmware reads for a client: the Shore OS region, the Pilot shared SRAM, and what
R192 allows to page frames. -/
def readable (a n : Nat) : Bool :=
  (decide (0x20000000000 ≤ a) && decide (a + n ≤ 0x20C00000000)) || (decide (0x400000 ≤ a) && decide (a + n ≤ 0x800000))
    || frameOk a n

/-! ### Contexts (R408) -/

/-- Opens a context: an empty page table and a Chart table, in all four Quarters (R408). -/
def State.openCtx (s : State) (ctx : Nat) : State :=
  let s := (s.zeroFill (ctxL0 ctx) 0x10000).zeroFill (ctxChart ctx) 0x110000
  let s := (List.range 4).foldl (fun s q =>
    (((s.setReg (Reg.CHT_CTX_PT_ROOT q ctx) (BitVec.ofNat 32 (ctxL0 ctx + 1))).setReg (Reg.CHT_CTX_PT_ROOTHI q ctx)
      (BitVec.ofNat 32 (ctxL0 ctx / 2 ^ 32))).setReg (Reg.CHT_CTX_PT_CT q ctx) (BitVec.ofNat 32 (ctxChart ctx))).setReg
      (Reg.CHT_CTX_PT_CTHI q ctx) (BitVec.ofNat 32 (ctxChart ctx / 2 ^ 32))) s
  s.invNow ctx 2

/-! ### Page tables (R191) -/

/-- The level-0 table of a context as the walks find it. -/
def State.ctxRoot (s : State) (ctx : Nat) : Nat :=
  bitsOf (s.reg (Reg.CHT_CTX_PT_ROOT 0 ctx)).toNat 31 16 * 2 ^ 16 + ((s.reg (Reg.CHT_CTX_PT_ROOTHI 0 ctx)).toNat % 2 ^ 16) * 2 ^ 32

/-- A page for a lower table, all of whose entries are invalid. -/
def State.newTable (s : State) : Nat × State :=
  let a := ptPage s.fw.ptPages
  (a, ({ s with fw := { s.fw with ptPages := s.fw.ptPages + 1 } } : State).zeroFill a 4096)

/-- The table that the entry at `e` points to. An invalid entry gets a new table, and a 1 GiB page becomes 512 pages of 2 MiB. -/
def State.tableOf (s : State) (e : Nat) : Nat × State :=
  let v := s.memNat e 8
  if v % 2 = 1 ∧ bitsOf v 1 1 = 0 then (pteAddr v, s)
  else
    let (t, s) := s.newTable
    let s := if v % 2 = 0 then s
      else (List.range 512).foldl (fun s i => s.put8 (t + 8 * i) (v % 4096 + pteAddr v + i * 2 ^ 21)) s
    (t, s.put8 e (t + 1))

/-- Writes the page entry of a VA, of a 2 MiB page or of a 1 GiB page. -/
def State.putPte (s : State) (ctx va pte : Nat) (giga : Bool) : State :=
  let (t1, s) := s.tableOf (s.ctxRoot ctx + 8 * bitsOf va 51 39)
  let e1 := t1 + 8 * bitsOf va 38 30
  if giga then s.put8 e1 pte
  else
    let (t2, s) := s.tableOf e1
    s.put8 (t2 + 8 * bitsOf va 29 21) pte

/-- Clears the page entry of a 2 MiB page. A page that is not mapped stays so. -/
def State.clearPte (s : State) (ctx va : Nat) : State :=
  let e0 := s.memNat (s.ctxRoot ctx + 8 * bitsOf va 51 39) 8
  if e0 % 2 = 0 then s
  else
    let e1 := pteAddr e0 + 8 * bitsOf va 38 30
    if s.memNat e1 8 % 2 = 0 then s
    else
      let (t2, s) := s.tableOf e1
      s.put8 (t2 + 8 * bitsOf va 29 21) 0

/-- A page entry. -/
def pteOf (pa : Nat) (r w : Bool) : Nat := pa + 3 + (if r then 4 else 0) + (if w then 8 else 0)

/-- Maps a range page by page. -/
def State.mapPages (s : State) (ctx va pa n : Nat) (giga r w : Bool) : State :=
  let sz := if giga then 2 ^ 30 else 2 ^ 21
  (List.range (n / sz)).foldl (fun s i => s.putPte ctx (va + i * sz) (pteOf (pa + i * sz) r w) giga) s

/-- Unmaps a range of whole 2 MiB pages. -/
def State.unmapPages (s : State) (ctx va n : Nat) : State :=
  (List.range (n / 2 ^ 21)).foldl (fun s i => s.clearPte ctx (va + i * 2 ^ 21)) s

/-! ### Registers from bytes -/

/-- Writes the fields of consecutive registers from bytes. -/
def State.setRegs (s : State) (a : Nat) : List Byte → State
  | b0 :: b1 :: b2 :: b3 :: r => (s.swWrite a (BitVec.ofNat 32 (leNat [b0, b1, b2, b3]))).setRegs (a + 4) r
  | _ => s

/-- ARB_RST of every Island follows the profile of TIDE_CFG (R112, R146). -/
def State.syncArb (s : State) : State :=
  let lock := s.fld Reg.TIDE_CFG Fd.TIDE_CFG_PROFILE
  (List.range 144).foldl (fun s p => s.setFld (Reg.ISL_SEQ_CTL p) Fd.ISL_SEQ_CTL_ARB_RST lock) s

/-! ### The image (R413) -/

/-- A section of a Tide program image. -/
structure TpSec where
  kind : Nat
  target : Nat
  off : Nat
  len : Nat
  dest : Nat
deriving DecidableEq, Repr

/-- The sections of the image at `a`. -/
def State.tpSecs (s : State) (a : Nat) : List TpSec :=
  (List.range (s.memNat (a + 24) 4)).map fun i =>
    let e := a + 64 + 32 * i
    ⟨s.memNat e 2, s.memNat (e + 2) 2, s.memNat (e + 8) 8, s.memNat (e + 16) 8, s.memNat (e + 24) 8⟩

/-- Spare policy of an image. -/
def State.tpPolicy (s : State) (a : Nat) : Nat := bitsOf (s.memNat (a + 20) 1) 2 1

/-- Whether the target of a section is in range. -/
def tpTargetOk (g : TpSec) : Bool :=
  match g.kind with
  | 1 => decide (g.target < 136)
  | 4 => decide (g.target < 136)
  | 5 => decide (g.target < 136)
  | 2 => decide (g.target < 16)
  | 3 => decide (g.target < 16)
  | 9 => decide (g.target < 4)
  | 15 => decide (g.target < 4)
  | k => decide (1 ≤ k) && decide (k ≤ 14)

/-- Whether the `n` bytes at `a` are an image (R413). -/
def State.tpOk (s : State) (a n : Nat) : Bool :=
  decide (64 ≤ n) && s.memNat a 4 == 0x4D475054 && s.memNat (a + 4) 2 == 1 && s.tpPolicy a != 3
    && decide (s.memNat (a + 21) 1 < 16) && decide (64 + 32 * s.memNat (a + 24) 4 ≤ n)
    && (s.tpSecs a).all fun g => tpTargetOk g && decide (g.off + g.len ≤ n)

/-- The 8-byte entries of a section. -/
def State.tpWords (s : State) (a : Nat) (g : TpSec) : List Nat :=
  (List.range (g.len / 8)).map fun i => s.memNat (a + g.off + 8 * i) 8

/-- Whether an image names a module context: as a target, in an entry point, or as the context of data. -/
def State.tpNames (s : State) (a ctx : Nat) : Bool :=
  (s.tpSecs a).any fun g =>
    ((g.kind == 2 || g.kind == 3) && g.target == ctx) || (g.kind == 7 && bitsOf g.dest 63 60 == ctx)
      || (g.kind == 13 && (s.tpWords a g).any fun w => bitsOf w 12 9 == ctx)

/-- A Lagoon address of an image names the slice of a logical Island; it is moved to the Island bound to it (R414). -/
def State.relocate (s : State) (a : Nat) : Nat :=
  match region a with
  | .lag l => match s.physOf l with
    | some p => lagBase p + (a - lagBase l)
    | none => a
  | _ => a

/-- Writes a page-table section: pairs of a VA, whose bit 0 says that the page is of 1 GiB, and a page entry. -/
def State.tpPages (s : State) (ctx : Nat) : List Nat → State
  | va :: e :: r => (s.putPte ctx va (e % 16 + s.relocate (pteAddr e)) (va % 2 == 1)).tpPages ctx r
  | _ => s

/-- Moves the physical bases of the T1 Charts in the `n` entries at `a` (R414). -/
def State.tpT1 (s : State) (a n : Nat) : State :=
  (List.range n).foldl (fun s i =>
    let c := parseChart (s.memNat (a + 128 * i) 128)
    if c.valid && c.t1 then (s.writeMem (a + 128 * i + 0x68) (leBytes 6 (s.relocate c.pbase)) 9 0xFF).2 else s) s

/-- The Buoy section: counts of the Buoys that it names. -/
def State.tpBuoys (s : State) (ws : List Nat) : State :=
  ws.foldl (fun s w =>
    let g := w % 2 ^ 32
    if g < 65536 then s.setFld (Reg.BUOY_VAL g) Fd.BUOY_VAL_COUNT (w / 2 ^ 32 % 2 ^ 31) else s) s

/-- Data of kind 7: written to device virtual addresses of a context, page by page through its table. -/
def State.tpData (s : State) (ctx va : Nat) : Nat → List Byte → State
  | 0, _ => s
  | n + 1, bs =>
    if bs.isEmpty then s
    else
      let k := 2 ^ 21 - va % 2 ^ 21
      let pa := s.walkAddr 0 ctx va
      ((if pa = 0 then s else (s.writeMem pa (bs.take k) 9 0xFF).2).tpData ctx (va + k) n (bs.drop k))

/-- An entry point (R413): PC, module context and ENTRY bit of a sequencer context. -/
def State.tpEntry (s : State) (w : Nat) : State :=
  match s.physOf (bitsOf w 7 0) with
  | none => s
  | some p =>
    let c := bitsOf w 8 8
    (((s.setPc p c (bitsOf w 29 16)).setFld (Reg.ISL_SEQ_CTXID p c) Fd.ISL_SEQ_CTXID_CTX (bitsOf w 12 9)).setFld
      (Reg.ISL_SEQ_CTL p) (entryFld c) 1)

/-- Pairs of an address and a value of kind 15: a register, or 8 bytes of the Quarter's HBM3E. -/
def State.tpFuu (s : State) : List Nat → State
  | a :: v :: r => (if (regRow? a).isSome then s.swWrite a (BitVec.ofNat 32 v) else if inHbm a 8 then s.put8 a v else s).tpFuu r
  | _ => s

/-- A table's address from its registers, which are set to a default place when they hold 0. -/
def State.tpTable (s : State) (lo hi dflt : Nat) : Nat × State :=
  let a := s.addr48 lo hi
  if a = 0 then (dflt, (s.setReg lo (BitVec.ofNat 32 dflt)).setReg hi (BitVec.ofNat 32 (dflt / 2 ^ 32))) else (a, s)

/-- Writes one section (R324, R413). -/
def State.tpWrite (s : State) (a : Nat) (g : TpSec) : State :=
  let bs := s.bytes (a + g.off) g.len
  let ws := s.tpWords a g
  let put (t : Nat × State) : State := (t.2.writeMem t.1 bs 9 0xFF).2
  let onIsl (f : Nat → State) : State := match s.physOf g.target with | some p => f p | none => s
  match g.kind with
  | 1 => onIsl fun p => (s.writeMem (progBase p) (bs.take 0x40000) 9 0xFF).2
  | 2 => (put (s.chartEntry 0 g.target 0 0, s)).tpT1 (s.chartEntry 0 g.target 0 0) (g.len / 128)
  | 3 => s.tpPages g.target ws
  | 4 => onIsl fun p => s.setRegs (Reg.EBB_DESC p 0 0) (bs.take 1024)
  | 5 => onIsl fun p => s.setRegs (Reg.ACC_WALK p 0 0) (bs.take 512)
  | 6 => s.tpBuoys ws
  | 7 => s.tpData (bitsOf g.dest 63 60) (bitsOf g.dest 51 0) (g.len / 2 ^ 21 + 2) bs
  | 8 => (List.range 4).foldl (fun s q => s.setRegs (Reg.STR_ROUTE q 0) (bs.take 4100)) s
  | 9 => put (s.tpTable (Reg.TIDE_SLOT_LO g.target) (Reg.TIDE_SLOT_HI g.target) (fwSlot g.target))
  | 10 => put (s.tpTable Reg.TIDE_BKT_LO Reg.TIDE_BKT_HI fwBkt)
  | 11 => put (s.tpTable Reg.TIDE_GRP_LO Reg.TIDE_GRP_HI fwGrp)
  | 12 => (s.setRegs (Reg.TIDE_TYPE 0) (bs.take 64)).setRegs Reg.TIDE_STRETCH ((bs.drop 64).take 4)
  | 13 => ws.foldl State.tpEntry s
  | 14 => (s.setRegs Reg.TIDE_CFG (bs.take 4)).setRegs Reg.TIDE_CHILD ((bs.drop 4).take 4)
  | 15 => s.tpFuu ws
  | _ => s

/-- Clears counts, flags and records of every Buoy (R324). -/
def State.clearBuoys (s : State) : State :=
  { s with regs := s.regs.filter fun e => decide (e.1 < 0x1000000) || decide (0x2000000 ≤ e.1) }

/-- `n` bytes of the policy block (R459). -/
def State.policy (s : State) (off n : Nat) : Nat := s.fw.hist.policy / 256 ^ off % 256 ^ n

/-- The sentinel settings of the policy and a fresh random key for every Island whose contexts do not run (R442, R459, R465). -/
def State.loadSent (s : State) : State :=
  (List.range 144).foldl (fun s p =>
    let (k, s) := s.free
    if !s.islStopped p then s
    else (((s.setReg (Reg.ISL_SENT_KEY_LO p) (k.setWidth 32)).setReg (Reg.ISL_SENT_KEY_HI p) ((k >>> 32).setWidth 32)).setReg
      (Reg.ISL_SENT_CFG p) (BitVec.ofNat 32 (s.policy 9 1 % 2 + s.policy 10 1 % 16 * 2 + s.policy 11 1 % 32 * 2 ^ 8)))) s

/-- The module id of the header (R413). -/
def State.tpId (s : State) (a : Nat) : State :=
  (List.range 4).foldl (fun s q =>
    (s.setFld (Reg.STR_SELF q) Fd.STR_SELF_ID (s.memNat (a + 6) 2 % 1024)).setFld (Reg.STR_SELF q) Fd.STR_SELF_VALID 1) s

/-- Header fields (R413, R324): seed and THRESH. -/
def State.tpHeader (s : State) (a : Nat) : State :=
  let s := s.setReg64 Reg.TIDE_SEED_LO Reg.TIDE_SEED_HI (s.memNat (a + 8) 8)
  (List.range 144).foldl (fun s p =>
    if s.islStopped p then s.setFld (Reg.SHL_CFG p) Fd.SHL_CFG_THRESH (s.memNat (a + 22) 2) else s) s

/-- The generation table of an image (log entry 43): the physical address at byte 32 of its header, 0 for none. It begins with the
generation words of the 16 tag slots (R258), 4 bytes each; a count and that many 8-byte entries follow, each with the slot in bits
[63:60] and the address of a descriptor that the slot's batch uses in bits [47:0]. -/
def State.genTable (s : State) (a : Nat) : Nat := if a = 0 then 0 else s.memNat (a + 32) 8 % 2 ^ 48

/-- The generation word of tag slot `t` of the image at `a`; without a table it is 0. -/
def State.genWord (s : State) (a t : Nat) : Nat :=
  let g := s.genTable a
  if g = 0 then 0 else s.memNat (g + 4 * t) 4 % 2 ^ 16

/-- SHL_GEN of every Island, at a load (R258, R324). -/
def State.tpGens (s : State) (a : Nat) : State :=
  let gs := (List.range 16).map (s.genWord a)
  (List.range 144).foldl (fun s p => gs.zipIdx.foldl (fun s g => s.setFld (Reg.SHL_GEN p g.2) Fd.SHL_GEN_TAG g.1) s) s

/-- Writes a new generation of slot `t` to the generation word and to the GEN field of every descriptor of the slot's batch (R259,
step 3). -/
def State.writeGen (s : State) (a t g : Nat) : State :=
  let tab := s.genTable a
  if tab = 0 then s
  else
    let n := s.memNat (tab + 64) 4
    let ds := ((List.range n).map fun i => s.memNat (tab + 68 + 8 * i) 8).filter fun e => bitsOf e 63 60 == t
    ds.foldl (fun s e => (s.writeMem (bitsOf e 47 0 + 14) (leBytes 2 g) 9 0xFF).2)
      (s.writeMem (tab + 4 * t) (leBytes 4 g) 9 0xFF).2

/-- CHT_CTX_PT of a context that an image's tables name, in all four Quarters (R193, R324): the values of Quarter 0; of a context
that is not open, those of the firmware's own tables. -/
def State.tpCtx (s : State) (ctx : Nat) : State :=
  if (s.reg (Reg.CHT_CTX_PT_ROOT 0 ctx)).toNat % 2 = 0 then s.openCtx ctx
  else (List.range 4).foldl (fun s q =>
    [Reg.CHT_CTX_PT_ROOT, Reg.CHT_CTX_PT_ROOTHI, Reg.CHT_CTX_PT_CT, Reg.CHT_CTX_PT_CTHI].foldl (fun s r =>
      s.setReg (r q ctx) (s.reg (r 0 ctx))) s) s

/-- The contexts whose Chart or page tables an image holds. -/
def State.tpCtxs (s : State) (a : Nat) : List Nat :=
  (((s.tpSecs a).filter fun g => g.kind == 2 || g.kind == 3).map (·.target)).eraseDups

/-- Profile and types, which the header gives (R413). -/
def State.tpProfile (s : State) (a : Nat) : State :=
  ((s.setFld Reg.TIDE_CFG Fd.TIDE_CFG_PROFILE (s.memNat (a + 20) 1 % 2)).setFld Reg.TIDE_CFG Fd.TIDE_CFG_NTYPES
    (s.memNat (a + 21) 1 % 16)).syncArb

/-- Whether this module runs its buddy's share in a replay pass (R381): it keeps the module id and the routes it exchanged. -/
def State.exchanged (s : State) : Bool :=
  match s.fw.replay with
  | some r => decide (4 ≤ r.step) && r.exch
  | none => false

/-- PROG_LOAD of this module (R414): the policy and the bindings, every section, and TIDE_CTL.LOAD. -/
def State.tpLoad (s : State) (a n first : Nat) : State :=
  let keep := s.exchanged
  let s := s.placerLoad (s.tpPolicy a)
  let s := (if keep then s else s.tpId a).tpHeader a
  let s := (s.tpCtxs a).foldl State.tpCtx s
  let s := (s.tpSecs a).foldl (fun s g => if keep && g.kind == 8 then s else s.tpWrite a g) s.clearBuoys
  let s := ((s.tpGens a).tpProfile a).loadSent
  let s := (s.setReg Reg.TIDE_FIRST (BitVec.ofNat 32 first)).invNow 0 3
  ({ s with fw := { s.fw with image := a, imageLen := n } } : State).load

/-- Loads the program again with TIDE_FIRST at a Tide: the image of the last PROG_LOAD, or without one what the registers
hold. -/
def State.loadAt (s : State) (first : Nat) : State :=
  if s.loaded then s
  else if s.fw.image = 0 then (s.setReg Reg.TIDE_FIRST (BitVec.ofNat 32 first)).load
  else s.tpLoad s.fw.image s.fw.imageLen first

end Sys2Proof.Machine
end

