-- ==== Sys2Proof/Machine/Update.lean ====
section
/-! DEFINITION. The fused update units (R366 to R377): the arithmetic of an update, the microprogram, the descriptors' checks,
groups and their repeats, and the sets that firmware runs. -/

namespace Sys2Proof.Machine

/-! ### Registers and descriptors -/

/-- A register of unit `u`, from its address in Quarter 0's first unit. -/
def fuuReg (u : Nat) (r : Nat → Nat → Nat) : Nat := r (u / 2) (u % 2)

/-- BOFF of a unit. -/
def State.boff (s : State) (u : Nat) : Nat := s.addr48 (fuuReg u Reg.FUU_BOFF_LO) (fuuReg u Reg.FUU_BOFF_HI)

/-- The committed buffer of a unit. -/
def State.fuuCur (s : State) (u : Nat) : Nat := s.fld (fuuReg u Reg.FUU_STATE) Fd.FUU_STATE_CUR

/-- A field of a descriptor (R371): byte offset, highest and lowest bit. -/
def fuD (d off hi lo : Nat) : Nat := bitsOf d (8 * off + hi) (8 * off + lo)

/-- WFMT of a descriptor. -/
def fuWfmt (d : Nat) : Nat := fuD d 0 7 4
/-- COUNT of a descriptor. -/
def fuCount (d : Nat) : Nat := fuD d 4 31 0
/-- P, M1, M2 or G (0 to 3) of a descriptor: its address in buffer 0. -/
def fuAddr (d i : Nat) : Nat := fuD d (8 + 8 * i) 47 0
/-- Whether a reserved bit of a descriptor is set. -/
def fuRsv (d : Nat) : Bool :=
  fuD d 0 15 15 != 0 || fuD d 0 31 24 != 0 || (List.range 4).any fun i => fuD d (8 + 8 * i) 63 48 != 0

/-! ### Arithmetic (R372) -/

/-- 1.0 in binary64. -/
def one64 : Nat := 0x3FF0000000000000
/-- An FP32 difference. -/
def f32Sub (a b : Nat) : Nat := toF32 ((f32 a).add (f32 b).neg)
/-- FP32 pattern to binary64 pattern. -/
def f32To64 (a : Nat) : Nat := toF64 (f32 a)

/-- The clip factor (R372): FUU_CLIP / √GNSQ in binary64, rounded once. -/
def clipFactor (on : Bool) (gnsq clip : Nat) : Nat :=
  if on && ((f32 clip).mul (f32 clip)).lt (f64 gnsq) then
    toF32 (f64 (toF64 ((f32 clip).div (f64 (toF64 (f64 gnsq).sqrt)))))
  else one32

/-- A magnitude cut to 256 bits, and whether a bit was lost. -/
def cut256 (m : Nat) (e : Int) (lost : Bool) : Nat × Int × Bool :=
  let k := Nat.log2 m + 1 - 256
  (m / 2 ^ k, e + k, lost || m % 2 ^ k != 0)

/-- (m × 2^e)^t by squaring, cut to 256 bits at each product, and whether a bit was lost. -/
def powMag : Nat → Nat → Int → Bool → Nat → Nat × Int × Bool
  | 0, _, _, _, _ => (1, 0, false)
  | n + 1, m, e, lost, t =>
    let sq := cut256 (m * m) (e + e) lost
    let h := powMag n sq.1 sq.2.1 sq.2.2 (t / 2)
    if t % 2 = 1 then cut256 (m * h.1) (e + h.2.1) (lost || h.2.2) else h

/-- b^t in binary64: the exact power where that is a binary64 value, and else one of its two neighbours, which Config.powF64
picks. -/
def pow64 (b t : Nat) : Nat :=
  match f64 b with
  | .fin neg m e =>
    let neg := neg && t % 2 == 1
    let p := powMag 64 m e false t
    let lo := narrowFloat fp64 false (.stoch 0) (.fin neg p.1 p.2.1)
    let exact := !p.2.2 && !(f64 lo).lt (.fin neg p.1 p.2.1) && !(FVal.fin neg p.1 p.2.1).lt (f64 lo)
    if exact then lo else if Config.powF64 (BitVec.ofNat 64 b) t then lo + 1 else lo
  | .inf neg => toF64 (.inf (neg && t % 2 == 1))
  | .nan => toF64 .nan

/-- RNE32(1 / (1 − b^t)), in binary64 (R372). -/
def biasCorr (b t : Nat) : Nat :=
  let x := pow64 (f32To64 b) t
  let y := toF64 ((f64 one64).add (f64 x).neg)
  toF32 (f64 (toF64 ((f64 one64).div (f64 y))))

/-- What an update uses for every parameter: the descriptor, c, ε, BC1, BC2. -/
structure UpdK where
  d : Nat
  c : Nat
  eps : Nat
  bc1 : Nat
  bc2 : Nat
deriving DecidableEq, Repr

/-- LR. -/
def UpdK.lr (k : UpdK) : Nat := fuD k.d 48 31 0
/-- B1. -/
def UpdK.b1 (k : UpdK) : Nat := fuD k.d 52 31 0
/-- B2. -/
def UpdK.b2 (k : UpdK) : Nat := fuD k.d 56 31 0
/-- WD. -/
def UpdK.wd (k : UpdK) : Nat := fuD k.d 60 31 0

/-- ADAM of one parameter (R372): p′, m′, v′. -/
def adamStep (k : UpdK) (p m v g : Nat) : Nat × Nat × Nat :=
  let dec := fuD k.d 0 10 10 == 1
  let g0 := f32Mul g k.c
  let g1 := if dec then g0 else f32Add g0 (f32Mul k.wd p)
  let m' := f32Add (f32Mul k.b1 m) (f32Mul (f32Sub one32 k.b1) g1)
  let v' := f32Add (f32Mul k.b2 v) (f32Mul (f32Sub one32 k.b2) (f32Mul g1 g1))
  let u := f32Div (f32Mul m' k.bc1) (f32Add (f32Sqrt (f32Mul v' k.bc2)) k.eps)
  let p' := if dec then f32Sub p (f32Mul k.lr (f32Add u (f32Mul k.wd p))) else f32Sub p (f32Mul k.lr u)
  (p', m', v')

/-- MOMENTUM of one parameter (R372). -/
def momentumStep (k : UpdK) (p m v g : Nat) : Nat × Nat × Nat :=
  let g1 := f32Add (f32Mul g k.c) (f32Mul k.wd p)
  let m' := f32Add (f32Mul k.b1 m) g1
  let d := if fuD k.d 0 11 11 = 1 then f32Add g1 (f32Mul k.b1 m') else m'
  (f32Sub p (f32Mul k.lr d), m', v)

/-- SGD of one parameter (R372). -/
def sgdStep (k : UpdK) (p m v g : Nat) : Nat × Nat × Nat :=
  (f32Sub p (f32Mul k.lr (f32Add (f32Mul g k.c) (f32Mul k.wd p))), m, v)

/-! ### The microprogram (R374) -/

/-- A microinstruction by place in a unit's table. -/
def State.ucode (s : State) (u i : Nat) : Nat := (s.reg (Reg.FUU_UCODE (u / 2) (u % 2) i)).toNat

/-- OPC of a microinstruction. -/
def uOpc (w : Nat) : Nat := bitsOf w 3 0
/-- END. -/
def uEnd (w : Nat) : Bool := bitsOf w 23 23 == 1

/-- The source codes that a microinstruction uses. -/
def uSrcs (w : Nat) : List Nat :=
  let o := uOpc w
  if o = 7 then [bitsOf w 12 8, bitsOf w 17 13, bitsOf w 22 18]
  else if o ≤ 3 ∨ o = 5 ∨ o = 6 then [bitsOf w 12 8, bitsOf w 17 13]
  else [bitsOf w 12 8]

/-- The program from UADDR: its microinstructions, or nothing where it breaks R374. -/
def State.uProg (s : State) (u : Nat) : Nat → Nat → Option (List Nat)
  | 0, _ => none
  | n + 1, i =>
    let w := s.ucode u i
    if 256 ≤ i ∨ 12 < uOpc w ∨ (uSrcs w).any (fun x => decide (28 < x)) then none
    else if uEnd w then some [w]
    else match s.uProg u n (i + 1) with
      | some r => some (w :: r)
      | none => none

/-- The smaller of two FP32 values under the rules of R221. -/
def min32 (a b : Nat) : Nat :=
  match f32 a, f32 b with
  | .nan, _ => nan32
  | _, .nan => nan32
  | x, y =>
    if x.isZero && y.isZero then (if a = 0x80000000 ∨ b = 0x80000000 then 0x80000000 else a)
    else if y.lt x then b else a

/-- Registers and outputs of a running program. -/
structure USt where
  r : List Nat
  p : Nat
  m : Nat
  v : Nat
deriving DecidableEq, Repr

/-- An operand. -/
def uOperand (k : UpdK) (p m v g : Nat) (st : USt) (x : Nat) : Nat :=
  if x < 16 then st.r.getD x 0
  else [p, m, v, f32Mul g k.c, k.lr, k.b1, k.b2, k.wd, k.eps, k.bc1, k.bc2, one32, 0].getD (x - 16) 0

/-- A magnitude or a negation: the sign bit of an FP32 pattern changed, and a NaN canonical (R46). -/
def signed32 (neg : Bool) (a : Nat) : Nat := if f32 a = .nan then nan32 else if neg then a % 2 ^ 31 + 2 ^ 31 else a % 2 ^ 31

/-- One microinstruction. -/
def uStep (k : UpdK) (p m v g : Nat) (st : USt) (w : Nat) : USt :=
  let o := uOperand k p m v g st
  let a := o (bitsOf w 12 8)
  let b := o (bitsOf w 17 13)
  let c := o (bitsOf w 22 18)
  let put (n : Nat) : USt := { st with r := st.r.set (bitsOf w 7 4) n }
  match uOpc w with
  | 0 => put (f32Add a b)
  | 1 => put (f32Sub a b)
  | 2 => put (f32Mul a b)
  | 3 => put (f32Div a b)
  | 4 => put (f32Sqrt a)
  | 5 => put (min32 a b)
  | 6 => put (max32 a b)
  | 7 => put (if (f32 0).lt (f32 a) then b else c)
  | 8 => put (signed32 false a)
  | 9 => put (signed32 (decide (a < 2 ^ 31)) a)
  | 10 => { st with p := a }
  | 11 => { st with m := a }
  | _ => { st with v := a }

/-- UCODE of one parameter: an output never written is copied unchanged. The spec gives r0 to r15 no value when the program
begins: they hold the free values from number `c` on (log entry 1). -/
def ucodeStep (prog : List Nat) (k : UpdK) (c p m v g : Nat) : Nat × Nat × Nat :=
  let st := prog.foldl (uStep k p m v g) ⟨(List.range 16).map fun i => (Config.freeWord (c + i)).toNat % 2 ^ 32, p, m, v⟩
  (st.p, st.m, st.v)

/-! ### Checks (R377) -/

/-- Whether `n` bytes at `a` are aligned and lie in a unit's own stack. -/
def fuAddrOk (u a n : Nat) : Bool := a % 64 == 0 && decide (hbmBase u ≤ a) && decide (a + n ≤ hbmBase (u + 1))

/-- Whether a descriptor's addresses are valid: P, M1 and M2 in both buffers and G; KEEP and COMPARE use G and M1 only (R371). -/
def State.fuAddrsOk (s : State) (u d : Nat) : Bool :=
  let n := 4 * fuCount d
  let two (i : Nat) : Bool := fuAddrOk u (fuAddr d i) n && fuAddrOk u (fuAddr d i + s.boff u) n
  match fuuOp d with
  | 5 => fuAddrOk u (fuAddr d 3) n && fuAddrOk u (fuAddr d 1) n
  | 6 => fuAddrOk u (fuAddr d 3) n && fuAddrOk u (fuAddr d 1) n
  | _ => two 0 && two 1 && two 2 && fuAddrOk u (fuAddr d 3) n

/-- Whether an OP writes a working copy. -/
def fuWrites (op : Nat) : Bool := decide (op ≤ 4)

/-- The raw working Chart of a descriptor. -/
def State.fuChart (s : State) (u d : Nat) : Nat :=
  s.memNat (s.chartEntry (u / 2) (fuD d 44 17 14) (fuD d 44 13 6) (fuD d 44 5 0)) 128

/-- Reads a descriptor and, where it writes a working copy, its working Chart: whether a codeword of them was bad (R271, R272). -/
def State.fuTouch (s : State) (u entry : Nat) : Bool × State :=
  let d := s.fuuEntry u entry
  let (b, s) := s.checkCws (s.fuuAddr u entry / 32 * 32) 7 0xFF (cwSpan (s.fuuAddr u entry) 64)
  if !fuWrites (fuuOp d) then (b, s)
  else
    let a := s.chartEntry (u / 2) (fuD d 44 17 14) (fuD d 44 13 6) (fuD d 44 5 0)
    let (b', s) := s.checkCws a 7 (fuD d 44 13 6) 4
    (b || b', s)

/-- The code of the first check of R377 that a descriptor fails before it runs, 0 for none. -/
def State.fuCheck (s : State) (u d : Nat) : Nat :=
  let op := fuuOp d
  if 7 ≤ op ∨ fuRsv d ∨ 9 ≤ fuWfmt d ∨ (fuWrites op && !(fuWfmt d == 1 || fuWfmt d == 3 || fuWfmt d == 4)) then 1
  else if !s.fuAddrsOk u d then 2
  else if op = 3 ∧ (s.uProg u 64 (fuD d 0 23 16)).isNone then 6
  else if !fuWrites op then 0
  else match (parseChart (s.fuChart u d)).check (fuD d 44 17 14) with
    | .ok => 0
    | .chart => 3
    | .prot => 5

/-! ### Groups (R376) -/

/-- Reads `n` words from an address: the words, and whether a codeword was bad. -/
def State.fuRead (s : State) (lisl a n : Nat) : List Nat × Bool × State :=
  let (bs, bad, s) := s.readMem a (4 * n) 7 lisl
  ((List.range n).map fun i => leNat ((bs.drop (4 * i)).take 4), bad, s)

/-- Reads the arrays at `as`, `n` words each. -/
def State.fuReads (s : State) (lisl n : Nat) : List Nat → List (List Nat) × Bool × State
  | [] => ([], false, s)
  | a :: r =>
    let (w, b, s) := s.fuRead lisl a n
    let (ws, b', s) := s.fuReads lisl n r
    (w :: ws, b || b', s)

/-- The table entry at which a unit's oldest run stands. -/
def State.fuuPos (s : State) (u : Nat) : Nat :=
  match (s.fuu u).runs with
  | r :: _ => r.pos
  | [] => 0

/-- Reads a group, and reads it again when a read or a residue check fails: the words, or nothing when the repeat fails as
well. -/
def State.fuGroup (s : State) (u lisl n g : Nat) (retries : List GroupRetry) (as : List Nat) :
    Option (List (List Nat)) × State :=
  let (ws, bad, s) := s.fuReads lisl n as
  let rs := retries.filter (·.group == g)
  if !bad && rs.isEmpty then (some ws, s)
  else
    let s := (s.setFld (fuuReg u Reg.FUU_ERR) Fd.FUU_ERR_REEXEC 1).count (fuuReg u Reg.FUU_CNT_REEXEC) 1
    let s := s.reexec 4 (0x5000 + u) 1 (s.fuuPos u) 0
    let (ws, bad, s) := s.fuReads lisl n as
    if bad || rs.any (·.again) then (none, s) else (some ws, s)

/-- Words as bytes. -/
def wordBytes (ws : List Nat) : List Byte := (ws.map (leBytes 4)).flatten

/-- Writes words to memory. -/
def State.fuWrite (s : State) (lisl a : Nat) (ws : List Nat) : State := (s.writeMem a (wordBytes ws) 7 lisl).2

/-- What a descriptor's groups do: read these arrays, and make of the words of one group the words to write and where, and the
working-copy values. -/
structure GroupJob where
  reads : List Nat
  writes : List Nat
  eval : Nat → List (List Nat) → List (List Nat) × List Nat

/-- The outcome of a descriptor: its groups done, with the working-copy values in order; or a repeat failed. -/
abbrev FuOut := Option (List Nat) × State

/-- Runs the groups from group `g` on. -/
def State.fuGroups (s : State) (u lisl count : Nat) (retries : List GroupRetry) (j : GroupJob) : Nat → Nat → FuOut
  | 0, _ => (some [], s)
  | k + 1, g =>
    let n := min 64 (count - 64 * g)
    match s.fuGroup u lisl n g retries (j.reads.map (· + 256 * g)) with
    | (none, s) => (none, s)
    | (some ws, s) =>
      let (outs, wc) := j.eval g ws
      let s := (j.writes.zip outs).foldl (fun s w => s.fuWrite lisl (w.1 + 256 * g) w.2) s
      match s.fuGroups u lisl count retries j k (g + 1) with
      | (none, s) => (none, s)
      | (some r, s) => (some (wc ++ r), s)

/-! ### Working copies (R372) -/

/-- The coordinate of element `i` (R372), nothing beyond the Chart's last element. -/
def workCoord (c : Chart) (i : Nat) : Option (List Int) :=
  if i < ((List.range 6).map fun d => if d < c.ndim then c.sz d else 1).prod then some (c.coordOf i) else none

/-- The number of the update Tide of a descriptor's working copies (R372): for RELOAD, that of the update which the committed
buffer holds. -/
def State.fuTide (s : State) (u d : Nat) : Nat := if fuuOp d = 4 then (s.fuu u).updTide else s.tideNum

/-- Puts the working copies of the values of a descriptor, of update Tide `n`: the fault, or the bytes. -/
def State.workPut (s : State) (A : Acc) (c : Chart) (d n : Nat) : List (Nat × Nat) → Except XFail WBytes × State
  | [] => (.ok [], s)
  | (v, i) :: r =>
    match workCoord c (fuD d 40 31 0 + i) with
    | none => s.workPut A c d n r
    | some x =>
      let rm := if fuD d 0 8 8 = 1 then RMode.stoch (c.randOf s.seed n x) else .rne
      match s.putElem A c x (narrow (fuWfmt d) (fuD d 0 13 13 == 1) rm (f32 v)) with
      | (.fail f, _, s) => (.error f, s)
      | (_, w, s) =>
        match s.workPut A c d n r with
        | (.ok w', s) => (.ok (w ++ w'), s)
        | (.error f, s) => (.error f, s)

/-- The failure that a working-copy write of the descriptor would meet, tried before anything is written (R377): the trial
writes nothing, and leaves only the records of the failure. -/
def State.workFail (s : State) (A : Acc) (c : Chart) (d : Nat) : Option XFail × State :=
  match s.workPut A c d 0 ((List.range (fuCount d)).map fun i => (0, i)) with
  | (.error f, t) => (some f, { t with mem := s.mem, remLines := s.remLines })
  | (.ok _, _) => (none, s)

/-! ### Running a descriptor -/

/-- Shows BUSY. -/
def State.syncFuu (s : State) (u : Nat) : State :=
  s.setFld (fuuReg u Reg.FUU_STATE) Fd.FUU_STATE_BUSY (if (s.fuu u).runs.isEmpty then 0 else 1)

/-- Ends the run in front. -/
def State.fuuEnd (s : State) (u : Nat) : State :=
  let x := s.fuu u
  (s.setFuu u { x with runs := x.runs.drop 1 }).syncFuu u

/-- A set is complete (R390). -/
def State.fuuSetDone (s : State) (u : Nat) : State :=
  (s.setFld (fuuReg u Reg.FUU_CTL) Fd.FUU_CTL_GO 0).setFld (fuuReg u Reg.FUU_CTL) Fd.FUU_CTL_DONE 1

/-- The unit goes on to the next descriptor of its run, or ends the run. -/
def State.fuuAdvance (s : State) (u : Nat) (r : FuuRun) : State :=
  match s.fuuNext u r.set (r.pos + 1) with
  | some i =>
    let x := s.fuu u
    s.setFuu u { x with runs := { r with pos := i, work := none } :: x.runs.drop 1 }
  | none => let s := s.fuuEnd u; if r.set = 0 then s else s.fuuSetDone u

/-- The unit stops on a fault (R377), or on a repeat that failed (code 0, R376); the firmware raises FAIL. -/
def State.fuuStop (s : State) (u entry code : Nat) : State :=
  let e := fuuReg u Reg.FUU_ERR
  let s := if s.bit e Fd.FUU_ERR_FAULT || s.bit e Fd.FUU_ERR_HARD then s
    else s.setReg (fuuReg u Reg.FUU_ERR_INFO) (BitVec.ofNat 32 (code + entry % 1024 * 2 ^ 8))
  let s := s.setFld e (if code = 0 then Fd.FUU_ERR_HARD else Fd.FUU_ERR_FAULT) 1
  let s := (s.fuuEnd u).report (if code = 0 then .fuuHard else .fuuFault) u entry code
  let s := s.toHandler (engEvent (if code = 0 then 5 else 6) (0x5000 + u) code 0 entry 0)
  if s.loaded then s.failHere 6 else s

/-- The fault code of a failed working-copy access. -/
def fuCode (f : XFail) : Nat := if f.kind = 1 then 5 else 4

/-- The signal of a descriptor (R372): 1 is added to the Buoy. The port on which it arrives and the issuer's record are free
(log entry 28). -/
def State.fuuSignal (s : State) (u d : Nat) : State :=
  if fuD d 0 12 12 = 0 then s
  else
    let (w, s) := s.free
    let n := w.toNat
    let l := fuD d 44 13 6
    let h := s.home l % 4
    s.buoyArrive h {
      port := if h = u / 2 then n % 44 else isthmusPort h (u / 2), bidx := fuD d 44 31 18, tl := l, kind := 1, val := 1,
      mod := s.selfId (u / 2), lisl := n / 64 % 256, sctx := n / 2 ^ 14 % 2, pc := n / 2 ^ 15 % 2 ^ 14, src := none,
      answer := none }

/-- The accessor of a unit's working copies. The spec gives an update unit no ENG code: it is free (log entry 28). -/
def State.fuAcc (s : State) (u d w : Nat) : Acc × State :=
  let (e, s) := s.free
  (⟨u / 2, fuD d 44 17 14, fuD d 44 13 6, e.toNat % 8, 7, w⟩, s)

/-- The address of array `i` (P, M1, M2) in a buffer. -/
def State.fuBuf (s : State) (u d i buf : Nat) : Nat := fuAddr d i + (if buf = 1 then s.boff u else 0)

/-- The groups of an update descriptor. -/
def State.updJob (s : State) (u d : Nat) (inplace : Bool) (prog : List Nat) : GroupJob :=
  let cur := s.fuuCur u
  let nxt := if inplace then cur else 1 - cur
  let t := (s.reg (fuuReg u Reg.FUU_T)).toNat + 1
  let k : UpdK := ⟨d, clipFactor (fuD d 0 9 9 == 1) (s.reg64 Reg.TIDE_GNSQ_LO Reg.TIDE_GNSQ_HI)
    (s.reg (fuuReg u Reg.FUU_CLIP)).toNat, (s.reg (fuuReg u Reg.FUU_EPS)).toNat, biasCorr (fuD d 52 31 0) t,
    biasCorr (fuD d 56 31 0) t⟩
  let c := s.freeCtr
  let f (i : Nat) : Nat → Nat → Nat → Nat → Nat × Nat × Nat := match fuuOp d with
    | 0 => adamStep k
    | 1 => momentumStep k
    | 2 => sgdStep k
    | _ => ucodeStep prog k (c + 16 * i)
  { reads := [s.fuBuf u d 0 cur, s.fuBuf u d 1 cur, s.fuBuf u d 2 cur, fuAddr d 3]
    writes := [s.fuBuf u d 0 nxt, s.fuBuf u d 1 nxt, s.fuBuf u d 2 nxt]
    eval := fun g ws =>
      let a (i j : Nat) : Nat := (ws.getD i []).getD j 0
      let r := (List.range (ws.getD 0 []).length).map fun j => f (64 * g + j) (a 0 j) (a 1 j) (a 2 j) (a 3 j)
      ([r.map (·.1), r.map (·.2.1), r.map (·.2.2)], r.map (·.1)) }

/-- The groups of RELOAD: P in CUR is read. -/
def State.reloadJob (s : State) (u d : Nat) : GroupJob :=
  { reads := [s.fuBuf u d 0 (s.fuuCur u)], writes := [], eval := fun _ ws => ([], ws.getD 0 []) }

/-- The groups of KEEP: G is copied to M1. -/
def keepJob (d : Nat) : GroupJob :=
  { reads := [fuAddr d 3], writes := [fuAddr d 1], eval := fun _ ws => (ws, []) }

/-- An FP32 pattern as an ordered integer (R375): ±0 are equal. -/
def ordInt (a : Nat) : Int := if a < 2 ^ 31 then a else -((a : Int) - 2 ^ 31)

/-- Whether two words differ (R375). -/
def wordsDiffer (tol a b : Nat) : Bool :=
  (f32 a == .nan) != (f32 b == .nan) || decide ((tol : Int) < |ordInt a - ordInt b|)

/-- The groups of COMPARE: 1 for each word that differs. -/
def compareJob (d tol : Nat) : GroupJob :=
  { reads := [fuAddr d 3, fuAddr d 1]
    writes := []
    eval := fun _ ws => ([], ((ws.getD 0 []).zip (ws.getD 1 [])).map fun p => if wordsDiffer tol p.1 p.2 then 1 else 0) }

/-- Number of groups of a descriptor. -/
def fuGroupCount (d : Nat) : Nat := (fuCount d + 63) / 64

/-- Finishes a descriptor whose working copies are visible. -/
def State.fuuFinish (s : State) (u d : Nat) (r : FuuRun) : State := (s.fuuSignal u d).fuuAdvance u r

/-- Writes the working copies of a descriptor and finishes it, at once when none of them leaves the module. -/
def State.fuuWork (s : State) (u d : Nat) (r : FuuRun) (A : Acc) (vals : List Nat) : State :=
  match s.workPut A (parseChart (s.fuChart u d)) d (s.fuTide u d) vals.zipIdx with
  | (.error f, s) => s.fuuStop u r.pos (fuCode f)
  | (.ok w, s) =>
    let s := s.commit A w
    match s.findWork A.work with
    | some k =>
      if k.out = 0 then (s.dropWork A.work).fuuFinish u d r
      else
        let x := s.fuu u
        s.setFuu u { x with runs := { r with work := some A.work } :: x.runs.drop 1 }
    | none => s.fuuFinish u d r

/-- Runs a descriptor that writes a working copy. -/
def State.fuuRunW (s : State) (u d : Nat) (r : FuuRun) (retries : List GroupRetry) (j : GroupJob) : State :=
  let (w, s) := s.addWork 6 .pilot 0
  let (A, s) := s.fuAcc u d w
  match s.workFail A (parseChart (s.fuChart u d)) d with
  | (some f, s) => (s.dropWork w).fuuStop u r.pos (fuCode f)
  | (none, s) =>
    match s.fuGroups u A.lisl (fuCount d) retries j (fuGroupCount d) 0 with
    | (none, s) => (s.dropWork w).fuuStop u r.pos 0
    | (some vals, s) =>
      let s := if r.set = 0 then s.count (fuuReg u Reg.FUU_CNT_PARAMS) (fuCount d) else s
      s.fuuWork u d r A vals

/-- Runs KEEP or COMPARE. -/
def State.fuuRunN (s : State) (u d : Nat) (r : FuuRun) (retries : List GroupRetry) : State :=
  let cmp := fuuOp d == 6
  let tol := s.fld (fuuReg u Reg.FUU_CMP) Fd.FUU_CMP_TOL
  match s.fuGroups u 0xFF (fuCount d) retries (if cmp then compareJob d tol else keepJob d) (fuGroupCount d) 0 with
  | (none, s) => s.fuuStop u r.pos 0
  | (some vals, s) =>
    let n := vals.sum
    let c := fuuReg u Reg.FUU_CMP_CNT
    let s := if cmp && decide (0 < n) && s.reg c == 0 then
        s.setReg (fuuReg u Reg.FUU_CMP_FIRST) (BitVec.ofNat 32 (vals.findIdx (· == 1)))
      else s
    let s := if cmp then s.count c n else s
    s.fuuFinish u d r

/-- Whether a row of OP `op` runs a descriptor: one of its OP, or one of a reserved OP, which faults under any update row. -/
def fuRowFits (op d : Nat) : Bool := fuuOp d == op || (decide (op ≤ 3) && decide (7 ≤ fuuOp d))

/-- The descriptor at which the unit's oldest run stands, when it has the row's OP: its checks, then its groups; or, once its
working copies have all been written, its end. A descriptor or working Chart with a bad codeword stops the unit as a group that
cannot be read does (R376; DESIGN CHOICE, log entry 111). -/
def State.fuuStep (s : State) (u op : Nat) (retries : List GroupRetry) : State :=
  match (s.fuu u).runs with
  | [] => s
  | r :: _ =>
    let d := s.fuuEntry u r.pos
    if !fuRowFits op d then s
    else match r.work with
      | some w =>
        match s.findWork w with
        | some k => if k.out = 0 then (s.dropWork w).fuuFinish u d r else s
        | none => s.fuuFinish u d r
      | none =>
        let (bad, s) := s.fuTouch u r.pos
        let code := s.fuCheck u d
        if bad then s.fuuStop u r.pos 0
        else if code ≠ 0 then s.fuuStop u r.pos code
        else match fuuOp d with
          | 4 => s.fuuRunW u d r retries (s.reloadJob u d)
          | 5 => s.fuuRunN u d r retries
          | 6 => s.fuuRunN u d r retries
          | op =>
            let j := s.updJob u d r.inplace ((s.uProg u 64 (fuD d 0 23 16)).getD [])
            let s := if op = 3 then { s with freeCtr := s.freeCtr + 16 * fuCount d } else s
            s.fuuRunW u d r retries j

/-- ADAM (R372). -/
def execAdam (u : Fin 8) (retries : List GroupRetry) (s : State) : Out := settled (s.fuuStep u 0 retries)

/-- MOMENTUM (R372). -/
def execMomentum (u : Fin 8) (retries : List GroupRetry) (s : State) : Out := settled (s.fuuStep u 1 retries)

/-- SGD (R372). -/
def execSgd (u : Fin 8) (retries : List GroupRetry) (s : State) : Out := settled (s.fuuStep u 2 retries)

/-- UCODE (R374). -/
def execUcode (u : Fin 8) (retries : List GroupRetry) (s : State) : Out := settled (s.fuuStep u 3 retries)

/-- RELOAD (R375). -/
def execReload (u : Fin 8) (retries : List GroupRetry) (s : State) : Out := settled (s.fuuStep u 4 retries)

/-- KEEP (R375). -/
def execKeep (u : Fin 8) (retries : List GroupRetry) (s : State) : Out := settled (s.fuuStep u 5 retries)

/-- COMPARE (R375). -/
def execCompare (u : Fin 8) (retries : List GroupRetry) (s : State) : Out := settled (s.fuuStep u 6 retries)

/-- Starts a set on a unit (R370); a COMPARE set counts from zero. -/
def State.fuuSetStart (s : State) (u set : Nat) : State :=
  let s := s.setFld (fuuReg u Reg.FUU_CTL) Fd.FUU_CTL_GO 1
  let s := if set = 3 then (s.setReg (fuuReg u Reg.FUU_CMP_CNT) 0).setReg (fuuReg u Reg.FUU_CMP_FIRST) 0 else s
  match s.fuuNext u set 0 with
  | none => s.fuuSetDone u
  | some _ => s.fuuStart u set false

/-- FUU_CTL written with GO (R390): a reserved SET, or a set while one runs, is ignored. -/
def State.fuuGo (s : State) (u : Nat) (v : Word) : State :=
  let a := fuuReg u Reg.FUU_CTL
  let s := s.swWriteKeep a [Fd.FUU_CTL_GO] v
  if Fd.FUU_CTL_SET.get v = 0 ∨ (s.fuu u).runs.any (·.set != 0) then s else s.fuuSetStart u (Fd.FUU_CTL_SET.get v)

/-- FUU_SET_GO (R370). -/
def execFuuSetGo (r : Requester) (u : Fin 8) (v : BitVec 32) (s : State) : Out :=
  .next (s.guarded r (fuuReg u Reg.FUU_CTL) fun s => s.fuuGo u (v ||| 4))

/-- Releases a unit's checkpoint lock. -/
def State.unlock (s : State) (u : Nat) : State :=
  (s.setFld (fuuReg u Reg.FUU_STATE) Fd.FUU_STATE_LOCK 0).setFuu u { s.fuu u with lockUsed := false }

/-- LOCK_RELEASE (R390). -/
def execLockRelease (r : Requester) (u : Fin 8) (s : State) : Out :=
  .next (s.guarded r (fuuReg u Reg.FUU_STATE) fun s => s.unlock u)

end Sys2Proof.Machine
end

