-- ==== Sys2Proof/Machine/Units.lean ====
section
/-! DEFINITION. Units as the firmware knows them (R420, R421): their STATE and SEQ, its own record of them, and the record that is
written where the two disagree (R10, R423). -/

namespace Sys2Proof.Machine

/-- Whether a UNIT word names a unit. -/
def unitOk (u : Nat) : Bool :=
  let i := u % 4096
  match u / 4096 with
  | 1 => decide (i < 144)
  | 2 => decide (i < 16)
  | 3 => decide (i < 8)
  | 4 => decide (i < 32)
  | 5 => decide (i < 8)
  | _ => false

/-- The memory controller of a UNIT word of class 3 or 4. -/
def unitMem (u : Nat) : MemUnit :=
  if u / 4096 = 3 then .hbm ⟨u % 8, Nat.mod_lt _ (by decide)⟩ else .lpx ⟨u % 32, Nat.mod_lt _ (by decide)⟩

/-- STATE of a unit (R420). -/
def State.unitState (s : State) (u : Nat) : Nat :=
  let i := u % 4096
  match u / 4096 with
  | 1 => s.pstate i
  | 2 => s.portSt i
  | 5 => (s.reg (fuuReg i Reg.FUU_STATE)).toNat % 16
  | _ => s.memState (unitMem u)

/-- The firmware counter of a unit (R421). -/
def State.fwSeq (s : State) (u : Nat) : Nat := tget (fun _ => 0) s.fw.unitSeq u

/-- The firmware counts a change of a unit or an action on it; the counter wraps (R421). -/
def State.bumpSeq (s : State) (u : Nat) : State :=
  { s with fw := { s.fw with unitSeq := tset (fun _ => 0) s.fw.unitSeq u ((s.fwSeq u + 1) % 2 ^ 16) } }

/-- The firmware's record of a unit's STATE. -/
def State.unitRec (s : State) (u : Nat) : Nat := tget (fun _ => 0) s.fw.unitLast u

/-- The firmware takes the hardware STATE into its record. -/
def State.takeState (s : State) (u : Nat) : State :=
  { s with fw := { s.fw with unitLast := tset (fun _ => 0) s.fw.unitLast u (s.unitState u) } }

/-- The firmware has acted on a unit: it counts the action, and its record is what the unit shows then (R421). -/
def State.acted (s : State) (u : Nat) : State := (s.bumpSeq u).takeState u

/-- The firmware rereads a unit's hardware STATE (R421). Where its record disagrees, it takes the hardware STATE and writes a
STATE_SKEW record without a command (R10, R423). -/
def State.observe (s : State) (u : Nat) : State :=
  if u / 4096 = 1 ∨ s.unitRec u = s.unitState u then s
  else (((s.bumpSeq u).takeState u).logSkew u (s.unitRec u) (s.unitState u) (s.fwSeq u) ((s.fwSeq u + 1) % 2 ^ 16) 0 0x3F 0)

/-- SEQ of a unit (R420). -/
def State.unitSeqOf (s : State) (u : Nat) : Nat :=
  if u / 4096 = 1 then s.fld (Reg.ISL_PSTATE (u % 4096)) Fd.ISL_PSTATE_SEQ else s.fwSeq u

/-- The units that have a firmware counter. -/
def fwUnits : List Nat :=
  (List.range 16).map (0x2000 + ·) ++ (List.range 8).map (0x3000 + ·) ++ (List.range 32).map (0x4000 + ·)
    ++ (List.range 8).map (0x5000 + ·)

end Sys2Proof.Machine
end

