-- ==== Sys2Proof/Machine/Commit.lean ====
section
/-! DEFINITION. Replay before commit (R380 to R382), checkpoint drains (R383 to R386) and restore (R387), as this module's
firmware performs them. The spec leaves the layout of an image's segment table, the addresses of the image slots and the way
the buddy is named to the firmware; the model's choices are those of log entry 32. -/

namespace Sys2Proof.Machine

/-- The words of `n` registers. -/
def State.regBytes (s : State) (a n : Nat) : List Byte := ((List.range n).map fun i => leBytes 4 (s.reg (a + 4 * i)).toNat).flatten

/-- A segment of an image (R385): kind, source address, length, and whether the source is registers or the firmware rather than
memory. -/
structure Seg where
  kind : Nat
  src : Nat
  len : Nat
  regs : Bool
deriving DecidableEq, Repr

/-- The valid update descriptors of a unit. -/
def State.updDescs (s : State) (u : Nat) : List Nat :=
  ((List.range (min 1024 (s.fld (fuuReg u Reg.FUU_TBL_N) Fd.FUU_TBL_N_COUNT))).map (s.fuuEntry u)).filter fun d =>
    bitsOf d 14 14 == 1 && decide (fuuOp d ≤ 3)

/-- The buffer of a unit that was committed when LOCK was set (R383). -/
def State.lockedBuf (s : State) (u : Nat) : Nat := s.fw.lockCur / 2 ^ u % 2

/-- The segments of an image of this module (R385): the locked buffer of every stack, block owners, slot tables, group table,
bucket table, routes and module id, and the data-loader position, which the firmware holds. -/
def State.segments (s : State) : List Seg :=
  ((List.range 8).flatMap fun u => (s.updDescs u).flatMap fun d => (List.range 3).map fun i =>
      Seg.mk 1 (s.fuBuf u d i (s.lockedBuf u)) (4 * fuCount d) false)
    ++ ((List.range 4).map fun q => Seg.mk 2 (Reg.CHT_BOT_LO q 0) 65536 true)
    ++ ((List.range 4).map fun q => Seg.mk 3 (s.addr48 (Reg.TIDE_SLOT_LO q) (Reg.TIDE_SLOT_HI q)) 262144 false)
    ++ [Seg.mk 4 s.grpBase 4096 false, Seg.mk 5 s.bktBase 131072 false, Seg.mk 6 (Reg.STR_ROUTE 0 0) 4100 true, Seg.mk 7 0 8 true]

/-- A length rounded up to whole lines. -/
def lines64 (n : Nat) : Nat := (n + 63) / 64 * 64

/-- Offsets of segments in an image: after the header and the table. -/
def segOffs : Nat → List Seg → List (Seg × Nat)
  | _, [] => []
  | o, g :: r => (g, o) :: segOffs (o + lines64 g.len) r

/-- Fills bytes up to whole lines. -/
def padLine (bs : List Byte) : List Byte := bs ++ List.replicate (lines64 bs.length - bs.length) 0

/-- What the firmware puts into its own memory of a segment that does not lie in memory. -/
def State.segBytes (s : State) (g : Seg) : List Byte :=
  padLine (if g.kind = 7 then leBytes 8 s.fw.loaderPos else s.regBytes g.src (g.len / 4))

/-- Offset of the first segment. -/
def segBase (n : Nat) : Nat := lines64 (64 + 32 * n)

/-- The header line of an image (R385). -/
def State.imgHeader (s : State) (seq resume nseg : Nat) (complete : Bool) : List Byte :=
  let h := leBytes 4 0x4B43565A ++ leBytes 2 1 ++ leBytes 2 (s.selfId 0) ++ leBytes 8 seq ++ leBytes 4 resume
    ++ leBytes 4 s.fw.lockT ++ leBytes 4 s.fw.lockEma ++ leBytes 4 s.fw.lockWins ++ leBytes 2 nseg ++ leBytes 1 (if complete then 1 else 0)
  h ++ List.replicate (64 - h.length) 0

/-- The segment table of an image. -/
def segTable (gs : List (Seg × Nat)) : List Byte :=
  padLine (gs.map fun g => leBytes 8 g.1.kind ++ leBytes 8 g.1.src ++ leBytes 8 g.1.len ++ leBytes 8 g.2).flatten

/-- Address of an image slot in the buddy's checkpoint region. -/
def slotAddr (k : Nat) : Nat := 0x20C00000000 + k * 0x2A00000000

/-- Sends lines to another module, unscheduled, for a piece of work. -/
def State.sendLines (s : State) (q work md : Nat) : Nat → Nat → List Byte → State
  | 0, _, _ => s
  | n + 1, a, bs =>
    if bs.isEmpty then s
    else (s.remWrite q 0xFF work md a (2 ^ 64 - 1) (bs.take 64)).sendLines q work md n (a + 64) (bs.drop 64)

/-- The buddy: the partner of the lowest ACTIVE port, with the port's Quarter. -/
def State.buddy (s : State) : Option (Nat × Nat) :=
  ((List.range 16).find? fun k => s.portSt k == 4).map fun k => (s.partnerId k, portQ k)

/-- Whether every unit holds LOCK. -/
def State.allLocked (s : State) : Bool := (List.range 8).all fun u => s.bit (fuuReg u Reg.FUU_STATE) Fd.FUU_STATE_LOCK

/-- Releases every unit's LOCK (R383, R384). -/
def State.unlockAll (s : State) : State := (List.range 8).foldl (fun s u => (s.unlock u).acted (0x5000 + u)) s

/-! ### The drain through Ferry 0 (R383; log entries 32 and 124) -/

/-- Where the firmware puts the header and the table of an image, and then what does not lie in memory, until a Ferry has read
them. -/
def drainStage : Nat := fwArea + 0x4200000
/-- Where it puts the descriptors of the drain. -/
def drainDescs : Nat := fwArea + 0x4400000

/-- A BYTES descriptor with REMOTE = 1 (R201, R205). -/
def bytesDesc (src md dst len : Nat) : List Byte :=
  leBytes 8 (3 + 2 ^ 18) ++ leBytes 8 src ++ leBytes 8 dst ++ leBytes 8 len ++ leBytes 2 md ++ List.replicate 30 0

/-- Submits one descriptor of the drain: from a module physical address to an offset of the image slot. -/
def State.drainSend (s : State) (d : Drain) (src off len : Nat) : State :=
  let a := drainDescs + 64 * d.count
  let (id, s) := (s.writeMem a (bytesDesc src d.buddy (slotAddr d.slot + off) len) 9 0xFF).2.ferryPilot 0 a true
  { s with fw := { s.fw with drain := some { d with count := d.count + 1, ids := d.ids ++ [id] } } }

/-- Submits what Ferry 0's queue takes of the rest of the drain, at most `n` descriptors. -/
def State.drainPump : Nat → State → State
  | 0, s => s
  | n + 1, s =>
    match s.fw.drain with
    | some d =>
      match d.todo with
      | [] => s
      | (src, off, len) :: r => if s.ferryFull 0 || d.failed then s else (s.drainSend { d with todo := r } src off len).drainPump n
    | none => s

/-- Puts the header, the table and the segments that do not lie in memory into the firmware's own memory: what the drain
submits. -/
def State.drainPrepare (s : State) (seq : Nat) : List (Nat × Nat × Nat) × State :=
  let gs := segOffs (segBase s.segments.length) s.segments
  let t := segTable gs
  let s := (s.writeMem drainStage (s.imgHeader seq s.fw.lockResume gs.length false ++ t) 9 0xFF).2
  let (l, _, s) := gs.foldl (fun (a : List (Nat × Nat × Nat) × Nat × State) g =>
    if g.1.regs then
      (a.1 ++ [(a.2.1, g.2, lines64 g.1.len)], a.2.1 + lines64 g.1.len, (a.2.2.writeMem a.2.1 (a.2.2.segBytes g.1) 9 0xFF).2)
    else (a.1 ++ [(g.1.src, g.2, lines64 g.1.len)], a.2)) ([], drainStage + 0x100000, s)
  ((drainStage, 0, 64) :: (drainStage + 64, 64, t.length) :: l, s)

/-- The drain begins (R383, R384): the header goes first, with COMPLETE 0, then the table and the segments. -/
def State.drainStart (s : State) (md slot seq : Nat) : State :=
  let (l, s) := s.drainPrepare seq
  let d : Drain := { buddy := md, slot := slot, seq := seq, resume := s.fw.lockResume, todo := l }
  ({ s with fw := { s.fw with drain := some d } } : State).drainPump 64

/-- The drain begins once every unit holds LOCK, or goes on where Ferry 0's queue has room again. -/
def State.drainBegin (s : State) : State :=
  match s.fw.drain, s.buddy with
  | some _, _ => s.drainPump 64
  | none, some (md, _) => if s.allLocked then s.drainStart md (1 - s.fw.imgSlot) (s.fw.imgSeq + 1) else s
  | none, none => s

/-- Whether every descriptor of a drain has been submitted and has completed. -/
def State.drainThere (s : State) (d : Drain) : Bool := d.todo.isEmpty && !d.failed && d.ids.all fun i => (s.findWork i).isNone

/-- Bytes of the image that was drained: where its last segment ends. -/
def State.imgBytes (s : State) : Nat :=
  let e := drainStage + 64 + 32 * (s.memNat (drainStage + 32) 2 - 1)
  s.memNat (e + 24) 8 + lines64 (s.memNat (e + 16) 8)

/-- The image is complete (R383): LOCK is released, and the time since the lock is C of R386. -/
def State.imgDone (s : State) (d : Drain) : State :=
  let t := s.cycle - s.fw.lockCycle
  let s : State := { s with fw := { s.fw with
    drain := none, imgSeq := d.seq, imgSlot := d.slot, imgAt := s.ontime, drainMs := t / 940000 } }
  (s.tracePt 0x041 [d.seq, s.imgBytes, t / 940]).unlockAll

/-- The drain ends (R383): once every segment has been written the header is sent with COMPLETE = 1, and once that has been written
the image is complete. -/
def State.drainFinish (s : State) : State :=
  match s.fw.drain with
  | none => s
  | some d =>
    if !s.drainThere d then s
    else if d.final then s.imgDone d
    else if s.ferryFull 0 then s
    else (s.writeMem (drainStage + 34) [1] 9 0xFF).2.drainSend { d with final := true } drainStage 0 64

/-- CHECKPOINT_DRAIN (R383). -/
def execCheckpointDrain (ph : DrainPhase) (s : State) : Out :=
  match ph with
  | .begin => .next s.drainBegin
  | .finish => .next s.drainFinish

/-- Whether any unit holds LOCK. -/
def State.anyLocked (s : State) : Bool := (List.range 8).any fun u => s.bit (fuuReg u Reg.FUU_STATE) Fd.FUU_STATE_LOCK

/-- A header that was sent with COMPLETE = 1 is sent again with COMPLETE = 0 (R384). -/
def State.drainUndo (s : State) (d : Drain) : State :=
  if d.final && !s.ferryFull 0 then (s.writeMem (drainStage + 34) [0] 9 0xFF).2.drainSend d drainStage 0 64 else s

/-- A drain is abandoned (R384), or one that could not begin: no further descriptors are issued, LOCK is released, a COMMIT record is
written and the manager is told. -/
def State.drainAbandon (s : State) (why : Nat) : State :=
  if s.fw.drain.isNone && !s.anyLocked then s
  else
    let s := match s.fw.drain with
      | some d => s.drainUndo d
      | none => s
    let (md, seq) := match s.fw.drain with
      | some d => (d.buddy, d.seq)
      | none => (0, s.fw.imgSeq + 1)
    let s := ({ s with fw := { s.fw with drain := none } } : State).unlockAll
    let b := leBytes 4 why ++ leBytes 4 s.tideNum ++ leBytes 8 seq
    ((s.log 9 b).report (.other 0x384) md seq why).toManager none 6 b

/-- DRAIN_ABANDON (R384). -/
def execDrainAbandon (why : AbandonCause) (s : State) : Out :=
  .next (s.drainAbandon (match why with | .buddyDeparted => 0 | .descriptorFailed => 1 | .limit300s => 2))

/-! ### Replay (R381) -/

/-- The first Tide of the window that gate Tide `n` closes (R363), not before TIDE_FIRST. -/
def State.windowFirst (s : State) (n : Nat) : Nat :=
  let w := s.nTypes * s.wStep
  let first := (s.reg Reg.TIDE_FIRST).toNat
  if n + 1 < w then first else if n + 1 - w < first ∧ first ≤ n then first else n + 1 - w

/-- Starts a set on every unit of the module. -/
def State.allSets (s : State) (set : Nat) : State := (List.range 8).foldl (fun s u => (s.fuuSetStart u set).acted (0x5000 + u)) s

/-- Whether every unit has finished its sets. -/
def State.setsDone (s : State) : Bool := (List.range 8).all fun u => (s.fuu u).runs.all (·.set == 0)

/-- Changes the replay that the firmware performs. -/
def State.setReplay (s : State) (r : Option Replay) : State := { s with fw := { s.fw with replay := r } }

/-- FAILNOW, then UNLOAD (R381). -/
def State.failUnload (s : State) : State := (s.failHere 6).unload

/-- PROG_UNLOAD with SCOPE 0 (R415): a running program fails first. -/
def State.progUnload (s : State) : State := (if s.tideSt = 1 then s.failHere 6 else s).unload

/-- The Islands whose plausibility flag was raised in the window (R381). -/
def State.suspects (s : State) : List Nat :=
  (List.range 144).filter fun p => (s.reg (plausReg p)).toNat / 2 ^ (p % 36 % 32) % 2 == 1

/-- The spare for an Island-local substitution: a free one, else a TESTING Island that is released for it (R456). -/
def State.spareFor (s : State) (p : Nat) : Option Nat :=
  match s.freeSpare p with
  | some d => some d
  | none => ((List.range 36).map (36 * quarterOf p + ·)).find? fun d => s.pstate d == 3 && !s.retBit d

/-- The substitution for a window (R381, step 1) with what the buddy reports of itself, or nothing for HALT: the suspect Island with
its spare, whether the two modules exchange shares, and whether this module is the suspect one then. A pinned Island cannot be
swapped (R32), which makes its module the suspect. -/
def State.chooseSubst (s : State) (buddy : Option Bool) : Option (Option (Nat × Nat) × Bool × Bool) :=
  let isl : Option (Nat × Nat) := match s.suspects with
    | [p] => if s.pinned p then none else (s.spareFor p).map fun d => (p, d)
    | _ => none
  if s.suspects.isEmpty then some (none, buddy == some true, false)
  else if isl.isSome then (if buddy = some true then none else some (isl, false, false))
  else if buddy.isSome then none else some (none, true, true)

/-- The verdict becomes HALT (R381): the root shows it, and the host is notified (R378). -/
def State.verdictHalt (s : State) : State :=
  if s.isRoot then
    let s := s.setFld Reg.TIDE_BCN_VERDICT Fd.TIDE_BCN_VERDICT_VERDICT 4
    if s.bit (Reg.PLT_CORE s.fw.duty) Fd.PLT_CORE_READY then s.notify 3 s.tideNum else s
  else s

/-- Step 2 of a replay with the substitution that step 1 chooses: the KEEP set, while the module has marked a gate Tide that the root
holds for REPLAY. -/
def State.replayKeep (s : State) (buddy : Option Bool) : State :=
  if s.tideSt != 2 && !(s.tideSt == 3 && s.fld Reg.TIDE_BCN_VERDICT Fd.TIDE_BCN_VERDICT_VERDICT == 3) then s
  else match s.chooseSubst buddy with
    | none => s.verdictHalt
    | some (isl, exch, own) =>
      (s.setReplay (some { step := 2, isl := isl, first := s.windowFirst s.tideNum, exch := exch, own := own })).allSets 2

/-- Binds the logical Island of the suspect to the spare (R381, step 3): the program is unloaded, so the firmware rebinds it.
Where the Quarter has no free spare, a TESTING Island is released, and its test counts as not run (R456). A pin stays (R9). -/
def State.substituteIsl (s : State) (src dst : Nat) : State :=
  let l := s.logicalOf src
  let free := s.pstate dst == 2 || (s.pstate dst == 3 && (List.range 36).all fun i => s.pstate (36 * quarterOf src + i) != 2)
  if s.loaded ∨ 136 ≤ l ∨ free = false ∨ quarterOf src ≠ quarterOf dst ∨ s.pinned src then s
  else
    let s : State := { s with fw := { s.fw with underTest := s.fw.underTest.filter (· ≠ dst) } }
    let s := (s.setFld (Reg.ISL_LMAP l) Fd.ISL_LMAP_PHYS dst).setFld (Reg.ISL_LMAP l) Fd.ISL_LMAP_VALID 1
    ((((s.setLogical src 0xFF).setLogical dst l).setPstate dst 1).setPstate src 3)

/-- The arrays of master state of every unit, as unit, address in a buffer, and length: `buf` is the buffer relative to CUR. -/
def State.masters (s : State) (buf : Nat) : List (Nat × Nat × Nat) :=
  (List.range 8).flatMap fun u => (s.updDescs u).flatMap fun d => (List.range 3).map fun i =>
    (u, s.fuBuf u d i ((s.fuuCur u + buf) % 2), 4 * fuCount d)

/-- Sends this module's CUR state to its buddy over VC 0 (R381, step 3): it goes into NXT there, so that neither loses its own before
it has been sent (DESIGN CHOICE, log entry 127). -/
def State.sendShare (s : State) (r : Replay) : State :=
  match s.buddy with
  | none => s
  | some (md, q) =>
    let (w, s) := s.addWork 6 .pilot 0
    let l := (s.masters 0).zip (s.masters 1)
    let s := l.foldl (fun s e => s.sendLines q w md (lines64 e.1.2.2 / 64) e.2.2.1 (s.bytes e.1.2.1 (lines64 e.1.2.2))) s
    (s.workDone w).setReplay (some { r with work := w })

/-- Takes over the buddy's share (R381, step 3): the module ids and route entries change places, and the state that the buddy has
sent becomes CUR. -/
def State.takeShare (s : State) : State :=
  match s.buddy with
  | none => s
  | some (md, _) =>
    let s := (List.range 4).foldl (fun s q =>
      let own := s.selfId q
      let a := s.reg (Reg.STR_ROUTE q own)
      let b := s.reg (Reg.STR_ROUTE q md)
      ((s.setReg (Reg.STR_ROUTE q own) b).setReg (Reg.STR_ROUTE q md) a).setFld (Reg.STR_SELF q) Fd.STR_SELF_ID md) s
    ((s.masters 0).zip (s.masters 1)).foldl (fun s e => (s.writeMem e.1.2.1 (s.bytes e.2.2.1 e.1.2.2) 9 0xFF).2) s

/-- The root writes GO with the verdict of the replay pass (R381, step 6). A pass that was not clean ends in HALT, and the job stays
held (R378, R382). -/
def State.replayGo (s : State) : State :=
  let s := s.setFld Reg.TIDE_BCN_CFG Fd.TIDE_BCN_CFG_REPLAY 0
  let v := s.fld Reg.TIDE_BCN_VERDICT Fd.TIDE_BCN_VERDICT_VERDICT
  if s.isRoot && s.tideSt == 3 && decide (v ≤ 2) then
    let c := s.fld Reg.TIDE_GO Fd.TIDE_GO_CMD
    (s.setFld Reg.TIDE_GO Fd.TIDE_GO_CMD (c / 4 * 4 + v)).sendGo
  else s

/-- Whether COMPARE found a difference on this module (R382). -/
def State.replayDiffers (s : State) : Bool := (List.range 8).any fun u => s.reg (fuuReg u Reg.FUU_CMP_CNT) != 0

/-- What the firmware passes to fault handling of a difference (R382, R461): the original Island, or the module, is suspect. -/
def State.replayMiss (s : State) (r : Replay) : State :=
  let n := ((List.range 8).map fun u => (s.reg (fuuReg u Reg.FUU_CMP_CNT)).toNat).sum
  let e (unit md : Nat) : FaultEvent :=
    { islEvent 0 7 0 r.first md with unit := BitVec.ofNat 16 unit, info := BitVec.ofNat 32 (min n 0xFFFFFFFF) }
  match r.isl with
  | some (a, _) => s.toHandler (e (islUnit a) 0)
  | none => if r.own then s.toHandler (e 0x9000 1) else s

/-- The end of a replay (R382): a difference makes the original Island, or the module, suspect; without one the Island stays
TESTING. -/
def State.replayFinish (s : State) (r : Replay) : State :=
  let s := if s.replayDiffers then s.replayMiss r else s
  s.replayGo.setReplay none

/-- A numbered step of a replay on this module (R381), in order. -/
def State.replayStep (s : State) (ph : ReplayPhase) : State :=
  match ph, s.fw.replay with
  | .keep buddy, none => s.replayKeep buddy
  | .unload, some r => if r.step = 2 ∧ s.setsDone then (s.setReplay (some { r with step := 3 })).failUnload else s
  | .substitute, some r =>
    if r.step ≠ 3 ∨ s.loaded then s
    else
      let r := { r with step := 4 }
      match r.isl with
      | some (a, b) => (s.setReplay (some r)).substituteIsl a b
      | none => if r.exch then (s.setReplay (some r)).sendShare r else s.setReplay (some r)
  | .reloadSet, some r =>
    if r.step = 4 ∧ (s.findWork r.work).isNone then
      (if r.exch then (s.setReplay (some { r with step := 5 })).takeShare else s.setReplay (some { r with step := 5 })).allSets 1
    else s
  | .rerun, some r =>
    if r.step = 5 ∧ s.setsDone then
      ((s.setReplay (some { r with step := 6 })).loadAt r.first).setFld Reg.TIDE_BCN_CFG Fd.TIDE_BCN_CFG_REPLAY 1
    else s
  | .compareSet, some r =>
    if r.step = 6 ∧ (s.tideSt = 2 ∨ s.tideSt = 3) ∧ s.isGate s.tideNum then
      let s := s.setReplay (some { r with step := 7 })
      let s := if s.lockstep then (List.range 8).foldl (fun s u => s.setFld (fuuReg u Reg.FUU_CMP) Fd.FUU_CMP_TOL 0) s else s
      s.allSets 3
    else s
  | .finish, some r => if r.step = 7 ∧ s.setsDone then s.replayFinish r else s
  | _, _ => s

/-- REPLAY (R381). -/
def execReplay (ph : ReplayPhase) (s : State) : Out := settled (s.replayStep ph)

/-! ### The checkpoint interval (R386) -/

/-- One binary digit of a square root after the other: the largest r with r² at most `n`, of `k` digits below those of `r`. -/
def isqrtAux : Nat → Nat → Nat → Nat
  | 0, r, _ => r
  | k + 1, r, n => isqrtAux k (if (r + 2 ^ k) * (r + 2 ^ k) ≤ n then r + 2 ^ k else r) n

/-- The whole part of a square root below 2^40. -/
def isqrt (n : Nat) : Nat := isqrtAux 40 0 n

/-- M of R386 in milliseconds: the mean gap of the interruptions of the last 30 days; until four have been observed, what R386 gives
for the modules that the routes name. With fewer than two in 30 days it is 30 days (DESIGN CHOICE, log entry 32). -/
def State.meanGap (s : State) : Nat :=
  let n := 1 + (List.range 1024).countP fun i => s.bit (Reg.STR_ROUTE 0 i) Fd.STR_ROUTE_VALID && i != s.selfId 0
  let l := s.fw.interrupts.filter fun t => decide (s.ontime ≤ t + 2592000)
  if s.fw.interrupts.length < 4 then 10800 * 1024 * 1000 / n
  else if l.length < 2 then 2592000000
  else (l.getLastD 0 - l.headD 0) * 1000 / (l.length - 1)

/-- I of R386 in milliseconds: C is this module's own measured drain time (log entry 32). -/
def State.ckptMs (s : State) : Nat := min 3600000 (max 60000 (isqrt (2 * s.fw.drainMs * s.meanGap)))

/-- The manager requests CKPT (R386): in the first gate Tide at least I after the previous lock, and never while LOCK is held. -/
def State.ckptRequest (s : State) : State :=
  let c := s.fld Reg.TIDE_GO Fd.TIDE_GO_CMD
  if s.fw.manager == s.selfId 0 + 1 && s.isRoot && s.loaded && !s.tide.startMarker && s.isGate s.tideNum && !s.anyLocked
      && c / 4 % 2 == 0 && (s.tideSt == 1 || s.tideSt == 3) && decide (s.fw.lockCycle + 940000 * s.ckptMs ≤ s.cycle) then
    s.setFld Reg.TIDE_GO Fd.TIDE_GO_CMD (c + 4)
  else s

/-! ### Restore (R387) -/

/-- Where an image is read from: this module's memory, or the buddy's, whose lines have been asked for under a number. -/
inductive ImgSrc where
  | here (a : Nat)
  | buddy (md a work : Nat)
deriving DecidableEq, Repr

/-- Bytes of an image, whole lines: nothing where a line of the buddy's has not come, or came with an error. -/
def State.imgRead (s : State) (i : ImgSrc) (off n : Nat) : Option (List Byte) :=
  match i with
  | .here a => some (s.bytes (a + off) n)
  | .buddy md a w =>
    let line (k : Nat) : Option (List Byte) :=
      match s.remLines.find? fun l => l.work == w && l.mod == md && l.addr == a + off / 64 * 64 + 64 * k with
      | some l => if l.bad then none else l.data
      | none => none
    let ls := (List.range (lines64 (off % 64 + n) / 64)).map line
    if ls.any Option.isNone then none else some (((ls.map (·.getD [])).flatten.drop (off % 64)).take n)

/-- A number in an image, 0 where it cannot be read. -/
def State.imgNat (s : State) (i : ImgSrc) (off n : Nat) : Nat := leNat ((s.imgRead i off n).getD [])

/-- Whether an image header is there and complete. -/
def State.imgOk (s : State) (i : ImgSrc) : Bool :=
  s.imgNat i 0 4 == 0x4B43565A && s.imgNat i 4 2 == 1 && s.imgNat i 34 1 == 1

/-- Entry `k` of an image's segment table: the segment and its offset. -/
def State.imgSeg (s : State) (i : ImgSrc) (k : Nat) : Seg × Nat :=
  let e := 64 + 32 * k
  let kind := s.imgNat i e 8
  (⟨kind, s.imgNat i (e + 8) 8, s.imgNat i (e + 16) 8, kind == 2 || kind == 6 || kind == 7⟩, s.imgNat i (e + 24) 8)

/-- The segments of an image. -/
def State.imgSegs (s : State) (i : ImgSrc) : List (Seg × Nat) := (List.range (s.imgNat i 32 2)).map (s.imgSeg i)

/-- Whether every byte of an image can be read. -/
def State.imgWhole (s : State) (i : ImgSrc) : Bool :=
  s.imgOk i && (s.imgRead i 64 (32 * s.imgNat i 32 2)).isSome && (s.imgSegs i).all fun g => (s.imgRead i g.2 g.1.len).isSome

/-- Of some images the complete one with the highest SEQ (R387, step 1). -/
def State.bestImg (s : State) (is : List ImgSrc) (ok : ImgSrc → Bool) : Option ImgSrc :=
  (is.filter ok).foldl (fun b i => match b with
    | none => some i
    | some x => if s.imgNat x 8 8 < s.imgNat i 8 8 then some i else some x) none

/-- The two image slots at the buddy. -/
def State.buddyImgs (s : State) : List ImgSrc :=
  match s.buddy with
  | some (md, _) => if s.fw.fetch = 0 then [] else [.buddy md (slotAddr 0) s.fw.fetch, .buddy md (slotAddr 1) s.fw.fetch]
  | none => []

/-- Asks the buddy for the lines of a range of an image slot. -/
def State.askImg (s : State) (a n : Nat) : State :=
  match s.buddy with
  | none => s
  | some (md, q) =>
    (List.range (lines64 n / 64)).foldl (fun s k => (s.remRead q 0xFF s.fw.fetch md (a + 64 * k)).2) s

/-- Fetches what this module still lacks of the newest complete image that its buddy holds: the two headers, then the table, then the
segments (R387, step 1). -/
def State.fetchImg (s : State) : State :=
  if s.loaded || s.buddy.isNone then s
  else
    let s := if s.fw.fetch = 0 then let (w, s) := s.addWork 6 .pilot 0; { s with fw := { s.fw with fetch := w } } else s
    let s := (s.askImg (slotAddr 0) 64).askImg (slotAddr 1) 64
    match s.bestImg s.buddyImgs s.imgOk with
    | some (.buddy md a w) =>
      let i := ImgSrc.buddy md a w
      let n := 32 * s.imgNat i 32 2
      let s := s.askImg (a + 64) n
      if (s.imgRead i 64 n).isNone then s else (s.imgSegs i).foldl (fun s g => s.askImg (a + g.2) g.1.len) s
    | _ => s

/-- The address of a master-state segment in buffer 0: the descriptors name it there. -/
def State.masterBase (s : State) (a : Nat) : Nat × Nat :=
  let u := min 7 ((a - 0x10000000000) / 0x900000000)
  if (s.updDescs u).any (fun d => (List.range 3).any fun i => fuAddr d i == a) then (u, a) else (u, a - s.boff u)

/-- Loads one segment of an image (R387, step 3): master state into both buffers, every other segment where it came from. -/
def State.loadSeg (s : State) (i : ImgSrc) (g : Seg × Nat) : State :=
  let bs := (s.imgRead i g.2 g.1.len).getD []
  if g.1.kind = 1 then
    let (u, b) := s.masterBase g.1.src
    ((s.writeMem b bs 9 0xFF).2.writeMem (b + s.boff u) bs 9 0xFF).2
  else if g.1.kind = 7 then { s with fw := { s.fw with loaderPos := leNat bs } }
  else if g.1.regs then
    let s := s.setRegs g.1.src bs
    if g.1.kind = 6 then (List.range 3).foldl (fun s q => s.setRegs (Reg.STR_ROUTE (q + 1) 0) bs) s else s
  else (s.writeMem g.1.src bs 9 0xFF).2

/-- The firmware retires the Islands that are due for it and could not be swapped out (R450), before the restore binds Islands: their
entries name no Island then, unless they are pinned. -/
def State.retirePending (s : State) : State :=
  let l := (List.range 144).filter fun p => s.retBit p && s.pstate p != 6
  let s := l.foldl (fun s p =>
    let lg := s.logicalOf p
    let s := if lg < 136 ∧ s.lmapPhys lg = p ∧ !s.lmapPin lg then s.bindTo lg 0xFF else s
    (s.setLogical p 0xFF).setPstate p 6) s
  let s := if l.isEmpty then s else s.syncBind
  if l.any fun p => s.fallsShort (quarterOf p) then s.setReplace else s

/-- Loads the newest complete image of those at hand (R387, step 3): the one fetched, and those copied from storage. -/
def State.loadImage (s : State) (images : List Nat) : State :=
  match if s.loaded then none else s.bestImg (s.buddyImgs ++ images.map .here) s.imgWhole with
  | none => s
  | some i =>
    let resume := s.imgNat i 16 4
    let t := BitVec.ofNat 32 (s.imgNat i 20 4)
    let ema := s.imgNat i 24 4
    let wins := s.imgNat i 28 4
    let s := (s.imgSegs i).foldl (fun s g => s.loadSeg i g) s
    let s := (List.range 8).foldl (fun s u =>
      let s := (((s.setFld (fuuReg u Reg.FUU_STATE) Fd.FUU_STATE_CUR 0).setFld (fuuReg u Reg.FUU_STATE) Fd.FUU_STATE_INPLACE 0).unlock
        u).setReg (fuuReg u Reg.FUU_T) t
      (s.setFuu u { s.fuu u with updTide := (resume + 2 ^ 32 - 1) % 2 ^ 32 }).acted (0x5000 + u)) s
    let s := (s.setReg Reg.TIDE_BCN_EMA (BitVec.ofNat 32 ema)).setReg Reg.TIDE_BCN_WINS (BitVec.ofNat 32 wins)
    let s := (s.dropWork s.fw.fetch).retirePending
    { s with fw := { s.fw with fetch := 0, restored := some resume, interrupts := s.fw.interrupts ++ [s.ontime] } }

/-- The restored job runs from RESUME (R387, step 4). -/
def State.restoreRun (s : State) : State :=
  match s.fw.restored with
  | some n => if s.setsDone then ({ s with fw := { s.fw with restored := none } } : State).loadAt n else s
  | none => s

/-- RESTORE (R387). -/
def execRestore (ph : RestorePhase) (s : State) : Out :=
  match ph with
  | .fetch => settled s.fetchImg
  | .loadImage images => .next (s.loadImage (images.map (·.toNat)))
  | .reloadSet => .next (if s.loaded then s else s.allSets 1)
  | .resume => settled s.restoreRun

end Sys2Proof.Machine
end

