-- ==== Sys2Proof/Machine/Pilot.lean ====
section
/-! DEFINITION. The Pilot cores and the command protocol (R391 to R410, R427 to R435): mailboxes, sessions, rings, contexts,
acceptance and completion of commands, watchdogs, adoption and fencing. The meaning of each command is in Pcp.lean. -/

namespace Sys2Proof.Machine

/-! ### Cores, mailboxes and rings -/

/-- Whether Pilot core `c` serves. -/
def State.coreReady (s : State) (c : Nat) : Bool := s.bit (Reg.PLT_CORE c) Fd.PLT_CORE_READY

/-- The cores that serve, ascending. -/
def State.readyCores (s : State) : List Nat := (List.range 4).filter s.coreReady

/-- The core that serves mailbox `m` (R394). -/
def State.mbxOwner (s : State) (m : Nat) : Nat := s.fld Reg.PLT_MOWN Fd.PLT_MOWN_OWNER / 4 ^ m % 4

/-- The core that owns ring `r`. -/
def State.ringOwner (s : State) (r : Nat) : Nat := s.fld (Reg.PLT_ROWN r) Fd.PLT_ROWN_OWNER

/-- The session of an open ring. -/
def State.session (s : State) (r : Nat) : Option Sess := tget (fun _ => none) s.fw.sess r

/-- Opens, changes or closes the session of a ring. -/
def State.setSession (s : State) (r : Nat) (x : Option Sess) : State :=
  { s with fw := { s.fw with sess := tset (fun _ => none) s.fw.sess r x } }

/-- The open rings, ascending. -/
def State.openRings (s : State) : List Nat := (List.range 64).filter fun r => (s.session r).isSome

/-- The open rings of a module context. -/
def State.ctxRings (s : State) (ctx : Nat) : List Nat :=
  s.openRings.filter fun r => match s.session r with | some x => x.ctx == ctx | none => false

/-- How many open rings a core owns. -/
def State.ringCount (s : State) (c : Nat) : Nat := s.openRings.countP fun r => s.ringOwner r == c

/-- The ready core that owns the fewest rings, the lowest on a tie (R409, R429). -/
def State.leastCore (s : State) : Option Nat :=
  s.readyCores.foldl (fun b c => match b with
    | none => some c
    | some d => if s.ringCount c < s.ringCount d then some c else some d) none

/-- Whether a context is fenced (R431). -/
def State.ctxFenced (s : State) (ctx : Nat) : Bool := s.fld Reg.PLT_CTXF Fd.PLT_CTXF_FENCED / 2 ^ ctx % 2 == 1

/-- Changes the commands in flight. -/
def State.setCmds (s : State) (l : List Cmd) : State := { s with fw := { s.fw with cmds := l } }

/-! ### Ring headers (R399) -/

/-- A field of a ring header: `n` bytes at an offset. -/
def State.hdr (s : State) (h off n : Nat) : Nat := s.memNat (h + off) n

/-- Writes bytes of a ring header. -/
def State.setHdr (s : State) (h off n v : Nat) : State := (s.writeMem (h + off) (leBytes n v) 9 0xFF).2

/-- Entries of a ring: N. -/
def State.ringN (s : State) (h : Nat) : Nat := 2 ^ (s.hdr h 6 1 % 16)

/-- INFLIGHT as the list of its bit numbers. -/
def State.inflightBits (s : State) (h : Nat) : List Nat := (List.range 32).filter fun i => s.hdr h 40 4 / 2 ^ i % 2 == 1

/-- The commands of ring `r` that are in flight (R402). -/
def State.ringCmds (s : State) (r : Nat) : List Cmd :=
  s.fw.cmds.filter fun c => match c.src with | .ring q _ => q.val == r | .urgent _ => false

/-- Sets or clears an INFLIGHT bit. -/
def State.setInflight (s : State) (h seq : Nat) (on : Bool) : State :=
  let old := s.hdr h 40 4
  let b := 2 ^ (seq % 32)
  let has := old / b % 2 == 1
  s.setHdr h 40 4 (if on && !has then old + b else if !on && has then old - b else old)

/-- Whether a range lies in the Shore OS region or the Pilot shared SRAM (R398). -/
def inRingMem (a n : Nat) : Bool :=
  (decide (0x20000000000 ≤ a) && decide (a + n ≤ 0x20C00000000)) || (decide (0x400000 ≤ a) && decide (a + n ≤ 0x800000))

/-- Whether a ring header keeps R398. -/
def State.ringOk (s : State) (h r : Nat) : Bool :=
  let lg := s.hdr h 6 1 % 16
  let cb := s.hdr h 8 8 % 2 ^ 48
  let pb := s.hdr h 16 8 % 2 ^ 48
  h % 128 == 0 && inRingMem h 128 && s.hdr h 0 4 == 0x52504350 && s.hdr h 4 1 % 64 == r
    && decide (4 ≤ lg) && decide (lg ≤ 12) && cb % 64 == 0 && pb % 32 == 0
    && inRingMem cb (64 * 2 ^ lg) && inRingMem pb (32 * 2 ^ lg)

/-- Shows the STATE of an open ring in its header (R399, R428): FENCED, OPEN while its owner serves, else HELD. -/
def State.showRing (s : State) (r : Nat) : State :=
  match s.session r with
  | some x => s.setHdr x.hdr 46 1 (if s.ctxFenced x.ctx then 3 else if s.coreReady (s.ringOwner r) then 1 else 2)
  | none => s

/-- The rings of core `c` show that it does not serve (R428). -/
def State.holdRings (s : State) (c : Nat) : State := (s.openRings.filter fun r => s.ringOwner r == c).foldl State.showRing s

/-! ### Contexts (R408) -/

/-- Closes a context: its memory is free and EN is 0 (R408). -/
def State.closeCtx (s : State) (ctx : Nat) : State :=
  let s := (List.range 4).foldl (fun s q => s.setFld (Reg.CHT_CTX_PT_ROOT q ctx) Fd.CHT_CTX_PT_ROOT_EN 0) s
  let s := s.invNow ctx 2
  { s with fw := { s.fw with
    allocs := s.fw.allocs.filter (fun a => a.ctx != ctx)
    pinVa := s.fw.pinVa.filter (fun a => a.1 != ctx) } }

/-- Whether the loaded Tide program uses a context (R412): an entry point names it. -/
def State.ctxUsed (s : State) (ctx : Nat) : Bool := s.loaded && s.tide.ctxs.contains ctx

/-- PLT_SHRWR.EN: 1 while an open session has EXPERT (R392). -/
def State.syncShrwr (s : State) : State :=
  s.setFld Reg.PLT_SHRWR Fd.PLT_SHRWR_EN (if s.openRings.any (fun r => match s.session r with
    | some x => x.feats / 2 % 2 == 1
    | none => false) then 1 else 0)

/-- Whether closing ring `r` would close a context that the loaded Tide program uses (R408). -/
def State.closeBusy (s : State) (ctx : Nat) : Bool := decide ((s.ctxRings ctx).length ≤ 1) && s.ctxUsed ctx

/-- Closes a ring after its RING_CLOSE has completed (R408). -/
def State.closeRing (s : State) (r : Nat) : State :=
  match s.session r with
  | none => s
  | some x =>
    let s := (s.setHdr x.hdr 46 1 0).setSession r none
    let s := if (s.ctxRings x.ctx).isEmpty then s.closeCtx x.ctx else s
    s.syncShrwr

/-! ### Completion (R400, R401) -/

/-- Writes a completion entry and advances CPL_TAIL, unless QUIET suppresses it; then clears INFLIGHT. -/
def State.putCpl (s : State) (r h seq opc token : Nat) (quiet : Bool) (res : Nat × Nat × Nat) : State :=
  let t := s.hdr h 32 4
  let base := s.hdr h 16 8 % 2 ^ 48
  let ent := leBytes 4 seq ++ leBytes 2 res.1 ++ leBytes 2 opc ++ leBytes 8 token ++ leBytes 8 res.2.1 ++ leBytes 8 res.2.2
  let s := if quiet && res.1 == 0 then s
    else ((s.writeMem (base + 32 * (t % s.ringN h)) ent 9 0xFF).2).setHdr h 32 4 ((t + 1) % 2 ^ 32)
  (s.setInflight h seq false).tracePt 0x002 [r, seq, res.1]

/-- Completes a command: a completion entry of its ring, or URGENT_RSP on its mailbox (R396, R401). Whether a RING_CLOSE may close
its ring is decided here, where it takes effect (R408). -/
def State.finishCmd (s : State) (c : Cmd) (res : Nat × Nat × Nat) : State :=
  let s := s.setCmds (s.fw.cmds.filter fun x => x.src != c.src)
  match c.src with
  | .ring r seq =>
    match s.session r with
    | none => s
    | some x =>
      let res := if c.opc = 0x0002 ∧ res.1 = 0 ∧ s.closeBusy x.ctx then (4, 0, 0) else res
      let s := s.putCpl r x.hdr seq.toNat c.opc c.token c.quiet res
      if c.opc = 0x0002 ∧ res.1 = 0 then s.closeRing r else s
  | .urgent m => s.mbxSend m (leBytes 2 4 ++ leBytes 2 res.1 ++ leBytes 4 0 ++ leBytes 8 res.2.1 ++ leBytes 8 res.2.2)

/-! ### Acceptance (R401, R402, R410, R411) -/

/-- The feature bit of an opcode (R411). -/
def opcFeature (opc : Nat) : Option Nat :=
  ([(0x0001, 0), (0x0002, 0), (0x0003, 0), (0x0101, 0), (0x0102, 0), (0x0103, 1), (0x0104, 1), (0x0105, 0), (0x0201, 1),
    (0x0202, 2), (0x0203, 0), (0x0301, 0), (0x0302, 0), (0x0303, 0), (0x0304, 0), (0x0305, 6), (0x0306, 0), (0x0401, 1),
    (0x0402, 0), (0x0403, 1), (0x0404, 1), (0x0405, 1), (0x0501, 3), (0x0502, 3), (0x0503, 0), (0x0601, 0), (0x0602, 5),
    (0x0603, 5), (0x0701, 0), (0x0702, 4), (0x0801, 0), (0x0802, 7), (0x0803, 1)].find? (·.1 == opc)).map (·.2)

/-- The bits of A0 to A5 that an opcode uses; the others are reserved (R411). Those of TESTPACK are its operation's, which `a0` names
(R460). -/
def opcMasks (opc a0 : Nat) : List Nat :=
  let f := 2 ^ 64 - 1
  match opc with
  | 0x0101 => [f, 0x1FF03]
  | 0x0102 => [f]
  | 0x0103 => [f, f, f, 7]
  | 0x0104 => [f, f]
  | 0x0201 => [f, 0x3FFF]
  | 0x0202 => [f, 0x3FFF]
  | 0x0203 => [f, 0x3F3FFF, f, f]
  | 0x0301 => [f, f, 0xFFFFFFFF, 3]
  | 0x0302 => [1]
  | 0x0303 => [0xF]
  | 0x0304 => [0x3F, f, f]
  | 0x0305 => [f, f, f]
  | 0x0401 => [0x3FFFFF, f]
  | 0x0402 => [f]
  | 0x0403 => [f, f]
  | 0x0404 => [f, 0xFFFFFFFF, 0xFFFFFFFF]
  | 0x0405 => [f, f]
  | 0x0501 => [f, f, f]
  | 0x0502 => [f, f, f]
  | 0x0503 => [f]
  | 0x0601 => [0xFFFF]
  | 0x0602 => [0xFFFF, 0xFFFF, f]
  | 0x0603 => [0xFFFF, 0xFFFF, 7]
  | 0x0701 => [f, f]
  | 0x0702 => [f, f, 1]
  | 0x0801 => [f, f, f]
  | 0x0802 => match a0 % 16 with
    | 0 => [0x1F, f, f]
    | 1 => [0xF, f, 3]
    | 2 | 3 => [0xF, f]
    | 4 => [0xF, f, f]
    | _ => [0xF]
  | 0x0803 => [f, f, 1]
  | _ => []

/-- Whether a reserved argument bit is set. -/
def argsRsv (opc : Nat) (args : List Nat) : Bool :=
  (List.range 6).any fun i =>
    let a := args.getD i 0
    let m := (opcMasks opc (args.getD 0 0)).getD i 0
    a &&& m != a

/-- The opcodes that are accepted as URGENT (R397). -/
def urgentOpcs : List Nat := [0x0003, 0x0105, 0x0401, 0x0304, 0x0302, 0x0303, 0x0601]

/-- The STATUS with which a command completes before it is performed: UNSUPPORTED, INVALID, or none. -/
def preStatus (opc feats : Nat) (args : List Nat) (rsv : Bool) : Option Nat :=
  match opcFeature opc with
  | none => some 2
  | some f => if feats / 2 ^ f % 2 = 0 then some 2 else if rsv || argsRsv opc args then some 1 else none

/-- Whether an URGENT command waits to be started on a core of which `p` holds and that serves (R397, R410). -/
def State.urgentOn (s : State) (p : Nat → Bool) : Bool :=
  s.fw.cmds.any fun x => match x.src with
    | .urgent m => p (s.mbxOwner m) && s.coreReady (s.mbxOwner m) && x.res.isNone && x.stage == 0
    | .ring .. => false

/-- Whether an URGENT command that core `c` serves has not been started: it is served before any ring (R410). -/
def State.urgentWaits (s : State) (c : Nat) : Bool := s.urgentOn (· == c)

/-- The 512 bits of the next command entry of a ring. -/
def State.nextEntry (s : State) (h : Nat) : Nat :=
  s.memNat (s.hdr h 8 8 % 2 ^ 48 + 64 * (s.hdr h 28 4 % s.ringN h)) 64

/-- Whether a ring has a command that can be accepted now (R401 to R403, R428): one is written, there is room in flight and for
its completion, a FENCE has nothing before it, and no RING_CLOSE is in flight. An entry waits while an older command holds its
INFLIGHT bit, since R429 finds a command by its bit among the last 32 (DEDUCED, log entry 129). -/
def State.ringReady (s : State) (r : Nat) : Bool :=
  match s.session r with
  | none => false
  | some x =>
    let h := x.hdr
    let n := s.ringN h
    let fl := (s.ringCmds r).length
    let st := s.hdr h 46 1 % 4
    s.hdr h 24 4 != s.hdr h 28 4 && (st == 1 || st == 3) && decide (fl < min 32 n)
      && (s.hdr h 32 4 + 2 ^ 32 - s.hdr h 36 4 + fl) % 2 ^ 32 != n
      && s.hdr h 40 4 / 2 ^ (s.hdr h 28 4 % 32) % 2 == 0
      && !(bitsOf (s.nextEntry h) 16 16 == 1 && fl != 0)
      && !((s.ringCmds r).any fun c => c.opc == 0x0002)

/-- Priority class of a ring (R399). -/
def State.ringPrio (s : State) (r : Nat) : Nat := match s.session r with | some x => s.hdr x.hdr 47 1 % 4 | none => 3
/-- WEIGHT of a ring; 0 acts as 1. -/
def State.ringWeight (s : State) (r : Nat) : Nat := match s.session r with | some x => max 1 (s.hdr x.hdr 47 1 / 16) | none => 1

/-- The ring from which core `c` accepts next (R410): the highest class with a command, rings in ascending number, each up to
its WEIGHT in a round. -/
def State.dueRing (s : State) (c : Nat) : Option Nat :=
  let can := s.openRings.filter fun r => s.ringOwner r == c && s.ringReady r
  match ((List.range 4).find? fun p => can.any fun r => s.ringPrio r == p) with
  | none => none
  | some p =>
    let rs := can.filter fun r => s.ringPrio r == p
    let (last, n) := tget (fun _ => (63, 0)) s.fw.round (4 * c + p)
    if rs.contains last && decide (n < s.ringWeight last) && n != 0 then some last
    else match rs.find? (fun r => decide (last < r)) with
      | some r => some r
      | none => rs.head?

/-- Counts an accepted command in the round of its class. -/
def State.countRound (s : State) (c r : Nat) : State :=
  let k := 4 * c + s.ringPrio r
  let (last, n) := tget (fun _ => (63, 0)) s.fw.round k
  let n' := if last = r ∧ n < s.ringWeight r then n + 1 else 1
  { s with fw := { s.fw with round := tset (fun _ => (63, 0)) s.fw.round k (r, n') } }

/-- Accepts the next command entry of a ring (R401). `fenced` completes it with FENCED (R431). -/
def State.acceptCmd (s : State) (r : Nat) (x : Sess) (fenced : Bool) : State :=
  let h := x.hdr
  let head := s.hdr h 28 4
  let e := s.nextEntry h
  let opc := bitsOf e 15 0
  let args := (List.range 6).map fun i => bitsOf e (128 + 64 * i + 63) (128 + 64 * i)
  let s := (s.setInflight h head true).setHdr h 28 4 ((head + 1) % 2 ^ 32)
  let s := s.tracePt 0x001 [r, head, opc]
  let s := if (head + 1) % 2 ^ 32 = s.hdr h 24 4 then s.setFld (Reg.PLT_ROWN r) Fd.PLT_ROWN_PEND 0 else s
  let pre := preStatus opc x.feats args (bitsOf e 31 18 != 0)
  let pre := if opc = 0x0105 then some 2 else pre
  let c : Cmd := { src := .ring ⟨r % 64, Nat.mod_lt _ (by decide)⟩ (BitVec.ofNat 32 head), opc := opc, ctx := x.ctx,
                   feats := x.feats, quiet := bitsOf e 17 17 == 1, token := bitsOf e 127 64, args := args, stage := 0,
                   res := pre.map fun st => (st, 0, 0) }
  let s := s.setCmds (s.fw.cmds ++ [c])
  if bitsOf e 63 32 ≠ head then s.finishCmd c (1, 0, 0)
  else if fenced then s.finishCmd c (0x0B, 0, 0)
  else s

/-- A PROG_LOAD that has been performed and is interrupted before it completes leaves LOADED at 0 (R433). -/
def State.undoLoad (s : State) (c : Option Cmd) : State :=
  match c with
  | some c => if c.opc = 0x0301 ∧ c.res.map (·.1) = some 0 then s.progUnload else s
  | none => s

/-- Completes with INTERRUPTED every command of a ring whose INFLIGHT bit is set, in SEQ order (R429). The TOKEN is the one that
was accepted, else that of the entry. -/
def State.interrupt (s : State) (r : Nat) : State :=
  match s.session r with
  | none => s
  | some x =>
    let h := x.hdr
    let head := s.hdr h 28 4
    let seqs := ((List.range 32).map fun i => (head + 2 ^ 32 - 32 + i) % 2 ^ 32).filter fun q => (s.inflightBits h).contains (q % 32)
    seqs.foldl (fun s q =>
      let own := s.fw.cmds.find? fun c => c.src == .ring ⟨r % 64, Nat.mod_lt _ (by decide)⟩ (BitVec.ofNat 32 q)
      let e := s.memNat (s.hdr h 8 8 % 2 ^ 48 + 64 * (q % s.ringN h)) 64
      let (opc, tok) := match own with | some c => (c.opc, c.token) | none => (bitsOf e 15 0, bitsOf e 127 64)
      let s := s.undoLoad own
      let s := s.setCmds (s.fw.cmds.filter fun c => c.src != .ring ⟨r % 64, Nat.mod_lt _ (by decide)⟩ (BitVec.ofNat 32 q))
      s.putCpl r h q opc tok false (0x0A, 0, 0)) s

/-- COMMAND_ACCEPT (R401, R402, R410): core `c` accepts the next entry of the ring that is due. A fenced context's commands
complete with INTERRUPTED and FENCED (R431). -/
def execCommandAccept (c : Fin 4) (ring : Fin 64) (s : State) : Out :=
  match s.session ring with
  | none => .next s
  | some x =>
    if !s.coreReady c || s.urgentWaits c || s.dueRing c != some ring.val then .next s
    else
      let fenced := s.ctxFenced x.ctx
      let s := s.countRound c ring
      let s := if fenced then s.interrupt ring else s
      .next (s.acceptCmd ring x fenced)

/-- Whether RING_CLOSE still has an earlier command of its ring before it (R403). -/
def State.closeWaits (s : State) (c : Cmd) : Bool :=
  match c.src with
  | .ring r _ => c.opc == 0x0002 && (s.fw.cmds.takeWhile fun x => x.src != c.src).any fun x => match x.src with
    | .ring q _ => q == r
    | .urgent _ => false
  | .urgent _ => false

/-- Whether the core that serves a command's source is ready. -/
def State.srcServed (s : State) (src : PcpSrc) : Bool :=
  match src with
  | .ring r _ => s.coreReady (s.ringOwner r)
  | .urgent m => s.coreReady (s.mbxOwner m)

/-- COMMAND_COMPLETE (R401): the completion of a command that has been performed. -/
def execCommandComplete (src : PcpSrc) (s : State) : Out :=
  match s.fw.cmds.find? (fun c => c.src == src) with
  | none => .next s
  | some c =>
    match c.res with
    | none => .next s
    | some r => if s.srcServed src && !s.closeWaits c then .next (s.finishCmd c r) else .next s

/-! ### Mailboxes (R395 to R397) -/

/-- Byte `i` of the IN message of mailbox `m`. -/
def State.inByte (s : State) (m i : Nat) : Nat := (s.reg (Reg.PLT_MBX_IN m (i / 4))).toNat / 256 ^ (i % 4) % 256

/-- `n` bytes of an IN message as a number. -/
def State.inNat (s : State) (m i n : Nat) : Nat := leNat ((List.range n).map fun j => BitVec.ofNat 8 (s.inByte m (i + j)))

/-- The serving core reads IN and writes IN_RING = 0 (R395). A HELLO waits for its own step. An URGENT message becomes a command
in flight (R397); any other KIND is answered with INVALID (R396). -/
def State.serveMbx (s : State) (m : Nat) : State :=
  let db := Reg.PLT_MBX_DB m
  if !s.bit db Fd.PLT_MBX_DB_IN_RING || !s.coreReady (s.mbxOwner m) || s.inByte m 0 == 1 then s
  else
    let s := s.setFld db Fd.PLT_MBX_DB_IN_RING 0
    let bad (st : Nat) : State := s.mbxSend m (leBytes 2 4 ++ leBytes 2 st)
    if s.inByte m 0 ≠ 3 then bad 1
    else
      let opc := s.inNat m 2 2
      let args := (List.range 6).map fun i => s.inNat m (8 + 8 * i) 8
      if !urgentOpcs.contains opc then bad 2
      else if s.fw.cmds.any (fun c => c.src == .urgent ⟨m % 8, Nat.mod_lt _ (by decide)⟩) then bad 4
      else match tget (fun _ => none) s.fw.mbxCtx m with
        | none => bad 3
        | some (ctx, feats) =>
          let pre := preStatus opc feats args (s.inByte m 1 != 0)
          let pre := if (s.ctxRings ctx).isEmpty then some 3
            else if s.ctxFenced ctx && opc != 0x0105 && pre.isNone then some 0x0B else pre
          let c : Cmd := { src := .urgent ⟨m % 8, Nat.mod_lt _ (by decide)⟩, opc := opc, ctx := ctx, feats := feats,
                           quiet := false, token := 0, args := args, stage := 0, res := pre.map fun st => (st, 0, 0) }
          s.setCmds (s.fw.cmds ++ [c])

/-- The OUT_RING of a mailbox interrupts its client (R395, R435): the Shore core that SHR_MBX_IRQ names, or the management port. -/
def State.outBell (s : State) (m : Nat) : State :=
  s.interruptCore .mailboxOut m (if m < 6 then s.fld Reg.SHR_MBX_IRQ Fd.SHR_MBX_IRQ_TARGET / 16 ^ m % 16 else 16)

/-- A write of a mailbox's DB by its client or by the Pilot (R395): IN_RING 1 interrupts the serving core, OUT_RING 1 the client. -/
def State.dbWrite (s : State) (m : Nat) (v : Word) : State :=
  let s := s.swWrite (Reg.PLT_MBX_DB m) v
  let s := if Fd.PLT_MBX_DB_IN_RING.get v = 1 then s.interruptCore .mailboxIn m (s.mbxOwner m) else s
  let s := if Fd.PLT_MBX_DB_OUT_RING.get v = 1 then s.outBell m else s
  s.serveMbx m

/-- A write to IN is dropped and sets OVR while IN_RING is 1 (R395). -/
def State.inWrite (s : State) (m i : Nat) (v : Word) : State :=
  if s.bit (Reg.PLT_MBX_DB m) Fd.PLT_MBX_DB_IN_RING then s.setFld (Reg.PLT_MBX_DB m) Fd.PLT_MBX_DB_OVR 1
  else s.swWrite (Reg.PLT_MBX_IN m i) v

/-- The client rings IN_RING and leaves OUT_RING as it stands (R395). -/
def State.inBell (s : State) (m : Nat) : State :=
  ((s.setFld (Reg.PLT_MBX_DB m) Fd.PLT_MBX_DB_IN_RING 1).interruptCore .mailboxIn m (s.mbxOwner m)).serveMbx m

/-- IN_RING: the client writes DB.IN_RING = 1, with OUT_RING as it stands. -/
def execInRing (r : Requester) (m : Fin 8) (s : State) : Out :=
  .next (s.guarded r (Reg.PLT_MBX_DB m) fun s => s.inBell m)

/-- OUT_RING: the serving core writes the next message to OUT and then DB.OUT_RING = 1, once the client has taken the last
one. -/
def execOutRing (c : Fin 4) (m : Fin 8) (s : State) : Out :=
  let db := Reg.PLT_MBX_DB m
  match tget (fun _ => []) s.fw.mbxOut m with
  | [] => .next s
  | ws :: rest =>
    if !s.coreReady c || s.mbxOwner m != c.val || s.bit db Fd.PLT_MBX_DB_OUT_RING then .next s
    else
      let s := (List.range 16).foldl (fun s i => s.setReg (Reg.PLT_MBX_OUT m i) (BitVec.ofNat 32 (ws.getD i 0))) s
      let s : State := { s with fw := { s.fw with mbxOut := tset (fun _ => []) s.fw.mbxOut m rest } }
      .next ((s.setFld db Fd.PLT_MBX_DB_OUT_RING 1).outBell m)

/-! ### HELLO (R404 to R409) -/

/-- The bitmap that the firmware offers on a mailbox (R406): REMOTE on the management mailboxes only, EXPERT where asked for. -/
def offered (m : Nat) (expert : Bool) : Nat := 0xFD + (if expert then 2 else 0) + (if 6 ≤ m then 0x100 else 0)

/-- The bitmap of a session (R406). -/
def negotiated (m major : Nat) (expert : Bool) (client : Nat) : Nat :=
  if major ≠ 1 then 1 else (client &&& offered m expert) ||| 1

/-- Writes what a successful HELLO writes into the header (R405), but for STATE. -/
def State.helloHdr (s : State) (h owner epoch feats : Nat) : State :=
  let s := (s.setHdr h 5 1 owner).setHdr h 44 2 epoch
  ((s.setHdr h 48 1 1).setHdr h 49 1 0).setHdr h 64 32 feats

/-- HELLO_RSP (R405). -/
def State.helloRsp (s : State) (m status r owner epoch feats : Nat) : State :=
  s.mbxSend m (leBytes 1 2 ++ leBytes 1 status ++ leBytes 1 1 ++ leBytes 1 0 ++ leBytes 1 r ++ leBytes 1 owner ++ leBytes 2 0
    ++ leBytes 2 epoch ++ leBytes 6 0 ++ leBytes 32 feats ++ leBytes 8 s.boot.fwver)

/-- Opens or resumes a ring after the checks: owner, header, session, mailbox context, and the label in the log. STATE is OPEN, unless
a resumed ring is fenced or its owner does not serve (R428, R431); with a ready owner the fence timer stops. -/
def State.helloOpen (s : State) (m r h ctx owner epoch feats : Nat) : State :=
  let s := (s.setFld (Reg.PLT_ROWN r) Fd.PLT_ROWN_OWNER owner).helloHdr h owner epoch feats
  let s := ((s.setSession r (some ⟨h, ctx, feats⟩)).showRing r).syncShrwr
  let s := if s.coreReady owner then s.setFld (Reg.PLT_ROWN r) Fd.PLT_ROWN_FTIMER 0 else s
  let s : State := { s with fw := { s.fw with mbxCtx := tset (fun _ => none) s.fw.mbxCtx m (some (ctx, feats)) } }
  let s := s.log 8 (leBytes 1 1 ++ leBytes 1 r ++ leBytes 2 ctx ++ leBytes 12 0
    ++ (List.range 16).map fun i => BitVec.ofNat 8 (s.inByte m (48 + i)))
  s.helloRsp m 0 r owner epoch feats

/-- What a HELLO does (R404 to R409). While the firmware keeps context 15 for tests (R441), no client opens it: BUSY, as for a program
that names it (DESIGN CHOICE, log entry 129). -/
def State.hello (s : State) (m : Nat) : State :=
  let flags := s.inByte m 1
  let expert := flags / 2 % 2 == 1
  let r := s.inByte m 4 % 64
  let h := s.inNat m 8 8 % 2 ^ 48
  let feats := negotiated m (s.inByte m 2) expert (s.inNat m 16 32)
  match s.session r with
  | some x =>
    if flags % 2 = 1 ∧ h = x.hdr then s.helloOpen m r h x.ctx (s.ringOwner r) ((s.hdr h 44 2 + 1) % 2 ^ 16) feats
    else s.helloRsp m 4 r 0 0 0
  | none =>
    if !s.ringOk h r then s.helloRsp m 1 r 0 0 0
    else
      let ctx := s.hdr h 7 1 % 16
      if s.ctxFenced ctx then s.helloRsp m 0x0B r 0 0 0
      else if ctx = 15 ∧ s.policy 0 2 ≠ 0 then s.helloRsp m 4 r 0 0 0
      else match s.leastCore with
        | none => s
        | some owner =>
          let s := if (s.ctxRings ctx).isEmpty then s.openCtx ctx else s
          s.helloOpen m r h ctx owner (s.hdr h 44 2) feats

/-- The stage at which a Shore core's first HELLO ends stage SHORE (R467). -/
def State.shoreDone (s : State) (m : Nat) : State :=
  if m < 6 ∧ s.fld Reg.BOOT_STATUS Fd.BOOT_STATUS_STAGE = 6 ∧ s.boot.shoreTries ≠ 0 then
    s.setFld Reg.BOOT_STATUS Fd.BOOT_STATUS_STAGE 7
  else s

/-- Whether the firmware answers on a mailbox: at READY on each (R467); in RECOVERY on 6 and 7, once a recovery image runs (R474). -/
def State.mbxServed (s : State) (m : Nat) : Bool :=
  s.bit Reg.BOOT_STATUS Fd.BOOT_STATUS_READY
    || (s.bit Reg.BOOT_STATUS Fd.BOOT_STATUS_RECOVERY && decide (6 ≤ m) && !s.boot.meas.isEmpty)

/-- HELLO: the serving core takes the message, writes IN_RING = 0, and prepares the answer. A HELLO on mailbox 0 to 5 ends stage
SHORE; while the firmware does not answer on the mailbox, no session opens and the message waits. -/
def execHello (m : Fin 8) (s : State) : Out :=
  let db := Reg.PLT_MBX_DB m
  if !s.bit db Fd.PLT_MBX_DB_IN_RING || !s.coreReady (s.mbxOwner m) || s.inByte m 0 != 1 then .next s
  else
    let s := s.shoreDone m
    if s.mbxServed m then .next ((s.setFld db Fd.PLT_MBX_DB_IN_RING 0).hello m) else .next s

/-! ### Doorbells (R401, R428, R434) -/

/-- A write of PLT_RDB (R434): PEND is set, and the ring's owner is interrupted. -/
def State.rdbWrite (s : State) (v : Word) : State :=
  let s := s.swWriteKeep Reg.PLT_RDB [Fd.PLT_RDB_GO] v
  if Fd.PLT_RDB_GO.get v = 0 then s
  else
    let r := Fd.PLT_RDB_RING.get v
    let s := (s.setFld (Reg.PLT_ROWN r) Fd.PLT_ROWN_PEND 1).interruptCore .ringBell r (s.ringOwner r)
    match s.session r with
    | some x => s.tracePt 0x003 [r, s.hdr x.hdr 24 4]
    | none => s

/-- PLT_RDB: a write with GO 1. -/
def execPltRdb (r : Requester) (ring : Fin 64) (s : State) : Out :=
  .next (s.guarded r Reg.PLT_RDB fun s => s.rdbWrite (BitVec.ofNat 32 (ring + 256)))

/-! ### Watchdogs and adoption (R427 to R433) -/

/-- Core `c` restarts its watchdog's count (R427, R434). -/
def State.kick (s : State) (c : Nat) : State :=
  let s : State := { s with fw := { s.fw with kicks := tset (fun _ => 0) s.fw.kicks c s.cycle } }
  s.setFld (Reg.PLT_WDOG c) Fd.PLT_WDOG_LEFT 50

/-- KICK (R427, R434): core `c` restarts its count; the hardware clears the bit. -/
def execKick (c : Fin 4) (s : State) : Out := if s.up then .next (s.kick c) else .next s

/-- What ring `r` gets with a new owner, or again from its owner after a restart (R429): PLT_ROWN, the header, INTERRUPTED
completions. -/
def State.takeRing (s : State) (r owner : Nat) : State :=
  let old := s.ringOwner r
  let s := (s.setFld (Reg.PLT_ROWN r) Fd.PLT_ROWN_OWNER owner).setFld (Reg.PLT_ROWN r) Fd.PLT_ROWN_FTIMER 0
  match s.session r with
  | none => s
  | some x =>
    let e := (s.hdr x.hdr 44 2 + 1) % 2 ^ 16
    let s := (s.setHdr x.hdr 5 1 owner).setHdr x.hdr 44 2 e
    let s := (s.interrupt r).showRing r
    if old = owner then s else s.tracePt 0x032 [r, old, owner, e]

/-- A checkpoint drain restarts from its first segment into the same slot (R433). -/
def State.restartDrain (s : State) : State :=
  match s.fw.drain with
  | none => s
  | some d => s.drainStart d.buddy d.slot d.seq

/-- The core that takes up the module's duties reads the verdict of a HELD root and notifies the client (R378, R428). -/
def State.seeVerdict (s : State) : State :=
  if s.isRoot && s.tideSt == 3 && s.fld Reg.TIDE_BCN_VERDICT Fd.TIDE_BCN_VERDICT_VERDICT == 4 then s.notify 3 s.tideNum else s

/-- What core `c` takes up when it serves: its mailboxes, and where it takes up the module's duties, the drain that was interrupted
(R433) and the verdict of a HELD root. -/
def State.takeUp (s : State) (c : Nat) (duty : Bool) : State :=
  let s := (List.range 8).foldl (fun s m => if s.mbxOwner m = c then s.serveMbx m else s) s
  if duty then s.restartDrain.seeVerdict else s

/-- Answers INTERRUPTED to the URGENT commands of the mailboxes that core `c` serves: its reset lost them. -/
def State.loseUrgent (s : State) (c : Nat) : State :=
  (s.fw.cmds.filter fun x => match x.src with | .urgent m => s.mbxOwner m == c | .ring .. => false).foldl
    (fun s x => s.finishCmd x (0x0A, 0, 0)) s

/-- Core `c` is reset (R427): READY clears, its TCM is cleared, what it held is lost, and its rings show HELD. -/
def State.resetCore (s : State) (c : Nat) : State :=
  (((s.loseUrgent c).setFld (Reg.PLT_CORE c) Fd.PLT_CORE_READY 0).zeroFill (0x100000 + c * 0x40000) 0x40000).holdRings c

/-- The boot begins again (R469): no stage has failed yet, no image is measured, and no Island is bound or tested (DESIGN CHOICE, log
entry 131). -/
def State.bootAgain (s : State) : State :=
  let s := [Fd.BOOT_STATUS_ID_FAIL, Fd.BOOT_STATUS_ISTHMUS, Fd.BOOT_STATUS_MEMORY, Fd.BOOT_STATUS_ISLANDS,
    Fd.BOOT_STATUS_SHORE].foldl (fun s f => s.setFld Reg.BOOT_STATUS f 0) s
  let s := (List.range 144).foldl (fun s p => if s.pstate p = 2 then s.setPstate p 0 else s) s.unbindAll
  { s with boot := { s.boot with meas := [] } }

/-- WATCHDOG_EXPIRY (R427, R428, R469): core `c` is reset, every ready core is interrupted, its rings start their fence timers. Before stage READY a
reset of core 0 restarts the boot, the third time into RECOVERY. -/
def State.watchdog (s : State) (c : Nat) : State :=
  let s := s.resetCore c
  let a := Reg.PLT_CORE c
  let s := (s.setFld a Fd.PLT_CORE_RESTARTS (min 0xFF (s.fld a Fd.PLT_CORE_RESTARTS + 1))).setFld a Fd.PLT_CORE_EXPIRED 1
  let s := s.readyCores.foldl (fun s d => s.interruptCore .pilotRestart c d) s
  let s := (List.range 64).foldl (fun s r => if s.ringOwner r = c then s.setFld (Reg.PLT_ROWN r) Fd.PLT_ROWN_FTIMER 1 else s) s
  let s := s.tracePt 0x030 [c]
  if s.bit Reg.BOOT_STATUS Fd.BOOT_STATUS_READY ∨ s.bit Reg.BOOT_STATUS Fd.BOOT_STATUS_RECOVERY ∨ c ≠ 0 then s
  else
    let n := s.fld Reg.BOOT_STATUS Fd.BOOT_STATUS_RESTARTS + 1
    let s := ((s.setFld Reg.BOOT_STATUS Fd.BOOT_STATUS_RESTARTS n).setFld Reg.BOOT_STATUS Fd.BOOT_STATUS_STAGE 1).bootAgain
    if 3 ≤ n then s.setFld Reg.BOOT_STATUS Fd.BOOT_STATUS_RECOVERY 1 else s

/-- WATCHDOG_EXPIRY: 50 ms without a kick of a core whose READY is 1, or of core 0 while the module boots (R427, R469). -/
def execWatchdogExpiry (c : Fin 4) (s : State) : Out :=
  let boots := c.val == 0 && !s.bit Reg.BOOT_STATUS Fd.BOOT_STATUS_READY && !s.bit Reg.BOOT_STATUS Fd.BOOT_STATUS_RECOVERY
  if s.up && (s.coreReady c || boots) then .next (s.watchdog c) else .next s

/-- Core `c` writes READY = 1 and takes up the rings that PLT_ROWN still gives to it (R427, R429, R430). -/
def State.coreServes (s : State) (c : Nat) : State :=
  let s := (s.setFld (Reg.PLT_CORE c) Fd.PLT_CORE_READY 1).kick c
  let s := (List.range 64).foldl (fun s r => if s.ringOwner r = c then s.takeRing r c else s) s
  (s.tracePt 0x031 [c, s.fld (Reg.PLT_CORE c) Fd.PLT_CORE_RESTARTS]).takeUp c (s.fw.duty == c)

/-- READY (R427, R429, R430): a core that serves again writes READY = 1. -/
def execReady (c : Fin 4) (s : State) : Out := if s.coreReady c || !s.up then .next s else .next (s.coreServes c)

/-- Gives the open rings of core `c` out, each to the ready core that owns the fewest at that moment (R429). -/
def State.giveRings (s : State) (c : Nat) : State :=
  (s.openRings.filter fun r => s.ringOwner r == c).foldl (fun s r => match s.leastCore with
    | some d => s.takeRing r d
    | none => s) s

/-- Mailboxes, Quarters' events and duties of core `c` go to core `d` (R391, R429). -/
def State.giveDuties (s : State) (c d : Nat) : State :=
  let s := (List.range 8).foldl (fun s m =>
    if s.mbxOwner m ≠ c then s
    else
      let w := s.fld Reg.PLT_MOWN Fd.PLT_MOWN_OWNER
      (s.setFld Reg.PLT_MOWN Fd.PLT_MOWN_OWNER (w - c * 4 ^ m + d * 4 ^ m)).tracePt 0x032 [64 + m, c, d, 0]) s
  { s with fw := { s.fw with
    duty := if s.fw.duty = c then d else s.fw.duty
    qcore := s.fw.qcore.map fun x => if x = c then d else x } }

/-- RING_ADOPTION (R429): 50 ms after core `c`'s watchdog expired it is still not ready; the lowest ready core adopts its
work. -/
def execRingAdoption (c : Fin 4) (s : State) : Out :=
  if s.coreReady c || s.fld (Reg.PLT_CORE c) Fd.PLT_CORE_RESTARTS == 0 then .next s
  else match s.readyCores with
    | [] => .next s
    | d :: _ => .next (((s.giveDuties c d).giveRings c).takeUp d (s.fw.duty == c))

/-- PLT_ROWN_WRITE (R430): core `c` writes OWNER. A core that is not the named owner has effect only while that owner is not
ready, and a ring moves between ready cores only with no command in flight. -/
def State.rownWrite (s : State) (c r owner : Nat) : State :=
  let old := s.ringOwner r
  let busy := match s.session r with | some x => s.coreReady old && !(s.inflightBits x.hdr).isEmpty | none => false
  if (c != old && s.coreReady old) || busy || owner == old then s
  else if s.coreReady owner then s.takeRing r owner
  else (s.setFld (Reg.PLT_ROWN r) Fd.PLT_ROWN_OWNER owner).showRing r

/-- PLT_ROWN_WRITE (R430). -/
def execPltRownWrite (c : Fin 4) (ring : Fin 64) (owner : Fin 4) (s : State) : Out :=
  if s.up then .next (s.rownWrite c ring owner) else .next s

/-- The commands in flight of a fenced context complete with INTERRUPTED where a core serves them (R431): those of its rings, and
those that came as URGENT. -/
def State.fenceCmds (s : State) (ctx : Nat) : State :=
  let s := ((s.ctxRings ctx).filter fun r => s.coreReady (s.ringOwner r)).foldl State.interrupt s
  (s.fw.cmds.filter fun c => match c.src with
    | .urgent m => c.ctx == ctx && c.opc != 0x0105 && c.res.isNone && s.coreReady (s.mbxOwner m)
    | .ring .. => false).foldl (fun s c => s.finishCmd c (0x0A, 0, 0)) s

/-- FENCE_TIMER_EXPIRY (R431): 500 ms after it started, the ring's owner is still not ready; the context is fenced, and the
firmware records it, notifies the clients and reports it to the manager. -/
def execFenceTimerExpiry (ring : Fin 64) (s : State) : Out :=
  let a := Reg.PLT_ROWN ring
  match s.session ring with
  | none => .next s
  | some x =>
    if !s.bit a Fd.PLT_ROWN_FTIMER || s.coreReady (s.ringOwner ring) then .next s
    else
      let s := s.setFld a Fd.PLT_ROWN_FTIMER 0
      let s := s.setReg Reg.PLT_CTXF (s.reg Reg.PLT_CTXF ||| BitVec.ofNat 32 (2 ^ x.ctx))
      let s := ((s.ctxRings x.ctx).foldl State.showRing s).fenceCmds x.ctx
      let s := (s.tracePt 0x033 [x.ctx, 1]).log 8 (leBytes 1 2 ++ leBytes 1 ring ++ leBytes 2 x.ctx)
      .next (((s.notify 1 x.ctx).report (.other 0x431) x.ctx ring 0).toManager none 7 (leBytes 2 x.ctx ++ leBytes 1 ring))

/-- NO_READY_PILOT (R432): for 500 ms no core was ready; the hardware writes FAILNOW. -/
def execNoReadyPilot (s : State) : Out :=
  if s.readyCores.isEmpty && s.loaded then settled (s.failHere 6) else .next s

/-! ### Shore cores (R435) -/

/-- Resets Shore cores. -/
def State.resetShore (s : State) (cores : Nat) : State :=
  let a := s.reg Reg.SHR_RST ||| BitVec.ofNat 32 (cores % 2 ^ 16)
  (s.setReg Reg.SHR_RST a).setReg Reg.SHR_STATUS (s.reg Reg.SHR_STATUS &&& ~~~a)

/-- SHR_RST: a write of 1 to the bits of Shore cores. -/
def execShrRst (r : Requester) (cores : BitVec 16) (s : State) : Out :=
  .next (s.guarded r Reg.SHR_RST fun s => s.resetShore cores.toNat)

/-- SHORE_RESTART_DONE (R435): the core has restarted; the hardware clears its bit. -/
def execShoreRestartDone (core : Fin 16) (s : State) : Out :=
  let b := BitVec.ofNat 32 (2 ^ core.val)
  if s.reg Reg.SHR_RST &&& b = 0 then .next s
  else .next ((s.setReg Reg.SHR_RST (s.reg Reg.SHR_RST &&& ~~~b)).setReg Reg.SHR_STATUS (s.reg Reg.SHR_STATUS ||| b))

end Sys2Proof.Machine
end

