-- ==== Sys2Proof/Machine/Flash.lean ====
section
/-! DEFINITION. Configuration blocks and index-log records in the two NOR flash devices (R478, R484 to R488): how they are
read, when they are valid, and how the firmware writes one (as one step, log entry 25). -/

namespace Sys2Proof.Machine

/-- Base address of flash copy `c` (R484). -/
def flashBase (c : Nat) : Nat := 0x20000000 + c * 0x8000000

/-- Flash offset of the slot of a block type (R484, R485). -/
def slotOff (t : Nat) : Nat :=
  [0x0000000, 0x4200000, 0x4240000, 0x4250000, 0x4260000, 0x42A0000, 0x42C0000, 0x5200000].getD t 0

/-- Size of the slot of a block type. -/
def slotSize (t : Nat) : Nat := [0x10000, 0x40000, 0x10000, 0x10000, 0x40000, 0x20000, 0x10000, 0x500000].getD t 0

/-- Address of the slot of block type `t` in copy `c`. -/
def slotAt (c t : Nat) : Nat := flashBase c + slotOff t

/-- SEQ of a block. -/
def State.blkSeq (s : State) (c t : Nat) : Nat := s.memNat (slotAt c t + 8) 8
/-- LENGTH of a block. -/
def State.blkLen (s : State) (c t : Nat) : Nat := s.memNat (slotAt c t + 16) 4

/-- Whether copy `c` of block type `t` is valid (R486). -/
def State.blkValid (s : State) (c t : Nat) : Bool :=
  let a := slotAt c t
  s.memNat a 4 == 0x4B4C4243 && s.memNat (a + 4) 1 == t && s.memNat (a + 5) 1 == 1 && s.memNat (a + 28) 4 == 0
    && decide (s.blkLen c t + 32 ≤ slotSize t)
    && s.memNat (a + 20) 4 == crc32 (s.bytes a 20 ++ s.bytes (a + 32) (s.blkLen c t))

/-- The copy of a block type that is used: the valid one with the higher SEQ, copy A on equal SEQ (R486). -/
def State.blkCopy (s : State) (t : Nat) : Option Nat :=
  match s.blkValid 0 t, s.blkValid 1 t with
  | true, true => if s.blkSeq 0 t < s.blkSeq 1 t then some 1 else some 0
  | true, false => some 0
  | false, true => some 1
  | false, false => none

/-- Payload of the block of a type that is used, empty for none. -/
def State.blkPayload (s : State) (t : Nat) : List Byte :=
  match s.blkCopy t with
  | some c => s.bytes (slotAt c t + 32) (s.blkLen c t)
  | none => []

/-- The copy that a write of a block goes to (R487). -/
def State.blkTarget (s : State) (t : Nat) : Nat :=
  if !s.blkValid 0 t then 0
  else if !s.blkValid 1 t then 1
  else if s.blkSeq 1 t < s.blkSeq 0 t then 1 else 0

/-- SEQ of the next write of a block type: one above the highest valid one (R487). -/
def State.blkNext (s : State) (t : Nat) : Nat :=
  max (if s.blkValid 0 t then s.blkSeq 0 t else 0) (if s.blkValid 1 t then s.blkSeq 1 t else 0) + 1

/-- Erases flash from address `a`, `n` bytes: they read 0xFF (R484). -/
def State.flashErase (s : State) (a n : Nat) : State :=
  { s with mem := s.mem.filter fun c => !(decide (a ≤ c.1) && decide (c.1 < a + n)) }

/-- Programs flash: bits can only go from 1 to 0. -/
def State.flashProg (s : State) (a : Nat) : List Byte → State
  | [] => s
  | b :: bs => (s.setByte a (s.byte a &&& b)).flashProg (a + 1) bs

/-- The bytes of a committed block. -/
def blockBytes (t seq : Nat) (payload : List Byte) : List Byte :=
  let h := leBytes 4 0x4B4C4243 ++ leBytes 1 t ++ leBytes 1 1 ++ leBytes 2 0 ++ leBytes 8 seq ++ leBytes 4 payload.length
  h ++ leBytes 4 (crc32 (h ++ payload)) ++ leBytes 4 0xFFFFFFFF ++ leBytes 4 0 ++ payload

/-- Writes a block into a given copy with a given SEQ. -/
def State.writeBlockAt (s : State) (c t seq : Nat) (payload : List Byte) : State :=
  (s.flashErase (slotAt c t) (slotSize t)).flashProg (slotAt c t) (blockBytes t seq payload)

/-- Writes a block to the target copy (R487). -/
def State.writeBlock (s : State) (t : Nat) (payload : List Byte) : State :=
  s.writeBlockAt (s.blkTarget t) t (s.blkNext t) payload

/-- Invalidates a block of a copy by erasing its slot. -/
def State.eraseBlock (s : State) (c t : Nat) : State := s.flashErase (slotAt c t) (slotSize t)

/-! ### Index log (R478, R479) -/

/-- Address of record `i` (of 32,768) of the index log of copy `c`. -/
def idxAddr (c i : Nat) : Nat := flashBase c + 0x100000 + 32 * i

/-- Whether a record of an index log is valid (R478, R486). -/
def State.idxValid (s : State) (c i : Nat) : Bool :=
  let a := idxAddr c i
  s.memNat a 4 == 0x58444E49 && s.memNat (a + 28) 4 == 0 && s.memNat (a + 24) 4 == crc32 (s.bytes a 24)

/-- The records of the index log of a copy that are not erased, in place order. -/
def State.idxUsed (s : State) (c : Nat) : List Nat :=
  ((s.mem.filter fun e => decide (idxAddr c 0 ≤ e.1) && decide (e.1 < idxAddr c 32768)).map fun e =>
    (e.1 - idxAddr c 0) / 32).dedup

/-- The current record: SEQ, LIMIT, copy, place (R478). -/
def State.idxCurrent (s : State) : Option (Nat × Nat × Nat × Nat) :=
  let all := ([0, 1].flatMap fun c => ((s.idxUsed c).filter (s.idxValid c)).map fun i =>
    (s.memNat (idxAddr c i + 8) 8, s.memNat (idxAddr c i + 16) 8, c, i))
  all.foldl (fun b r => match b with
    | none => some r
    | some x => if x.1 < r.1 then some r else some x) none

/-- The place after the newest valid record of the log of a copy (R479). -/
def State.idxPlace (s : State) (c : Nat) : Nat :=
  let l := (s.idxUsed c).filter (s.idxValid c)
  match l.foldl (fun b i => match b with
    | none => some i
    | some j => if s.memNat (idxAddr c j + 8) 8 < s.memNat (idxAddr c i + 8) 8 then some i else some j) (none : Option Nat) with
  | some i => (i + 1) % 32768
  | none => 0

/-- The bytes of a committed index record. -/
def idxRecord (seq limit : Nat) : List Byte :=
  let h := leBytes 4 0x58444E49 ++ leBytes 4 0 ++ leBytes 8 seq ++ leBytes 8 limit
  h ++ leBytes 4 (crc32 h) ++ leBytes 4 0

/-- Appends a record to the log of a copy. With the first record of a sector the next sector is erased, so that it is blank before
its own first record and while this one is at most half full (R479); a sector that is not blank yet is erased at its own. -/
def State.idxAppend (s : State) (c seq limit : Nat) : State :=
  let i := s.idxPlace c
  let s := if i % 2048 = 0 then
      (s.flashErase (idxAddr c i) 0x10000).flashErase (idxAddr c ((i + 2048) % 32768)) 0x10000
    else s
  s.flashProg (idxAddr c i) (idxRecord seq limit)

end Sys2Proof.Machine
end

