-- ==== Sys2Proof/Machine/Suite.lean ====
section
/-! DEFINITION. Test packs and test cases (R436 to R438, R440, R457, R458): the case table, the operands that the firmware
generates, their way to the Island under test, and the firmware's check of what a case put out. -/

namespace Sys2Proof.Machine

/-- A number in a payload. -/
def payNat (p : List Byte) (off n : Nat) : Nat := leNat ((p.drop off).take n)

/-! ### The case table (R457) -/

/-- Entry `i` of the case table of a pack, as case number `num`. -/
def packCase (bs : List Byte) (num i : Nat) : TestCase :=
  let e := 64 + 64 * i
  let part (o : Nat) : List Byte := (bs.drop (payNat bs (e + o) 4)).take (payNat bs (e + o + 4) 4)
  { num := num, kind := payNat bs e 1, level := payNat bs (e + 1) 1, target := payNat bs (e + 2) 1
    prog := part 4, refs := part 12, opd := part 20, seed := payNat bs (e + 32) 8, digest := payNat bs (e + 40) 8 }

/-- The cases of a pack, numbered from `first`. -/
def packCases (bs : List Byte) (first : Nat) : List TestCase :=
  (List.range (min 4096 (payNat bs 24 4))).map fun i => packCase bs (first + i) i

/-- Whether a case is compared as a digest: XCHK and PATTERN-XCHK. -/
def TestCase.xchk (c : TestCase) : Bool := c.kind == 2 || c.kind == 4

/-- Whether a case belongs to a suite: level 1 SHORT, 2 FULL. -/
def TestCase.atLevel (c : TestCase) (level : Nat) : Bool := c.level / level % 2 == 1

/-- A test session begins: its cases are the built-in ones and those of the pack installed now (R458). The built-in section has the
layout of a pack, and the cases of a pack are numbered from 0x8000 (DESIGN CHOICE, log entry 125). -/
def State.newSession (s : State) : State :=
  { s with fw := { s.fw with
    suite := packCases s.fw.builtin 0 ++ packCases (s.blkPayload 7) 0x8000
    suiteSeq := s.fw.hist.packSeq } }

/-- A test joins the session that runs, or begins one where no Island is under test. -/
def State.joinSession (s : State) : State := if s.fw.underTest.isEmpty then s.newSession else s

/-! ### Operands (R436 to R438) -/

/-- The random word of an element of a case. -/
def TestCase.word (c : TestCase) (i : Nat) : Nat :=
  (philox c.num (i % 2 ^ 32) (i / 2 ^ 32) 0 (c.seed % 2 ^ 32) (c.seed / 2 ^ 32)).getD 0 0

/-- An operand element of a CSUM case: an integer from −3 to 3, in MXFP4 an E2M1 value of magnitude at most 3 (R437). Which word
gives which value is the model's (DESIGN CHOICE, log entry 125). -/
def csumElem (fmt w : Nat) : Nat :=
  let v : Int := (w % 7 : Nat) - 3
  match fmt with
  | 6 => w % 6 + 8 * (w / 6 % 2)
  | 7 => toPat 8 v
  | 8 => toPat 32 v
  | f => narrow f false .rne (.ofInt v)

/-- An operand element of an XCHK case: random bits, with +0 for every NaN and infinity (R438). -/
def xchkElem (fmt w : Nat) : Nat :=
  let p := w % 2 ^ fmtBits fmt
  if decide (fmt ≤ 4) && (decodeFmt fmt p).nonfin then 0 else p

/-- An operand tensor of `n` elements from element index `i0` on: its elements, and for an MX format its scales, each 64-byte
aligned. -/
def TestCase.tensor (c : TestCase) (i0 fmt n : Nat) : List Byte :=
  let e (i : Nat) : Nat := if c.kind = 1 then csumElem fmt (c.word (i0 + i)) else xchkElem fmt (c.word (i0 + i))
  let nb := (n + 31) / 32
  let line (bs : List Byte) : List Byte := bs ++ List.replicate ((64 - bs.length % 64) % 64) 0
  if fmtIsMx fmt then
    line ((List.range nb).flatMap fun b => mxPack fmt ((List.range 32).map fun j => e (32 * b + j)))
      ++ line ((List.range nb).map fun b =>
        BitVec.ofNat 8 (if c.kind = 1 then 0x7F else 0x70 + c.word (i0 + n + b) % 32))
  else line ((List.range n).flatMap fun i => leBytes (fmtBytes fmt) (e i))

/-- The operand tensors of a generated case: a format and a number of elements for each. The case table does not give them; the
model finds them in the operand data, 16 bytes each, which R457 gives to the PATTERN kinds only (DESIGN CHOICE, log entry 125). -/
def TestCase.tensors (c : TestCase) : List (Nat × Nat) :=
  (List.range (c.opd.length / 16)).map fun i => (payNat c.opd (16 * i) 1, payNat c.opd (16 * i + 8) 8)

/-- The operands of a case: generated from its seed, or carried in the pack. -/
def TestCase.operands (c : TestCase) : List Byte :=
  if c.kind ≤ 2 then (c.tensors.foldl (fun (a : Nat × List Byte) t =>
    (a.1 + t.2 + (if fmtIsMx t.1 then (t.2 + 31) / 32 else 0), a.2 ++ c.tensor a.1 t.1 t.2)) (0, [])).2
  else c.opd

/-- Where the operands of the `i`-th case of the session lie in HBM3E: below the firmware's own area (log entry 35). -/
def caseStage (i : Nat) : Nat := caseArea + 0x200000 * i

/-- The operands of every case are written to HBM3E, once per start-up (R436). -/
def State.stageCases (s : State) : State :=
  s.fw.suite.zipIdx.foldl (fun s c => (s.writeMem (caseStage c.2) c.1.operands 9 0xFF).2) s

/-- The `i`-th case of the session is prepared on physical Island `p` (R436, R441): its contexts get module context 15, its program
goes to program memory, and the staged operands to the start of the Lagoon slice. -/
def State.loadCase (s : State) (p i : Nat) (c : TestCase) : State :=
  let s := (s.setFld (Reg.ISL_SEQ_CTXID p 0) Fd.ISL_SEQ_CTXID_CTX 15).setFld (Reg.ISL_SEQ_CTXID p 1) Fd.ISL_SEQ_CTXID_CTX 15
  let s := (s.writeMem (progBase p) (c.prog.take 0x40000) 9 0xFF).2
  (s.writeMem (lagBase p) (s.bytes (caseStage i) (min c.operands.length 0x800000)) 6 0xFF).2

/-! ### The check (R437, R438) -/

/-- The FP32 sums of the segments of a drained matrix: `n` segments of `k` elements from element `o` on (SEGRED with ADD). -/
def segSums (out : List Byte) (o n k : Nat) : List Nat :=
  (List.range n).map fun j => (List.range k).foldl (fun v i => f32Add v (payNat out (4 * (o + k * j + i)) 4)) 0

/-- eᵀC and Ce of a CSUM case of `m` by `n` elements: the output holds C, then Cᵀ, which the drain with OUT_T = 1 gives. -/
def caseSums (m n : Nat) (out : List Byte) : List Nat := segSums out (m * n) n m ++ segSums out 0 m n

/-- The first element of the sums that differs from the reference vectors, none when every one is equal. -/
def TestCase.differs (c : TestCase) (m : Nat) (out : List Byte) : Option Nat :=
  let n := c.refs.length / 4 - m
  (caseSums m n out).zipIdx.findSome? fun e => if payNat c.refs (4 * e.2) 4 = e.1 then none else some e.2

/-- The digest of a case's output regions: the first 8 bytes of SHAKE256. -/
def outDigest (out : List Byte) : Nat := leNat (shake256 out 8)

/-- Whether a run of a case passes, by what it put out; `m` is the number of rows of a CSUM case. -/
def TestCase.passes (c : TestCase) (m : Nat) (out : List Byte) : Bool :=
  if c.xchk then outDigest out == c.digest else (c.differs m out).isNone

/-- What a record shows of a failed run: the digest, or the first differing element (R461). -/
def TestCase.detail (c : TestCase) (m : Nat) (out : List Byte) : Nat :=
  if c.xchk then outDigest out else (c.differs m out).getD 0

/-- The run of a case on the unit of a UNIT word, where the command names one. -/
def runOf (runs : List (BitVec 16 × CaseRun)) (unit num : Nat) : Option CaseRun :=
  (runs.find? fun r => r.1.toNat == unit && r.2.case.toNat == num).map (·.2)

/-- The digest that a unit produced: the reference where the command names no run of it. -/
def TestCase.digestOf (c : TestCase) (runs : List (BitVec 16 × CaseRun)) (unit : Nat) : Nat :=
  match runOf runs unit c.num with
  | some r => outDigest r.first
  | none => c.digest

/-- The digest that more than half of the units of the session produced, if it is not the reference (R439). -/
def badMajority (digests : List Nat) (reference : Nat) : Option Nat :=
  digests.find? fun d => d != reference && decide (digests.length < 2 * digests.count d)

end Sys2Proof.Machine
end

