-- ==== Sys2Proof/Machine/History.lean ====
section
/-! DEFINITION. Fault handling by the firmware (chapter 15): history and thresholds (R448 to R452), due and forced tests (R453
to R455), test cases (R436 to R440), fault records (R461) and their export (R463, R464). -/

namespace Sys2Proof.Machine

/-! ### The history block -/

/-- ONTIME of physical Island `p`'s last FULL pass. -/
def State.lastPass (s : State) (p : Nat) : Nat := tget (fun _ => 0) s.fw.hist.lastpass p

/-- A FULL pass of Island `p`. -/
def State.setLastPass (s : State) (p : Nat) : State :=
  s.setHist { s.fw.hist with lastpass := tset (fun _ => 0) s.fw.hist.lastpass p (s.ontime % 2 ^ 32), dirty := true }

/-- Whether an entry's type can be counted for its unit's class (R449). -/
def countedType (unit cls typ code : Nat) : Bool :=
  match unit / 4096 with
  | 1 => (cls == 3 && ([2, 3, 4, 5, 7].contains typ || (typ == 1 && code == 0x0B))) || (cls == 1 && (typ == 2 || typ == 5))
  | 3 => cls == 1 && (typ == 2 || typ == 5)
  | 4 => cls == 1 && (typ == 2 || typ == 5)
  | 5 => cls == 4 && (typ == 4 || typ == 5)
  | 6 => cls == 4 && (typ == 9 || typ == 10)
  | 7 => cls == 4 && (typ == 7 || typ == 8)
  | 9 => cls == 3 && typ == 7
  | _ => false

/-- The window of a unit in seconds: ISL_WIN days (R449). -/
def State.window (s : State) : Nat := s.policy 5 1 * 86400

/-- The threshold that applies to an event of a unit (R449), 0 where none does: a confirmed test failure reaches it at once. -/
def State.threshold (s : State) (unit cls typ : Nat) : Nat :=
  match unit / 4096 with
  | 1 => if cls = 3 ∧ typ = 4 then 1 else s.policy 4 1
  | 3 => s.policy 7 1
  | 4 => s.policy 7 1
  | 5 => s.policy 6 1
  | 6 => s.policy 6 1
  | 7 => s.policy 6 1
  | 9 => s.policy 8 1
  | _ => 0

/-- The counted entries of a unit inside the window. -/
def State.countedIn (s : State) (unit : Nat) : Nat :=
  s.fw.hist.ents.countP fun e =>
    e.unit == unit && countedType unit e.cls e.typ e.code && !e.again && decide (s.ontime ≤ e.ontime + s.window)

/-- Whether an event is of a repeat that failed: FUU_HARD, ADDER_HARD or ISTHMUS_HARD. -/
def isHard (cls typ : Nat) : Bool := cls == 4 && (typ == 5 || typ == 8 || typ == 10)

/-- Whether an event that counts reaches its threshold (R449): a HARD event does so by itself. -/
def State.reaches (s : State) (unit cls typ : Nat) : Bool :=
  isHard cls typ || decide (s.threshold unit cls typ ≤ s.countedIn unit)

/-- The entry that gives way when the block is full (R448). -/
def State.victim (s : State) : Option HistEnt :=
  let l := s.fw.hist.ents
  match l.find? fun e => !decide (s.ontime ≤ e.ontime + s.window) with
  | some e => some e
  | none => match l.find? fun e => !countedType e.unit e.cls e.typ e.code with
    | some e => some e
    | none => l.head?

/-- Adds a history entry (R448). -/
def State.addEnt (s : State) (e : HistEnt) : State :=
  let h := s.fw.hist
  let l := if h.ents.length < 4096 then h.ents else match s.victim with
    | some v => h.ents.erase v
    | none => h.ents
  s.setHist { h with ents := l ++ [e], dirty := true }

/-! ### Swaps for retirement and due tests (R450, R454) -/

/-- Whether the firmware can start a swap now. -/
def State.swapIdle (s : State) : Bool :=
  s.loaded && !s.bit Reg.ISL_SWAP_CTL Fd.ISL_SWAP_CTL_GO && !s.bit Reg.ISL_SWAP_CTL Fd.ISL_SWAP_CTL_HOLD

/-- The firmware writes ISL_SWAP_CTL for a swap of `src` with an AFTER code. -/
def State.beginSwap (s : State) (src dst after : Nat) : State :=
  s.swapCtlWrite (BitVec.ofNat 32 (src + dst * 2 ^ 8 + 2 ^ 16 + after * 2 ^ 20))

/-- Starts the next retirement swap that can start; an Island that is no longer ACTIVE leaves the list. -/
def State.serveRetire (s : State) : State :=
  let l := s.fw.retireSwap.filter fun p => s.pstate p == 1
  let s : State := { s with fw := { s.fw with retireSwap := l } }
  if !s.swapIdle then s
  else match l.find? fun p => !s.pinned p && (s.freeSpare p).isSome with
    | none => s
    | some p => match s.freeSpare p with
      | some d => s.beginSwap p d 2
      | none => s

/-! ### Records and export -/

/-- SEV of a fault record (R461). -/
def sevOf (cls typ : Nat) : Nat :=
  if cls = 3 then (if [6, 8, 9, 10, 12].contains typ then 3 else 1)
  else if cls = 4 then
    (if [4, 7, 9].contains typ then 0 else if [5, 6, 8, 10].contains typ then 2 else 1)
  else if correctable cls typ then 0 else 1

/-- The body of a fault record (R461): HCOUNT and HTHR are those of the record's unit as it is written. -/
def State.faultBody (s : State) (e : FaultEvent) (action : Nat) : List Byte :=
  let unit := e.unit.toNat
  leBytes 1 e.typ.toNat ++ leBytes 1 (sevOf e.cls.toNat e.typ.toNat) ++ leBytes 2 unit ++ leBytes 1 e.lisl.toNat
    ++ leBytes 1 e.sctx.toNat ++ leBytes 2 e.code.toNat ++ leBytes 4 s.tideWord ++ leBytes 4 e.info.toNat
    ++ leBytes 8 e.detail0.toNat ++ leBytes 8 e.detail1.toNat ++ leBytes 1 (min 0xFF (s.countedIn unit))
    ++ leBytes 1 (s.threshold unit e.cls.toNat e.typ.toNat) ++ leBytes 1 action ++ leBytes 5 0 ++ leBytes 8 s.ontime

/-- Writes and exports an Island or engine record (R461, R464). -/
def State.faultRecord (s : State) (e : FaultEvent) (action : Nat) : State :=
  let b := s.faultBody e action
  (s.log e.cls.toNat b).exportRec e.cls.toNat (sevOf e.cls.toNat e.typ.toNat) b

/-- Exports the summary records of correctable events, one per unit, at each hour of powered-on time (R464). -/
def State.exportSummaries (s : State) : State :=
  let l := s.fw.corr
  let s : State := { s with fw := { s.fw with corr := [] } }
  l.foldl (fun s e =>
    let cls := e.1 / 2 ^ 24
    let typ := e.1 / 2 ^ 16 % 256
    let unit := e.1 % 2 ^ 16
    s.exportRec cls 0 (leBytes 1 typ ++ leBytes 1 (if cls = 1 then (if unit / 4096 = 1 then 0 else unit / 4096 - 2) else unit % 16)
      ++ leBytes 2 (if cls = 1 then unit % 4096 else 0xF) ++ leBytes 4 e.2)) s

/-! ### Actions (R450, R451) -/

/-- Retires an Island (R450): at once from SPARE or TESTING, by a swap from ACTIVE. Without a free spare it keeps running, and
REPLACE is set when its Quarter would fall short; a pinned one is recorded under PLACEMENT (R419). -/
def State.retire (s : State) (p typ : Nat) : State :=
  let s := s.setRet p
  let s := s.setHist { s.fw.hist with dirty := true, urgent := true }
  let s := s.faultRecord (islEvent p 8 typ 0 0) 1
  let st := s.pstate p
  if st = 2 ∨ st = 3 then
    ({ s with fw := { s.fw with underTest := s.fw.underTest.filter (· != p) } } : State).testCtlWrite (testWord p 3)
  else if st ≠ 1 then s
  else
    let s : State := { s with fw := { s.fw with retireSwap := s.fw.retireSwap ++ [p] } }
    let s := if s.pinned p then s.log 6 (leBytes 2 p ++ leBytes 2 (s.logicalOf p)) else s
    let s := if (s.freeSpare p).isNone && s.fallsShort (quarterOf p) then s.setReplace else s
    s.serveRetire

/-- Adds the row of an uncorrectable HBM3E error to the spare map for soft repair at the next boot (R449); the place of rows in
the SPARE block is the model's (log entry 26). -/
def State.spareRow (s : State) (a : Nat) : State :=
  match region a with
  | .hbm k =>
    let p := s.blkPayload 4
    let p := p ++ List.replicate (32 - p.length) 0xF#8
    let p := p ++ List.replicate (32 + 8 * 2048 - p.length) 0xFF#8
    let row := leBytes 8 (a - hbmBase k)
    let at' (i : Nat) : Nat := 32 + 2048 * k + 8 * i
    match (List.range 256).find? fun i => leNat ((p.drop (at' i)).take 8) == 2 ^ 64 - 1 with
    | some i => s.writeBlock 4 (p.take (at' i) ++ row ++ p.drop (at' i + 8))
    | none => s
  | _ => s

/-- Whether events of a kind count once per codeword address per Tide (R449): uncorrectable errors of HBM3E and LPDDR5X. -/
def onceInTide (unit cls typ : Nat) : Bool := cls == 1 && (typ == 2 || typ == 5) && (unit / 4096 == 3 || unit / 4096 == 4)

/-- What tells such an event from others of its Tide: UNIT, TYPE and codeword address. -/
def seenKey (e : FaultEvent) : Nat × Nat × Nat := (e.unit.toNat, e.typ.toNat, e.detail0.toNat)

/-- Whether the Tide has counted the event already (R449). -/
def State.seenInTide (s : State) (e : FaultEvent) : Bool :=
  onceInTide e.unit.toNat e.cls.toNat e.typ.toNat && s.fw.seen.contains (seenKey e)

/-- The action that a reached threshold takes: 1 retire, 3 module replacement, 0 while one is pending already (R449, R452). -/
def State.thrAction (s : State) (unit : Nat) : Nat :=
  if unit / 4096 = 1 then (if s.retBit (unit % 4096) then 0 else 1) else if s.fw.hist.replace then 0 else 3

/-- The code that a history entry keeps: bits [37:6] of the address for memory records (R448). -/
def entCode (e : FaultEvent) : Nat :=
  if e.cls = 1 then e.detail0.toNat / 64 % 2 ^ 32 else e.code.toNat

/-- The event enters the history (R448, R452): every event does, one that its Tide has counted already without counting again. -/
def State.noteEvent (s : State) (e : FaultEvent) : State :=
  let again := s.seenInTide e
  let s := s.addEnt { unit := e.unit.toNat, typ := e.typ.toNat, cls := e.cls.toNat, ontime := s.ontime % 2 ^ 32, tide := s.tideWord,
                      code := entCode e, again := again }
  if again || !onceInTide e.unit.toNat e.cls.toNat e.typ.toNat then s
  else { s with fw := { s.fw with seen := seenKey e :: s.fw.seen } }

/-- The action of an event (R449), 0 for none: one that counts and reaches the threshold. `s` holds its entry. -/
def State.eventAction (s : State) (e : FaultEvent) (again : Bool) : Nat :=
  let unit := e.unit.toNat
  if countedType unit e.cls.toNat e.typ.toNat (entCode e) && !again && s.reaches unit e.cls.toNat e.typ.toNat then s.thrAction unit
  else 0

/-- Fault handling of one event (R449 to R452, R461): history, threshold, record, action. The records of memory and link events
are written as they are logged. -/
def State.faultEvent (s : State) (e : FaultEvent) : State :=
  let unit := e.unit.toNat
  let cls := e.cls.toNat
  let typ := e.typ.toNat
  let again := s.seenInTide e
  let s := s.noteEvent e
  let act := s.eventAction e again
  let s := if cls = 3 ∨ cls = 4 then s.faultRecord e (if isHard cls typ then 4 else act) else s
  let s := if unit / 4096 = 3 ∧ cls = 1 ∧ (typ = 2 ∨ typ = 5) then s.spareRow e.detail0.toNat else s
  if act = 1 then s.retire (unit % 4096) typ else if act = 3 then s.setReplace else s

/-- HISTORY_EVENT (R449): an event is handled. The firmware raised FAIL for a HARD event as it passed it on (R376, R447); for one
that the command brings by itself it raises FAIL here. -/
def execHistoryEvent (ev : FaultEvent) (s : State) : Out :=
  if !s.up then .next s
  else
    let known := s.fw.faultq.contains ev
    let s : State := { s with fw := { s.fw with faultq := s.fw.faultq.erase ev } }
    let s := s.faultEvent ev
    settled (if isHard ev.cls.toNat ev.typ.toNat && s.loaded && !known then s.failHere 6 else s)

/-- The payload of the HISTORY block (R448). -/
def State.histPayload (s : State) : List Byte :=
  let h := s.fw.hist
  let head := leBytes 4 0x54534948 ++ leBytes 2 1 ++ leBytes 2 h.ents.length ++ leBytes 8 s.ontime ++ leBytes 8 h.cperId
    ++ leBytes 8 h.packSeq ++ leBytes 18 h.ret ++ leBytes 1 (if h.replace then 1 else 0) ++ leBytes 13 0 ++ leBytes 64 h.policy
    ++ (List.range 144).flatMap fun p => leBytes 4 (s.lastPass p)
  head ++ List.replicate (1024 - head.length) 0 ++ h.ents.flatMap fun e =>
    leBytes 2 e.unit ++ leBytes 1 e.typ ++ leBytes 1 e.cls ++ leBytes 4 e.ontime ++ leBytes 4 e.tide ++ leBytes 4 e.code

/-- HISTORY_WRITE (R452): the block is written when an action waits for it, and otherwise while entries are pending at most once
in 600 s. -/
def execHistoryWrite (s : State) : Out :=
  let h := s.fw.hist
  if !s.up || !h.urgent && (!h.dirty || decide (s.ontime < h.wrote + 600)) then .next s
  else
    let s := s.writeBlock 5 s.histPayload
    .next (s.setHist { h with dirty := false, urgent := false, wrote := s.ontime })

/-! ### Test cases (R436 to R440) -/

/-- A unit's failure of a case (R440, R461): confirmed (type 4), or transient (type 5). -/
def State.chargeCase (s : State) (unit : Nat) (c : TestCase) (run : CaseRun) (confirmed : Bool) : State :=
  let e := islEvent 0 (if confirmed then 4 else 5) c.num (c.detail run.rows run.first) s.fw.suiteSeq
  s.faultEvent { e with unit := BitVec.ofNat 16 unit }

/-- A case is discarded for every unit, with a CASE_BAD record (R439). -/
def State.caseBad (s : State) (num digest : Nat) : State :=
  s.faultRecord { islEvent 0 12 num digest 0 with unit := 0x9000 } 0

/-- What a run of a case comes to (R440): 0 a pass, 1 a transient failure, 2 a confirmed one. Without a run the unit passes. -/
def caseResult (c : TestCase) (run : Option CaseRun) : Nat :=
  match run with
  | none => 0
  | some r => if c.passes r.rows r.first then 0 else if c.passes r.rows r.second then 1 else 2

/-- Charges a unit for its run of a case. -/
def State.judge (s : State) (unit : Nat) (c : TestCase) (run : Option CaseRun) : State :=
  match run with
  | none => s
  | some r => if caseResult c run = 0 then s else s.chargeCase unit c r (caseResult c run == 2)

/-- A case that the given units of a session have run (R439, R440). -/
def State.judgeAll (s : State) (units : List Nat) (runs : List (BitVec 16 × CaseRun)) (c : TestCase) : State :=
  match if c.xchk && decide (1 < units.length) then badMajority (units.map (c.digestOf runs)) c.digest else none with
  | some d => s.caseBad c.num d
  | none => units.foldl (fun s u => s.judge u c (runOf runs u c.num)) s

/-- The cases of the session for a target at a level, with their places in it. -/
def State.casesAt (s : State) (level target : Nat) : List (TestCase × Nat) :=
  s.fw.suite.zipIdx.filter fun c => c.1.atLevel level && c.1.target == target

/-- Islands run the cases of a level, one case after the other. -/
def State.runSuite (s : State) (level : Nat) (ps : List Nat) (runs : List (BitVec 16 × CaseRun)) : State :=
  (s.casesAt level 0).foldl (fun s c =>
    (ps.foldl (fun s p => s.loadCase p c.2 c.1) s).judgeAll (ps.map islUnit) runs c.1) s

/-- The worst result of a unit over some cases, and the number of its first case that fails. -/
def suiteResult (cs : List TestCase) (runs : List (BitVec 16 × CaseRun)) (unit : Nat) : Nat × Nat :=
  let res (c : TestCase) : Nat := caseResult c (runOf runs unit c.num)
  ((cs.map res).foldl max 0, ((cs.find? fun c => res c != 0).map (·.num)).getD 0)

/-- The runs of one Island. -/
def runsOn (p : Nat) (runs : List CaseRun) : List (BitVec 16 × CaseRun) := runs.map fun r => (BitVec.ofNat 16 (islUnit p), r)

/-- The TEST_PASS record (R461). -/
def State.testPassed (s : State) (p level : Nat) : State := s.faultRecord (islEvent p 6 0 level s.fw.suiteSeq) 0

/-- One test case on Island `p`, with the digests of the other Islands of the session that ran it (R439, R440). -/
def State.runCase (s : State) (p : Nat) (run : CaseRun) (peers : List (BitVec 64)) : State :=
  match s.fw.suite.zipIdx.find? fun c => c.1.num == run.case.toNat && c.1.target == 0 with
  | none => s
  | some (c, i) =>
    let s := s.loadCase p i c
    match if c.xchk && !peers.isEmpty then badMajority (outDigest run.first :: peers.map (·.toNat)) c.digest else none with
    | some d => s.caseBad c.num d
    | none => s.judge (islUnit p) c (some run)

/-- TEST_CASE: the Island is TESTING, or UNTESTED at start-up. A case that the session has not got is not run. -/
def execTestCase (p : Fin 144) (run : CaseRun) (peers : List (BitVec 64)) (s : State) : Out :=
  if s.up ∧ (s.pstate p = 3 ∨ s.pstate p = 0) then settled (s.runCase p run peers) else .next s

/-! ### Due tests (R453 to R455) -/

/-- Whether Island `p` is due for a test (R453). -/
def State.due (s : State) (p : Nat) : Bool :=
  s.pstate p != 6 && s.policy 0 2 != 0 && decide (s.lastPass p + s.policy 0 2 * 3600 ≤ s.ontime)

/-- Whether a test of Island `p` may start: it is due, not due for retirement (R450, R456), and not under test. -/
def State.dueNow (s : State) (p : Nat) : Bool := s.due p && !s.retBit p && !s.fw.underTest.contains p

/-- When a deferral of Island `p` began. -/
def State.deferredAt (s : State) (p : Nat) : Option Nat := (s.fw.deferred.find? (·.1 == p)).map (·.2)

/-- Defers the test of an Island: one TEST_DEFERRED record (R455). -/
def State.deferTest (s : State) (p : Nat) : State :=
  match s.deferredAt p with
  | some _ => s
  | none => ({ s with fw := { s.fw with deferred := s.fw.deferred ++ [(p, s.ontime)] } } : State).faultRecord (islEvent p 9 0 0 0) 0

/-- The Island is under test, in the session that runs or in a new one (R458); a deferral ends. -/
def State.beginTest (s : State) (p : Nat) : State :=
  let s := s.joinSession
  { s with fw := { s.fw with
    underTest := (s.fw.underTest.filter (· != p)) ++ [p]
    deferred := s.fw.deferred.filter (·.1 != p) } }

/-- Whether Island `p` comes first among the due ACTIVE Islands (R454): lowest LASTPASS, then lowest index. -/
def State.firstDue (s : State) (p : Nat) : Bool :=
  (List.range 144).all fun x => !(s.pstate x == 1 && s.dueNow x && (s.deferredAt x).isNone)
    || decide (s.lastPass p < s.lastPass x) || (s.lastPass p == s.lastPass x && decide (p ≤ x))

/-- DUE_TEST (R453, R454, R455): a SPARE Island is tested in place, an ACTIVE one is swapped onto a free spare with AFTER 1, after
retirements; without a free spare, or while it is pinned, the test is deferred. -/
def execDueTest (p : Fin 144) (s : State) : Out :=
  if !s.dueNow p then .next s
  else
    let st := s.pstate p
    if st = 2 then
      let s := s.testCtlWrite (testWord p 1)
      .next (if s.pstate p = 3 then s.beginTest p else s)
    else if st ≠ 1 then .next s
    else match s.freeSpare p with
      | none => .next (s.deferTest p)
      | some d =>
        if s.pinned p then .next (s.deferTest p)
        else
          let s := s.serveRetire
          if s.swapIdle && s.fw.retireSwap.all (fun x => (s.freeSpare x).isNone || s.pinned x) && s.firstDue p then
            let s := s.beginSwap p d 1
            .next (if s.pstate p = 4 then s.beginTest p else s)
          else .next s

/-- RELEASE: TESTING to SPARE. Written by the Pilot for an Island under test, it ends a test that passed: LASTPASS is updated
(R454, log entry 37), and the pass is recorded (R461). -/
def execRelease (r : Requester) (p : Fin 144) (s : State) : Out :=
  .next (s.guarded r Reg.ISL_TEST_CTL fun s =>
    let ended := match r with
      | .pilot _ => s.fw.underTest.contains p.val && s.pstate p == 3
      | _ => false
    let s := s.testCtlWrite (testWord p 2)
    if ended && s.pstate p == 2 then
      (({ s with fw := { s.fw with underTest := s.fw.underTest.filter (· != p.val) } } : State).setLastPass p).testPassed p 2
    else s)

/-- A forced test of Island `p` after its job was unloaded (R455): the FULL suite runs; an Island that fails is retired, whatever
logical Island it was bound to. -/
def State.forceTest (s : State) (p hours : Nat) (runs : List CaseRun) : State :=
  let s := (s.faultRecord (islEvent p 10 0 hours 0) 0).beginTest p
  let (r, _) := suiteResult ((s.casesAt 2 0).map (·.1)) (runsOn p runs) (islUnit p)
  let s := if r = 2 && s.pstate p == 1 && decide (s.logicalOf p < 136) then
      s.lmapWrite (s.logicalOf p) (BitVec.ofNat 32 (0xFF + (if s.pinned p then 2 ^ 9 else 0)))
    else s
  let s := s.runSuite 2 [p] (runsOn p runs)
  let s := if r = 0 then (s.setLastPass p).testPassed p 2 else s
  { s with fw := { s.fw with underTest := s.fw.underTest.filter (· != p) } }

/-- Whether the job was unloaded at a checkpoint after Island `p`'s test was overdue (R455): the deferral has lasted MAX_DEFER hours,
an image has become COMPLETE since then, and PROG_UNLOAD has unloaded the program with that image as the newest. -/
def State.forceDue (s : State) (t : Nat) : Bool :=
  let dueAt := t + s.policy 2 2 * 3600
  !s.loaded && decide (dueAt ≤ s.ontime) && decide (dueAt ≤ s.fw.imgAt) && s.fw.imgSeq != 0 && s.fw.unloadImg == s.fw.imgSeq

/-- TEST_FORCED (R455). -/
def execTestForced (p : Fin 144) (runs : List CaseRun) (s : State) : Out :=
  match s.deferredAt p with
  | none => .next s
  | some t => if s.forceDue t then .next (s.forceTest p ((s.ontime - t) / 3600) runs) else .next s

end Sys2Proof.Machine
end

