-- ==== Sys2Proof/Machine/Pcs.lean ====
section
/-! DEFINITION. The PCS and FEC of a Strait port (R288, R289): the RS(544,514) codewords of the flits that are sent, the lanes
that their symbols travel on, and which received codewords the code corrects. -/

namespace Sys2Proof.Machine

/-! ### The code (R288) -/

/-- The product of two symbols of GF(2^10), modulo x^10 + x^3 + 1, the field of the code that R288 names (PRESUMED, log entry
119). -/
def gfMulAux : Nat → Nat → Nat → Nat → Nat
  | 0, _, _, acc => acc
  | n + 1, a, b, acc =>
    gfMulAux n (if 1024 ≤ 2 * a then 2 * a ^^^ 0x409 else 2 * a) (b / 2) (if b % 2 = 1 then acc ^^^ a else acc)

/-- The product of two symbols. -/
def gfMul (a b : Nat) : Nat := gfMulAux 10 a b 0

/-- Adds two polynomials, coefficient by coefficient. -/
def polyXor (a b : List Nat) : List Nat := List.zipWith (fun x y => x ^^^ y) a b

/-- The generator, highest coefficient first: its roots are the powers 0 to 29 of x (log entry 119). -/
def rsGen : List Nat :=
  ((List.range 30).foldl (fun (e : List Nat × Nat) _ =>
    (polyXor (e.1 ++ [0]) (0 :: e.1.map (gfMul e.2)), gfMul 2 e.2)) ([1], 1)).1

/-- One data symbol enters the division by the generator. -/
def rsStep (gen rem : List Nat) (d : Nat) : List Nat :=
  let f := d ^^^ rem.headD 0
  polyXor (rem.drop 1 ++ [0]) (gen.map (gfMul f))

/-- The 30 parity symbols of 514 data symbols. -/
def rsParity (data : List Nat) : List Nat := data.foldl (rsStep (rsGen.drop 1)) (List.replicate 30 0)

/-- A codeword: the data symbols, then the parity symbols. -/
def rsCodeword (data : List Nat) : List Nat := data ++ rsParity data

/-- The symbols in error that the code corrects in a codeword (R288). -/
def rsCorrects : Nat := 15

/-! ### Lanes (R289, R304) -/

/-- The lane that carries symbol `i` of a codeword: i mod 8, or L8 in the place of a spared lane. -/
def symbolLane (spared i : Nat) : Nat := if i % 8 = spared then 8 else i % 8

/-- What each of the lanes L0 to L8 carries of a codeword: symbols round-robin over the 8 active lanes, 68 on each. -/
def spreadLanes (spared : Nat) (word : List Nat) : List (List Nat) :=
  (List.range 9).map fun l => word.zipIdx.filterMap fun e => if symbolLane spared e.2 = l then some e.1 else none

/-- The codeword that a receiver puts together from its lanes, each deskewed to the codeword's boundary. -/
def gatherLanes (spared : Nat) (lanes : List (List Nat)) : List Nat :=
  (List.range 544).map fun i => (lanes.getD (symbolLane spared i) []).getD (i / 8) 0

/-! ### Sending (R289) -/

/-- The transmit lane that L8 replaces in codeword `c`: the one in use, or from B on the one of the switch that waits (R304). -/
def State.txSpared (s : State) (k c : Nat) : Nat :=
  match (s.port k).txSwitch with
  | some (n, b) => if b ≤ c then n else s.fld (Reg.STR_STATUS (portQ k) (portK k)) Fd.STR_STATUS_TX_SPARED
  | none => s.fld (Reg.STR_STATUS (portQ k) (portK k)) Fd.STR_STATUS_TX_SPARED

/-- A flit enters the PCS, least significant bit first; 514 symbols of data make a codeword (R289). -/
def State.pcsSend (s : State) (k : Nat) (flit : List Byte) : State :=
  let x := s.port k
  let bits := x.pcs.bits + leNat flit * 2 ^ x.pcs.len
  let len := x.pcs.len + 8 * flit.length
  if len < 5140 then s.setPort k { x with pcs := { x.pcs with bits := bits, len := len } }
  else
    let word := rsCodeword ((List.range 514).map fun j => bits / 2 ^ (10 * j) % 1024)
    s.setPort k { x with pcs := ⟨bits / 2 ^ 5140, len - 5140, x.pcs.words + 1,
      spreadLanes (s.txSpared k x.pcs.words) word⟩ }

/-! ### Receiving (R288, R292, R303) -/

/-- Symbols in error of a received codeword: those of its places on the active lanes that the command names. -/
def fecErrors (w : FecWord) (spared : Nat) : Nat :=
  (List.range 544).countP fun i => w.hits.any fun h => h.1.val == symbolLane spared i && h.2.val == i / 8

/-- Whether the code cannot correct a received codeword. -/
def fecWordBad (w : FecWord) (spared : Nat) : Bool := decide (rsCorrects < fecErrors w spared)

/-- The codewords of a received flit that cannot be corrected (R292). -/
def State.fecBad (s : State) (k : Nat) (fec : List FecWord) : List Nat :=
  ((fec.filter fun w => fecWordBad w (s.fld (Reg.STR_STATUS (portQ k) (portK k)) Fd.STR_STATUS_RX_SPARED)).map (·.num)).dedup

end Sys2Proof.Machine
end

