-- ==== Sys2Proof/Machine/LinkOps.lean ====
section
/-! DEFINITION. The link layer of a Strait port (R291 to R302): what is sent at a flit position, what a received flit does,
credits, virtual channels and scheduled slots, replay, retraining and departure (R306, R313, R317). -/

namespace Sys2Proof.Machine

/-- STR_STATUS of port S0 to S15. -/
def stStat (k : Nat) : Nat := Reg.STR_STATUS (portQ k) (portK k)
/-- STR_ERR of a port. -/
def stErr (k : Nat) : Nat := Reg.STR_ERR (portQ k) (portK k)
/-- STR_CTL of a port. -/
def stCtl (k : Nat) : Nat := Reg.STR_CTL (portQ k) (portK k)
/-- LB_CTL of a port. -/
def stLb (k : Nat) : Nat := Reg.STR_LB_CTL (portQ k) (portK k)

/-- 60 seconds of ARR cycles (R313, log entry 20). -/
def cycles60 : Nat := 56400000000

/-! ### Departure and retraining -/

/-- Completes with LINK_DOWN every tracker entry of Quarter `q` whose request left through port `k` (R317). -/
def State.dropTrk (s : State) (k q : Nat) : State :=
  (s.qtr q).trk.foldl (fun s e => match e.2 with
    | some t => if t.port = k then s.closeTrk q e.1 t 6 [] else s
    | none => s) s

/-- A departure (R317): the port enters DOWN, or OFF when EN was written to 0, be it that the LEAVE of that write still waits; it
discards its buffers, its tracker entries complete with LINK_DOWN, a PORT_DOWN record is written and reported to the manager over
another port (R318), and HOLD is set at the third entry into DOWN within 60 s (R313). In a loaded program that schedules the port
the module raises FAIL (R341). -/
def State.departPort (s : State) (k reason : Nat) (down : Bool) : State :=
  let x := s.port k
  let off := down || x.leaving == some true
  let s := ((s.logLink 2 k 0 reason 0xF 0 1 0 0 0).toManager (some k) 3
    (s.linkBody s.tideWord 2 k 0 reason 0xF 0 1 0 0 0)).report .portDown k reason 0
  let sched := s.loaded && s.bit (stStat k) Fd.STR_STATUS_SCHED
  let downs := if off then x.downs else x.downs.filter (fun c => decide (s.cycle < c + cycles60)) ++ [s.cycle]
  let s := (s.setPort k { downs := downs }).setPortSt k (if off then 0 else 6)
  let s := if !off && decide (3 ≤ downs.length) then s.setFld (stStat k) Fd.STR_STATUS_HOLD 1 else s
  let s := s.setFld (stStat k) Fd.STR_STATUS_FAR_LB 0
  let s := s.setFld (Reg.STR_PARTNER (portQ k) (portK k)) Fd.STR_PARTNER_VALID 0
  let s := if x.lb.isSome || x.lbAsk then s.setFld (stLb k) Fd.STR_LB_CTL_GO 0 else s
  let s := (s.setFld (stErr k) Fd.STR_ERR_DOWN 1).count (Reg.STR_CNT_DOWN (portQ k) (portK k)) 1
  let s := (List.range 4).foldl (fun s q => s.dropTrk k q) s
  if sched then s.failHere 4 else s

/-- A retrain of a port whose link is up (R306). -/
def State.retrainPort (s : State) (k : Nat) : State :=
  if 2 ≤ s.portSt k ∧ s.portSt k ≤ 4 then s.setPort k { s.port k with retraining := true } else s

/-- A protocol error (R300, R308). -/
def State.protoErr (s : State) (k : Nat) : State :=
  (((s.setFld (stErr k) Fd.STR_ERR_PROTOCOL 1).logLink 12 k 0 0 0xF 0 1 0 0 0).report .protocol k 0 0).retrainPort k

/-! ### Credits -/

/-- Credits left of a cumulative count and its use, modulo 65,536 (R300). -/
def creditsLeft (count used : List Nat) (v : Nat) : Nat := (count.getD v 0 + 65536 - used.getD v 0 % 65536) % 65536

/-- Adds to one VC's cumulative count. -/
def addCredit (l : List Nat) (v n : Nat) : List Nat := l.modify v fun a => (a + n) % 65536

/-- Whether a message has credit. -/
def Port.hasCredit (x : Port) (m : Msg) : Bool := decide (m.credits ≤ creditsLeft x.cred x.used m.vc)

/-- A message leaves its receive buffer (R300). -/
def State.grant (s : State) (k : Nat) (m : Msg) : State :=
  let x := s.port k
  s.setPort k { x with granted := addCredit x.granted m.vc m.credits }

/-- The first message of a receive buffer that is not taken out ahead of it: TIDE and REDUCE messages have their own
consumers (R337, R338). -/
def Port.head (x : Port) (v : Nat) : Option Msg := (x.rxq.getD v []).find? fun m => m.typ != 8 && m.typ != 9

/-- Takes a message out of its receive buffer. -/
def State.takeMsg (s : State) (k : Nat) (m : Msg) : State :=
  let x := s.port k
  (s.setPort k { x with rxq := x.rxq.modify m.vc (·.erase m) }).grant k m

/-! ### Choosing the next message (R302, R330) -/

/-- The first message of a stream in a queue, with its place. -/
def streamHead (q : List (Nat × Msg)) (st : Nat) : Option (Nat × Msg) :=
  (q.zipIdx.find? fun e => e.1.1 == st).map fun e => (e.2, e.1.2)

/-- The first message of a stream, if it has credit. -/
def Port.ready (x : Port) (st : Nat) : Option (Nat × Msg) :=
  match streamHead (x.txq.getD 2 []) st with
  | some (i, m) => if x.hasCredit m then some (i, m) else none
  | none => none

/-- Serves the slot table from an entry on, for at most `n` entries (R330): the place of the message in the queue, the
message, the entry it used, and the units then used of that entry. -/
def Port.slotWalk (x : Port) (tbl : List Nat) : Nat → Nat → Nat → Option (Nat × Msg × Nat × Nat)
  | 0, _, _ => none
  | n + 1, pos, used =>
    let e := tbl.getD pos 0
    match (if used < bitsOf e 19 8 then x.ready (bitsOf e 7 0) else none) with
    | some (i, m) => some (i, m, pos, used + (m.size + 63) / 64)
    | none => x.slotWalk tbl n (if tbl.length ≤ pos + 1 then 0 else pos + 1) 0

/-- The lowest stream that has a message with credit, among those that `p` admits. -/
def Port.lowest (x : Port) (p : Nat → Bool) : Option (Nat × Msg) :=
  (List.range 256).findSome? fun st => if p st then x.ready st else none

/-- A choice of the next message: its place in its queue, the message, whether it is an overrun, and the slot position. -/
structure Pick where
  idx : Nat
  msg : Msg
  overrun : Bool
  pos : Nat
  units : Nat

/-- The TIDE message that goes out at the next message boundary (R337). -/
def Port.pickTide (x : Port) : Option Pick :=
  match (x.txq.getD 2 []).zipIdx.find? fun e => e.1.2.typ == 8 with
  | some ((_, m), i) => if x.hasCredit m && !x.late then some ⟨i, m, false, x.slotPos, x.slotUsed⟩ else none
  | none => none

/-- The next VC 2 message (R330, R337): a TIDE message; else by the slot table of the Tide's type; else an overrun, lowest stream
first. While no program is loaded there is no table, and the lowest stream goes first. A port that arrived under the loaded program
carries no scheduled traffic (R318). -/
def State.pick2 (s : State) (k : Nat) : Option Pick :=
  let x := s.port k
  match x.pickTide with
  | some p => some p
  | none =>
    if x.late || (x.txq.getD 2 []).any (fun e => e.2.typ == 8) then none
    else if !s.loaded then (x.lowest fun _ => true).map fun e => ⟨e.1, e.2, false, x.slotPos, x.slotUsed⟩
    else
      let tbl := s.slotTable (portQ k) (s.tideNum % s.nTypes) (portK k)
      match x.slotWalk tbl (tbl.length + 1) x.slotPos x.slotUsed with
      | some (i, m, pos, u) => some ⟨i, m, false, pos, u⟩
      | none =>
        (x.lowest fun st => !(tbl.any fun e => bitsOf e 7 0 == st)).map fun e => ⟨e.1, e.2, true, x.slotPos, 0⟩

/-- The next message of an unscheduled VC: the first in its queue, with credit. -/
def Port.pickU (x : Port) (v : Nat) : Option Msg :=
  match x.txq.getD v [] with
  | (_, m) :: _ => if x.hasCredit m then some m else none
  | [] => none

/-- The unscheduled VC that is served next (R302): round-robin over 0, 1 and 3, VC 1 before VC 0 when both are ready. -/
def Port.rrPick (x : Port) : Option (Nat × Msg) :=
  let vs := [0, 1, 3, 0, 1]
  let c := ((List.range 3).map fun i => vs.getD (x.rr % 3 + i) 0).findSome? fun v => (x.pickU v).map fun m => (v, m)
  match c with
  | some (0, m) => match x.pickU 1 with
    | some m1 => some (1, m1)
    | none => some (0, m)
  | c => c

/-- Starts a message: it leaves its queue and its bytes follow. -/
def State.startMsg (s : State) (k v idx : Nat) (m : Msg) : State :=
  let x := s.port k
  s.setPort k { x with
    txq := x.txq.modify v (·.eraseIdx idx), used := addCredit x.used v m.credits, txStream := m.encode
    winUnsched := if v = 2 then x.winUnsched else x.winUnsched + m.size
    rr := if v = 0 then 1 else if v = 1 then 2 else if v = 3 then 0 else x.rr }

/-- Starts a scheduled message, with the records of an overrun (R330). -/
def State.startSched (s : State) (k : Nat) (p : Pick) : State :=
  let s := s.startMsg k 2 p.idx p.msg
  let s := s.setPort k { s.port k with slotPos := p.pos, slotUsed := p.units }
  if p.overrun then
    let s := (s.count Reg.TIDE_CNT_OVERRUN 1).setFld Reg.TIDE_ERR Fd.TIDE_ERR_OVERRUN 1
    ({ s with tide := { s.tide with overrun := true } } : State).report .tideOverrun k 0 0
  else s

/-- The transmitter's choice at a message boundary (R301, R302, R313, R337): a TIDE message first; false when no message may be
sent. -/
def State.txChoose (s : State) (k : Nat) : Bool × State :=
  let x := s.port k
  if s.portSt k = 4 then
    match s.pick2 k, x.rrPick with
    | some p, some (v, m) =>
      if x.winUnsched < 256 ∧ p.msg.typ ≠ 8 then (true, s.startMsg k v 0 m) else (true, s.startSched k p)
    | some p, none => (true, s.startSched k p)
    | none, some (v, m) => (true, s.startMsg k v 0 m)
    | none, none => (false, s)
  else if s.portSt k = 2 ∨ s.portSt k = 3 then
    match x.pickU 3 with
    | some m => (true, s.startMsg k 3 0 m)
    | none => (false, s)
  else (false, s)

/-- Fills a flit body with message bytes (R301). -/
def State.fillBody : Nat → State → Nat → List Byte → List Byte × State
  | 0, s, _, b => (b, s)
  | n + 1, s, k, b =>
    if 244 ≤ b.length then (b, s)
    else
      let x := s.port k
      if x.txStream.isEmpty then
        match s.txChoose k with
        | (true, s) => State.fillBody n s k b
        | (false, s) => (b, s)
      else
        let r := 244 - b.length
        State.fillBody n (s.setPort k { x with txStream := x.txStream.drop r }) k (b ++ x.txStream.take r)

/-- The window of the VC choice moves by a flit body (R302). -/
def Port.window (x : Port) : Port :=
  if 4096 ≤ x.winBytes + 244 then { x with winBytes := x.winBytes + 244 - 4096, winUnsched := 0 }
  else { x with winBytes := x.winBytes + 244 }

/-! ### Sending a flit (R291 to R296) -/

/-- Puts a flit on the line: NAK is sent once, the position advances, and the flit enters the PCS (R289). -/
def State.putFlit (s : State) (k kind seq : Nat) (body : List Byte) : State :=
  let x := s.port k
  let f := flitBytes kind seq x.ack x.nak body
  (s.setPort k { x with lastTx := f, nak := false, flitPos := x.flitPos + 1 }).pcsSend k f

/-- The body of a CTRL flit with a SUB (R294). -/
def ctrlBody (granted : List Nat) (b : Sub) : List Byte :=
  ((List.range 4).map fun v => leBytes 2 (granted.getD v 0)).flatten ++ leBytes 1 b.kind ++ leBytes 1 b.seq ++ leBytes 2 0
    ++ leBytes 4 b.arg ++ leBytes 8 b.arg2

/-- Makes a SUB pending: at most one of a kind, and one answer to LB_REQ (R294). -/
def Port.addSub (x : Port) (kind arg arg2 : Nat) : Port :=
  let q := (x.subSeq + 1) % 256
  let cls (n : Nat) : Nat := if n = 5 then 4 else n
  { x with subSeq := q, subs := x.subs.filter (fun b => cls b.kind != cls kind) ++ [⟨kind, q, arg, arg2⟩] }

/-- A SUB is no longer pending. -/
def Port.dropSub (x : Port) (kind : Nat) : Port := { x with subs := x.subs.filter (·.kind != kind) }

/-- Sends a CTRL flit: LEAVE when the port is leaving, which then departs; otherwise the SUB whose turn it is. -/
def State.sendCtrl (s : State) (k : Nat) : State :=
  let x := s.port k
  match x.leaving with
  | some off => (s.putFlit k 2 0 (ctrlBody x.granted ⟨6, (x.subSeq + 1) % 256, 0, 0⟩)).departPort k 4 off
  | none =>
    match x.subs with
    | b :: r => (s.setPort k { x with subs := r ++ [b] }).putFlit k 2 0 (ctrlBody x.granted b)
    | [] => s.putFlit k 2 0 (ctrlBody x.granted {})

/-- Resends the flit at place `i` of the replay buffer (R296). -/
def State.sendReplay (s : State) (k i : Nat) : State :=
  let x := s.port k
  match x.replay[i]? with
  | some (seq, body) =>
    let s := s.setPort k { x with replayAt := if i + 1 < x.replay.length then some (i + 1) else none }
    (s.putFlit k 1 seq body).count (Reg.STR_CNT_FLIT_TX (portQ k) (portK k)) 1
  | none => (s.setPort k { x with replayAt := none }).putFlit k 0 0 []

/-- Sends a new DATA flit when one is ready, and an IDLE flit otherwise. -/
def State.sendNew (s : State) (k : Nat) : State :=
  if 1024 ≤ (s.port k).replay.length then s.putFlit k 0 0 []
  else
    let (b, s) := s.fillBody 40 k []
    if b.isEmpty then s.putFlit k 0 0 []
    else
      let x := s.port k
      let body := b ++ List.replicate (244 - b.length) 0
      let s := s.setPort k { x.window with txSeq := (x.txSeq + 1) % 4096, replay := x.replay ++ [(x.txSeq, body)] }
      (s.putFlit k 1 x.txSeq body).count (Reg.STR_CNT_FLIT_TX (portQ k) (portK k)) 1

/-- Whether flits travel on a port: its link is up, it does not retrain, and no loopback pattern runs. -/
def State.flitsFlow (s : State) (k : Nat) : Bool :=
  decide (2 ≤ s.portSt k) && decide (s.portSt k ≤ 5) && !(s.port k).retraining && (s.port k).lb.isNone

/-- One flit position of the transmitter (R293). -/
def State.transmit (s : State) (k : Nat) : State :=
  if !s.flitsFlow k then s
  else
    let x := s.port k
    if x.flitPos % 128 = 127 then s.sendCtrl k
    else if s.portSt k = 5 then s.putFlit k 0 0 []
    else match x.replayAt with
      | some i => s.sendReplay k i
      | none => s.sendNew k

/-! ### Receiving (R292 to R300) -/

/-- An ACK arrives: the flits up to it leave the replay buffer, and the retry count returns to zero when ACK advances (R296,
R297). -/
def State.ackTo (s : State) (k a : Nat) : State :=
  let x := s.port k
  match x.replay.zipIdx.find? fun e => e.1.1 == a with
  | some (_, i) =>
    let left := x.replay.drop (i + 1)
    s.setPort k { x with
      replay := left, retry := 0, replayAck := none
      replayAt := match x.replayAt with
        | some j => if j - (i + 1) < left.length then some (j - (i + 1)) else none
        | none => none }
  | none => s

/-- Starts a replay from ACK + 1 (R296); at RETRY_LIMIT the port retrains (R297). -/
def State.startReplay (s : State) (k a : Nat) : State :=
  let x := s.port k
  if x.replay.isEmpty then s
  else
    let s := s.setPort k { x with
      replayAt := some 0, replayAck := some a, retry := x.retry + 1, cRetry := x.cRetry + 1
      tRetry := if x.cRetry = 0 then s.tideWord else x.tRetry }
    let s := (s.count (Reg.STR_CNT_RETRY (portQ k) (portK k)) 1).report .retry k (x.retry + 1) 0
    if max 1 (s.fld (Reg.STR_TIMERS (portQ k) (portK k)) Fd.STR_TIMERS_RETRY_LIMIT) ≤ x.retry + 1 then
      (((s.setFld (stErr k) Fd.STR_ERR_RETRY_LIMIT 1).logLink 6 k 1 0 0xF 0 (x.retry + 1) 0 0 0).report
        .retryLimit k 0 0).retrainPort k
    else s

/-- A NAK arrives with its ACK (R296): one that arrives during a replay already started for the same ACK is ignored. -/
def State.nakAt (s : State) (k a : Nat) : State :=
  let x := s.port k
  if x.replayAt.isSome && x.replayAck == some a then s else s.startReplay k a

/-- Whether a port carries a received message in its state (R313). -/
def carries (st : Nat) (m : Msg) : Bool :=
  st == 4 || (st == 3 && m.vc == 3) || (st == 2 && m.vc == 3 && m.typ == 7)

/-- BKT of a REDUCE message (R354). -/
def Msg.redBkt (m : Msg) : Nat := bitsOf m.addr 31 21
/-- CH of a REDUCE message. -/
def Msg.redCh (m : Msg) : Nat := bitsOf m.addr 18 16

/-- Whether a bucket is armed and not completed in the current Tide. -/
def State.bktArmed (s : State) (b : Nat) : Bool :=
  let raw := tget (fun _ => 0) s.tide.buckets b
  let x := s.chan (bktCh raw)
  x.waiting.contains b || x.trig.contains b || (match x.cur with | some r => r.bkt == b | none => false)

/-- Whether a REDUCE message waits for its bucket to be armed (R338). -/
def State.redHeld (s : State) (m : Msg) : Bool :=
  m.typ == 9 && bktValid (tget (fun _ => 0) s.tide.buckets m.redBkt) && !s.bktArmed m.redBkt

/-- A whole message has arrived (R300, R308, R313). -/
def State.rxMsg (s : State) (k : Nat) (m : Msg) : State :=
  let x := s.port k
  if creditsLeft x.granted x.rxUsed m.vc < m.credits then s.protoErr k
  else
    let s := s.setPort k { x with rxUsed := addCredit x.rxUsed m.vc m.credits }
    if m.typ = 0 ∨ 10 ≤ m.typ then (s.grant k m).protoErr k
    else if !carries (s.portSt k) m then (s.grant k m).count (Reg.STR_CNT_DROP (portQ k) (portK k)) 1
    else
      let s := if s.redHeld m then s.count Reg.TIDE_CNT_HELD 1 else s
      let x := s.port k
      s.setPort k { x with rxq := x.rxq.modify m.vc (· ++ [m]) }

/-- Delimits the messages of received bytes (R301). -/
def State.rxParse : Nat → State → Nat → List Byte → State
  | 0, s, _, _ => s
  | n + 1, s, k, bs =>
    let keep (s : State) (l : List Byte) : State := s.setPort k { s.port k with rxStream := l }
    if bs.length < 4 then keep s bs
    else
      let w := leNat (bs.take 4)
      if w = 0 then keep s []
      else if bs.length < headerSize w ∨ bs.length < 16 then keep s bs
      else State.rxParse n (s.rxMsg k (Msg.decode (bs.take (headerSize w)))) k (bs.drop (headerSize w))

/-- Counts codewords that could not be corrected, each once (R321, R322). -/
def State.countUe (s : State) (k : Nat) (bad : List Nat) : State :=
  let x := s.port k
  let new := bad.filter fun n => !x.ueSeen.contains n
  let s := s.setPort k { x with ueSeen := bad, cUe := x.cUe + new.length, tUe := if x.cUe = 0 then s.tideWord else x.tUe }
  if bad.isEmpty then s
  else ((s.setFld (stErr k) Fd.STR_ERR_FEC_UE 1).count (Reg.STR_CNT_FEC_UE (portQ k) (portK k)) new.length).report .fecUe k
    new.length 0

/-- A flit that is discarded unread (R292): the counters, and NAK when its position should have held ACK + 1 (R295). Where the flit
is given as it was sent, that is told by what the partner sent there; otherwise by the sequence so far, once for a run of unread
flits (log entry 88). -/
def State.rxBadFlit (s : State) (k : Nat) (flit : List Byte) (bad : List Nat) : State :=
  let s := s.count (Reg.STR_CNT_CRC (portQ k) (portK k)) 1
  let s := if leNat (flit.drop 248) != crc64 (flit.take 248) then s.setFld (stErr k) Fd.STR_ERR_CRC 1 else s
  let s := s.countUe k bad
  let x := s.port k
  if flitOk flit then
    if flitKind flit = 1 then
      s.setPort k { x with nak := x.nak || flitSeq flit == (x.ack + 1) % 4096, rxExp := (flitSeq flit + 1) % 4096 }
    else s
  else
    let lost := x.rxExp == (x.ack + 1) % 4096
    s.setPort k { x with
      nak := x.nak || lost, rxExp := (x.rxExp + 1) % 4096, rxBad := x.rxBad + 1, rxNak := x.rxNak || lost }

/-- A DATA flit that can be read (R295): it is accepted in sequence, and discarded otherwise. One out of sequence calls for NAK when
its position should have held ACK + 1, or when an unread flit before it must have been ACK + 1 and has not called for NAK. -/
def State.rxData (s : State) (k seq : Nat) (body : List Byte) : State :=
  let x := s.port k
  if seq = (x.ack + 1) % 4096 then
    let s := s.setPort k { x with ack := seq, rxExp := (seq + 1) % 4096, rxBad := 0, rxNak := false }
    let s := s.count (Reg.STR_CNT_FLIT_RX (portQ k) (portK k)) 1
    s.rxParse 80 k ((s.port k).rxStream ++ body)
  else
    let d := (seq + 4096 - (x.ack + 1) % 4096) % 4096
    let lost := decide (d < 2048) && (x.rxExp == (x.ack + 1) % 4096 || (decide (d ≤ x.rxBad) && !x.rxNak))
    s.setPort k { x with nak := x.nak || lost, rxExp := (seq + 1) % 4096, rxBad := 0, rxNak := false }

/-- The body of a CTRL flit that can be read (R294): the latest credit counts, and a SUB that differs from the last one of its
kind. A partner whose LB_REQ was answered sends no LB_REQ any more, and sends flits again only when its loopback has ended: FAR_LB
clears (DEDUCED, log entry 121). -/
def State.rxCtrl (s : State) (k : Nat) (body : List Byte) : State :=
  let f (o n : Nat) : Nat := leNat ((body.drop o).take n)
  let b : Sub := ⟨f 8 1, f 9 1, f 12 4, f 16 8⟩
  let x := s.port k
  let x := { x with cred := (List.range 4).map fun v => f (2 * v) 2 }
  let x := if b.kind = 3 then x else (x.dropSub 4).dropSub 5
  let s := if b.kind = 3 then s else s.setFld (stStat k) Fd.STR_STATUS_FAR_LB 0
  if b.kind = 6 then (s.setPort k x).departPort k 3 false
  else if b.kind = 0 ∨ 5 < b.kind ∨ x.subSeen.contains (b.kind, b.seq) then s.setPort k x
  else s.setPort k { x with
    subSeen := x.subSeen.filter (·.1 != b.kind) ++ [(b.kind, b.seq)], subIn := x.subIn ++ [b] }

/-- A received flit (R292 to R296), with the codewords that it overlaps and that arrived with symbols in error. -/
def State.rxFlit (s : State) (k : Nat) (flit : List Byte) (fec : List FecWord) : State :=
  if !s.flitsFlow k then s
  else
    let bad := s.fecBad k fec
    if !bad.isEmpty || !flitOk flit then s.rxBadFlit k flit bad
    else
      let s := (s.countUe k []).ackTo k (flitAck flit)
      let s := if flitNak flit then s.nakAt k (flitAck flit) else s
      if flitKind flit = 1 then s.rxData k (flitSeq flit) (flitBody flit)
      else if flitKind flit = 2 then s.rxCtrl k (flitBody flit)
      else s

/-! ### Forwarding (R309) -/

/-- A message that Quarter `q` drops for want of a route (R309): a request is answered with NO_ROUTE, or, when it began in this
module, its tracker entry completes at once. -/
def State.noRoute (s : State) (q : Nat) (m : Msg) : State :=
  let s := s.count (Reg.STR_CNT_NOROUTE q) 1
  if !m.isRequest then s
  else if m.src = s.selfId q then s.takeResponse { m.answer 5 [] with src := m.dst }
  else s.sendAnswer q m 5 []

/-- Forwards a message that arrived on port `k` for another module (R309). Over a port that is not ACTIVE a request is answered
with LINK_DOWN (R313), and another message is dropped. -/
def State.forward (s : State) (k : Nat) (m : Msg) : State :=
  let q := portQ k
  match s.route q m.dst with
  | none => s.noRoute q m
  | some o =>
    if o = k ∨ 15 ≤ m.hops then s.noRoute q m
    else if s.portSt o ≠ 4 then (if m.isRequest then s.sendAnswer q m 6 [] else s)
    else (s.count (Reg.STR_CNT_FWD q) 1).enqueue o (if m.vc = 2 then 255 else 0) { m with hops := m.hops + 1 }

end Sys2Proof.Machine
end

