-- ==== Sys2Proof/WellFormed.lean ====
section
/-! DEFINITION. Which commands are well formed: the operands that stand for something the module receives have the size
that the spec gives that thing. Every other operand is well formed at every value of its type. -/

namespace Sys2Proof

/-- A received flit is 256 bytes (R291). -/
def flitSized (f : List (BitVec 8)) : Bool := f.length == 256

/-- A load or store of a core is of 1 to 64 bytes. -/
def accessSized : CoreAccess → Bool
  | .rd _ n => decide (1 ≤ n) && decide (n ≤ 64)
  | .wr _ d => decide (1 ≤ d.length) && decide (d.length ≤ 64)

/-- An inbound PCIe memory request reads or writes at least one byte. -/
def pcieSized : PcieReq → Bool
  | .rd _ n => decide (1 ≤ n)
  | .wr _ d => decide (1 ≤ d.length)

/-- Whether a command is well formed. A command that is not well formed stops with the fault illFormed. -/
def wellFormed : Instr → Bool
  | .dataFlit _ f _ => flitSized f
  | .ctrlFlit _ f _ => flitSized f
  | .idleFlit _ f _ => flitSized f
  | .laneCeWindow _ syms _ => syms.length == 9
  | .coreMemoryAccess _ a => accessSized a
  | .pcieInboundRequest q => pcieSized q
  | _ => true

end Sys2Proof
end

