-- ==== Sys2Proof/Machine/Link.lean ====
section
/-! DEFINITION. The commands of a Strait port: flits (R291 to R298), lanes (R303 to R305), states (R313), hello (R314 to R316),
departure (R317) and loopbacks (R319, R320). -/

namespace Sys2Proof.Machine

/-! ### Flits -/

/-- FLIT_TRANSMIT (R293). -/
def execFlitTransmit (k : Fin 16) (s : State) : Out := settled (s.transmit k)

/-- Whether a received flit is one that a row names: of a kind, or unreadable. -/
def State.flitFits (s : State) (k kind : Nat) (flit : List Byte) (fec : List FecWord) : Bool :=
  !(s.fecBad k fec).isEmpty || !flitOk flit || flitKind flit == kind

/-- DATA_FLIT (R295). -/
def execDataFlit (k : Fin 16) (flit : List Byte) (fec : List FecWord) (s : State) : Out :=
  if !flitSized flit then .fault .illFormed
  else if s.flitFits k 1 flit fec then settled (s.rxFlit k flit fec) else .next s

/-- CTRL_FLIT (R294). -/
def execCtrlFlit (k : Fin 16) (flit : List Byte) (fec : List FecWord) (s : State) : Out :=
  if !flitSized flit then .fault .illFormed
  else if s.flitFits k 2 flit fec then settled (s.rxFlit k flit fec) else .next s

/-- IDLE_FLIT (R293). -/
def execIdleFlit (k : Fin 16) (flit : List Byte) (fec : List FecWord) (s : State) : Out :=
  if !flitSized flit then .fault .illFormed
  else if s.flitFits k 0 flit fec then settled (s.rxFlit k flit fec) else .next s

/-- NAK (R296): a received NAK with its ACK. -/
def execNak (k : Fin 16) (ack : BitVec 12) (s : State) : Out :=
  if s.flitsFlow k then .next ((s.ackTo k ack.toNat).nakAt k ack.toNat) else .next s

/-- RETRY_TIMEOUT (R296): the oldest unacknowledged flit has waited RETRY_TO. -/
def execRetryTimeout (k : Fin 16) (s : State) : Out :=
  if s.flitsFlow k then .next (s.startReplay k (((s.port k).txSeq + 4095 - (s.port k).replay.length) % 4096)) else .next s

/-! ### Lanes -/

/-- The lane map of the spare map for a port and direction (0 receive, 1 transmit): the failed lane, 0xF for none (R485,
log entry 26). -/
def State.spareLane (s : State) (k dir : Nat) : Nat :=
  match (s.blkPayload 4)[2 * k + dir]? with
  | some b => b.toNat % 16
  | none => 0xF

/-- The firmware records a lane in the spare map (R305). -/
def State.recordSpare (s : State) (k dir lane : Nat) : State :=
  let p := s.blkPayload 4
  let p := p ++ List.replicate (32 - p.length) 0xF#8
  s.writeBlock 4 (p.set (2 * k + dir) (BitVec.ofNat 8 lane))

/-- The RX_SPARED field. -/
def State.rxSpared (s : State) (k : Nat) : Nat := s.fld (stStat k) Fd.STR_STATUS_RX_SPARED

/-- Whether L8 is about to take a lane's place in the receive direction: its request, or its switch, waits (R304). -/
def State.laneGoing (s : State) (k l : Nat) : Bool :=
  let x := s.port k
  x.subs.any (fun b => b.kind == 1 && b.arg == l) || (match x.rxSwitch with | some (n, _) => n == l | none => false)

/-- Whether a receive lane carries symbols (R303). -/
def State.laneInUse (s : State) (k l : Nat) : Bool :=
  if l = 8 then s.rxSpared k != 0xF else s.rxSpared k != l

/-- L8 failed while idle: it is recorded and the port stays (R303). -/
def State.spareLost (s : State) (k : Nat) : State :=
  ((s.setPort k { s.port k with rxNo8 := true }).logLink 4 k 0 0 8 0 1 0 0 0).report .spareLost k 8 0

/-- Whether the receive direction has no spare left: L8 is in use, being taken, lost, or the partner has no lane sparing. -/
def State.noSpare (s : State) (k : Nat) : Bool :=
  let x := s.port k
  s.rxSpared k != 0xF || x.rxNo8 || x.rxSwitch.isSome || x.subs.any (·.kind == 1) || x.caps % 2 == 0

/-- Lanes declared failed at once (R303). A lane that is being replaced is reported again without effect. Sparing is disabled in MAINT, where a failure shows only in loopback results (R305). -/
def State.lanesFail (s : State) (k : Nat) (lanes : List Nat) : State :=
  if lanes.isEmpty || decide (s.portSt k < 2) || decide (4 < s.portSt k) then s
  else
    let s := (s.setFld (stErr k) Fd.STR_ERR_LANE_FAIL 1)
    let used := lanes.filter fun l => s.laneInUse k l && !s.laneGoing k l
    if (List.range 9).all lanes.contains then s.departPort k 2 false
    else
      let s := if lanes.contains 8 && !s.laneInUse k 8 then s.spareLost k else s
      match used with
      | [] => s
      | [n] =>
        if s.noSpare k then s.departPort k 0 false
        else s.setPort k ((s.port k).addSub 1 n 0)
      | _ => s.departPort k 0 false

/-- LANE_LOCK_LOSS (R303). -/
def execLaneLockLoss (k : Fin 16) (lanes : List (Fin 9)) (s : State) : Out :=
  settled (s.lanesFail k ((lanes.map (·.val)).dedup))

/-- LANE_CE_WINDOW (R303): corrected symbols per lane and corrected codewords of the window. -/
def execLaneCeWindow (k : Fin 16) (syms : List Nat) (codewords : Nat) (s : State) : Out :=
  if syms.length ≠ 9 then .fault .illFormed
  else if s.portSt k < 2 ∨ 5 < s.portSt k then .next s
  else
    let thr := s.fld (Reg.STR_LANE_THR (portQ k) (portK k)) Fd.STR_LANE_THR_THR
    let s := (List.range 9).foldl (fun s l => s.count (Reg.STR_LANE_CE (portQ k) (portK k) l) (syms.getD l 0)) s
    let s := s.count (Reg.STR_CNT_FEC_CE (portQ k) (portK k)) codewords
    settled (s.lanesFail k ((List.range 9).filter fun l => decide (thr < syms.getD l 0)))

/-- The first received SUB of a kind that has not been acted on. -/
def Port.subOf (x : Port) (kind : Nat) : Option Sub := x.subIn.find? (·.kind == kind)

/-- Takes a received SUB. -/
def State.takeSub (s : State) (k : Nat) (b : Sub) : State :=
  let x := s.port k
  s.setPort k { x with subIn := x.subIn.erase b }

/-- B of R304: the first multiple of 256 at least 64 codewords after `c`. -/
def switchAt (c : Nat) : Nat := (c + 64 + 255) / 256 * 256

/-- SPARE_REQ (R304): `codeword` leaves the pads when SPARE_ACK is sent. -/
def execSpareReq (k : Fin 16) (codeword : Nat) (s : State) : Out :=
  match (s.port k).subOf 1 with
  | none => .next s
  | some b =>
    let s := s.takeSub k b
    if s.portSt k = 5 then .next s
    else
      let at_ := switchAt codeword
      .next (s.setPort k { (s.port k).addSub 2 (b.arg % 8) at_ with txSwitch := some (b.arg % 8, at_) })

/-- SPARE_ACK (R304): the receiver will take L8 from codeword B. -/
def execSpareAck (k : Fin 16) (s : State) : Out :=
  match (s.port k).subOf 2 with
  | none => .next s
  | some b =>
    let s := s.takeSub k b
    .next (s.setPort k { (s.port k).dropSub 1 with rxSwitch := some (b.arg % 8, b.arg2) })

/-- LANE_SWITCH (R304, R297, R305): at codeword B. -/
def execLaneSwitch (k : Fin 16) (dir : Dir) (codeword : Nat) (s : State) : Out :=
  let x := s.port k
  match dir with
  | .tx =>
    match x.txSwitch with
    | some (n, b) =>
      if b ≠ codeword then .next s
      else
        let s := s.setPort k { x.dropSub 2 with txSwitch := none, retry := 0 }
        .next ((s.setFld (stStat k) Fd.STR_STATUS_TX_SPARED n).recordSpare k 1 n)
    | none => .next s
  | .rx =>
    match x.rxSwitch with
    | some (n, b) =>
      if b ≠ codeword then .next s
      else
        let s := s.setPort k { x with rxSwitch := none }
        let s := (s.setFld (stStat k) Fd.STR_STATUS_RX_SPARED n).recordSpare k 0 n
        .next ((s.logLink 3 k 0 0 n 0 1 0 0 0).report .laneSpared k n 0)
    | none => .next s

/-! ### Hello (R314 to R316) -/

/-- The capability bitmap of this module: lane sparing, precoding, far-end loopback (R315). -/
def ownCaps : Nat := 7

/-- The bytes of this module's hello that are signed (R314). -/
def State.helloHead (s : State) (k : Nat) (nonce : List Byte) : List Byte :=
  let q := portQ k
  let id := s.selfId q + (if s.bit (Reg.STR_SELF q) Fd.STR_SELF_VALID then 2 ^ 15 else 0)
  leBytes 2 1 ++ leBytes 2 0 ++ leBytes 4 (72 + s.boot.cert.length + 9893) ++ leBytes 2 id ++ leBytes 1 k ++ leBytes 1 0x10
    ++ leBytes 8 s.boot.fwver ++ leBytes 32 ownCaps ++ nonce ++ leBytes 4 s.boot.cert.length ++ s.boot.cert

/-- Takes the next signature index, if the identity is available and a reserved index is left (R477, R479). -/
def State.takeIndex (s : State) : Option Nat × State :=
  if s.boot.idOk && decide (s.boot.idxNext < s.boot.idxLimit) then
    (some s.boot.idxNext, { s with boot := { s.boot with idxNext := s.boot.idxNext + 1 } })
  else (none, s)

/-- Sends this module's HELLO with the partner's nonce (R314). -/
def State.sendHello (s : State) (k : Nat) (nonce : List Byte) : State :=
  match s.takeIndex with
  | (some i, s) =>
    let h := s.helloHead k nonce
    s.sendFrags k 0 2 (h ++ Config.xmssSign i h)
  | (none, s) => s

/-- Enters HELLO: HELLO_REQ carries a fresh nonce (R314). -/
def State.enterHello (s : State) (k : Nat) : State :=
  let (n, s) := s.freeBytes 16
  (((s.setPortSt k 2).setPort k { s.port k with nonce := some n }).sendFrags k 0 1 n)

/-- Whether a received hello verifies: the certificate, the signature, the echoed nonce (R315). -/
def State.helloOk (s : State) (k : Nat) (h : List Byte) : Bool :=
  let len := leNat ((h.drop 4).take 4)
  let cl := leNat ((h.drop 68).take 4)
  let cert := (h.drop 72).take cl
  leNat (h.take 2) == 1 && cl == 2948 && len == 72 + cl + 9893 && decide (len ≤ h.length)
    && leNat (cert.take 4) == 0x5444495A
    && Config.xmssVerify s.boot.mfgKey (cert.take 128) (cert.drop 128)
    && Config.xmssVerify ((cert.drop 56).take 68) (h.take (72 + cl)) ((h.drop (72 + cl)).take 9893)
    && (s.port k).nonce == some ((h.drop 52).take 16)

/-- A hello fails: the port enters DOWN (R315). -/
def State.helloFail (s : State) (k : Nat) : State :=
  (((s.setFld (stErr k) Fd.STR_ERR_HELLO_FAIL 1).logLink 8 k 0 0 0xF 0 1 0 0 0).report .helloFail k 0 0).departPort k 6 false

/-- The partner is not the one that STR_EXPECT names (R315). -/
def State.helloMismatch (s : State) (k : Nat) : State :=
  (((s.setFld (stErr k) Fd.STR_ERR_MISMATCH 1).logLink 9 k 0 0 0xF 0 1 0 0 0).report .mismatch k 0 0).departPort k 6 false

/-- The firmware verifies a whole hello (R315); the arrival is reported to the manager over another port (R318). -/
def State.verifyHello (s : State) (k : Nat) (h : List Byte) : State :=
  let q := portQ k
  let i := portK k
  let md := leNat ((h.drop 8).take 2) % 1024
  let pt := leNat ((h.drop 10).take 1) % 16
  let e := Reg.STR_EXPECT q i
  if s.portSt k ≠ 2 then s
  else if !s.helloOk k h then s.helloFail k
  else if s.bit e Fd.STR_EXPECT_EN && (s.fld e Fd.STR_EXPECT_MOD != md || s.fld e Fd.STR_EXPECT_PORT != pt) then
    s.helloMismatch k
  else
    let s := s.setReg (Reg.STR_PARTNER q i) (BitVec.ofNat 32 (md + pt * 2 ^ 10 + 2 ^ 14))
    let s := s.setPort k { s.port k with caps := leNat ((h.drop 20).take 1) &&& ownCaps }
    let s := s.setPort k { s.port k with late := s.loaded }
    (((s.setPortSt k 3).logLink 1 k 0 0 0xF 0 1 0 0 0).toManager (some k) 3
      (s.linkBody s.tideWord 1 k 0 0 0xF 0 1 0 0 0)).report .portUp k md pt

/-- A fragment of a hello or HELLO_REQ (R316). -/
def State.takeFrag (s : State) (k : Nat) (m : Msg) : State :=
  let kind := bitsOf m.addr 7 0
  let i := bitsOf m.addr 31 16
  let n := bitsOf m.addr 47 32
  let x := s.port k
  let prev := match x.frag with
    | some f => f
    | none => ⟨kind, n, 0, []⟩
  if prev.kind ≠ kind ∨ prev.count ≠ n ∨ prev.next ≠ i ∨ n ≤ i then s.helloFail k
  else
    let bs := prev.bytes ++ m.data
    if i + 1 < n then s.setPort k { x with frag := some ⟨kind, n, i + 1, bs⟩ }
    else
      let s := s.setPort k { x with frag := none }
      if kind = 1 then s.sendHello k (bs.take 16) else s.verifyHello k bs

/-- A report for the manager arrives (R318, R464). -/
def State.takeReport (s : State) (m : Msg) : State :=
  { s with fw := { s.fw with inbox := s.fw.inbox ++
    [⟨m.src, bitsOf m.addr 7 0, bitsOf m.addr 31 16, bitsOf m.addr 47 32, m.data⟩] } }

/-- MGMT (R309, R316): the oldest message of VC 3. In HELLO it is a fragment of a hello or HELLO_REQ, which is for the partner
whatever its DST. Otherwise it is served or forwarded by its DST; the manager keeps a report. -/
def execMgmt (k : Fin 16) (s : State) : Out :=
  match (s.port k).head 3 with
  | some m =>
    if m.typ ≠ 7 then .next s
    else
      let hello := bitsOf m.addr 7 0 = 1 ∨ bitsOf m.addr 7 0 = 2
      let t := s.takeMsg k m
      if s.portSt k = 2 then (if hello then settled (t.takeFrag k m) else .next t)
      else if m.dst ≠ s.selfId (portQ k) then settled (t.forward k m)
      else if hello then settled (t.takeFrag k m)
      else .next (t.takeReport m)
  | none => .next s

/-! ### Port states (R313) -/

/-- The failed lanes of L0 to L7 of a direction at link-up: those of the spare map and those that fail training (R290). -/
def State.badLanes (s : State) (k dir : Nat) (failed : List Nat) : List Nat :=
  (List.range 8).filter fun l => failed.contains l || s.spareLane k dir == l

/-- Whether training of a direction succeeds: at most one lane needs L8, and L8 works then (R290). -/
def trainOk (bad failed : List Nat) : Bool :=
  bad.isEmpty || (bad.length == 1 && !failed.contains 8)

/-- A lane replaced by L8 at link-up is recorded when the spare map does not hold it yet (R290, R305). -/
def State.linkSpare (s : State) (k dir : Nat) (bad : List Nat) : State :=
  match bad with
  | n :: _ =>
    if s.spareLane k dir = n then s
    else ((s.recordSpare k dir n).logLink 3 k dir 0 n 0 1 0 0 0).report .laneSpared k n dir
  | [] => s

/-- TRAINING_COMPLETE (R290, R313): the port links up and enters HELLO, or enters DOWN. -/
def execTrainingComplete (k : Fin 16) (rxFailed txFailed : List (Fin 9)) (s : State) : Out :=
  if s.portSt k ≠ 1 ∨ s.power.lost.contains .str then .next s
  else
    let rf := rxFailed.map (·.val)
    let tf := txFailed.map (·.val)
    let rb := s.badLanes k 0 rf
    let tb := s.badLanes k 1 tf
    if !(trainOk rb rf && trainOk tb tf) then settled (s.departPort k 5 false)
    else
      let s := s.setPort k { downs := (s.port k).downs, rxNo8 := rf.contains 8 }
      let s := (s.setFld (stStat k) Fd.STR_STATUS_RX_SPARED (rb.headD 0xF)).setFld (stStat k) Fd.STR_STATUS_TX_SPARED
        (tb.headD 0xF)
      .next (((s.linkSpare k 0 rb).linkSpare k 1 tb).enterHello k)

/-- TRAINING_TIMEOUT (R290, R313). -/
def execTrainingTimeout (k : Fin 16) (s : State) : Out :=
  if s.portSt k = 1 then settled (s.departPort k 5 false) else .next s

/-- RETRAIN_COMPLETE (R306): the buffers, sequence numbers and credits are kept. -/
def execRetrainComplete (k : Fin 16) (s : State) : Out :=
  .next (s.setPort k { s.port k with retraining := false })

/-- RETRAIN_TIMEOUT (R306). -/
def execRetrainTimeout (k : Fin 16) (s : State) : Out :=
  if (s.port k).retraining then settled (s.departPort k 1 false) else .next s

/-- HELLO_TIMEOUT (R313). -/
def execHelloTimeout (k : Fin 16) (s : State) : Out :=
  if s.portSt k = 2 then settled (s.helloFail k) else .next s

/-- DOWN_TIMER (R313): one second after the entry into DOWN. -/
def execDownTimer (k : Fin 16) (s : State) : Out :=
  if s.portSt k = 6 ∧ !s.bit (stStat k) Fd.STR_STATUS_HOLD ∧ !s.power.lost.contains .str then .next (s.setPortSt k 1)
  else .next s

/-- HOLD_CLEAR (R313): software clears HOLD; `secondPassed` says whether the second after the entry into DOWN has passed. -/
def execHoldClear (r : Requester) (k : Fin 16) (secondPassed : Bool) (s : State) : Out :=
  .next (s.guarded r (stStat k) fun s =>
    if !s.bit (stStat k) Fd.STR_STATUS_HOLD then s
    else
      let s := s.setFld (stStat k) Fd.STR_STATUS_HOLD 0
      if s.portSt k = 6 && secondPassed && !s.power.lost.contains .str then s.setPortSt k 1 else s)

/-- EN written 1: OFF leaves to TRAINING (R313). -/
def State.portOn (s : State) (k : Nat) : State :=
  let s := s.setFld (stCtl k) Fd.STR_CTL_EN 1
  if s.portSt k = 0 then s.setPortSt k 1 else s

/-- EN written 0 (R317, R322): an ACTIVE port sends LEAVE in the next CTRL position and then departs to OFF; any other state
but OFF departs at once. -/
def State.portOff (s : State) (k : Nat) : State :=
  let s := s.setFld (stCtl k) Fd.STR_CTL_EN 0
  if s.portSt k = 0 then s
  else if s.portSt k = 4 ∧ s.flitsFlow k then s.setPort k { s.port k with leaving := some true }
  else s.departPort k 4 true

/-- EN (R322). -/
def execEn (r : Requester) (k : Fin 16) (on : Bool) (s : State) : Out :=
  settled (s.guarded r (stCtl k) fun s => if on then s.portOn k else s.portOff k)

/-- MAINT written (R319): 1 takes an ACTIVE port to MAINT, and is ignored while the loaded program schedules the port; 0 takes
it from MAINT to TRAINING. -/
def State.portMaint (s : State) (k : Nat) (on : Bool) : State :=
  if on then
    if s.loaded && s.bit (stStat k) Fd.STR_STATUS_SCHED then s
    else
      let s := s.setFld (stCtl k) Fd.STR_CTL_MAINT 1
      if s.portSt k = 4 then s.setPortSt k 5 else s
  else
    let s := s.setFld (stCtl k) Fd.STR_CTL_MAINT 0
    if s.portSt k = 5 then
      let s := (s.setFld (stStat k) Fd.STR_STATUS_FAR_LB 0).setFld (stLb k) Fd.STR_LB_CTL_GO 0
      (s.setPort k { s.port k with lb := none, lbAsk := false }).setPortSt k 1
    else s

/-- MAINT (R319). -/
def execMaint (r : Requester) (k : Fin 16) (on : Bool) (s : State) : Out :=
  .next (s.guarded r (stCtl k) fun s => s.portMaint k on)

/-- RETRAIN (R306): the hardware clears the bit. -/
def execRetrain (r : Requester) (k : Fin 16) (s : State) : Out :=
  .next (s.guarded r (stCtl k) fun s => s.retrainPort k)

/-- ADMIT (R322): VERIFIED leaves to ACTIVE. -/
def execAdmitPort (r : Requester) (k : Fin 16) (s : State) : Out :=
  .next (s.guarded r (stCtl k) fun s => if s.portSt k = 3 then s.setPortSt k 4 else s)

/-- LEAVE written (R317): the port sends LEAVE in the next CTRL position and then enters DOWN, or OFF where EN was written to 0 before;
a port that sends no flits departs at once. -/
def State.portLeave (s : State) (k : Nat) : State :=
  if s.portSt k = 0 ∨ s.portSt k = 6 then s
  else if s.flitsFlow k then s.setPort k { s.port k with leaving := some ((s.port k).leaving == some true) }
  else s.departPort k 4 false

/-- LEAVE (R317). -/
def execLeave (r : Requester) (k : Fin 16) (s : State) : Out :=
  settled (s.guarded r (stCtl k) fun s => s.portLeave k)

/-! ### Loopbacks (R319, R320) -/

/-- Clears LB_LANE_ERR (R322). -/
def State.clearLaneErr (s : State) (k : Nat) : State :=
  (List.range 9).foldl (fun s l => s.setReg (Reg.STR_LB_LANE_ERR (portQ k) (portK k) l) 0) s

/-- LB_CTL written with GO (R319, R322): ignored outside MAINT, with a reserved depth, and while a loopback runs. -/
def State.lbGo (s : State) (k : Nat) (v : Word) : State :=
  let x := s.port k
  let s := s.swWriteKeep (stLb k) [Fd.STR_LB_CTL_GO] v
  let d := s.fld (stLb k) Fd.STR_LB_CTL_DEPTH
  if s.portSt k ≠ 5 ∨ 4 < d ∨ x.lb.isSome ∨ x.lbAsk then s
  else
    let s := (s.setFld (stLb k) Fd.STR_LB_CTL_GO 1).clearLaneErr k
    if d = 4 then s.setPort k { x.addSub 3 4 0 with lbAsk := true } else s.setPort k { x with lb := some d }

/-- STRAIT_LOOPBACK_GO (R319). -/
def execStraitLoopbackGo (r : Requester) (k : Fin 16) (v : BitVec 32) (s : State) : Out :=
  .next (s.guarded r (stLb k) fun s => s.lbGo k (v ||| 0x10))

/-- Whether the partner's request is honoured over this port's own pending one: it comes from the lower module id, or from the
lower port when the ids are equal (R320). -/
def State.partnerFirst (s : State) (k : Nat) : Bool :=
  let p := Reg.STR_PARTNER (portQ k) (portK k)
  let pm := s.fld p Fd.STR_PARTNER_MOD
  let id := s.selfId (portQ k)
  decide (pm < id) || (pm == id && decide (s.fld p Fd.STR_PARTNER_PORT < k))

/-- LB_REQ (R320). -/
def execLbReq (k : Fin 16) (s : State) : Out :=
  match (s.port k).subOf 3 with
  | none => .next s
  | some b =>
    let s := s.takeSub k b
    let x := s.port k
    let ok := s.portSt k == 5 && x.caps / 4 % 2 == 1 && x.lb.isNone && b.arg % 8 == 4 && (!x.lbAsk || s.partnerFirst k)
    if ok then .next ((s.setPort k (x.addSub 4 4 0)).setFld (stStat k) Fd.STR_STATUS_FAR_LB 1)
    else .next (s.setPort k (x.addSub 5 4 0))

/-- LB_ACK (R320): the loopback starts. -/
def execLbAck (k : Fin 16) (s : State) : Out :=
  match (s.port k).subOf 4 with
  | none => .next s
  | some b =>
    let s := s.takeSub k b
    let x := s.port k
    if x.lbAsk then .next (s.setPort k { x.dropSub 3 with lbAsk := false, lb := some 4 }) else .next s

/-- The partner refuses depth 4 (R320): REFUSED is set, and the loopback is complete without a pass. -/
def State.lbRefused (s : State) (k : Nat) : State :=
  let s := s.setFld (Reg.STR_LB_RESULT (portQ k) (portK k)) Fd.STR_LB_RESULT_REFUSED 1
  ((s.setFld (stLb k) Fd.STR_LB_CTL_GO 0).setFld (stLb k) Fd.STR_LB_CTL_DONE 1).setFld (stLb k) Fd.STR_LB_CTL_PASS 0

/-- LB_REFUSE (R320). -/
def execLbRefuse (k : Fin 16) (s : State) : Out :=
  match (s.port k).subOf 5 with
  | none => .next s
  | some b =>
    let s := s.takeSub k b
    let x := s.port k
    if x.lbAsk then .next ((s.setPort k { x.dropSub 3 with lbAsk := false }).lbRefused k) else .next s

/-- Symbol errors that INJECT puts into codeword `i` at depth 1 (R319). -/
def injected (i : Nat) : Nat := if i % 256 = 255 then 16 else if i % 16 = 15 then 15 else 0

/-- What a loopback found: mismatches, the first failing lane, and the codewords, flits or messages that it hit in vain. -/
structure LbFound where
  errs : Nat
  lane : Nat

/-- Depths 0 and 4 (R319, R320, R322): the bit errors of each lane. -/
def State.lbLanes (s : State) (k : Nat) (laneErrs : List Nat) : LbFound × State :=
  let e := (List.range 9).map fun l => laneErrs.getD l 0
  (⟨e.sum, ((List.range 9).find? fun l => e.getD l 0 != 0).getD 0xF⟩,
    (List.range 9).foldl (fun s l =>
      s.setReg (Reg.STR_LB_LANE_ERR (portQ k) (portK k) l) (BitVec.ofNat 32 (e.getD l 0))) s)

/-- Depth 1 (R319): 65,536 codewords with what INJECT puts into them and a symbol error more for each time that `faults` names the
codeword. One of 16 injected errors must be flagged, every other one corrected or unchanged; the decoder's counters count
(DEDUCED, log entry 121). -/
def State.lbCodes (s : State) (k : Nat) (inject : Bool) (faults : List Nat) : LbFound × State :=
  let f := faults.filter (· < 65536)
  let inj (i : Nat) : Nat := if inject then injected i else 0
  let hit := f.dedup
  let failing := hit.filter fun i => inj i ≤ rsCorrects && decide (rsCorrects < inj i + f.count i)
  let newCe := hit.filter fun i => inj i = 0 && decide (f.count i ≤ rsCorrects)
  let lostCe := failing.filter fun i => inj i ≠ 0
  let ce := (if inject then 3840 else 0) + newCe.length - lostCe.length
  let ue := (if inject then 256 else 0) + failing.length
  let s := (s.count (Reg.STR_CNT_FEC_CE (portQ k) (portK k)) ce).count (Reg.STR_CNT_FEC_UE (portQ k) (portK k)) ue
  (⟨failing.length, 0xF⟩, if ue = 0 then s else s.setFld (stErr k) Fd.STR_ERR_FEC_UE 1)

/-- Depth 2 (R319): 65,536 DATA flits, every 64th sent with a bad CRC under INJECT, and those that `faults` names damaged as well.
Each flit that is discarded is replayed and then delivered, so retries above the flits injected are what fails. How many flits a
replay sends again is free (log entry 121). -/
def State.lbFlits (s : State) (k : Nat) (inject : Bool) (faults : List Nat) : LbFound × State :=
  let extra := (faults.filter fun i => i < 65536 && !(inject && i % 64 == 63)).dedup.length
  let bad := (if inject then 1024 else 0) + extra
  let (w, s) := s.free
  let s := (s.count (Reg.STR_CNT_FLIT_TX (portQ k) (portK k)) (65536 + if bad = 0 then 0 else bad + w.toNat % 2 ^ 26)).count
    (Reg.STR_CNT_FLIT_RX (portQ k) (portK k)) 65536
  let s := (s.count (Reg.STR_CNT_CRC (portQ k) (portK k)) bad).count (Reg.STR_CNT_RETRY (portQ k) (portK k)) bad
  (⟨extra, 0xF⟩, if bad = 0 then s else s.setFld (stErr k) Fd.STR_ERR_CRC 1)

/-- One looped-back message of depth 3 (R319): served as the partner's would be (R308, R312); whether it completed OK. -/
def State.lbAccess (s : State) (a : Nat) (wr : Bool) : Bool × State :=
  let kd := s.remKind a 256 wr
  if kd ≠ 0 then (false, s.accessErr a 10 wr kd)
  else if wr then
    let (d, s) := s.freeBytes 256
    let r := s.busWrite a d 10 0xFF
    (!r.bad, r.st)
  else
    let r := s.busRead a 256 10 0xFF
    (!r.bad, r.st)

/-- Depth 3 (R319): 1,024 writes of 256 bytes of a pattern whose seed the spec does not give, and as many reads; each takes the
lowest free tracker entry and gives it back (R310). A message fails that does not complete OK, or whose data `faults` says differ. -/
def State.lbMessages (s : State) (k : Nat) (faults : List Nat) : LbFound × State :=
  let b := s.addr48 (Reg.STR_LB_ADDR_LO (portQ k) (portK k)) (Reg.STR_LB_ADDR_HI (portQ k) (portK k))
  let pass (wr : Bool) (e : Nat × State) : Nat × State := (List.range 1024).foldl (fun e i =>
    let r := e.2.lbAccess (b + 256 * i) wr
    (e.1 + (if r.1 && (wr || !faults.contains i) then 0 else 1), r.2)) e
  let r := pass false (pass true (0, s))
  (⟨r.1, 0xF⟩, r.2)

/-- What a loopback of a depth does and finds (R319). -/
def State.lbRun (s : State) (k d : Nat) (laneErrs faults : List Nat) : LbFound × State :=
  let inject := s.bit (stLb k) Fd.STR_LB_CTL_INJECT
  match d with
  | 1 => s.lbCodes k inject faults
  | 2 => s.lbFlits k inject faults
  | 3 => s.lbMessages k faults
  | _ => s.lbLanes k laneErrs

/-- A loopback ends (R319, R322). -/
def State.lbDone (s : State) (k d : Nat) (laneErrs faults : List Nat) : State :=
  let a := Reg.STR_LB_RESULT (portQ k) (portK k)
  let (f, s) := (s.setPort k { s.port k with lb := none }).lbRun k d laneErrs faults
  let s := ((s.setFld a Fd.STR_LB_RESULT_ERRS (min f.errs 0xFFFF)).setFld a Fd.STR_LB_RESULT_LANE f.lane).setFld a
    Fd.STR_LB_RESULT_REFUSED 0
  let s := ((s.setFld (stLb k) Fd.STR_LB_CTL_GO 0).setFld (stLb k) Fd.STR_LB_CTL_DONE 1).setFld (stLb k)
    Fd.STR_LB_CTL_PASS (if f.errs = 0 then 1 else 0)
  if f.errs = 0 then s else (s.logLink 11 k 0 0 f.lane d f.errs 0 0 0).report .strLoopbackFail k d f.errs

/-- STRAIT_LOOPBACK_DONE (R319): the bit errors that each lane found at depths 0 and 4, the codewords or flits where something went
wrong beside what INJECT does at depths 1 and 2, and the reads of depth 3 whose data differ. A loopback of depth 3 waits while
the Quarter's tracker has no free entry (R310). -/
def execStraitLoopbackDone (k : Fin 16) (laneErrs faults badReads : List Nat) (s : State) : Out :=
  match (s.port k).lb with
  | none => .next s
  | some d => if d = 3 ∧ (s.freeTrk (portQ k)).isNone then .next s
    else .next (s.lbDone k d laneErrs (if d = 3 then badReads else faults))

end Sys2Proof.Machine
end

