-- ==== Sys2Proof/Machine/Boot.lean ====
section
/-! DEFINITION. Boot, firmware verification, identity, the signature index and the flash controller (chapter 16). Each stage of
R467 is one step: the stage's work with its outcome, and the move to the next stage. -/

namespace Sys2Proof.Machine

/-! ### Stages -/

/-- A field of BOOT_STATUS. -/
def State.bootFld (s : State) (f : Fld) : Nat := s.fld Reg.BOOT_STATUS f

/-- Sets a field of BOOT_STATUS. -/
def State.setBoot (s : State) (f : Fld) (v : Nat) : State := s.setFld Reg.BOOT_STATUS f v

/-- Whether the module is up, not in RECOVERY, and at a stage. -/
def State.atStage (s : State) (n : Nat) : Bool :=
  s.power.phase == 4 && s.bootFld Fd.BOOT_STATUS_STAGE == n && s.bootFld Fd.BOOT_STATUS_RECOVERY == 0

/-- Moves on to a stage. -/
def State.toStage (s : State) (n : Nat) : State := s.setBoot Fd.BOOT_STATUS_STAGE n

/-- A record of class 8 about boot: kind 3, the outcome of a stage (R468); kind 4, equal SEQ of a block type (R486). The body
is the model's (log entry 39). -/
def State.bootRec (s : State) (kind a : Nat) : State := s.log 8 (leBytes 1 kind ++ leBytes 1 a)

/-- Sets a SHORT bit of a stage and writes its record (R468). -/
def State.short (s : State) (stage : Nat) (f : Fld) : State := (s.setBoot f 1).bootRec 3 stage

/-! ### Firmware images (R472, R473) -/

/-- The highest-GEN certificate of a role that verifies under the root: its public key. `a` is the image's address. -/
def State.certKey (s : State) (a role : Nat) : Option (List Byte) :=
  let root := s.bytes (a + 16) 68
  let at' (i : Nat) : Nat := a + 84 + 2904 * i
  let l := (List.range (s.memNat (a + 4) 4)).filter fun i =>
    s.memNat (at' i) 1 == role && Config.xmssVerify root (s.bytes (at' i) 84) (s.bytes (at' i + 84) 2820)
  (l.foldl (fun b i => match b with
    | none => some i
    | some j => if s.memNat (at' j + 4) 4 < s.memNat (at' i + 4) 4 then some i else some j) none).map fun i =>
      s.bytes (at' i + 16) 68

/-- Address of the image manifest: it follows the key manifest, whose length is BYTES. -/
def State.manAt (s : State) (a : Nat) : Nat := a + s.memNat (a + 8) 4

/-- NSEC of an image. -/
def State.nsec (s : State) (a : Nat) : Nat := s.memNat (s.manAt a + 16) 4

/-- Address of the entry of the first section of a kind, of at most 16 (R472). -/
def State.secAt (s : State) (a kind : Nat) : Option Nat :=
  ((List.range (min 16 (s.nsec a))).map fun i => s.manAt a + 64 + 64 * i).find? fun e => s.memNat e 1 == kind

/-- The bytes of a section. -/
def State.secBytes (s : State) (a e : Nat) : List Byte := s.bytes (a + s.memNat (e + 8) 8) (s.memNat (e + 16) 8)

/-- Whether a section has the digest that the manifest gives. -/
def State.secOk (s : State) (a e : Nat) : Bool := shake256 (s.secBytes a e) 32 == s.bytes (e + 32) 32

/-- Whether the signatures of an image verify (R473). -/
def State.imgSigned (s : State) (a : Nat) : Bool :=
  let m := s.manAt a
  let n := s.nsec a
  s.memNat a 4 == 0x4E4D4B5A && s.memNat m 4 == 0x4D57465A && s.memNat (m + 4) 2 == 1 && decide (1 ≤ n) && decide (n ≤ 16)
    && shake256 (s.bytes (a + 16) 68) 32 == Config.romDigest
    && match s.certKey a 1 with
      | none => false
      | some k => Config.xmssVerify k (s.bytes m (64 + 64 * n)) (s.bytes (m + 64 + 64 * n) 2820)

/-- FLOOR of BOOTCFG (R485, R488). -/
def State.bootFloor (s : State) : Nat := leNat ((s.blkPayload 2).drop 8 |>.take 8)

/-- FWVER of an image. -/
def State.imgVer (s : State) (a : Nat) : Nat := s.memNat (s.manAt a + 8) 8

/-- Whether STEPS includes B0 and FWVER is at least FLOOR (R457, R473). -/
def State.imgServes (s : State) (a : Nat) : Bool :=
  s.memNat (s.manAt a + 6) 2 / 16 % 2 == 1 && decide (s.bootFloor ≤ s.imgVer a)

/-- Whether the ROM can run an image: R473, with its Pilot section, of at most 3 MiB, checked. -/
def State.imgRuns (s : State) (a : Nat) : Bool :=
  s.imgSigned a && s.imgServes a && match s.secAt a 1 with
    | some e => decide (s.memNat (e + 16) 8 ≤ 0x300000) && s.secOk a e
    | none => false

/-- An entry of the measurement log (R481). -/
def measEntry (typ sub ver : Nat) (digest : List Byte) : List Byte :=
  leBytes 2 typ ++ leBytes 2 sub ++ leBytes 4 0 ++ leBytes 8 ver ++ List.replicate 16 0 ++ digest

/-- Adds an entry to the measurement log. -/
def State.measure (s : State) (typ sub ver : Nat) (bs : List Byte) : State :=
  { s with boot := { s.boot with meas := s.boot.meas ++ [measEntry typ sub ver (shake256 bs 32)] } }

/-- Copies a section to its load address and measures it. -/
def State.loadSec (s : State) (a e : Nat) : State :=
  let bs := s.secBytes a e
  ((s.writeMem (s.memNat (e + 24) 8 % 2 ^ 48) bs 9 0xFF).2).measure 3 (s.memNat e 1) (s.imgVer a) bs

/-- Runs an image that verifies: keys, version, measurements, Pilot section. -/
def State.runImage (s : State) (a : Nat) : State :=
  let n := s.nsec a
  let s := { s with boot := { s.boot with
               fwver := s.imgVer a, packKey := (s.certKey a 2).getD [], mfgKey := (s.certKey a 3).getD [], meas := [] } }
  let s := s.measure 1 0 0 (s.bytes a (s.memNat (a + 8) 4))
  let s := s.measure 2 0 (s.imgVer a) (s.bytes (s.manAt a) (64 + 64 * n + 2820))
  match s.secAt a 1 with
  | some e => s.loadSec a e
  | none => s

/-- Address of the firmware image of a copy (R484). -/
def imgBase (c : Nat) : Nat := flashBase c + 0x200000

/-- The image that runs. -/
def State.ownImage (s : State) : Nat := imgBase (s.bootFld Fd.BOOT_STATUS_FWCOPY)

/-! ### Configuration at boot (R486, R488) -/

/-- One block type at boot: CFG where a copy is invalid, a record where both have one SEQ, the measurement of the copy used,
and the repair of the other copy. -/
def State.bootBlock (s : State) (t : Nat) : State :=
  let va := s.blkValid 0 t
  let vb := s.blkValid 1 t
  let s := if va && vb then (if s.blkSeq 0 t == s.blkSeq 1 t then s.bootRec 4 t else s)
    else s.setFld Reg.BOOT_ERR Fd.BOOT_ERR_CFG 1
  match s.blkCopy t with
  | none => s
  | some c =>
    let p := s.blkPayload t
    let s := s.measure (if t = 7 then 5 else 4) t (s.blkSeq c t) (s.bytes (slotAt c t) (32 + p.length))
    if va && vb then s else (s.writeBlock t p).setFld Reg.BOOT_ERR Fd.BOOT_ERR_REPAIR 1

/-- Entry `i` of a HISTORY payload (R448). -/
def histEnt (p : List Byte) (i : Nat) : HistEnt :=
  let o := 1024 + 16 * i
  { unit := payNat p o 2, typ := payNat p (o + 2) 1, cls := payNat p (o + 3) 1, ontime := payNat p (o + 4) 4
    tide := payNat p (o + 8) 4, code := payNat p (o + 12) 4 }

/-- The entries of a HISTORY payload. The block does not say which uncorrectable errors their Tide had counted already: those that
another entry precedes with its unit, type, Tide and address bits (DESIGN CHOICE, log entry 36). -/
def histEnts (p : List Byte) : List HistEnt :=
  (List.range (payNat p 6 2)).foldl (fun l i =>
    let e := histEnt p i
    let again := onceInTide e.unit e.cls e.typ && l.any fun x =>
      x.unit == e.unit && x.cls == e.cls && x.typ == e.typ && x.tide == e.tide && x.code == e.code
    l ++ [{ e with again := again }]) []

/-- The history that a HISTORY payload holds (R448). -/
def histOf (p : List Byte) : Hist :=
  { ents := histEnts p
    ontime := payNat p 8 8, cperId := payNat p 16 8, packSeq := payNat p 24 8, ret := payNat p 32 18
    replace := payNat p 50 1 == 1, policy := payNat p 64 64
    lastpass := (List.range 144).foldl (fun t i => tset (fun _ => 0) t i (payNat p (128 + 4 * i) 4)) []
    wrote := payNat p 8 8 }

/-- Takes the HISTORY block, or starts a new empty one; with no TESTPACK block there is no pack, and PACK_SEQ is 0 (R488). -/
def State.bootHist (s : State) : State :=
  let p := s.blkPayload 5
  let h := if p.isEmpty then {} else histOf p
  let h := if (s.blkPayload 7).isEmpty then { h with packSeq := 0 } else h
  { s with fw := { s.fw with hist := h }, boot := { s.boot with histNew := p.isEmpty } }

/-- The default MGMT payload (R504): the MAC from the serial number, one window, and the limits. -/
def State.mgmtDefault (s : State) : List Byte :=
  let serial := ((s.blkPayload 1).drop 16408).take 16
  let serial := serial ++ List.replicate (16 - serial.length) 0
  leBytes 1 2 ++ shake256 serial 5 ++ List.replicate 74 0 ++ leBytes 8 0x20BFC000000 ++ leBytes 8 0x4000000
    ++ List.replicate 48 0 ++ leBytes 2 2400 ++ leBytes 2 1600 ++ leBytes 1 95

/-- Copies one window of the MGMT block; one that does not lie in a region that R504 permits stays not valid. -/
def State.bootWin (s : State) (p : List Byte) (w : Nat) : State :=
  let base := payNat p (80 + 16 * w) 8
  let size := payNat p (88 + 16 * w) 8
  let ok := base % 4096 == 0 && size % 4096 == 0 && inRingMem base size
  let s := (s.setReg (Reg.MGT_WIN_LO w) (BitVec.ofNat 32 base)).setReg (Reg.MGT_WIN_HI w) (BitVec.ofNat 32 (base / 2 ^ 32))
  s.setFld (Reg.MGT_WIN_SIZE w) Fd.MGT_WIN_SIZE_SIZE (if ok then size / 4096 else 0)

/-- The firmware copies the MGMT block into MGT_MAC, MGT_WIN, MGT_PCAP and MGT_THERM (R504). -/
def State.bootMgmt (s : State) : State :=
  let none? := (s.blkPayload 6).isEmpty
  let p := if none? then s.mgmtDefault else s.blkPayload 6
  let s := if none? then s.log 10 (leBytes 1 1) else s
  let s := (s.setReg Reg.MGT_MAC_LO (BitVec.ofNat 32 (payNat p 0 4))).setReg Reg.MGT_MAC_HI (BitVec.ofNat 32 (payNat p 4 2))
  let s := (List.range 4).foldl (fun s w => s.bootWin p w) s
  let s := (s.setFld Reg.MGT_PCAP Fd.MGT_PCAP_LIMIT (payNat p 144 2)).setFld Reg.MGT_PCAP Fd.MGT_PCAP_ALT (payNat p 146 2)
  s.setFld Reg.MGT_THERM Fd.MGT_THERM_THROTTLE (payNat p 148 1)

/-- ROM (R467, R468, R473, R474, R488): the copy with the higher FWDIR SEQ first, then the other; neither verifies: RECOVERY. -/
def execRom (s : State) : Out :=
  if !s.atStage 1 then .next s
  else
    let order := if s.blkCopy 0 = some 1 then [1, 0] else [0, 1]
    let bad := order.takeWhile fun c => !s.imgRuns (imgBase c)
    let s := { s with boot := { s.boot with badImg := bad, shoreTries := 0 } }
    let s := bad.foldl (fun s c => s.setFld Reg.BOOT_ERR (if c = 0 then Fd.BOOT_ERR_IMG_A else Fd.BOOT_ERR_IMG_B) 1) s
    match order.drop bad.length with
    | [] => .next (s.setBoot Fd.BOOT_STATUS_RECOVERY 1)
    | c :: _ =>
      let s := (s.setBoot Fd.BOOT_STATUS_FWCOPY c).runImage (imgBase c)
      let s := (List.range 8).foldl State.bootBlock s
      .next (s.bootHist.bootMgmt.toStage 2)

/-- A write of BOOT_RCV (R474, R490): outside RECOVERY a GO is ignored; in RECOVERY the image in Pilot shared SRAM is verified
and, if it verifies, run. -/
def State.rcvWrite (s : State) (v : Word) : State :=
  let s := s.swWriteKeep Reg.BOOT_RCV [Fd.BOOT_RCV_GO] v
  let n := s.fld Reg.BOOT_RCV Fd.BOOT_RCV_LEN
  if s.bootFld Fd.BOOT_STATUS_RECOVERY == 1 && Fd.BOOT_RCV_GO.get v == 1 && decide (1 ≤ n) && decide (n ≤ 0x400000)
    && s.imgRuns 0x400000 then s.runImage 0x400000 else s

/-- BOOT_RCV_GO: a write of BOOT_RCV whose GO bit is 1. -/
def execBootRcvGo (r : Requester) (v : BitVec 32) (s : State) : Out :=
  .next (s.guarded r Reg.BOOT_RCV fun s => s.rcvWrite (v ||| 0x80000000))

/-! ### Identity and the signature index (R475 to R480) -/

/-- The identity is not available (R468, R477, R480). -/
def State.idFail (s : State) : State :=
  ({ s with boot := { s.boot with idOk := false } } : State).short 2 Fd.BOOT_STATUS_ID_FAIL

/-- Reserves the next block of 1,024 signature indices in the copy that does not hold the current record (R479, R480). -/
def State.reserveIdx (s : State) (readsBack : Bool) : State :=
  let (seq, limit, copy) := match s.idxCurrent with | some (q, l, c, _) => (q, l, c) | none => (0, 0, 1)
  if limit + 1024 > 2 ^ 40 then s.idFail
  else if !readsBack then s.setFld Reg.BOOT_ERR Fd.BOOT_ERR_IDX 1
  else
    let s := s.idxAppend (1 - copy) (seq + 1) (limit + 1024)
    { s with boot := { s.boot with idxSeq := seq + 1, idxLimit := limit + 1024 } }

/-- The bytes "ZV-" with a name. -/
def zvTag (name : List Byte) : List Byte := [0x5A, 0x56, 0x2D] ++ name

/-- Whether the seed, the certificate and the derived key agree (R475 to R477): `p` is the payload of the IDENTITY block. -/
def State.identityOk (s : State) (p puf : List Byte) : Bool :=
  let cert := (p.drop 16400).take 2948
  let k := Config.fuzzySeed puf (p.take 16384)
  let part (name : List Byte) : List Byte := shake256 (zvTag name ++ k) 32
  cert.length == 2948 && payNat cert 0 4 == 0x5444495A && payNat cert 4 2 == 1
    && shake256 (zvTag [0x4B, 0x43, 0x48, 0x4B] ++ k) 16 == (p.drop 16384).take 16
    && Config.xmssVerify s.boot.mfgKey (cert.take 128) (cert.drop 128)
    && Config.xmssPublic (part [0x53, 0x4B, 0x53]) (part [0x53, 0x4B, 0x50]) (part [0x50, 0x55, 0x42])
      == (cert.drop 56).take 68

/-- IDENTITY (R467, R468, R475 to R479): with the identity available one block of indices is reserved, and the indices from the
old LIMIT upward may be used. -/
def execIdentity (puf : List (BitVec 8)) (s : State) : Out :=
  if !s.atStage 2 then .next s
  else
    let p := s.blkPayload 1
    if !s.identityOk p puf then .next (s.idFail.toStage 3)
    else
      let cert := (p.drop 16400).take 2948
      let old := match s.idxCurrent with | some (_, l, _, _) => l | none => 0
      let s := { s with boot := { s.boot with
                   idOk := true, cert := cert, serial := payNat cert 8 16, idxNext := old, idxLimit := old } }
      .next ((s.reserveIdx true).toStage 3)

/-- INDEX_RESERVATION (R479, R480): in service, as soon as fewer than 256 indices of the block remain. -/
def execIndexReservation (readsBack : Bool) (s : State) : Out :=
  if s.boot.idOk && decide (s.boot.idxLimit < s.boot.idxNext + 256) then .next (s.reserveIdx readsBack) else .next s

/-! ### Isthmus, memory, Islands (R467, R468, R470) -/

/-- The two Quarters of an Isthmus pair. -/
def isthmusPair (i : Nat) : Nat × Nat := [(0, 1), (0, 2), (0, 3), (1, 2), (1, 3), (2, 3)].getD i (0, 0)

/-- Whether a Quarter is brought up. -/
def State.quarterUp (s : State) (q : Nat) : Bool := s.boot.qUp.contains q

/-- The Isthmus takes ISTH_LIMIT at start-up (R459). -/
def State.isthStart (s : State) : State := { s with fw := { s.fw with isthLimit := s.policy 12 1 } }

/-- ISTHMUS (R467, R468): the pairs that fail; a Quarter that no pair reaches is not brought up. -/
def execIsthmus (failedPairs : List (Fin 6)) (s : State) : Out :=
  if !s.atStage 3 then .next s
  else
    let good := ((List.range 6).filter fun i => !(failedPairs.map (·.val)).contains i).map isthmusPair
    let up := (List.range 4).filter fun q => good.any fun e => e.1 == q || e.2 == q
    let s := { s with boot := { s.boot with qUp := up } }
    .next ((if failedPairs.isEmpty then s else s.short 3 Fd.BOOT_STATUS_ISTHMUS).isthStart.toStage 4)

/-- The DRAM controllers. -/
def dramUnits : List MemUnit := (List.finRange 8).map .hbm ++ (List.finRange 32).map .lpx

/-- A controller that could not train enters FAILED and is reported (R281). -/
def State.memFails (s : State) (m : MemUnit) : State :=
  let (t, u) := memTier m
  let s := (s.setFld (memReg m 0x000) Fd.HBM_STATUS_STATE 3).setFld (memReg m 0x010) Fd.HBM_ERR_LINK 1
  ((s.logMem 7 t u 1 0 (0x7F + 0xFF * 2 ^ 16) (s.selfId 0)).report .ctrlFailed t u 0).report .memoryShortfall t u 0

/-- The rows of a stack that the spare map repairs, as addresses (R275, R485, log entry 26). -/
def State.mapRows (s : State) (k : Nat) : List Nat :=
  let p := s.blkPayload 4
  (List.range 256).filterMap fun i =>
    let w := (p.drop (32 + 2048 * k + 8 * i)).take 8
    if w.length < 8 ∨ leNat w = 2 ^ 64 - 1 then none else some (hbmBase k + leNat w % 0x900000000)

/-- Whether two addresses lie in one HBM3E row: the same stack, stack ID, pseudo-channel, bank and row (R276). -/
def sameRow (a b : Nat) : Bool :=
  match region a, region b with
  | .hbm j, .hbm k =>
    let x := hbmPlace (a - hbmBase j)
    let y := hbmPlace (b - hbmBase k)
    j == k && hbmPseudo (a - hbmBase j) == hbmPseudo (b - hbmBase k) && x.1 == y.1 && x.2.1 == y.2.1 && x.2.2.1 == y.2.2.1
      && x.2.2.2.2 == y.2.2.2.2
  | _, _ => false

/-- Lane repair and soft row repair from the spare map (R275, R467): spare lanes and rows take the place of those named, so that the
codewords of a repaired row carry no error of the old one. -/
def State.repairHbm (s : State) : State :=
  let rows := (List.range 8).flatMap s.mapRows
  { s with
    cw := s.cw.filter fun e => !rows.any fun r => sameRow r e.1
    boot := { s.boot with
      rowRepairs := rows
      laneRepairs := (List.range 8).map fun k => ((s.blkPayload 4).drop (32 + 8 * 2048 + 64 * k)).take 64 } }

/-- The UNIT word of a DRAM controller (R420). -/
def dramWord : MemUnit → Nat
  | .lag p => 0x1000 + p
  | .hbm k => 0x3000 + k
  | .lpx ch => 0x4000 + ch

/-- MEMORY (R467, R468, R275, R281): HBM3E is repaired from the spare map; the controllers of the Quarters that are brought up train;
those that cannot are FAILED. The firmware has acted on each (R421). -/
def execMemory (failed : List MemUnit) (s : State) : Out :=
  if !s.atStage 4 then .next s
  else
    let us := dramUnits.filter fun m => s.quarterUp (memQuarter m)
    let bad := us.filter fun m => failed.contains m
    let s := us.foldl (fun s m => (if failed.contains m then s.memFails m
      else s.setFld (memReg m 0x000) Fd.HBM_STATUS_STATE 1).acted (dramWord m)) s.repairHbm
    .next ((if bad.isEmpty then s else s.short 4 Fd.BOOT_STATUS_MEMORY).toStage 5)

/-- MODE of BOOTCFG, 2 by default (R485, R488). -/
def State.cfgMode (s : State) : Nat := let p := s.blkPayload 2; if p.isEmpty then 2 else payNat p 0 1

/-- Whether stage ISLANDS runs the FULL suite (R470). Nothing that the spec gives the module tells that an image boots for the
first time: that is a free value (log entry 1). -/
def State.fullSuite (s : State) : Bool × State :=
  let m := s.cfgMode
  if m = 1 ∨ s.boot.histNew ∨ (m = 2 ∧ payNat (s.blkPayload 2) 16 8 + 86400 ≤ s.ontime) then (true, s)
  else
    let (w, s) := s.free
    (w.toNat % 2 == 1, s)

/-- BOOTCFG with the powered-on time of a FULL pass at byte 16 (R470). -/
def State.noteFull (s : State) : State :=
  let p := s.blkPayload 2
  let p := if p.isEmpty then leBytes 1 2 else p
  let p := p ++ List.replicate (24 - p.length) 0
  s.writeBlock 2 (p.take 16 ++ leBytes 8 s.ontime ++ p.drop 24)

/-- An Island that stage ISLANDS finds RETIRED or due for it, or whose slice fails its march test, is RETIRED for good (R24, R450,
R467). -/
def State.islandFails (s : State) (p : Nat) : State :=
  ((if s.retBit p then s else s.retire p 4).setPstate p 6).setFld (Reg.ISL_LAG_STATUS p) Fd.ISL_LAG_STATUS_STATE 3

/-- One Island of stage ISLANDS before the suite: cleared, with its slice in use, or RETIRED. -/
def State.islandBoot (s : State) (p : Nat) (fails : Bool) : State :=
  if fails ∨ s.retBit p ∨ s.pstate p = 6 then s.islandFails p
  else (s.accClear p).setFld (Reg.ISL_LAG_STATUS p) Fd.ISL_LAG_STATUS_STATE 1

/-- The Islands of the Quarters that are brought up. -/
def State.bootIsls (s : State) : List Nat := (List.range 144).filter fun p => s.quarterUp (quarterOf p)

/-- An Island passes the start-up suite where none of its runs failed: TEST_PASS, and at FULL its LASTPASS (R453, R461). -/
def State.bootPass (s : State) (level : Nat) (runs : List (BitVec 16 × CaseRun)) (p : Nat) : State :=
  if s.pstate p = 0 ∧ !s.retBit p ∧ (suiteResult ((s.casesAt level 0).map (·.1)) runs (islUnit p)).1 = 0 then
    (if level = 2 then s.setLastPass p else s).testPassed p level
  else s

/-- The SHORT or FULL suite of stage ISLANDS (R436, R439, R440): the session's cases, on every Island that is not RETIRED at once, and
at FULL those of the fused update units. A confirmed failure sets the RET bit. -/
def State.bootSuite (s : State) (full : Bool) (runs fuuRuns : List (BitVec 16 × CaseRun)) : State :=
  let level := if full then 2 else 1
  let s := s.newSession.stageCases
  let ps := s.bootIsls.filter fun p => s.pstate p == 0
  let s := s.runSuite level ps runs
  let s := if full then (s.casesAt 2 1).foldl (fun s c => s.judgeAll ((List.range 8).map (0x5000 + ·)) fuuRuns c.1) s else s
  ps.foldl (fun s p => s.bootPass level runs p) s

/-- Binds Islands that stage ISLANDS found healthy: each that leaves UNTESTED changes its STATE once (R518). -/
def State.bindBoot (s : State) (new : List Nat) : State :=
  let seqs := new.map fun p => s.fld (Reg.ISL_PSTATE p) Fd.ISL_PSTATE_SEQ
  let s := new.foldl (fun s p => s.setPstate p 2) s
  (new.zip seqs).foldl (fun s e => s.setFld (Reg.ISL_PSTATE e.1) Fd.ISL_PSTATE_SEQ ((e.2 + 1) % 2 ^ 16)) s.bindStart

/-- Quarters with fewer healthy Islands than their logical count. -/
def State.lowQuarters (s : State) : List Nat := (List.range 4).filter fun q => decide ((s.healthy q).length < s.perQuarter)

/-- A Quarter that falls short is reported and sets SHORT.ISLANDS (R25, R468), and where an Island of it has been retired, REPLACE
(R450). -/
def State.shortIslands (s : State) : State :=
  let s := s.reportShort
  let s := if s.lowQuarters.any fun q => (List.range 36).any fun n => s.retBit (36 * q + n) then s.setReplace else s
  if s.lowQuarters.isEmpty then s else s.short 5 Fd.BOOT_STATUS_ISLANDS

/-- What stage ISLANDS leaves (R467, R468): the Islands that its tests retired are RETIRED, the healthy ones are bound. -/
def State.islandsDone (s : State) (fails : List Nat) : State :=
  let s := s.bootIsls.foldl (fun s p => if fails.contains p ∨ s.retBit p then s.islandFails p else s) s
  ((s.bindBoot (s.bootIsls.filter fun p => s.pstate p == 0)).shortIslands).toStage 6

/-- The test suites and the default lane tuning are checked before they are used (R473, R481, R488): loads a section of a kind;
a mismatch is a failure of the stage. -/
def State.useSec (s : State) (kind : Nat) : Bool × State :=
  match s.secAt s.ownImage kind with
  | none => (true, s)
  | some e => if s.secOk s.ownImage e then (true, s.loadSec s.ownImage e) else (false, s)

/-- The built-in suites, as the image that runs holds them. -/
def State.takeSuites (s : State) : State :=
  match s.secAt s.ownImage 3 with
  | some e => { s with fw := { s.fw with builtin := s.secBytes s.ownImage e } }
  | none => s

/-- What stage ISLANDS does before its suite: the test section is checked, and the Islands are cleared or, where their march test fails,
RETIRED. -/
def State.islandsCleared (s : State) (full : Bool) (marchFailed : List (Fin 144)) : Bool × State :=
  let (ok, s) := s.useSec 3
  let s := s.setBoot Fd.BOOT_STATUS_MODE (if full then 1 else 0)
  (ok, s.bootIsls.foldl (fun s p => s.islandBoot p (marchFailed.any fun x => x.val == p)) s)

/-- ISLANDS (R467, R468, R470): march test, accumulator clear, the SHORT or FULL suite with the runs of its cases on the Islands and, at
FULL, on the fused update units, and the bindings.
A test section that does not match its digest is no suite: no Island is healthy then. -/
def execIslands (marchFailed : List (Fin 144)) (runs fuuRuns : List (BitVec 16 × CaseRun)) (s : State) : Out :=
  if !s.atStage 5 then .next s
  else
    let (full, s) := s.fullSuite
    let (ok, s) := s.islandsCleared full marchFailed
    if !ok then .next (s.shortIslands.toStage 6)
    else
      let s := (s.takeSuites.bootSuite full runs fuuRuns).islandsDone []
      .next (if full then s.noteFull else s)

/-! ### Shore and Straits -/

/-- Trains the storage link if PE_PERST_N is released and CLK_PE runs (R505, R506): whether the device answers, at what rate and
width, is free (log entry 1). -/
def State.trainStorage (s : State) : State :=
  if s.power.perst || s.power.lost.contains .pe then s
  else
    let (w, s) := s.free
    let n := w.toNat
    if n % 2 = 0 then s
    else
      let s := s.setFld Reg.MGT_STATUS Fd.MGT_STATUS_PLINK 1
      (s.setFld Reg.MGT_STATUS Fd.MGT_STATUS_PRATE (n / 2 % 6 + 1)).setFld Reg.MGT_STATUS Fd.MGT_STATUS_PWIDTH (2 ^ (n / 16 % 5))

/-- An attempt at stage SHORE fails (R468): the Shore cores are reset once and the stage repeats; the second time they are held in
reset and the boot goes on. -/
def State.shoreFails (s : State) : State :=
  let s := s.resetShore 0xFFFF
  if s.boot.shoreTries < 2 then s else (s.short 6 Fd.BOOT_STATUS_SHORE).toStage 7

/-- SHORE (R467, R468, R505): loads the Shore section, checks its digest and releases the Shore cores. The stage ends with the
first HELLO on mailbox 0 to 5. -/
def execShore (s : State) : Out :=
  if !s.atStage 6 then .next s
  else
    let s : State := { s with boot := { s.boot with shoreTries := s.boot.shoreTries + 1 },
                              power := { s.power with shoreBegun := true } }
    let s := s.trainStorage
    match s.secAt s.ownImage 2 with
    | none => .next s.shoreFails
    | some e =>
      if !s.secOk s.ownImage e then .next s.shoreFails
      else .next (((s.loadSec s.ownImage e).setReg Reg.SHR_RST 0).setReg Reg.SHR_STATUS 0xFFFF)

/-- Without a LANE block the default tuning of section 4 is loaded, if it has its digest (R473, R481, R488). -/
def State.laneTuning (s : State) : State := if (s.blkCopy 3).isSome then s else (s.useSec 4).2

/-- Sets EN on every port of a Quarter that is up, unless the identity is unavailable (R467, R477). -/
def State.straitsOn (s : State) : State :=
  if s.bootFld Fd.BOOT_STATUS_ID_FAIL = 1 then s
  else (List.range 16).foldl (fun s k => if s.quarterUp (portQ k) then (s.portOn k).acted (0x2000 + k) else s) s.laneTuning

/-- STRAITS (R467). -/
def execStraits (s : State) : Out := if s.atStage 7 then settled s.straitsOn else .next s

/-- Whether every port that stage STRAITS enables has reached VERIFIED, ACTIVE or DOWN (R467). -/
def State.straitsDone (s : State) : Bool :=
  s.bootFld Fd.BOOT_STATUS_ID_FAIL == 1 || (List.range 16).all fun k =>
    !s.quarterUp (portQ k) || (s.bit (stCtl k) Fd.STR_CTL_EN && [3, 4, 6].contains (s.portSt k))

/-- The measurement log as it stands at READY: firmware, sections, blocks, pack (R481), and the register over it. -/
def State.fixMeasure (s : State) : State :=
  let typ (e : List Byte) : Nat := payNat e 0 2
  let l := s.boot.meas
  let l := (l.filter fun e => decide (typ e ≤ 3)) ++ (l.filter fun e => typ e == 4) ++ l.filter fun e => typ e == 5
  let r := l.foldl (fun r e => shake256 (r ++ e) 32) (List.replicate 32 0)
  { s with boot := { s.boot with meas := l, measReg := r } }

/-- The module reaches READY. -/
def State.nowReady (s : State) : State := (s.toStage 8).setBoot Fd.BOOT_STATUS_READY 1 |>.fixMeasure

/-- BOOT_READY (R467): stage STRAITS has ended. -/
def execBootReady (s : State) : Out := if s.atStage 7 && s.straitsDone then .next s.nowReady else .next s

/-- BOOT_STAGE_TIMEOUT (R468): the stage passes its limit and its outcome applies. -/
def execBootStageTimeout (s : State) : Out :=
  if s.power.phase ≠ 4 ∨ s.bootFld Fd.BOOT_STATUS_RECOVERY = 1 then .next s
  else match s.bootFld Fd.BOOT_STATUS_STAGE with
    | 1 => .next (s.setBoot Fd.BOOT_STATUS_RECOVERY 1)
    | 2 => .next (s.idFail.toStage 3)
    | 3 => .next ((s.short 3 Fd.BOOT_STATUS_ISTHMUS).isthStart.toStage 4)
    | 4 =>
      let us := dramUnits.filter fun m => s.quarterUp (memQuarter m) && s.memState m == 0
      .next (((us.foldl State.memFails s).short 4 Fd.BOOT_STATUS_MEMORY).toStage 5)
    | 5 => .next (s.islandsDone ((List.range 144).filter fun p => s.pstate p == 0))
    | 6 => .next ({ s with boot := { s.boot with shoreTries := max 1 (s.boot.shoreTries) } } : State).shoreFails
    | 7 => .next s.nowReady
    | _ => .next s

/-! ### The flash controller (R489, R490) -/

/-- Whether the parameters of a flash operation are ones the device takes: an aligned offset, and a length of whole pages. -/
def flashParams (op off len : Nat) : Bool :=
  if op = 1 then off % 256 == 0 && len % 256 == 0 && decide (256 ≤ len) && decide (len ≤ 65536) && decide (off + len ≤ 0x8000000)
  else off % 65536 == 0

/-- A write of BOOT_FL_CTL (R489, R490): GO while BUSY is ignored, and so is GO with a reserved OP. -/
def State.flCtlWrite (s : State) (v : Word) : State :=
  let a := Reg.BOOT_FL_CTL
  let busy := s.bit a Fd.BOOT_FL_CTL_BUSY
  let s := s.swWriteKeep a [Fd.BOOT_FL_CTL_GO] v
  let op := s.fld a Fd.BOOT_FL_CTL_OP
  if busy || Fd.BOOT_FL_CTL_GO.get v == 0 || (op != 1 && op != 2) then s
  else
    let s := (s.setFld a Fd.BOOT_FL_CTL_GO 1).setFld a Fd.BOOT_FL_CTL_BUSY 1
    let x : FlashOp := ⟨op, s.fld a Fd.BOOT_FL_CTL_DEV, s.fld Reg.BOOT_FL_ADDR Fd.BOOT_FL_ADDR_OFF,
      s.addr48 Reg.BOOT_FL_SRC_LO Reg.BOOT_FL_SRC_HI, s.fld Reg.BOOT_FL_LEN Fd.BOOT_FL_LEN_BYTES⟩
    { s with boot := { s.boot with flashOp := some x } }

/-- FLASH_PROGRAM: a write of BOOT_FL_CTL with OP 1 and GO 1. -/
def execFlashProgram (r : Requester) (v : BitVec 32) (s : State) : Out :=
  .next (s.guarded r Reg.BOOT_FL_CTL fun s => s.flCtlWrite ((v &&& 0xFFFFFFF4) ||| 0x9))

/-- FLASH_ERASE: a write of BOOT_FL_CTL with OP 2 and GO 1. -/
def execFlashErase (r : Requester) (v : BitVec 32) (s : State) : Out :=
  .next (s.guarded r Reg.BOOT_FL_CTL fun s => s.flCtlWrite ((v &&& 0xFFFFFFF4) ||| 0xA))

/-- What a flash operation leaves in the device: the program or the erase, or free bytes where the device failed. -/
def State.flashApply (s : State) (x : FlashOp) (failed : Bool) : State :=
  let a := flashBase x.dev + x.off
  let n := if x.op = 1 then x.len else 0x10000
  if failed then
    let (bs, s) := s.freeBytes n
    s.setBytes a bs
  else if x.op = 1 then s.flashProg a (s.bytes x.src n)
  else s.flashErase a n

/-- FLASH_OPERATION_DONE (R489, R490): the operation completes, with ERR where the device reports a failure or does not take the
parameters. -/
def execFlashOperationDone (failed : Bool) (s : State) : Out :=
  match s.boot.flashOp with
  | none => .next s
  | some x =>
    let a := Reg.BOOT_FL_CTL
    let ok := flashParams x.op x.off x.len
    let s : State := { s with boot := { s.boot with flashOp := none } }
    let s := if ok then s.flashApply x failed else s
    let s := ((s.setFld a Fd.BOOT_FL_CTL_GO 0).setFld a Fd.BOOT_FL_CTL_BUSY 0).setFld a Fd.BOOT_FL_CTL_DONE 1
    if failed || !ok then .next ((s.setFld a Fd.BOOT_FL_CTL_ERR 1).setFld Reg.BOOT_ERR Fd.BOOT_ERR_FL 1) else .next s

end Sys2Proof.Machine
end

