-- ==== Sys2Proof/Machine/Power.lean ====
section
/-! DEFINITION. Power, pins, clocks, temperatures, the power cap and the links of the management and storage ports (chapter 17).
Times pass between commands: a command that stands for a delay of the spec is that delay's end (log entry 20). -/

namespace Sys2Proof.Machine

/-! ### Pins -/

/-- PWR_GOOD (R492). -/
def State.pwrGood (s : State) : Bool := decide (3 ≤ s.power.phase)

/-- ALERT_N is low (R492). -/
def State.alertLow (s : State) : Bool :=
  s.power.phase == 4 && s.reg Reg.MGT_ALERT &&& s.reg Reg.MGT_ALERT_EN != 0

/-! ### Power up and down (R494 to R497) -/

/-- A flash operation that is cut short leaves free bytes (R495, log entry 40). -/
def State.cutFlash (s : State) : State :=
  match s.boot.flashOp with
  | some x => s.flashApply x true
  | none => s

/-- The module loses everything but the NOR flash and its pins (R495, R497): `phase` is where the power sequence stands. -/
def State.wiped (s : State) (phase : Nat) : State :=
  let s := s.cutFlash
  { State.reset with
    pending := s.pending
    mem := s.mem.filter fun e => decide (0x20000000 ≤ e.1) && decide (e.1 < 0x30000000)
    freeCtr := s.freeCtr
    power := { s.power with
               phase := phase, thermTrip := s.power.thermTrip && phase == 3, hot := [], perst := true
               shoreBegun := false, hotRefresh := false } }

/-- The module powers down (R495). -/
def State.powerDown (s : State) : State := if s.power.phase = 0 then s else s.wiped 0

/-- Sets the protection latch and powers down (R496). -/
def State.protect (s : State) : State :=
  let s := s.powerDown
  { s with power := { s.power with latch := true } }

/-- PWR_EN_HIGH (R494 to R496): a rise that counts, at least 100 ms after PWR_GOOD fell and after 100 ms of PWR_EN low, which
clears the latch; an input out of range holds the sequence. -/
def execPwrEnHigh (inputOk : Bool) (s : State) : Out :=
  if s.power.pwrEn then .next s
  else .next { s with power := { s.power with pwrEn := true, latch := false, phase := if inputOk then 2 else 1 } }

/-- INPUT_IN_RANGE (R494): a held sequence goes on. -/
def execInputInRange (s : State) : Out :=
  if s.power.phase = 1 then .next { s with power := { s.power with phase := 2 } } else .next s

/-- PWR_GOOD (R494): every rail is in regulation. -/
def execPwrGood (s : State) : Out :=
  if s.power.phase = 2 then .next { s with power := { s.power with phase := 3 } } else .next s

/-- RAIL_TIMEOUT (R494): a rail is not in regulation 40 ms after PWR_EN went high. -/
def execRailTimeout (s : State) : Out := if s.power.phase = 2 then .next s.protect else .next s

/-- Whether the internal reset can be released (R494): RST_N is high and CLK_SYS and CLK_STR are stable. -/
def State.canRelease (s : State) : Bool :=
  s.power.phase == 3 && s.power.rstN && !s.power.lost.contains .sys && !s.power.lost.contains .str

/-- The internal reset is released and stage ROM begins. -/
def State.release (s : State) : State :=
  let s : State := { s with power := { s.power with phase := 4 } }
  s.setFld Reg.MGT_STATUS Fd.MGT_STATUS_PCAP (if s.power.pcapLow then 1 else 0)

/-- RESET_RELEASE (R494, R496). -/
def execResetRelease (s : State) : Out := if s.canRelease then .next s.release else .next s

/-- PWR_EN_LOW (R495, R496). -/
def execPwrEnLow (s : State) : Out :=
  let s := s.powerDown
  .next { s with power := { s.power with pwrEn := false } }

/-- PROTECTION_EVENT (R493, R496): every cause powers the module down; an undervoltage does so without the latch (R493, log
entry 41). -/
def execProtectionEvent (cause : ProtCause) (s : State) : Out :=
  match cause with
  | .undervoltage => .next s.powerDown
  | _ => .next s.protect

/-- RST_N_LOW (R497): resets everything but the rails. -/
def execRstNLow (s : State) : Out :=
  let s := if s.power.phase = 4 then s.wiped 3 else s
  .next { s with power := { s.power with rstN := false } }

/-- RST_N_HIGH (R496, R497): 10 ms after RST_N returned high the boot starts. -/
def execRstNHigh (s : State) : Out :=
  let was := s.power.rstN
  let s : State := { s with power := { s.power with rstN := true } }
  if !was && s.canRelease then .next s.release else .next s

/-! ### Links of the management and storage ports -/

/-- The management link goes down: MDOWN where it was up (R514). -/
def State.mgmtDown (s : State) : State :=
  if !s.bit Reg.MGT_STATUS Fd.MGT_STATUS_MLINK then s
  else ((s.setFld Reg.MGT_STATUS Fd.MGT_STATUS_MLINK 0).setFld Reg.MGT_STATUS Fd.MGT_STATUS_MFEC 0).setFld
    Reg.MGT_ALERT Fd.MGT_ALERT_MDOWN 1

/-- The storage link goes down: PDOWN where it was up (R514), and AER events as a PILOT record (R505). -/
def State.storageDown (s : State) : State :=
  if !s.bit Reg.MGT_STATUS Fd.MGT_STATUS_PLINK then s
  else
    let a := Reg.MGT_STATUS
    let s := ((s.setFld a Fd.MGT_STATUS_PLINK 0).setFld a Fd.MGT_STATUS_PRATE 0).setFld a Fd.MGT_STATUS_PWIDTH 0
    (s.setFld Reg.MGT_ALERT Fd.MGT_ALERT_PDOWN 1).log 8 (leBytes 1 5)

/-- Whether a management loopback runs (R507). -/
def State.mgmtLooping (s : State) : Bool := s.bit Reg.MGT_LB Fd.MGT_LB_GO && s.fld Reg.MGT_LB Fd.MGT_LB_PORT == 0

/-- MANAGEMENT_LINK_UP (R500): negotiation with the partner succeeds with an FEC of the code `fec`; 3 is reserved. -/
def execManagementLinkUp (fec : BitVec 2) (s : State) : Out :=
  if s.power.phase ≠ 4 ∨ s.power.lost.contains .mgt ∨ s.mgmtLooping ∨ fec = 3 then .next s
  else .next ((s.setFld Reg.MGT_STATUS Fd.MGT_STATUS_MLINK 1).setFld Reg.MGT_STATUS Fd.MGT_STATUS_MFEC fec.toNat)

/-- MANAGEMENT_LINK_DOWN (R514). -/
def execManagementLinkDown (s : State) : Out := .next s.mgmtDown

/-- STORAGE_LINK_DOWN (R505, R514). -/
def execStorageLinkDown (s : State) : Out := .next s.storageDown

/-- PE_PERST_RELEASE (R506): 100 ms after stage SHORE began, with CLK_PE stable; the storage link trains. -/
def execPePerstRelease (s : State) : Out :=
  if s.power.phase = 4 ∧ s.power.shoreBegun ∧ s.power.perst ∧ !s.power.lost.contains .pe then
    .next ({ s with power := { s.power with perst := false } } : State).trainStorage
  else .next s

/-- DROPPED_FRAME (R500). -/
def execDroppedFrame (s : State) : Out :=
  if s.bit Reg.MGT_STATUS Fd.MGT_STATUS_MLINK then .next (s.count Reg.MGT_CNT_DROP 1) else .next s

/-- A write of MGT_LB (R507, R514): GO with a reserved DEPTH and a GO while one runs are ignored; a management loopback takes the
management link down. -/
def State.mgtLbWrite (s : State) (v : Word) : State :=
  let a := Reg.MGT_LB
  let busy := s.bit a Fd.MGT_LB_GO
  let s := s.swWriteKeep a (if busy then [Fd.MGT_LB_GO, Fd.MGT_LB_PORT, Fd.MGT_LB_DEPTH] else [Fd.MGT_LB_GO]) v
  if busy || Fd.MGT_LB_GO.get v == 0 || decide (1 < s.fld a Fd.MGT_LB_DEPTH) then s
  else
    let s := s.setFld a Fd.MGT_LB_GO 1
    if s.fld a Fd.MGT_LB_PORT = 0 then s.mgmtDown else s

/-- MGT_LB_GO: a write of MGT_LB whose GO bit is 1. -/
def execMgtLbGo (r : Requester) (v : BitVec 32) (s : State) : Out :=
  .next (s.guarded r Reg.MGT_LB fun s => s.mgtLbWrite (v ||| 0x8))

/-- MGT_LOOPBACK_DONE (R507, R514): the errored bits or frames of the loopback that runs. -/
def execMgtLoopbackDone (errs : Nat) (s : State) : Out :=
  let a := Reg.MGT_LB
  if !s.bit a Fd.MGT_LB_GO then .next s
  else
    let s := ((s.setFld a Fd.MGT_LB_GO 0).setFld a Fd.MGT_LB_DONE 1).setFld a Fd.MGT_LB_PASS (if errs = 0 then 1 else 0)
    .next (s.setFld a Fd.MGT_LB_ERRS (min errs 0xFFFF))

/-! ### Clocks (R498, R499) -/

/-- A clock is lost. -/
def State.loseClock (s : State) (k : Clock) : State :=
  { s with power := { s.power with lost := s.power.lost ++ [k] } }

/-- Every port that is not OFF and not yet DOWN departs: every lane has lost lock (R499, R317). -/
def State.departAll (s : State) : State :=
  (List.range 16).foldl (fun s k => if s.portSt k = 0 ∨ s.portSt k = 6 then s else s.departPort k 2 false) s

/-- CLOCK_LOSS (R496, R499). -/
def execClockLoss (k : Clock) (s : State) : Out :=
  if s.power.lost.contains k then .next s
  else
    let s := s.loseClock k
    if k = .sys then (if 2 ≤ s.power.phase then .next s.protect else .next s)
    else if s.power.phase ≠ 4 then .next s
    else
      let s := s.setFld Reg.MGT_ALERT Fd.MGT_ALERT_CLK 1
      match k with
      | .str => settled s.departAll
      | .pe => .next s.storageDown
      | _ => .next s.mgmtDown

/-- CLOCK_RESTORED (R499): the clock has been back for 1 ms; with CLK_STR, training can succeed again. -/
def execClockRestored (k : Clock) (s : State) : Out :=
  .next { s with power := { s.power with lost := s.power.lost.filter (· ≠ k) } }

/-! ### Temperatures and the power cap (R508 to R511) -/

/-- The throttle temperature in force, from 80 to 100 °C. -/
def State.throttleAt (s : State) : Nat := min 100 (max 80 (s.fld Reg.MGT_THERM Fd.MGT_THERM_THROTTLE))

/-- A cap as it acts, from 1,200 to 2,400 W. -/
def capActs (w : Nat) : Nat := min 2400 (max 1200 w)

/-- L_eff (R509). -/
def State.leff (s : State) : Nat :=
  let tj := s.fld Reg.MGT_TEMP Fd.MGT_TEMP_TJ
  let a := capActs (s.fld Reg.MGT_PCAP Fd.MGT_PCAP_LIMIT)
  let b := if s.power.pcapLow then capActs (s.fld Reg.MGT_PCAP Fd.MGT_PCAP_ALT) else 2400
  let c := if s.throttleAt < tj then 2400 - 100 * (tj - s.throttleAt) else 2400
  max 1200 (min a (min b c))

/-- MGT_GATE.LEFF follows L_eff. -/
def State.syncLeff (s : State) : State := s.setFld Reg.MGT_GATE Fd.MGT_GATE_LEFF s.leff

/-- The sensors that a reading shows above their trip limits, as numbers (R510). -/
def hotSensors (t : Temps) : List Nat :=
  ([(t.junction, 110), (t.hbm, 105), (t.lpddr, 100), (t.regulator, 125), (t.baseplate, 70)].zipIdx.filter fun e =>
    decide (e.1.2 < e.1.1.toNat)).map (·.2)

/-- The throttle bit and its alert (R509, R514). -/
def State.syncThrottle (s : State) : State :=
  let on := decide (s.throttleAt < s.fld Reg.MGT_TEMP Fd.MGT_TEMP_TJ)
  let was := s.bit Reg.MGT_STATUS Fd.MGT_STATUS_THROTTLE
  let s := s.setFld Reg.MGT_STATUS Fd.MGT_STATUS_THROTTLE (if on then 1 else 0)
  (if on && !was then s.setFld Reg.MGT_ALERT Fd.MGT_ALERT_THROTTLE 1 else s).syncLeff

/-- SENSOR_READ (R509 to R511): temperatures, throttle, doubled refresh, and a thermal trip at the second reading in a row above a
limit. -/
def execSensorRead (t : Temps) (s : State) : Out :=
  if s.power.phase ≠ 4 then .next s
  else
    let a := Reg.MGT_TEMP
    let s := ((s.setFld a Fd.MGT_TEMP_TJ t.junction.toNat).setFld a Fd.MGT_TEMP_THBM t.hbm.toNat).setFld a
      Fd.MGT_TEMP_TBASE t.baseplate.toNat
    let s := (s.setFld a Fd.MGT_TEMP_TVR t.regulator.toNat).syncThrottle
    let trip := (hotSensors t).any s.power.hot.contains
    let s := if trip && !s.power.thermTrip then s.report .thermal 0 0 0 else s
    .next { s with power := { s.power with
              hot := hotSensors t, thermTrip := s.power.thermTrip || trip, hotRefresh := decide (85 < t.hbm.toNat) } }

/-- THERMAL_TRIP_LATCH (R511): 5 ms after the trip. -/
def execThermalTripLatch (s : State) : Out := if s.power.thermTrip then .next s.protect else .next s

/-- PCAP_N_CHANGE (R509, R514). -/
def execPcapNChange (low : Bool) (s : State) : Out :=
  let was := s.power.pcapLow
  let s : State := { s with power := { s.power with pcapLow := low } }
  if s.power.phase ≠ 4 then .next s
  else
    let s := s.setFld Reg.MGT_STATUS Fd.MGT_STATUS_PCAP (if low then 1 else 0)
    let s := if low && !was then s.setFld Reg.MGT_ALERT Fd.MGT_ALERT_PCAP 1 else s
    .next s.syncLeff

/-- The gate count after an update with input power `p` under the limit `l` (R509). -/
def gateNext (w p l : Nat) : Nat :=
  if l < p then min 255 (w + min 16 ((p - l + 7) / 8)) else if p + 16 < l then w - 1 else w

/-- POWER_CONTROL_UPDATE (R509, R514): every 2 µs. `satFor1ms` says that the power has stayed above L_eff for 1 ms. -/
def execPowerControlUpdate (pin : Nat) (vin : BitVec 12) (satFor1ms : Bool) (s : State) : Out :=
  if s.power.phase ≠ 4 then .next s
  else
    let s := s.syncLeff
    let w0 := s.fld Reg.MGT_GATE Fd.MGT_GATE_W
    let w := gateNext w0 pin s.leff
    let s := (s.setFld Reg.MGT_PWR Fd.MGT_PWR_PIN (min pin 4095)).setFld Reg.MGT_PWR Fd.MGT_PWR_VIN vin.toNat
    let s := (s.setFld Reg.MGT_GATE Fd.MGT_GATE_W w).setFld Reg.MGT_STATUS Fd.MGT_STATUS_CAP_ACT (if w = 0 then 0 else 1)
    let s := if w = 0 then s else s.count Reg.MGT_CNT_GATED 1
    .next (if satFor1ms && w0 == 255 && decide (s.leff < pin) then s.setFld Reg.MGT_ALERT Fd.MGT_ALERT_CAPSAT 1 else s)

/-- GATE_WINDOW (R508): the Island takes the new gate count at its window boundary. -/
def execGateWindow (p : Fin 144) (s : State) : Out :=
  .next (s.setIsl p { s.isl p with gateW := s.fld Reg.MGT_GATE Fd.MGT_GATE_W })

end Sys2Proof.Machine
end

