-- ==== Sys2Proof/Machine/Trans.lean ====
section
/-! DEFINITION. The commands of the transaction layer (R307 to R312): requests of other modules served or forwarded, responses,
and the tracker's timers. -/

namespace Sys2Proof.Machine

/-! ### Serving (R309) -/

/-- Takes the oldest message of a VC, if it has the row's type, and serves or forwards it. A port that a loopback or another
state holds has no message. -/
def State.serve (s : State) (k vc typ : Nat) (act : State → Msg → State) : State :=
  match (s.port k).head vc with
  | some m =>
    if m.typ ≠ typ then s
    else
      let s := s.takeMsg k m
      if m.dst = s.selfId (portQ k) then act s m else s.forward k m
  | none => s

/-! ### Requests -/

/-- STATUS of an access-error kind (R312). -/
def kindStatus (k : Nat) : Nat := if k = 0 then 0 else if k = 2 then 2 else 1

/-- Serves an RD (R308, R312): LEN lines, or none with a STATUS other than OK. -/
def State.serveRd (s : State) (k : Nat) (m : Msg) : State :=
  let q := portQ k
  let n := 64 * m.len
  match s.resolveAddr (m.addr % 2 ^ 48) with
  | none => (s.accessErr (m.addr % 2 ^ 48) 10 false 1).sendAnswer q m 1 []
  | some a =>
    if n = 0 then s.sendAnswer q m 0 []
    else
      let kd := s.remKind a n false
      if kd ≠ 0 then (s.accessErr a 10 false kd).sendAnswer q m (kindStatus kd) []
      else
        let r := s.busRead a n 10 (remLisl m.src)
        if r.bad then r.st.sendAnswer q m 3 [] else r.st.sendAnswer q m 0 r.data

/-- RD (R308). -/
def execRd (k : Fin 16) (vc : Fin 4) (s : State) : Out := settled (s.serve k vc 1 fun s m => s.serveRd k m)

/-- Serves a WR, masked or not (R307, R308, R312). -/
def State.serveWr (s : State) (k : Nat) (m : Msg) : State :=
  let q := portQ k
  match s.resolveAddr (m.addr % 2 ^ 48) with
  | none => (s.accessErr (m.addr % 2 ^ 48) 10 true 1).sendAnswer q m 1 []
  | some a =>
    let n := m.data.length
    if n = 0 then s.sendAnswer q m 0 []
    else
      let kd := s.remKind a n true
      if kd ≠ 0 then (s.accessErr a 10 true kd).sendAnswer q m (kindStatus kd) []
      else
        let r := if m.masked then s.maskedWrite a (leNat (m.ext.drop 8)) m.data 10 (remLisl m.src)
          else s.busWrite a m.data 10 (remLisl m.src)
        r.st.sendAnswer q m (if r.bad then 3 else 0) []

/-- WR (R308). -/
def execWr (k : Fin 16) (vc : Fin 4) (s : State) : Out := settled (s.serve k vc 3 fun s m => s.serveWr k m)

/-- The line operation of line `i` of a MERGE (R223, R225, R307): bytes for WRITE, FP32 elements for ADD and MAX. -/
def mergeLine (q i a : Nat) (m : Msg) : LineOp :=
  let e := leNat (m.ext.take 4)
  let en := leNat (m.ext.drop 8)
  let eb := if e % 4 = 0 then 1 else 4
  let line := (m.data.drop (64 * i)).take 64
  let items := ((List.range (64 / eb)).map fun j => (eb * j, leNat ((line.drop (eb * j)).take eb))).filter fun it =>
    en == 0 || en / 2 ^ it.1 % 2 == 1
  { work := none, lisl := remLisl m.src, addr := a + 64 * i, mop := e % 4, gchk := e / 4 % 2 == 1, tslot := e / 8 % 16,
    tag := e / 2 ^ 16 % 2 ^ 16, eb := eb, items := items, answer := some (q, { m with status := 0 }) }

/-- Puts a line operation before the merge unit of its line. -/
def State.mergeSend (s : State) (p : Nat) (o : LineOp) : State :=
  let x := s.isl p
  s.setIsl p { x with mergeq := x.mergeq ++ [o] }

/-- Serves a MERGE: its lines go to the merge units of the Lagoon slice that holds them (R308, R221). -/
def State.serveMerge (s : State) (k : Nat) (m : Msg) : State :=
  let q := portQ k
  let err (s : State) : State := (s.accessErr (m.addr % 2 ^ 48) 10 true 1).sendAnswer q m 1 []
  match s.resolveAddr (m.addr % 2 ^ 48) with
  | none => err s
  | some a =>
    match region a, region (a + 64 * m.len - 1) with
    | .lag p, .lag p' =>
      if p ≠ p' ∨ s.pstate p = 6 then err s
      else if m.len = 0 then s.sendAnswer q m 0 []
      else (List.range m.len).foldl (fun s i => s.mergeSend p (mergeLine q i a m)) s
    | _, _ => err s

/-- MERGE (R308). -/
def execMerge (k : Fin 16) (vc : Fin 4) (s : State) : Out := settled (s.serve k vc 4 fun s m => s.serveMerge k m)

/-- Serves a BUOY: the operation goes to the Buoy unit of the home Quarter of LISL (R153, R308). The message does not carry the
issuer's Island, context and PC, whose record is therefore free (log entry 28). -/
def State.serveBuoy (s : State) (k : Nat) (m : Msg) : State :=
  if s.logicalCount ≤ m.buoyLisl ∨ 2 ≤ m.buoyOp then s.sendAnswer (portQ k) m 1 []
  else
    let (w, s) := s.free
    let h := s.home m.buoyLisl
    s.buoyArrive h {
      port := straitPort h k, bidx := m.buoyIdx, tl := m.buoyLisl, kind := m.buoyOp + 1, val := m.buoyVal,
      mod := m.src, lisl := w.toNat % 256, sctx := w.toNat / 256 % 2, pc := w.toNat / 512 % 2 ^ 14, src := none,
      answer := some m }

/-- BUOY (R308). -/
def execBuoy (k : Fin 16) (vc : Fin 4) (s : State) : Out := settled (s.serve k vc 5 fun s m => s.serveBuoy k m)

/-! ### Responses and the tracker (R311) -/

/-- Whether a response matches no entry in use (R311). -/
def State.isLate (s : State) (m : Msg) : Bool :=
  match tget (fun _ => none) (s.qtr (m.tag / 4096 % 4)).trk (m.tag % 4096) with
  | some t => t.msg.gen != m.gen
  | none => true

/-- A response arrives on port `k`; a late one is recorded (R311, R321). -/
def State.serveRsp (s : State) (k : Nat) (m : Msg) : State :=
  let s := if s.isLate m then s.logLink 13 k 0 0 0xF 0 1 m.src m.tag 0 else s
  s.takeResponse m

/-- RD_RSP (R311). -/
def execRdRsp (k : Fin 16) (vc : Fin 4) (s : State) : Out := settled (s.serve k vc 2 fun s m => s.serveRsp k m)

/-- CPL (R311). -/
def execCpl (k : Fin 16) (vc : Fin 4) (s : State) : Out := settled (s.serve k vc 6 fun s m => s.serveRsp k m)

/-- TRACKER_TIMEOUT (R311): the entry completes with TIMEOUT and stays unallocated for a further TRK_TO. -/
def execTrackerTimeout (q : Fin 4) (i : Fin 4096) (s : State) : Out :=
  match tget (fun _ => none) (s.qtr q).trk i with
  | none => .next s
  | some t =>
    let x := s.qtr q
    let s := s.setQtr q { x with quarantine := x.quarantine ++ [i.val] }
    let s := (s.count (Reg.STR_CNT_TXN_TO q) 1).logLink 10 t.port 1 0 0xF 0 1 t.msg.dst t.msg.tag (t.msg.addr % 2 ^ 48)
    settled ((s.report .txnTimeout q t.msg.tag t.msg.dst).closeTrk q i t 7 [])

/-- TRACKER_QUARANTINE_END (R311). -/
def execTrackerQuarantineEnd (q : Fin 4) (i : Fin 4096) (s : State) : Out :=
  let x := s.qtr q
  if x.quarantine.contains i.val then
    let s := s.setQtr q { x with quarantine := x.quarantine.filter (· != i.val) }
    .next (s.pumpTrk x.waitTrk.length q)
  else .next s

end Sys2Proof.Machine
end

