-- ==== Sys2Proof/Machine/Tide.lean ====
section
/-! DEFINITION. The commands of the Tides (R326, R327, R332 to R342), the reductions (R347 to R357) and the manager's heartbeat
and election (R359). -/

namespace Sys2Proof.Machine

/-! ### Registers -/

/-- LOAD (R326). -/
def execLoad (r : Requester) (s : State) : Out := .next (s.guarded r Reg.TIDE_CTL fun s => s.load)

/-- UNLOAD (R327). -/
def execUnload (r : Requester) (s : State) : Out := .next (s.guarded r Reg.TIDE_CTL fun s => s.unload)

/-- FAILNOW (R341): ignored while LOADED is 0. -/
def execFailnow (r : Requester) (s : State) : Out :=
  .next (s.guarded r Reg.TIDE_CTL fun s => if s.loaded then s.failHere 6 else s)

/-- TIDE_GO written with GO (R334, R361): CMD is stored, and the root sends GO in HELD. -/
def State.goWrite (s : State) (v : Word) : State :=
  let s := s.swWriteKeep Reg.TIDE_GO [Fd.TIDE_GO_GO] v
  if Fd.TIDE_GO_GO.get v = 1 ∧ s.tideSt = 3 then s.sendGo else s

/-- TIDE_GO_WRITE (R334). -/
def execTideGoWrite (r : Requester) (v : BitVec 32) (s : State) : Out :=
  settled (s.guarded r Reg.TIDE_GO fun s => s.goWrite (v ||| 1))

/-! ### TIDE messages -/

/-- Takes the oldest TIDE message of port `k`, if it has the row's KIND (R337). One that is addressed to another module is
forwarded (R309). -/
def State.takeTide (s : State) (k kind : Nat) (act : State → Msg → State) : Out :=
  match ((s.port k).rxq.getD 2 []).find? fun m => m.typ == 8 with
  | some m =>
    if m.tideKind ≠ kind then .next s
    else
      let s := s.takeMsg k m
      settled (if m.dst = s.selfId (portQ k) then act s m else s.forward k m)
  | none => .next s

/-- Whether port `k` leads to this module's parent in the mark tree. -/
def State.fromParent (s : State) (k : Nat) : Bool := !s.isRoot && s.parentPort == k

/-- A MARK arrives (R333, R342). -/
def State.recvMark (s : State) (k : Nat) (m : Msg) : State :=
  if s.tideSt = 4 then s
  else if m.tideNo ≠ s.tideNum ∨ s.tideSt = 0 ∨ !s.childPorts.contains k then
    s.count (Reg.STR_CNT_DROP (portQ k) (portK k)) 1
  else
    let t := s.tide
    let s : State := { s with tide := { t with kids := t.kids.filter (fun e => e.1 != k) ++ [(k, m.markVals)] } }
    s.setFld Reg.TIDE_STATUS Fd.TIDE_STATUS_KIDS (s.fld Reg.TIDE_STATUS Fd.TIDE_STATUS_KIDS ||| 2 ^ k)

/-- MARK (R333): received on a port; without one, this module's own mark falls due. -/
def execMark (k : Option (Fin 16)) (s : State) : Out :=
  match k with
  | none => settled s
  | some k => s.takeTide k 1 fun s m => s.recvMark k m

/-- A GO arrives (R335): it goes on to every child, and the Tide starts. -/
def State.recvGo (s : State) (k : Nat) (m : Msg) : State :=
  if s.tideSt ≠ 2 ∨ !s.fromParent k ∨ m.tideNo ≠ (s.tideNum + 1) % 2 ^ 32 then s
  else
    let cmd := m.lineNat 0 1
    (s.sendKids 2 m.tideNo (m.data.take 64)).tideStart m.tideNo cmd (m.lineNat 8 8)

/-- GO (R335): received on a port; without one, the root's GO falls due (R334). -/
def execGo (k : Option (Fin 16)) (s : State) : Out :=
  match k with
  | none => settled s
  | some k => s.takeTide k 2 fun s m => s.recvGo k m

/-! ### Stretch (R340) -/

/-- The root takes a STRETCH of value `v`: STRETCH_GO, or FAIL when SMAX is passed. -/
def State.rootStretch (s : State) (v : Nat) : State :=
  if v ≤ s.fld Reg.TIDE_STATUS Fd.TIDE_STATUS_K then s
  else if s.fld Reg.TIDE_STRETCH Fd.TIDE_STRETCH_SMAX < v then s.failHere 1
  else (s.setFld Reg.TIDE_STATUS Fd.TIDE_STATUS_K v).sendKids 4 s.tideNum (leBytes 4 v)

/-- A STRETCH goes toward the root, each value once in a Tide. -/
def State.passStretch (s : State) (v md : Nat) : State :=
  if s.isRoot then s.rootStretch v
  else if v ≤ s.tide.stretchUp then s
  else
    let s := { s with tide := { s.tide with stretchUp := v } }
    s.sendTide s.parentPort 3 s.tideNum (leBytes 4 v ++ leBytes 4 md)

/-- This module raises a stretch: it is counted, and SLOW names the module. -/
def State.raiseStretch (s : State) : State :=
  let v := s.fld Reg.TIDE_STATUS Fd.TIDE_STATUS_K + 1
  if v ≤ s.tide.stretchUp then s
  else
    let id := s.selfId 0
    let s := (s.count Reg.TIDE_CNT_STRETCH 1)
    let s := { s with tide := { s.tide with slow := some id } }
    let s := s.passStretch v id
    { s with tide := { s.tide with stretchUp := max v s.tide.stretchUp } }

/-- The deadlines of R340, with the module's Tide timer at `us` microseconds. -/
def State.deadline (s : State) (us : Nat) : State :=
  let t := s.fld (Reg.TIDE_TYPE (s.tideNum % s.nTypes)) Fd.TIDE_TYPE_TLEN
  let sq := max 1 (s.fld Reg.TIDE_STRETCH Fd.TIDE_STRETCH_SQ)
  let k := s.fld Reg.TIDE_STATUS Fd.TIDE_STATUS_K
  if s.tideSt ≠ 1 ∨ s.tide.startMarker ∨ t = 0 then s
  else if !(List.range 4).all s.quarterDone && decide (t + k * sq < us) then s.raiseStretch
  else if s.isRoot && decide (t + (k + 1) * sq < us) then s.failHere 2
  else s

/-- TIDE_DEADLINE (R340, R342): a module's own work that is done counts as done before its deadline is looked at; where that
starts the next Tide, the old Tide's time says nothing of it. -/
def execTideDeadline (elapsedUs : Nat) (s : State) : Out :=
  let t := tideCheck s
  .next (if t.tideNum = s.tideNum then t.deadline elapsedUs else t)

/-- A STRETCH arrives (R340, R342). -/
def State.recvStretch (s : State) (k : Nat) (m : Msg) : State :=
  if s.tideSt = 0 ∨ s.tideSt = 4 ∨ m.tideNo ≠ s.tideNum ∨ !s.childPorts.contains k then s
  else s.passStretch (m.lineNat 0 4) (m.lineNat 4 4)

/-- STRETCH (R340). -/
def execStretch (k : Fin 16) (s : State) : Out := s.takeTide k 3 fun s m => s.recvStretch k m

/-- A STRETCH_GO arrives (R340, R342). -/
def State.recvStretchGo (s : State) (k : Nat) (m : Msg) : State :=
  if s.tideSt = 0 ∨ s.tideSt = 4 ∨ m.tideNo ≠ s.tideNum ∨ !s.fromParent k then s
  else (s.setFld Reg.TIDE_STATUS Fd.TIDE_STATUS_K (m.lineNat 0 4)).sendKids 4 s.tideNum (m.data.take 64)

/-- STRETCH_GO (R340). -/
def execStretchGo (k : Fin 16) (s : State) : Out := s.takeTide k 4 fun s m => s.recvStretchGo k m

/-- FAIL (R341). -/
def execFail (k : Fin 16) (s : State) : Out :=
  s.takeTide k 5 fun s m =>
    if s.fromParent k || s.childPorts.contains k then s.fail (m.lineNat 0 4) (m.lineNat 4 4) else s

/-! ### Reductions -/

/-- The bucket entry, its group's tree word. -/
def State.bktRaw (s : State) (b : Nat) : Nat := tget (fun _ => 0) s.tide.buckets b
/-- The tree word of a bucket (R348). -/
def State.bktTree (s : State) (b : Nat) : Nat :=
  grpTree (tget (fun _ => 0) s.tide.groups (bktGrp (s.bktRaw b))) (bktCh (s.bktRaw b))
/-- Elements of a bucket. -/
def bktElems (raw : Nat) : Nat := bktBytes raw / 4

/-- BUCKET_TRIGGER (R349, R350): the channel takes its oldest triggered bucket when it works on none. -/
def execBucketTrigger (ch : Fin 8) (s : State) : Out :=
  let x := s.chan ch
  match x.cur, x.trig with
  | none, b :: r => .next ((s.setChan ch { x with trig := r, cur := some { bkt := b } }).syncChan ch)
  | _, _ => .next s

/-- The codes of exact traffic (R351). -/
def exNan : Nat := 0x8000000000000000
/-- The code of +∞. -/
def exPos : Nat := 0x8000000000000001
/-- The code of −∞. -/
def exNeg : Nat := 0x8000000000000002

/-- A contribution as a 64-bit word, and whether it left the window (R351). -/
def exWord (w : Int) (bits : Nat) : Nat × Bool :=
  match f32 bits with
  | .nan => (exNan, false)
  | .inf neg => (if neg then exNeg else exPos, false)
  | .fin neg m e =>
    let q := roundTo .rne m e w
    if 2 ^ 52 ≤ q then (if neg then exNeg else exPos, true)
    else (toPat 64 (if neg then -(q : Int) else q), false)

/-- The sum of exact words (R351). -/
def exSum (ws : List Nat) : Nat :=
  let p := ws.contains exPos
  let n := ws.contains exNeg
  if ws.contains exNan || (p && n) then exNan
  else if p then exPos
  else if n then exNeg
  else toPat 64 (ws.map (sext 64)).sum

/-- What the root makes of an exact sum (R351): +0 for a sum of 0. -/
def exResult (w : Int) (v : Nat) : Nat :=
  if v = exNan then nan32
  else if v = exPos then 0x7F800000
  else if v = exNeg then 0xFF800000
  else
    let i := sext 64 v
    if i = 0 then 0 else toF32 (.fin (decide (i < 0)) i.natAbs w)

/-- Reads `n` FP32 values of the local contribution from element `e` on. The table of R272 has no row for a channel: a bad codeword
raises the module's plausibility flag for the Tide (DESIGN CHOICE, log entry 111). -/
def State.srcVals (s : State) (raw e n : Nat) : List Nat × State :=
  let (bs, bad, s) := s.readMem (bktSrc raw + 4 * e) (4 * n) 10 0xFF
  ((List.range n).map fun i => leNat ((bs.drop (4 * i)).take 4),
    if bad then { s with tide := { s.tide with chPlaus := true } } else s)

/-- Records contributions that left the window (R351, R361). -/
def State.recordXovf (s : State) (n : Nat) : State :=
  if n = 0 then s
  else
    let s := (s.count Reg.TIDE_CNT_XOVF n).setFld Reg.TIDE_ERR Fd.TIDE_ERR_XOVF 1
    ({ s with tide := { s.tide with xovf := true } } : State).report .xovf 0 n 0

/-- The local contribution of a chunk, as words of exact traffic or FP32 values. -/
def State.ownChunk (s : State) (raw e n : Nat) : List Nat × State :=
  let (vs, s) := s.srcVals raw e n
  if bktExact raw then
    let ws := vs.map (exWord (bktExp raw))
    (ws.map (·.1), s.recordXovf (ws.countP (·.2)))
  else (vs, s)

/-- Sums chunks element by element: exactly, or with RNE32 in the given order (R351, R352). -/
def sumChunks (exact : Bool) (n : Nat) (cs : List (List Nat)) : List Nat :=
  (List.range n).map fun i =>
    let col := cs.map fun c => c.getD i 0
    if exact then exSum col else match col with
      | a :: r => r.foldl f32Add a
      | [] => 0

/-- A REDUCE message (R354). EXACT is the bucket's in both directions, as R356 checks it; lines that go down carry FP32 (log
entry 30). -/
def State.redMsg (s : State) (k b e : Nat) (down : Bool) (vals : List Nat) : Msg :=
  let raw := s.bktRaw b
  let ex := bktExact raw && !down
  let data := (vals.map fun v => leBytes (if ex then 8 else 4) v).flatten
  let gid := grpGid (tget (fun _ => 0) s.tide.groups (bktGrp raw))
  { typ := 9, vc := 2, len := data.length / 64, masked := false, dst := s.partnerId k, src := s.selfId (portQ k), tag := 0,
    gen := 0, hops := 0, status := 0,
    addr := gid + bktCh raw * 2 ^ 16 + (if down then 2 ^ 19 else 0) + (if bktExact raw then 2 ^ 20 else 0) + b * 2 ^ 21 + e * 2 ^ 32,
    ext := [], data := data }

/-- Sends a REDUCE message through port `k` in the stream of its channel (R328). A port that is not ACTIVE sends nothing. -/
def State.sendRed (s : State) (k b e : Nat) (down : Bool) (vals : List Nat) : State :=
  if s.portSt k = 4 then s.enqueue k (136 + bktCh (s.bktRaw b)) (s.redMsg k b e down vals) else s

/-- Writes result elements to DST and counts them (R350, R362). -/
def State.writeDst (s : State) (b e : Nat) (vals : List Nat) : State :=
  let raw := s.bktRaw b
  let ch := bktCh raw
  let (_, s) := s.writeMem (bktDst raw + 4 * e) (vals.map (leBytes 4)).flatten 10 0xFF
  let s := s.count (Reg.RCH_CNT_ELEM (ch / 2) (ch % 2)) vals.length
  let x := s.chan ch
  s.setChan ch { x with cur := x.cur.map fun r => { r with written := r.written + vals.length } }

/-- Adds the squares of results to the bucket's sum, when NORM is 1 (R357). -/
def State.addSquares (s : State) (b : Nat) (vals : List Nat) : State :=
  let raw := s.bktRaw b
  if !bktNorm raw then s
  else
    let x := s.chan (bktCh raw)
    s.setChan (bktCh raw) { x with cur := x.cur.map fun r =>
      { r with nsq := vals.foldl (fun n v => toF64 ((f64 n).add ((f32 v).mul (f32 v)))) r.nsq } }

/-- Writes NSQ and LAST into a bucket's entry, in memory and in the module's copy (R347, R355). -/
def State.writeEntry (s : State) (b : Nat) (root : Bool) (nsq : Nat) : State :=
  let a := s.bktBase + 64 * b
  let (_, s) := s.writeMem (a + 40) (leBytes 4 s.tideNum) 10 0xFF
  let s := if root then (s.writeMem (a + 32) (leBytes 8 nsq) 10 0xFF).2 else s
  let raw := s.bktRaw b
  let raw := raw % 2 ^ 320 + s.tideNum * 2 ^ 320 + raw / 2 ^ 352 * 2 ^ 352
  let raw := if root then raw % 2 ^ 256 + nsq * 2 ^ 256 + raw / 2 ^ 320 * 2 ^ 320 else raw
  { s with tide := { s.tide with
      buckets := tset (fun _ => 0) s.tide.buckets b raw
      doneBkts := if root then s.tide.doneBkts ++ [b] else s.tide.doneBkts } }

/-- A bucket whose every element of DST is written is complete (R355). -/
def State.bktFinish (s : State) (ch : Nat) : State :=
  let x := s.chan ch
  match x.cur with
  | some r =>
    if r.written < bktElems (s.bktRaw r.bkt) then s
    else
      let s := s.writeEntry r.bkt (treeRoot (s.bktTree r.bkt)) r.nsq
      let s := s.count (Reg.RCH_CNT_BKT (ch / 2) (ch % 2)) 1
      (s.setChan ch { x with cur := none, got := x.got.filter (·.bkt != r.bkt) }).syncChan ch
  | none => s

/-- A root's results go to every child in chunks of 64 elements: the chunk that ends with element `e` (exclusive) of `n`. -/
def State.sendDown (s : State) (b e n : Nat) (kids : List Nat) : State :=
  if e % 64 ≠ 0 ∧ e ≠ n then s
  else
    let e0 := (e - 1) / 64 * 64
    let vals := (List.range (e - e0)).map fun i => s.memNat (bktDst (s.bktRaw b) + 4 * (e0 + i)) 4
    kids.foldl (fun s k => s.sendRed k b e0 true vals) s

/-- The contributions of a chunk in the order in which an adder takes them. In arrival mode the spec does not say when the
module's own contribution arrives among its children's: its place is free (log entry 29). -/
def State.chunkOrder (s : State) (exact : Bool) (own : List Nat) (cs : List (List Nat)) : List (List Nat) × State :=
  if exact || cs.isEmpty then (own :: cs, s)
  else
    let (w, s) := s.free
    let i := w.toNat % (cs.length + 1)
    (cs.take i ++ own :: cs.drop i, s)

/-- The next chunk of the bucket that a channel works on (R350): with every child's chunk there, it is summed, and sent up or,
at the root, finished. -/
def State.reduceStep (s : State) (ch : Nat) : State :=
  let x := s.chan ch
  match x.cur with
  | none => s
  | some r =>
    let raw := s.bktRaw r.bkt
    let tree := s.bktTree r.bkt
    let kids := treeKids tree
    let n := bktElems raw
    let ex := bktExact raw
    let one := treeRoot tree && kids.isEmpty
    let len := min (if ex && !one then 32 else 64) (n - r.up)
    let cs := x.got.filter fun c => c.bkt == r.bkt && c.elem == r.up
    if n ≤ r.up then s
    else if one then
      let (vs, s) := s.srcVals raw r.up len
      let s := s.setChan ch { x with cur := some { r with up := r.up + len } }
      ((s.writeDst r.bkt r.up vs).addSquares r.bkt vs).bktFinish ch
    else if !kids.all fun k => cs.any (·.port == k) then s
    else
      let (own, s) := s.ownChunk raw r.up len
      let (all, s) := s.chunkOrder ex own (cs.map (·.vals))
      let sum := sumChunks ex len all
      let s := s.setChan ch { x with
        cur := some { r with up := r.up + len }, got := x.got.filter fun c => !(c.bkt == r.bkt && c.elem == r.up) }
      if treeRoot tree then
        let vs := if ex then sum.map (exResult (bktExp raw)) else sum
        (((s.writeDst r.bkt r.up vs).addSquares r.bkt vs).sendDown r.bkt (r.up + len) n kids).bktFinish ch
      else s.sendRed (treeParent tree) r.bkt r.up false sum

/-- Whether a channel's next step sums a chunk: of the contributions of a group of several modules, all there (R350). -/
def State.sumsChunk (s : State) (ch : Nat) (r : BktRun) : Bool :=
  let kids := treeKids (s.bktTree r.bkt)
  decide (r.up < bktElems (s.bktRaw r.bkt)) && !(treeRoot (s.bktTree r.bkt) && kids.isEmpty)
    && kids.all fun k => (s.chan ch).got.any fun c => c.bkt == r.bkt && c.elem == r.up && c.port == k

/-- A channel whose two adder lanes differ twice for one chunk stops, and the firmware raises FAIL (R447). -/
def State.chanHard (s : State) (ch : Nat) (r : BktRun) : State :=
  let s := (s.setChan ch { s.chan ch with trig := [], cur := none }).syncChan ch
  (s.toHandler (engEvent 8 (0x7000 + ch) 0 0 r.bkt r.up)).failHere 6

/-- REDUCE_CHUNK (R350, R447): where the two adder lanes differ the chunk is summed again, and a repeat on which they agree gives the
sum. -/
def execReduceChunk (x : ChunkStep) (s : State) : Out :=
  let ch := x.ch
  match x.adder, (s.chan ch).cur with
  | some again, some r =>
    if s.sumsChunk ch r then
      let s := s.reexec 7 (0x7000 + ch) 1 r.bkt r.up
      settled (if again then s.chanHard ch r else s.reduceStep ch)
    else settled (s.reduceStep ch)
  | _, _ => settled (s.reduceStep ch)

/-- Whether a received REDUCE message meets R356. -/
def State.redOk (s : State) (k : Nat) (m : Msg) : Bool :=
  let raw := s.bktRaw m.redBkt
  let tree := s.bktTree m.redBkt
  let down := bitsOf m.addr 19 19 == 1
  bktValid raw && grpGid (tget (fun _ => 0) s.tide.groups (bktGrp raw)) == bitsOf m.addr 15 0 && m.redCh == bktCh raw
    && (bitsOf m.addr 20 20 == 1) == bktExact raw
    && (if down then !treeRoot tree && treeParent tree == k else (treeKids tree).contains k)

/-- The elements of a REDUCE message. -/
def Msg.redVals (m : Msg) : List Nat :=
  let w := if bitsOf m.addr 20 19 = 2 then 8 else 4
  (List.range (m.data.length / w)).map fun i => leNat ((m.data.drop (w * i)).take w)

/-- A result from the parent is written to DST and goes to every child (R350). -/
def State.redDown (s : State) (m : Msg) : State :=
  let b := m.redBkt
  let e := bitsOf m.addr 63 32
  let s := s.writeDst b e m.redVals
  ((treeKids (s.bktTree b)).foldl (fun s k => s.sendRed k b e true m.redVals) s).bktFinish (bktCh (s.bktRaw b))

/-- A REDUCE message that the module serves (R350, R356). -/
def State.serveRed (s : State) (k : Nat) (m : Msg) : State :=
  if !s.redOk k m then (s.setFld Reg.TIDE_ERR Fd.TIDE_ERR_GROUP 1).failHere 3
  else if bitsOf m.addr 19 19 = 1 then s.redDown m
  else
    let ch := bktCh (s.bktRaw m.redBkt)
    let x := s.chan ch
    s.setChan ch { x with got := x.got ++ [⟨m.redBkt, k, bitsOf m.addr 63 32, m.redVals⟩] }

/-- REDUCE (R338, R356): the oldest REDUCE message of the port that does not wait for its bucket. -/
def execReduce (k : Fin 16) (s : State) : Out :=
  match ((s.port k).rxq.getD 2 []).find? fun m => m.typ == 9 && !s.redHeld m with
  | some m =>
    let s := s.takeMsg k m
    settled (if m.dst = s.selfId (portQ k) then s.serveRed k m else s.forward k m)
  | none => .next s

/-! ### The manager (R359) -/

/-- HEARTBEAT (R359): the manager sends one every 100 ms. The spec gives it no message; the model counts it. -/
def execHeartbeat (s : State) : Out :=
  if s.fw.manager = s.selfId 0 + 1 then .next { s with fw := { s.fw with heartbeats := s.fw.heartbeats + 1 } } else .next s

/-- Whether one candidate goes before another: higher priority, then lower serial number (R359). -/
def candBefore (a b : Candidate) : Bool :=
  decide (b.prio < a.prio) || (a.prio == b.prio && decide (a.serial < b.serial))

/-- The first of the candidates in the order of R359. -/
def firstCand (cs : List Candidate) : Option Candidate :=
  cs.foldl (fun b c => match b with
    | none => some c
    | some x => if candBefore c x then some c else some x) none

/-- The module id of a role plus 1, 0 for none. -/
def roleId : Option Candidate → Nat
  | some c => c.id.toNat + 1
  | none => 0

/-- The candidates with this module's own priority, from its configuration, and the serial number of its own certificate (R359,
R485). -/
def State.ownCand (s : State) (cs : List Candidate) : List Candidate :=
  cs.map fun c => if c.id.toNat = s.selfId 0 then
    { c with prio := (s.blkPayload 2).getD 1 0, serial := BitVec.ofNat 128 s.boot.serial } else c

/-- ELECTION (R359): the operand names the modules taking part, with what the others sent over VC 3. -/
def execElection (cands : List Candidate) (s : State) : Out :=
  let cs := s.ownCand cands
  match if s.up then firstCand cs else none with
  | none => .next s
  | some m =>
    .next { s with fw := { s.fw with
      manager := m.id.toNat + 1, standby := roleId (firstCand (cs.filter (· != m))), cands := cs } }

/-- HEARTBEAT_MISS (R359): three heartbeats in a row are missed, and the standby takes the manager role and elects a new standby, from
the modules of the last election without the manager that is lost and itself. -/
def execHeartbeatMiss (s : State) : Out :=
  if s.fw.standby = s.selfId 0 + 1 then
    let left := s.fw.cands.filter fun c => c.id.toNat + 1 != s.fw.manager && c.id.toNat + 1 != s.fw.standby
    let s : State := { s with fw := { s.fw with manager := s.fw.standby, standby := roleId (firstCand left) } }
    .next (s.report (.other 0x359) 0 (s.selfId 0) 0)
  else .next s

end Sys2Proof.Machine
end

