-- ==== Sys2Proof/Machine/RegWrite.lean ====
section
/-! DEFINITION. A software write of any register, with the conditions that the register tables attach to its fields, and a read
of any register (R16, R17 and the register tables of every chapter). A write whose command bit has a row of its own does what
that row does. -/

namespace Sys2Proof.Machine

/-- Whether bit `i` of a word is 1. -/
def wbit (v : Word) (i : Nat) : Bool := v.toNat / 2 ^ i % 2 == 1

/-! ### Island windows (R146, R178, R181, R247, R465) -/

/-- A write of ISL_SEQ_CTL (R146): ENTRY only while the context is stopped; RUN 1 runs the context, RUN 0 stops it. -/
def State.seqCtlWrite (s : State) (p : Nat) (v : Word) : State :=
  let a := Reg.ISL_SEQ_CTL p
  let entry (s : State) (c : Nat) (f : Fld) : State := if s.ctxStopped p c then s.setFld a f (f.get v) else s
  let s := entry (entry s 0 Fd.ISL_SEQ_CTL_ENTRY0) 1 Fd.ISL_SEQ_CTL_ENTRY1
  let run (s : State) (c : Nat) : State := if wbit v c then s.runCtx p c else s.stopRun p c
  run (run s 0) 1

/-- A write of ISL_SEQ_FAULT (R146): clearing VALID also clears CODE, PC and ISL_SEQ_FINFO. -/
def State.seqFaultWrite (s : State) (p c : Nat) (v : Word) : State :=
  let a := Reg.ISL_SEQ_FAULT p c
  let s := s.swWrite a v
  if s.bit a Fd.ISL_SEQ_FAULT_VALID then s
  else ((s.setFld a Fd.ISL_SEQ_FAULT_CODE 0).setFld a Fd.ISL_SEQ_FAULT_PC 0).setReg (Reg.ISL_SEQ_FINFO p c) 0

/-- The context whose "stopped only" register lies at an offset of an Island's window: PC, CTXID, SREG, PRED. -/
def stoppedOnly (off : Nat) : Option Nat :=
  if 0x010 ≤ off ∧ off < 0x020 then some (off / 4 % 2)
  else if 0x100 ≤ off ∧ off < 0x300 then some ((off - 0x100) / 0x100)
  else if 0x300 ≤ off ∧ off < 0x308 then some (off / 4 % 2)
  else none

/-- Whether an offset of an Island's window is a register that ignores writes unless both contexts are IDLE or STOPPED: EBB_DESC,
SHL_CFG, ISL_SENT_CFG, ISL_SENT_KEY (R178, R247, R465). -/
def bothStopped (off : Nat) : Bool :=
  (decide (0x3100 ≤ off) && decide (off < 0x3500)) || off == 0x4004 || off == 0x5000 || off == 0x5004 || off == 0x5008

/-- A write in the window of Island `p` at an offset. -/
def State.wrIsl (s : State) (p off : Nat) (v : Word) : State :=
  let a := islWin p + off
  if off = 0x000 then s.seqCtlWrite p v
  else if off = 0x020 then s.seqFaultWrite p 0 v
  else if off = 0x028 then s.seqFaultWrite p 1 v
  else if off = 0x3004 then
    let s := s.swWrite a v
    if s.bit a Fd.EBB_ERR_NONFIN || s.bit a Fd.EBB_ERR_BOUND then s else s.setFld (Reg.EBB_FIRST p) Fd.EBB_FIRST_VALID 0
  else if off = 0x500C then
    let s := s.swWrite a v
    if s.bit a Fd.ISL_SENT_ERR_MISMATCH then s else s.setFld (Reg.ISL_SENT_FIRST p) Fd.ISL_SENT_FIRST_VALID 0
  else if bothStopped off then (if s.islStopped p then s.swWrite a v else s)
  else match stoppedOnly off with
    | some c =>
      let s0 := 0x100 ≤ off && off < 0x300 && decide (off % 0x100 < 8)
      if s0 || !s.ctxStopped p c then s else s.swWrite a v
    | none => s.swWrite a v

/-! ### Quarter windows -/

/-- A write of FRY_SUBMIT_CTL (R211). -/
def State.fryCtlWrite (s : State) (f : Nat) (v : Word) : State := if wbit v 0 then s.ferrySubmit f else s

/-- A write of STR_CTL (R319, R322): EN and MAINT change the port, RETRAIN, ADMIT and LEAVE act when written 1. -/
def State.strCtlWrite (s : State) (k : Nat) (v : Word) : State :=
  let a := stCtl k
  let s := if wbit v 0 == s.bit a Fd.STR_CTL_EN then s else if wbit v 0 then s.portOn k else s.portOff k
  let s := if wbit v 1 == s.bit a Fd.STR_CTL_MAINT then s else s.portMaint k (wbit v 1)
  let s := if wbit v 2 then s.retrainPort k else s
  let s := if wbit v 3 ∧ s.portSt k = 3 then s.setPortSt k 4 else s
  if wbit v 4 then s.portLeave k else s

/-- A write in the STR_ block of Quarter `q` (R322, R323). -/
def State.wrStr (s : State) (q off : Nat) (v : Word) : State :=
  let a := qtrWin q + 0x20000 + off
  let k := 4 * q + off / 0x1000
  if off < 0x4000 then
    match off % 0x1000 with
    | 0x000 => s.strCtlWrite k v
    | 0x100 => if wbit v 4 then s.lbGo k v else s.swWriteKeep a [Fd.STR_LB_CTL_GO] v
    | _ => s.swWrite a v
  else if off = 0x5000 then (if s.loaded then s.swWriteKeep a [Fd.STR_SELF_ID] v else s.swWrite a v)
  else s.swWrite a v

/-- A write of a DRAM controller's register (R284, R285, R287). -/
def State.wrMem (s : State) (m : MemUnit) (off : Nat) (v : Word) : State :=
  match off with
  | 0x04C => s.memMaint m (wbit v 0)
  | 0x050 => if wbit v 2 then s.memLbGo m v else s.swWriteKeep (memReg m 0x050) [Fd.HBM_LB_CTL_GO] v
  | _ => s.swWrite (memReg m off) v

/-- A write of TIDE_CTL (R326, R327, R341): LOAD, UNLOAD, FAILNOW, in that order where several are written. -/
def State.tideCtlWrite (s : State) (v : Word) : State :=
  let s := if wbit v 0 then s.load else s
  let s := if wbit v 1 then s.unload else s
  if wbit v 2 ∧ s.loaded then s.failHere 6 else s

/-- Whether an offset of the TIDE_ block ignores writes while a program is loaded (R361, R362). -/
def tideFixed (off : Nat) : Bool :=
  off == 0x004 || (decide (0x008 ≤ off) && decide (off ≤ 0x014)) || off == 0x020
    || (decide (0x080 ≤ off) && decide (off ≤ 0x08C)) || (decide (0x0C0 ≤ off) && decide (off < 0x100))
    || off == 0x208 || off == 0x20C

/-- A write in the TIDE_ block of Quarter `q` (R361, R362, R389). -/
def State.wrTide (s : State) (q off : Nat) (v : Word) : State :=
  let a := qtrWin q + 0x60000 + off
  if s.loaded && tideFixed off then s
  else if q = 0 ∧ off = 0x000 then s.tideCtlWrite v
  else if q = 0 ∧ off = 0x028 then s.goWrite v
  else if q = 0 ∧ off = 0x004 then
    let s := (s.swWrite a v).syncArb
    s.setReg Reg.TIDE_STEP (BitVec.ofNat 32 (s.tideNum / s.nTypes))
  else s.swWrite a v

/-- A write in the FUU_ block (R369, R390). -/
def State.wrFuu (s : State) (q off : Nat) (v : Word) : State :=
  let a := qtrWin q + 0xA0000 + off
  let u := 2 * q + off / 0x1000
  let o := off % 0x1000
  let fixed := [0x010, 0x014, 0x018, 0x020, 0x024, 0x028].contains o || decide (0x800 ≤ o)
  if s.loaded && fixed then s
  else if o = 0x000 then (if wbit v 2 then s.fuuGo u v else s.swWriteKeep a [Fd.FUU_CTL_GO] v)
  else if o = 0x004 then (if wbit v 1 then s else s.unlock u)
  else s.swWrite a v

/-- A write in the CHT_ block (R210). -/
def State.wrCht (s : State) (q off : Nat) (v : Word) : State :=
  match off with
  | 0x0000 => s.chtInvWrite q v
  | 0x0028 => s.t1CtlWrite q v
  | _ => s.swWrite (qtrWin q + 0x80000 + off) v

/-- A write of BUOY_DUMP_CTL (R158, R159). -/
def State.dumpWrite (s : State) (q : Nat) (v : Word) : State :=
  let s := s.swWriteKeep (Reg.BUOY_DUMP_CTL q) [Fd.BUOY_DUMP_CTL_GO] v
  if wbit v 0 then s.dumpGo q else s

/-- A write in the window of Quarter `q` at an offset. -/
def State.wrQtr (s : State) (q off : Nat) (v : Word) : State :=
  let a := qtrWin q + off
  if off < 0x10000 then (if off % 0x4000 = 0x018 then s.fryCtlWrite (4 * q + off / 0x4000) v else s.swWrite a v)
  else if 0x20000 ≤ off ∧ off < 0x40000 then s.wrStr q (off - 0x20000) v
  else if h : 0x40000 ≤ off ∧ off < 0x44000 ∧ q < 4 then
    s.wrMem (.hbm ⟨2 * q + (off - 0x40000) / 0x2000, by omega⟩) (off % 0x2000) v
  else if 0x60000 ≤ off ∧ off < 0x70000 then s.wrTide q (off - 0x60000) v
  else if off = 0x70010 then s.dumpWrite q v
  else if 0x80000 ≤ off ∧ off < 0xA0000 then s.wrCht q (off - 0x80000) v
  else if 0xA0000 ≤ off ∧ off < 0xA2000 then s.wrFuu q (off - 0xA0000) v
  else if h : 0xC0000 ≤ off ∧ off < 0xC8000 ∧ q < 4 then
    s.wrMem (.lpx ⟨8 * q + (off - 0xC0000) / 0x1000, by omega⟩) (off % 0x1000) v
  else s.swWrite a v

/-! ### Module window (R32, R434, R435, R466, R490, R514) -/

/-- Whether a requester is another Pilot core than `c`. -/
def otherCore (r : Requester) (c : Nat) : Bool := match r with | .pilot d => d.val != c | _ => false

/-- The core that a write of PLT_ROWN comes from; a requester that is no core counts as one that is not the owner. -/
def State.rownCore (s : State) (r : Requester) (ring : Nat) : Nat :=
  match r with | .pilot d => d | _ => (s.ringOwner ring + 1) % 4

/-- Whether a requester writes OUT of mailbox `m` (R434): the serving core, and the debug path with its rights. -/
def State.mbxServer (s : State) (r : Requester) (m : Nat) : Bool :=
  match r with
  | .pilot d => d.val == s.mbxOwner m
  | .debug => true
  | _ => false

/-- A write of PLT_CORE (R428, R430, R434): READY written 1 is the core's return to service; without it its rings are held. -/
def State.pltCoreWrite (s : State) (c : Nat) (v : Word) : State :=
  let was := s.coreReady c
  let s := s.swWriteKeep (Reg.PLT_CORE c) [Fd.PLT_CORE_READY] v
  if !wbit v 0 then (s.setFld (Reg.PLT_CORE c) Fd.PLT_CORE_READY 0).holdRings c else if was then s else s.coreServes c

/-- A write in the PLT_ block (R395, R434). -/
def State.wrPlt (s : State) (r : Requester) (off : Nat) (v : Word) : State :=
  let a := modWin + off
  if off < 0x010 then (if otherCore r (off / 4) then s else s.pltCoreWrite (off / 4) v)
  else if off < 0x020 then
    (if otherCore r (off / 4 % 4) || !wbit v 0 then s else s.kick (off / 4 % 4))
  else if off = 0x048 then s.rdbWrite v
  else if 0x100 ≤ off ∧ off < 0x200 then
    let ring := (off - 0x100) / 4
    let s := s.rownWrite (s.rownCore r ring) ring (v.toNat % 4)
    s.swWriteKeep a [Fd.PLT_ROWN_OWNER] v
  else if 0x1000 ≤ off ∧ off < 0x1800 then
    let m := (off - 0x1000) / 0x100
    let o := off % 0x100
    if o < 0x40 then (if mbxClient r m then s.inWrite m (o / 4) v else s)
    else if o < 0x80 then (if s.mbxServer r m then s.swWrite a v else s)
    else if o = 0x80 then s.dbWrite m v
    else s.swWrite a v
  else s.swWrite a v

/-- A write in the MGT_ block (R509, R514). -/
def State.wrMgt (s : State) (off : Nat) (v : Word) : State :=
  let a := modWin + 0x20000 + off
  if off = 0x080 then s.mgtLbWrite v
  else if off = 0x004 then (s.swWrite a v).syncLeff
  else if off = 0x014 then (s.swWrite a v).syncThrottle
  else s.swWrite a v

/-- A write in the organisation block (R32, R466). -/
def State.wrOrg (s : State) (off : Nat) (v : Word) : State :=
  if off = 0x0000 then s.policyWrite v
  else if 0x0100 ≤ off ∧ off < 0x0320 then s.lmapWrite ((off - 0x100) / 4) v
  else if off = 0x0800 then s.swapCtlWrite v
  else if off = 0x0900 then s.testCtlWrite v
  else s.swWrite (modWin + 0x40000 + off) v

/-- A write in the module-level window. -/
def State.wrMod (s : State) (r : Requester) (off : Nat) (v : Word) : State :=
  if off < 0x10000 then s.wrPlt r off v
  else if off = 0x10000 then s.resetShore v.toNat
  else if 0x20000 ≤ off ∧ off < 0x30000 then s.wrMgt (off - 0x20000) v
  else if off = 0x30010 then s.flCtlWrite v
  else if off = 0x30030 then s.rcvWrite v
  else if 0x40000 ≤ off ∧ off < 0x50000 then s.wrOrg (off - 0x40000) v
  else s.swWrite (modWin + off) v

/-! ### Any register -/

/-- A write of the register at `a` by a requester that may make it. -/
def State.wrReg (s : State) (r : Requester) (a : Nat) (v : Word) : State :=
  if (regRow? a).isNone then s
  else if a < 0x2000000 then
    (if a % 256 = 0 then s.buoyHand r ((a - 0x1000000) / 0x400000) ((a - 0x1000000) % 0x400000 / 256) v.toNat else s.swWrite a v)
  else if a < 0x5000000 then s.wrIsl ((a - 0x4000000) / 0x10000) (a % 0x10000) v
  else if a < 0x6000000 then s.wrQtr ((a - 0x5000000) / 0x100000) (a % 0x100000) v
  else s.wrMod r (a - modWin) v

/-- What a read of a register shows that follows other state: ISL_SEQ_STATUS shows RUN or STALL by readiness (R111, R146). -/
def State.syncRead (s : State) (a : Nat) : State :=
  if 0x4000000 ≤ a ∧ a < 0x4900000 ∧ a % 0x10000 = 0x004 then
    (s.syncCtx ((a - 0x4000000) / 0x10000) 0).syncCtx ((a - 0x4000000) / 0x10000) 1
  else s

/-- A read of the register at `a` (R16): its value, 0 where there is no register; every RC field becomes 0. -/
def State.rd (s : State) (a : Nat) : Word × State :=
  match regRow? a with
  | some r =>
    let s := s.syncRead a
    (s.reg a, s.setReg a (r.rcClear (s.reg a)))
  | none => (0, s)

/-- REGISTER_WRITE (R16, R17): any register, with the conditions of its table. -/
def execRegisterWrite (r : Requester) (a : BitVec 48) (v : BitVec 32) (s : State) : Out :=
  settled (s.guarded r a.toNat fun s => s.wrReg r a.toNat v)

/-- Whether a requester may read a register through the address map (R502: the management port only where it is permitted). -/
def State.mayRead (s : State) (r : Requester) (a : Nat) : Bool :=
  match r with
  | .mgmt => s.mgmtArea a 4 false
  | _ => true

/-- RC_COUNTER_READ (R16): the requester gets the value, and every RC field of the register becomes 0. -/
def execRcCounterRead (r : Requester) (a : BitVec 48) (s : State) : Out :=
  if !s.up then .next s
  else if !s.mayRead r a.toNat then .next ((s.accessErr a.toNat (reqCode r) false 3).respond (.err 3 []))
  else
    let (w, s) := s.rd (a.toNat / 4 * 4)
    .next (s.respond (.data (leBytes 4 w.toNat)))

end Sys2Proof.Machine
end

