-- ==== Sys2Proof/Machine/Ext.lean ====
section
/-! DEFINITION. Accesses from outside the engines: loads and stores of the cores and of the debug access path through the address
map (R36 to R39, R392), the memory-access service of the management port (R500 to R503), and inbound PCIe requests (R506). -/

namespace Sys2Proof.Machine

/-! ### Accesses of any size -/

/-- The pieces, each within one 64-byte line, of an access of at most `fuel` bytes. No piece crosses a region or a controller. -/
def linePieces : Nat → Nat → Nat → List (Nat × Nat)
  | 0, _, _ => []
  | fuel + 1, a, n =>
    let k := 64 - a % 64
    if n = 0 then [] else if n ≤ k then [(a, n)] else (a, k) :: linePieces fuel (a + k) (n - k)

/-- Reads `k` registers upward from a word address (R16). -/
def State.rdWords : State → Nat → Nat → List Byte × State
  | s, _, 0 => ([], s)
  | s, a, k + 1 =>
    let (w, s) := s.rd a
    let (r, s) := s.rdWords (a + 4) k
    (leBytes 4 w.toNat ++ r, s)

/-- A read within one line: of registers word by word, of memory through the address map. -/
def State.readPiece (s : State) (a n req : Nat) : AccRes :=
  if region a = .regs then
    let (d, s) := s.rdWords (a / 4 * 4) ((a % 4 + n + 3) / 4)
    ⟨0, (d.drop (a % 4)).take n, false, s⟩
  else s.busRead a n req 0xFF

/-- Writes registers upward from a word address, each where the requester may write it (R392): whether one was denied. -/
def State.wrWords (s : State) (r : Requester) (a : Nat) : List Byte → Bool × State
  | b0 :: b1 :: b2 :: b3 :: rest =>
    if s.mayWrite r a then (s.wrReg r a (BitVec.ofNat 32 (leNat [b0, b1, b2, b3]))).wrWords r (a + 4) rest
    else (true, ((s.accessErr a (reqCode r) true 3).wrWords r (a + 4) rest).2)
  | _ => (false, s)

/-- A write within one line. Registers are 32 bits wide: a store to them that is not of whole aligned words is dropped with an
access error (DESIGN CHOICE, log entry 46). -/
def State.writePiece (s : State) (r : Requester) (a : Nat) (bs : List Byte) : AccRes :=
  if region a = .regs then
    if a % 4 = 0 ∧ bs.length % 4 = 0 then
      let (bad, s) := s.wrWords r a bs
      ⟨if bad then 3 else 0, [], false, s⟩
    else ⟨3, [], false, s.accessErr a (reqCode r) true 3⟩
  else s.busWrite a bs (reqCode r) 0xFF

/-- Reads the pieces in order. The kind is that of the first piece with an access error. -/
def State.readPieces : State → Nat → List (Nat × Nat) → AccRes
  | s, _, [] => ⟨0, [], false, s⟩
  | s, req, (a, n) :: l =>
    let x := s.readPiece a n req
    let y := x.st.readPieces req l
    ⟨if x.kind ≠ 0 then x.kind else y.kind, x.data ++ y.data, x.bad || y.bad, y.st⟩

/-- Writes the pieces in order. -/
def State.writePieces : State → Requester → List (Nat × Nat) → List Byte → AccRes
  | s, _, [], _ => ⟨0, [], false, s⟩
  | s, r, (a, n) :: l, bs =>
    let x := s.writePiece r a (bs.take n)
    let y := x.st.writePieces r l (bs.drop n)
    ⟨if x.kind ≠ 0 then x.kind else y.kind, [], x.bad || y.bad, y.st⟩

/-! ### Cores and the debug access path -/

/-- Whether a read of a flash device has to wait for the operation that runs on it (R489). -/
def State.flashWaits (s : State) (a : Nat) : Bool :=
  match region a, s.boot.flashOp with
  | .flash d, some o => o.dev == d
  | _, _ => false

/-- Whether a requester may make a store to memory other than registers: the Shore not to the control region (R392), the
management service only where it is permitted (R502). -/
def State.mayStore (s : State) (r : Requester) (a n : Nat) : Bool :=
  match r with
  | .shore _ => region a == .regs || decide (0x40000000 ≤ a)
  | .mgmt => s.mgmtArea a n true
  | _ => true

/-- A load (R37 to R39, R272): data, an access error with zeros, or the access fault of an uncorrectable error, kind 5, with the
data as stored. -/
def State.coreLoad (s : State) (r : Requester) (a n : Nat) : State :=
  if s.flashWaits a || s.flashWaits (a + n - 1) then s
  else if r == .mgmt && !s.mgmtArea a n false then
    (s.accessErr a (reqCode r) false 3).respond (.err 3 (List.replicate n 0))
  else
    let x := s.readPieces (reqCode r) (linePieces 2 a n)
    x.st.respond (if x.kind ≠ 0 then .err x.kind x.data else if x.bad then .err 5 x.data else .data x.data)

/-- A store (R37 to R39, R273, R392). A store that merges into a bad codeword completes with an access fault. -/
def State.coreStore (s : State) (r : Requester) (a : Nat) (bs : List Byte) : State :=
  if !s.mayStore r a bs.length then s.denied r a
  else
    let x := s.writePieces r (linePieces 2 a bs.length) bs
    x.st.respond (if x.kind ≠ 0 then .err x.kind [] else if x.bad then .err 5 [] else .data [])

/-- CORE_MEMORY_ACCESS (R36 to R39, R96, R272, R273, R392). -/
def execCoreMemoryAccess (r : Requester) (acc : CoreAccess) (s : State) : Out :=
  if !accessSized acc then .fault .illFormed
  else if !s.up then .next s
  else match acc with
    | .rd a n => settled (s.coreLoad r a.toNat n)
    | .wr a d => settled (s.coreStore r a.toNat d)

/-! ### The management port's memory-access service (R500 to R503) -/

/-- Whether the service answers a source MAC: it is on the allow list of the MGMT block, or that list is empty (R502, R504). -/
def State.macAllowed (s : State) (mac : Nat) : Bool :=
  let p := s.blkPayload 6
  let n := min 8 (payNat p 8 1)
  n == 0 || (List.range n).any fun i => payNat p (16 + 8 * i) 6 == mac

/-- The STATUS with which the service refuses a request, 0 where it performs it (R502). -/
def State.mgmtRefuses (s : State) (f : MgmtFrame) (wr : Bool) : Nat :=
  let n := f.len.toNat
  let a := f.addr.toNat
  if n % 4 ≠ 0 ∨ n < 4 ∨ 1024 < n ∨ (wr ∧ f.data.length ≠ n) then 3
  else if a % 4 ≠ 0 then 2
  else if !s.macAllowed f.src.toNat || decide (2 ^ 48 ≤ a) || !s.mgmtArea a n wr then 1
  else 0

/-- Sends the response frame of a request. -/
def State.mgmtAnswer (s : State) (f : MgmtFrame) (op status : Nat) (d : List Byte) : State :=
  { s with mgmtOut := some ⟨op, status, f.len.toNat, f.tag.toNat, f.addr.toNat, d⟩ }

/-- Whether the service receives frames: the module is up and the management link is up. -/
def State.mgmtServes (s : State) : Bool := s.up && s.bit Reg.MGT_STATUS Fd.MGT_STATUS_MLINK

/-- READ (R501 to R503). -/
def execRead (f : MgmtFrame) (s : State) : Out :=
  if !s.mgmtServes then .next s
  else match s.mgmtRefuses f false with
    | 0 =>
      let x := s.readPieces (reqCode .mgmt) (linePieces 17 f.addr.toNat f.len.toNat)
      let bad := x.kind ≠ 0 ∨ x.bad = true
      settled ((x.st.count Reg.MGT_CNT_REQ 1).mgmtAnswer f 3 (if bad then 4 else 0) (if bad then [] else x.data))
    | st => .next ((s.count Reg.MGT_CNT_DENIED 1).mgmtAnswer f 3 st [])

/-- The 4-byte pieces of a service write, in ascending order (R503). -/
def wordPieces (a n : Nat) : List (Nat × Nat) := (List.range (n / 4)).map fun i => (a + 4 * i, 4)

/-- WRITE (R501 to R503). A write of MGT_PCAP in the cycle of a Pilot write is dropped. -/
def execWrite (f : MgmtFrame) (s : State) : Out :=
  if !s.mgmtServes then .next s
  else match s.mgmtRefuses f true with
    | 0 =>
      if f.pilotSameCycle && f.addr.toNat == Reg.MGT_PCAP then .next (s.mgmtAnswer f 4 5 [])
      else
        let x := s.writePieces .mgmt (wordPieces f.addr.toNat f.len.toNat) f.data
        settled ((x.st.count Reg.MGT_CNT_REQ 1).mgmtAnswer f 4 (if x.kind ≠ 0 then 4 else 0) [])
    | st => .next ((s.count Reg.MGT_CNT_DENIED 1).mgmtAnswer f 4 st [])

/-! ### The storage port (R506) -/

/-- Whether a range lies wholly in the LPDDR5X checkpoint and spill region (R36, R506). -/
def inSpill (a n : Nat) : Bool := decide (0x20C00000000 ≤ a) && decide (a + n ≤ 0x2B400000000)

/-- Completes an inbound request as an Unsupported Request, and logs it (R506). -/
def State.pcieRefuse (s : State) : State := { s.bootRec 5 1 with pcieOut := .unsupported }

/-- An inbound memory request. The REQ code of its accesses is that of the Pilot (log entry 45). -/
def State.pcieIn (s : State) (q : PcieReq) : State :=
  match q with
  | .rd a n =>
    if inSpill a.toNat n then
      let x := s.readPieces 9 (linePieces (n / 64 + 2) a.toNat n)
      { x.st with pcieOut := .data x.data }
    else s.pcieRefuse
  | .wr a d =>
    if inSpill a.toNat d.length then
      { (s.writePieces (.pilot 3) (linePieces (d.length / 64 + 2) a.toNat d.length) d).st with pcieOut := .written }
    else s.pcieRefuse

/-- PCIE_INBOUND_REQUEST (R506). -/
def execPcieInboundRequest (q : PcieReq) (s : State) : Out :=
  if !pcieSized q then .fault .illFormed
  else if s.up && s.bit Reg.MGT_STATUS Fd.MGT_STATUS_PLINK then .next (s.pcieIn q) else .next s

end Sys2Proof.Machine
end

