-- ==== Sys2Proof/Machine/Pcp.lean ====
section
/-! DEFINITION. The meanings of the PCP commands (R411, R412, R431): the gate that all share, sessions, memory and mappings,
Charts and tensors. A command in flight is performed by its row: its STATUS and results are kept, and COMMAND_COMPLETE writes
them. -/

namespace Sys2Proof.Machine

/-! ### The gate (R401, R403) -/

/-- What a command of an opcode names for R403: a unit, the Tide program, or a Chart slot. -/
def cmdKey (c : Cmd) : Option (Nat × Nat) :=
  let a (i : Nat) : Nat := c.args.getD i 0
  if c.opc = 0x0601 ∨ c.opc = 0x0602 ∨ c.opc = 0x0603 then some (1, a 0)
  else if c.opc = 0x0802 ∧ (a 0 % 16 = 1 ∨ a 0 % 16 = 2) then some (1, 0x1000 + a 1)
  else if c.opc = 0x0301 ∨ c.opc = 0x0302 ∨ c.opc = 0x0303 then some (2, 0)
  else if c.opc = 0x0201 ∨ c.opc = 0x0202 ∨ c.opc = 0x0203 then some (3, a 1 % 2 ^ 14)
  else none

/-- Whether two Chart keys name a common slot: logical Island 0xFF names every Island's. -/
def keysMeet (x y : Nat × Nat) : Bool :=
  x.1 == y.1 && (x.2 == y.2
    || (x.1 == 3 && x.2 / 256 == y.2 / 256 && (x.2 % 256 == 0xFF || y.2 % 256 == 0xFF)))

/-- Whether two commands come from one ring. -/
def sameRing (x y : PcpSrc) : Bool :=
  match x, y with
  | .ring a _, .ring b _ => a == b
  | _, _ => false

/-- Whether an earlier command of the ring, not yet performed, names what this one names (R403). -/
def State.keyWaits (s : State) (c : Cmd) : Bool :=
  match cmdKey c with
  | none => false
  | some k => (s.fw.cmds.takeWhile fun x => x.src != c.src).any fun x =>
      sameRing x.src c.src && x.res.isNone && (match cmdKey x with | some j => keysMeet j k | none => false)

/-- Whether a command is one of a ring that has not been started. -/
def Cmd.fromRing (c : Cmd) : Bool := c.stage == 0 && (match c.src with | .ring .. => true | .urgent _ => false)

/-- The command of a source that its row may perform now: its core serves, its context is not fenced, nothing is before it. An
URGENT command that waits to be started runs ahead of every ring command (R397). -/
def State.pcpCmd (s : State) (src : PcpSrc) (opc : Nat) : Option Cmd :=
  match s.fw.cmds.find? fun c => c.src == src with
  | none => none
  | some c =>
    if c.opc == opc && c.res.isNone && s.up && s.srcServed src && (opc == 0x0105 || !s.ctxFenced c.ctx) && !s.keyWaits c
        && !(c.fromRing && s.urgentOn fun _ => true) then some c
    else none

/-- Argument `i` of a command. -/
def Cmd.arg (c : Cmd) (i : Nat) : Nat := c.args.getD i 0

/-- Changes a command in flight. -/
def State.modCmd (s : State) (src : PcpSrc) (f : Cmd → Cmd) : State :=
  s.setCmds (s.fw.cmds.map fun c => if c.src == src then f c else c)

/-- STATUS and results of a performed command. -/
def State.answer (s : State) (c : Cmd) (st r0 r1 : Nat) : State :=
  s.modCmd c.src fun x => { x with res := some (st, r0 % 2 ^ 64, r1 % 2 ^ 64) }

/-- A command of several steps goes on at a stage. -/
def State.toCmdStage (s : State) (c : Cmd) (n : Nat) : State := s.modCmd c.src fun x => { x with stage := n }

/-- Performs the command of a source, if it is this row's and can be performed. -/
def State.pcp (s : State) (src : PcpSrc) (opc : Nat) (act : State → Cmd → State) : Out :=
  match s.pcpCmd src opc with
  | some c => settled (act s c)
  | none => .next s

/-- Whether this module holds the manager role (R359). -/
def State.isManager (s : State) : Bool := s.fw.manager == s.selfId 0 + 1

/-! ### Session (R408, R411, R431) -/

/-- PCP_NOP. -/
def execPcpNop (src : PcpSrc) (s : State) : Out := s.pcp src 0x0001 fun s c => s.answer c 0 0 0

/-- RING_CLOSE (R408): BUSY when it would close a context that the loaded Tide program uses. The ring closes at its completion, which
asks again. -/
def execRingClose (src : PcpSrc) (s : State) : Out :=
  s.pcp src 0x0002 fun s c => s.answer c (if s.closeBusy c.ctx then 4 else 0) 0 0

/-- PILOT_STATUS. -/
def execPilotStatus (src : PcpSrc) (s : State) : Out :=
  s.pcp src 0x0003 fun s c =>
    s.answer c 0 (((List.range 4).map fun i => (s.reg (Reg.PLT_CORE i)).toNat % 2 ^ 16 * 2 ^ (16 * i)).sum) s.boot.fwver

/-- Reopens a ring of a recovered context: STATE and the next EPOCH (R428, R431). -/
def State.reopenRing (s : State) (r : Nat) : State :=
  match s.session r with
  | some x => (s.showRing r).setHdr x.hdr 44 2 ((s.hdr x.hdr 44 2 + 1) % 2 ^ 16)
  | none => s

/-- CTX_RECOVER (R431): BUSY for a context that is not fenced. RESULT0 is the EPOCH of its lowest ring. -/
def execCtxRecover (src : PcpSrc) (s : State) : Out :=
  s.pcp src 0x0105 fun s c =>
    if !s.ctxFenced c.ctx then s.answer c 4 0 0
    else
      let s := s.setReg Reg.PLT_CTXF (s.reg Reg.PLT_CTXF &&& ~~~(BitVec.ofNat 32 (2 ^ c.ctx)))
      let rs := s.ctxRings c.ctx
      let s := rs.foldl State.reopenRing s
      let epoch := match rs.head? with
        | some r => match s.session r with
          | some x => s.hdr x.hdr 44 2
          | none => 0
        | none => 0
      ((s.tracePt 0x033 [c.ctx, 0]).notify 2 c.ctx).answer c 0 epoch 0

/-! ### Memory (R411, R412, R419) -/

/-- Changes the firmware's record of memory. -/
def State.setAllocs (s : State) (l : List Alloc) : State := { s with fw := { s.fw with allocs := l } }

/-- What is left of a record when a VA range is taken out of it. -/
def allocMinus (lo hi : Nat) (x : Alloc) : List Alloc :=
  if x.va + x.bytes ≤ lo ∨ hi ≤ x.va then [x]
  else
    (if x.va < lo then [{ x with bytes := lo - x.va }] else [])
      ++ (if hi < x.va + x.bytes then [{ x with va := hi, pa := x.pa + (hi - x.va), bytes := x.va + x.bytes - hi }] else [])

/-- Takes a VA range of a context out of the records. -/
def State.dropRange (s : State) (ctx lo hi : Nat) : State :=
  s.setAllocs (s.fw.allocs.flatMap fun x => if x.ctx == ctx then allocMinus lo hi x else [x])

/-- Whether a physical range meets memory that the firmware has given out or keeps for itself. -/
def State.physBusy (s : State) (a n : Nat) : Bool :=
  (decide (a < fwArea + 0x40000000) && decide (caseArea < a + n))
    || s.fw.allocs.any fun x => decide (a < x.pa + x.bytes) && decide (x.pa < a + n)

/-- The lowest free place of `n` bytes in a physical region. -/
def State.placeIn (s : State) (lo hi n : Nat) : Option Nat :=
  let cand := (lo :: s.fw.allocs.map fun x => (x.pa + x.bytes + 2 ^ 21 - 1) / 2 ^ 21 * 2 ^ 21).filter fun a =>
    decide (lo ≤ a) && decide (a + n ≤ hi) && !s.physBusy a n
  cand.foldl (fun b a => match b with
    | none => some a
    | some x => some (min x a)) none

/-- Bytes given out in a physical region. -/
def State.usedIn (s : State) (lo hi : Nat) : Nat :=
  (s.fw.allocs.map fun x => min hi (x.pa + x.bytes) - max lo x.pa).sum

/-- The regions of a tier, each with its bytes: HBM3E stacks, the LPDDR5X spill region, the slices of bound logical Islands. -/
def State.tierRegions (s : State) (tier : Nat) : List (Nat × Nat × Nat) :=
  match tier with
  | 1 => (List.range s.logicalCount).filterMap fun l => (s.physOf l).map fun p => (l, lagBase p, lagBase p + 0x800000)
  | 2 => (List.range 8).map fun k => (k, hbmBase k, if k = 7 then caseArea else hbmBase k + 0x900000000)
  | _ => [(0, 0x26000000000, 0x2B400000000)]

/-- Places `n` bytes in a tier, in a unit or where most space is free (R419). -/
def State.placeTier (s : State) (tier unit n : Nat) : Option Nat :=
  let rs := (s.tierRegions tier).filter fun r => tier == 3 || unit == 0xFF || r.1 == unit
  let free (r : Nat × Nat × Nat) : Nat := r.2.2 - r.2.1 - s.usedIn r.2.1 r.2.2
  let ok := rs.filter fun r => (s.placeIn r.2.1 r.2.2 n).isSome
  match ok.foldl (fun (b : Option (Nat × Nat × Nat)) r => match b with
    | none => some r
    | some x => if free x < free r then some r else some x) none with
  | some r => s.placeIn r.2.1 r.2.2 n
  | none => none

/-- Places `n` bytes: tier 0 takes HBM3E, then LPDDR5X, then the Lagoon. -/
def State.placeMem (s : State) (tier unit n : Nat) : Option Nat :=
  if tier = 0 then
    match s.placeTier 2 0xFF n, s.placeTier 3 0xFF n with
    | some a, _ => some a
    | none, some a => some a
    | none, none => s.placeTier 1 0xFF n
  else s.placeTier tier unit n

/-- The lowest free VA of a context for `n` bytes, from 2 MiB upward; not one that names an allocation of which a part is left. -/
def State.placeVa (s : State) (ctx n : Nat) : Option Nat :=
  let own := s.fw.allocs.filter fun x => x.ctx == ctx
  let cand := (2 ^ 21 :: own.map fun x => (x.va + x.bytes + 2 ^ 21 - 1) / 2 ^ 21 * 2 ^ 21).filter fun v =>
    decide (2 ^ 21 ≤ v) && decide (v + n ≤ 2 ^ 52)
      && own.all fun x => x.root != v && (decide (v + n ≤ x.va) || decide (x.va + x.bytes ≤ v))
  cand.foldl (fun b a => match b with
    | none => some a
    | some x => some (min x a)) none

/-- Whether the page tables of `n` more bytes can be made. -/
def State.tablesLeft (s : State) (n : Nat) : Bool := decide (s.fw.ptPages + n / 2 ^ 30 + 8 ≤ ptMax)

/-- Allocates and maps memory (R411): VA and the state, none when it does not fit. -/
def State.allocMem (s : State) (ctx tier unit n : Nat) (w : Bool) : Option (Nat × State) :=
  match s.placeMem tier unit n, s.placeVa ctx n with
  | some pa, some va =>
    if s.tablesLeft n then
      let s := s.mapPages ctx va pa n false true w
      some (va, s.setAllocs (s.fw.allocs ++ [⟨ctx, va, pa, n, false, false, va⟩]))
    else none
  | _, _ => none

/-- MEM_ALLOC (R411, R412, R419): contiguous memory, in pages of 2 MiB. -/
def execMemAlloc (src : PcpSrc) (s : State) : Out :=
  s.pcp src 0x0101 fun s c =>
    let n := c.arg 0
    let tier := c.arg 1 % 4
    let unit := bitsOf (c.arg 1) 15 8
    let bad := (tier == 1 && unit != 0xFF && decide (s.logicalCount ≤ unit)) || (tier == 2 && unit != 0xFF && decide (8 ≤ unit))
    if s.ctxUsed c.ctx then s.answer c 4 0 0
    else if n = 0 ∨ n % 2 ^ 21 ≠ 0 ∨ bad then s.answer c 1 0 0
    else match s.allocMem c.ctx tier unit n (bitsOf (c.arg 1) 16 16 == 1) with
      | none => s.answer c 6 0 0
      | some (va, s) => (s.invNow c.ctx 0).answer c 0 va 0

/-- MEM_FREE (R411, R412): the VA that MEM_ALLOC returned, with all that is left of its memory. -/
def execMemFree (src : PcpSrc) (s : State) : Out :=
  s.pcp src 0x0102 fun s c =>
    if s.ctxUsed c.ctx then s.answer c 4 0 0
    else
      let own (x : Alloc) : Bool := x.ctx == c.ctx && x.root == c.arg 0 && !x.mapped
      if !s.fw.allocs.any own then s.answer c 1 0 0
      else
        let s := (s.fw.allocs.filter own).foldl (fun s x => s.unmapPages c.ctx x.va x.bytes) s
        ((s.setAllocs (s.fw.allocs.filter fun x => !own x)).invNow c.ctx 0).answer c 0 0 0

/-- MAP (R411, R412): in all four Quarters, followed by CHT_INV. A target that R192 does not allow completes with PROTECT. -/
def execMap (src : PcpSrc) (s : State) : Out :=
  s.pcp src 0x0103 fun s c =>
    let va := c.arg 0
    let pa := c.arg 1
    let n := c.arg 2
    let giga := bitsOf (c.arg 3) 2 2 == 1
    let sz := if giga then 2 ^ 30 else 2 ^ 21
    if s.ctxUsed c.ctx then s.answer c 4 0 0
    else if n = 0 ∨ n % sz ≠ 0 ∨ va % sz ≠ 0 ∨ pa % sz ≠ 0 ∨ 2 ^ 52 < va + n then s.answer c 1 0 0
    else if !frameOk pa n || (giga && decide (pa < 0x88000000)) then s.answer c 0x0E 0 0
    else if !s.tablesLeft n then s.answer c 6 0 0
    else
      let s := (s.dropRange c.ctx va (va + n)).mapPages c.ctx va pa n giga (c.arg 3 % 2 == 1) (bitsOf (c.arg 3) 1 1 == 1)
      ((s.setAllocs (s.fw.allocs ++ [⟨c.ctx, va, pa, n, giga, true, va⟩])).invNow c.ctx 0).answer c 0 0 0

/-- UNMAP (R411, R412). -/
def execUnmap (src : PcpSrc) (s : State) : Out :=
  s.pcp src 0x0104 fun s c =>
    let va := c.arg 0
    let n := c.arg 1
    if s.ctxUsed c.ctx then s.answer c 4 0 0
    else if n = 0 ∨ n % 2 ^ 21 ≠ 0 ∨ va % 2 ^ 21 ≠ 0 ∨ 2 ^ 52 < va + n then s.answer c 1 0 0
    else (((s.unmapPages c.ctx va n).dropRange c.ctx va (va + n)).invNow c.ctx 0).answer c 0 0 0

/-! ### Charts and tensors (R184, R195, R197 to R200, R411, R412) -/

/-- The logical Islands that an argument names: one, or all for 0xFF; none when it is out of range. -/
def slotIsls (a1 : Nat) : Option (List Nat) :=
  let l := a1 % 256
  if l = 0xFF then some (List.range 136) else if l < 136 then some [l] else none

/-- Slot of an argument. -/
def slotNo (a1 : Nat) : Nat := bitsOf a1 13 8

/-- Writes a Chart entry for logical Islands. -/
def State.putChart (s : State) (ctx slot raw : Nat) (ls : List Nat) : State :=
  ls.foldl (fun s l => (s.writeMem (s.chartEntry 0 ctx l slot) (leBytes 128 raw) 9 0xFF).2) s

/-- CHART_WRITE (R411, R412): an entry with T1 set, which only validation writes (R184), completes with INVALID. -/
def execChartWrite (src : PcpSrc) (s : State) : Out :=
  s.pcp src 0x0201 fun s c =>
    if s.ctxUsed c.ctx then s.answer c 4 0 0
    else if !readable (c.arg 0) 128 then s.answer c 0x0E 0 0
    else
      let raw := s.memNat (c.arg 0) 128
      match slotIsls (c.arg 1) with
      | none => s.answer c 1 0 0
      | some ls =>
        if (parseChart raw).t1 then s.answer c 1 0 0
        else ((s.putChart c.ctx (slotNo (c.arg 1)) raw ls).invNow c.ctx 1).answer c 0 0 0

/-- Validates a T1 descriptor for each of the logical Islands, up to the first that fails. -/
def State.t1Each (s : State) (ctx slot src : Nat) : List Nat → Nat × State
  | [] => (0, s)
  | l :: r =>
    let (st, s) := s.t1Validate (min 3 (s.home l)) ctx l slot src
    if st ≠ 0 then (st, s) else s.t1Each ctx slot src r

/-- T1_VALIDATE (R195, R411): a failure completes with REJECTED; RESULT0 holds STATUS. -/
def execT1Validate (src : PcpSrc) (s : State) : Out :=
  s.pcp src 0x0202 fun s c =>
    if s.ctxUsed c.ctx then s.answer c 4 0 0
    else if !readable (c.arg 0) 48 then s.answer c 0x0E 0 0
    else match slotIsls (c.arg 1) with
      | none => s.answer c 1 0 0
      | some ls =>
        let (st, s) := s.t1Each c.ctx (slotNo (c.arg 1)) (c.arg 0) ls
        s.answer c (if st = 0 then 0 else 8) st 0

/-- The last coordinate of a Chart, dims 0 and 1 of a tiled one at the end of their tile. -/
def Chart.lastIdx (c : Chart) : List Int :=
  (List.range 6).map fun d =>
    if d < c.ndim then
      let n := if (c.swz == 1 || (fmtIsMx c.fmt && d == 0)) && decide (d < 2) then (c.sz d + 31) / 32 * 32 else c.sz d
      ((n - 1 : Nat) : Int)
    else 0

/-- Bytes that a Chart's elements span from its base. -/
def Chart.spanBytes (c : Chart) : Nat :=
  if c.sparse then (c.slotOff c.lastIdx).toNat + c.slotBytes
  else
    let n := (c.byteOff c.lastIdx).toNat + (if fmtIsMx c.fmt then mxBytes c.fmt else c.eb)
    if c.swz = 2 then (n + 2047) / 2048 * 2048 else n

/-- Bytes of the scale plane of an MX Chart (R189). -/
def Chart.scaleBytes (c : Chart) : Nat :=
  if fmtIsMx c.fmt then (c.sz 0 + 31) / 32 * ((List.range 6).map fun d => if 1 ≤ d ∧ d < c.ndim then c.sz d else 1).prod else 0

/-- A Chart entry with other fields: each a byte offset, a lowest bit, a width and a value. -/
def putFields (raw : Nat) (fs : List (Nat × Nat × Nat × Nat)) : Nat :=
  fs.foldl (fun r f =>
    let p := 8 * f.1 + f.2.1
    r % 2 ^ p + (f.2.2.2 % 2 ^ f.2.2.1) * 2 ^ p + r / 2 ^ (p + f.2.2.1) * 2 ^ (p + f.2.2.1)) raw

/-- Bytes rounded up to whole 2 MiB pages. -/
def pages2M (n : Nat) : Nat := (n + 2 ^ 21 - 1) / 2 ^ 21 * 2 ^ 21

/-- Memory of `n` bytes in any tier, none at all for 0 bytes. -/
def State.allocAny (s : State) (ctx n : Nat) : Option (Nat × State) :=
  if n = 0 then some (0, s) else s.allocMem ctx 0 0xFF (pages2M n) true

/-- Writes the block-owner entries of a tensor (R198, R419): block `i` on owner `i mod n`, each owner's blocks one after the
other from the LADDR that the list gives. -/
def State.putOwners (s : State) (first blocks blk list n : Nat) : State :=
  (List.range blocks).foldl (fun s i =>
    let w := s.memNat (list + 8 * (i % n)) 8
    let e := first + i
    let ladr := (w / 2 ^ 32 + (i / n) * (2 ^ blk / 65536)) % 2 ^ 32
    (s.setReg (Reg.CHT_BOT_LO (e / 8192) (e % 8192)) (BitVec.ofNat 32 w)).setReg (Reg.CHT_BOT_HI (e / 8192) (e % 8192))
      (BitVec.ofNat 32 ladr)) s

/-- Places a tensor that is not distributed: its memory, and the scale plane behind it. -/
def State.placeLocal (s : State) (ctx raw : Nat) : Option (Nat × Nat × State) :=
  let ch := parseChart raw
  let n := (ch.spanBytes + 63) / 64 * 64
  match s.allocAny ctx (n + ch.scaleBytes) with
  | none => none
  | some (va, s) =>
    let fs := [(0, 0, 52, va), (0x50, 10, 1, 0)] ++ (if ch.scaleBytes = 0 then [] else [(0x58, 0, 52, va + n)])
    some (putFields raw fs, 0, s)

/-- The lowest `n` block-owner entries that no tensor has and no pin names (R9, R419). -/
def State.botFree (s : State) (n : Nat) : Nat :=
  let cand := (s.fw.botNext :: s.fw.pinBot.map fun p => p.1 + p.2).filter fun a =>
    decide (s.fw.botNext ≤ a) && s.fw.pinBot.all fun p => decide (a + n ≤ p.1) || decide (p.1 + p.2 ≤ a)
  cand.foldl min 65536

/-- Places a distributed tensor: its block owners, and its scale plane here (R189). -/
def State.placeDist (s : State) (ctx raw blk list n : Nat) : Option (Nat × Nat × State) :=
  let ch := parseChart raw
  let blocks := (ch.spanBytes + 2 ^ blk - 1) / 2 ^ blk
  let first := s.botFree blocks
  match s.allocAny ctx ch.scaleBytes, s.placeVa ctx (pages2M ch.spanBytes) with
  | some (sv, s), some va =>
    if 32768 < first + blocks then none
    else
      let s := s.putOwners first blocks blk list n
      let s : State := { s with fw := { s.fw with botNext := first + blocks } }
      let fs := [(0, 0, 52, va), (0x50, 10, 1, 1), (0x60, 0, 15, first), (0x60, 16, 5, blk), (0x64, 0, 17, blocks)]
        ++ (if ch.scaleBytes = 0 then [] else [(0x58, 0, 52, sv)])
      some (putFields raw fs, first, s)
  | _, _ => none

/-- TENSOR_PLACE (R411, R412, R419). -/
def execTensorPlace (src : PcpSrc) (s : State) : Out :=
  s.pcp src 0x0203 fun s c =>
    let blk := bitsOf (c.arg 1) 20 16
    let dist := bitsOf (c.arg 1) 21 21 == 1
    let n := c.arg 3
    if s.ctxUsed c.ctx then s.answer c 4 0 0
    else if !readable (c.arg 0) 128 || (dist && !readable (c.arg 2) (8 * n)) then s.answer c 0x0E 0 0
    else
      let raw := putFields (s.memNat (c.arg 0) 128) [(0x50, 12, 4, c.ctx), (0x50, 31, 1, 1)]
      let ch := parseChart raw
      let bad := ch.t1 || !fmtOk ch.fmt || ch.ndim == 0 || ch.ndim == 7 || (ch.size.take ch.ndim).any (· == 0)
        || (ch.stride.take ch.ndim).any (fun x => decide (x < 0)) || (dist && (n == 0 || decide (blk < 16) || decide (26 < blk)))
      match slotIsls (c.arg 1), bad with
      | some ls, false =>
        match if dist then s.placeDist c.ctx raw blk (c.arg 2) n else s.placeLocal c.ctx raw with
        | none => s.answer c 6 0 0
        | some (raw, bot, s) =>
          ((s.putChart c.ctx (slotNo (c.arg 1)) raw ls).invNow c.ctx 2).answer c 0 (parseChart raw).base bot
      | _, _ => s.answer c 1 0 0

end Sys2Proof.Machine
end

