-- ==== Sys2Proof/Machine/PcpJob.lean ====
section
/-! DEFINITION. PCP commands of the job (R414 to R417), of checkpoints, Buoys, registers and Ferries (R411, R412), and of pins
(R419). -/

namespace Sys2Proof.Machine

/-! ### PROG_LOAD and PROG_UNLOAD (R413 to R415) -/

/-- Whether a SHORT bit is set: the module then accepts no Tide program (R468). -/
def State.anyShort (s : State) : Bool :=
  [Fd.BOOT_STATUS_ID_FAIL, Fd.BOOT_STATUS_ISTHMUS, Fd.BOOT_STATUS_MEMORY, Fd.BOOT_STATUS_ISLANDS, Fd.BOOT_STATUS_SHORE].any fun f =>
    s.bit Reg.BOOT_STATUS f

/-- Loads an image of this module (R414): the STATUS with which PROG_LOAD would complete, the code of R326, and the state. -/
def State.loadHere (s : State) (a n : Nat) (first : Option Nat) : Nat × Nat × State :=
  if s.loaded || s.anyShort then (4, 0, s)
  else if !readable a n then (0x0E, 0, s)
  else if !s.tpOk a n then (1, 0, s)
  else if s.policy 0 2 ≠ 0 ∧ s.tpNames a 15 then (4, 0, s)
  else
    let s := s.tpLoad a n (first.getD (s.memNat (a + 16) 4))
    if s.loaded then (0, 0, s) else (8, (s.reg Reg.TIDE_LOADERR).toNat % 256, s)

/-- The entries of an image set: module id, image address, length (R414). -/
def State.imageSet (s : State) (a n : Nat) : List (Nat × Nat × Nat) :=
  (List.range (n / 16)).map fun i =>
    (s.memNat (a + 16 * i) 2 % 1024, s.memNat (a + 16 * i + 8) 8, s.memNat (a + 16 * i + 2) 4)

/-- Whether every other module of a set has answered. -/
def answered (own : Nat) (ids : List Nat) (as : List ModuleAnswer) : Bool :=
  ids.all fun i => i == own || as.any fun x => x.id.toNat == i

/-- PROG_LOAD with SCOPE 1 (R414): the set's image of this module is loaded here, the others' outcomes are their answers. When a
module rejects its image, every module of the set is unloaded again. -/
def State.loadImages (s : State) (c : Cmd) (first : Option Nat) (as : List ModuleAnswer) : State :=
  let set := s.imageSet (c.arg 0) (c.arg 1)
  let own := s.selfId 0
  if !s.isManager then s.answer c 0x0F 0 0
  else if c.arg 1 % 16 ≠ 0 ∨ set.isEmpty then s.answer c 1 0 0
  else if !readable (c.arg 0) (c.arg 1) then s.answer c 0x0E 0 0
  else if s.loaded then s.answer c 4 0 0
  else if !answered own (set.map (·.1)) as then s
  else
    let (st, code, s) := match set.find? (·.1 == own) with
      | some (_, a, n) => s.loadHere a n first
      | none => (0, 0, s)
    let res := set.map fun e => if e.1 = own then (own, st, code) else match as.find? (fun x => x.id.toNat == e.1) with
      | some x => (e.1, if x.code = 0 then 0 else 8, x.code.toNat)
      | none => (e.1, 0, 0)
    match res.find? (·.2.1 != 0) with
    | none => s.answer c 0 set.length 0
    | some (id, st', code') =>
      s.progUnload.answer c st' (res.countP (·.2.1 == 0)) (id + code' * 2 ^ 16)

/-- PROG_LOAD (R414). A rejected load completes with REJECTED and the code of R326. -/
def execProgLoad (src : PcpSrc) (answers : List ModuleAnswer) (s : State) : Out :=
  s.pcp src 0x0301 fun s c =>
    let first := if bitsOf (c.arg 3) 1 1 = 1 then some (c.arg 2) else none
    if c.arg 3 % 2 = 1 then s.loadImages c first answers
    else
      let (st, code, s) := s.loadHere (c.arg 0) (c.arg 1) first
      if st = 0 then s.answer c 0 1 0
      else if st = 8 then s.answer c 8 code (s.selfId 0 + code * 2 ^ 16)
      else s.answer c st 0 0

/-- PROG_UNLOAD (R415): a running program fails first, with reason FIRMWARE. With SCOPE 1 the manager waits for every answer;
the module ids of the job are those of the routes that are valid. The newest image at that moment is the one that a forced test
restores from (R455). -/
def execProgUnload (src : PcpSrc) (answers : List ModuleAnswer) (s : State) : Out :=
  s.pcp src 0x0302 fun s c =>
    let own := s.selfId 0
    let others := (List.range 1024).filter fun i => s.bit (Reg.STR_ROUTE 0 i) Fd.STR_ROUTE_VALID
    if c.arg 0 % 2 = 1 ∧ !s.isManager then s.answer c 0x0F 0 0
    else if c.arg 0 % 2 = 1 ∧ !answered own others answers then s.toCmdStage c 1
    else
      let s : State := if s.loaded then { s.progUnload with fw := { s.progUnload.fw with unloadImg := s.fw.imgSeq } } else s
      s.answer c (if s.loaded then 0x0D else 0) 0 0

/-! ### JOB_RESUME (R416) -/

/-- Whether JOB_RESUME is accepted: this is the manager, and the root is HELD with a HALT verdict. -/
def State.jobHalted (s : State) : Bool :=
  s.isManager && s.isRoot && s.tideSt == 3 && s.fld Reg.TIDE_BCN_VERDICT Fd.TIDE_BCN_VERDICT_VERDICT == 4

/-- JOB_RESUME, continue: ACTION goes into TIDE_GO.CMD, and GO is written. -/
def execJobResumeContinue (src : PcpSrc) (s : State) : Out :=
  s.pcp src 0x0303 fun s c =>
    let act := bitsOf (c.arg 0) 3 2
    if c.arg 0 % 4 ≠ 0 then s
    else if !s.jobHalted then s.answer c 4 0 0
    else if act ≠ 1 ∧ act ≠ 2 then s.answer c 1 0 0
    else
      let cmd := s.fld Reg.TIDE_GO Fd.TIDE_GO_CMD
      let n := (s.tideNum + 1) % 2 ^ 32
      (s.goWrite (BitVec.ofNat 32 (1 + (cmd / 4 * 4 + act) * 2 ^ 8))).answer c 0 n 0

/-- JOB_RESUME, rewind: R381 steps 3 and 4 without a substitution. The RELOAD set runs between the two. -/
def execJobResumeRewind (src : PcpSrc) (s : State) : Out :=
  s.pcp src 0x0303 fun s c =>
    if c.arg 0 % 4 ≠ 1 then s
    else if c.stage = 0 then
      if !s.jobHalted then s.answer c 4 0 0
      else
        let first := s.windowFirst s.tideNum
        let s := s.failUnload.allSets 1
        s.toCmdStage c (first + 1)
    else if !s.setsDone then s
    else
      let s := (s.loadAt (c.stage - 1)).setFld Reg.TIDE_BCN_CFG Fd.TIDE_BCN_CFG_REPLAY 1
      if s.loaded then s.answer c 0 (c.stage - 1) 0 else s.answer c 8 ((s.reg Reg.TIDE_LOADERR).toNat % 256) 0

/-- JOB_RESUME, restore: R387. The module is unloaded and a restore is requested; the command completes when the job is loaded
again. An action of 3 completes with INVALID. -/
def execJobResumeRestore (src : PcpSrc) (s : State) : Out :=
  s.pcp src 0x0303 fun s c =>
    if c.arg 0 % 4 = 3 then s.answer c (if s.jobHalted then 1 else 4) 0 0
    else if c.arg 0 % 4 ≠ 2 then s
    else if c.stage = 0 then
      if !s.jobHalted then s.answer c 4 0 0
      else
        let s := s.failUnload
        (s.notify 4 s.tideNum).toCmdStage c 1
    else if s.loaded then s.answer c 0 (s.reg Reg.TIDE_FIRST).toNat 0
    else s

/-! ### BATCH_CANCEL (R259, R417) -/

/-- A context list entry: logical Island, sequencer context, restart PC. -/
def State.batchList (s : State) (a n : Nat) : List (Nat × Nat × Nat) :=
  (List.range n).map fun i => let w := s.memNat (a + 8 * i) 8; (bitsOf w 7 0, bitsOf w 8 8, bitsOf w 22 9)

/-- BATCH_CANCEL (R259, R417): the listed contexts stop, SHL_GEN of every Island takes the next generation, then the generation word
and the batch's descriptors do, and with REISSUE the contexts start again. Other modules' SHL_GEN is outside this one (log entry
43). -/
def execBatchCancel (src : PcpSrc) (s : State) : Out :=
  s.pcp src 0x0304 fun s c =>
    let t := c.arg 0 % 16
    let l := s.batchList (c.arg 1) (c.arg 2)
    let at' := l.filterMap fun e => (s.physOf e.1).map fun p => (p, e.2.1, e.2.2)
    if bitsOf (c.arg 0) 5 5 = 1 ∧ !s.isManager then s.answer c 0x0F 0 0
    else if !readable (c.arg 1) (8 * c.arg 2) then s.answer c 0x0E 0 0
    else if at'.length ≠ l.length then s.answer c 1 0 0
    else
      let s := at'.foldl (fun s e => s.stopRun e.1 e.2.1) s
      let p0 := (s.physOf 0).getD 0
      let g := (s.fld (Reg.SHL_GEN p0 t) Fd.SHL_GEN_TAG + 1) % 2 ^ 16
      let s := (List.range 144).foldl (fun s p => s.setFld (Reg.SHL_GEN p t) Fd.SHL_GEN_TAG g) s
      let s := s.writeGen s.fw.image t g
      let s := if bitsOf (c.arg 0) 4 4 = 1 then at'.foldl (fun s e => (s.setPc e.1 e.2.1 e.2.2).runCtx e.1 e.2.1) s else s
      s.answer c 0 g 0

/-! ### Checkpoints -/

/-- CKPT_CFG (R411, R505): the storage link is trained again. -/
def execCkptCfg (src : PcpSrc) (s : State) : Out :=
  s.pcp src 0x0305 fun s c =>
    let s : State := { s with fw := { s.fw with storeEvery := c.arg 0, storeNs := c.arg 1, storeFirst := c.arg 2 } }
    s.trainStorage.answer c 0 0 0

/-- CKPT_NOW (R369, R386, R411): the manager sets CKPT in TIDE_GO.CMD, unless a lock is held; the command completes once LOCK is
set, with the Tide of the lock. -/
def execCkptNow (src : PcpSrc) (s : State) : Out :=
  s.pcp src 0x0306 fun s c =>
    if c.stage = 0 then
      if !s.isManager then s.answer c 0x0F 0 0
      else if !s.loaded || s.anyLocked then s.answer c 4 0 0
      else
        let cmd := s.fld Reg.TIDE_GO Fd.TIDE_GO_CMD
        (s.setFld Reg.TIDE_GO Fd.TIDE_GO_CMD (if cmd / 4 % 2 = 1 then cmd else cmd + 4)).toCmdStage c 1
    else if s.allLocked then s.answer c 0 s.fw.lockTide 0
    else if !s.loaded then s.answer c 4 0 0
    else s

/-! ### Buoys (R155, R159) -/

/-- BUOY_SET (R155, R156): the previous count is the result. -/
def execBuoySet (src : PcpSrc) (s : State) : Out :=
  s.pcp src 0x0401 fun s c =>
    let l := c.arg 0 % 256
    let b := bitsOf (c.arg 0) 21 8
    if s.logicalCount ≤ l ∨ buoyMax < c.arg 1 then s.answer c 1 0 0
    else
      let old := s.buoy (s.home l) b
      (s.buoyHand (.pilot 0) (s.home l) b (c.arg 1)).answer c 0 old 0

/-- Whether a dump runs in a Quarter. -/
def State.dumping (s : State) : Bool := (List.range 4).any fun q => s.bit (Reg.BUOY_DUMP_CTL q) Fd.BUOY_DUMP_CTL_GO

/-- BUOY_DUMP (R159, R411): all four Quarters, each into its 512 KiB of the destination. A dump that stops with ERR completes with
FAULT. -/
def execBuoyDump (src : PcpSrc) (s : State) : Out :=
  s.pcp src 0x0402 fun s c =>
    let a := c.arg 0
    if c.stage = 0 then
      if s.dumping then s.answer c 4 0 0
      else if a % 4096 ≠ 0 then s.answer c 1 0 0
      else if !readable a 0x200000 then s.answer c 0x0E 0 0
      else
        let s := (List.range 4).foldl (fun s q =>
          let b := a + q * 0x80000
          let s := (s.setReg (Reg.BUOY_DUMP_ADDR_LO q) (BitVec.ofNat 32 b)).setReg (Reg.BUOY_DUMP_ADDR_HI q) (BitVec.ofNat 32 (b / 2 ^ 32))
          s.dumpWrite q 7) s
        s.toCmdStage c 1
    else if s.dumping then s
    else if (List.range 4).any fun q => s.bit (Reg.BUOY_DUMP_CTL q) Fd.BUOY_DUMP_CTL_ERR then s.answer c 7 1 0
    else s.answer c 0 0 0

/-! ### Registers (R412) -/

/-- Whether REG_WRITE accepts an address: what R392 allows to Shore writes. -/
def pcpWritable (a : Nat) : Bool :=
  inMbx 0 5 a || a == Reg.PLT_RDB || (expertWin a && !isBuoyVal a && a != Reg.ISL_TEST_CTL)

/-- The bits of a register that REG_READ gives: all, or the read-only fields of a PLT_ or SHR_ register that has any; none for
PROTECT. -/
def pcpReadMask (a : Nat) : Option Word :=
  if pcpWritable a then some 0xFFFFFFFF
  else if modWin ≤ a ∧ a < modWin + 0x20000 then
    match regRow? a with
    | some r => if r.mask .ro = 0 then none else some (r.mask .ro)
    | none => none
  else none

/-- Reads registers in ascending order. -/
def State.pcpReads (s : State) (a : Nat) : Nat → List Nat × State
  | 0 => ([], s)
  | n + 1 =>
    let (w, s) := s.rd a
    let (r, s) := s.pcpReads (a + 4) n
    ((w &&& (pcpReadMask a).getD 0).toNat :: r, s)

/-- REG_READ (R412): up to four words. -/
def execRegRead (src : PcpSrc) (s : State) : Out :=
  s.pcp src 0x0403 fun s c =>
    let a := c.arg 0
    let n := c.arg 1
    if n = 0 ∨ 4 < n ∨ a % 4 ≠ 0 then s.answer c 1 0 0
    else if (List.range n).any fun i => (pcpReadMask (a + 4 * i)).isNone then s.answer c 0x0E 0 0
    else
      let (ws, s) := s.pcpReads a n
      let w (i : Nat) : Nat := ws.getD i 0
      s.answer c 0 (w 0 + w 1 * 2 ^ 32) (w 2 + w 3 * 2 ^ 32)

/-- REG_WRITE (R412): the bits outside the mask keep their values, and a W1C field outside it is written 0. A mailbox is written for
the client that sends the command (R394). -/
def execRegWrite (src : PcpSrc) (s : State) : Out :=
  s.pcp src 0x0404 fun s c =>
    let a := c.arg 0
    if a % 4 ≠ 0 then s.answer c 1 0 0
    else if !pcpWritable a then s.answer c 0x0E 0 0
    else
      let m := BitVec.ofNat 32 (c.arg 2)
      let w1c := match regRow? a with | some r => r.mask .w1c | none => 0
      let v := (BitVec.ofNat 32 (c.arg 1) &&& m) ||| (s.reg a &&& ~~~m &&& ~~~w1c)
      let (w, s) := (s.wrReg (if inMbx 0 5 a then .shore 0 else .pilot 0) a v).rd a
      s.answer c 0 w.toNat 0

/-! ### Ferries -/

/-- FERRY_SUBMIT (R211, R411): a full queue completes with REJECTED, another context's descriptor with CONTEXT. -/
def execFerrySubmit (src : PcpSrc) (s : State) : Out :=
  s.pcp src 0x0405 fun s c =>
    let a := c.arg 0
    let f := c.arg 1
    if 16 ≤ f ∨ a % 64 ≠ 0 then s.answer c 1 0 0
    else if !readable a 64 then s.answer c 0x0E 0 0
    else if bitsOf (s.memNat a 4) 30 27 ≠ c.ctx then s.answer c 3 0 0
    else
      let full := decide (64 ≤ (s.fry f).queue.length)
      let s := (s.setReg (Reg.FRY_SUBMIT_LO (f / 4) (f % 4)) (BitVec.ofNat 32 a)).setReg (Reg.FRY_SUBMIT_HI (f / 4) (f % 4))
        (BitVec.ofNat 32 (a / 2 ^ 32))
      (s.ferrySubmit f).answer c (if full then 8 else 0) 0 0

/-! ### Pins (R419) -/

/-- Whether every byte of a VA range of a context is in the firmware's records. -/
def State.vaKnown (s : State) (ctx va n : Nat) : Bool :=
  (List.range ((n + 2 ^ 21 - 1) / 2 ^ 21)).all fun i =>
    s.fw.allocs.any fun x => x.ctx == ctx && decide (x.va ≤ va + i * 2 ^ 21) && decide (va + i * 2 ^ 21 < x.va + x.bytes)

/-- Whether a VA range holds pages of the slice of a RETIRED Island. -/
def State.vaRetired (s : State) (ctx va n : Nat) : Bool :=
  s.fw.allocs.any fun x => x.ctx == ctx && decide (x.va < va + n) && decide (va < x.va + x.bytes) && match region x.pa with
    | .lag p => s.pstate p == 6
    | _ => false

/-- Pins logical Island `l` to physical Island `p` (R419): STATUS and state. -/
def State.pinIsl (s : State) (l p : Nat) : Nat × State :=
  if 136 ≤ l ∨ 144 ≤ p ∨ quarterOf p ≠ s.home l then (1, s)
  else if s.pstate p = 6 ∨ s.pstate p = 0 ∨ s.pstate p = 3 then (9, s)
  else if s.loaded then
    if s.lmapPhys l = p then (0, s.setFld (Reg.ISL_LMAP l) Fd.ISL_LMAP_PIN 1) else (9, s)
  else if (List.range 136).any fun j => j != l && s.lmapPhys j == p && s.lmapPin j then (9, s)
  else (0, s.lmapWrite l (BitVec.ofNat 32 (p + 2 ^ 9)))

/-- PLACE_PIN (R419). -/
def execPlacePin (src : PcpSrc) (s : State) : Out :=
  s.pcp src 0x0501 fun s c =>
    let a := c.arg 1
    let n := c.arg 2
    match c.arg 0 with
    | 1 => let (st, s) := s.pinIsl a n; s.answer c st 0 0
    | 2 =>
      if n = 0 ∨ a % 2 ^ 21 ≠ 0 ∨ n % 2 ^ 21 ≠ 0 ∨ !s.vaKnown c.ctx a n then s.answer c 1 0 0
      else if s.vaRetired c.ctx a n then s.answer c 9 0 0
      else ({ s with fw := { s.fw with pinVa := s.fw.pinVa ++ [(c.ctx, a, n)] } } : State).answer c 0 0 0
    | 3 =>
      if n = 0 ∨ 32768 < a + n then s.answer c 1 0 0
      else ({ s with fw := { s.fw with pinBot := s.fw.pinBot ++ [(a, n)] } } : State).answer c 0 0 0
    | _ => s.answer c 1 0 0

/-- PLACE_UNPIN (R419): the pin that PLACE_PIN made with the same arguments. Pages that MAP mapped stay pinned. -/
def execPlaceUnpin (src : PcpSrc) (s : State) : Out :=
  s.pcp src 0x0502 fun s c =>
    let a := c.arg 1
    let n := c.arg 2
    match c.arg 0 with
    | 1 =>
      if 136 ≤ a ∨ !s.lmapPin a ∨ s.lmapPhys a ≠ n then s.answer c 1 0 0
      else (s.setFld (Reg.ISL_LMAP a) Fd.ISL_LMAP_PIN 0).answer c 0 0 0
    | 2 =>
      if s.fw.pinVa.contains (c.ctx, a, n) then
        ({ s with fw := { s.fw with pinVa := s.fw.pinVa.erase (c.ctx, a, n) } } : State).answer c 0 0 0
      else if s.fw.allocs.any fun x => x.ctx == c.ctx && x.mapped && decide (x.va < a + n) && decide (a < x.va + x.bytes) then
        s.answer c 9 0 0
      else s.answer c 1 0 0
    | 3 =>
      if s.fw.pinBot.contains (a, n) then
        ({ s with fw := { s.fw with pinBot := s.fw.pinBot.erase (a, n) } } : State).answer c 0 0 0
      else s.answer c 1 0 0
    | _ => s.answer c 1 0 0

/-- PLACE_QUERY (R411): physical index and PIN. -/
def execPlaceQuery (src : PcpSrc) (s : State) : Out :=
  s.pcp src 0x0503 fun s c =>
    let l := c.arg 0
    if 136 ≤ l then s.answer c 1 0 0
    else s.answer c 0 (s.lmapPhys l + (if s.lmapPin l then 2 ^ 8 else 0)) 0

end Sys2Proof.Machine
end

