-- ==== Sys2Proof/Machine/PcpUnit.lean ====
section
/-! DEFINITION. PCP commands on units (R420 to R423), on the log and its trace points (R424, R426), of attestation and firmware
update (R482, R483), and of test packs (R457 to R460, R464). -/

namespace Sys2Proof.Machine

/-! ### Units (R420, R421) -/

/-- Writes the STATE_SKEW record of an intent that assumed STATE `mst` of its unit (R423). -/
def State.skewed (s : State) (c : Cmd) (mst : Nat) : State :=
  let u := c.arg 0
  let (ring, seq) := match c.src with
    | .ring r q => (r.val, q.toNat)
    | .urgent _ => (0x3F, 0)
  (s.logSkew u mst (s.unitState u) (c.arg 1) (s.unitSeqOf u) c.opc ring seq)

/-- Completes with STALE and writes the STATE_SKEW record (R422, R423). -/
def State.stale (s : State) (c : Cmd) (mst : Nat) : State := (s.skewed c mst).answer c 5 0 0

/-- UNIT_QUERY (R420, R421). -/
def execUnitQuery (src : PcpSrc) (s : State) : Out :=
  s.pcp src 0x0601 fun s c =>
    let u := c.arg 0
    if !unitOk u then s.answer c 1 0 0
    else
      let s := s.observe u
      s.answer c 0 (s.unitState u + s.unitSeqOf u * 2 ^ 16) 0

/-- The STATE that a UNIT_SET target assumes of a unit: ACTIVE of an Island; VERIFIED for ADMIT, MAINT for MAINT off, ACTIVE for
the others of a port; UP or MAINT of a memory controller. None for a target that the class has not (R422). -/
def setAssumes (cls target : Nat) : Option Nat :=
  match cls with
  | 1 => if 1 ≤ target ∧ target ≤ 3 then some 1 else none
  | 2 => if target = 1 then some 3 else if 2 ≤ target ∧ target ≤ 5 then some 4 else if target = 6 then some 5 else none
  | 3 => if target = 5 then some 1 else if target = 6 then some 2 else none
  | 4 => if target = 5 then some 1 else if target = 6 then some 2 else none
  | _ => none

/-- The AFTER value of a UNIT_SET target of an Island (R32, R422). -/
def afterOf (target : Nat) : Nat := if target = 3 then 0 else target

/-- UNIT_SET of an Island: a swap onto a free spare, which is complete when it is applied (R422). -/
def State.setIslUnit (s : State) (c : Cmd) (p target : Nat) : State :=
  if c.stage = 1 then
    if s.pstate p = 4 then s
    else if s.pstate p = 1 then s.stale c 1
    else s.answer c 0 (s.unitSeqOf (islUnit p)) 0
  else if !s.loaded then s.answer c 4 0 0
  else if s.pinned p then s.answer c 9 0 0
  else match s.freeSpare p with
    | none => s.answer c 9 0 0
    | some d =>
      if s.bit Reg.ISL_SWAP_CTL Fd.ISL_SWAP_CTL_GO then (s.beginSwap p d (afterOf target)).stale c 1
      else
        let s := s.beginSwap p d (afterOf target)
        if s.pstate p ≠ 4 then s.stale c 1
        else (if target = 2 then s.setRet p else s).toCmdStage c 1

/-- Whether the hardware takes a UNIT_SET of a port, in the state that it has (R306, R313, R317, R319, R322). -/
def State.portTakes (s : State) (k target : Nat) : Bool :=
  let st := s.portSt k
  match target with
  | 1 => st == 3
  | 2 => st != 0 && st != 6
  | 3 => st != 0
  | 4 => decide (2 ≤ st) && decide (st ≤ 4)
  | 5 => st == 4 && !(s.loaded && s.bit (stStat k) Fd.STR_STATUS_SCHED)
  | _ => st == 5

/-- The action of a UNIT_SET on a port. -/
def State.portAct (s : State) (k target : Nat) : State :=
  match target with
  | 1 => s.setPortSt k 4
  | 2 => s.portLeave k
  | 3 => s.portOff k
  | 4 => s.retrainPort k
  | 5 => s.portMaint k true
  | _ => s.portMaint k false

/-- The action of a UNIT_SET on a port or a memory controller, and its new SEQ. -/
def State.setUnit (s : State) (c : Cmd) (u target mst : Nat) : State :=
  let takes := if u / 4096 = 2 then s.portTakes (u % 16) target
    else if target = 5 then s.memState (unitMem u) == 1 && !s.loaded else s.memState (unitMem u) == 2
  if !takes then s.stale c mst
  else
    let s := if u / 4096 = 2 then s.portAct (u % 16) target else s.memMaint (unitMem u) (target == 5)
    let s := s.acted u
    s.answer c 0 (s.unitSeqOf u) 0

/-- UNIT_SET (R422). -/
def execUnitSet (src : PcpSrc) (s : State) : Out :=
  s.pcp src 0x0602 fun s c =>
    let u := c.arg 0
    match if unitOk u then setAssumes (u / 4096) (c.arg 2) else none with
    | none => s.answer c 1 0 0
    | some mst =>
      if c.stage = 1 then s.setIslUnit c (u % 4096) (c.arg 2)
      else
        let s := s.observe u
        if s.unitSeqOf u ≠ c.arg 1 then s.stale c mst
        else if u / 4096 = 1 then s.setIslUnit c (u % 4096) (c.arg 2)
        else s.setUnit c u (c.arg 2) mst

/-- Runs one depth of a port's loopback (R319, R320): GO, the partner's answer at depth 4, and what the loop finds. -/
def State.portDepth (s : State) (k d : Nat) (r : DepthResult) : State :=
  let s := s.lbGo k (BitVec.ofNat 32 (d + 16))
  let s := s.setPort k { (s.port k).dropSub 3 with lbAsk := false }
  if d = 4 ∧ r.refused then s.lbRefused k else s.lbDone k d r.laneErrs r.faults

/-- Runs one depth of a memory controller's loopback (R285). -/
def State.memDepth (s : State) (m : MemUnit) (d : Nat) (r : DepthResult) : State :=
  (s.memLbGo m (BitVec.ofNat 32 (d + 4))).memLbDone m r.laneErrs.sum
    (((List.range r.laneErrs.length).find? fun l => r.laneErrs.getD l 0 != 0).getD 0x3FF)

/-- Runs one depth of a unit's loopback: whether it passes, LB_RESULT, and the state. -/
def State.runDepth (s : State) (u d : Nat) (r : DepthResult) : Bool × Nat × State :=
  if u / 4096 = 2 then
    let k := u % 16
    let s := s.portDepth k d r
    (s.bit (stLb k) Fd.STR_LB_CTL_PASS, (s.reg (Reg.STR_LB_RESULT (portQ k) (portK k))).toNat, s)
  else
    let m := unitMem u
    let s := s.memDepth m d r
    (s.bit (memReg m 0x050) Fd.HBM_LB_CTL_PASS, (s.reg (memReg m 0x054)).toNat, s)

/-- Runs the depths in order, up to the first that fails: that depth and its LB_RESULT, else 0xFF and 0. -/
def State.runDepths (s : State) (u : Nat) : Nat → List DepthResult → Nat × Nat × State
  | _, [] => (0xFF, 0, s)
  | d, r :: rest =>
    let (pass, w, s) := s.runDepth u d r
    if pass then s.runDepths u (d + 1) rest else (d, w, s)

/-- MAINT_RUN (R422): the depths from 0 to A2 with what each finds; depth 3 of a port waits for a free tracker entry (R310). A unit that is not in MAINT disagrees with what the intent
assumes (R423). -/
def execMaintRun (src : PcpSrc) (results : List DepthResult) (s : State) : Out :=
  s.pcp src 0x0603 fun s c =>
    let u := c.arg 0
    let cls := u / 4096
    let deep := if cls = 2 then 4 else 2
    if !unitOk u ∨ cls < 2 ∨ 4 < cls ∨ deep < c.arg 2 then s.answer c 1 0 0
    else
      let s := s.observe u
      let maint := if cls = 2 then 5 else 2
      if s.unitSeqOf u ≠ c.arg 1 then s.stale c maint
      else if s.unitState u ≠ maint then (s.skewed c maint).answer c 4 0 0
      else
        let rs := results.take (c.arg 2 + 1)
        let (d, w, t) := s.runDepths u 0 rs
        if rs.length < c.arg 2 + 1 ∧ d = 0xFF then s
        else if cls = 2 ∧ 3 ≤ c.arg 2 ∧ (s.freeTrk (portQ (u % 16))).isNone then s
        else (t.acted u).answer c 0 d w

/-! ### Log and trace points (R424, R426) -/

/-- LOG_CFG (R424): a new ring, in which WR and LOST go on. -/
def execLogCfg (src : PcpSrc) (s : State) : Out :=
  s.pcp src 0x0701 fun s c =>
    let a := c.arg 0
    let n := c.arg 1
    if a % 4096 ≠ 0 ∨ n < 8 ∨ 20 < n then s.answer c 1 0 0
    else if !readable a (64 + 64 * 2 ^ n) then s.answer c 0x0E 0 0
    else
      let s := (s.writeMem a (leBytes 8 s.fw.logWr ++ s.bytes (s.logBase + 8) 4 ++ List.replicate 52 0) 9 0xFF).2
      ({ s with fw := { s.fw with logBase := a, logLog2 := n } } : State).answer c 0 0 0

/-- TRACE_SET (R426): a range that holds a reserved point completes with INVALID. -/
def execTraceSet (src : PcpSrc) (s : State) : Out :=
  s.pcp src 0x0702 fun s c =>
    let a := c.arg 0
    let n := c.arg 1
    if a = 0 ∨ 0x100 < a + n then s.answer c 1 0 0
    else
      let on := c.arg 2 % 2 == 1
      let l := (List.range 0x100).filter fun i =>
        if a ≤ i ∧ i < a + n then on else s.fw.trace.contains i
      ({ s with fw := { s.fw with trace := l } } : State).answer c 0 0 0

/-! ### Attestation and firmware update (R482, R483) -/

/-- The bytes of a report that the signature covers (R482); the places of the header's fields are the model's (log entry 44). -/
def State.report4 (s : State) (nonce : List Byte) : List Byte :=
  let h := leBytes 4 0x5454415A ++ leBytes 2 1 ++ leBytes 2 (s.selfId 0) ++ leBytes 8 s.boot.fwver
    ++ leBytes 1 (s.bootFld Fd.BOOT_STATUS_MODE) ++ leBytes 3 0 ++ leBytes 4 s.boot.meas.length ++ leBytes 8 0
  h ++ nonce ++ s.boot.measReg ++ s.boot.meas.flatten ++ s.boot.cert

/-- Length of an identity signature (R314, R471). -/
def sigLen : Nat := 9893

/-- ATTEST (R482). -/
def execAttest (src : PcpSrc) (s : State) : Out :=
  s.pcp src 0x0801 fun s c =>
    if !s.boot.idOk then s.answer c 0x0C 0 0
    else if !readable (c.arg 0) 32 || !readable (c.arg 1) (c.arg 2) then s.answer c 0x0E 0 0
    else
      let h := s.report4 (s.bytes (c.arg 0) 32)
      let n := h.length + sigLen
      if c.arg 2 < n then s.answer c 6 n 0
      else match s.takeIndex with
        | (none, s) => s.answer c 0x0C 0 0
        | (some i, s) => ((s.writeMem (c.arg 1) (h ++ Config.xmssSign i h) 9 0xFF).2).answer c 0 n i

/-- The copy that a firmware update writes (R483). -/
def State.fwTarget (s : State) : Nat :=
  let bad (c : Nat) : Bool := !s.blkValid c 0 || s.boot.badImg.contains c
  if bad 0 then 0 else if bad 1 then 1 else if s.blkSeq 1 0 < s.blkSeq 0 0 then 1 else 0

/-- Writes an image and its FWDIR to the target copy (R483). -/
def State.fwInstall (s : State) (a n : Nat) : State :=
  let t := s.fwTarget
  let seq := s.blkNext 0
  let s := s.eraseBlock t 0
  let s := (s.flashErase (imgBase t) 0x4000000).flashProg (imgBase t) (s.bytes a n)
  s.writeBlockAt t 0 seq (leBytes 8 n ++ leBytes 8 (s.imgVer (imgBase t)))

/-- BOOTCFG with FLOOR (R483, R485). -/
def State.setFloor (s : State) (v : Nat) : State :=
  let p := s.blkPayload 2
  let p := if p.isEmpty then leBytes 1 2 else p
  let p := p ++ List.replicate (24 - p.length) 0
  s.writeBlock 2 (p.take 8 ++ leBytes 8 v ++ p.drop 16)

/-- FW_UPDATE (R483). -/
def execFwUpdate (src : PcpSrc) (s : State) : Out :=
  s.pcp src 0x0803 fun s c =>
    let a := c.arg 0
    let n := c.arg 1
    if s.fw.cmds.any fun x => x.opc == 0x0803 && x.src != src && x.stage != 0 then s.answer c 4 0 0
    else if n = 0 ∨ 0x4000000 < n then s.answer c 1 0 0
    else if !readable a n then s.answer c 0x0E 0 0
    else if !s.imgSigned a then s.answer c 0x0C 0 0
    else if !s.imgServes a then s.answer c 8 0 0
    else
      let v := s.imgVer a
      let s := s.fwInstall a n
      ((if c.arg 2 % 2 = 1 then s.setFloor v else s).toCmdStage c 1).answer c 0 0 0

/-! ### Test packs (R457 to R460, R464) -/

/-- A TESTPACK operation: only INSTALL has a SCOPE bit; a reserved bit completes with INVALID, and so does an operation above 4. -/
def State.testpack (s : State) (src : PcpSrc) (op : Nat) (act : State → Cmd → State) : Out :=
  s.pcp src 0x0802 fun s c =>
    if c.arg 0 % 16 ≠ op then s
    else if op ≠ 0 ∧ 16 ≤ c.arg 0 then s.answer c 1 0 0
    else act s c

/-- Length of a firmware and of a pack signature (R471, R473). -/
def packSigLen : Nat := 2820

/-- TESTPACK INSTALL (R457, R458). With SCOPE 1 the manager counts the modules whose answers have no code. -/
def execTestpackInstall (src : PcpSrc) (answers : List ModuleAnswer) (s : State) : Out :=
  s.testpack src 0 fun s c =>
    let a := c.arg 1
    let n := s.memNat (a + 28) 4
    let seq := s.memNat (a + 8) 8
    let others := if 16 ≤ c.arg 0 then (List.range 1024).filter fun i => s.bit (Reg.STR_ROUTE 0 i) Fd.STR_ROUTE_VALID else []
    let count := 1 + (if 16 ≤ c.arg 0 then answers.countP (·.code == 0) else 0)
    if 16 ≤ c.arg 0 ∧ !s.isManager then s.answer c 0x0F 0 0
    else if !readable a (c.arg 2) then s.answer c 0x0E 0 0
    else if c.arg 2 < 64 ∨ s.memNat a 4 ≠ 0x4B50545A ∨ s.memNat (a + 4) 2 ≠ 1 ∨ 0x400000 < n ∨ c.arg 2 < n + packSigLen
        ∨ s.memNat (a + 24) 4 = 0 ∨ 4096 < s.memNat (a + 24) 4 then s.answer c 1 0 0
    else if !Config.xmssVerify s.boot.packKey (s.bytes a n) (s.bytes (a + n) packSigLen) then s.answer c 0x0C 0 0
    else if s.memNat (a + 6) 2 / 16 % 2 = 0 ∨ s.boot.fwver < s.memNat (a + 16) 8 ∨ seq < s.fw.hist.packSeq then s.answer c 8 0 0
    else if !answered (s.selfId 0) others answers then s
    else if seq = s.fw.hist.packSeq then s.answer c 0 seq count
    else
      let s := s.writeBlock 7 (s.bytes a (n + packSigLen))
      (s.setHist { s.fw.hist with packSeq := seq, dirty := true }).answer c 0 seq count

/-- TESTPACK RUN (R437, R440, R460): the SPARE Island runs the suite of a level in TESTING, and goes back to SPARE unless a failure is
confirmed. -/
def execTestpackRun (src : PcpSrc) (runs : List CaseRun) (s : State) : Out :=
  s.testpack src 1 fun s c =>
    let p := c.arg 1
    let level := c.arg 2
    if 144 ≤ p ∨ (level ≠ 1 ∧ level ≠ 2) then s.answer c 1 0 0
    else if s.pstate p ≠ 2 then s.answer c 4 0 0
    else
      let s := (s.testCtlWrite (testWord p 1)).joinSession
      let (r, case) := suiteResult ((s.casesAt level 0).map (·.1)) (runsOn p runs) (islUnit p)
      let s := s.runSuite level [p] (runsOn p runs)
      let s := if s.pstate p = 3 then s.testCtlWrite (testWord p 2) else s
      let s := if r = 0 then (if level = 2 then s.setLastPass p else s).testPassed p level else s
      s.answer c 0 r case

/-- TESTPACK QUERY (R460). -/
def execTestpackQuery (src : PcpSrc) (s : State) : Out :=
  s.testpack src 2 fun s c =>
    let p := c.arg 1
    if 144 ≤ p then s.answer c 1 0 0
    else
      let b (x : Bool) (i : Nat) : Nat := if x then 2 ^ i else 0
      s.answer c 0 (s.lastPass p % 2 ^ 32 + min 0xFF (s.countedIn (islUnit p)) * 2 ^ 32 + b (s.due p) 40
        + b (s.deferredAt p).isSome 41 + b (s.retBit p && s.pstate p != 6) 42) s.ontime

/-- Whether a policy block keeps the ranges of R459. -/
def policyOk (v : Nat) : Bool :=
  let f (off n : Nat) : Nat := v / 256 ^ off % 256 ^ n
  let rng (off n lo hi : Nat) : Bool := decide (lo ≤ f off n) && decide (f off n ≤ hi)
  rng 0 2 0 8760 && rng 2 2 1 8760 && rng 4 1 1 255 && rng 5 1 1 255 && rng 6 1 1 255 && rng 7 1 1 255 && rng 8 1 1 255
    && rng 9 1 0 1 && rng 10 1 4 10 && rng 11 1 10 24 && rng 12 1 1 64

/-- TESTPACK POLICY (R459). -/
def execTestpackPolicy (src : PcpSrc) (s : State) : Out :=
  s.testpack src 3 fun s c =>
    if !readable (c.arg 1) 64 then s.answer c 0x0E 0 0
    else
      let v := s.memNat (c.arg 1) 64
      if !policyOk v then s.answer c 1 0 0
      else (s.setHist { s.fw.hist with policy := v, dirty := true }).answer c 0 0 0

/-- TESTPACK EXPORT (R460, R464): a new export ring in the Shore OS region. Every operation above 4 completes with INVALID. -/
def execTestpackExport (src : PcpSrc) (s : State) : Out :=
  match s.pcpCmd src 0x0802 with
  | none => .next s
  | some c =>
    if 4 < c.arg 0 % 16 then settled (s.answer c 1 0 0)
    else s.testpack src 4 fun s c =>
      let a := c.arg 1
      let n := c.arg 2
      if a % 4096 ≠ 0 ∨ n < 4 ∨ 12 < n then s.answer c 1 0 0
      else if a < 0x20000000000 ∨ 0x20C00000000 < a + 64 + 1024 * 2 ^ n then s.answer c 0x0E 0 0
      else
        let s := (s.writeMem a (List.replicate 64 0) 9 0xFF).2
        ({ s with fw := { s.fw with expBase := a, expLog2 := n, expWr := 0 } } : State).answer c 0 0 0

end Sys2Proof.Machine
end

