-- ==== Sys2Proof/Machine/Dispatch.lean ====
section
/-! DEFINITION. The dispatch of a command to its meaning: one arm for each row of spec/opcode_table.json. -/

namespace Sys2Proof.Machine

/-- The effect of one command on the state. -/
def exec (i : Instr) (s : State) : Host.Outcome State Fault Refusal :=
  match i with
  | .nop p c => Sys2Proof.Machine.execNop p c s
  | .halt p c => Sys2Proof.Machine.execHalt p c s
  | .br p c => Sys2Proof.Machine.execBr p c s
  | .loop p c => Sys2Proof.Machine.execLoop p c s
  | .fence p c => Sys2Proof.Machine.execFence p c s
  | .tmark p c => Sys2Proof.Machine.execTmark p c s
  | .brk p c => Sys2Proof.Machine.execBrk p c s
  | .cmp p c => Sys2Proof.Machine.execCmp p c s
  | .pset p c => Sys2Proof.Machine.execPset p c s
  | .add p c => Sys2Proof.Machine.execAdd p c s
  | .sub p c => Sys2Proof.Machine.execSub p c s
  | .mul p c => Sys2Proof.Machine.execMul p c s
  | .and p c => Sys2Proof.Machine.execAnd p c s
  | .or p c => Sys2Proof.Machine.execOr p c s
  | .xor p c => Sys2Proof.Machine.execXor p c s
  | .shl p c => Sys2Proof.Machine.execShl p c s
  | .shr p c => Sys2Proof.Machine.execShr p c s
  | .sra p c => Sys2Proof.Machine.execSra p c s
  | .min p c => Sys2Proof.Machine.execMin p c s
  | .max p c => Sys2Proof.Machine.execMax p c s
  | .minu p c => Sys2Proof.Machine.execMinu p c s
  | .rdsys p c => Sys2Proof.Machine.execRdsys p c s
  | .li p c => Sys2Proof.Machine.execLi p c s
  | .lds p c => Sys2Proof.Machine.execLds p c s
  | .sts p c => Sys2Proof.Machine.execSts p c s
  | .ldshape p c => Sys2Proof.Machine.execLdshape p c s
  | .scalarLoadReturn p c => Sys2Proof.Machine.execScalarLoadReturn p c s
  | .mm p c => Sys2Proof.Machine.execMm p c s
  | .matrixAccept p => Sys2Proof.Machine.execMatrixAccept p s
  | .weightLoad p => Sys2Proof.Machine.execWeightLoad p s
  | .passIssue p => Sys2Proof.Machine.execPassIssue p s
  | .passApply p => Sys2Proof.Machine.execPassApply p s
  | .accumulatorClear p => Sys2Proof.Machine.execAccumulatorClear p s
  | .drain p c => Sys2Proof.Machine.execDrain p c s
  | .ebbDrainBegin p => Sys2Proof.Machine.execEbbDrainBegin p s
  | .ebbReadCycle p => Sys2Proof.Machine.execEbbReadCycle p s
  | .ebbElementWrite p => Sys2Proof.Machine.execEbbElementWrite p s
  | .ferry p c => Sys2Proof.Machine.execFerry p c s
  | .frySubmit r f v => Sys2Proof.Machine.execFrySubmit r f v s
  | .move f => Sys2Proof.Machine.execMove f s
  | .compress f => Sys2Proof.Machine.execCompress f s
  | .expand f => Sys2Proof.Machine.execExpand f s
  | .bytes f => Sys2Proof.Machine.execBytes f s
  | .gather p ph => Sys2Proof.Machine.execGather p ph s
  | .scatter p ph => Sys2Proof.Machine.execScatter p ph s
  | .shoalMerge p ph => Sys2Proof.Machine.execShoalMerge p ph s
  | .segred p ph => Sys2Proof.Machine.execSegred p ph s
  | .topk p ph => Sys2Proof.Machine.execTopk p ph s
  | .pack p ph => Sys2Proof.Machine.execPack p ph s
  | .unpack p ph => Sys2Proof.Machine.execUnpack p ph s
  | .spmm p ph => Sys2Proof.Machine.execSpmm p ph s
  | .mergeUnitOperation p u => Sys2Proof.Machine.execMergeUnitOperation p u s
  | .bsig p c => Sys2Proof.Machine.execBsig p c s
  | .brst p c => Sys2Proof.Machine.execBrst p c s
  | .signalQueueSend p x => Sys2Proof.Machine.execSignalQueueSend p x s
  | .bwait p c => Sys2Proof.Machine.execBwait p c s
  | .buoyApply q => Sys2Proof.Machine.execBuoyApply q s
  | .buoyRelease p c => Sys2Proof.Machine.execBuoyRelease p c s
  | .waitReport p c => Sys2Proof.Machine.execWaitReport p c s
  | .islSeqRun r p c => Sys2Proof.Machine.execIslSeqRun r p c s
  | .islSeqStop r p c => Sys2Proof.Machine.execIslSeqStop r p c s
  | .buoyValWrite r q b v => Sys2Proof.Machine.execBuoyValWrite r q b v s
  | .buoyDumpGo r q => Sys2Proof.Machine.execBuoyDumpGo r q s
  | .buoyDumpRecord q => Sys2Proof.Machine.execBuoyDumpRecord q s
  | .islLmapWrite r l v => Sys2Proof.Machine.execIslLmapWrite r l v s
  | .islPolicyWrite r v => Sys2Proof.Machine.execIslPolicyWrite r v s
  | .placerBind atLoad policy => Sys2Proof.Machine.execPlacerBind atLoad policy s
  | .swapGo r v => Sys2Proof.Machine.execSwapGo r v s
  | .swapAbort r v => Sys2Proof.Machine.execSwapAbort r v s
  | .swapCopyLine => Sys2Proof.Machine.execSwapCopyLine s
  | .swapRelease r => Sys2Proof.Machine.execSwapRelease r s
  | .test r p => Sys2Proof.Machine.execTest r p s
  | .release r p => Sys2Proof.Machine.execRelease r p s
  | .retire r p => Sys2Proof.Machine.execRetire r p s
  | .chtInv r q v => Sys2Proof.Machine.execChtInv r q v s
  | .chtInvDone q => Sys2Proof.Machine.execChtInvDone q s
  | .t1Validation r q v => Sys2Proof.Machine.execT1Validation r q v s
  | .flitTransmit k => Sys2Proof.Machine.execFlitTransmit k s
  | .dataFlit k flit fec => Sys2Proof.Machine.execDataFlit k flit fec s
  | .ctrlFlit k flit fec => Sys2Proof.Machine.execCtrlFlit k flit fec s
  | .idleFlit k flit fec => Sys2Proof.Machine.execIdleFlit k flit fec s
  | .nak k ack => Sys2Proof.Machine.execNak k ack s
  | .retryTimeout k => Sys2Proof.Machine.execRetryTimeout k s
  | .laneLockLoss k lanes => Sys2Proof.Machine.execLaneLockLoss k lanes s
  | .laneCeWindow k syms codewords => Sys2Proof.Machine.execLaneCeWindow k syms codewords s
  | .spareReq k codeword => Sys2Proof.Machine.execSpareReq k codeword s
  | .spareAck k => Sys2Proof.Machine.execSpareAck k s
  | .laneSwitch k dir codeword => Sys2Proof.Machine.execLaneSwitch k dir codeword s
  | .trainingComplete k rxFailed txFailed => Sys2Proof.Machine.execTrainingComplete k rxFailed txFailed s
  | .trainingTimeout k => Sys2Proof.Machine.execTrainingTimeout k s
  | .retrainComplete k => Sys2Proof.Machine.execRetrainComplete k s
  | .retrainTimeout k => Sys2Proof.Machine.execRetrainTimeout k s
  | .helloTimeout k => Sys2Proof.Machine.execHelloTimeout k s
  | .downTimer k => Sys2Proof.Machine.execDownTimer k s
  | .holdClear r k secondPassed => Sys2Proof.Machine.execHoldClear r k secondPassed s
  | .en r k on => Sys2Proof.Machine.execEn r k on s
  | .maint r k on => Sys2Proof.Machine.execMaint r k on s
  | .retrain r k => Sys2Proof.Machine.execRetrain r k s
  | .admitPort r k => Sys2Proof.Machine.execAdmitPort r k s
  | .leave r k => Sys2Proof.Machine.execLeave r k s
  | .mgmt k => Sys2Proof.Machine.execMgmt k s
  | .rd k vc => Sys2Proof.Machine.execRd k vc s
  | .rdRsp k vc => Sys2Proof.Machine.execRdRsp k vc s
  | .wr k vc => Sys2Proof.Machine.execWr k vc s
  | .merge k vc => Sys2Proof.Machine.execMerge k vc s
  | .buoy k vc => Sys2Proof.Machine.execBuoy k vc s
  | .cpl k vc => Sys2Proof.Machine.execCpl k vc s
  | .trackerTimeout q n => Sys2Proof.Machine.execTrackerTimeout q n s
  | .trackerQuarantineEnd q n => Sys2Proof.Machine.execTrackerQuarantineEnd q n s
  | .lbReq k => Sys2Proof.Machine.execLbReq k s
  | .lbAck k => Sys2Proof.Machine.execLbAck k s
  | .lbRefuse k => Sys2Proof.Machine.execLbRefuse k s
  | .straitLoopbackGo r k v => Sys2Proof.Machine.execStraitLoopbackGo r k v s
  | .straitLoopbackDone k laneErrs faults badReads => Sys2Proof.Machine.execStraitLoopbackDone k laneErrs faults badReads s
  | .load r => Sys2Proof.Machine.execLoad r s
  | .unload r => Sys2Proof.Machine.execUnload r s
  | .failnow r => Sys2Proof.Machine.execFailnow r s
  | .tideGoWrite r v => Sys2Proof.Machine.execTideGoWrite r v s
  | .mark k => Sys2Proof.Machine.execMark k s
  | .go k => Sys2Proof.Machine.execGo k s
  | .tideDeadline elapsedUs => Sys2Proof.Machine.execTideDeadline elapsedUs s
  | .stretch k => Sys2Proof.Machine.execStretch k s
  | .stretchGo k => Sys2Proof.Machine.execStretchGo k s
  | .fail k => Sys2Proof.Machine.execFail k s
  | .bucketTrigger ch => Sys2Proof.Machine.execBucketTrigger ch s
  | .reduceChunk x => Sys2Proof.Machine.execReduceChunk x s
  | .reduce k => Sys2Proof.Machine.execReduce k s
  | .heartbeat => Sys2Proof.Machine.execHeartbeat s
  | .heartbeatMiss => Sys2Proof.Machine.execHeartbeatMiss s
  | .election cands => Sys2Proof.Machine.execElection cands s
  | .adam u retries => Sys2Proof.Machine.execAdam u retries s
  | .momentum u retries => Sys2Proof.Machine.execMomentum u retries s
  | .sgd u retries => Sys2Proof.Machine.execSgd u retries s
  | .ucode u retries => Sys2Proof.Machine.execUcode u retries s
  | .reload u retries => Sys2Proof.Machine.execReload u retries s
  | .keep u retries => Sys2Proof.Machine.execKeep u retries s
  | .compare u retries => Sys2Proof.Machine.execCompare u retries s
  | .fuuSetGo r u v => Sys2Proof.Machine.execFuuSetGo r u v s
  | .lockRelease r u => Sys2Proof.Machine.execLockRelease r u s
  | .checkpointDrain ph => Sys2Proof.Machine.execCheckpointDrain ph s
  | .drainAbandon why => Sys2Proof.Machine.execDrainAbandon why s
  | .replay ph => Sys2Proof.Machine.execReplay ph s
  | .restore ph => Sys2Proof.Machine.execRestore ph s
  | .scrubInterval m => Sys2Proof.Machine.execScrubInterval m s
  | .scrubWriteBack m => Sys2Proof.Machine.execScrubWriteBack m s
  | .controllerTrainingLost m regained => Sys2Proof.Machine.execControllerTrainingLost m regained s
  | .memoryMaint r m on => Sys2Proof.Machine.execMemoryMaint r m on s
  | .memoryLoopbackGo r m v => Sys2Proof.Machine.execMemoryLoopbackGo r m v s
  | .memoryLoopbackDone m mismatch lane => Sys2Proof.Machine.execMemoryLoopbackDone m mismatch lane s
  | .odeccRead stack n => Sys2Proof.Machine.execOdeccRead stack n s
  | .inRing r m => Sys2Proof.Machine.execInRing r m s
  | .outRing c m => Sys2Proof.Machine.execOutRing c m s
  | .hello m => Sys2Proof.Machine.execHello m s
  | .pltRdb r ring => Sys2Proof.Machine.execPltRdb r ring s
  | .commandAccept c ring => Sys2Proof.Machine.execCommandAccept c ring s
  | .commandComplete src => Sys2Proof.Machine.execCommandComplete src s
  | .pcpNop src => Sys2Proof.Machine.execPcpNop src s
  | .ringClose src => Sys2Proof.Machine.execRingClose src s
  | .pilotStatus src => Sys2Proof.Machine.execPilotStatus src s
  | .memAlloc src => Sys2Proof.Machine.execMemAlloc src s
  | .memFree src => Sys2Proof.Machine.execMemFree src s
  | .map src => Sys2Proof.Machine.execMap src s
  | .unmap src => Sys2Proof.Machine.execUnmap src s
  | .ctxRecover src => Sys2Proof.Machine.execCtxRecover src s
  | .chartWrite src => Sys2Proof.Machine.execChartWrite src s
  | .t1Validate src => Sys2Proof.Machine.execT1Validate src s
  | .tensorPlace src => Sys2Proof.Machine.execTensorPlace src s
  | .progLoad src answers => Sys2Proof.Machine.execProgLoad src answers s
  | .progUnload src answers => Sys2Proof.Machine.execProgUnload src answers s
  | .jobResumeContinue src => Sys2Proof.Machine.execJobResumeContinue src s
  | .jobResumeRewind src => Sys2Proof.Machine.execJobResumeRewind src s
  | .jobResumeRestore src => Sys2Proof.Machine.execJobResumeRestore src s
  | .batchCancel src => Sys2Proof.Machine.execBatchCancel src s
  | .ckptCfg src => Sys2Proof.Machine.execCkptCfg src s
  | .ckptNow src => Sys2Proof.Machine.execCkptNow src s
  | .buoySet src => Sys2Proof.Machine.execBuoySet src s
  | .buoyDump src => Sys2Proof.Machine.execBuoyDump src s
  | .regRead src => Sys2Proof.Machine.execRegRead src s
  | .regWrite src => Sys2Proof.Machine.execRegWrite src s
  | .ferrySubmit src => Sys2Proof.Machine.execFerrySubmit src s
  | .placePin src => Sys2Proof.Machine.execPlacePin src s
  | .placeUnpin src => Sys2Proof.Machine.execPlaceUnpin src s
  | .placeQuery src => Sys2Proof.Machine.execPlaceQuery src s
  | .unitQuery src => Sys2Proof.Machine.execUnitQuery src s
  | .unitSet src => Sys2Proof.Machine.execUnitSet src s
  | .maintRun src results => Sys2Proof.Machine.execMaintRun src results s
  | .logCfg src => Sys2Proof.Machine.execLogCfg src s
  | .traceSet src => Sys2Proof.Machine.execTraceSet src s
  | .attest src => Sys2Proof.Machine.execAttest src s
  | .fwUpdate src => Sys2Proof.Machine.execFwUpdate src s
  | .testpackInstall src answers => Sys2Proof.Machine.execTestpackInstall src answers s
  | .testpackRun src runs => Sys2Proof.Machine.execTestpackRun src runs s
  | .testpackQuery src => Sys2Proof.Machine.execTestpackQuery src s
  | .testpackPolicy src => Sys2Proof.Machine.execTestpackPolicy src s
  | .testpackExport src => Sys2Proof.Machine.execTestpackExport src s
  | .watchdogExpiry c => Sys2Proof.Machine.execWatchdogExpiry c s
  | .kick c => Sys2Proof.Machine.execKick c s
  | .ready c => Sys2Proof.Machine.execReady c s
  | .ringAdoption c => Sys2Proof.Machine.execRingAdoption c s
  | .fenceTimerExpiry ring => Sys2Proof.Machine.execFenceTimerExpiry ring s
  | .noReadyPilot => Sys2Proof.Machine.execNoReadyPilot s
  | .pltRownWrite c ring owner => Sys2Proof.Machine.execPltRownWrite c ring owner s
  | .shrRst r cores => Sys2Proof.Machine.execShrRst r cores s
  | .historyEvent ev => Sys2Proof.Machine.execHistoryEvent ev s
  | .historyWrite => Sys2Proof.Machine.execHistoryWrite s
  | .dueTest p => Sys2Proof.Machine.execDueTest p s
  | .testForced p runs => Sys2Proof.Machine.execTestForced p runs s
  | .testCase p run peers => Sys2Proof.Machine.execTestCase p run peers s
  | .rom => Sys2Proof.Machine.execRom s
  | .identity puf => Sys2Proof.Machine.execIdentity puf s
  | .isthmus failedPairs => Sys2Proof.Machine.execIsthmus failedPairs s
  | .memory failed => Sys2Proof.Machine.execMemory failed s
  | .islands marchFailed runs fuuRuns => Sys2Proof.Machine.execIslands marchFailed runs fuuRuns s
  | .shore => Sys2Proof.Machine.execShore s
  | .straits => Sys2Proof.Machine.execStraits s
  | .bootReady => Sys2Proof.Machine.execBootReady s
  | .bootStageTimeout => Sys2Proof.Machine.execBootStageTimeout s
  | .bootRcvGo r v => Sys2Proof.Machine.execBootRcvGo r v s
  | .indexReservation readsBack => Sys2Proof.Machine.execIndexReservation readsBack s
  | .flashProgram r v => Sys2Proof.Machine.execFlashProgram r v s
  | .flashErase r v => Sys2Proof.Machine.execFlashErase r v s
  | .flashOperationDone failed => Sys2Proof.Machine.execFlashOperationDone failed s
  | .pwrEnHigh inputOk => Sys2Proof.Machine.execPwrEnHigh inputOk s
  | .pwrGood => Sys2Proof.Machine.execPwrGood s
  | .railTimeout => Sys2Proof.Machine.execRailTimeout s
  | .resetRelease => Sys2Proof.Machine.execResetRelease s
  | .pwrEnLow => Sys2Proof.Machine.execPwrEnLow s
  | .protectionEvent cause => Sys2Proof.Machine.execProtectionEvent cause s
  | .rstNLow => Sys2Proof.Machine.execRstNLow s
  | .rstNHigh => Sys2Proof.Machine.execRstNHigh s
  | .clockLoss k => Sys2Proof.Machine.execClockLoss k s
  | .clockRestored k => Sys2Proof.Machine.execClockRestored k s
  | .sensorRead t => Sys2Proof.Machine.execSensorRead t s
  | .thermalTripLatch => Sys2Proof.Machine.execThermalTripLatch s
  | .pcapNChange low => Sys2Proof.Machine.execPcapNChange low s
  | .powerControlUpdate pin vin satFor1ms => Sys2Proof.Machine.execPowerControlUpdate pin vin satFor1ms s
  | .gateWindow p => Sys2Proof.Machine.execGateWindow p s
  | .read f => Sys2Proof.Machine.execRead f s
  | .write f => Sys2Proof.Machine.execWrite f s
  | .pcieInboundRequest q => Sys2Proof.Machine.execPcieInboundRequest q s
  | .pePerstRelease => Sys2Proof.Machine.execPePerstRelease s
  | .mgtLbGo r v => Sys2Proof.Machine.execMgtLbGo r v s
  | .mgtLoopbackDone errs => Sys2Proof.Machine.execMgtLoopbackDone errs s
  | .rcCounterRead r a => Sys2Proof.Machine.execRcCounterRead r a s
  | .registerWrite r a v => Sys2Proof.Machine.execRegisterWrite r a v s
  | .coreMemoryAccess r acc => Sys2Proof.Machine.execCoreMemoryAccess r acc s
  | .inputInRange => Sys2Proof.Machine.execInputInRange s
  | .managementLinkUp fec => Sys2Proof.Machine.execManagementLinkUp fec s
  | .managementLinkDown => Sys2Proof.Machine.execManagementLinkDown s
  | .storageLinkDown => Sys2Proof.Machine.execStorageLinkDown s
  | .shoreRestartDone core => Sys2Proof.Machine.execShoreRestartDone core s
  | .droppedFrame => Sys2Proof.Machine.execDroppedFrame s

end Sys2Proof.Machine
end

