-- ==== Sys2Proof/Machine/Tick.lean ====
section
/-! DEFINITION. What a step does on an empty queue: one cycle of the ARR clock passes in which no listed step falls. The
hardware's cycle counters count, and the firmware does the work that no command of the table names (log entry 20). -/

namespace Sys2Proof.Machine

/-- One context's counts in a cycle: a context in STALL or WAIT counts it (R146), and one in WAIT waits one cycle longer
(R138). -/
def State.tickCtx (s : State) (p c : Nat) : State :=
  let s := s.syncCtx p c
  let st := s.ctxSt p c
  if st = 2 ∨ st = 3 then
    let s := s.count (Reg.ISL_SEQ_CNT_STALL p c) 1
    if st = 3 then s.setCtx p c { s.ctx p c with waitCycles := (s.ctx p c).waitCycles + 1 } else s
  else s

/-- One Island's array counts in a cycle: the first issue held by the alignment rule (R91), by the drain interlock (R115) or by
both, or a pass that waits for its weight set (R105). A hold begins once the instruction before has issued all its passes (DESIGN
CHOICE, log entry 115). -/
def State.tickArr (s : State) (p : Nat) : State :=
  let x := s.isl p
  match x.issuer with
  | none => s
  | some r =>
    let s := if x.alignHeld r then s.count (Reg.ACC_CNT_HOLD p) 1 else s
    let s := if x.drainHeld r then s.count (Reg.ISL_SEQ_CNT_DRHOLD p) 1 else s
    if x.alignHeld r || x.drainHeld r then s
    else if r.stop.isNone && !r.sets.any (·.idx == r.curSet) then s.count (Reg.ACC_CNT_WAIT p) 1
    else s

/-- Whole milliseconds that are left of a core's 50 ms count (R427, R434), 940,000 cycles to the millisecond. -/
def State.wdogLeft (s : State) (c : Nat) : Nat := (47000000 - (s.cycle - tget (fun _ => 0) s.fw.kicks c)) / 940000

/-- Shows the count in PLT_WDOG while the core serves. -/
def State.tickWdog (s : State) (c : Nat) : State :=
  if s.coreReady c then s.setFld (Reg.PLT_WDOG c) Fd.PLT_WDOG_LEFT (s.wdogLeft c) else s

/-- What the firmware does without a command, while the core that holds the module's duties serves (R391, R428): it writes the records
of memory events (R286), observes the units (R421), starts retirement swaps (R450), requests a checkpoint when one is due (R386), and
exports the summary records each hour of powered-on time (R464). -/
def State.tickFw (s : State) : State :=
  if !s.coreReady s.fw.duty then s
  else
    let s := (fwUnits.foldl State.observe s.logEvents).serveRetire.ckptRequest
    if s.cycle % 940000000 = 0 ∧ s.ontime % 3600 = 0 then s.exportSummaries else s

/-- One ARR cycle (log entry 20). While the module is off nothing happens. -/
def tick (s : State) : State :=
  if !s.up then s
  else
    let s : State := { s with cycle := s.cycle + 1 }
    let s := (List.range 144).foldl (fun s p => ((s.tickCtx p 0).tickCtx p 1).tickArr p) s
    tideCheck ((List.range 4).foldl State.tickWdog s).tickFw

end Sys2Proof.Machine
end

