-- ==== Sys2Proof/Safety.lean ====
section
/-! DEFINITION. The terms the statements are made in: what counts as a canonical state, what a command leaves alone, how a
command ends, and when a sequencer instruction may issue. -/

namespace Sys2Proof.Machine

/-- The memory and the register file are in their canonical form, so that equal contents are equal data. -/
def State.Canonical (s : State) : Prop := Memory.wf s.mem ∧ twf regReset s.regs = true

/-! ### What a command leaves alone -/

/-- The parts of State. The queue is no part: no command changes it. -/
inductive Part where
  | regs | mem | cw | freeCtr | cycle | bus | accessErrs | events | nextWork | work | remLines | isls | qtrs | ports | frys
  | chans | fuus | tide | scrubs | fw | boot | power | mgmtOut | pcieOut
deriving DecidableEq, Repr

/-- A part holds in `t` what it held in `s`. -/
def Part.same (s t : State) : Part → Prop
  | .regs => t.regs = s.regs
  | .mem => t.mem = s.mem
  | .cw => t.cw = s.cw
  | .freeCtr => t.freeCtr = s.freeCtr
  | .cycle => t.cycle = s.cycle
  | .bus => t.bus = s.bus
  | .accessErrs => t.accessErrs = s.accessErrs
  | .events => t.events = s.events
  | .nextWork => t.nextWork = s.nextWork
  | .work => t.work = s.work
  | .remLines => t.remLines = s.remLines
  | .isls => t.isls = s.isls
  | .qtrs => t.qtrs = s.qtrs
  | .ports => t.ports = s.ports
  | .frys => t.frys = s.frys
  | .chans => t.chans = s.chans
  | .fuus => t.fuus = s.fuus
  | .tide => t.tide = s.tide
  | .scrubs => t.scrubs = s.scrubs
  | .fw => t.fw = s.fw
  | .boot => t.boot = s.boot
  | .power => t.power = s.power
  | .mgmtOut => t.mgmtOut = s.mgmtOut
  | .pcieOut => t.pcieOut = s.pcieOut

/-- The queue and every part but those listed are as they were. -/
def KeepsBut (ps : List Part) (s t : State) : Prop := t.pending = s.pending ∧ ∀ p, p ∉ ps → p.same s t

/-- Every register but those at the listed addresses reads as it did. -/
def RegsBut (as : List Nat) (s t : State) : Prop := ∀ a, a ∉ as → t.reg a = s.reg a

/-- Every byte of memory but the `n` bytes from `a` upward reads as it did. -/
def BytesBut (a n : Nat) (s t : State) : Prop := ∀ b, ¬(a ≤ b ∧ b < a + n) → t.byte b = s.byte b

/-! ### How a command ends -/

/-- The command answers a next state, and it is as `Q` says. -/
def Gives (i : Instr) (s : State) (Q : State → Prop) : Prop := ∃ t, exec i s = .next t ∧ Q t

/-- The command answers a next state: the state that `Q` describes, after the Tide has gone on if that completed its work
(`tideCheck`, which does nothing unless a Tide runs). -/
def Settles (i : Instr) (s : State) (Q : State → Prop) : Prop := ∃ t, exec i s = .next (tideCheck t) ∧ Q t

/-- A waiting command whose time has not come: nothing happens. -/
def Waits (i : Instr) (s : State) : Prop := exec i s = .next s

/-! ### Issue of a sequencer instruction -/

/-- Context (p, c) is the one that may issue: it runs, the other context is not ready or not favoured, and the word at its PC reads
clean (R107, R111). -/
abbrev Picked (s : State) (p c : Nat) : Prop :=
  s.runs p c = true ∧ (s.ready p (1 - c) = false ∨ s.fld (Reg.ISL_SEQ_STATUS p) Fd.ISL_SEQ_STATUS_FAV ≠ 1 - c)
    ∧ s.cwAt (progBase p + 16 * s.pc p c) = .ok

/-- Context (p, c) may issue the instruction at its PC, of opcode `o` with source registers `srcs`: the predicate holds, and no load to
a source but s0 is on its way (R108, R111, R113, R117). -/
abbrev Ready (s : State) (p c o : Nat) (srcs : List Nat) : Prop :=
  Picked s p c ∧ opc (s.iword p c) = o
    ∧ s.pred p c (ifld (s.iword p c) 10 8) ≠ (ifld (s.iword p c) 11 11 == 1)
    ∧ ∀ l ∈ (s.ctx p c).loads, l.rd = 0 ∨ l.rd ∉ srcs

/-- The state in which an instruction of context (p, c) has its effect: the context is in RUN (R111). -/
def State.running (s : State) (p c : Nat) : State := s.setSt p c 1

/-- The outcome of an instruction whose effect is `a`: the issue is counted, END processing is done, and the PC moves on
(R111, R124, R125), as `conclude` says. -/
def issues (s : State) (p c : Nat) (a : Act) : Out := .next (tideCheck ((s.running p c).conclude p c (s.pc p c) a))

/-! ### Chart entries -/

/-- Reading a Chart entry for physical Island `p` records nothing: the Island holds a copy, or the codewords of the entry are clean
(R183, R271). -/
def State.ChartClean (s : State) (p ctx slot : Nat) : Prop :=
  (∃ k ∈ (s.isl p).charts, k.ctx = ctx ∧ k.slot = slot)
    ∨ ∀ i < 4, s.cwAt (s.chartEntry (quarterOf p) (s.chartCtx p ctx) (s.chartIsl p) slot + 32 * i) = .ok

/-- No port has retries or uncorrectable codewords whose record is due (R321). -/
def State.LinksQuiet (s : State) : Prop := ∀ k : Fin 16, (s.port k).cRetry = 0 ∧ (s.port k).cUe = 0

/-! ### PCP commands -/

/-- Every command in flight of this source has been performed, with this STATUS and these results, and there is one. -/
def Answered (src : PcpSrc) (st r0 r1 : Nat) (t : State) : Prop :=
  (∃ c ∈ t.fw.cmds, c.src = src) ∧ ∀ c ∈ t.fw.cmds, c.src = src → c.res = some (st, r0 % 2 ^ 64, r1 % 2 ^ 64)

/-- The command is performed: its STATUS and results are kept for its completion, and the state is as `Q` says. -/
def Performs (i : Instr) (src : PcpSrc) (s : State) (st r0 r1 : Nat) (Q : State → Prop) : Prop :=
  Settles i s fun t => Answered src st r0 r1 t ∧ Q t

end Sys2Proof.Machine
end

