-- ==== Sys2Proof/Certificates/Slice0/Obligations.lean ====
section
/-! DEFINITION. The statements for the provers. Each says what a command or the machine does; its docstring names the rules of
spec/ it comes from, and the log entry where a clause is the model's own choice. `Gives`, `Settles`, `KeepsBut` and the other
terms they are made in stand in Sys2Proof/Safety.lean. -/

open Sys2Proof Sys2Proof.Machine

namespace Sys2Proof.Machine

/-- The source registers of an ALU instruction (R119). -/
def aluSrcs (w : Nat) : List Nat := ifld w 21 17 :: (if ifld w 27 27 = 1 then [] else [ifld w 26 22])

/-- An ALU instruction writes `f` of its two operands to its destination register (R119, R120). -/
def AluWrites (i : Fin 144 → Fin 2 → Instr) (o : Nat) (f : BitVec 64 → BitVec 64 → BitVec 64) : Prop :=
  ∀ (p : Fin 144) (c : Fin 2) (s : State), Ready s p c o (aluSrcs (s.iword p c)) →
    rsvInfo (maskOf 27 12 ||| maskOf 63 32) [] (s.iword p c) = none →
    exec (i p c) s = issues s p c (.next ((s.running p c).setSreg p c (ifld (s.iword p c) 16 12)
      (f (BitVec.ofNat 64 (s.sreg p c (ifld (s.iword p c) 21 17)))
        (operandB p c s (s.iword p c) (ifld (s.iword p c) 26 22) (ifld (s.iword p c) 27 27))).toNat))

end Sys2Proof.Machine

/-- R120: ADD, SUB and MUL wrap modulo 2^64; AND, OR and XOR are bitwise; the shifts take bits [5:0] of the second operand, SHR
filling with zeros and SRA with the sign; MIN and MAX compare signed values and MINU unsigned ones. None faults on overflow.

R119 to R121: LI writes IMM64, RDSYS the system value that SEL selects, CMP the comparison that COND names to predicate PD,
PSET the combination that OP names, and NOP nothing.

R108: a scalar register holds what was written, modulo 2^64, s0 reads 0 and ignores writes, p0 reads 1; a write of one of them
changes nothing else. -/
def Obligations.ScalarResults : Prop :=
  (AluWrites .add 0x10 (fun a b => a + b) ∧ AluWrites .sub 0x11 (fun a b => a - b) ∧ AluWrites .mul 0x12 (fun a b => a * b)
     ∧ AluWrites .and 0x13 (fun a b => a &&& b) ∧ AluWrites .or 0x14 (fun a b => a ||| b)
     ∧ AluWrites .xor 0x15 (fun a b => a ^^^ b)
     ∧ AluWrites .shl 0x16 (fun a b => a <<< (b.toNat % 64)) ∧ AluWrites .shr 0x17 (fun a b => a >>> (b.toNat % 64))
     ∧ AluWrites .sra 0x18 (fun a b => a.sshiftRight (b.toNat % 64))
     ∧ AluWrites .min 0x19 (fun a b => if a.toInt < b.toInt then a else b)
     ∧ AluWrites .max 0x1A (fun a b => if a.toInt < b.toInt then b else a)
     ∧ AluWrites .minu 0x1B (fun a b => if a.toNat < b.toNat then a else b))
  ∧ (∀ (p : Fin 144) (c : Fin 2) (s : State), let w := s.iword p c; let t := s.running p c
     (Ready s p c 0x00 [] → rsvInfo 0 [] w = none → exec (.nop p c) s = issues s p c (.next t))
     ∧ (Ready s p c 0x1F [] → rsvInfo (maskOf 16 12 ||| maskOf 127 64) [] w = none →
         exec (.li p c) s = issues s p c (.next (t.setSreg p c (ifld w 16 12) (ifld w 127 64))))
     ∧ (∀ v : Nat, Ready s p c 0x1D [] → rsvInfo (maskOf 16 12 ||| maskOf 35 32) [] w = none →
         ((ifld w 35 32 = 0 ∧ v = (s.reg (Reg.ISL_SEQ_TIDE p)).toNat) ∨ (ifld w 35 32 = 1 ∧ v = s.logicalOf p)
           ∨ (ifld w 35 32 = 2 ∧ v = s.selfId (quarterOf p)) ∨ (ifld w 35 32 = 3 ∧ v = c)
           ∨ (ifld w 35 32 = 4 ∧ v = s.mctx p c)
           ∨ (5 ≤ ifld w 35 32 ∧ ifld w 35 32 ≤ 8 ∧ v = (((s.loops p c)[ifld w 35 32 - 5]?).map LoopEnt.iter).getD 0)) →
         exec (.rdsys p c) s = issues s p c (.next (t.setSreg p c (ifld w 16 12) v)))
     ∧ (∀ v : Bool, Ready s p c 0x08 (ifld w 19 15 :: (if ifld w 25 25 = 1 then [] else [ifld w 24 20])) →
         rsvInfo (maskOf 29 12 ||| maskOf 63 32) [] w = none → ifld w 14 12 ≠ 0 →
         (let a := BitVec.ofNat 64 (s.sreg p c (ifld w 19 15))
          let b := operandB p c s w (ifld w 24 20) (ifld w 25 25)
          (ifld w 29 26 = 0 ∧ v = decide (a = b)) ∨ (ifld w 29 26 = 1 ∧ v = decide (a ≠ b))
           ∨ (ifld w 29 26 = 2 ∧ v = decide (a.toInt < b.toInt)) ∨ (ifld w 29 26 = 3 ∧ v = decide (b.toInt ≤ a.toInt))
           ∨ (ifld w 29 26 = 4 ∧ v = decide (a.toNat < b.toNat)) ∨ (ifld w 29 26 = 5 ∧ v = decide (b.toNat ≤ a.toNat))) →
         exec (.cmp p c) s = issues s p c (.next (t.setPred p c (ifld w 14 12) v)))
     ∧ (∀ v : Bool, Ready s p c 0x09 [] → rsvInfo (maskOf 23 12) [] w = none → ifld w 14 12 ≠ 0 →
         (let a := if ifld w 23 23 = 1 then !s.pred p c (ifld w 17 15) else s.pred p c (ifld w 17 15)
          let b := s.pred p c (ifld w 20 18)
          (ifld w 22 21 = 0 ∧ v = (a && b)) ∨ (ifld w 22 21 = 1 ∧ v = (a || b)) ∨ (ifld w 22 21 = 2 ∧ v = (a != b))
           ∨ (ifld w 22 21 = 3 ∧ v = (a && !b))) →
         exec (.pset p c) s = issues s p c (.next (t.setPred p c (ifld w 14 12) v))))
  ∧ (∀ (p : Fin 144) (c : Fin 2) (s : State) (v : Nat) (b : Bool),
     (∀ i : Fin 32, let t := s.setSreg p c i v
       t.sreg p c i = (if i.val = 0 then 0 else v % 2 ^ 64) ∧ KeepsBut [.regs] s t
         ∧ RegsBut (if i.val = 0 then [] else [Reg.ISL_SEQ_SREG p c (2 * i), Reg.ISL_SEQ_SREG p c (2 * i + 1)]) s t)
     ∧ (∀ i : Fin 8, i.val ≠ 0 → let t := s.setPred p c i b
       t.pred p c i = b ∧ (∀ j : Fin 8, j ≠ i → t.pred p c j = s.pred p c j) ∧ KeepsBut [.regs] s t
         ∧ RegsBut [Reg.ISL_SEQ_PRED p c] s t)
     ∧ s.sreg p c 0 = 0 ∧ s.pred p c 0 = true)

/-- R111, R117, R124: an instruction that issues counts in ISL_SEQ_CNT_ISSUE, puts its context into RUN, makes the arbiter favour
the other context, and moves the PC as END processing says; beside its own effect it changes only the context's PC and loop
stack and those. A predicated-off instruction does only that.

R124: END processing. At the END of the innermost loop its counter rises; a loop that is not complete goes back to its start,
a complete one is popped, and the next one that ends there counts in the same pass. -/
def Obligations.IssueAndEndProcessing : Prop :=
  (∀ (p : Fin 144) (c : Fin 2) (s : State),
     (let n := (endProc (s.pc p c) (s.loops p c)).2
      let t := (s.running p c).conclude p c (s.pc p c) (.next (s.running p c))
      n < 16384 →
       t.pc p c = n ∧ t.ctxSt p c = 1
         ∧ (t.reg (Reg.ISL_SEQ_CNT_ISSUE p c)).toNat = min ((s.reg (Reg.ISL_SEQ_CNT_ISSUE p c)).toNat + 1) 0xFFFFFFFF
         ∧ t.bit (Reg.ISL_SEQ_STATUS p) Fd.ISL_SEQ_STATUS_FAV = (c.val == 0)
         ∧ KeepsBut [.regs] s t
         ∧ RegsBut ([Reg.ISL_SEQ_STATUS p, Reg.ISL_SEQ_PC p c, Reg.ISL_SEQ_CNT_ISSUE p c]
             ++ (List.range 4).flatMap fun d => [Reg.ISL_SEQ_LOOP p c d, Reg.ISL_SEQ_LOOP_COUNT p c d,
               Reg.ISL_SEQ_LOOP_ITER p c d]) s t)
     ∧ (Picked s p c → opc (s.iword p c) = 0x10 →
         s.pred p c (ifld (s.iword p c) 10 8) = (ifld (s.iword p c) 11 11 == 1) →
         exec (.add p c) s = issues s p c (.next (s.running p c))))
  ∧ (∀ (pc : Nat) (l : LoopEnt) (r : List LoopEnt),
     endProc pc [] = ([], pc + 1)
     ∧ (l.stop ≠ pc → endProc pc (l :: r) = (l :: r, pc + 1))
     ∧ (l.stop = pc → l.iter < l.count → l.count < 2 ^ 32 → l.iter + 1 ≠ l.count →
         endProc pc (l :: r) = ({ l with iter := l.iter + 1 } :: r, l.start))
     ∧ (l.stop = pc → l.count < 2 ^ 32 → l.iter + 1 = l.count → endProc pc (l :: r) = endProc pc r))

/-- R122, R123, R125, R126, R127, R139, R140: BR, LOOP, FENCE, TMARK, HALT and BRK where they execute: a branch within every loop
that is still active; a loop with a body, room and nesting, entered or with count 0 skipped; a FENCE, a TMARK and a HALT whose
work has completed or that waits for it; a BRK, which stops its context with code BREAK.

R117, R118, R142, R145: an opcode that R118 does not list stops the context with UNDEF_OPC, whatever the predicate; a reserved
bit that is not 0 stops it with RESERVED and the lowest such bit. A context that stops is STOPPED, its RUN bit is clear, and
the first fault is recorded; the other context goes on. -/
def Obligations.ControlFlowAndFaults : Prop :=
  (∀ (p : Fin 144) (c : Fin 2) (s : State), let w := s.iword p c; let t := s.running p c; let pc := s.pc p c
     (Ready s p c 0x02 [] → rsvInfo (maskOf 25 12) [] w = none →
       (∀ l ∈ (endProc pc (s.loops p c)).1, l.start ≤ ifld w 25 12 ∧ ifld w 25 12 ≤ l.stop) →
       exec (.br p c) s = .next (tideCheck (((t.issued p c).setLoops p c (endProc pc (s.loops p c)).1).setPc p c (ifld w 25 12))))
     ∧ (∀ n : Nat, Ready s p c 0x03 [ifld w 30 26] → rsvInfo (maskOf 30 12 ||| maskOf 63 32) [] w = none →
         n = (if ifld w 30 26 = 0 then ifld w 63 32 else s.sreg p c (ifld w 30 26) % 2 ^ 32) →
         pc < ifld w 25 12 → (s.loops p c).length < 4 → (∀ l ∈ s.loops p c, ifld w 25 12 ≤ l.stop) →
         exec (.loop p c) s = issues s p c (if n = 0 then .goto t (ifld w 25 12 + 1)
           else .goto (t.setLoops p c (⟨pc + 1, ifld w 25 12, n, 0⟩ :: s.loops p c)) (pc + 1)))
     ∧ (Ready s p c 0x04 [] → rsvInfo (maskOf 17 12) [] w = none →
         exec (.fence p c) s = issues s p c (.next (if s.workBefore p c (ifld w 17 12) s.nextWork
           then (t.setSt p c 3).setCtx p c { s.ctx p c with
             wait := .fence (ifld w 17 12) s.nextWork, waitReported := false, waitCycles := 0 } else t)))
     ∧ (Ready s p c 0x05 [] → rsvInfo (maskOf 12 12 ||| maskOf 63 32) [] w = none →
         (ifld w 12 12 = 1 → ifld w 63 32 = (s.reg (Reg.ISL_SEQ_TIDE p)).toNat) →
         exec (.tmark p c) s = issues s p c (.next (if s.hasWork p c
           then (t.setSt p c 3).setCtx p c { s.ctx p c with wait := .tmark, waitReported := false, waitCycles := 0 }
           else (t.setSt p c 4).islandMark p)))
     ∧ (Ready s p c 0x01 [] → rsvInfo 0 [] w = none →
         exec (.halt p c) s = issues s p c (.next (if s.hasWork p c
           then (t.setSt p c 3).setCtx p c { s.ctx p c with wait := .halt, waitReported := false, waitCycles := 0 }
           else (t.stopCtx p c 0).islandMark p)))
     ∧ (Ready s p c 0x06 [] → rsvInfo 0 [] w = none →
         exec (.brk p c) s = issues s p c (.stay (t.seqFault p c 0x10 pc 0))))
  ∧ (∀ (p : Fin 144) (c : Fin 2) (s : State), Picked s p c →
     (definedOpc (opc (s.iword p c)) = false →
       exec (.nop p c) s = .next (tideCheck (s.seqFault p c 0x01 (s.pc p c) (opc (s.iword p c)))))
     ∧ (∀ b : Nat, Ready s p c 0x00 [] → rsvInfo 0 [] (s.iword p c) = some b →
         exec (.nop p c) s = .next (tideCheck ((s.running p c).seqFault p c 0x02 (s.pc p c) b)))
     ∧ (∀ code pc info : Nat, code < 256 → pc < 16384 → info < 2 ^ 32 → code ≠ 0x10 →
         s.bit (Reg.ISL_SEQ_FAULT p c) Fd.ISL_SEQ_FAULT_VALID = false →
         let t := s.seqFault p c code pc info
         t.ctxSt p c = 5 ∧ t.bit (Reg.ISL_SEQ_CTL p) (runFld c) = false
           ∧ t.fld (Reg.ISL_SEQ_FAULT p c) Fd.ISL_SEQ_FAULT_CODE = code ∧ t.fld (Reg.ISL_SEQ_FAULT p c) Fd.ISL_SEQ_FAULT_PC = pc
           ∧ t.bit (Reg.ISL_SEQ_FAULT p c) Fd.ISL_SEQ_FAULT_VALID = true ∧ (t.reg (Reg.ISL_SEQ_FINFO p c)).toNat = info
           ∧ t.ctxSt p (1 - c.val) = s.ctxSt p (1 - c.val) ∧ (∀ a, t.byte a = s.byte a)))

/-- R128 to R130: LDS, STS and LDSHAPE at an aligned address that translates, and the return of the data. LDS and LDSHAPE put a
load on its way with the data read in issue order (DEDUCED, log entry 10); STS stores the low 32 or all 64 bits of RD at the
address; a read or write that the codeword check finds bad raises the plausibility flag (R272). The return zero- or
sign-extends the data, or clamps a shape word to MAX, counting the clamp and, with CBV 1, sending 1 to the clamp Buoy.

R128, R192: a scalar address that is not aligned to its size faults ALIGN, with the low 32 bits of the address; one that is
aligned is that of the translation. Neither stores anything. -/
def Obligations.ScalarMemoryAccesses : Prop :=
  (∀ (p : Fin 144) (c : Fin 2) (s : State), let w := s.iword p c; let t := s.running p c
     let va : Int := (s.sreg p c (ifld w 21 17) : Int) + sext 32 (ifld w 63 32)
     let n := if ifld w 23 22 = 1 then 8 else 4
     let checked (r : AccRes) : State := if r.bad then r.st.raisePlaus p else r.st
     let loading (r : AccRes) (k : LoadKind) : State := (checked r).setCtx p c { (checked r).ctx p c with
       loads := ((checked r).ctx p c).loads ++ [⟨ifld w 16 12, k, leNat r.data, s.pc p c⟩] }
     (∀ pa u, Ready s p c 0x20 [ifld w 21 17] → rsvInfo (maskOf 23 12 ||| maskOf 63 32) [] w = none → ifld w 23 22 ≠ 3 →
         t.scalarAddr p c va n false = (.ok pa, u) →
         exec (.lds p c) s = issues s p c (.next (loading (u.readChk pa n 5 (u.logicalOf p)) (.lds (ifld w 23 22)))))
     ∧ (∀ pa u, Ready s p c 0x21 [ifld w 16 12, ifld w 21 17] → rsvInfo (maskOf 23 12 ||| maskOf 63 32) [] w = none →
         ifld w 23 22 ≠ 3 → t.scalarAddr p c va n true = (.ok pa, u) →
         exec (.sts p c) s = issues s p c
           (.next (checked (u.writeChk pa (leBytes n (s.sreg p c (ifld w 16 12))) 5 (u.logicalOf p)))))
     ∧ (∀ pa u, Ready s p c 0x22 [ifld w 21 17] → rsvInfo (maskOf 30 12 ||| maskOf 109 32) [] w = none →
         (ifld w 22 22 = 1 → ifld w 30 23 < s.logicalCount) → t.scalarAddr p c va 4 false = (.ok pa, u) →
         exec (.ldshape p c) s = issues s p c (.next (loading (u.readChk pa 4 5 (u.logicalOf p))
           (.shape (ifld w 95 64) (ifld w 22 22 == 1) (ifld w 30 23) (ifld w 109 96)))))
     ∧ (∀ rd size val lpc rest, (s.ctx p c).loads = ⟨rd, .lds size, val, lpc⟩ :: rest →
         exec (.scalarLoadReturn p c) s = .next (tideCheck ((((s.setCtx p c { s.ctx p c with loads := rest }).setSreg p c rd
           (if size = 2 then toPat 64 (sext 32 val) else val)).wakeCtx p c).islandMark p)))
     ∧ (∀ rd mx cbv lisl bidx val lpc rest, (s.ctx p c).loads = ⟨rd, .shape mx cbv lisl bidx, val, lpc⟩ :: rest → val ≤ mx →
         exec (.scalarLoadReturn p c) s = .next (tideCheck ((((s.setCtx p c { s.ctx p c with loads := rest }).setSreg p c rd
           val).wakeCtx p c).islandMark p)))
     ∧ (∀ rd mx cbv lisl bidx val lpc rest, (s.ctx p c).loads = ⟨rd, .shape mx cbv lisl bidx, val, lpc⟩ :: rest → mx < val →
         let clamped := ((s.setCtx p c { s.ctx p c with loads := rest }).count
           (Reg.ISL_SEQ_CNT_CLAMP p) 1).setFld (Reg.ISL_SEQ_EVT p) Fd.ISL_SEQ_EVT_CLAMP 1
         let told := if cbv then clamped.buoyArrive (s.home lisl)
             { port := islPort (s.home lisl) p, bidx := bidx, tl := lisl, kind := 4, val := 1, mod := s.selfId (quarterOf p),
               lisl := s.logicalOf p, sctx := c, pc := lpc, src := none, answer := none } else clamped
         exec (.scalarLoadReturn p c) s = .next (tideCheck (((told.setSreg p c rd mx).wakeCtx p c).islandMark p))))
  ∧ (∀ (p : Fin 144) (c : Fin 2) (s : State) (va : Int) (n : Nat) (wr : Bool), n = 4 ∨ n = 8 →
     (va % (n : Int) ≠ 0 → s.scalarAddr p c va n wr = (.error (0x08, toPat 32 va), s))
     ∧ (∀ pa t, s.scalarAddr p c va n wr = (.ok pa, t) → va % (n : Int) = 0 ∧ t.mem = s.mem))

/-- R114, R131, R133 to R135: MM, DRAIN, FERRY and the SHOAL issue of each sub-operation, where their queue has room and their
parameters are in range: the operation joins its queue with the values it read, as numbered work of its class. -/
def Obligations.EngineIssue : Prop :=
  ∀ (p : Fin 144) (c : Fin 2) (s : State), let w := s.iword p c; let t := s.running p c; let pc := s.pc p c
    let id := s.nextWork; let x := s.isl p
    let va : Int := (s.sreg p c (ifld w 20 16) : Int) + sext 32 (ifld w 63 32)
    (Ready s p c 0x30 ([ifld w 71 67, ifld w 76 72, ifld w 81 77, ifld w 96 92] ++ originRegs (ifld w 86 82)
        ++ originRegs (ifld w 91 87)) → mmRsv w = none → ifld w 20 17 ≤ 8 → ifld w 24 21 ≤ 8 → x.mmWaiting < 4 →
      t.mmParam p (t.mmOf p c pc id w) = none →
      exec (.mm p c) s = issues s p c (.next (((t.addWork 0 (.ctx p c) pc).2).setIsl p { x with
        mmq := x.mmq ++ [t.mmOf p c pc id w] })))
    ∧ (∀ trow n : Nat, Ready s p c 0x40 ([ifld w 33 29, ifld w 52 48] ++ originRegs (ifld w 63 59)) →
        rsvInfo (maskOf 63 12) [] w = none → ifld w 63 59 ≠ 31 → x.ebbq.length < 8 →
        trow = ifld w 28 16 + s.sreg p c (ifld w 33 29) % 2 ^ 13 →
        n = (if ifld w 52 48 = 0 then ifld w 47 34 else s.sreg p c (ifld w 52 48) % 2 ^ 14) →
        0 < n → n ≤ 8192 → trow + n - 1 ≤ 8191 →
        exec (.drain p c) s = issues s p c (.next ((((t.addWork 1 (.ctx p c) pc).2).setIsl p { x with ebbq := x.ebbq
          ++ [⟨id, c, pc, ifld w 15 12, trow, n, ifld w 58 53, s.origin p c (ifld w 63 59)⟩] }).setFld (Reg.EBB_STATUS p)
          Fd.EBB_STATUS_QDEPTH (x.ebbq.length + 1))))
    ∧ (Ready s p c 0x60 [ifld w 20 16] → rsvInfo (maskOf 13 12 ||| maskOf 20 16 ||| maskOf 63 32) [] w = none →
        va % 64 = 0 → (s.fry (ferryOf p w)).queue.length < 64 →
        let f := 4 * quarterOf p + ifld w 13 12
        exec (.ferry p c) s = issues s p c (.next ((((t.addWork 3 (.ctx p c) pc).2).setFry f { s.fry f with
          queue := (s.fry f).queue ++ [⟨id, .ctx p c, pc, va, false⟩] }).setFld (Reg.FRY_STATUS (f / 4) (f % 4))
          Fd.FRY_STATUS_QDEPTH ((s.fry f).queue.length + 1))))
    ∧ (∀ (i : ShoalPhase → Instr) (sop : Nat), (i, sop) ∈ [(Instr.gather p, 0), (Instr.scatter p, 1), (Instr.shoalMerge p, 2),
          (Instr.segred p, 3), (Instr.topk p, 4), (Instr.pack p, 5), (Instr.unpack p, 6), (Instr.spmm p, 7)] →
        Ready s p c 0x50 [ifld w 20 16] → rsvInfo (maskOf 20 12 ||| maskOf 63 32) [] w = none → ifld w 15 12 = sop →
        va % 64 = 0 → x.shlq.length < 8 →
        exec (i (.issue c)) s = issues s p c (.next ((((t.addWork 2 (.ctx p c) pc).2).setIsl p { x with
          shlq := x.shlq ++ [⟨id, c, pc, sop, va⟩] }).setFld (Reg.SHL_STATUS p) Fd.SHL_STATUS_QDEPTH (x.shlq.length + 1))))

/-- R136 to R138, R151, R447: BSIG and BRST enter the context's signal queue; BWAIT passes when the count is at least VAL, and
waits otherwise; the signal queue sends its oldest operation once the earlier work of its AFTER classes has completed, one of
this module to the Buoy unit of the home Quarter and one of another module as a BUOY message. A transfer whose Isthmus pair
fails its CRC is resent up to ISTH_LIMIT; one that the pair gives up stays unsent (DESIGN CHOICE, log entry 126).

R148, R149, R151, R152, R153: the Buoy unit's cycle with one local operation. A signal adds, a decrement that the count covers
subtracts, a reset gives 0; a decrement that would go below 0 is not applied, and sets UNDER. The waits whose threshold the
new count meets are released, and a release puts its context back into RUN. No byte of memory changes.

R152: a release that its unit has sent takes the context out of its wait. R138: the wait report sets WAITLONG once. -/
def Obligations.BuoyOperations : Prop :=
  (∀ (p : Fin 144) (c : Fin 2) (s : State), let w := s.iword p c; let t := s.running p c; let pc := s.pc p c
     let l := ifld w 30 23; let x := s.ctx p c; let id := s.nextWork
     (∀ (rst : Bool) (i : Instr), (rst, i) = (false, .bsig p c) ∨ (rst, i) = (true, .brst p c) →
         Ready s p c (if rst then 0x72 else 0x70) [] →
         rsvInfo (if rst then maskOf 50 12 else maskOf 50 12 ||| maskOf 95 64) [] w = none →
         l < s.logicalCount → x.sigq.length < 16 →
         exec i s = issues s p c (.next (((t.addWork 4 (.ctx p c) pc).2).setCtx p c { x with sigq := x.sigq
           ++ [⟨id, rst, ifld w 12 12 == 1, ifld w 22 13, l, ifld w 44 31, if rst then 0 else sext 32 (ifld w 95 64),
             ifld w 50 45, pc⟩] })))
     ∧ (Ready s p c 0x71 [] → rsvInfo (maskOf 44 23 ||| maskOf 95 64) [] w = none → l < s.logicalCount →
         sext 32 (ifld w 95 64) ≤ (s.buoy (s.home l) (ifld w 44 31) : Int) →
         exec (.bwait p c) s = issues s p c (.next t))
     ∧ (Ready s p c 0x71 [] → rsvInfo (maskOf 44 23 ||| maskOf 95 64) [] w = none → l < s.logicalCount →
         (s.buoy (s.home l) (ifld w 44 31) : Int) < sext 32 (ifld w 95 64) →
         exec (.bwait p c) s = issues s p c (.next (((t.registerWait (s.home l) (ifld w 44 31) (sext 32 (ifld w 95 64)) p c
           pc).setSt p c 3).setCtx p c { x with
             wait := .buoy (ifld w 44 31) (sext 32 (ifld w 95 64)), waitReported := false, waitCycles := 0 })))
     ∧ (∀ g r n, x.sigq = g :: r → s.workBefore p c g.after g.id = true → Waits (.signalQueueSend p ⟨c, n⟩) s)
     ∧ (∀ g r n, x.sigq = g :: r → s.workBefore p c g.after g.id = false → (g.rem = true → g.mod = s.selfId (quarterOf p)) →
         n = 0 ∨ s.home g.lisl = quarterOf p →
         exec (.signalQueueSend p ⟨c, n⟩) s = .next (tideCheck ((s.setCtx p c { x with sigq := r }).buoyArrive (s.home g.lisl)
           { port := islPort (s.home g.lisl) p, bidx := g.bidx, tl := g.lisl, kind := if g.rst then 2 else 1, val := g.val,
             mod := s.selfId (quarterOf p), lisl := s.logicalOf p, sctx := c, pc := g.pc, src := some (p, c, g.id),
             answer := none })))
     ∧ (∀ g r n, x.sigq = g :: r → s.workBefore p c g.after g.id = false → g.rem = true → g.mod ≠ s.selfId (quarterOf p) →
         let v := s.setCtx p c { x with sigq := r }
         exec (.signalQueueSend p ⟨c, n⟩) s = .next (tideCheck (v.request (quarterOf p) (v.engVc (v.logicalOf p)).2
           (reqMsg 5 (v.engVc (v.logicalOf p)).1 0 false g.mod (buoyFields g.lisl g.bidx (if g.rst then 1 else 0) g.val) [] [])
           (.sig g.id p c g.lisl g.bidx g.pc))))
     ∧ (∀ g r (n : Nat), x.sigq = g :: r → s.workBefore p c g.after g.id = false →
         (g.rem = true → g.mod = s.selfId (quarterOf p)) → s.home g.lisl ≠ quarterOf p → 0 < n →
         let unit := pairUnit (quarterOf p) (s.home g.lisl)
         exec (.signalQueueSend p ⟨c, n⟩) s = .next (tideCheck (if n < s.fw.isthLimit
           then ((s.isthmusFails unit n).setCtx p c { x with sigq := r }).sendSig p c g else s.isthmusFails unit n))))
  ∧ (∀ (q : Fin 4) (s : State) (a : BuoyArr), (s.qtr q).arrivals = [a] → a.port < 44 → a.bidx < 16384 →
       a.answer = none →
     let n := s.buoy q a.bidx
     Settles (.buoyApply q) s fun t =>
       t.buoy q a.bidx = (if a.kind = 2 then 0 else if 0 ≤ a.val then min (n + a.val.toNat) 0x7FFFFFFF
           else if a.val.natAbs ≤ n then n - a.val.natAbs else n)
       ∧ (a.kind ≠ 2 → a.val < 0 → n < a.val.natAbs →
           t.bit (Reg.BUOY_FLAGS (16384 * q + a.bidx)) Fd.BUOY_FLAGS_UNDER = true)
       ∧ (a.src = none ∨ a.kind = 2 ∨ 0 ≤ a.val ∨ a.val.natAbs ≤ n → ∀ w ∈ (s.qtr q).waits, w.bidx = a.bidx → w.thr ≤ (t.buoy q a.bidx : Int) → (w.p, w.c) ∈ (t.qtr q).releases)
       ∧ (t.qtr q).arrivals = [] ∧ (∀ b, t.byte b = s.byte b))
  ∧ (∀ (p : Fin 144) (c : Fin 2) (s : State),
     (∀ (q : Fin 4) b thr, (∀ k : Fin 4, k < q → (p.val, c.val) ∉ (s.qtr k).releases) → (p.val, c.val) ∈ (s.qtr q).releases →
       s.ctxSt p c = 3 → (s.ctx p c).wait = .buoy b thr →
       Gives (.buoyRelease p c) s fun t => t.ctxSt p c = 1 ∧ (t.ctx p c).wait = .none
         ∧ (t.qtr q).releases = (s.qtr q).releases.erase (p.val, c.val)
         ∧ KeepsBut [.regs, .isls, .qtrs] s t ∧ RegsBut [Reg.ISL_SEQ_STATUS p] s t)
     ∧ (s.ctxSt p c = 3 → (s.ctx p c).waitReported = false → s.fld (Reg.ISL_SEQ_WTO p) Fd.ISL_SEQ_WTO_LIMIT ≠ 0 →
       Gives (.waitReport p c) s fun t => t.bit (Reg.ISL_SEQ_EVT p) (waitLongFld c) = true
         ∧ (t.ctx p c).waitReported = true ∧ t.events = s.events ++ [⟨.waitLong, p, c, 0, (s.reg Reg.TIDE_NUM).toNat, s.fw.qcore.getD (p.val / 36) 0⟩]
         ∧ KeepsBut [.regs, .isls, .events] s t ∧ RegsBut [Reg.ISL_SEQ_EVT p] s t))

/-- R145, R146, R392: RUN 1 runs a STOPPED or IDLE context, RUN 0 stops one that runs, and a requester that may not write the
register changes nothing but the record of its access error.

R155, R156, R159: a write of BUOY_VAL by a core or the debug path sets the count and HAND, and one of anybody else is dropped;
a dump starts at Buoy 0 and writes one record of 32 bytes at its place. -/
def Obligations.RunBitsAndHandWrites : Prop :=
  (∀ (r : Requester) (p : Fin 144) (c : Fin 2) (s : State), s.up = true →
     (s.mayWrite r (Reg.ISL_SEQ_CTL p) = true → (s.ctxSt p c = 0 ∨ s.ctxSt p c = 5) → s.pstate p ≠ 6 →
       Gives (.islSeqRun r p c) s fun t => t.ctxSt p c = 1 ∧ t.bit (Reg.ISL_SEQ_CTL p) (runFld c) = true
         ∧ t.pc p c = s.pc p c ∧ KeepsBut [.regs] s t ∧ RegsBut [Reg.ISL_SEQ_CTL p, Reg.ISL_SEQ_STATUS p] s t)
     ∧ (s.mayWrite r (Reg.ISL_SEQ_CTL p) = true → s.ctxSt p c = 1 → (s.ctx p c).wait = .none →
       Gives (.islSeqStop r p c) s fun t => t.ctxSt p c = 5 ∧ t.bit (Reg.ISL_SEQ_CTL p) (runFld c) = false
         ∧ (t.ctx p c).sigq = (s.ctx p c).sigq ∧ KeepsBut [.regs, .isls] s t
         ∧ RegsBut [Reg.ISL_SEQ_CTL p, Reg.ISL_SEQ_STATUS p] s t)
     ∧ (s.mayWrite r (Reg.ISL_SEQ_CTL p) = false →
       Gives (.islSeqRun r p c) s fun t => t.accessErrs = s.accessErrs ++ [⟨Reg.ISL_SEQ_CTL p, reqCode r, true, 3⟩]
         ∧ KeepsBut [.accessErrs, .bus] s t))
  ∧ (∀ (r : Requester) (q : Fin 4) (b : Fin 16384) (v : BitVec 32) (s : State), s.up = true →
     (((∃ c, r = .pilot c) ∨ r = .debug) →
       Gives (.buoyValWrite r q b v) s fun t => t.buoy q b = v.toNat % 2 ^ 31
         ∧ t.bit (Reg.BUOY_FLAGS (16384 * q + b)) Fd.BUOY_FLAGS_HAND = true ∧ (∀ x, t.byte x = s.byte x))
     ∧ (((∃ c, r = .shore c) ∨ r = .mgmt) →
       Gives (.buoyValWrite r q b v) s fun t => t.accessErrs = s.accessErrs ++
           [⟨Reg.BUOY_VAL (16384 * q + b), reqCode r, true, 3⟩] ∧ KeepsBut [.accessErrs, .bus] s t)
     ∧ (s.mayWrite r (Reg.BUOY_DUMP_CTL q) = true → s.bit (Reg.BUOY_DUMP_CTL q) Fd.BUOY_DUMP_CTL_GO = false →
       Gives (.buoyDumpGo r q) s fun t => t.bit (Reg.BUOY_DUMP_CTL q) Fd.BUOY_DUMP_CTL_GO = true
         ∧ (t.qtr q).dumpPos = 0 ∧ KeepsBut [.regs, .qtrs] s t ∧ RegsBut [Reg.BUOY_DUMP_CTL q] s t)
     ∧ (let a := s.addr48 (Reg.BUOY_DUMP_ADDR_LO q) (Reg.BUOY_DUMP_ADDR_HI q) + 32 * (s.qtr q).dumpPos
       s.bit (Reg.BUOY_DUMP_CTL q) Fd.BUOY_DUMP_CTL_GO = true → (s.qtr q).arrivals = [] → (s.qtr q).dumpPos < 16383 →
       0x10000000000 ≤ a → a + 32 ≤ 0x14800000000 → s.rangeKind a 32 true = 0 →
       Gives (.buoyDumpRecord q) s fun t => t.bytes a 32 = s.dumpRecord q (s.qtr q).dumpPos
         ∧ (t.qtr q).dumpPos = (s.qtr q).dumpPos + 1 ∧ BytesBut a 32 s t))

/-- R87, R97, R183, R185, R515: the array accepts its oldest queued instruction once the start-up clear is done and every earlier
instruction's sets have been loaded: it keeps the Charts that the Island holds or reads, the walk descriptor and SKIP_EN. An
operand whose Chart fails its check stops the issuing context instead, and nothing joins the array.

R73, R74, R79, R90: a weight set is loaded into a free buffer, from its staging entry or from the Lagoon: weight l of a column
is the element read there for l below the slice's length, and +0 beyond K. In GEMM and CONV modes the next set is then read
ahead into the staging entry, but not of FP32. R103, R82, R89: row 0 issues a pass, which joins the passes in flight, or,
where K-slice skipping applies, skips it and counts. -/
def Obligations.ArrayAcceptsAndIssues : Prop :=
  (∀ (p : Fin 144) (s : State) (o : MmOp) (rest : List MmOp), (s.isl p).mmq = o :: rest →
     s.bit (Reg.ACC_STATUS p) Fd.ACC_STATUS_INIT_DONE = true →
     (∀ r ∈ (s.isl p).arr, r.stop = none → r.op.w ≤ r.nextLoad) →
     let ctx := s.mctx p o.c
     let a := (s.chartOf p ctx o.cha).1
     let b := (s.chartOf p ctx o.chb).1
     (arrCheck a ctx o.fa = none → arrCheck b ctx o.fb = none →
       Settles (.matrixAccept p) s fun t => (t.isl p).mmq = rest
         ∧ (t.isl p).arr = (s.isl p).arr ++ [⟨o, a, b, s.walkDesc p o.aux, s.bit (Reg.ACC_CFG p) Fd.ACC_CFG_SKIP_EN, 0, [], 0, 0,
             none, none⟩]
         ∧ (∀ j, j ≠ p.val → t.isl j = s.isl j) ∧ KeepsBut [.regs, .isls, .events] s t
         ∧ (s.ChartClean p ctx o.cha → s.ChartClean p ctx o.chb →
             KeepsBut [.regs, .isls] s t ∧ RegsBut [Reg.ACC_STATUS p] s t))
     ∧ (∀ code w c, arrCheck a ctx o.fa = some code → s.findWork o.id = some w → w.src = .ctx p c → c < 2 →
       Settles (.matrixAccept p) s fun t => t.ctxSt p c = 5 ∧ (t.isl p).mmq = rest ∧ (t.isl p).arr = (s.isl p).arr
         ∧ (∀ x, t.byte x = s.byte x)))
  ∧ (∀ (p : Fin 144) (s u : State) (r : MmRun) (es : List FElem), let o := r.op
     let loaded (v : State) (w : WSet) (t : State) : Prop :=
       let r' := { r with nextLoad := r.nextLoad + 1, sets := r.sets ++ [w], staged := none }
       let l := (v.setIsl p ((v.isl p).setRun r')).count (Reg.ACC_CNT_LOADS p) 1
       t = l.stageNext p r' ∧ (o.mode = 2 ∨ o.fa = 0 ∨ o.w ≤ r.nextLoad + 1 → t = l.syncAcc p)
         ∧ (∀ es' u', o.mode ≠ 2 → o.fa ≠ 0 → r.nextLoad + 1 < o.w → l.readSet p r' (r.nextLoad + 1) = (.ok es', u') →
             (t.isl p).arr = (u'.isl p).arr.map fun y => if y.op.id = o.id
               then { r' with staged := some (r'.setCols (r.nextLoad + 1) es') } else y)
     (∀ buf cols, (s.isl p).loader = some r → (s.isl p).freeBuf o = some buf → r.staged = some cols →
       Settles (.weightLoad p) s (loaded s ⟨r.nextLoad, buf, cols⟩))
     ∧ (∀ buf, (s.isl p).loader = some r → (s.isl p).freeBuf o = some buf → r.staged = none →
       s.readSet p r r.nextLoad = (.ok es, u) →
       let ks := o.ks (r.nextLoad % o.s)
       let ns := o.ns (r.nextLoad / o.s)
       Settles (.weightLoad p) s fun t => ∃ w : WSet, w.idx = r.nextLoad ∧ w.buf = buf ∧ loaded u w t
         ∧ (∀ c j l, c < o.copies → j < ns.length → l < o.l →
             ((w.w.getD c []).getD j []).getD l (.fin false 0 0) = if l < ks.length
               then (es.map (·.e.val)).getD ((c * ns.length + j) * ks.length + l) (.fin false 0 0) else .fin false 0 0))
     ∧ (∀ w : WSet, (s.isl p).issuer = some r → (s.isl p).alignHeld r = false → (s.isl p).drainHeld r = false →
       s.withheld p = false → r.sets.find? (·.idx == r.curSet) = some w →
       let rows := o.rows r.curG
       let ks := o.ks (r.curSet % o.s)
       let c := parseChart r.a
       s.fetch (arrAcc s p 0 o) c (if c.sparse then some (s.fld (Reg.SHL_CFG p) Fd.SHL_CFG_THRESH) else none)
         (rows.flatMap fun i => ks.map fun k => r.coordA (if o.mode = 2 then r.curG else 16 * r.curG + i) k i) = (.ok es, u) →
       (c.sparse = true → r.skip = true → r.adds = true → (∀ e ∈ es, e.zero = true) →
         Settles (.passIssue p) s fun t => (t.isl p).inflight = (u.isl p).inflight
           ∧ (t.reg (Reg.ACC_CNT_SKIP p)).toNat = min ((u.reg (Reg.ACC_CNT_SKIP p)).toNat + 1) 0xFFFFFFFF
           ∧ (∀ x, t.byte x = u.byte x))
       ∧ ((c.sparse = false ∨ r.skip = false ∨ r.adds = false ∨ ∃ e ∈ es, e.zero = false) →
         Settles (.passIssue p) s fun t => ∃ items, (t.isl p).inflight = (u.isl p).inflight ++ [⟨o.id, items⟩]
           ∧ (∀ it ∈ items, it.add = (o.add || r.curSet % o.s != 0)
             ∧ ∃ i ∈ rows, it.trow = o.trow (r.curSet / o.s) r.curG i)
           ∧ (t.reg (Reg.ACC_CNT_ISSUE p)).toNat = min ((u.reg (Reg.ACC_CNT_ISSUE p)).toNat + 1) 0xFFFFFFFF
           ∧ (∀ x, t.byte x = u.byte x))))

/-- R54, R55, R58: a pass's sum does not depend on the order of its products; a NaN product, or both infinities, make the result
NaN, an infinity of one sign makes it that infinity, and products that are all zero leave the exact zero. An INT8 pass is the
exact integer sum. -/
def Obligations.PassArithmetic : Prop :=
  (∀ ps qs : List FVal, ps.Perm qs → dpuPass ps = dpuPass qs)
    ∧ (∀ ps : List FVal, (.nan ∈ ps ∨ (.inf false ∈ ps ∧ .inf true ∈ ps) → dpuPass ps = .f32 (toF32 .nan))
      ∧ (.nan ∉ ps → .inf false ∈ ps → .inf true ∉ ps → dpuPass ps = .f32 (toF32 (.inf false)))
      ∧ (.nan ∉ ps → .inf false ∉ ps → .inf true ∈ ps → dpuPass ps = .f32 (toF32 (.inf true)))
      ∧ ((∀ x ∈ ps, ∃ g e, x = .fin g 0 e) → dpuPass ps = .exactZero))
    ∧ (∀ (o : MmOp) (a b : List FVal), o.fa = 7 →
      passVal o a b = .int (((a.zip b).map fun x => intOf x.1 * intOf x.2).foldr (· + ·) 0))

/-- R56, R57, R58, R84, R88, R95, R96: the oldest pass in flight is applied: every entry that it names holds what it held, added
to the pass's result or overwritten by it, with fresh parity, and no other byte of memory changes.

R97: the start-up clear writes +0 to every entry of the accumulator, with valid parity, and sets INIT_DONE. -/
def Obligations.PassesApplied : Prop :=
  (∀ (p : Fin 144) (s : State) (q : Pass) (r : List Pass), (s.isl p).inflight = q :: r →
     (∀ i ∈ q.items, i.trow < 8192 ∧ i.entry < 32) → (q.items.map fun i => accAddr p i.trow i.entry).Nodup →
     Settles (.passApply p) s fun t => (t.isl p).inflight = r
       ∧ (∀ i ∈ q.items, let a := accAddr p i.trow i.entry
           t.memNat a 4 = applyVal (s.memNat a 4) i.add i.val % 2 ^ 32 ∧ tget (fun _ => 0) (t.isl p).parity a = 0)
       ∧ (∀ x, (∀ i ∈ q.items, ¬(accAddr p i.trow i.entry ≤ x ∧ x < accAddr p i.trow i.entry + 4)) → t.byte x = s.byte x))
  ∧ (∀ (p : Fin 144) (s : State), s.up = true →
     Settles (.accumulatorClear p) s fun t => (∀ a j, a < 8192 → j < 32 → t.memNat (accAddr p a j) 4 = 0)
       ∧ (t.isl p).parity = [] ∧ t.bit (Reg.ACC_STATUS p) Fd.ACC_STATUS_INIT_DONE = true
       ∧ BytesBut (accBase p) 0x100000 s t ∧ KeepsBut [.regs, .mem, .isls] s t ∧ RegsBut [Reg.ACC_STATUS p] s t)

/-- R161, R162, R175, R178, R179, R180: the oldest drain begins once the drain before it has read its last tile row and the
start-up clear is done: its descriptor slot and its Charts are copied. A descriptor that fails a check sets EBB_ERR.FAULT,
stops the issuing context with the Ebb's code, and discards the context's drains behind it.

R160, R164, R176: a read cycle takes the next eight tile rows, or those that remain, through the drain port, and puts the
element chain's s2 and s4 of every valid entry, in order, behind the batches that wait to be written; a cycle with a held row
counts it and waits.

R164, R169, R170, R173, R176: the oldest batch is written row by row, each row's bytes visible with its end, and a batch that
has no rows left leaves; a drain's last batch completes the drain, and a LOSS drain's value goes to EBB_LOSS. -/
def Obligations.EbbDrains : Prop :=
  (∀ (p : Fin 144) (s : State) (o : DrainOp) (rest : List DrainOp), (s.isl p).ebbq = o :: rest → (s.isl p).ebb = none →
     s.bit (Reg.ACC_STATUS p) Fd.ACC_STATUS_INIT_DONE = true →
     let d := s.ebbDesc p o.edesc
     (∀ cs, descCheck d o.count = none → (s.ebbCharts p (s.mctx p o.c) (ebbSlots o d)).1 = .ok cs → ebbFmtCheck o d cs = none →
       Settles (.ebbDrainBegin p) s fun t => (t.isl p).ebbq = rest
         ∧ (t.isl p).ebb = some ⟨o, d, cs.getD 0 0, cs.getD 1 0, cs.getD 2 0, cs.getD 3 0, cs.getD 4 0, 0⟩
         ∧ t.fld (Reg.EBB_STATUS p) Fd.EBB_STATUS_BUSY = 1 ∧ KeepsBut [.regs, .isls, .events] s t
         ∧ ((∀ slot, some slot ∈ ebbSlots o d → s.ChartClean p (s.mctx p o.c) slot) →
             KeepsBut [.regs, .isls] s t ∧ RegsBut [Reg.EBB_STATUS p] s t))
     ∧ (∀ code w, descCheck d o.count = some code → s.findWork o.id = some w → w.src = .ctx p o.c → o.c < 2 →
       (∀ x ∈ rest, x.id ≠ o.id) → s.bit (Reg.ISL_SEQ_FAULT p o.c) Fd.ISL_SEQ_FAULT_VALID = false →
       Settles (.ebbDrainBegin p) s fun t => t.ctxSt p o.c = 5 ∧ (t.isl p).ebb = none
         ∧ (t.isl p).ebbq = rest.filter (fun x => x.c ≠ o.c)
         ∧ t.bit (Reg.EBB_ERR p) Fd.EBB_ERR_FAULT = true ∧ t.fld (Reg.ISL_SEQ_FAULT p o.c) Fd.ISL_SEQ_FAULT_CODE = 0x0F
         ∧ (t.reg (Reg.ISL_SEQ_FINFO p o.c)).toNat = 1 + 16 * code ∧ (∀ x, t.byte x = s.byte x)))
  ∧ (∀ (p : Fin 144) (s : State) (r : EbbRun), (s.isl p).ebb = some r →
     let n := min 8 (r.op.count - r.next)
     let A := ebbAcc s p r.op
     let d := r.desc
     let es := ebbEntries d r.next n
     let xs := es.map fun ie => ebbCoord r.op d ie.1 ie.2
     let vs := es.map fun ie => ebbVecCoord r.op d ie.1 ie.2
     ((∃ j, j < n ∧ (s.isl p).rowHeld r.op.id (r.op.trow + r.next + j) = true) →
       Gives (.ebbReadCycle p) s fun t =>
         (t.reg (Reg.EBB_CNT_WAIT p)).toNat = min ((s.reg (Reg.EBB_CNT_WAIT p)).toNat + 1) 0xFFFFFFFF
           ∧ KeepsBut [.regs] s t ∧ RegsBut [Reg.EBB_CNT_WAIT p] s t)
     ∧ (∀ u0 u1 u2 u3 u4 u5 sc bi zs gs rows,
       (∀ j, j < n → (s.isl p).rowHeld r.op.id (r.op.trow + r.next + j) = false) →
       s.ebbLimit A r es = (es.length, none, u0) → u0.ebbAux A (eScaleVec d) r.sch vs = (.ok sc, u1) →
       u1.ebbAux A (eBias d) r.bch vs = (.ok bi, u2) → u2.ebbAux A (eMode d == 1) r.zch xs = (.ok zs, u3) →
       u3.ebbAux A (eGate d) r.gch xs = (.ok gs, u4) → u4.readRows p (r.op.trow + r.next) n = (rows, u5) →
       let zero : FElem := ⟨⟨.fin false 0 0, 0⟩, false⟩
       let aux (l : List FElem) (k : Nat) : Nat := aux32 (l.getD k zero)
       let els := (List.range es.length).map fun k => (es.getD k (0, 0),
         ebbChain d ((rows.getD ((es.getD k (0, 0)).1 - r.next) []).getD (es.getD k (0, 0)).2 0)
           (if eScaleVec d then aux sc k else eScale d) (aux bi k) (aux zs k) (aux gs k))
       Settles (.ebbReadCycle p) s fun t =>
         (t.isl p).ebbw = (u5.isl p).ebbw ++ [⟨r.op, d, r.out, r.zch, ebbRows r n els, decide (r.op.count ≤ r.next + n), none⟩]
           ∧ (t.isl p).ebb = (if r.op.count ≤ r.next + n then none else some { r with next := r.next + n })
           ∧ (t.reg (Reg.EBB_CNT_ROWS p)).toNat = min ((u5.reg (Reg.EBB_CNT_ROWS p)).toNat + n) 0xFFFFFFFF
           ∧ (∀ x, t.byte x = u5.byte x)))
  ∧ (∀ (p : Fin 144) (s : State) (b : EbbBatch) (rest : List EbbBatch), (s.isl p).ebbw = b :: rest →
     let A := ebbAcc s p b.op
     (∀ r rs w u, b.rows = r :: rs → eMode b.desc ≠ 2 → s.ebbRow A p b r = (none, w, u) →
       exec (.ebbElementWrite p) s = .next (tideCheck ((u.commit A w).ebbWriteRows A p b rest rs)))
     ∧ (∀ r rs u, b.rows = r :: rs → eMode b.desc = 2 → s.ebbRowAdd A p b r = (.ok none, u) →
       exec (.ebbElementWrite p) s = .next (tideCheck (u.ebbWriteRows A p b rest rs)))
     ∧ (b.rows = [] → b.fault = none → b.last = false →
       Settles (.ebbElementWrite p) s fun t => (t.isl p).ebbw = rest
         ∧ KeepsBut [.regs, .isls] s t ∧ RegsBut [Reg.EBB_STATUS p] s t)
     ∧ (∀ r s2 v vals w u, b.rows = [r] → r.vals = some (s2, v) :: vals → b.fault = none → b.last = true → eLoss b.desc = true →
       eMode b.desc ≠ 2 → s.ebbRow A p b r = (none, w, u) →
       Settles (.ebbElementWrite p) s fun t => (t.reg (Reg.EBB_LOSS p)).toNat = v % 2 ^ 32
         ∧ (t.isl p).lossN = ((u.commit A w).isl p).lossN + 1 ∧ (t.isl p).lossVal = v ∧ (t.isl p).ebbw = rest))

/-- R164, R163: the element chain: s1 is the entry times the scale, s2 adds the bias, s3 is the function, or its derivative at z
times s2, or s2, and s4 is s3 times the gate; only the steps that the descriptor enables act.

R165, R166, R167: IDENT gives its input, RELU and LRELU what is above zero and +0 or ALPHA times the rest, with the
derivatives 1, and 0 or ALPHA; a NaN gives the canonical NaN for every FUNC; the infinities and -0 give what R166 lists. -/
def Obligations.EbbArithmetic : Prop :=
  (∀ (d : List Nat) (entry scale bias z gate : Nat), eSrc d = 0 →
     (eBias d = false → (ebbChain d entry scale bias z gate).1 = f32Mul entry scale)
     ∧ (eBias d = true → (ebbChain d entry scale bias z gate).1 = f32Add (f32Mul entry scale) bias)
     ∧ (let s2 := (ebbChain d entry scale bias z gate).1
       let s4 := (ebbChain d entry scale bias z gate).2
       (eGate d = false → eMode d = 0 → s4 = ebbF (eFunc d) (eAlpha d) s2)
       ∧ (eGate d = false → eMode d = 1 → s4 = f32Mul s2 (ebbD (eFunc d) (eAlpha d) z))
       ∧ (eGate d = false → eMode d = 2 → s4 = s2)
       ∧ (eGate d = true → eMode d = 0 → s4 = f32Mul (ebbF (eFunc d) (eAlpha d) s2) gate)))
  ∧ ((∀ func a z, f32 z = .nan → ebbF func a z = 0x7FC00000 ∧ ebbD func a z = 0x7FC00000)
     ∧ (∀ a z, f32 z ≠ .nan → ebbF 0 a z = z ∧ ebbD 0 a z = 0x3F800000
       ∧ ((FVal.fin false 0 0).lt (f32 z) = true → ebbF 1 a z = z ∧ ebbF 2 a z = z ∧ ebbD 1 a z = 0x3F800000
           ∧ ebbD 2 a z = 0x3F800000)
       ∧ ((FVal.fin false 0 0).lt (f32 z) = false → ebbF 1 a z = 0 ∧ ebbF 2 a z = f32Mul a z ∧ ebbD 1 a z = 0 ∧ ebbD 2 a z = a))
     ∧ (∀ func a, 3 ≤ func → func ≤ 5 → ebbF func a 0x7F800000 = 0x7F800000 ∧ ebbF func a 0xFF800000 = 0x80000000
       ∧ ebbD func a 0x7F800000 = 0x3F800000 ∧ ebbD func a 0xFF800000 = 0 ∧ ebbF func a 0x80000000 = 0x80000000)
     ∧ (∀ a, ebbF 6 a 0x7F800000 = 0x3F800000 ∧ ebbF 6 a 0xFF800000 = 0 ∧ ebbF 6 a 0x80000000 = 0x3F000000
       ∧ ebbF 7 a 0x7F800000 = 0x3F800000 ∧ ebbF 7 a 0xFF800000 = 0xBF800000 ∧ ebbF 7 a 0x80000000 = 0x80000000)
     ∧ (∀ func a, 6 ≤ func → func ≤ 7 → ebbD func a 0x7F800000 = 0 ∧ ebbD func a 0xFF800000 = 0))

/-- R211: GO 1 in FRY_SUBMIT_CTL puts the descriptor at the submitted address behind the Ferry's queue, for the Pilot; with 64
queued it is rejected and SUBREJ is set. GO 0 does nothing.

R200, R201, R203 to R206, R208, R209: a Ferry that runs nothing reads its oldest descriptor, checks it, and begins it. A
descriptor that fails a check stops its context with the Ferry's code, and FRY_ERR records it.

R202 to R205, R207, R208, R232 to R235: the step of a descriptor that runs: BYTES moves its next line, COMPRESS its next tile,
and both store exactly those bytes at the place in this module's memory that the destination translates to; MOVE and EXPAND
write the converted elements of their next row or tile. The descriptor goes on by one step. -/
def Obligations.Ferries : Prop :=
  (∀ (r : Requester) (f : Fin 16) (v : BitVec 32) (s : State), s.up = true →
     s.mayWrite r (Reg.FRY_SUBMIT_CTL (f / 4) (f % 4)) = true → let x := s.fry f
     (v.toNat % 2 = 1 → x.queue.length < 64 →
       Gives (.frySubmit r f v) s fun t =>
         (t.fry f).queue = x.queue ++ [⟨s.nextWork, .pilot, 0,
             s.addr48 (Reg.FRY_SUBMIT_LO (f / 4) (f % 4)) (Reg.FRY_SUBMIT_HI (f / 4) (f % 4)) / 64 * 64, false⟩]
           ∧ t.work = s.work ++ [⟨s.nextWork, 3, .pilot, 0, false, 0⟩] ∧ t.nextWork = s.nextWork + 1
           ∧ t.fld (Reg.FRY_STATUS (f / 4) (f % 4)) Fd.FRY_STATUS_QDEPTH = x.queue.length + 1
           ∧ KeepsBut [.regs, .frys, .work, .nextWork] s t ∧ RegsBut [Reg.FRY_STATUS (f / 4) (f % 4)] s t)
     ∧ (v.toNat % 2 = 1 → 64 ≤ x.queue.length →
       Gives (.frySubmit r f v) s fun t => t.bit (Reg.FRY_ERR (f / 4) (f % 4)) Fd.FRY_ERR_SUBREJ = true
         ∧ KeepsBut [.regs] s t ∧ RegsBut [Reg.FRY_ERR (f / 4) (f % 4)] s t)
     ∧ (v.toNat % 2 = 0 → Waits (.frySubmit r f v) s))
  ∧ (∀ (f : Fin 16) (i : Instr) (op : Nat) (s u : State) (o : FryOp) (rest : List FryOp) (bs : List Byte),
     (i, op) ∈ [(Instr.move f, 0), (Instr.compress f, 1), (Instr.expand f, 2), (Instr.bytes f, 3)] →
     (s.fry f).run = none → (s.fry f).queue = o :: rest →
     (o.src = .pilot ∧ u = s.touch (ferryAcc s f o 0) [⟨.mem o.addr.toNat, 64⟩]
         ∧ bs = u.peek (ferryAcc s f o 0) [⟨.mem o.addr.toNat, 64⟩]
       ∨ o.src ≠ .pilot ∧ s.fetchVa (ferryAcc s f o 0) o.addr 64 = (.ok bs, u)) →
     let d := leNat bs
     fOp d = op →
     (∀ a b v, (u.ferryTake f o rest d).ferryCheck f o d = (.ok (a, b), v) → 0 < ferrySteps d (fInPlace d a b && fOp d == 0) →
       Settles i s fun t => (t.fry f).run = some ⟨o, d, [a, b], 0, 0, false⟩ ∧ (t.fry f).queue = rest
         ∧ t.bit (Reg.FRY_STATUS (f / 4) (f % 4)) Fd.FRY_STATUS_BUSY = true ∧ (∀ x, t.byte x = s.byte x))
     ∧ (∀ code v p c w, (u.ferryTake f o rest d).ferryCheck f o d = (.error code, v) → o.src = .ctx p c → c < 2 →
       v.findWork o.id = some w → w.src = .ctx p c → (∀ g ∈ rest, g.id ≠ o.id) →
       Settles i s fun t => t.ctxSt p c = 5 ∧ t.bit (Reg.FRY_ERR (f / 4) (f % 4)) Fd.FRY_ERR_FAULT = true
         ∧ (∀ g ∈ (t.fry f).queue, g.src ≠ .ctx p c) ∧ (∀ x, t.byte x = s.byte x)))
  ∧ (∀ (f : Fin 16) (s : State) (r : FryRun) (w : Work), (s.fry f).run = some r → r.failed = false →
     s.findWork r.op.id = some w → w.done = false → s.bit Reg.ISL_SWAP_CTL Fd.ISL_SWAP_CTL_GO = false →
     let d := r.desc
     let A := ferryAcc s f r.op d
     (∀ bs u v pa, fOp d = 3 → fRemote d = false → r.op.drain = false → s.fetchVa A (fSva d + 64 * r.pos : Nat) 64 = (.ok bs, u) →
       u.vaPieces A (fDaddr d + 64 * r.pos : Nat) 64 true = (.ok [⟨.mem pa, 64⟩], v) → v.accessKind pa true = 0 →
       pa < 2 ^ 63 →
       Settles (.bytes f) s fun t => t.bytes pa 64 = bs ∧ BytesBut pa 64 s t
         ∧ (r.pos + 1 < ferrySteps d false → (t.fry f).run = some { r with pos := r.pos + 1, bytes := r.bytes + 64 }))
     ∧ (∀ es u v pa, fOp d = 1 →
       s.ferryRead A (r.chart 0) ((tileElems d r.pos).map (sumCoord (fSorg d))) = (some (es, none), u) →
       let x := sumCoord (fDorg d) (tileIdx d r.pos)
       let b := r.chart 1
       let z := (tileBytes b.fmt (u.ferryThresh r.op d) (es.map (·.pat)))
       b.inBounds x = true →
       u.chartPieces A b (b.slotOff x) ((b.base : Int) + b.slotOff x) z.1.length true = (.ok [⟨.mem pa, z.1.length⟩], v) →
       v.accessKind pa true = 0 → pa < 2 ^ 63 →
       Settles (.compress f) s fun t => t.bytes pa z.1.length = z.1 ∧ BytesBut pa z.1.length s t
         ∧ (r.pos + 1 < tileCount d → (t.fry f).run = some { r with pos := r.pos + 1, bytes := r.bytes + z.1.length }))
     ∧ (∀ es u v wb, fOp d = 0 → fInPlace d (r.charts.getD 0 0) (r.charts.getD 1 0) = false → fmtIsMx (r.chart 1).fmt = false →
       s.ferryRead A (r.chart 0) ((moveRow d r.pos).map fun x => sumCoord (fSorg d) (srcIdx d x)) = (some (es, none), u) →
       u.ferryElems A f (r.chart 1) ((((moveRow d r.pos).map (sumCoord (fDorg d))).zip es).map fun xe =>
         (xe.1, ferryPat u d (r.chart 0).fmt (r.chart 1) xe.1 xe.2)) = (none, wb, v) →
       exec (.move f) s = .next (tideCheck (v.ferryStep f r A wb (ferrySteps d false) none)))
     ∧ (∀ u v wb sl tl, fOp d = 2 → (r.chart 0).inBounds (sumCoord (fSorg d) (tileIdx d r.pos)) = true →
       s.readSlots A (r.chart 0) false (fun _ => false) [(r.chart 0).slotOff (sumCoord (fSorg d) (tileIdx d r.pos))]
         = (.ok [sl], u) → sl.tile = some tl →
       u.ferryElems A f (r.chart 1) (((tileElems d r.pos).map (sumCoord (fDorg d))).zip
         ((((tileElems d r.pos).map (sumCoord (fSorg d))).zip tl.vals).map fun xv =>
           if (r.chart 0).inBounds xv.1 then xv.2 else (r.chart 0).fillElem.pat)) = (none, wb, v) →
       exec (.expand f) s = .next (tideCheck (v.ferryStep f r A wb (tileCount d) none))))

/-- R204, R232 to R235, R242: what a COMPRESS writes, an EXPAND reads: the tile's 1,024 patterns come back, where a packed tile's
zeros of either sign come back as +0 and a DENSE tile's patterns all come back as they were. -/
def Obligations.TileRoundTrip : Prop :=
  ∀ (fmt thresh : Nat) (vals : List Nat), fmt ≤ 7 → fmtIsMx fmt = false → vals.length = 1024 →
    (∀ v ∈ vals, v < 2 ^ fmtBits fmt) →
    let z := tileBytes fmt thresh vals
    let t := decodeTile (fmtBytes fmt) (z.1.take 16) (z.1.drop 16)
    (z.2 = true → t.dense = true ∧ t.vals = vals)
    ∧ (z.2 = false → t.dense = false
      ∧ t.vals = vals.map fun v => if v = 0 ∨ (fmt ≠ 7 ∧ v % 2 ^ (fmtBits fmt - 1) = 0) then 0 else v)

/-- R216 to R218, R244 to R246: a Shoal that runs nothing reads the descriptor of its oldest operation, checks it and reads its
lists; it then runs it, or, with COUNT 0, completes it. A descriptor that fails a check stops the context and is recorded.

R219 to R222, R227, R230, R231: an entry of GATHER, SCATTER, PACK and UNPACK reads its source row on its lane and sends its
converted elements to its destination row, and the operation goes on to the next entry. An entry of PACK beyond its expert's
capacity writes nothing and counts; one of UNPACK writes zeros. An empty segment of SEGRED writes FILL. -/
def Obligations.ShoalBeginsAndMoves : Prop :=
  (∀ (p : Fin 144) (i : ShoalPhase → Instr) (sop : Nat) (s u v : State) (o : ShoalOp) (rest : List ShoalOp) (bs : List Byte),
     (i, sop) ∈ [(Instr.gather p, 0), (Instr.scatter p, 1), (Instr.shoalMerge p, 2), (Instr.segred p, 3), (Instr.topk p, 4),
       (Instr.pack p, 5), (Instr.unpack p, 6), (Instr.spmm p, 7)] →
     (s.isl p).shl = none → (s.isl p).shlq = o :: rest → o.sop = sop → s.fetchVa (shoalAcc s p o) o.desc 64 = (.ok bs, u) →
     let d := leNat bs
     (∀ cs ls x, u.shoalCheck p o d = (.ok cs, v) → 0 < sCount d → v.shoalLists (shoalAcc u p o) sop d = (.ok ls, x) →
       overlapping (shoalRegions sop d (cs.map parseChart) ls).1 (shoalRegions sop d (cs.map parseChart) ls).2 = false →
       (sop ≠ 4 ∨ sCclr d = false) →
       Settles (i .run) s fun t => (t.isl p).shl = some ⟨o, d, cs, ls, 0, [], false⟩ ∧ (t.isl p).shlq = rest
         ∧ t.bit (Reg.SHL_STATUS p) Fd.SHL_STATUS_BUSY = true ∧ t.fld (Reg.SHL_STATUS p) Fd.SHL_STATUS_SOP = sop
         ∧ (∀ y, t.byte y = s.byte y))
     ∧ (∀ cs w, u.shoalCheck p o d = (.ok cs, v) → sCount d = 0 → (sop ≠ 4 ∨ sCclr d = false) →
       v.findWork o.id = some w → w.src = .ctx p o.c → w.out = 0 → w.cls = 2 →
       Settles (i .run) s fun t => (t.isl p).shl = none ∧ (t.isl p).shlq = rest
         ∧ (t.reg (Reg.SHL_CNT_OPS p)).toNat = min ((v.reg (Reg.SHL_CNT_OPS p)).toNat + 1) 0xFFFFFFFF
         ∧ (∀ y, t.byte y = s.byte y))
     ∧ (∀ code w, u.shoalCheck p o d = (.error code, v) → v.findWork o.id = some w → w.src = .ctx p o.c → o.c < 2 →
       (∀ x ∈ rest, x.id ≠ o.id) →
       Settles (i .run) s fun t => t.ctxSt p o.c = 5 ∧ t.bit (Reg.SHL_ERR p) Fd.SHL_ERR_FAULT = true
         ∧ (∀ x ∈ (t.isl p).shlq, x.c ≠ o.c) ∧ (∀ y, t.byte y = s.byte y)))
  ∧ (∀ (p : Fin 144) (s : State) (r : ShoalRun) (w : Work), (s.isl p).shl = some r → r.failed = false →
     s.findWork r.op.id = some w → w.done = false →
     let d := r.desc
     let sop := r.op.sop
     let A := shoalAcc s p r.op
     let m := sMrg sop d
     let row := entryRows sop d r.lists r.pos
     (∀ (i : ShoalPhase → Instr) xs l u v, (i, sop) ∈ [(Instr.gather p, 0), (Instr.scatter p, 1), (Instr.pack p, 5),
         (Instr.unpack p, 6)] → row.1 = some xs → s.laneRead A p r (r.pos % 32) (r.chart 0) xs = (some l, u) → l.fail = none →
       (u.shoalRunning p l.run).dstElems A p (r.chart 1) m {} ((row.2.zip l.vals).map fun xv =>
         (xv.1, shoalPat (u.shoalRunning p l.run) d (r.chart 1) m.mop xv.1 xv.2)) = (none, v) →
       exec (i .run) s = .next (tideCheck (v.shoalNext p l.run (sCount d))))
     ∧ (sop = 5 → (r.lists.getD 2 []).getD r.pos 0 ≤ (r.lists.getD 1 []).getD r.pos 0 → r.pos + 1 < sCount d →
       Settles (.pack p .run) s fun t => (t.isl p).shl = some { r with pos := r.pos + 1 }
         ∧ (t.reg (Reg.SHL_CNT_CAPDROP p)).toNat = min ((s.reg (Reg.SHL_CNT_CAPDROP p)).toNat + 1) 0xFFFFFFFF
         ∧ KeepsBut [.regs, .isls, .remLines] s t ∧ RegsBut [Reg.SHL_CNT_CAPDROP p] s t)
     ∧ (∀ v, sop = 6 → (r.lists.getD 2 []).getD r.pos 0 ≤ (r.lists.getD 1 []).getD r.pos 0 →
       s.dstElems A p (r.chart 1) m {} ((rowCoords (sDorg d) (sRowlen d) r.pos 0).map fun x => (x, 0)) = (none, v) →
       exec (.unpack p .run) s = .next (tideCheck (v.shoalNext p r (sCount d))))
     ∧ (∀ v, sop = 3 → let lo := (r.lists.getD 0 []).getD r.pos 0
       let hi := (r.lists.getD 0 []).getD (r.pos + 1) 0
       let c := r.chart 1
       hi ≤ lo → (if hi < lo then s.count (Reg.SHL_CNT_SEGBAD p) 1 else s).dstElems A p c (sMrg 3 d) {}
         ((rowCoords (sDorg d) (sRowlen d) r.pos 0).map fun x => (x, c.fill % 2 ^ fmtBits c.fmt)) = (none, v) →
       exec (.segred p .run) s = .next (tideCheck (v.shoalNext p r (sCount d)))))

/-- R226: MERGE takes the smaller head key, list A first where they are equal: its output holds every key of both lists with where
it came from; if both lists are sorted it is sorted; and keys of one list keep their order.

R228: TOPK's rank orders experts: of two experts exactly one ranks first; a higher score does, then the lower expert; NaN
ranks below every number; so the ranks of a token's experts are all different.

R221 to R223, R225, R273: a merge unit applies the oldest operation at its lines, unless an older one at one of them waits at
another unit (log entry 118): each element becomes what WRITE, ADD or MAX makes of it, no other byte of memory changes, and
the operation leaves the queue; one whose tag does not match its slot's is discarded, and counts. -/
def Obligations.ShoalOrder : Prop :=
  (∀ (a b : List Nat), a.length ≤ 2 ^ 31 → b.length ≤ 2 ^ 31 →
     let ks := mergeKeys (a.length + b.length) a b 0 0
     ks.length = a.length + b.length
     ∧ (ks.map (·.1)).Perm (a ++ b)
     ∧ (ks.filter fun k => decide (k.2 < 2 ^ 31)) = (List.range a.length).map (fun i => (a.getD i 0, i))
     ∧ (ks.filter fun k => decide (2 ^ 31 ≤ k.2)) = (List.range b.length).map (fun j => (b.getD j 0, 2 ^ 31 + j))
     ∧ (a.Pairwise (· ≤ ·) → b.Pairwise (· ≤ ·) → (ks.map (·.1)).Pairwise (· ≤ ·)))
  ∧ ((∀ a b i j, i ≠ j → ranksBefore a i b j = !ranksBefore b j a i)
     ∧ (∀ a b i j, a ≠ .nan → ranksBefore a i .nan j = true ∧ (b ≠ .nan → b.lt a = true → ranksBefore a i b j = true))
     ∧ (∀ (sc : List FVal) i j, i < sc.length → j < sc.length → rankOf sc i = rankOf sc j → i = j))
  ∧ (∀ (p : Fin 144) (u : Fin 16) (s : State) (o : LineOp), (s.isl p).mergeNext u = some o →
     s.bit Reg.ISL_SWAP_CTL Fd.ISL_SWAP_CTL_GO = false →
     let gone (t : State) : Prop := (t.isl p).mergeq.map (fun k => { k with answer := none })
       = ((s.isl p).mergeq.erase o).map fun k => { k with answer := none }
     (o.gchk = false ∨ s.fld (Reg.SHL_GEN p o.tslot) Fd.SHL_GEN_TAG = o.tag → (∀ a ∈ o.allBytes, s.accessKind a true = 0) →
       o.allBytes.Nodup →
       Settles (.mergeUnitOperation p u) s fun t => gone t
         ∧ (∀ i ∈ o.items, (o.bytesAt i.1).map t.byte
             = leBytes o.eb (mergeVal o.mop (leNat ((o.bytesAt i.1).map s.byte)) i.2))
         ∧ (∀ a, a ∉ o.allBytes → t.byte a = s.byte a)
         ∧ (t.reg (Reg.SHL_CNT_MERGE p)).toNat = min ((s.reg (Reg.SHL_CNT_MERGE p)).toNat + 1) 0xFFFFFFFF)
     ∧ (o.gchk = true → s.fld (Reg.SHL_GEN p o.tslot) Fd.SHL_GEN_TAG ≠ o.tag →
       Settles (.mergeUnitOperation p u) s fun t => gone t
         ∧ (t.reg (Reg.SHL_CNT_STALE p)).toNat = min ((s.reg (Reg.SHL_CNT_STALE p)).toNat + 1) 0xFFFFFFFF
         ∧ (∀ a, t.byte a = s.byte a))
     ∧ (∀ old v, mergeVal 0 old v = v ∧ mergeVal 1 old v = f32Add old v
       ∧ (f32 old = .nan ∨ f32 v = .nan → mergeVal 2 old v = 0x7FC00000)
       ∧ mergeVal 2 0x80000000 0 = 0 ∧ mergeVal 2 0 0x80000000 = 0))

/-- R24, R25, R32, R518: a write of ISL_LMAP and of ISL_POLICY, and the Placer at start-up. While a program is loaded PHYS and the
policy stay. Otherwise ISL_PSTATE follows the bindings: an Island that an entry of its home Quarter binds is ACTIVE under that
logical number, and an ACTIVE Island that none binds becomes SPARE. At start-up the i-th healthy Island of a Quarter is bound
to the Quarter's i-th logical Island; a pinned entry keeps its own, and does so at a load too (R9; DESIGN CHOICE where it is
not valid, log entry 24).

R466: ISL_TEST_CTL moves a SPARE to TESTING, a TESTING Island to SPARE, and a SPARE or TESTING one to RETIRED, and each change
increments the Island's SEQ (R518); any other command sets REJ and changes no Island. -/
def Obligations.BindingsAndIslandTests : Prop :=
  (∀ (r : Requester) (l : Fin 136) (v : BitVec 32) (s : State), s.up = true →
     (s.mayWrite r (Reg.ISL_LMAP l) = true → s.loaded = true →
       Gives (.islLmapWrite r l v) s fun t => t.lmapPhys l = s.lmapPhys l ∧ t.lmapPin l = (bitsOf v.toNat 9 9 == 1)
         ∧ KeepsBut [.regs] s t ∧ RegsBut [Reg.ISL_LMAP l] s t)
     ∧ (s.mayWrite r (Reg.ISL_LMAP l) = true → s.loaded = false →
       let w := s.swWrite (Reg.ISL_LMAP l) v
       Gives (.islLmapWrite r l v) s fun t => t.lmapPhys l = bitsOf v.toNat 7 0
         ∧ (∀ j : Fin 136, j ≠ l → t.lmapPhys j = s.lmapPhys j)
         ∧ (∀ p : Fin 144, (∀ b : Nat, w.binder p = some b → t.pstate p = 1 ∧ t.logicalOf p = b)
             ∧ (w.binder p = none → t.pstate p = if s.pstate p = 1 then 2 else s.pstate p))
         ∧ KeepsBut [.regs] s t)
     ∧ (s.mayWrite r Reg.ISL_POLICY = true → (s.loaded = true ∨ v.toNat % 4 = 3) → Waits (.islPolicyWrite r v) s)
     ∧ (s.mayWrite r Reg.ISL_POLICY = true → s.loaded = false → v.toNat % 4 ≠ 3 →
       Gives (.islPolicyWrite r v) s fun t => t.fld Reg.ISL_POLICY Fd.ISL_POLICY_POLICY = v.toNat % 4
         ∧ (∀ j : Fin 136, t.lmapPhys j = s.lmapPhys j) ∧ KeepsBut [.regs] s t)
     ∧ (∀ pol : BitVec 2, s.loaded = true → Waits (.placerBind true pol) s)
     ∧ (∀ pol : BitVec 2, s.loaded = false →
       Gives (.placerBind false pol) s fun t =>
         (∀ j : Fin 136, s.lmapPin j = true → t.lmapPhys j = s.lmapPhys j)
         ∧ ((∀ j : Fin 136, s.lmapPin j = false) → ∀ (q : Fin 4) (i p : Nat), i < s.perQuarter → (s.healthy q)[i]? = some p →
             t.lmapPhys (q * s.perQuarter + i) = p ∧ t.pstate p = 1 ∧ t.logicalOf p = q * s.perQuarter + i)
         ∧ KeepsBut [.regs, .events] s t)
     ∧ (∀ pol : BitVec 2, s.loaded = false →
       Gives (.placerBind true pol) s fun t => (∀ j : Fin 136, s.lmapPin j = true → t.lmapPhys j = s.lmapPhys j)
         ∧ t.fld Reg.ISL_POLICY Fd.ISL_POLICY_POLICY = (if pol.toNat = 3 then s.fld Reg.ISL_POLICY Fd.ISL_POLICY_POLICY
           else pol.toNat)
         ∧ KeepsBut [.regs, .events] s t))
  ∧ (∀ (r : Requester) (p : Fin 144) (s : State), s.up = true → s.mayWrite r Reg.ISL_TEST_CTL = true →
     s.bit Reg.ISL_SWAP_CTL Fd.ISL_SWAP_CTL_GO = false →
     let moved (n : Nat) (t : State) : Prop := t.pstate p = n
       ∧ t.fld (Reg.ISL_PSTATE p) Fd.ISL_PSTATE_SEQ = (s.fld (Reg.ISL_PSTATE p) Fd.ISL_PSTATE_SEQ + 1) % 65536
       ∧ (∀ j : Fin 144, j ≠ p → t.reg (Reg.ISL_PSTATE j) = s.reg (Reg.ISL_PSTATE j)) ∧ KeepsBut [.regs, .isls] s t
     let rejected (t : State) : Prop := t.bit Reg.ISL_TEST_CTL Fd.ISL_TEST_CTL_REJ = true ∧ KeepsBut [.regs] s t
       ∧ RegsBut [Reg.ISL_TEST_CTL] s t
     (s.pstate p = 2 → Gives (.test r p) s fun t => moved 3 t ∧ t.isls = s.isls)
     ∧ (s.pstate p = 3 → Gives (.release r p) s fun t => moved 2 t ∧ t.isls = s.isls)
     ∧ (s.pstate p = 2 ∨ s.pstate p = 3 → Gives (.retire r p) s (moved 6))
     ∧ (s.pstate p ≠ 2 → Gives (.test r p) s rejected)
     ∧ (s.pstate p ≠ 3 → Gives (.release r p) s rejected)
     ∧ (s.pstate p ≠ 2 → s.pstate p ≠ 3 → Gives (.retire r p) s rejected))

/-- R26, R28, R31, R32: GO starts the swap of an ACTIVE Island into a SPARE of its Quarter while a program is loaded; any other GO
sets REJ and changes no state of an Island. ABORT gives the Islands their states back.

R28, R30, R516: a swap copies one line of 256 bytes, program memory before Lagoon, and after the last one sets COPIED; an
uncorrectable codeword abandons it and sets REJ. A release ends the hold.

R516: a release ends the hold of an applied swap: HOLD clears and, if the Tide waits for it, the Islands start it. The Pilot's
release first drops every cached translation and Chart. -/
def Obligations.SpareSwap : Prop :=
  (∀ (r : Requester) (v : BitVec 32) (s : State), s.up = true → s.mayWrite r Reg.ISL_SWAP_CTL = true →
     bitsOf v.toNat 22 22 = 0 →
     let src := bitsOf v.toNat 7 0
     let dst := bitsOf v.toNat 15 8
     let busy := s.bit Reg.ISL_SWAP_CTL Fd.ISL_SWAP_CTL_GO
     let ok := s.loaded = true ∧ src < 144 ∧ dst < 144 ∧ quarterOf src = quarterOf dst ∧ s.pstate src = 1 ∧ s.pstate dst = 2
       ∧ (s.logicalOf src < 136 → s.lmapPin (s.logicalOf src) = false) ∧ bitsOf v.toNat 21 20 ≠ 3
     (bitsOf v.toNat 19 19 = 0 → busy = false → ok →
       Gives (.swapGo r v) s fun t => t.pstate src = 4 ∧ t.pstate dst = 5 ∧ t.bit Reg.ISL_SWAP_CTL Fd.ISL_SWAP_CTL_GO = true
         ∧ t.bit Reg.ISL_SWAP_CTL Fd.ISL_SWAP_CTL_COPIED = false ∧ t.fld Reg.ISL_SWAP_CTL Fd.ISL_SWAP_CTL_SRC = src
         ∧ t.fld Reg.ISL_SWAP_CTL Fd.ISL_SWAP_CTL_DST = dst ∧ t.reg Reg.ISL_SWAP_CURSOR = 0
         ∧ RegsBut [Reg.ISL_SWAP_CTL, Reg.ISL_SWAP_CURSOR, Reg.ISL_PSTATE src, Reg.ISL_PSTATE dst] s t
         ∧ (s.fw.trace.contains 0x020 = false → KeepsBut [.regs] s t))
     ∧ (bitsOf v.toNat 19 19 = 0 → busy = true ∨ ¬ok →
       Gives (.swapGo r v) s fun t => t.bit Reg.ISL_SWAP_CTL Fd.ISL_SWAP_CTL_REJ = true
         ∧ t.bit Reg.ISL_SWAP_CTL Fd.ISL_SWAP_CTL_GO = busy ∧ KeepsBut [.regs] s t ∧ RegsBut [Reg.ISL_SWAP_CTL] s t)
     ∧ (busy = true → s.swapFld Fd.ISL_SWAP_CTL_SRC ≠ s.swapFld Fd.ISL_SWAP_CTL_DST →
       Gives (.swapAbort r v) s fun t => t.bit Reg.ISL_SWAP_CTL Fd.ISL_SWAP_CTL_GO = false
         ∧ t.pstate (s.swapFld Fd.ISL_SWAP_CTL_SRC) = 1 ∧ t.pstate (s.swapFld Fd.ISL_SWAP_CTL_DST) = 2
         ∧ t.bit Reg.ISL_SWAP_CTL Fd.ISL_SWAP_CTL_COPIED = false ∧ KeepsBut [.regs, .fw] s t
         ∧ RegsBut [Reg.ISL_SWAP_CTL, Reg.ISL_PSTATE (s.swapFld Fd.ISL_SWAP_CTL_SRC),
             Reg.ISL_PSTATE (s.swapFld Fd.ISL_SWAP_CTL_DST)] s t))
  ∧ (∀ (s : State), s.bit Reg.ISL_SWAP_CTL Fd.ISL_SWAP_CTL_GO = true → s.bit Reg.ISL_SWAP_CTL Fd.ISL_SWAP_CTL_COPIED = false →
     let src := s.swapFld Fd.ISL_SWAP_CTL_SRC
     let dst := s.swapFld Fd.ISL_SWAP_CTL_DST
     let n := s.fld Reg.ISL_SWAP_CURSOR Fd.ISL_SWAP_CURSOR_LINES
     let a (p : Nat) : Nat := if n < 1024 then 0xA0000000 + p * 0x40000 + 256 * n else 0x40000000 + p * 0x800000 + 256 * (n - 1024)
     src < 144 → dst < 144 → n < 33792 →
     ((∀ i, i < 8 → s.cwAt (a src + 32 * i) = .ok ∨ ∃ sym, s.cwAt (a src + 32 * i) = .ce sym) →
       Gives .swapCopyLine s fun t => t.bytes (a dst) 256 = s.bytes (a src) 256 ∧ BytesBut (a dst) 256 s t
         ∧ (∀ i, i < 8 → src ≠ dst → t.cwAt (a dst + 32 * i) = .ok)
         ∧ t.fld Reg.ISL_SWAP_CURSOR Fd.ISL_SWAP_CURSOR_LINES = n + 1
         ∧ t.bit Reg.ISL_SWAP_CTL Fd.ISL_SWAP_CTL_COPIED = decide (n + 1 = 33792))
     ∧ ((∃ i, i < 8 ∧ (s.cwAt (a src + 32 * i) = .ue ∨ s.cwAt (a src + 32 * i) = .poison)) → src ≠ dst →
       Gives .swapCopyLine s fun t => t.bit Reg.ISL_SWAP_CTL Fd.ISL_SWAP_CTL_GO = false
         ∧ t.bit Reg.ISL_SWAP_CTL Fd.ISL_SWAP_CTL_REJ = true ∧ t.pstate src = 1 ∧ t.pstate dst = 2 ∧ (∀ x, t.byte x = s.byte x)))
  ∧ (∀ (r : Requester) (s : State), s.up = true → s.mayWrite r Reg.ISL_SWAP_CTL = true →
     s.bit Reg.ISL_SWAP_CTL Fd.ISL_SWAP_CTL_HOLD = true →
     ((∀ c, r ≠ .pilot c) → Settles (.swapRelease r) s fun t => t.bit Reg.ISL_SWAP_CTL Fd.ISL_SWAP_CTL_HOLD = false
         ∧ t.tide.held = false
         ∧ (s.tide.held = false → KeepsBut [.regs] s t ∧ RegsBut [Reg.ISL_SWAP_CTL] s t)
         ∧ (s.tide.held = true → ∃ u : State, u.tide = { s.tide with held := false } ∧ t = u.islsStart
             ∧ KeepsBut [.regs, .tide] s u ∧ RegsBut [Reg.ISL_SWAP_CTL] s u))
     ∧ (∀ c, r = .pilot c → Settles (.swapRelease r) s fun t => t.bit Reg.ISL_SWAP_CTL Fd.ISL_SWAP_CTL_HOLD = false
         ∧ t.tide.held = false ∧ (∀ q : Fin 4, (t.qtr q).tlb = []) ∧ (∀ p : Fin 144, (t.isl p).charts = [])))

/-- R193, R210: CHT_INV sets GO until the invalidation completes; then the translations, the Charts or both, of the context or of
every context, are gone from the Quarter, GO clears and DONE is set.

R194, R195, R210: the validation of a T1 descriptor answers 5 for a context without a page table, 1 for a format that T1 does
not have, and, for a descriptor whose pages follow each other, 0 with the T2 Chart stored in its slot; DONE is set each time. -/
def Obligations.InvalidationAndT1 : Prop :=
  (∀ (r : Requester) (q : Fin 4) (v : BitVec 32) (s : State),
     (s.up = true → s.mayWrite r (Reg.CHT_INV q) = true →
       Gives (.chtInv r q v) s fun t => t.bit (Reg.CHT_INV q) Fd.CHT_INV_GO = true
         ∧ t.fld (Reg.CHT_INV q) Fd.CHT_INV_CTX = v.toNat % 16 ∧ t.fld (Reg.CHT_INV q) Fd.CHT_INV_SCOPE = bitsOf v.toNat 5 4
         ∧ KeepsBut [.regs] s t ∧ RegsBut [Reg.CHT_INV q] s t)
     ∧ (s.bit (Reg.CHT_INV q) Fd.CHT_INV_GO = true →
       let c := s.fld (Reg.CHT_INV q) Fd.CHT_INV_CTX
       let k := s.fld (Reg.CHT_INV q) Fd.CHT_INV_SCOPE
       Gives (.chtInvDone q) s fun t => t.bit (Reg.CHT_INV q) Fd.CHT_INV_GO = false
         ∧ t.bit (Reg.CHT_INV q) Fd.CHT_INV_DONE = true
         ∧ (t.qtr q).tlb = (s.qtr q).tlb.filter (fun e => k == 1 || (k != 3 && e.ctx != c))
         ∧ (∀ n : Fin 36, (t.isl (36 * q + n)).charts
             = (s.isl (36 * q + n)).charts.filter fun e => k == 0 || (k != 3 && e.ctx != c))
         ∧ KeepsBut [.regs, .isls, .qtrs] s t ∧ RegsBut [Reg.CHT_INV q] s t))
  ∧ (∀ (r : Requester) (q : Fin 4) (v : BitVec 32) (s : State), s.up = true → s.mayWrite r (Reg.CHT_T1_CTL q) = true →
     let ctx := v.toNat % 16
     let slot := s.chartEntry q ctx (bitsOf v.toNat 11 4) (bitsOf v.toNat 17 12)
     let src := s.addr48 (Reg.CHT_T1_SRC_LO q) (Reg.CHT_T1_SRC_HI q)
     let d := parseT1 (leNat (s.bytes src 48))
     let root := (s.reg (Reg.CHT_CTX_PT_ROOT q ctx)).toNat % 2
     let done (t : State) (st : Nat) : Prop := t.bit (Reg.CHT_T1_CTL q) Fd.CHT_T1_CTL_DONE = true
       ∧ t.fld (Reg.CHT_T1_CTL q) Fd.CHT_T1_CTL_STATUS = st
     (root = 0 → Gives (.t1Validation r q v) s fun t => done t 5 ∧ (∀ x, t.byte x = s.byte x))
     ∧ (root = 1 → t1Fmt d.fmt = none → Gives (.t1Validation r q v) s fun t => done t 1 ∧ (∀ x, t.byte x = s.byte x))
     ∧ (∀ e fmt, root = 1 → t1Fmt d.fmt = some (e, fmt) → 1 ≤ d.ndim → d.ndim ≤ 4 → (∀ n ∈ d.size.take d.ndim, n ≠ 0) →
       d.base + d.extent e ≤ 2 ^ 52 → d.extent e ≤ 2 ^ 44 → s.bit Reg.ISL_SWAP_CTL Fd.ISL_SWAP_CTL_GO = false →
       (s.t1Walk q ctx d.wr ((d.base + d.extent e - 1) / 2 ^ 21 - d.base / 2 ^ 21 + 1) d.base (s.walkAddr q ctx d.base) s).1 = 0 →
       Gives (.t1Validation r q v) s fun t => done t 0
         ∧ t.memNat slot 128 = d.entry fmt ctx (s.walkAddr q ctx d.base) % 256 ^ 128 ∧ BytesBut slot 128 s t))

/-- R291, R292: a flit that is sent is read back with its KIND, SEQ, ACK, NAK and body, and its CRC holds. R307: so is every
well-formed message, and its first word gives its size. R289, R304: a codeword that is spread over the active lanes, with or
without a spared one, is put together again from them; its first 514 symbols are the data (R288). -/
def Obligations.LinkCodecs : Prop :=
  (∀ (kind seq ack : Nat) (nak : Bool) (body : List Byte), kind < 3 → seq < 4096 → ack < 4096 → body.length = 244 →
    let f := flitBytes kind seq ack nak body
    f.length = 256 ∧ flitOk f = true ∧ flitKind f = kind ∧ flitSeq f = seq ∧ flitAck f = ack ∧ flitNak f = nak
      ∧ flitBody f = body)
    ∧ (∀ m : Msg, m.wf = true → Msg.decode m.encode = m ∧ m.encode.length = m.size
      ∧ headerSize (leNat (m.encode.take 4)) = m.size)
    ∧ (∀ (spared : Nat) (data : List Nat), data.length = 514 → (rsCodeword data).length = 544
      ∧ (rsCodeword data).take 514 = data
      ∧ gatherLanes spared (spreadLanes spared (rsCodeword data)) = rsCodeword data
      ∧ ∀ l < 9, ((spreadLanes spared (rsCodeword data)).getD l []).length = if l = spared ∨ (l = 8 ∧ 8 ≤ spared) then 0 else 68)

/-- R292 to R296, R301, R313: what a port that carries flits sends at its next position: in a CTRL position a CTRL flit with the
SUB whose turn it is; in MAINT an IDLE flit; during a replay the flit to be sent again; otherwise a DATA flit with the message
bytes that wait, which joins the replay buffer under the next number, or an IDLE flit. A port that carries none sends none. -/
def Obligations.FlitsSent : Prop :=
  ∀ (k : Fin 16) (s : State), let x := s.port k
    let sent (kind seq : Nat) (body : List Byte) (t : State) : Prop :=
      (t.port k).lastTx = flitBytes kind seq x.ack x.nak body ∧ (t.port k).nak = false ∧ (t.port k).flitPos = x.flitPos + 1
        ∧ (∀ a, t.byte a = s.byte a) ∧ (∀ j : Fin 16, j ≠ k → t.port j = s.port j)
    (s.flitsFlow k = false → Settles (.flitTransmit k) s fun t => t = s)
    ∧ (s.flitsFlow k = true → x.flitPos % 128 = 127 → x.leaving = none →
      Settles (.flitTransmit k) s fun t => sent 2 0 (ctrlBody x.granted (x.subs.headD {})) t
        ∧ (t.port k).subs = x.subs.drop 1 ++ x.subs.take 1 ∧ KeepsBut [.ports] s t)
    ∧ (∀ off, s.flitsFlow k = true → x.flitPos % 128 = 127 → x.leaving = some off →
      Settles (.flitTransmit k) s fun t => t.portSt k = if off then 0 else 6)
    ∧ (s.flitsFlow k = true → x.flitPos % 128 ≠ 127 → s.portSt k = 5 →
      Settles (.flitTransmit k) s fun t => sent 0 0 [] t ∧ KeepsBut [.ports] s t)
    ∧ (∀ i seq body, s.flitsFlow k = true → x.flitPos % 128 ≠ 127 → s.portSt k ≠ 5 → x.replayAt = some i →
      x.replay[i]? = some (seq, body) →
      Settles (.flitTransmit k) s fun t => sent 1 seq body t ∧ (t.port k).replay = x.replay ∧ KeepsBut [.ports, .regs] s t)
    ∧ (s.flitsFlow k = true → x.flitPos % 128 ≠ 127 → s.portSt k ≠ 5 → x.replayAt = none → x.replay.length < 1024 →
      244 ≤ x.txStream.length →
      Settles (.flitTransmit k) s fun t => sent 1 x.txSeq (x.txStream.take 244) t
        ∧ (t.port k).replay = x.replay ++ [(x.txSeq, x.txStream.take 244)] ∧ (t.port k).txSeq = (x.txSeq + 1) % 4096
        ∧ (t.port k).txStream = x.txStream.drop 244 ∧ KeepsBut [.ports, .regs] s t)
    ∧ (s.flitsFlow k = true → x.flitPos % 128 ≠ 127 → s.portSt k ≠ 5 → x.replayAt = none → x.txStream = [] →
      (∀ q ∈ x.txq, q = []) → Settles (.flitTransmit k) s fun t => sent 0 0 [] t ∧ KeepsBut [.ports] s t)

/-- R292, R294, R295, R296, R300: what a received flit does: one that is unreadable, by its CRC or by a codeword with more than 15
symbols in error (R288), counts, and NAK is called for where its position should have held ACK + 1 (log entry 88); a DATA flit
in sequence is accepted, and one out of sequence changes neither ACK nor the count of flits received; a CTRL flit carries the
latest credits; and the ACK of every readable flit frees the replay buffer up to it.

R296, R297: a NAK, and a flit unacknowledged for RETRY_TO, start a replay from the flit after ACK, which counts; a NAK for the
ACK of a replay that runs changes nothing. At RETRY_LIMIT the port retrains. -/
def Obligations.FlitsReceivedAndReplayed : Prop :=
  (∀ (k : Fin 16) (flit : List (BitVec 8)) (fec : List FecWord) (s : State), let x := s.port k
     let clean : Prop := s.fecBad k fec = []
     s.flitsFlow k = true → flit.length = 256 →
     (∀ i : Instr, i ∈ [Instr.dataFlit k flit fec, .ctrlFlit k flit fec, .idleFlit k flit fec] →
       ¬clean ∨ flitOk flit = false →
       Settles i s fun t => (t.port k).ack = x.ack ∧ (t.port k).rxq = x.rxq ∧ (t.port k).replay = x.replay
         ∧ (t.port k).nak = (x.nak || (if flitOk flit then flitKind flit == 1 && flitSeq flit == (x.ack + 1) % 4096
             else x.rxExp == (x.ack + 1) % 4096))
         ∧ (t.reg (Reg.STR_CNT_CRC (portQ k) (portK k))).toNat
             = min ((s.reg (Reg.STR_CNT_CRC (portQ k) (portK k))).toNat + 1) 0xFFFFFFFF
         ∧ (¬clean → t.bit (Reg.STR_ERR (portQ k) (portK k)) Fd.STR_ERR_FEC_UE = true)
         ∧ KeepsBut [.regs, .ports, .events] s t)
     ∧ (clean → flitOk flit = true → flitKind flit = 1 → flitSeq flit = (x.ack + 1) % 4096 →
       Settles (.dataFlit k flit fec) s fun t => (t.port k).ack = flitSeq flit ∧ (t.port k).rxExp = (flitSeq flit + 1) % 4096
         ∧ (t.reg (Reg.STR_CNT_FLIT_RX (portQ k) (portK k))).toNat
             = min ((s.reg (Reg.STR_CNT_FLIT_RX (portQ k) (portK k))).toNat + 1) 0xFFFFFFFF)
     ∧ (clean → flitOk flit = true → flitKind flit = 1 → flitSeq flit ≠ (x.ack + 1) % 4096 →
       Settles (.dataFlit k flit fec) s fun t => (t.port k).ack = x.ack ∧ (t.port k).rxq = x.rxq
         ∧ t.reg (Reg.STR_CNT_FLIT_RX (portQ k) (portK k)) = s.reg (Reg.STR_CNT_FLIT_RX (portQ k) (portK k)))
     ∧ (clean → flitOk flit = true → flitKind flit = 2 → leNat (((flitBody flit).drop 8).take 1) ≠ 6 →
       Settles (.ctrlFlit k flit fec) s fun t => (t.port k).ack = x.ack ∧ (t.port k).rxq = x.rxq
         ∧ (t.port k).cred = (List.range 4).map fun v => leNat (((flitBody flit).drop (2 * v)).take 2))
     ∧ (∀ pre body post, clean → flitOk flit = true → flitKind flit = 0 → flitNak flit = false →
       x.replay = pre ++ (flitAck flit, body) :: post → (∀ e ∈ pre, e.1 ≠ flitAck flit) →
       Settles (.idleFlit k flit fec) s fun t => (t.port k).replay = post ∧ (t.port k).retry = 0
         ∧ (t.port k).rxq = x.rxq ∧ KeepsBut [.ports] s t))
  ∧ (∀ (k : Fin 16) (ack : BitVec 12) (s : State), s.flitsFlow k = true →
     let replayed (x : Port) (a : Nat) (t : State) : Prop := (t.port k).replay = x.replay ∧ (t.port k).replayAt = some 0
       ∧ (t.port k).replayAck = some a ∧ (t.port k).retry = x.retry + 1
       ∧ (t.reg (Reg.STR_CNT_RETRY (portQ k) (portK k))).toNat
           = min ((s.reg (Reg.STR_CNT_RETRY (portQ k) (portK k))).toNat + 1) 0xFFFFFFFF
       ∧ (max 1 (s.fld (Reg.STR_TIMERS (portQ k) (portK k)) Fd.STR_TIMERS_RETRY_LIMIT) ≤ x.retry + 1 → s.portSt k ≤ 4 →
           (t.port k).retraining = true ∧ t.bit (Reg.STR_ERR (portQ k) (portK k)) Fd.STR_ERR_RETRY_LIMIT = true)
     (let x := (s.ackTo k ack.toNat).port k;
       (x.replay ≠ [] → ¬(x.replayAt.isSome = true ∧ x.replayAck = some ack.toNat) →
         Gives (.nak k ack) s (replayed x ack.toNat))
       ∧ (x.replayAt.isSome = true ∧ x.replayAck = some ack.toNat → Gives (.nak k ack) s fun t => t = s.ackTo k ack.toNat))
     ∧ ((s.port k).replay ≠ [] →
       Gives (.retryTimeout k) s (replayed (s.port k) (((s.port k).txSeq + 4095 - (s.port k).replay.length) % 4096))))

/-- R303, R304, R305: the loss of one lane in use asks for the spare while one is left, and takes the port down otherwise, to OFF
where EN was written to 0; a lane that is being replaced changes nothing more; the loss of the idle spare is recorded;
corrected symbols below the threshold only count. The switch's codeword is a multiple of 256, at least 64 after the request;
at it the direction uses L8.

R319, R320, R322: in MAINT, GO starts a loopback of depth 0 to 3, and for depth 4 asks the partner; the partner's request is
honoured in MAINT and refused otherwise; LB_ACK starts it, LB_REFUSE ends it without a pass, and its end shows the result: bit
errors of the lanes at depths 0 and 4, codewords that the code could not correct at depth 1, and flits damaged at depth 2 (log
entry 121). -/
def Obligations.LaneSparingAndLoopbacks : Prop :=
  (∀ (k : Fin 16) (s : State), let x := s.port k
     let down := if x.leaving = some true then 0 else 6
     (∀ n : Fin 9, 2 ≤ s.portSt k → s.portSt k ≤ 4 → s.laneInUse k n = true → s.laneGoing k n = true →
       Settles (.laneLockLoss k [n]) s fun t => KeepsBut [.regs] s t ∧ RegsBut [Reg.STR_ERR (portQ k) (portK k)] s t)
     ∧ (∀ n : Fin 9, 2 ≤ s.portSt k → s.portSt k ≤ 4 → s.laneInUse k n = true → s.laneGoing k n = false →
       (s.noSpare k = false → Settles (.laneLockLoss k [n]) s fun t => t.port k = x.addSub 1 n 0
         ∧ t.bit (Reg.STR_ERR (portQ k) (portK k)) Fd.STR_ERR_LANE_FAIL = true ∧ t.portSt k = s.portSt k
         ∧ KeepsBut [.regs, .ports] s t)
       ∧ (s.noSpare k = true → Settles (.laneLockLoss k [n]) s fun t => t.portSt k = down))
     ∧ (2 ≤ s.portSt k → s.portSt k ≤ 4 → s.laneInUse k 8 = false →
       Settles (.laneLockLoss k [8]) s fun t => (t.port k).rxNo8 = true ∧ t.portSt k = s.portSt k)
     ∧ (∀ syms cws, 2 ≤ s.portSt k → s.portSt k ≤ 5 → syms.length = 9 →
       (∀ n ∈ syms, n ≤ s.fld (Reg.STR_LANE_THR (portQ k) (portK k)) Fd.STR_LANE_THR_THR) →
       Settles (.laneCeWindow k syms cws) s fun t => KeepsBut [.regs] s t
         ∧ (∀ l : Fin 9, (t.reg (Reg.STR_LANE_CE (portQ k) (portK k) l)).toNat
             = min ((s.reg (Reg.STR_LANE_CE (portQ k) (portK k) l)).toNat + syms.getD l 0) 0xFFFFFFFF)
         ∧ (t.reg (Reg.STR_CNT_FEC_CE (portQ k) (portK k))).toNat
             = min ((s.reg (Reg.STR_CNT_FEC_CE (portQ k) (portK k))).toNat + cws) 0xFFFFFFFF)
     ∧ (∀ b cw, x.subOf 1 = some b → s.portSt k ≠ 5 →
       Gives (.spareReq k cw) s fun t => ∃ c, c % 256 = 0 ∧ cw + 64 ≤ c ∧ c < cw + 320
         ∧ (t.port k).txSwitch = some (b.arg % 8, c) ∧ (∃ q, ⟨2, q, b.arg % 8, c⟩ ∈ (t.port k).subs)
         ∧ KeepsBut [.ports] s t)
     ∧ (∀ b, x.subOf 2 = some b →
       Gives (.spareAck k) s fun t => (t.port k).rxSwitch = some (b.arg % 8, b.arg2)
         ∧ (∀ c ∈ (t.port k).subs, c.kind ≠ 1) ∧ KeepsBut [.ports] s t)
     ∧ (∀ n c, x.txSwitch = some (n, c) → n < 8 →
       Gives (.laneSwitch k .tx c) s fun t => t.fld (Reg.STR_STATUS (portQ k) (portK k)) Fd.STR_STATUS_TX_SPARED = n
         ∧ (t.port k).txSwitch = none ∧ (t.port k).retry = 0)
     ∧ (∀ n c, x.rxSwitch = some (n, c) → n < 8 →
       Gives (.laneSwitch k .rx c) s fun t => t.fld (Reg.STR_STATUS (portQ k) (portK k)) Fd.STR_STATUS_RX_SPARED = n
         ∧ (t.port k).rxSwitch = none))
  ∧ (∀ (r : Requester) (k : Fin 16) (v : BitVec 32) (s : State), let x := s.port k
     let lb := Reg.STR_LB_CTL (portQ k) (portK k)
     let res := Reg.STR_LB_RESULT (portQ k) (portK k)
     (s.up = true → s.mayWrite r lb = true → s.portSt k = 5 → x.lb = none → x.lbAsk = false →
       (v.toNat % 8 < 4 → Gives (.straitLoopbackGo r k v) s fun t => (t.port k).lb = some (v.toNat % 8)
         ∧ t.bit lb Fd.STR_LB_CTL_GO = true)
       ∧ (v.toNat % 8 = 4 → Gives (.straitLoopbackGo r k v) s fun t => (t.port k).lbAsk = true ∧ t.bit lb Fd.STR_LB_CTL_GO = true
         ∧ ∃ q, ⟨3, q, 4, 0⟩ ∈ (t.port k).subs))
     ∧ (∀ b, x.subOf 3 = some b →
       (s.portSt k = 5 → x.caps / 4 % 2 = 1 → x.lb = none → b.arg % 8 = 4 → (x.lbAsk = false ∨ s.partnerFirst k = true) →
         Gives (.lbReq k) s fun t => t.bit (Reg.STR_STATUS (portQ k) (portK k)) Fd.STR_STATUS_FAR_LB = true
           ∧ (∃ q, ⟨4, q, 4, 0⟩ ∈ (t.port k).subs) ∧ t.portSt k = 5)
       ∧ (s.portSt k ≠ 5 → Gives (.lbReq k) s fun t => (∃ q, ⟨5, q, 4, 0⟩ ∈ (t.port k).subs) ∧ KeepsBut [.ports] s t))
     ∧ (∀ b, x.subOf 4 = some b → x.lbAsk = true →
       Gives (.lbAck k) s fun t => (t.port k).lb = some 4 ∧ (t.port k).lbAsk = false ∧ KeepsBut [.ports] s t)
     ∧ (∀ b, x.subOf 5 = some b → x.lbAsk = true →
       Gives (.lbRefuse k) s fun t => t.bit res Fd.STR_LB_RESULT_REFUSED = true ∧ t.bit lb Fd.STR_LB_CTL_GO = false
         ∧ t.bit lb Fd.STR_LB_CTL_DONE = true ∧ t.bit lb Fd.STR_LB_CTL_PASS = false ∧ KeepsBut [.ports, .regs] s t
         ∧ RegsBut [lb, res] s t)
     ∧ (∀ (d : Nat) (le faults badReads : List Nat), x.lb = some d → d < 8 → (d = 3 → (s.freeTrk (portQ k)).isSome = true) →
       Gives (.straitLoopbackDone k le faults badReads) s fun t => (t.port k).lb = none ∧ t.bit lb Fd.STR_LB_CTL_GO = false
         ∧ t.bit lb Fd.STR_LB_CTL_DONE = true ∧ ∃ errs : Nat, t.bit lb Fd.STR_LB_CTL_PASS = decide (errs = 0)
         ∧ t.fld res Fd.STR_LB_RESULT_ERRS = min errs 0xFFFF
         ∧ (d = 0 ∨ d = 4 → errs = ((List.range 9).map fun l => le.getD l 0).sum
           ∧ t.fld res Fd.STR_LB_RESULT_LANE = ((List.range 9).find? fun l => le.getD l 0 != 0).getD 0xF
           ∧ ∀ l : Fin 9, (t.reg (Reg.STR_LB_LANE_ERR (portQ k) (portK k) l)).toNat = le.getD l 0 % 2 ^ 32)
         ∧ (d = 1 → s.bit lb Fd.STR_LB_CTL_INJECT = false →
           errs = ((faults.filter (· < 65536)).dedup.filter fun i => decide (15 < faults.count i)).length)
         ∧ (d = 2 → s.bit lb Fd.STR_LB_CTL_INJECT = false → errs = (faults.filter (· < 65536)).dedup.length)))

/-- R290, R306, R313, R317, R319, R322: the port states. Training leads to HELLO with at most one lane spared in each direction
and to DOWN otherwise; a HELLO, training or retraining that runs out of time leads to DOWN, the third time within 60 s with
HOLD, and to OFF while the LEAVE of an EN write of 0 still waits; DOWN leads to TRAINING after its second; EN, MAINT, RETRAIN,
ADMIT and LEAVE move the port as R313 says.

R300, R314, R315, R316: MGMT takes a hello's fragment out of VC 3 and grants its credits; a fragment that continues the
message is kept, and the last one of a hello verifies the partner, whose module and port STR_PARTNER then shows, or fails.
R309, R318: the manager keeps a report that reaches its module, and a MGMT message for another module is sent on. -/
def Obligations.PortStatesAndHello : Prop :=
  (∀ (k : Fin 16) (s : State), let st := Reg.STR_STATUS (portQ k) (portK k)
     let down := if (s.port k).leaving = some true then 0 else 6
     (∀ rf tf : List (Fin 9), s.portSt k = 1 → s.power.lost.contains .str = false →
       let rb := s.badLanes k 0 (rf.map (·.val))
       let tb := s.badLanes k 1 (tf.map (·.val))
       (trainOk rb (rf.map (·.val)) = true → trainOk tb (tf.map (·.val)) = true →
         Gives (.trainingComplete k rf tf) s fun t => t.portSt k = 2 ∧ t.fld st Fd.STR_STATUS_RX_SPARED = rb.headD 0xF
           ∧ t.fld st Fd.STR_STATUS_TX_SPARED = tb.headD 0xF)
       ∧ (trainOk rb (rf.map (·.val)) = false ∨ trainOk tb (tf.map (·.val)) = false →
         Settles (.trainingComplete k rf tf) s fun t => t.portSt k = down))
     ∧ (s.portSt k = 1 → Settles (.trainingTimeout k) s fun t => t.portSt k = down
       ∧ t.bit (Reg.STR_ERR (portQ k) (portK k)) Fd.STR_ERR_DOWN = true
       ∧ (down = 6 → 2 ≤ ((s.port k).downs.filter fun c => decide (s.cycle < c + 56400000000)).length →
           t.bit st Fd.STR_STATUS_HOLD = true))
     ∧ (Gives (.retrainComplete k) s fun t => t.port k = { s.port k with retraining := false } ∧ KeepsBut [.ports] s t)
     ∧ ((s.port k).retraining = true → Settles (.retrainTimeout k) s fun t => t.portSt k = down)
     ∧ (s.portSt k = 2 → Settles (.helloTimeout k) s fun t => t.portSt k = down
       ∧ t.bit (Reg.STR_ERR (portQ k) (portK k)) Fd.STR_ERR_HELLO_FAIL = true)
     ∧ (s.portSt k = 6 → s.bit st Fd.STR_STATUS_HOLD = false → s.power.lost.contains .str = false →
       Gives (.downTimer k) s fun t => t.portSt k = 1 ∧ KeepsBut [.regs] s t ∧ RegsBut [st] s t)
     ∧ (∀ (r : Requester) (b : Bool), s.up = true → s.mayWrite r st = true → s.bit st Fd.STR_STATUS_HOLD = true →
       s.power.lost.contains .str = false →
       Gives (.holdClear r k b) s fun t => t.bit st Fd.STR_STATUS_HOLD = false
         ∧ t.portSt k = (if s.portSt k = 6 ∧ b = true then 1 else s.portSt k) ∧ KeepsBut [.regs] s t ∧ RegsBut [st] s t)
     ∧ (∀ r : Requester, s.up = true → s.mayWrite r (Reg.STR_CTL (portQ k) (portK k)) = true →
       let x := s.port k
       let ctl := Reg.STR_CTL (portQ k) (portK k)
       let quiet (t : State) : Prop := KeepsBut [.regs] s t ∧ RegsBut [ctl, st] s t
       (s.portSt k = 0 → Settles (.en r k true) s fun t => t.portSt k = 1 ∧ t.bit ctl Fd.STR_CTL_EN = true ∧ quiet t)
       ∧ (s.portSt k = 4 → s.flitsFlow k = true → Settles (.en r k false) s fun t => t.port k = { x with leaving := some true }
           ∧ t.portSt k = 4 ∧ t.bit ctl Fd.STR_CTL_EN = false)
       ∧ (s.portSt k ≠ 0 → s.portSt k ≠ 4 → Settles (.en r k false) s fun t => t.portSt k = 0)
       ∧ (s.portSt k = 4 → (s.loaded = false ∨ s.bit st Fd.STR_STATUS_SCHED = false) →
           Gives (.maint r k true) s fun t => t.portSt k = 5 ∧ t.bit ctl Fd.STR_CTL_MAINT = true ∧ quiet t)
       ∧ (s.loaded = true → s.bit st Fd.STR_STATUS_SCHED = true → Waits (.maint r k true) s)
       ∧ (s.portSt k = 5 → Gives (.maint r k false) s fun t => t.portSt k = 1 ∧ t.bit ctl Fd.STR_CTL_MAINT = false
           ∧ t.bit st Fd.STR_STATUS_FAR_LB = false ∧ (t.port k).lb = none)
       ∧ (2 ≤ s.portSt k → s.portSt k ≤ 4 → Gives (.retrain r k) s fun t => t.port k = { x with retraining := true }
           ∧ KeepsBut [.ports] s t)
       ∧ (s.portSt k = 3 → Gives (.admitPort r k) s fun t => t.portSt k = 4 ∧ quiet t)
       ∧ (s.portSt k ≠ 0 → s.portSt k ≠ 6 → s.flitsFlow k = true →
           Settles (.leave r k) s fun t => t.port k = { x with leaving := some (x.leaving == some true) } ∧ KeepsBut [.ports] s t)))
  ∧ (∀ (k : Fin 16) (s : State) (m : Msg), (s.port k).head 3 = some m → m.typ = 7 → m.vc = 3 →
     let x := s.port k
     let kind := bitsOf m.addr 7 0
     let i := bitsOf m.addr 31 16
     let n := bitsOf m.addr 47 32
     let f := x.frag.getD ⟨kind, n, 0, []⟩
     let here := m.dst = s.selfId (portQ k)
     let taken (t : State) : Prop := (t.port k).rxq.getD 3 [] = (x.rxq.getD 3 []).erase m
       ∧ (t.port k).granted = addCredit x.granted 3 m.credits
     (kind = 1 ∨ kind = 2 → s.portSt k = 2 ∨ here → f.kind = kind → f.count = n → f.next = i → i < n →
       (i + 1 < n → Settles (.mgmt k) s fun t => (t.port k).frag = some ⟨kind, n, i + 1, f.bytes ++ m.data⟩ ∧ taken t
         ∧ KeepsBut [.ports] s t)
       ∧ (i + 1 = n → kind = 2 → s.portSt k = 2 →
         s.bit (Reg.STR_EXPECT (portQ k) (portK k)) Fd.STR_EXPECT_EN = false →
         let h := f.bytes ++ m.data
         Settles (.mgmt k) s fun t => if s.helloOk k h = true
           then t.portSt k = 3
             ∧ t.fld (Reg.STR_PARTNER (portQ k) (portK k)) Fd.STR_PARTNER_MOD = leNat ((h.drop 8).take 2) % 1024
             ∧ t.bit (Reg.STR_PARTNER (portQ k) (portK k)) Fd.STR_PARTNER_VALID = true
           else t.portSt k = (if x.leaving = some true then 0 else 6)
             ∧ t.bit (Reg.STR_ERR (portQ k) (portK k)) Fd.STR_ERR_HELLO_FAIL = true))
     ∧ (kind ≠ 1 → kind ≠ 2 → s.portSt k ≠ 2 → here →
       Gives (.mgmt k) s fun t => t.fw = { s.fw with inbox := s.fw.inbox ++ [⟨m.src, kind, i, n, m.data⟩] } ∧ taken t
         ∧ KeepsBut [.ports, .fw] s t)
     ∧ (∀ o, s.portSt k ≠ 2 → ¬here → s.route (portQ k) m.dst = some o → o ≠ k → m.hops < 15 → s.portSt o = 4 →
       Settles (.mgmt k) s fun t => (t.port o).txq = (s.port o).txq.modify 3 (· ++ [(0, { m with hops := m.hops + 1 })])
         ∧ (t.reg (Reg.STR_CNT_FWD (portQ k))).toNat = min ((s.reg (Reg.STR_CNT_FWD (portQ k))).toNat + 1) 0xFFFFFFFF
         ∧ KeepsBut [.ports, .regs] s t))

/-- R300, R308, R312: a request for this module is taken out of its buffer and served: RD answers the bytes that it reads, WR
stores its data and nothing else, MERGE puts its lines before the merge units of the Island that holds them, BUOY sends its
operation to the Buoy unit of the home Quarter; RD and WR are answered at once on the route to SRC.

R309, R310, R311: a response frees its tracker entry and completes what waited for it, and one that matches no entry counts as
late; a message for another module is sent on with one more hop, or, without a route, counts and goes no further; an entry
that runs out of time completes with TIMEOUT and stays unallocated until its quarantine ends. -/
def Obligations.RequestsAndResponses : Prop :=
  (∀ (k : Fin 16) (vc : Fin 4) (s : State) (m : Msg), (s.port k).head vc = some m → m.dst = s.selfId (portQ k) →
     let q := portQ k
     let u := s.takeMsg k m
     (∀ a o, m.typ = 1 → s.resolveAddr (m.addr % 2 ^ 48) = some a → 0 < m.len → s.remKind a (64 * m.len) false = 0 →
       (u.busRead a (64 * m.len) 10 (remLisl m.src)).bad = false → s.route q m.src = some o → s.portSt o = 4 →
       Settles (.rd k vc) s fun t => (t.port o).txq = (u.port o).txq.modify (if m.vc = 0 then 1 else m.vc)
           (· ++ [(if (if m.vc = 0 then 1 else m.vc) = 2 then 254 else 0, m.answer 0 (u.busRead a (64 * m.len) 10 (remLisl m.src)).data)])
         ∧ (∀ b, t.byte b = s.byte b))
     ∧ (∀ a, m.typ = 3 → m.masked = false → s.resolveAddr (m.addr % 2 ^ 48) = some a → 0 < m.data.length →
       s.remKind a m.data.length true = 0 → region a ≠ .pcie → s.bit Reg.ISL_SWAP_CTL Fd.ISL_SWAP_CTL_GO = false →
       Settles (.wr k vc) s fun t => t.bytes a m.data.length = m.data ∧ BytesBut a m.data.length s t)
     ∧ (∀ a p, m.typ = 4 → s.resolveAddr (m.addr % 2 ^ 48) = some a → region a = .lag p →
       region (a + 64 * m.len - 1) = .lag p → s.pstate p ≠ 6 → 0 < m.len →
       Settles (.merge k vc) s fun t => (t.isl p).mergeq = (s.isl p).mergeq ++ (List.range m.len).map (fun i => mergeLine q i a m)
         ∧ KeepsBut [.ports, .isls] s t)
     ∧ (m.typ = 5 → m.buoyLisl < s.logicalCount → m.buoyOp < 2 →
       let h := s.home m.buoyLisl
       Settles (.buoy k vc) s fun t => ∃ a : BuoyArr, (t.qtr h).arrivals = (s.qtr h).arrivals ++ [a] ∧ a.bidx = m.buoyIdx
         ∧ a.kind = m.buoyOp + 1 ∧ a.val = m.buoyVal ∧ a.port = straitPort h k ∧ a.mod = m.src ∧ a.answer = some m
         ∧ KeepsBut [.ports, .qtrs, .freeCtr] s t))
  ∧ (∀ (k : Fin 16) (vc : Fin 4) (s : State) (m : Msg),
     let q := m.tag / 4096 % 4
     let i := m.tag % 4096
     let inuse (q : Nat) : Nat := s.fld (Reg.STR_TRK_STATUS q) Fd.STR_TRK_STATUS_INUSE
     (∀ e w md ad, (s.port k).head vc = some m → m.dst = s.selfId (portQ k) → m.typ = 2 →
       tget (fun _ => none) (s.qtr q).trk i = some e → e.msg.gen = m.gen → e.use = .read w md ad → (s.qtr q).waitTrk = [] →
       m.status = 0 →
       Settles (.rdRsp k vc) s fun t => tget (fun _ => none) (t.qtr q).trk i = none
         ∧ t.fld (Reg.STR_TRK_STATUS q) Fd.STR_TRK_STATUS_INUSE = inuse q - 1
         ∧ t.remLines = s.remLines.map (fun l => if l.work = w ∧ l.mod = md ∧ l.addr = ad
             then { l with data := some m.data, bad := false } else l)
         ∧ (∀ b, t.byte b = s.byte b))
     ∧ (∀ e w, (s.port k).head vc = some m → m.dst = s.selfId (portQ k) → m.typ = 6 →
       tget (fun _ => none) (s.qtr q).trk i = some e → e.msg.gen = m.gen → e.use = .write w → (s.qtr q).waitTrk = [] →
       Settles (.cpl k vc) s fun t => tget (fun _ => none) (t.qtr q).trk i = none
         ∧ t.fld (Reg.STR_TRK_STATUS q) Fd.STR_TRK_STATUS_INUSE = inuse q - 1 ∧ (∀ b, t.byte b = s.byte b))
     ∧ ((s.port k).head vc = some m → m.dst = s.selfId (portQ k) → m.typ = 6 →
       tget (fun _ => none) (s.qtr q).trk i = none →
       Settles (.cpl k vc) s fun t => (t.reg (Reg.STR_CNT_LATE q)).toNat = min ((s.reg (Reg.STR_CNT_LATE q)).toNat + 1) 0xFFFFFFFF
         ∧ t.qtrs = s.qtrs ∧ t.work = s.work)
     ∧ (∀ (j : Instr) (typ o : Nat), (j, typ) ∈ [(Instr.rd k vc, 1), (Instr.rdRsp k vc, 2), (Instr.wr k vc, 3), (Instr.merge k vc, 4),
         (Instr.buoy k vc, 5), (Instr.cpl k vc, 6)] → (s.port k).head vc = some m → m.typ = typ → m.dst ≠ s.selfId (portQ k) →
       s.route (portQ k) m.dst = some o → o ≠ k → m.hops < 15 → s.portSt o = 4 →
       Settles j s fun t => (t.port o).txq = (s.port o).txq.modify m.vc
           (· ++ [(if m.vc = 2 then 255 else 0, { m with hops := m.hops + 1 })])
         ∧ (t.reg (Reg.STR_CNT_FWD (portQ k))).toNat = min ((s.reg (Reg.STR_CNT_FWD (portQ k))).toNat + 1) 0xFFFFFFFF
         ∧ KeepsBut [.ports, .regs] s t)
     ∧ (∀ (q : Fin 4) (i : Fin 4096) e, tget (fun _ => none) (s.qtr q).trk i = some e → (s.qtr q).waitTrk = [] →
       Settles (.trackerTimeout q i) s fun t => tget (fun _ => none) (t.qtr q).trk i = none
         ∧ i.val ∈ (t.qtr q).quarantine ∧ t.fld (Reg.STR_TRK_STATUS q) Fd.STR_TRK_STATUS_INUSE = inuse q - 1
         ∧ (t.reg (Reg.STR_CNT_TXN_TO q)).toNat = min ((s.reg (Reg.STR_CNT_TXN_TO q)).toNat + 1) 0xFFFFFFFF)
     ∧ (∀ (q : Fin 4) (i : Fin 4096), i.val ∈ (s.qtr q).quarantine → (s.qtr q).waitTrk = [] →
       Gives (.trackerQuarantineEnd q i) s fun t => i.val ∉ (t.qtr q).quarantine ∧ KeepsBut [.qtrs] s t))

/-- R326, R327, R341: LOAD checks the loaded state: where a check fails it records the code and loads nothing, else it loads: the
Tide number is TIDE_FIRST - 1, the contexts with an entry point on a bound Island are in TMARK and all others IDLE, and the
channels are clear. UNLOAD takes effect in MARKED, HELD and FAILED: nothing runs afterwards. FAILNOW fails a loaded job. The
contexts of an Island under test go on (R456). Memory keeps its contents but where records of link events are due (R321). -/
def Obligations.TideLoads : Prop :=
  ∀ (r : Requester) (s : State), s.up = true → s.mayWrite r Reg.TIDE_CTL = true →
    (s.loaded = true → Waits (.load r) s)
    ∧ (s.loaded = false → s.loadCheck = 0 →
      Settles (.load r) s fun t => t.loaded = true ∧ t.tideSt = 1
        ∧ t.tideNum = ((s.reg Reg.TIDE_FIRST).toNat + 2 ^ 32 - 1) % 2 ^ 32
        ∧ (∀ (p : Fin 144) (c : Fin 2), t.bit (Reg.ISL_SEQ_CTL p) (entryFld c) = false
          ∧ t.ctxSt p c = if s.pstate p = 3 then s.ctxSt p c
            else if s.bit (Reg.ISL_SEQ_CTL p) (entryFld c) = true ∧ s.logicalOf p < s.logicalCount
              ∧ s.physOf (s.logicalOf p) = some p.val then 4 else 0)
        ∧ (∀ ch : Fin 8, t.chan ch = {}) ∧ (s.LinksQuiet → ∀ x, t.byte x = s.byte x))
    ∧ (s.loaded = false → s.loadCheck ≠ 0 →
      Gives (.load r) s fun t => t.loaded = false ∧ t.bit Reg.TIDE_ERR Fd.TIDE_ERR_LOADREJ = true
        ∧ (t.reg Reg.TIDE_LOADERR).toNat = s.loadCheck
        ∧ (∀ (p : Fin 144) (c : Fin 2), t.bit (Reg.ISL_SEQ_CTL p) (entryFld c) = false ∧ t.ctxSt p c = s.ctxSt p c)
        ∧ KeepsBut [.regs] s t)
    ∧ (s.tideSt = 2 ∨ s.tideSt = 3 ∨ s.tideSt = 4 →
      Gives (.unload r) s fun t => t.loaded = false ∧ t.tideSt = 0 ∧ (∀ ch : Fin 8, t.chan ch = {})
        ∧ (∀ (p : Fin 144) (c : Fin 2), t.ctxSt p c
            = if s.pstate p = 3 then s.ctxSt p c else if s.ctxSt p c = 0 then 0 else 5)
        ∧ (∀ k : Fin 16, t.bit (Reg.STR_STATUS (portQ k) (portK k)) Fd.STR_STATUS_SCHED = false)
        ∧ t.bit Reg.ISL_SWAP_CTL Fd.ISL_SWAP_CTL_GO = false ∧ (s.LinksQuiet → ∀ x, t.byte x = s.byte x))
    ∧ (s.tideSt = 0 ∨ s.tideSt = 1 → Waits (.unload r) s)
    ∧ (s.loaded = false → Waits (.failnow r) s)
    ∧ (s.loaded = true → s.tideSt ≠ 0 → s.tideSt ≠ 4 → s.bit Reg.TIDE_ERR Fd.TIDE_ERR_FAIL = false →
      Gives (.failnow r) s fun t => t.tideSt = 4 ∧ t.fld Reg.TIDE_FAIL Fd.TIDE_FAIL_REASON = 6
        ∧ t.bit Reg.TIDE_ERR Fd.TIDE_ERR_FAIL = true ∧ (∀ ch : Fin 8, t.chan ch = {})
        ∧ (∀ (p : Fin 144) (c : Fin 2), t.ctxSt p c
            = if s.pstate p = 3 then s.ctxSt p c else if s.ctxSt p c = 0 then 0 else 5)
        ∧ (s.LinksQuiet → ∀ x, t.byte x = s.byte x))

/-- R332, R333, R334: while a Tide runs, a Quarter's part is formed when it is done. Once all four are done and every child has
marked, a module that is no root sends its aggregate to its parent and is MARKED; the root enters HELD with HOLDGO, and sends
GO for the next Tide without it. In any other state nothing happens.

R141, R335, R367, R368: a module that is MARKED and receives GO for the next Tide from its parent starts it: the Tide number,
the gradient norm and CMD are those of the GO, every Island's Tide number rises and its contexts in TMARK run, and, after an
update Tide, each update unit changes its copy, unless it updated in place, and counts. -/
def Obligations.TideMarksAndStarts : Prop :=
  (∀ (s : State), let done := ∀ q, q < 4 → s.quarterDone q = true
     let v := s.aggregate
     (s.tideSt ≠ 1 → Waits (.mark none) s ∧ Waits (.go none) s)
     ∧ (s.tideSt = 1 → ¬done →
       Gives (.mark none) s fun t => t.tideSt = 1
         ∧ (∀ q : Fin 4, t.bit (Reg.TIDE_QSTATUS q) Fd.TIDE_QSTATUS_DONE = s.quarterDone q) ∧ KeepsBut [.regs] s t
         ∧ RegsBut [Reg.TIDE_QSTATUS 0, Reg.TIDE_QSTATUS 1, Reg.TIDE_QSTATUS 2, Reg.TIDE_QSTATUS 3] s t)
     ∧ (s.tideSt = 1 → done → s.kidsIn = true → s.isRoot = false →
       Gives (.mark none) s fun t => t.tideSt = 2 ∧ (t.reg Reg.TIDE_AGG_NONFIN).toNat = v.nonfin % 2 ^ 32
         ∧ (t.reg Reg.TIDE_AGG_BOUND).toNat = v.bound % 2 ^ 32 ∧ (t.reg Reg.TIDE_AGG_LOSSN).toNat = v.lossn % 2 ^ 32
         ∧ (t.reg Reg.TIDE_AGG_LOSS).toNat = v.loss % 2 ^ 32 ∧ t.tideNum = s.tideNum
         ∧ (s.portSt s.parentPort = 4 → 2 < (s.port s.parentPort).txq.length →
             (256, tideMsg (s.selfId (portQ s.parentPort)) (s.partnerId s.parentPort) 1 s.tideNum v.line)
               ∈ (t.port s.parentPort).txq.getD 2 [])
         ∧ KeepsBut [.regs, .ports] s t)
     ∧ (s.tideSt = 1 → done → s.kidsIn = true → s.isRoot = true → s.bit Reg.TIDE_CFG Fd.TIDE_CFG_HOLDGO = true →
       s.bit Reg.TIDE_BCN_CFG Fd.TIDE_BCN_CFG_EN = false →
       Gives (.mark none) s fun t => t.tideSt = 3 ∧ t.tideNum = s.tideNum ∧ KeepsBut [.regs] s t)
     ∧ (s.tideSt = 1 → done → s.kidsIn = true → s.isRoot = true → s.bit Reg.TIDE_CFG Fd.TIDE_CFG_HOLDGO = false →
       s.tideNum ≠ 0xFFFFFFFF →
       Gives (.go none) s fun t => t.tideSt = 1 ∧ t.tideNum = s.tideNum + 1 ∧ t.bit Reg.TIDE_GO Fd.TIDE_GO_GO = false))
  ∧ (∀ (k : Fin 16) (s : State) (m : Msg), ((s.port k).rxq.getD 2 []).find? (fun m => m.typ == 8) = some m → m.tideKind = 2 →
     m.dst = s.selfId (portQ k) → s.tideSt = 2 → s.fromParent k = true → m.tideNo = (s.tideNum + 1) % 2 ^ 32 →
     s.bit Reg.ISL_SWAP_CTL Fd.ISL_SWAP_CTL_GO = false → s.bit Reg.ISL_SWAP_CTL Fd.ISL_SWAP_CTL_HOLD = false →
     Settles (.go (some k)) s fun t => t.tideNum = m.tideNo ∧ t.tideSt = 1
       ∧ (t.reg Reg.TIDE_STEP).toNat = m.tideNo / s.nTypes ∧ (t.reg Reg.TIDE_GCMD).toNat = m.lineNat 0 1
       ∧ t.reg64 Reg.TIDE_GNSQ_LO Reg.TIDE_GNSQ_HI = m.lineNat 8 8
       ∧ (∀ (p : Fin 144), t.reg (Reg.ISL_SEQ_TIDE p) = s.reg (Reg.ISL_SEQ_TIDE p) + 1
         ∧ ∀ c : Fin 2, t.ctxSt p c = if s.ctxSt p c = 4 then 1 else s.ctxSt p c)
       ∧ (∀ u : Fin 8, let a := Reg.FUU_STATE (u / 2) (u % 2)
           let n := Reg.FUU_T (u / 2) (u % 2)
           if s.tide.update = true
           then t.reg n = s.reg n + 1 ∧ t.fld a Fd.FUU_STATE_CUR
             = (if s.bit a Fd.FUU_STATE_INPLACE = true then s.fld a Fd.FUU_STATE_CUR else 1 - s.fld a Fd.FUU_STATE_CUR)
           else t.reg n = s.reg n ∧ t.fld a Fd.FUU_STATE_CUR = s.fld a Fd.FUU_STATE_CUR))

/-- R333, R334, R342, R361, R379: a MARK of the current Tide from a child is kept, and one of another Tide is dropped and counted.
The root sends GO when firmware writes TIDE_GO in HELD; in any other state the write stores CMD only.

R340, R341, R342: past its deadline a module whose work is not done raises the next stretch, which the root grants up to SMAX
and refuses beyond it with FAIL; a root whose own work is done fails with TIMEOUT one SQ later; a STRETCH goes up once, a
STRETCH_GO sets K, and a FAIL from a neighbour in the tree stops the job.

R378: the Beacon's verdict at the mark of a gate: REPLAY for a raised plausibility flag, HALT in the replay pass; SKIP or, by
policy, HALT where a count, the norm or the loss breaks its limit; UPDATE otherwise; NONE at any other Tide. -/
def Obligations.MarksStretchesAndVerdicts : Prop :=
  ((∀ (k : Fin 16) (s : State) (m : Msg), ((s.port k).rxq.getD 2 []).find? (fun m => m.typ == 8) = some m → m.tideKind = 1 →
     m.dst = s.selfId (portQ k) → s.tideSt ≠ 4 →
     (m.tideNo = s.tideNum → s.tideSt ≠ 0 → k.val ∈ s.childPorts →
       Settles (.mark (some k)) s fun t => t.tide.kids.find? (·.1 == k.val) = some (k.val, m.markVals)
         ∧ t.fld Reg.TIDE_STATUS Fd.TIDE_STATUS_KIDS / 2 ^ k.val % 2 = 1 ∧ KeepsBut [.regs, .ports, .tide] s t
         ∧ RegsBut [Reg.TIDE_STATUS] s t)
     ∧ (m.tideNo ≠ s.tideNum →
       Settles (.mark (some k)) s fun t => t.tide = s.tide
         ∧ (t.reg (Reg.STR_CNT_DROP (portQ k) (portK k))).toNat
             = min ((s.reg (Reg.STR_CNT_DROP (portQ k) (portK k))).toNat + 1) 0xFFFFFFFF
         ∧ KeepsBut [.regs, .ports] s t))
     ∧ (∀ (r : Requester) (v : BitVec 32) (s : State), s.up = true → s.mayWrite r Reg.TIDE_GO = true →
       (s.tideSt ≠ 3 → Settles (.tideGoWrite r v) s fun t => t.fld Reg.TIDE_GO Fd.TIDE_GO_CMD = bitsOf v.toNat 15 8
         ∧ KeepsBut [.regs] s t ∧ RegsBut [Reg.TIDE_GO] s t)
       ∧ (s.tideSt = 3 → s.tideNum ≠ 0xFFFFFFFF →
         Settles (.tideGoWrite r v) s fun t => t.tideSt = 1 ∧ t.tideNum = s.tideNum + 1
           ∧ t.bit Reg.TIDE_GO Fd.TIDE_GO_GO = false
           ∧ (t.reg Reg.TIDE_GCMD).toNat = (if s.tide.startMarker = true then bitsOf v.toNat 15 10 * 4 else bitsOf v.toNat 15 8)))
     ∧ (∀ a b : MarkVals, let v := a.combine b
       v.nonfin = min (a.nonfin + b.nonfin) 0xFFFFFFFF ∧ v.bound = min (a.bound + b.bound) 0xFFFFFFFF
         ∧ v.lossn = min (a.lossn + b.lossn) 0xFFFFFFFF ∧ v.loss = f32Add a.loss b.loss ∧ v.nsq = f64Add a.nsq b.nsq))
  ∧ ((∀ (us : Nat) (s : State), let v := tideCheck s
     let n := v.fld (Reg.TIDE_TYPE (v.tideNum % v.nTypes)) Fd.TIDE_TYPE_TLEN
     let sq := max 1 (v.fld Reg.TIDE_STRETCH Fd.TIDE_STRETCH_SQ)
     let kk := v.fld Reg.TIDE_STATUS Fd.TIDE_STATUS_K
     v.tideSt = 1 → v.tideNum = s.tideNum → v.tide.startMarker = false → n ≠ 0 →
     ((∃ q, q < 4 ∧ v.quarterDone q = false) → n + kk * sq < us → v.tide.stretchUp ≤ kk →
       (v.isRoot = false → Gives (.tideDeadline us) s fun t => t.tide.stretchUp = kk + 1 ∧ t.tide.slow = some (v.selfId 0)
         ∧ (t.reg Reg.TIDE_CNT_STRETCH).toNat = min ((v.reg Reg.TIDE_CNT_STRETCH).toNat + 1) 0xFFFFFFFF ∧ t.tideSt = 1)
       ∧ (v.isRoot = true → kk + 1 ≤ v.fld Reg.TIDE_STRETCH Fd.TIDE_STRETCH_SMAX →
         Gives (.tideDeadline us) s fun t => t.fld Reg.TIDE_STATUS Fd.TIDE_STATUS_K = kk + 1 ∧ t.tideSt = 1)
       ∧ (v.isRoot = true → v.fld Reg.TIDE_STRETCH Fd.TIDE_STRETCH_SMAX < kk + 1 →
         Gives (.tideDeadline us) s fun t => t.tideSt = 4))
     ∧ ((∀ q, q < 4 → v.quarterDone q = true) → v.isRoot = true → n + (kk + 1) * sq < us →
       v.bit Reg.TIDE_ERR Fd.TIDE_ERR_FAIL = false →
       Gives (.tideDeadline us) s fun t => t.tideSt = 4 ∧ t.fld Reg.TIDE_FAIL Fd.TIDE_FAIL_REASON = 2))
     ∧ (∀ (k : Fin 16) (s : State) (m : Msg), ((s.port k).rxq.getD 2 []).find? (fun m => m.typ == 8) = some m →
       m.dst = s.selfId (portQ k) → s.tideSt ≠ 0 → s.tideSt ≠ 4 →
       (m.tideKind = 3 → m.tideNo = s.tideNum → k.val ∈ s.childPorts → s.isRoot = true →
         s.fld Reg.TIDE_STATUS Fd.TIDE_STATUS_K < m.lineNat 0 4 →
         m.lineNat 0 4 ≤ s.fld Reg.TIDE_STRETCH Fd.TIDE_STRETCH_SMAX →
         Settles (.stretch k) s fun t => t.fld Reg.TIDE_STATUS Fd.TIDE_STATUS_K = m.lineNat 0 4 ∧ t.tideSt = s.tideSt)
       ∧ (m.tideKind = 3 → m.tideNo = s.tideNum → k.val ∈ s.childPorts → s.isRoot = false →
         s.tide.stretchUp < m.lineNat 0 4 →
         Settles (.stretch k) s fun t => t.tide.stretchUp = m.lineNat 0 4 ∧ KeepsBut [.ports, .tide] s t)
       ∧ (m.tideKind = 4 → m.tideNo = s.tideNum → s.fromParent k = true →
         Settles (.stretchGo k) s fun t => t.fld Reg.TIDE_STATUS Fd.TIDE_STATUS_K = m.lineNat 0 4 % 16
           ∧ KeepsBut [.regs, .ports] s t ∧ RegsBut [Reg.TIDE_STATUS] s t)
       ∧ (m.tideKind = 5 → s.fromParent k = true ∨ k.val ∈ s.childPorts → s.bit Reg.TIDE_ERR Fd.TIDE_ERR_FAIL = false →
         Settles (.fail k) s fun t => t.tideSt = 4 ∧ t.fld Reg.TIDE_FAIL Fd.TIDE_FAIL_REASON = m.lineNat 0 4 % 16
           ∧ t.fld Reg.TIDE_FAIL Fd.TIDE_FAIL_MODULE = m.lineNat 4 4 % 1024
           ∧ (∀ (p : Fin 144) (c : Fin 2), t.ctxSt p c
               = if s.pstate p = 3 then s.ctxSt p c else if s.ctxSt p c = 0 then 0 else 5)
           ∧ (∀ ch : Fin 8, t.chan ch = {}) ∧ (s.LinksQuiet → ∀ x, t.byte x = s.byte x))))
  ∧ (∀ (s : State) (n nsq : Nat),
     let wplaus := s.bit Reg.TIDE_BCN_VERDICT Fd.TIDE_BCN_VERDICT_WPLAUS
     let lossN := (s.reg Reg.TIDE_BCN_WLOSSN).toNat
     let gate := s.tide.startMarker = false ∧ s.isGate n = true
     let breaks := (s.reg Reg.TIDE_BCN_NFMAX).toNat < (s.reg Reg.TIDE_BCN_WNONFIN).toNat
       ∨ (s.reg Reg.TIDE_BCN_BDMAX).toNat < (s.reg Reg.TIDE_BCN_WBOUND).toNat ∨ (f64 nsq).nonfin = true
       ∨ (0 < lossN ∧ (f32 s.beaconL).nonfin = true)
       ∨ (0 < lossN ∧ s.fld Reg.TIDE_BCN_CFG Fd.TIDE_BCN_CFG_WARM ≤ (s.reg Reg.TIDE_BCN_WINS).toNat
           ∧ (f32 (f32Mul (s.reg Reg.TIDE_BCN_EMA).toNat (s.reg Reg.TIDE_BCN_SPIKE).toNat)).lt (f32 s.beaconL) = true)
     (¬gate → (s.beaconVerdict n nsq).1 = 0)
     ∧ (gate → wplaus = true → (s.beaconVerdict n nsq).1 = if s.bit Reg.TIDE_BCN_CFG Fd.TIDE_BCN_CFG_REPLAY = true then 4 else 3)
     ∧ (gate → wplaus = false → breaks →
       (s.beaconVerdict n nsq).1 = if s.bit Reg.TIDE_BCN_CFG Fd.TIDE_BCN_CFG_POLICY = true then 4 else 2)
     ∧ (gate → wplaus = false → ¬breaks → (s.beaconVerdict n nsq).1 = 1))

/-- R351: exact sums: the result does not depend on the order of the contributions; the sum of integers within the range that R351
gives is exact; NaN wins, infinities of both signs give NaN; a sum of 0 gives +0; and a contribution of 2^52 units or more
becomes the infinity of its sign and counts.

R349, R350, R354 to R357: a channel takes its oldest triggered bucket when it works on none; in a group of one module it
copies the next chunk of SRC to DST unchanged; a leaf sends its contribution to its parent; adder lanes that differ twice on a
chunk fail the job (R447); a chunk from a child is kept, and a message that breaks R356 fails the job. -/
def Obligations.SumsAndReductions : Prop :=
  ((∀ ws vs : List Nat, ws.Perm vs → exSum ws = exSum vs)
     ∧ (∀ ws : List Nat, (∀ w ∈ ws, w < 2 ^ 64 ∧ -2 ^ 62 ≤ sext 64 w ∧ sext 64 w < 2 ^ 62) →
       -2 ^ 62 ≤ (ws.map (sext 64)).foldr (· + ·) 0 → (ws.map (sext 64)).foldr (· + ·) 0 < 2 ^ 62 →
       sext 64 (exSum ws) = (ws.map (sext 64)).foldr (· + ·) 0)
     ∧ (∀ ws : List Nat, 0x8000000000000000 ∈ ws ∨ (0x8000000000000001 ∈ ws ∧ 0x8000000000000002 ∈ ws) →
       exSum ws = 0x8000000000000000)
     ∧ (∀ w : Int, exResult w 0 = 0 ∧ exResult w 0x8000000000000000 = 0x7FC00000 ∧ exResult w 0x8000000000000001 = 0x7F800000
       ∧ exResult w 0x8000000000000002 = 0xFF800000)
     ∧ (∀ (w : Int) (bits : Nat) neg m e, f32 bits = .fin neg m e →
       (2 ^ 52 ≤ roundTo .rne m e w → exWord w bits = (if neg then 0x8000000000000002 else 0x8000000000000001, true))
       ∧ (roundTo .rne m e w < 2 ^ 52 → (exWord w bits).2 = false
         ∧ sext 64 (exWord w bits).1 = if neg then -(roundTo .rne m e w : Int) else roundTo .rne m e w)))
  ∧ ((∀ (ch : Fin 8) (s : State) b r, (s.chan ch).cur = none → (s.chan ch).trig = b :: r →
     Gives (.bucketTrigger ch) s fun t => (t.chan ch).cur = some { bkt := b } ∧ (t.chan ch).trig = r
       ∧ t.bit (Reg.RCH_STATUS (ch / 2) (ch % 2)) Fd.RCH_STATUS_BUSY = true ∧ KeepsBut [.regs, .chans] s t
       ∧ RegsBut [Reg.RCH_STATUS (ch / 2) (ch % 2)] s t)
     ∧ (∀ (ch : Fin 8) (s : State) (r : BktRun), (s.chan ch).cur = some r →
       let raw := s.bktRaw r.bkt
       let tree := s.bktTree r.bkt
       let n := bktElems raw
       bktCh raw = ch.val → r.up < n → treeKids tree = [] →
       (treeRoot tree = true → s.bit Reg.ISL_SWAP_CTL Fd.ISL_SWAP_CTL_GO = false →
         let len := min 64 (n - r.up)
         r.written + len < n →
         Settles (.reduceChunk ⟨ch, none⟩) s fun t => t.bytes (bktDst raw + 4 * r.up) (4 * len) = s.bytes (bktSrc raw + 4 * r.up) (4 * len)
           ∧ BytesBut (bktDst raw + 4 * r.up) (4 * len) s t
           ∧ (∃ q, (t.chan ch).cur = some { r with up := r.up + len, written := r.written + len, nsq := q })
           ∧ (t.reg (Reg.RCH_CNT_ELEM (ch / 2) (ch % 2))).toNat
               = min ((s.reg (Reg.RCH_CNT_ELEM (ch / 2) (ch % 2))).toNat + len) 0xFFFFFFFF)
       ∧ (treeRoot tree = false → s.portSt (treeParent tree) = 4 → (s.chan ch).got = [] →
         let len := min (if bktExact raw then 32 else 64) (n - r.up)
         Settles (.reduceChunk ⟨ch, none⟩) s fun t => ∃ ws : List Nat, ws.length = len
           ∧ (t.port (treeParent tree)).txq = (s.port (treeParent tree)).txq.modify 2
               (· ++ [(136 + ch.val, s.redMsg (treeParent tree) r.bkt r.up false ws)])
           ∧ (bktExact raw = true → ∀ i, i < len →
               ws.getD i 0 = exSum [(exWord (bktExp raw) (s.memNat (bktSrc raw + 4 * (r.up + i)) 4)).1])
           ∧ (bktExact raw = false → ∀ i, i < len → ws.getD i 0 = s.memNat (bktSrc raw + 4 * (r.up + i)) 4)
           ∧ (t.chan ch).cur = some { r with up := r.up + len } ∧ (∀ x, t.byte x = s.byte x)))
     ∧ (∀ (ch : Fin 8) (s : State) (r : BktRun), (s.chan ch).cur = some r → s.sumsChunk ch r = true → s.tideSt ≠ 0 → s.tideSt ≠ 4 →
       s.bit Reg.TIDE_ERR Fd.TIDE_ERR_FAIL = false →
       Settles (.reduceChunk ⟨ch, some true⟩) s fun t => t.tideSt = 4 ∧ t.fld Reg.TIDE_FAIL Fd.TIDE_FAIL_REASON = 6
         ∧ t.chan ch = {})
     ∧ (∀ (k : Fin 16) (s : State) (m : Msg),
       ((s.port k).rxq.getD 2 []).find? (fun m => m.typ == 9 && !s.redHeld m) = some m → m.dst = s.selfId (portQ k) →
       (s.redOk k m = false → s.tideSt ≠ 0 → s.tideSt ≠ 4 → s.bit Reg.TIDE_ERR Fd.TIDE_ERR_FAIL = false →
         Settles (.reduce k) s fun t => t.tideSt = 4 ∧ t.fld Reg.TIDE_FAIL Fd.TIDE_FAIL_REASON = 3
           ∧ t.bit Reg.TIDE_ERR Fd.TIDE_ERR_GROUP = true)
       ∧ (s.redOk k m = true → bitsOf m.addr 19 19 = 0 →
         let ch := bktCh (s.bktRaw m.redBkt)
         Settles (.reduce k) s fun t => (t.chan ch).got
             = (s.chan ch).got ++ [⟨m.redBkt, k, bitsOf m.addr 63 32, m.redVals⟩]
           ∧ KeepsBut [.ports, .chans] s t)))

/-- R359: the manager is the candidate of the highest priority, and of the lowest serial number among those; the standby follows
it in that order, and takes the role when heartbeats are missed, with a new standby from the modules left. The heartbeat has
no message in the spec; the model counts it (DESIGN CHOICE, log entry 94). -/
def Obligations.ManagerRoles : Prop :=
  (∀ (cands : List Candidate) (s : State), s.up = true → cands ≠ [] →
    let cs := s.ownCand cands
    Gives (.election cands) s fun t => t.fw.cands = cs
      ∧ ∃ m ∈ cs, (∀ c ∈ cs, candBefore c m = false) ∧ t.fw.manager = m.id.toNat + 1
        ∧ (t.fw.standby = 0 ↔ ∀ c ∈ cs, c = m)
        ∧ (t.fw.standby ≠ 0 → ∃ b ∈ cs, b ≠ m ∧ t.fw.standby = b.id.toNat + 1 ∧ ∀ c ∈ cs, c ≠ m → candBefore c b = false)
        ∧ KeepsBut [.fw] s t)
    ∧ (∀ s : State, s.fw.manager = s.selfId 0 + 1 →
      Gives .heartbeat s fun t => t.fw.heartbeats = s.fw.heartbeats + 1 ∧ t.fw.manager = s.fw.manager ∧ KeepsBut [.fw] s t)
    ∧ (∀ s : State, s.fw.standby = s.selfId 0 + 1 →
      let left := s.fw.cands.filter fun c => c.id.toNat + 1 != s.fw.manager && c.id.toNat != s.selfId 0
      Gives .heartbeatMiss s fun t => t.fw.manager = s.selfId 0 + 1 ∧ (left = [] → t.fw.standby = 0)
        ∧ (left ≠ [] → ∃ b ∈ left, t.fw.standby = b.id.toNat + 1 ∧ ∀ c ∈ left, candBefore c b = false)
        ∧ KeepsBut [.fw, .events] s t)

/-- R366, R371, R372, R374, R376: the groups of an update of a unit, where no codeword of its stack is bad and no two of the
arrays that it writes overlap, nor one that it writes and another that it reads: word i of P, M1 and M2 of the buffer that it
writes becomes what the OP makes of words i of the buffer in CUR and of G, and nothing else changes. UCODE's registers begin
with free values (log entry 1).

R370, R371, R372, R375, R377: ADAM, MOMENTUM, SGD, UCODE and RELOAD run the descriptor at which the unit's oldest run stands:
where its checks pass and no working-copy write would fail, its groups run, the working copies are put, and, when none of them
leaves the module, the unit goes on to the set's next descriptor or ends the run. A descriptor that fails a check, or whose OP
is reserved, is faulted: its code and entry are recorded, nothing of it is written, and the run ends. Here its table entry and
its Chart read without an uncorrectable error. -/
def Obligations.FusedUpdates : Prop :=
  (∀ (u : Fin 8) (s : State) (lisl d : Nat) (inplace : Bool) (prog : List Nat), fuuOp d ≤ 3 → s.fuAddrsOk u d = true →
     (∀ a, hbmBase u ≤ a → a < hbmBase (u + 1) → s.cwAt a = .ok) →
     let n := fuCount d
     let j := s.updJob u d inplace prog
     (∀ x ∈ j.reads, ∀ y ∈ j.writes, x = y ∨ x + 4 * n ≤ y ∨ y + 4 * n ≤ x) →
     (j.writes.Pairwise fun x y => x + 4 * n ≤ y ∨ y + 4 * n ≤ x) →
     let t := (s.reg (Reg.FUU_T (u / 2) (u % 2))).toNat + 1
     let k : UpdK := ⟨d, clipFactor (fuD d 0 9 9 == 1) (s.reg64 Reg.TIDE_GNSQ_LO Reg.TIDE_GNSQ_HI)
       (s.reg (Reg.FUU_CLIP (u / 2) (u % 2))).toNat, (s.reg (Reg.FUU_EPS (u / 2) (u % 2))).toNat,
       biasCorr (fuD d 52 31 0) t, biasCorr (fuD d 56 31 0) t⟩
     let cur := s.fuuCur u
     let nxt := if inplace then cur else 1 - cur
     let w (a i : Nat) : Nat := s.memNat (a + 4 * i) 4
     let new (i : Nat) : Nat × Nat × Nat :=
       let p := w (s.fuBuf u d 0 cur) i
       let m := w (s.fuBuf u d 1 cur) i
       let v := w (s.fuBuf u d 2 cur) i
       let g := w (fuAddr d 3) i
       if fuuOp d = 0 then adamStep k p m v g else if fuuOp d = 1 then momentumStep k p m v g
       else if fuuOp d = 2 then sgdStep k p m v g else ucodeStep prog k (s.freeCtr + 16 * i) p m v g
     let x := s.fuGroups u lisl n [] j (fuGroupCount d) 0
     x.1 = some ((List.range n).map fun i => (new i).1)
       ∧ (∀ i, i < n → x.2.memNat (s.fuBuf u d 0 nxt + 4 * i) 4 = (new i).1 % 2 ^ 32
         ∧ x.2.memNat (s.fuBuf u d 1 nxt + 4 * i) 4 = (new i).2.1 % 2 ^ 32
         ∧ x.2.memNat (s.fuBuf u d 2 nxt + 4 * i) 4 = (new i).2.2 % 2 ^ 32)
       ∧ (∀ b, (∀ a ∈ j.writes, ¬(a ≤ b ∧ b < a + 4 * n)) → x.2.byte b = s.byte b))
  ∧ (∀ (u : Fin 8) (rt : List GroupRetry) (i : Instr) (op : Nat) (s : State) (r : FuuRun) (rest : List FuuRun),
     (i, op) ∈ [(Instr.adam u rt, 0), (Instr.momentum u rt, 1), (Instr.sgd u rt, 2), (Instr.ucode u rt, 3), (Instr.reload u rt, 4)] →
     (s.fuu u).runs = r :: rest → r.work = none →
     let d := s.fuuEntry u r.pos
     let q := u.val / 2
     let k := u.val % 2
     ∀ s1, s.fuTouch u r.pos = (false, s1) →
     let s2 : State := if op = 3 then { s1 with freeCtr := s1.freeCtr + 16 * fuCount d } else s1
     (∀ A u1 u2 u3 vals wb, fuuOp d = op → s.fuCheck u d = 0 → s.findWork s.nextWork = none →
       let c := parseChart (s.fuChart u d)
       (s2.addWork 6 .pilot 0).2.fuAcc u d s.nextWork = (A, u1) → u1.workFail A c d = (none, u2) →
       u2.fuGroups u A.lisl (fuCount d) rt
         (if op = 4 then s1.reloadJob u d else s1.updJob u d r.inplace ((s.uProg u 64 (fuD d 0 23 16)).getD [])) (fuGroupCount d) 0
         = (some vals, u3) →
       let u3' := if r.set = 0 then u3.count (Reg.FUU_CNT_PARAMS q k) (fuCount d) else u3
       ∀ u4, u3'.workPut A (parseChart (u3'.fuChart u d)) d (u3'.fuTide u d) vals.zipIdx = (.ok wb, u4) → (∀ b ∈ wb, b.1 = 0) →
       (∀ x, u4.findWork A.work = some x → x.out = 0) → (u4.fuu u).runs = r :: rest →
       Settles i s fun t => (∀ b, t.byte b = u4.byte b)
         ∧ (t.fuu u).runs = (match t.fuuNext u r.set (r.pos + 1) with
             | some n => ⟨r.set, n, r.inplace, none⟩ :: rest
             | none => rest)
         ∧ t.reg (Reg.FUU_CNT_PARAMS q k) = u4.reg (Reg.FUU_CNT_PARAMS q k))
     ∧ (∀ A u1 u2 f, fuuOp d = op → s.fuCheck u d = 0 → s.findWork s.nextWork = none →
       (s2.addWork 6 .pilot 0).2.fuAcc u d s.nextWork = (A, u1) → u1.workFail A (parseChart (s.fuChart u d)) d = (some f, u2) →
       Settles i s fun t => t.bit (Reg.FUU_ERR q k) Fd.FUU_ERR_FAULT = true ∧ (t.fuu u).runs = rest
         ∧ (s.loaded = true → s.tideSt ≠ 0 → t.tideSt = 4) ∧ (s.LinksQuiet → ∀ b, t.byte b = s.byte b))
     ∧ (∀ code, (fuuOp d = op ∨ (op ≤ 3 ∧ 7 ≤ fuuOp d)) → s.fuCheck u d = code → code ≠ 0 →
       s.bit (Reg.FUU_ERR q k) Fd.FUU_ERR_FAULT = false → s.bit (Reg.FUU_ERR q k) Fd.FUU_ERR_HARD = false → r.pos < 1024 →
       Settles i s fun t => t.bit (Reg.FUU_ERR q k) Fd.FUU_ERR_FAULT = true
         ∧ t.fld (Reg.FUU_ERR_INFO q k) Fd.FUU_ERR_INFO_CODE = code ∧ t.fld (Reg.FUU_ERR_INFO q k) Fd.FUU_ERR_INFO_ENTRY = r.pos
         ∧ (t.fuu u).runs = rest ∧ (s.loaded = true → s.tideSt ≠ 0 → t.tideSt = 4)
         ∧ (s.LinksQuiet → ∀ b, t.byte b = s.byte b)))

/-- R375: KEEP copies COUNT words from G to M1 and changes nothing else; COMPARE changes no memory, counts the words that differ,
and records the first one's index when it is the first of the set: words differ when one of them is NaN, or when as ordered
integers they lie further apart than TOL.

R370, R390: GO in FUU_CTL starts the set that SET names while no set runs: the unit's run is at the set's first descriptor;
without one the set is done at once. SET 0 runs nothing. A write of 0 to FUU_STATE.LOCK releases the lock. -/
def Obligations.KeepCompareAndSets : Prop :=
  (∀ (u : Fin 8) (s : State) (r : FuuRun) (rest : List FuuRun), (s.fuu u).runs = r :: rest → r.work = none → r.set ≠ 0 →
     let d := s.fuuEntry u r.pos
     let n := fuCount d
     let q := u.val / 2
     let k := u.val % 2
     let next (t : State) : List FuuRun := match t.fuuNext u r.set (r.pos + 1) with
       | some m => { r with pos := m } :: rest
       | none => rest
     s.fuCheck u d = 0 → (∀ a, hbmBase u ≤ a → a < hbmBase (u + 1) → s.cwAt a = .ok) → (s.fuTouch u r.pos).1 = false →
     (fuuOp d = 5 → fuAddr d 3 + 4 * n ≤ fuAddr d 1 ∨ fuAddr d 1 + 4 * n ≤ fuAddr d 3 →
       Settles (.keep u []) s fun t => t.bytes (fuAddr d 1) (4 * n) = s.bytes (fuAddr d 3) (4 * n)
         ∧ BytesBut (fuAddr d 1) (4 * n) s t ∧ (t.fuu u).runs = next t)
     ∧ (fuuOp d = 6 →
       let g (i : Nat) : Nat := s.memNat (fuAddr d 3 + 4 * i) 4
       let m (i : Nat) : Nat := s.memNat (fuAddr d 1 + 4 * i) 4
       let ord (x : Nat) : Int := if x < 2 ^ 31 then x else -((x % 2 ^ 31 : Nat) : Int)
       let diff (i : Nat) : Prop := (f32 (g i) = .nan ∧ f32 (m i) ≠ .nan) ∨ (f32 (g i) ≠ .nan ∧ f32 (m i) = .nan)
         ∨ (s.fld (Reg.FUU_CMP q k) Fd.FUU_CMP_TOL : Int) < |ord (g i) - ord (m i)|
       Settles (.compare u []) s fun t => (∀ b, t.byte b = s.byte b) ∧ (t.fuu u).runs = next t
         ∧ ((∀ i, i < n → ¬diff i) → t.reg (Reg.FUU_CMP_CNT q k) = s.reg (Reg.FUU_CMP_CNT q k)
           ∧ t.reg (Reg.FUU_CMP_FIRST q k) = s.reg (Reg.FUU_CMP_FIRST q k))
         ∧ (∀ i, i < n → diff i → (∀ j, j < i → ¬diff j) → s.reg (Reg.FUU_CMP_CNT q k) = 0 →
           (t.reg (Reg.FUU_CMP_FIRST q k)).toNat = i ∧ 0 < (t.reg (Reg.FUU_CMP_CNT q k)).toNat)))
  ∧ (∀ (r : Requester) (u : Fin 8) (s : State), s.up = true →
     let q := u.val / 2
     let k := u.val % 2
     (∀ v : BitVec 32, s.mayWrite r (Reg.FUU_CTL q k) = true → let set := v.toNat % 4
       (set ≠ 0 → (∀ x ∈ (s.fuu u).runs, x.set = 0) → ∀ e, s.fuuNext u set 0 = some e →
         Gives (.fuuSetGo r u v) s fun t => (t.fuu u).runs = (s.fuu u).runs ++ [⟨set, e, false, none⟩]
           ∧ t.bit (Reg.FUU_CTL q k) Fd.FUU_CTL_GO = true ∧ t.bit (Reg.FUU_STATE q k) Fd.FUU_STATE_BUSY = true
           ∧ (set = 3 → t.reg (Reg.FUU_CMP_CNT q k) = 0) ∧ KeepsBut [.regs, .fuus] s t)
       ∧ (set ≠ 0 → (∀ x ∈ (s.fuu u).runs, x.set = 0) → s.fuuNext u set 0 = none →
         Gives (.fuuSetGo r u v) s fun t => t.bit (Reg.FUU_CTL q k) Fd.FUU_CTL_GO = false
           ∧ t.bit (Reg.FUU_CTL q k) Fd.FUU_CTL_DONE = true ∧ KeepsBut [.regs] s t)
       ∧ (set = 0 → Gives (.fuuSetGo r u v) s fun t => KeepsBut [.regs] s t ∧ RegsBut [Reg.FUU_CTL q k] s t))
     ∧ (s.mayWrite r (Reg.FUU_STATE q k) = true →
       Gives (.lockRelease r u) s fun t => t.bit (Reg.FUU_STATE q k) Fd.FUU_STATE_LOCK = false
         ∧ t.fld (Reg.FUU_STATE q k) Fd.FUU_STATE_CUR = s.fld (Reg.FUU_STATE q k) Fd.FUU_STATE_CUR
         ∧ t.fld (Reg.FUU_STATE q k) Fd.FUU_STATE_INPLACE = s.fld (Reg.FUU_STATE q k) Fd.FUU_STATE_INPLACE
         ∧ (t.fuu u).runs = (s.fuu u).runs ∧ KeepsBut [.regs, .fuus] s t ∧ RegsBut [Reg.FUU_STATE q k] s t))

/-- R383, R384: once every unit holds LOCK a drain begins: the target slot's image gets the next SEQ, its header with COMPLETE 0
and the segments' table lie in the firmware's own memory, and Ferry 0 gets the descriptors. Once every write is done the
header is sent with COMPLETE 1, and once that is done too every LOCK is released and the image counts. A drain that is
abandoned releases every LOCK, keeps the newest image, and is recorded. (The slots, the addresses and the Ferry are the
model's: log entries 32 and 124.) -/
def Obligations.Drains : Prop :=
  ∀ s : State, let unlocked (t : State) : Prop := ∀ u : Fin 8, t.bit (Reg.FUU_STATE (u / 2) (u % 2)) Fd.FUU_STATE_LOCK = false
    (∀ md q, s.buddy = some (md, q) → (∀ u : Fin 8, s.bit (Reg.FUU_STATE (u / 2) (u % 2)) Fd.FUU_STATE_LOCK = true) →
      s.fw.drain = none →
      Gives (.checkpointDrain .begin) s fun t => (∃ d, t.fw.drain = some d ∧ d.buddy = md ∧ d.slot = 1 - s.fw.imgSlot
          ∧ d.seq = s.fw.imgSeq + 1 ∧ d.resume = s.fw.lockResume ∧ d.final = false ∧ (s.ferryFull 0 = false → d.ids ≠ []))
        ∧ t.memNat drainStage 4 = 0x4B43565A ∧ t.memNat (drainStage + 16) 4 = s.fw.lockResume % 2 ^ 32 ∧ t.byte (drainStage + 34) = 0
        ∧ t.fw.imgSeq = s.fw.imgSeq ∧ BytesBut drainStage 0x400000 s t)
    ∧ (s.fw.drain = none → (s.buddy = none ∨ ∃ u : Fin 8, s.bit (Reg.FUU_STATE (u / 2) (u % 2)) Fd.FUU_STATE_LOCK = false) →
      Waits (.checkpointDrain .begin) s)
    ∧ (∀ d, s.fw.drain = some d → s.drainThere d = true →
      (d.final = false → s.ferryFull 0 = false →
        Gives (.checkpointDrain .finish) s fun t => (∃ d', t.fw.drain = some d' ∧ d'.final = true ∧ d'.seq = d.seq ∧ d'.slot = d.slot)
          ∧ t.byte (drainStage + 34) = 1 ∧ t.fw.imgSeq = s.fw.imgSeq)
      ∧ (d.final = true →
        Gives (.checkpointDrain .finish) s fun t => t.fw.drain = none ∧ t.fw.imgSeq = d.seq ∧ t.fw.imgSlot = d.slot ∧ unlocked t
          ∧ (s.fw.trace.contains 0x041 = false → ∀ b, t.byte b = s.byte b)))
    ∧ (∀ d, s.fw.drain = some d → s.drainThere d = false → Waits (.checkpointDrain .finish) s)
    ∧ (∀ why, s.fw.drain.isSome = true ∨ (∃ u : Fin 8, s.bit (Reg.FUU_STATE (u / 2) (u % 2)) Fd.FUU_STATE_LOCK = true) →
      Gives (.drainAbandon why) s fun t => t.fw.drain = none ∧ t.fw.imgSeq = s.fw.imgSeq ∧ t.fw.imgSlot = s.fw.imgSlot
        ∧ unlocked t ∧ t.fw.logWr = s.fw.logWr + 1)
    ∧ (∀ why, s.fw.drain = none → (∀ u : Fin 8, s.bit (Reg.FUU_STATE (u / 2) (u % 2)) Fd.FUU_STATE_LOCK = false) →
      Waits (.drainAbandon why) s)

/-- R381, R382: the steps of a replay follow one another: while the module has marked a gate Tide held for REPLAY, a KEEP set on
every unit with the substitution chosen, or HALT where none is possible; FAILNOW and UNLOAD once it is done; the suspect
Island's logical Island on the spare; a RELOAD set; the load from the window's first Tide with REPLAY set; a COMPARE set; and
the end with REPLAY clear: a difference is passed to fault handling, and after a pass that was not clean the root stays held.

R387: a restore loads, of the images at hand, the complete one of the highest SEQ and no other: CUR 0, LOCK and INPLACE 0,
FUU_T and the Beacon's state from the header, and the job runs from its RESUME Tide. Master state goes into both buffers. -/
def Obligations.ReplayAndRestore : Prop :=
  ((∀ (s : State) (buddy : Option Bool), s.fw.replay = none →
       s.tideSt = 2 ∨ (s.tideSt = 3 ∧ s.fld Reg.TIDE_BCN_VERDICT Fd.TIDE_BCN_VERDICT_VERDICT = 3) →
       (∀ isl exch own, s.chooseSubst buddy = some (isl, exch, own) →
         Settles (.replay (.keep buddy)) s fun t => (∃ r, t.fw.replay = some r ∧ r.step = 2 ∧ r.isl = isl ∧ r.exch = exch ∧ r.own = own
             ∧ r.first = s.windowFirst s.tideNum)
           ∧ (∀ u : Fin 8, ∀ e, s.fuuNext u 2 0 = some e → (t.fuu u).runs = (s.fuu u).runs ++ [⟨2, e, false, none⟩])
           ∧ KeepsBut [.regs, .fuus, .fw] s t)
       ∧ (s.chooseSubst buddy = none →
         Settles (.replay (.keep buddy)) s fun t => t.fw.replay = none ∧ KeepsBut [.regs, .fw] s t
           ∧ (s.isRoot = true → t.fld Reg.TIDE_BCN_VERDICT Fd.TIDE_BCN_VERDICT_VERDICT = 4)))
     ∧ (∀ (s : State) (r : Replay), s.fw.replay = some r →
       let done := ∀ u : Fin 8, ∀ x ∈ (s.fuu u).runs, x.set = 0
       (r.step = 2 → done → s.loaded = true → 1 ≤ s.tideSt → s.tideSt ≤ 4 →
         Settles (.replay .unload) s fun t => t.fw.replay = some { r with step := 3 } ∧ t.loaded = false ∧ t.tideSt = 0)
       ∧ (∀ a b : Fin 144, r.step = 3 → s.loaded = false → r.isl = some (a.val, b.val) → s.logicalOf a < 136 → s.pinned a = false →
         s.pstate b = 2 → quarterOf a = quarterOf b → a ≠ b →
         Settles (.replay .substitute) s fun t => t.fw.replay = some { r with step := 4 }
           ∧ t.physOf (s.logicalOf a) = some b.val ∧ t.pstate b = 1 ∧ t.logicalOf b = s.logicalOf a ∧ t.pstate a = 3
           ∧ t.logicalOf a = 0xFF)
       ∧ (r.step = 3 → s.loaded = false → r.isl = none → r.exch = false →
         Settles (.replay .substitute) s fun t => t.fw.replay = some { r with step := 4 } ∧ KeepsBut [.fw] s t)
       ∧ (r.step = 4 → s.findWork r.work = none → r.exch = false →
         Settles (.replay .reloadSet) s fun t => t.fw.replay = some { r with step := 5 } ∧ ∀ u : Fin 8, ∀ e, s.fuuNext u 1 0 = some e →
           (t.fuu u).runs = (s.fuu u).runs ++ [⟨1, e, false, none⟩])
       ∧ (r.step = 5 → done →
         Settles (.replay .rerun) s fun t => t.fw.replay = some { r with step := 6 }
           ∧ t.bit Reg.TIDE_BCN_CFG Fd.TIDE_BCN_CFG_REPLAY = true)
       ∧ (r.step = 6 → s.tideSt = 2 ∨ s.tideSt = 3 → s.isGate s.tideNum = true →
         Settles (.replay .compareSet) s fun t => t.fw.replay = some { r with step := 7 } ∧ ∀ u : Fin 8, ∀ e, s.fuuNext u 3 0 = some e →
           (t.fuu u).runs = (s.fuu u).runs ++ [⟨3, e, false, none⟩] ∧ t.reg (Reg.FUU_CMP_CNT (u / 2) (u % 2)) = 0)
       ∧ (r.step = 7 → done → s.isRoot = false ∨ (s.tideSt = 3 ∧ 2 < s.fld Reg.TIDE_BCN_VERDICT Fd.TIDE_BCN_VERDICT_VERDICT) →
         Settles (.replay .finish) s fun t => t.fw.replay = none ∧ t.bit Reg.TIDE_BCN_CFG Fd.TIDE_BCN_CFG_REPLAY = false
           ∧ t.tideSt = s.tideSt
           ∧ ((∀ u : Fin 8, s.reg (Reg.FUU_CMP_CNT (u / 2) (u % 2)) = 0) → t.fw.faultq = s.fw.faultq)
           ∧ (∀ a b, r.isl = some (a, b) → (∃ u : Fin 8, s.reg (Reg.FUU_CMP_CNT (u / 2) (u % 2)) ≠ 0) →
             ∃ e, t.fw.faultq = s.fw.faultq ++ [e] ∧ e.unit = BitVec.ofNat 16 (islUnit a) ∧ e.typ = 7))))
  ∧ ((∀ (s : State) (images : List (BitVec 48)), s.loaded = false →
     let all := s.buddyImgs ++ (images.map (·.toNat)).map ImgSrc.here
     ((∀ i ∈ all, s.imgWhole i = false) → Waits (.restore (.loadImage images)) s)
     ∧ ((∃ i ∈ all, s.imgWhole i = true) → ∃ i ∈ all, s.imgWhole i = true
       ∧ (∀ j ∈ all, s.imgWhole j = true → s.imgNat j 8 8 ≤ s.imgNat i 8 8)
       ∧ Gives (.restore (.loadImage images)) s fun t => t.fw.restored = some (s.imgNat i 16 4)
         ∧ (∀ u : Fin 8, t.fuuCur u = 0 ∧ t.bit (Reg.FUU_STATE (u / 2) (u % 2)) Fd.FUU_STATE_LOCK = false
           ∧ t.bit (Reg.FUU_STATE (u / 2) (u % 2)) Fd.FUU_STATE_INPLACE = false
           ∧ (t.reg (Reg.FUU_T (u / 2) (u % 2))).toNat = s.imgNat i 20 4)
         ∧ (t.reg Reg.TIDE_BCN_EMA).toNat = s.imgNat i 24 4 ∧ (t.reg Reg.TIDE_BCN_WINS).toNat = s.imgNat i 28 4
         ∧ (s.imgNat i 32 2 = 0 → ∀ b, t.byte b = s.byte b)))
     ∧ (∀ s : State, s.loaded = false →
       Gives (.restore .reloadSet) s fun t => (∀ u : Fin 8, ∀ e, s.fuuNext u 1 0 = some e →
         (t.fuu u).runs = (s.fuu u).runs ++ [⟨1, e, false, none⟩]) ∧ KeepsBut [.regs, .fuus, .fw] s t)
     ∧ (∀ (s : State) (n : Nat), s.fw.restored = some n → (∀ u : Fin 8, ∀ x ∈ (s.fuu u).runs, x.set = 0) →
       s.loaded = false → s.fw.image = 0 → n < 2 ^ 32 →
       Settles (.restore .resume) s fun t => t.fw.restored = none ∧ (t.reg Reg.TIDE_FIRST).toNat = n)
     ∧ (∀ (s : State) (a : Nat) (g : Seg × Nat) u b, g.1.kind = 1 → s.masterBase g.1.src = (u, b) → hbmBase 0 ≤ b →
       b + s.boff u + g.1.len ≤ hbmBase 8 → g.1.len ≤ s.boff u →
       let bs := s.bytes (a + g.2) g.1.len
       let t := s.loadSeg (.here a) g
       t.bytes b g.1.len = bs ∧ t.bytes (b + s.boff u) g.1.len = bs
         ∧ ∀ x, ¬(b ≤ x ∧ x < b + g.1.len) → ¬(b + s.boff u ≤ x ∧ x < b + s.boff u + g.1.len) → t.byte x = s.byte x))

/-- R37, R38, R271, R272: a Pilot core loads `n` bytes of one codeword: an access error reads zeros and is recorded; a clean
codeword gives its bytes; a correctable error gives them too, counts in CNT_CE, and leaves the codeword; an uncorrectable
error or poison gives the bytes as stored, counts in CNT_UE or CNT_POISON, and ends in an access fault to the core (kind 5 of
the model's response). The first error's address is held.

R37, R38, R273: a Pilot core stores to one codeword, while no swap copies: an access error drops the store; a store of all 32
bytes leaves the codeword clean; a partial one merges, leaves a good codeword clean, and writes a bad one back poisoned, in
which case the core takes an access fault although its store completes. -/
def Obligations.CoreLoadsAndStores : Prop :=
  (∀ (c : Fin 4) (a : BitVec 48) (n : Nat) (s : State) (m : MemUnit), s.up = true → 1 ≤ n → a.toNat % 32 + n ≤ 32 →
     memUnitOf a.toNat = some m →
     let i := Instr.coreMemoryAccess (.pilot c) (.rd a n)
     let k := s.accessKind a.toNat false
     let one (t : State) (off : Nat) : Prop := (t.reg (memReg m off)).toNat = min ((s.reg (memReg m off)).toNat + 1) 0xFFFFFFFF
     let ub (t : State) : Prop := t.bus = .err 5 (s.bytes a.toNat n) ∧ t.bit (memReg m 0x010) Fd.HBM_ERR_UE = true
       ∧ (s.bit (memReg m 0x010) Fd.HBM_ERR_UE = false →
           t.reg64 (memReg m 0x020) (memReg m 0x024) = a.toNat / 32 * 32)
       ∧ KeepsBut [.bus, .regs, .events] s t
     (k ≠ 0 → Settles i s fun t => t.bus = .err k (List.replicate n 0) ∧ t.accessErrs = s.accessErrs ++ [⟨a.toNat, 9, false, k⟩]
       ∧ KeepsBut [.bus, .accessErrs] s t)
     ∧ (k = 0 → s.cwAt a.toNat = .ok →
       Settles i s fun t => t.bus = .data (s.bytes a.toNat n) ∧ KeepsBut [.bus] s t)
     ∧ (∀ sym, k = 0 → s.cwAt a.toNat = .ce sym →
       Settles i s fun t => t.bus = .data (s.bytes a.toNat n) ∧ one t 0x030 ∧ t.bit (memReg m 0x010) Fd.HBM_ERR_CE = true
         ∧ (s.bit (memReg m 0x010) Fd.HBM_ERR_CE = false →
           t.reg64 (memReg m 0x014) (memReg m 0x018) = a.toNat / 32 * 32 ∧ t.fld (memReg m 0x01C) Fd.HBM_CE_INFO_SYMBOL = sym.val)
         ∧ KeepsBut [.bus, .regs, .events] s t)
     ∧ (k = 0 → s.cwAt a.toNat = .ue → Settles i s fun t => ub t ∧ one t 0x034)
     ∧ (k = 0 → s.cwAt a.toNat = .poison → Settles i s fun t => ub t ∧ one t 0x038))
  ∧ (∀ (c : Fin 4) (a : BitVec 48) (d : List (BitVec 8)) (s : State) (m : MemUnit), s.up = true → 1 ≤ d.length →
     a.toNat % 32 + d.length ≤ 32 → memUnitOf a.toNat = some m → s.bit Reg.ISL_SWAP_CTL Fd.ISL_SWAP_CTL_GO = false →
     let i := Instr.coreMemoryAccess (.pilot c) (.wr a d)
     let k := s.accessKind a.toNat true
     let put (t : State) : Prop := t.bytes a.toNat d.length = d ∧ BytesBut a.toNat d.length s t
     let other (t : State) : Prop := ∀ x, x / 32 ≠ a.toNat / 32 → t.cwAt x = s.cwAt x
     (k ≠ 0 → Settles i s fun t => t.bus = .err k [] ∧ t.accessErrs = s.accessErrs ++ [⟨a.toNat, 9, true, k⟩]
       ∧ KeepsBut [.bus, .accessErrs] s t)
     ∧ (k = 0 → d.length = 32 →
       Settles i s fun t => t.bus = .data [] ∧ put t ∧ t.cwAt a.toNat = .ok ∧ other t ∧ KeepsBut [.bus, .mem, .cw] s t)
     ∧ (k = 0 → s.cwAt a.toNat = .ok →
       Settles i s fun t => t.bus = .data [] ∧ put t ∧ t.cwAt a.toNat = .ok ∧ other t ∧ KeepsBut [.bus, .mem, .cw] s t)
     ∧ (k = 0 → d.length < 32 → s.cwAt a.toNat = .ue ∨ s.cwAt a.toNat = .poison →
       Settles i s fun t => t.bus = .err 5 [] ∧ put t ∧ t.cwAt a.toNat = .poison ∧ other t
         ∧ (t.reg (memReg m 0x038)).toNat = min ((s.reg (memReg m 0x038)).toNat + (if s.cwAt a.toNat = .ue then 1 else 2)) 0xFFFFFFFF
         ∧ KeepsBut [.bus, .mem, .cw, .regs, .events] s t))

/-- R282, R283: a scrub read of a clean unit moves the scrubber on, and after the last unit starts the next pass; a correctable
codeword is counted and written back clean, unless it has been written since; an uncorrectable one stays as it is. No scrub
changes a byte, and none reads the slice of a RETIRED Island (R274).

R281, R284, R285, R287: a DRAM controller that loses its training for good is FAILED, with a record and a shortfall; it enters
MAINT while no program is loaded and leaves it with any loopback ended; in MAINT it runs a loopback at depth 0 to 2, whose
result is shown at its end, with a record where beats mismatched; the stack's own ECC count adds up. A Lagoon has none of
these. -/
def Obligations.ScrubbingAndControllers : Prop :=
  (∀ (m : MemUnit) (s : State), let pos := (s.reg (memReg m 0x008)).toNat
     let a := scrubAddr m pos
     let on := s.bit (memReg m 0x004) Fd.HBM_SCRUB_EN = true ∧ s.memState m = 1 ∧ s.scrub m = none
       ∧ s.sliceGone m = false
     (¬on → Waits (.scrubInterval m) s)
     ∧ (on → pos < scrubUnits m →
       Gives (.scrubInterval m) s fun t =>
         (pos + 1 < scrubUnits m → (t.reg (memReg m 0x008)).toNat = pos + 1 ∧ t.reg (memReg m 0x00C) = s.reg (memReg m 0x00C))
         ∧ (pos + 1 = scrubUnits m → t.reg (memReg m 0x008) = 0
           ∧ (t.reg (memReg m 0x00C)).toNat = min ((s.reg (memReg m 0x00C)).toNat + 1) 0xFFFFFFFF)
         ∧ (s.cwAt a = .ok → s.cwAt (a + 32) = .ok → t.scrub m = none ∧ KeepsBut [.regs] s t)
         ∧ (∀ x, s.cwAt a = .ce x → s.cwAt (a + 32) = .ok → t.scrub m = some ⟨pos, [a]⟩ ∧ KeepsBut [.regs, .events, .scrubs] s t
             ∧ (t.reg (memReg m 0x03C)).toNat = min ((s.reg (memReg m 0x03C)).toNat + 1) 0xFFFFFFFF)
         ∧ (s.cwAt a = .ue → s.cwAt (a + 32) = .ok → t.scrub m = none ∧ KeepsBut [.regs, .events] s t))
     ∧ (∀ x, s.scrub m = some x → s.sliceGone m = true →
       Gives (.scrubWriteBack m) s fun t => t.scrub m = none ∧ KeepsBut [.scrubs] s t)
     ∧ (∀ x, s.scrub m = some x → s.sliceGone m = false →
       Gives (.scrubWriteBack m) s fun t => t.scrub m = none
         ∧ (∀ b, (b / 32 ∈ x.fixes.map (· / 32) → ∀ y, s.cwAt b = .ce y → t.cwAt b = .ok)
           ∧ (b / 32 ∉ x.fixes.map (· / 32) ∨ (∀ y, s.cwAt b ≠ .ce y) → t.cwAt b = s.cwAt b))
         ∧ KeepsBut [.cw, .scrubs] s t)
     ∧ (s.scrub m = none → Waits (.scrubWriteBack m) s))
  ∧ (∀ (m : MemUnit) (s : State), s.up = true → isDram m = true →
     let st := memReg m 0x000
     let lb := memReg m 0x050
     (∀ g, Gives (.controllerTrainingLost m g) s fun t => t.bit (memReg m 0x010) Fd.HBM_ERR_LINK = true
         ∧ t.memState m = (if g = true then s.memState m else 3)
         ∧ t.fw.logWr = (if g = true then s.fw.logWr else s.fw.logWr + 1)
         ∧ (g = true → KeepsBut [.regs] s t) ∧ (g = false → s.events.length + 2 ≤ t.events.length))
     ∧ (∀ r, s.mayWrite r (memReg m 0x04C) = true →
       (s.loaded = false → s.memState m = 1 → Gives (.memoryMaint r m true) s fun t => t.memState m = 2 ∧ KeepsBut [.regs] s t)
       ∧ (s.loaded = true → Waits (.memoryMaint r m true) s)
       ∧ (s.memState m = 2 → Gives (.memoryMaint r m false) s fun t => t.memState m = 1
           ∧ t.bit st Fd.HBM_STATUS_LB_BUSY = false ∧ t.bit lb Fd.HBM_LB_CTL_GO = false ∧ KeepsBut [.regs] s t))
     ∧ (∀ r (v : BitVec 32), s.mayWrite r lb = true →
       (s.memState m = 2 → v.toNat % 4 ≠ 3 → s.bit st Fd.HBM_STATUS_LB_BUSY = false →
         Gives (.memoryLoopbackGo r m v) s fun t => t.bit st Fd.HBM_STATUS_LB_BUSY = true ∧ t.bit lb Fd.HBM_LB_CTL_GO = true
           ∧ t.fld lb Fd.HBM_LB_CTL_DEPTH = v.toNat % 4 ∧ KeepsBut [.regs] s t ∧ RegsBut [st, lb] s t)
       ∧ (s.memState m ≠ 2 ∨ v.toNat % 4 = 3 →
         Gives (.memoryLoopbackGo r m v) s fun t => KeepsBut [.regs] s t ∧ RegsBut [lb] s t
           ∧ t.fld lb Fd.HBM_LB_CTL_GO = s.fld lb Fd.HBM_LB_CTL_GO))
     ∧ (∀ x lane, s.bit st Fd.HBM_STATUS_LB_BUSY = true →
       Gives (.memoryLoopbackDone m x lane) s fun t => t.bit st Fd.HBM_STATUS_LB_BUSY = false
         ∧ t.bit lb Fd.HBM_LB_CTL_GO = false ∧ t.bit lb Fd.HBM_LB_CTL_DONE = true ∧ (t.bit lb Fd.HBM_LB_CTL_PASS = true ↔ x = 0)
         ∧ t.fld (memReg m 0x054) Fd.HBM_LB_RESULT_MISMATCH = min x 0xFFFF
         ∧ t.fld (memReg m 0x054) Fd.HBM_LB_RESULT_LANE = lane.getD 0x3FF % 1024
         ∧ (x = 0 → KeepsBut [.regs] s t) ∧ (x ≠ 0 → t.fw.logWr = s.fw.logWr + 1))
     ∧ (s.bit st Fd.HBM_STATUS_LB_BUSY = false → ∀ x lane, Waits (.memoryLoopbackDone m x lane) s)
     ∧ (∀ (k : Fin 8) (n : Nat),
       Gives (.odeccRead k n) s fun t =>
         (t.reg (memReg (.hbm k) 0x040)).toNat = min ((s.reg (memReg (.hbm k) 0x040)).toNat + n) 0xFFFFFFFF
           ∧ t.fw.logWr = (if n = 0 then s.fw.logWr else s.fw.logWr + 1))
     ∧ (∀ (p : Fin 144) r g (v : BitVec 32), Waits (.controllerTrainingLost (.lag p) g) s
       ∧ (s.mayWrite r (memReg (.lag p) 0x04C) = true → ∀ b, Waits (.memoryMaint r (.lag p) b) s)
       ∧ (s.mayWrite r (memReg (.lag p) 0x050) = true → Waits (.memoryLoopbackGo r (.lag p) v) s)))

/-- R395, R396, R397: IN_RING interrupts the serving core, which takes an URGENT message as a command in flight in the context
that the mailbox's last HELLO named, answers a reserved KIND with INVALID, and leaves a HELLO for its own step; a client's
write to IN while IN_RING is 1 is dropped and sets OVR, and no one else writes IN. The Pilot puts its next message into OUT
once the client has taken the last one. -/
def Obligations.Mailboxes : Prop :=
  ∀ (r : Requester) (m : Fin 8) (s : State), s.up = true →
    let db := Reg.PLT_MBX_DB m
    let out (t : State) := tget (fun _ => []) t.fw.mbxOut m
    (s.mayWrite r db = true →
      (s.coreReady (s.mbxOwner m) = false ∨ s.inByte m 0 = 1 →
        Gives (.inRing r m) s fun t => t.bit db Fd.PLT_MBX_DB_IN_RING = true
          ∧ t.bit db Fd.PLT_MBX_DB_OUT_RING = s.bit db Fd.PLT_MBX_DB_OUT_RING ∧ KeepsBut [.regs, .events] s t ∧ RegsBut [db] s t)
      ∧ (s.coreReady (s.mbxOwner m) = true → s.inByte m 0 ≠ 1 → s.inByte m 0 ≠ 3 →
        Gives (.inRing r m) s fun t => t.bit db Fd.PLT_MBX_DB_IN_RING = false
          ∧ (∃ ws, out t = out s ++ [ws] ∧ ws.getD 0 0 = 4 + 1 * 2 ^ 16) ∧ KeepsBut [.regs, .fw, .events] s t)
      ∧ (∀ opc ctx feats, s.coreReady (s.mbxOwner m) = true → s.inByte m 0 = 3 → s.inNat m 2 2 = opc → opc ∈ urgentOpcs →
        (∀ c ∈ s.fw.cmds, c.src ≠ .urgent m) → tget (fun _ => none) s.fw.mbxCtx m = some (ctx, feats) →
        s.ctxRings ctx ≠ [] → s.ctxFenced ctx = false →
        let args := (List.range 6).map fun i => s.inNat m (8 + 8 * i) 8
        preStatus opc feats args (s.inByte m 1 != 0) = none →
        Gives (.inRing r m) s fun t => t.bit db Fd.PLT_MBX_DB_IN_RING = false
          ∧ t.fw.cmds = s.fw.cmds ++ [⟨.urgent m, opc, ctx, feats, false, 0, args, 0, none⟩] ∧ KeepsBut [.regs, .fw, .events] s t))
    ∧ (∀ (i : Fin 16) (v : BitVec 32), s.mayWrite r (Reg.PLT_MBX_IN m i) = true →
      (mbxClient r m = false → Settles (.registerWrite r (BitVec.ofNat 48 (Reg.PLT_MBX_IN m i)) v) s fun t => t = s)
      ∧ (mbxClient r m = true → s.bit db Fd.PLT_MBX_DB_IN_RING = true →
        Settles (.registerWrite r (BitVec.ofNat 48 (Reg.PLT_MBX_IN m i)) v) s fun t =>
          t.bit db Fd.PLT_MBX_DB_OVR = true ∧ KeepsBut [.regs] s t ∧ RegsBut [db] s t)
      ∧ (mbxClient r m = true → s.bit db Fd.PLT_MBX_DB_IN_RING = false →
        Settles (.registerWrite r (BitVec.ofNat 48 (Reg.PLT_MBX_IN m i)) v) s fun t =>
          t.reg (Reg.PLT_MBX_IN m i) = v ∧ KeepsBut [.regs] s t ∧ RegsBut [Reg.PLT_MBX_IN m i] s t))
    ∧ (∀ (c : Fin 4) ws rest, out s = ws :: rest → s.coreReady c = true → s.mbxOwner m = c.val →
      (s.bit db Fd.PLT_MBX_DB_OUT_RING = false →
        Gives (.outRing c m) s fun t => t.bit db Fd.PLT_MBX_DB_OUT_RING = true ∧ out t = rest
          ∧ (∀ i : Fin 16, (t.reg (Reg.PLT_MBX_OUT m i)).toNat = ws.getD i 0 % 2 ^ 32) ∧ KeepsBut [.regs, .fw, .events] s t)
      ∧ (s.bit db Fd.PLT_MBX_DB_OUT_RING = true → Waits (.outRing c m) s))

/-- R398, R404 to R409: a HELLO for a closed ring whose header keeps R398 opens it, owned by the ready core with the fewest rings,
with the bitmap that both sides offer, and the header says so; an open ring is BUSY without RESUME; a header that breaks R398
is INVALID; a fenced context answers FENCED; context 15 is BUSY while the firmware keeps it for tests (DESIGN CHOICE, log
entry 129). -/
def Obligations.Hellos : Prop :=
  ∀ (m : Fin 8) (s : State), s.bit (Reg.PLT_MBX_DB m) Fd.PLT_MBX_DB_IN_RING = true → s.coreReady (s.mbxOwner m) = true →
    s.inByte m 0 = 1 → s.bit Reg.BOOT_STATUS Fd.BOOT_STATUS_READY = true → s.fld Reg.BOOT_STATUS Fd.BOOT_STATUS_STAGE ≠ 6 →
    let r := s.inByte m 4 % 64
    let h := s.inNat m 8 8 % 2 ^ 48
    let ctx := s.hdr h 7 1 % 16
    let feats := negotiated m (s.inByte m 2) (s.inByte m 1 / 2 % 2 == 1) (s.inNat m 16 32)
    let out (t : State) := tget (fun _ => []) t.fw.mbxOut m
    let refused (st : Nat) : Prop := Gives (.hello m) s fun t => (∃ ws, out t = out s ++ [ws] ∧ ws.getD 0 0 = 2 + st * 2 ^ 8 + 2 ^ 16)
      ∧ t.bit (Reg.PLT_MBX_DB m) Fd.PLT_MBX_DB_IN_RING = false ∧ KeepsBut [.regs, .fw] s t ∧ RegsBut [Reg.PLT_MBX_DB m] s t
    (s.session r = none → s.ringOk h r = true → s.ctxFenced ctx = false → ctx ≠ 15 ∨ s.policy 0 2 = 0 → 0x20000000000 ≤ h → s.fw.logBase = 0 →
      s.fw.logLog2 = 14 → ∀ owner, s.leastCore = some owner →
      Gives (.hello m) s fun t => t.session r = some ⟨h, ctx, feats⟩ ∧ t.ringOwner r = owner
        ∧ t.bit (Reg.PLT_ROWN r) Fd.PLT_ROWN_FTIMER = false ∧ t.hdr h 46 1 = 1 ∧ t.hdr h 5 1 = owner
        ∧ t.hdr h 64 32 = feats % 2 ^ 256 ∧ tget (fun _ => none) t.fw.mbxCtx m = some (ctx, feats)
        ∧ (∃ ws, out t = out s ++ [ws] ∧ ws.getD 0 0 = 2 + 2 ^ 16) ∧ t.fw.logWr = s.fw.logWr + 1)
    ∧ (∀ x, s.session r = some x → s.inByte m 1 % 2 = 0 ∨ h ≠ x.hdr → refused 4)
    ∧ (s.session r = none → s.ringOk h r = false → refused 1)
    ∧ (s.session r = none → s.ringOk h r = true → s.ctxFenced ctx = true → refused 0x0B)
    ∧ (s.session r = none → s.ringOk h r = true → s.ctxFenced ctx = false → ctx = 15 → s.policy 0 2 ≠ 0 → refused 4)
    ∧ (∀ owner, s.leastCore = some owner →
      owner < 4 ∧ s.coreReady owner = true ∧ ∀ d, d < 4 → s.coreReady d = true → s.ringCount owner ≤ s.ringCount d
        ∧ (s.ringCount d = s.ringCount owner → owner ≤ d))
    ∧ (∀ major expert client, (major ≠ 1 → negotiated m major expert client = 1)
      ∧ (major = 1 → (negotiated m major expert client).testBit 0 = true
        ∧ ((negotiated m major expert client).testBit 1 = true ↔ expert = true ∧ client.testBit 1 = true)
        ∧ ((negotiated m major expert client).testBit 8 = true ↔ 6 ≤ m.val ∧ client.testBit 8 = true)))

/-- R401, R402, R406, R410, R431: a ring that is due has room in flight and stands in the highest class with a command; its next
entry is accepted: its INFLIGHT bit is set, CMD_HEAD advances, and the command is in flight. A doorbell write sets the ring's
PEND. A feature that was not negotiated gives UNSUPPORTED, and a reserved bit INVALID.

R396, R400, R401: a performed command of a ring completes: the completion entry holds SEQ, STATUS, OPC, TOKEN and the results,
CPL_TAIL advances, the INFLIGHT bit is clear, and the command is gone; with QUIET and STATUS OK no entry is written. An URGENT
command is answered on its mailbox. -/
def Obligations.AcceptanceAndCompletion : Prop :=
  ((∀ (c : Fin 4) (ring : Fin 64) (s : State) (x : Sess), s.session ring = some x → s.coreReady c = true →
     s.urgentWaits c = false → s.dueRing c = some ring.val → s.ctxFenced x.ctx = false → inRingMem x.hdr 128 = true →
     s.fw.trace = [] →
     let h := x.hdr
     let head := s.hdr h 28 4
     let e := s.nextEntry h
     let opc := bitsOf e 15 0
     let args := (List.range 6).map fun i => bitsOf e (128 + 64 * i + 63) (128 + 64 * i)
     bitsOf e 63 32 = head → opc ≠ 0x0105 →
     Gives (.commandAccept c ring) s fun t =>
       t.fw.cmds = s.fw.cmds ++ [⟨.ring ring (BitVec.ofNat 32 head), opc, x.ctx, x.feats, bitsOf e 17 17 == 1, bitsOf e 127 64, args, 0,
         (preStatus opc x.feats args (bitsOf e 31 18 != 0)).map fun st => (st, 0, 0)⟩]
       ∧ t.hdr h 28 4 = (head + 1) % 2 ^ 32 ∧ (t.hdr h 40 4).testBit (head % 32) = true
       ∧ (∀ b, b ≠ head % 32 → (t.hdr h 40 4).testBit b = (s.hdr h 40 4).testBit b) ∧ BytesBut h 128 s t)
     ∧ (∀ (c : Fin 4) (ring : Fin 64) (s : State), s.session ring = none ∨ s.coreReady c = false ∨ s.urgentWaits c = true
         ∨ s.dueRing c ≠ some ring.val → Waits (.commandAccept c ring) s)
     ∧ (∀ (c r : Nat) (s : State), s.dueRing c = some r → ∃ x, s.session r = some x ∧ s.ringOwner r = c
       ∧ (s.ringCmds r).length < min 32 (s.ringN x.hdr)
       ∧ (s.hdr x.hdr 32 4 + 2 ^ 32 - s.hdr x.hdr 36 4 + (s.ringCmds r).length) % 2 ^ 32 ≠ s.ringN x.hdr
       ∧ (s.hdr x.hdr 40 4).testBit (s.hdr x.hdr 28 4 % 32) = false
       ∧ ∀ q, q < 64 → s.ringOwner q = c → s.ringReady q = true → s.ringPrio r ≤ s.ringPrio q)
     ∧ (∀ opc feats args rsv,
       (opcFeature opc = none → preStatus opc feats args rsv = some 2)
       ∧ (∀ f, opcFeature opc = some f → feats.testBit f = false → preStatus opc feats args rsv = some 2)
       ∧ (∀ f, opcFeature opc = some f → feats.testBit f = true → rsv = true → preStatus opc feats args rsv = some 1))
     ∧ (∀ (r : Requester) (ring : Fin 64) (s : State), s.up = true → s.mayWrite r Reg.PLT_RDB = true → s.fw.trace = [] →
       Gives (.pltRdb r ring) s fun t => t.bit (Reg.PLT_ROWN ring) Fd.PLT_ROWN_PEND = true ∧ t.ringOwner ring = s.ringOwner ring
         ∧ t.fld Reg.PLT_RDB Fd.PLT_RDB_RING = ring ∧ KeepsBut [.regs, .events] s t ∧ RegsBut [Reg.PLT_ROWN ring, Reg.PLT_RDB] s t))
  ∧ (∀ (src : PcpSrc) (s : State) (c : Cmd) (st r0 r1 : Nat), s.fw.cmds.find? (fun c => c.src == src) = some c →
     c.res = some (st, r0, r1) → s.srcServed src = true → s.closeWaits c = false →
     (∀ (ring : Fin 64) (seq : BitVec 32) (x : Sess), src = .ring ring seq → s.session ring = some x → c.opc ≠ 0x0002 →
       s.fw.trace = [] → inRingMem x.hdr 128 = true →
       let h := x.hdr
       let tail := s.hdr h 32 4
       let e := s.hdr h 16 8 % 2 ^ 48 + 32 * (tail % s.ringN h)
       let gone (t : State) : Prop := t.fw.cmds = s.fw.cmds.filter (fun y => y.src ≠ src)
         ∧ (t.hdr h 40 4).testBit (seq.toNat % 32) = false
         ∧ ∀ b, b ≠ seq.toNat % 32 → (t.hdr h 40 4).testBit b = (s.hdr h 40 4).testBit b
       (c.quiet = false ∨ st ≠ 0 → inRingMem e 32 = true → e + 32 ≤ h ∨ h + 128 ≤ e →
         Gives (.commandComplete src) s fun t => gone t ∧ t.hdr h 32 4 = (tail + 1) % 2 ^ 32
           ∧ t.memNat e 4 = seq.toNat ∧ t.memNat (e + 4) 2 = st % 2 ^ 16 ∧ t.memNat (e + 6) 2 = c.opc % 2 ^ 16
           ∧ t.memNat (e + 8) 8 = c.token % 2 ^ 64 ∧ t.memNat (e + 16) 8 = r0 % 2 ^ 64 ∧ t.memNat (e + 24) 8 = r1 % 2 ^ 64)
       ∧ (c.quiet = true → st = 0 → Gives (.commandComplete src) s fun t => gone t ∧ t.hdr h 32 4 = tail))
     ∧ (∀ m : Fin 8, src = .urgent m →
       Gives (.commandComplete src) s fun t => t.fw.cmds = s.fw.cmds.filter (fun y => y.src ≠ src)
         ∧ (∃ ws, tget (fun _ => []) t.fw.mbxOut m = tget (fun _ => []) s.fw.mbxOut m ++ [ws]
           ∧ ws.getD 0 0 = 4 + st % 2 ^ 16 * 2 ^ 16 ∧ ws.getD 2 0 = r0 % 2 ^ 32) ∧ KeepsBut [.fw] s t))

/-- R427, R429, R430, R431: a core whose watchdog expires is reset and its rings' fence timers start; READY takes its rings up
again; a core that stays away loses its mailboxes, its duties and its open rings to ready cores; OWNER moves between ready
cores only with nothing in flight; a fence timer that runs out fences the context and every ring of it.

R432, R435: with no Pilot core ready for 500 ms the hardware fails the job; a write of SHR_RST takes Shore cores into reset,
and each leaves it alone. -/
def Obligations.PilotRestartAndResets : Prop :=
  (∀ (c : Fin 4) (s : State), s.up = true → let core := Reg.PLT_CORE c
     (s.coreReady c = true →
       Gives (.watchdogExpiry c) s fun t => t.coreReady c = false ∧ t.bit core Fd.PLT_CORE_EXPIRED = true
         ∧ t.fld core Fd.PLT_CORE_RESTARTS = min 0xFF (s.fld core Fd.PLT_CORE_RESTARTS + 1)
         ∧ (∀ r : Fin 64, s.ringOwner r = c.val → t.bit (Reg.PLT_ROWN r) Fd.PLT_ROWN_FTIMER = true ∧ t.ringOwner r = c.val)
         ∧ (∀ d : Fin 4, d ≠ c → t.coreReady d = s.coreReady d)
         ∧ (∀ y ∈ t.fw.cmds, ∀ m, y.src = .urgent m → s.mbxOwner m ≠ c.val))
     ∧ Gives (.kick c) s (fun t => t.fld (Reg.PLT_WDOG c) Fd.PLT_WDOG_LEFT = 50 ∧ tget (fun _ => 0) t.fw.kicks c = s.cycle
         ∧ KeepsBut [.regs, .fw] s t ∧ RegsBut [Reg.PLT_WDOG c] s t)
     ∧ (s.coreReady c = false →
       Gives (.ready c) s fun t => t.coreReady c = true
         ∧ ∀ r : Fin 64, s.ringOwner r = c.val → t.ringOwner r = c.val ∧ t.bit (Reg.PLT_ROWN r) Fd.PLT_ROWN_FTIMER = false)
     ∧ (∀ d rest, s.coreReady c = false → s.fld core Fd.PLT_CORE_RESTARTS ≠ 0 → s.readyCores = d :: rest →
       Gives (.ringAdoption c) s fun t =>
         (∀ m : Fin 8, t.mbxOwner m = if s.mbxOwner m = c.val then d else s.mbxOwner m)
         ∧ t.fw.duty = (if s.fw.duty = c.val then d else s.fw.duty)
         ∧ (∀ r : Fin 64, (s.session r).isSome = true → s.ringOwner r = c.val →
           t.coreReady (t.ringOwner r) = true ∧ t.bit (Reg.PLT_ROWN r) Fd.PLT_ROWN_FTIMER = false)
         ∧ (∀ r : Fin 64, s.ringOwner r ≠ c.val → t.ringOwner r = s.ringOwner r))
     ∧ (∀ (r : Fin 64) (owner : Fin 4), let old := s.ringOwner r
       (c.val ≠ old → s.coreReady old = true → Waits (.pltRownWrite c r owner) s)
       ∧ (s.coreReady old = true → ∀ x, s.session r = some x → s.inflightBits x.hdr ≠ [] → Waits (.pltRownWrite c r owner) s)
       ∧ (c.val = old ∨ s.coreReady old = false → s.coreReady old = false ∨ s.session r = none
           ∨ (∃ x, s.session r = some x ∧ s.inflightBits x.hdr = []) →
         Gives (.pltRownWrite c r owner) s fun t => t.ringOwner r = owner.val ∧ ∀ q : Fin 64, q ≠ r → t.ringOwner q = s.ringOwner q))
     ∧ (∀ (r : Fin 64) (x : Sess), s.session r = some x → s.bit (Reg.PLT_ROWN r) Fd.PLT_ROWN_FTIMER = true →
       s.coreReady (s.ringOwner r) = false → x.ctx < 16 →
       Gives (.fenceTimerExpiry r) s fun t => t.ctxFenced x.ctx = true ∧ t.bit (Reg.PLT_ROWN r) Fd.PLT_ROWN_FTIMER = false
         ∧ (∀ y, y < 16 → y ≠ x.ctx → t.ctxFenced y = s.ctxFenced y)
         ∧ ((∀ (q : Fin 64) y, s.session q = some y → y.ctx = x.ctx → s.coreReady (s.ringOwner q) = false) →
           0x20000000000 ≤ x.hdr → x.hdr < 2 ^ 48 → s.fw.logBase = 0 → s.fw.logLog2 = 14 → t.hdr x.hdr 46 1 = 3)
         ∧ s.fw.logWr < t.fw.logWr ∧ s.events.length < t.events.length))
  ∧ ((∀ s : State, (∀ c : Fin 4, s.coreReady c = false) → s.loaded = true → s.tideSt ≠ 0 → s.tideSt ≠ 4 →
       Settles .noReadyPilot s fun t => t.tideSt = 4 ∧ t.bit Reg.TIDE_ERR Fd.TIDE_ERR_FAIL = true)
     ∧ (∀ s : State, (∃ c : Fin 4, s.coreReady c = true) ∨ s.loaded = false → Waits .noReadyPilot s)
     ∧ (∀ (r : Requester) (cores : BitVec 16) (s : State), s.up = true → s.mayWrite r Reg.SHR_RST = true →
       Gives (.shrRst r cores) s fun t => t.reg Reg.SHR_RST = s.reg Reg.SHR_RST ||| cores.setWidth 32
         ∧ t.reg Reg.SHR_STATUS = s.reg Reg.SHR_STATUS &&& ~~~(t.reg Reg.SHR_RST)
         ∧ KeepsBut [.regs] s t ∧ RegsBut [Reg.SHR_RST, Reg.SHR_STATUS] s t)
     ∧ (∀ (k : Fin 16) (s : State), let at' (t : State) (a : Nat) : Bool := (t.reg a).getLsbD k
       (at' s Reg.SHR_RST = true →
         Gives (.shoreRestartDone k) s fun t => at' t Reg.SHR_RST = false ∧ at' t Reg.SHR_STATUS = true
           ∧ (∀ j, j ≠ k.val → (t.reg Reg.SHR_RST).getLsbD j = (s.reg Reg.SHR_RST).getLsbD j)
           ∧ KeepsBut [.regs] s t ∧ RegsBut [Reg.SHR_RST, Reg.SHR_STATUS] s t)
       ∧ (at' s Reg.SHR_RST = false → Waits (.shoreRestartDone k) s)))

/-- R401, R403, R410, R431: a row of a PCP command performs the command of its opcode that is in flight from its source, and does
nothing where there is none to perform. The only command in flight of a ring is performed where its core serves and its
context is not fenced; one that names the unit of an earlier one of its ring waits for it. -/
def Obligations.PcpGate : Prop :=
  (∀ (src : PcpSrc) (as : List ModuleAnswer) (ds : List DepthResult) (rs : List CaseRun) (i : Instr) (opc : Nat) (s : State),
    (i, opc) ∈ [(Instr.pcpNop src, 0x0001), (.ringClose src, 0x0002), (.pilotStatus src, 0x0003), (.memAlloc src, 0x0101),
      (.memFree src, 0x0102), (.map src, 0x0103), (.unmap src, 0x0104), (.ctxRecover src, 0x0105), (.chartWrite src, 0x0201),
      (.t1Validate src, 0x0202), (.tensorPlace src, 0x0203), (.progLoad src as, 0x0301), (.progUnload src as, 0x0302),
      (.jobResumeContinue src, 0x0303), (.jobResumeRewind src, 0x0303), (.jobResumeRestore src, 0x0303), (.batchCancel src, 0x0304),
      (.ckptCfg src, 0x0305), (.ckptNow src, 0x0306), (.buoySet src, 0x0401), (.buoyDump src, 0x0402), (.regRead src, 0x0403),
      (.regWrite src, 0x0404), (.ferrySubmit src, 0x0405), (.placePin src, 0x0501), (.placeUnpin src, 0x0502),
      (.placeQuery src, 0x0503), (.unitQuery src, 0x0601), (.unitSet src, 0x0602), (.maintRun src ds, 0x0603), (.logCfg src, 0x0701),
      (.traceSet src, 0x0702), (.attest src, 0x0801), (.testpackInstall src as, 0x0802), (.testpackRun src rs, 0x0802),
      (.testpackQuery src, 0x0802), (.testpackPolicy src, 0x0802), (.testpackExport src, 0x0802), (.fwUpdate src, 0x0803)] →
    s.pcpCmd src opc = none → Waits i s)
    ∧ (∀ (src : PcpSrc) (s : State) (c : Cmd), s.fw.cmds = [c] → c.src = src → c.res = none → s.up = true →
      s.srcServed src = true → s.ctxFenced c.ctx = false → s.pcpCmd src c.opc = some c)
    ∧ (∀ (r : Fin 64) (m n : BitVec 32) (s : State) (c d : Cmd) (o : Nat), s.fw.cmds = [c, d] → c.src = .ring r m → d.src = .ring r n →
      m ≠ n → c.res = none → c.opc ∈ [0x0601, 0x0602, 0x0603] → d.opc ∈ [0x0601, 0x0602, 0x0603] → c.arg 0 = d.arg 0 →
      s.pcpCmd (.ring r n) o = none)

/-- R408, R411, R412, R431: NOP does nothing; RING_CLOSE is BUSY where it would close a context that the loaded program uses;
PILOT_STATUS gives PLT_CORE of the four cores and the firmware's version; CTX_RECOVER opens a fenced context again, whose ring
shows STATE 1, or 2 while its owner does not serve, and the next EPOCH, and is BUSY for one that is not fenced.

R155, R159, R369, R411, R412, R419: CKPT_CFG is recorded; CKPT_NOW sets CKPT for the next GO and completes once every unit is
locked; BUOY_SET sets a count and answers the previous one; BUOY_DUMP dumps all four Quarters; REG_READ and REG_WRITE reach
what R392 allows a Shore core; FERRY_SUBMIT submits; pins are kept, dropped and shown. -/
def Obligations.PcpSessionsAndResources : Prop :=
  (∀ (src : PcpSrc) (s : State) (c : Cmd),
     (s.pcpCmd src 0x0001 = some c → Performs (.pcpNop src) src s 0 0 0 (KeepsBut [.fw] s))
     ∧ (s.pcpCmd src 0x0002 = some c →
       Performs (.ringClose src) src s (if (s.ctxRings c.ctx).length ≤ 1 ∧ s.ctxUsed c.ctx = true then 4 else 0) 0 0 (KeepsBut [.fw] s))
     ∧ (s.pcpCmd src 0x0003 = some c →
       let core (i : Nat) : Nat := (s.reg (Reg.PLT_CORE i)).toNat % 2 ^ 16
       Performs (.pilotStatus src) src s 0 (core 0 + core 1 * 2 ^ 16 + core 2 * 2 ^ 32 + core 3 * 2 ^ 48) s.boot.fwver
         (KeepsBut [.fw] s))
     ∧ (s.pcpCmd src 0x0105 = some c → s.ctxFenced c.ctx = false → Performs (.ctxRecover src) src s 4 0 0 (KeepsBut [.fw] s))
     ∧ (∀ r x, s.pcpCmd src 0x0105 = some c → s.ctxFenced c.ctx = true → s.ctxRings c.ctx = [r] → s.session r = some x →
       inRingMem x.hdr 128 = true → s.fw.trace = [] →
       let e := (s.hdr x.hdr 44 2 + 1) % 2 ^ 16
       Performs (.ctxRecover src) src s 0 e 0 fun t => t.ctxFenced c.ctx = false
         ∧ t.hdr x.hdr 46 1 = (if s.coreReady (s.ringOwner r) = true then 1 else 2) ∧ t.hdr x.hdr 44 2 = e
         ∧ BytesBut x.hdr 128 s t))
  ∧ (∀ (src : PcpSrc) (s : State) (c : Cmd), let a (i : Nat) := c.arg i
     (s.pcpCmd src 0x0305 = some c →
       Performs (.ckptCfg src) src s 0 0 0 fun t => t.fw.storeEvery = a 0 ∧ t.fw.storeNs = a 1 ∧ t.fw.storeFirst = a 2)
     ∧ (s.pcpCmd src 0x0306 = some c → c.stage = 0 → s.fw.manager = s.selfId 0 + 1 → s.loaded = true → s.anyLocked = false →
       Settles (.ckptNow src) s fun t => (t.fld Reg.TIDE_GO Fd.TIDE_GO_CMD).testBit 2 = true
         ∧ (∃ y ∈ t.fw.cmds, y.src = src ∧ y.res = none ∧ y.stage = 1) ∧ KeepsBut [.regs, .fw] s t ∧ RegsBut [Reg.TIDE_GO] s t)
     ∧ (s.pcpCmd src 0x0306 = some c → c.stage ≠ 0 → s.allLocked = true →
       Performs (.ckptNow src) src s 0 s.fw.lockTide 0 (KeepsBut [.fw] s))
     ∧ (s.pcpCmd src 0x0401 = some c → a 0 % 256 < s.logicalCount → a 1 ≤ buoyMax →
       let q := s.home (a 0 % 256)
       let b := bitsOf (a 0) 21 8
       Performs (.buoySet src) src s 0 (s.buoy q b) 0 fun t => t.buoy q b = a 1)
     ∧ (s.pcpCmd src 0x0402 = some c → c.stage = 0 → s.dumping = false → a 0 % 4096 = 0 → readable (a 0) 0x200000 = true →
       Settles (.buoyDump src) s fun t => (∀ q : Fin 4, t.bit (Reg.BUOY_DUMP_CTL q) Fd.BUOY_DUMP_CTL_GO = true
           ∧ t.addr48 (Reg.BUOY_DUMP_ADDR_LO q) (Reg.BUOY_DUMP_ADDR_HI q) = a 0 + q * 0x80000)
         ∧ ∃ y ∈ t.fw.cmds, y.src = src ∧ y.res = none ∧ y.stage = 1)
     ∧ (s.pcpCmd src 0x0402 = some c → c.stage ≠ 0 → s.dumping = false →
       let err := ∃ q : Fin 4, s.bit (Reg.BUOY_DUMP_CTL q) Fd.BUOY_DUMP_CTL_ERR = true
       (¬err → Performs (.buoyDump src) src s 0 0 0 (KeepsBut [.fw] s)) ∧ (err → Performs (.buoyDump src) src s 7 1 0 (KeepsBut [.fw] s)))
     ∧ (∀ row mask, s.pcpCmd src 0x0403 = some c → a 1 = 1 → a 0 % 4 = 0 → regRow? (a 0) = some row → pcpReadMask (a 0) = some mask →
       Performs (.regRead src) src s 0 (s.reg (a 0) &&& mask).toNat 0 fun t => RegsBut [a 0] s t ∧ KeepsBut [.regs, .fw] s t)
     ∧ (s.pcpCmd src 0x0403 = some c → a 1 = 1 → a 0 % 4 = 0 → pcpReadMask (a 0) = none →
       Performs (.regRead src) src s 0x0E 0 0 (KeepsBut [.fw] s))
     ∧ (s.pcpCmd src 0x0404 = some c → a 0 % 4 = 0 → pcpWritable (a 0) = true →
       let w1c := match regRow? (a 0) with | some r => r.mask .w1c | none => 0
       let m := BitVec.ofNat 32 (a 2)
       let u := (s.wrReg (if inMbx 0 5 (a 0) then .shore 0 else .pilot 0) (a 0) ((BitVec.ofNat 32 (a 1) &&& m) ||| (s.reg (a 0) &&& ~~~m &&& ~~~w1c))).rd (a 0)
       Performs (.regWrite src) src s 0 u.1.toNat 0 fun t => ∀ x, t.reg x = u.2.reg x)
     ∧ (s.pcpCmd src 0x0404 = some c → a 0 % 4 = 0 → pcpWritable (a 0) = false →
       Performs (.regWrite src) src s 0x0E 0 0 (KeepsBut [.fw] s))
     ∧ (s.pcpCmd src 0x0405 = some c → a 1 < 16 → a 0 % 64 = 0 → a 0 < 2 ^ 48 → readable (a 0) 64 = true →
       bitsOf (s.memNat (a 0) 4) 30 27 = c.ctx →
       ((s.fry (a 1)).queue.length < 64 → Performs (.ferrySubmit src) src s 0 0 0 fun t =>
         (t.fry (a 1)).queue = (s.fry (a 1)).queue ++ [⟨s.nextWork, .pilot, 0, a 0, false⟩])
       ∧ (64 ≤ (s.fry (a 1)).queue.length → Performs (.ferrySubmit src) src s 8 0 0 fun t => ∀ f, t.fry f = s.fry f))
     ∧ (s.pcpCmd src 0x0501 = some c →
       (a 0 = 1 → a 1 < 136 → a 2 < 144 → quarterOf (a 2) = s.home (a 1) → s.pstate (a 2) = 1 → s.loaded = true →
         (s.lmapPhys (a 1) = a 2 → Performs (.placePin src) src s 0 0 0 fun t => t.lmapPin (a 1) = true ∧ t.lmapPhys (a 1) = a 2)
         ∧ (s.lmapPhys (a 1) ≠ a 2 → Performs (.placePin src) src s 9 0 0 (KeepsBut [.fw] s)))
       ∧ (a 0 = 3 → a 2 ≠ 0 → a 1 + a 2 ≤ 32768 → Performs (.placePin src) src s 0 0 0 fun t => (a 1, a 2) ∈ t.fw.pinBot))
     ∧ (s.pcpCmd src 0x0502 = some c →
       (a 0 = 1 → a 1 < 136 → s.lmapPin (a 1) = true → s.lmapPhys (a 1) = a 2 →
         Performs (.placeUnpin src) src s 0 0 0 fun t => t.lmapPin (a 1) = false ∧ t.lmapPhys (a 1) = a 2)
       ∧ (a 0 = 3 → (a 1, a 2) ∈ s.fw.pinBot →
         Performs (.placeUnpin src) src s 0 0 0 fun t => t.fw.pinBot = s.fw.pinBot.erase (a 1, a 2)))
     ∧ (s.pcpCmd src 0x0503 = some c → a 0 < 136 →
       Performs (.placeQuery src) src s 0 (s.lmapPhys (a 0) + (if s.lmapPin (a 0) = true then 2 ^ 8 else 0)) 0 (KeepsBut [.fw] s)))

/-- R411, R412, R419: MEM_ALLOC gives memory that meets none that is given out, at a VA that meets none of the context's, and
invalidates the context's translations; MEM_FREE takes back what is left of what MEM_ALLOC returned at a VA, and is INVALID at
any other; MEM_FREE, MAP and UNMAP change the records and the page tables; a context that the loaded program uses is BUSY, a
target outside R192 PROTECT. R191: a page that is put where no table is yet is found by a walk.

R184, R195, R197, R198, R411, R412: CHART_WRITE copies the entry into the slot of the logical Island it names, and refuses one
with T1 set; T1_VALIDATE answers STATUS; TENSOR_PLACE writes the placed Chart and answers BASE and BOT_BASE. Each invalidates
the Charts that the Islands keep. -/
def Obligations.PcpMemoryAndCharts : Prop :=
  (∀ (src : PcpSrc) (s : State) (c : Cmd), let a (i : Nat) := c.arg i
     let cold (t : State) : Prop := ∀ q, q < 4 → ∀ e ∈ (t.qtr q).tlb, e.ctx ≠ c.ctx
     let apart (x : Alloc) (va n : Nat) : Prop := x.va + x.bytes ≤ va ∨ va + n ≤ x.va
     (s.pcpCmd src 0x0101 = some c → s.ctxUsed c.ctx = false → a 0 ≠ 0 → a 0 % 2 ^ 21 = 0 → bitsOf (a 1) 15 8 = 0xFF →
       (∀ va u, s.allocMem c.ctx (a 1 % 4) 0xFF (a 0) (bitsOf (a 1) 16 16 == 1) = some (va, u) →
         Performs (.memAlloc src) src s 0 va 0 fun t => cold t ∧ 2 ^ 21 ≤ va ∧ va % 2 ^ 21 = 0 ∧ va + a 0 ≤ 2 ^ 52
           ∧ (∀ x ∈ s.fw.allocs, x.ctx = c.ctx → apart x va (a 0))
           ∧ ∃ pa, t.fw.allocs = s.fw.allocs ++ [⟨c.ctx, va, pa, a 0, false, false, va⟩]
             ∧ ∀ x ∈ s.fw.allocs, x.pa + x.bytes ≤ pa ∨ pa + a 0 ≤ x.pa)
       ∧ (s.allocMem c.ctx (a 1 % 4) 0xFF (a 0) (bitsOf (a 1) 16 16 == 1) = none →
         Performs (.memAlloc src) src s 6 0 0 (KeepsBut [.fw] s)))
     ∧ (s.pcpCmd src 0x0101 = some c → s.ctxUsed c.ctx = true → Performs (.memAlloc src) src s 4 0 0 (KeepsBut [.fw] s))
     ∧ (s.pcpCmd src 0x0102 = some c → s.ctxUsed c.ctx = false →
       let own (x : Alloc) : Bool := x.ctx == c.ctx && x.root == a 0 && !x.mapped
       ((∃ x ∈ s.fw.allocs, own x = true) →
         Performs (.memFree src) src s 0 0 0 fun t => t.fw.allocs = s.fw.allocs.filter (fun x => !own x) ∧ cold t)
       ∧ ((∀ x ∈ s.fw.allocs, own x = false) → Performs (.memFree src) src s 1 0 0 (KeepsBut [.fw] s)))
     ∧ (s.pcpCmd src 0x0103 = some c → s.ctxUsed c.ctx = false → a 2 ≠ 0 → a 0 + a 2 ≤ 2 ^ 52 →
       let giga := bitsOf (a 3) 2 2 == 1
       let sz := if giga then 2 ^ 30 else 2 ^ 21
       a 0 % sz = 0 → a 1 % sz = 0 → a 2 % sz = 0 →
       (frameOk (a 1) (a 2) = true → giga = false ∨ 0x88000000 ≤ a 1 → s.tablesLeft (a 2) = true →
         Performs (.map src) src s 0 0 0 fun t => cold t ∧ ⟨c.ctx, a 0, a 1, a 2, giga, true, a 0⟩ ∈ t.fw.allocs
           ∧ ∀ x ∈ t.fw.allocs, x.ctx = c.ctx → x = ⟨c.ctx, a 0, a 1, a 2, giga, true, a 0⟩ ∨ apart x (a 0) (a 2))
       ∧ (frameOk (a 1) (a 2) = false → Performs (.map src) src s 0x0E 0 0 (KeepsBut [.fw] s)))
     ∧ (s.pcpCmd src 0x0104 = some c → s.ctxUsed c.ctx = false → a 1 ≠ 0 → a 1 % 2 ^ 21 = 0 → a 0 % 2 ^ 21 = 0 → a 0 + a 1 ≤ 2 ^ 52 →
       Performs (.unmap src) src s 0 0 0 fun t => cold t ∧ ∀ x ∈ t.fw.allocs, x.ctx = c.ctx → apart x (a 0) (a 1))
     ∧ (∀ (ctx va pa : Nat) (r w : Bool), ctx < 16 → s.ctxRoot ctx = ctxL0 ctx →
       (s.reg (Reg.CHT_CTX_PT_ROOT 0 ctx)).toNat % 2 = 1 → s.fw.ptPages + 2 ≤ ptMax → va < 2 ^ 52 → va % 2 ^ 21 = 0 →
       pa < 2 ^ 48 → pa % 2 ^ 21 = 0 → frameOk pa (2 ^ 21) = true →
       s.memNat (ctxL0 ctx + 8 * bitsOf va 51 39) 8 % 2 = 0 →
       (s.putPte ctx va (pteOf pa r w) false).walk 0 ctx va = .ok (pteOf pa r w, false)))
  ∧ (∀ (src : PcpSrc) (s : State) (c : Cmd), s.ctxUsed c.ctx = false → s.bit Reg.ISL_SWAP_CTL Fd.ISL_SWAP_CTL_GO = false →
     let l := c.arg 1 % 256
     let at' := s.chartEntry 0 c.ctx l (bitsOf (c.arg 1) 13 8)
     let cold (t : State) : Prop := ∀ p, p < 144 → ∀ e ∈ (t.isl p).charts, e.ctx ≠ c.ctx
     (s.pcpCmd src 0x0201 = some c → readable (c.arg 0) 128 = true → l < 136 →
       ((parseChart (s.memNat (c.arg 0) 128)).t1 = false →
         Performs (.chartWrite src) src s 0 0 0 fun t => t.bytes at' 128 = s.bytes (c.arg 0) 128 ∧ BytesBut at' 128 s t ∧ cold t)
       ∧ ((parseChart (s.memNat (c.arg 0) 128)).t1 = true → Performs (.chartWrite src) src s 1 0 0 (KeepsBut [.fw] s)))
     ∧ (s.pcpCmd src 0x0201 = some c → readable (c.arg 0) 128 = false →
       Performs (.chartWrite src) src s 0x0E 0 0 (KeepsBut [.fw] s))
     ∧ (∀ st u, s.pcpCmd src 0x0202 = some c → readable (c.arg 0) 48 = true → l < 136 →
       s.t1Validate (min 3 (s.home l)) c.ctx l (bitsOf (c.arg 1) 13 8) (c.arg 0) = (st, u) →
       Performs (.t1Validate src) src s (if st = 0 then 0 else 8) st 0 fun t => ∀ b, t.byte b = u.byte b)
     ∧ (s.pcpCmd src 0x0203 = some c → readable (c.arg 0) 128 = true → l < 136 → bitsOf (c.arg 1) 21 21 = 0 →
       let raw := putFields (s.memNat (c.arg 0) 128) [(0x50, 12, 4, c.ctx), (0x50, 31, 1, 1)]
       let ch := parseChart raw
       ch.t1 = false → fmtOk ch.fmt = true → 1 ≤ ch.ndim → ch.ndim ≤ 6 → (∀ x ∈ ch.size.take ch.ndim, x ≠ 0) →
       (∀ x ∈ ch.stride.take ch.ndim, 0 ≤ x) →
       (∀ raw' b u, s.placeLocal c.ctx raw = some (raw', b, u) →
         Performs (.tensorPlace src) src s 0 (parseChart raw').base 0 fun t =>
           t.bytes (u.chartEntry 0 c.ctx l (bitsOf (c.arg 1) 13 8)) 128 = leBytes 128 raw' ∧ cold t)
       ∧ (s.placeLocal c.ctx raw = none → Performs (.tensorPlace src) src s 6 0 0 (KeepsBut [.fw] s))))

/-- R259, R414 to R417: PROG_LOAD of one module completes once it is loaded, with the check's code where it is rejected, and is
BUSY while a program is loaded; PROG_UNLOAD unloads, failing a running program first; JOB_RESUME needs the manager and a root
HELD with HALT: continue writes GO with its ACTION, rewind reloads from the window's first Tide, restore unloads; BATCH_CANCEL
stops the listed contexts and gives every Island the next generation, which the image's generation table keeps as well. -/
def Obligations.PcpJobs : Prop :=
  ∀ (src : PcpSrc) (as : List ModuleAnswer) (s : State) (c : Cmd),
    (∀ st code u, s.pcpCmd src 0x0301 = some c → c.arg 3 % 2 = 0 →
      s.loadHere (c.arg 0) (c.arg 1) (if bitsOf (c.arg 3) 1 1 = 1 then some (c.arg 2) else none) = (st, code, u) →
      (s.loaded = true → st = 4) ∧ (st = 0 → u.loaded = true ∧ Performs (.progLoad src as) src s 0 1 0 fun t => t.loaded = true)
      ∧ (st = 8 → Performs (.progLoad src as) src s 8 code (u.selfId 0 + code * 2 ^ 16) fun t => t.loaded = false)
      ∧ (st ≠ 0 → st ≠ 8 → Performs (.progLoad src as) src s st 0 0 (KeepsBut [.fw] s)))
    ∧ (s.pcpCmd src 0x0301 = some c → c.arg 3 % 2 = 1 → s.fw.manager ≠ s.selfId 0 + 1 →
      Performs (.progLoad src as) src s 0x0F 0 0 (KeepsBut [.fw] s))
    ∧ (s.pcpCmd src 0x0302 = some c → c.arg 0 % 2 = 0 → s.tideSt ≤ 4 → (s.loaded = true ↔ s.tideSt ≠ 0) →
      Performs (.progUnload src as) src s 0 0 0 fun t => t.loaded = false ∧ t.tideSt = 0
        ∧ (s.LinksQuiet → ∀ b, t.byte b = s.byte b))
    ∧ (s.pcpCmd src 0x0302 = some c → c.arg 0 % 2 = 1 → s.fw.manager ≠ s.selfId 0 + 1 →
      Performs (.progUnload src as) src s 0x0F 0 0 (KeepsBut [.fw] s))
    ∧ (s.pcpCmd src 0x0303 = some c → let act := bitsOf (c.arg 0) 3 2
      let halted := s.fw.manager = s.selfId 0 + 1 ∧ s.isRoot = true ∧ s.tideSt = 3
        ∧ s.fld Reg.TIDE_BCN_VERDICT Fd.TIDE_BCN_VERDICT_VERDICT = 4
      (c.arg 0 % 4 = 0 → halted → act = 1 ∨ act = 2 → s.tideNum ≠ 0xFFFFFFFF → s.tide.startMarker = false →
        Performs (.jobResumeContinue src) src s 0 (s.tideNum + 1) 0 fun t => t.tideSt = 1 ∧ t.tideNum = s.tideNum + 1
          ∧ (t.reg Reg.TIDE_GCMD).toNat % 4 = act)
      ∧ (c.arg 0 % 4 = 0 → ¬halted → Performs (.jobResumeContinue src) src s 4 0 0 (KeepsBut [.fw] s))
      ∧ (c.arg 0 % 4 = 1 → c.stage = 0 → halted →
        Settles (.jobResumeRewind src) s fun t => t.loaded = false
          ∧ ∃ y ∈ t.fw.cmds, y.src = src ∧ y.res = none ∧ y.stage = s.windowFirst s.tideNum + 1)
      ∧ (c.arg 0 % 4 = 1 → c.stage ≠ 0 → s.setsDone = true →
        let u := s.loadAt (c.stage - 1)
        (u.loaded = true → Performs (.jobResumeRewind src) src s 0 (c.stage - 1) 0 fun t => t.loaded = true
          ∧ t.bit Reg.TIDE_BCN_CFG Fd.TIDE_BCN_CFG_REPLAY = true)
        ∧ (u.loaded = false → Performs (.jobResumeRewind src) src s 8 ((u.reg Reg.TIDE_LOADERR).toNat % 256) 0 fun t => t.loaded = false))
      ∧ (c.arg 0 % 4 = 2 → c.stage = 0 → halted →
        Settles (.jobResumeRestore src) s fun t => t.loaded = false ∧ ∃ y ∈ t.fw.cmds, y.src = src ∧ y.res = none ∧ y.stage = 1)
      ∧ (c.arg 0 % 4 = 2 → c.stage ≠ 0 → s.loaded = true →
        Performs (.jobResumeRestore src) src s 0 (s.reg Reg.TIDE_FIRST).toNat 0 (KeepsBut [.fw] s)))
    ∧ (s.pcpCmd src 0x0304 = some c → bitsOf (c.arg 0) 5 5 = 0 → readable (c.arg 1) (8 * c.arg 2) = true →
      let l := s.batchList (c.arg 1) (c.arg 2)
      (∀ e ∈ l, (s.physOf e.1).isSome = true) →
      let k := c.arg 0 % 16
      let g := (s.fld (Reg.SHL_GEN ((s.physOf 0).getD 0) k) Fd.SHL_GEN_TAG + 1) % 2 ^ 16
      Performs (.batchCancel src) src s 0 g 0 fun t => (∀ p : Fin 144, t.fld (Reg.SHL_GEN p k) Fd.SHL_GEN_TAG = g)
        ∧ (bitsOf (c.arg 0) 4 4 = 0 → ∀ e ∈ l, ∀ p, s.physOf e.1 = some p → t.ctxStopped p e.2.1 = true)
        ∧ (s.genTable s.fw.image = 0 → ∀ b, t.byte b = s.byte b))

/-- R420 to R424, R426: UNIT_QUERY answers STATE and SEQ, and records a unit whose STATE the firmware knew otherwise; UNIT_SET and
MAINT_RUN act on nothing and complete with STALE where SEQ is not the one expected, else they act: a VERIFIED port is
admitted, a memory controller enters MAINT, an Island is swapped onto a free spare, the loopbacks run up to the first that
fails. LOG_CFG starts a new ring in which WR and LOST go on; TRACE_SET enables points.

R457 to R460, R464, R482, R483: ATTEST writes the report and its signature and takes one index; FW_UPDATE installs an image
whose signatures hold in the target copy; a test pack is installed where its signature holds; RUN takes a SPARE Island through
TESTING and back; QUERY, POLICY and EXPORT answer and set what they name. Whether a signature holds is a constant without a
value in the model (log entry 5). -/
def Obligations.PcpUnitsAndSecurity : Prop :=
  (∀ (src : PcpSrc) (s : State) (c : Cmd), let a (i : Nat) := c.arg i
     let v := s.observe (a 0)
     (s.pcpCmd src 0x0601 = some c → unitOk (a 0) = true →
       Performs (.unitQuery src) src s 0 (s.unitState (a 0) + v.unitSeqOf (a 0) * 2 ^ 16) 0 fun t =>
         (a 0 / 4096 = 1 ∨ s.unitRec (a 0) = s.unitState (a 0) → KeepsBut [.fw] s t)
         ∧ (a 0 / 4096 ≠ 1 → s.unitRec (a 0) ≠ s.unitState (a 0) → t.unitSeqOf (a 0) = (s.unitSeqOf (a 0) + 1) % 2 ^ 16
           ∧ t.unitRec (a 0) = s.unitState (a 0) ∧ t.fw.logWr = s.fw.logWr + 1))
     ∧ (∀ mst, s.pcpCmd src 0x0602 = some c → unitOk (a 0) = true → setAssumes (a 0 / 4096) (a 2) = some mst → c.stage = 0 →
       v.unitSeqOf (a 0) ≠ a 1 →
       Performs (.unitSet src) src s 5 0 0 fun t => t.fw.logWr = v.fw.logWr + 1 ∧ t.unitState (a 0) = s.unitState (a 0))
     ∧ (∀ k : Fin 16, s.pcpCmd src 0x0602 = some c → a 0 = 0x2000 + k → a 2 = 1 → c.stage = 0 → v.unitSeqOf (a 0) = a 1 →
       s.portSt k = 3 →
       Settles (.unitSet src) s fun t => t.portSt k = 4 ∧ Answered src 0 (t.unitSeqOf (a 0)) 0 t)
     ∧ (∀ k : Fin 8, s.pcpCmd src 0x0602 = some c → a 0 = 0x3000 + k → a 2 = 5 → c.stage = 0 → v.unitSeqOf (a 0) = a 1 →
       s.memState (.hbm k) = 1 → s.loaded = false →
       Settles (.unitSet src) s fun t => t.memState (.hbm k) = 2 ∧ Answered src 0 (t.unitSeqOf (a 0)) 0 t)
     ∧ (∀ p : Fin 144, s.pcpCmd src 0x0602 = some c → a 0 = 0x1000 + p → 1 ≤ a 2 → a 2 ≤ 3 → c.stage = 1 →
       s.pstate p ≠ 4 → s.pstate p ≠ 1 →
       Performs (.unitSet src) src s 0 (s.fld (Reg.ISL_PSTATE p) Fd.ISL_PSTATE_SEQ) 0 (KeepsBut [.fw] s))
     ∧ (∀ ds : List DepthResult, s.pcpCmd src 0x0603 = some c → unitOk (a 0) = true → a 0 / 4096 = 3 ∨ a 0 / 4096 = 4 → a 2 ≤ 2 →
       (v.unitSeqOf (a 0) ≠ a 1 → Performs (.maintRun src ds) src s 5 0 0 fun t => t.fw.logWr = v.fw.logWr + 1)
       ∧ (v.unitSeqOf (a 0) = a 1 → s.unitState (a 0) ≠ 2 → Performs (.maintRun src ds) src s 4 0 0 fun t => t.fw.logWr = v.fw.logWr + 1)
       ∧ (v.unitSeqOf (a 0) = a 1 → s.unitState (a 0) = 2 → ds.length = a 2 + 1 →
         ((∀ d ∈ ds, d.laneErrs.sum = 0) → Performs (.maintRun src ds) src s 0 0xFF 0 fun t => t.unitState (a 0) = 2)
         ∧ (∀ d, d < ds.length → (ds.map (·.laneErrs.sum)).getD d 0 ≠ 0 → (∀ e, e < d → (ds.map (·.laneErrs.sum)).getD e 0 = 0) →
           Settles (.maintRun src ds) s fun t => (∃ w, Answered src 0 d w t) ∧ v.fw.logWr < t.fw.logWr)))
     ∧ (s.pcpCmd src 0x0701 = some c → a 0 % 4096 = 0 → 8 ≤ a 1 → a 1 ≤ 20 → readable (a 0) (64 + 64 * 2 ^ a 1) = true →
       Performs (.logCfg src) src s 0 0 0 fun t => t.fw.logBase = a 0 ∧ t.fw.logLog2 = a 1 ∧ t.fw.logWr = s.fw.logWr
         ∧ t.memNat (a 0) 8 = s.fw.logWr % 2 ^ 64 ∧ t.memNat (a 0 + 8) 4 = s.memNat (s.logBase + 8) 4)
     ∧ (s.pcpCmd src 0x0702 = some c → a 0 ≠ 0 → a 0 + a 1 ≤ 0x100 →
       Performs (.traceSet src) src s 0 0 0 fun t => KeepsBut [.fw] s t
         ∧ ∀ i, i < 0x100 → (i ∈ t.fw.trace ↔ if a 0 ≤ i ∧ i < a 0 + a 1 then a 2 % 2 = 1 else i ∈ s.fw.trace)))
  ∧ (∀ (src : PcpSrc) (as : List ModuleAnswer) (s : State) (c : Cmd), let a (i : Nat) := c.arg i
     (s.pcpCmd src 0x0801 = some c →
       (s.boot.idOk = false → Performs (.attest src) src s 0x0C 0 0 (KeepsBut [.fw] s))
       ∧ (s.boot.idOk = true → s.boot.idxNext < s.boot.idxLimit → readable (a 0) 32 = true → readable (a 1) (a 2) = true →
         s.bit Reg.ISL_SWAP_CTL Fd.ISL_SWAP_CTL_GO = false →
         let h := s.report4 (s.bytes (a 0) 32)
         let r := h ++ Config.xmssSign s.boot.idxNext h
         h.length + sigLen ≤ a 2 →
         Performs (.attest src) src s 0 (h.length + sigLen) s.boot.idxNext fun t => t.boot.idxNext = s.boot.idxNext + 1
           ∧ t.bytes (a 1) r.length = r ∧ BytesBut (a 1) r.length s t))
     ∧ (s.pcpCmd src 0x0803 = some c → 1 ≤ a 1 → a 1 ≤ 0x4000000 → readable (a 0) (a 1) = true →
       (∀ y ∈ s.fw.cmds, y.opc = 0x0803 → y.src ≠ src → y.stage = 0) →
       (s.imgSigned (a 0) = false → Performs (.fwUpdate src) src s 0x0C 0 0 (KeepsBut [.fw] s))
       ∧ (s.imgSigned (a 0) = true → s.imgServes (a 0) = false → Performs (.fwUpdate src) src s 8 0 0 (KeepsBut [.fw] s))
       ∧ (s.imgSigned (a 0) = true → s.imgServes (a 0) = true →
         Performs (.fwUpdate src) src s 0 0 0 fun t => t.bytes (imgBase s.fwTarget) (a 1) = s.bytes (a 0) (a 1)
           ∧ ∀ b, b < 0x20000000 ∨ 0x30000000 ≤ b → t.byte b = s.byte b))
     ∧ (s.pcpCmd src 0x0802 = some c → a 0 = 0 → readable (a 1) (a 2) = true → 64 ≤ a 2 →
       let n := s.memNat (a 1 + 28) 4
       let seq := s.memNat (a 1 + 8) 8
       s.memNat (a 1) 4 = 0x4B50545A → s.memNat (a 1 + 4) 2 = 1 → n ≤ 0x400000 → n + packSigLen ≤ a 2 →
       s.memNat (a 1 + 24) 4 ≠ 0 → s.memNat (a 1 + 24) 4 ≤ 4096 →
       (Config.xmssVerify s.boot.packKey (s.bytes (a 1) n) (s.bytes (a 1 + n) packSigLen) = false →
         Performs (.testpackInstall src as) src s 0x0C 0 0 (KeepsBut [.fw] s))
       ∧ (Config.xmssVerify s.boot.packKey (s.bytes (a 1) n) (s.bytes (a 1 + n) packSigLen) = true →
         s.memNat (a 1 + 6) 2 / 16 % 2 = 1 → s.memNat (a 1 + 16) 8 ≤ s.boot.fwver → s.fw.hist.packSeq ≤ seq →
         Performs (.testpackInstall src as) src s 0 seq 1 fun t => t.fw.hist.packSeq = seq))
     ∧ (∀ runs : List CaseRun, s.pcpCmd src 0x0802 = some c → a 0 = 1 → a 1 < 144 → a 2 = 1 ∨ a 2 = 2 →
       let res := suiteResult ((s.joinSession.casesAt (a 2) 0).map (·.1)) (runsOn (a 1) runs) (islUnit (a 1))
       (s.pstate (a 1) = 2 → s.bit Reg.ISL_SWAP_CTL Fd.ISL_SWAP_CTL_GO = false ∨ (s.fld Reg.ISL_SWAP_CTL Fd.ISL_SWAP_CTL_SRC ≠ a 1
           ∧ s.fld Reg.ISL_SWAP_CTL Fd.ISL_SWAP_CTL_DST ≠ a 1) →
         Performs (.testpackRun src runs) src s 0 res.1 res.2 fun t => res.1 = 0 → t.pstate (a 1) = 2
           ∧ (a 2 = 2 → t.lastPass (a 1) = s.ontime % 2 ^ 32))
       ∧ (s.pstate (a 1) ≠ 2 → Performs (.testpackRun src runs) src s 4 0 0 (KeepsBut [.fw] s)))
     ∧ (s.pcpCmd src 0x0802 = some c → a 0 = 2 → a 1 < 144 →
       ∃ r0, r0 % 2 ^ 32 = s.lastPass (a 1) % 2 ^ 32 ∧ (r0.testBit 40 = true ↔ s.due (a 1) = true)
         ∧ Performs (.testpackQuery src) src s 0 r0 s.ontime (KeepsBut [.fw] s))
     ∧ (s.pcpCmd src 0x0802 = some c → a 0 = 3 → readable (a 1) 64 = true →
       (policyOk (s.memNat (a 1) 64) = true →
         Performs (.testpackPolicy src) src s 0 0 0 fun t => t.fw.hist.policy = s.memNat (a 1) 64 ∧ KeepsBut [.fw] s t)
       ∧ (policyOk (s.memNat (a 1) 64) = false → Performs (.testpackPolicy src) src s 1 0 0 (KeepsBut [.fw] s)))
     ∧ (s.pcpCmd src 0x0802 = some c → a 0 = 4 → a 1 % 4096 = 0 → 4 ≤ a 2 → a 2 ≤ 12 → 0x20000000000 ≤ a 1 →
       a 1 + 64 + 1024 * 2 ^ a 2 ≤ 0x20C00000000 →
       Performs (.testpackExport src) src s 0 0 0 fun t => t.fw.expBase = a 1 ∧ t.fw.expLog2 = a 2 ∧ t.fw.expWr = 0
         ∧ t.memNat (a 1) 8 = 0))

/-- R448, R449, R450, R451, R452, R461: fault handling of an event. It joins the history, and an Island or engine event is
recorded. One that its Tide has counted already counts no more. While the unit's counted events in the window stay below the
threshold nothing else happens; when they reach it, or for a repeat that failed, a SPARE or TESTING Island is retired at once,
and for another unit REPLACE is set and reported. A repeat that failed and that the firmware has not met yet fails the job.

R436 to R441: a test case of the session on an Island under test: its contexts get module context 15, its program goes to
program memory and its operands to the Lagoon slice. A run that passes changes nothing else; a digest that most of the
session's Islands share, and that is not the reference, makes the case bad, which is recorded, and charges none; a failed case
is charged to the Island as confirmed when its repeat fails too, and as transient when it passes, and a confirmed failure
retires it. -/
def Obligations.FaultHistoryAndTestCases : Prop :=
  (∀ (e : FaultEvent) (s : State), s.up = true → s.fw.hist.ents.length < 4096 → s.ontime < 2 ^ 32 →
     let unit := e.unit.toNat
     let cls := e.cls.toNat
     let typ := e.typ.toNat
     let counted := countedType unit cls typ (entCode e)
     let n := s.countedIn unit + 1
     let thr := s.threshold unit cls typ
     let hard := cls = 4 ∧ (typ = 5 ∨ typ = 8 ∨ typ = 10)
     let joined (t : State) : Prop := t.fw.hist.ents = s.fw.hist.ents ++ [⟨unit, typ, cls, s.ontime, s.tideWord, entCode e, s.seenInTide e⟩]
       ∧ t.fw.hist.dirty = true
     let idle (t : State) : Prop := joined t ∧ t.fw.hist.ret = s.fw.hist.ret ∧ t.fw.hist.replace = s.fw.hist.replace
       ∧ (∀ p : Fin 144, t.pstate p = s.pstate p) ∧ t.fw.logWr = s.fw.logWr + (if cls = 3 ∨ cls = 4 then 1 else 0)
     (s.seenInTide e = true → Settles (.historyEvent e) s idle)
     ∧ (s.seenInTide e = false → counted = false ∨ n < thr → ¬hard → Settles (.historyEvent e) s idle)
     ∧ (∀ p : Fin 144, s.seenInTide e = false → counted = true → thr ≤ n → unit = 0x1000 + p →
       s.retBit p = false → s.pstate p = 2 ∨ s.pstate p = 3 → s.bit Reg.ISL_SWAP_CTL Fd.ISL_SWAP_CTL_GO = false →
       Settles (.historyEvent e) s fun t => joined t ∧ t.pstate p = 6 ∧ t.retBit p = true ∧ t.fw.hist.urgent = true
         ∧ (∀ x : Fin 144, x ≠ p → t.pstate x = s.pstate x))
     ∧ (s.seenInTide e = false → counted = true → thr ≤ n ∨ hard → unit / 4096 ≠ 1 → s.fw.hist.replace = false →
       Settles (.historyEvent e) s fun t => joined t ∧ t.fw.hist.replace = true ∧ t.fw.hist.urgent = true
         ∧ s.events.length < t.events.length ∧ (∀ p : Fin 144, t.pstate p = s.pstate p)
         ∧ (hard → e ∉ s.fw.faultq → s.loaded = true → s.tideSt ≠ 0 → t.tideSt = 4)))
  ∧ (∀ (p : Fin 144) (run : CaseRun) (peers : List (BitVec 64)) (s : State), s.up = true → s.pstate p = 3 →
     s.fw.hist.ents.length < 4096 → s.ontime < 2 ^ 32 → s.bit Reg.ISL_SWAP_CTL Fd.ISL_SWAP_CTL_GO = false →
     let i := Instr.testCase p run peers
     let found := s.fw.suite.zipIdx.find? fun c => c.1.num == run.case.toNat && c.1.target == 0
     (found = none → Settles i s fun t => t = s)
     ∧ (∀ c k, found = some (c, k) →
       let ds := outDigest run.first :: peers.map (·.toNat)
       let bad := c.xchk = true ∧ peers ≠ [] ∧ ∃ d ∈ ds, d ≠ c.digest ∧ ds.length < 2 * ds.count d
       let ok (out : List Byte) : Prop := if c.xchk = true then outDigest out = c.digest else c.differs run.rows out = none
       let charged (t : State) (typ : Nat) : Prop := t.fw.hist.ents
         = s.fw.hist.ents ++ [⟨0x1000 + p, typ, 3, s.ontime, s.tideWord, run.case.toNat, false⟩]
       (¬bad → ok run.first → Settles i s fun t => t = s.loadCase p k c)
       ∧ (bad → Settles i s fun t => t.fw.hist.ents = s.fw.hist.ents ∧ t.fw.logWr = s.fw.logWr + 1
           ∧ ∀ x : Fin 144, t.pstate x = s.pstate x)
       ∧ (¬bad → ¬ok run.first → ok run.second → s.countedIn (0x1000 + p) + 1 < s.policy 4 1 →
         Settles i s fun t => charged t 5 ∧ ∀ x : Fin 144, t.pstate x = s.pstate x)
       ∧ (¬bad → ¬ok run.first → ¬ok run.second → s.retBit p = false →
         Settles i s fun t => charged t 4 ∧ t.pstate p = 6 ∧ t.retBit p = true)
       ∧ (∀ x : Fin 2, (s.loadCase p k c).fld (Reg.ISL_SEQ_CTXID p x) Fd.ISL_SEQ_CTXID_CTX = 15)))

/-- R486, R487, R488: the firmware writes a block of a type: the copy that is not used is erased and written with the next SEQ, is
valid, and is the copy used from then on; the other copy keeps every byte. HISTORY_WRITE writes the history so, at once when
an action waits for it and otherwise while entries are pending at most once in 600 s (R452).

R484, R489, R490: the flash controller. GO with an OP starts the operation that the registers describe, and is ignored while
one runs. At its end a program leaves in each byte the bits that both the device and the source hold, an erase leaves 0xFF in
its sector, and nothing else changes; a failure, and parameters that the device does not take, end with ERR and BOOT_ERR.FL. -/
def Obligations.BlocksAndFlash : Prop :=
  ((∀ (s : State) (t : Fin 8) (p : List Byte), p.length + 32 ≤ slotSize t → s.blkNext t < 2 ^ 64 →
     let u := s.writeBlock t p
     u.blkCopy t = some (s.blkTarget t) ∧ u.blkPayload t = p ∧ u.blkSeq (s.blkTarget t) t = s.blkNext t
       ∧ BytesBut (slotAt (s.blkTarget t) t) (slotSize t) s u ∧ KeepsBut [.mem] s u)
   ∧ (∀ s : State, s.up = true → s.fw.hist.ents.length ≤ 4096 → s.blkNext 5 < 2 ^ 64 →
     s.fw.hist.urgent = true ∨ (s.fw.hist.dirty = true ∧ s.fw.hist.wrote + 600 ≤ s.ontime) →
     Gives .historyWrite s fun t => t.blkPayload 5 = s.histPayload ∧ t.fw.hist.urgent = false ∧ t.fw.hist.dirty = false
       ∧ t.fw.hist.wrote = s.ontime ∧ KeepsBut [.mem, .fw] s t)
   ∧ (∀ s : State, s.fw.hist.urgent = false → s.fw.hist.dirty = false ∨ s.ontime < s.fw.hist.wrote + 600 →
     Waits .historyWrite s))
  ∧ (∀ s : State,
     let a := Reg.BOOT_FL_CTL
     (∀ (r : Requester) (v : BitVec 32) (i : Instr) (op : Nat),
       (i, op) ∈ [(Instr.flashProgram r v, 1), (Instr.flashErase r v, 2)] → s.up = true → s.mayWrite r a = true →
       (s.bit a Fd.BOOT_FL_CTL_BUSY = false →
         Gives i s fun t => t.bit a Fd.BOOT_FL_CTL_GO = true ∧ t.bit a Fd.BOOT_FL_CTL_BUSY = true
           ∧ t.boot.flashOp = some ⟨op, bitsOf v.toNat 2 2, s.fld Reg.BOOT_FL_ADDR Fd.BOOT_FL_ADDR_OFF,
               s.addr48 Reg.BOOT_FL_SRC_LO Reg.BOOT_FL_SRC_HI, s.fld Reg.BOOT_FL_LEN Fd.BOOT_FL_LEN_BYTES⟩
           ∧ KeepsBut [.regs, .boot] s t ∧ RegsBut [a] s t)
       ∧ (s.bit a Fd.BOOT_FL_CTL_BUSY = true →
         Gives i s fun t => t.bit a Fd.BOOT_FL_CTL_BUSY = true ∧ KeepsBut [.regs] s t ∧ RegsBut [a] s t))
     ∧ (s.boot.flashOp = none → ∀ x, Waits (.flashOperationDone x) s)
     ∧ (∀ x : FlashOp, s.boot.flashOp = some x →
       let base := 0x20000000 + x.dev * 0x8000000 + x.off
       let ended (t : State) (err : Bool) : Prop := t.boot.flashOp = none ∧ t.bit a Fd.BOOT_FL_CTL_GO = false
         ∧ t.bit a Fd.BOOT_FL_CTL_BUSY = false ∧ t.bit a Fd.BOOT_FL_CTL_DONE = true
         ∧ (t.bit a Fd.BOOT_FL_CTL_ERR = (err || s.bit a Fd.BOOT_FL_CTL_ERR))
         ∧ (t.bit Reg.BOOT_ERR Fd.BOOT_ERR_FL = (err || s.bit Reg.BOOT_ERR Fd.BOOT_ERR_FL))
         ∧ RegsBut [a, Reg.BOOT_ERR] s t
       (x.op = 1 → flashParams 1 x.off x.len = true →
         Gives (.flashOperationDone false) s fun t => ended t false ∧ BytesBut base x.len s t
           ∧ (∀ k, k < x.len → t.byte (base + k) = s.byte (base + k) &&& s.byte (x.src + k)) ∧ KeepsBut [.regs, .mem, .boot] s t)
       ∧ (x.op = 2 → x.off % 65536 = 0 → x.dev ≤ 1 → x.off + 0x10000 ≤ 0x8000000 →
         Gives (.flashOperationDone false) s fun t => ended t false ∧ BytesBut base 0x10000 s t
           ∧ (∀ k, k < 0x10000 → t.byte (base + k) = 0xFF#8) ∧ KeepsBut [.regs, .mem, .boot] s t)
       ∧ (flashParams x.op x.off x.len = false → ∀ f,
         Gives (.flashOperationDone f) s fun t => ended t true ∧ KeepsBut [.regs, .boot] s t)
       ∧ (flashParams x.op x.off x.len = true →
         Gives (.flashOperationDone true) s fun t => ended t true ∧ BytesBut base (if x.op = 1 then x.len else 0x10000) s t)))

/-- R453, R454, R455, R456, R460: a due Island that is SPARE goes into TESTING; a due ACTIVE one that comes first is swapped onto
the lowest free spare of its Quarter, and deferred with one record when it has none or is pinned. A deferral that has lasted
MAX_DEFER hours is forced once the job is unloaded at an image that has become complete since then: a pass updates LASTPASS,
and a confirmed failure retires the Island. (That the job is unloaded by PROG_UNLOAD: log entry 37.) -/
def Obligations.DueTests : Prop :=
  ∀ (p : Fin 144) (s : State), s.bit Reg.ISL_SWAP_CTL Fd.ISL_SWAP_CTL_GO = false →
    let now := s.due p = true ∧ s.retBit p = false ∧ s.fw.underTest.contains p.val = false
    (¬now → Waits (.dueTest p) s)
    ∧ (now → s.pstate p = 2 →
      Gives (.dueTest p) s fun t => t.pstate p = 3 ∧ p.val ∈ t.fw.underTest ∧ t.deferredAt p = none ∧ KeepsBut [.regs, .fw] s t
        ∧ ∀ x : Fin 144, x ≠ p → t.pstate x = s.pstate x)
    ∧ (now → s.pstate p = 1 → s.freeSpare p = none ∨ s.pinned p = true →
      (s.deferredAt p = none → Gives (.dueTest p) s fun t => t.deferredAt p = some s.ontime ∧ t.fw.logWr = s.fw.logWr + 1
        ∧ ∀ x : Fin 144, t.pstate x = s.pstate x)
      ∧ (s.deferredAt p ≠ none → Waits (.dueTest p) s))
    ∧ (∀ d : Fin 144, now → s.pstate p = 1 → s.freeSpare p = some d.val →
      s.pinned p = false → s.loaded = true → s.bit Reg.ISL_SWAP_CTL Fd.ISL_SWAP_CTL_HOLD = false → s.fw.retireSwap = [] →
      s.firstDue p = true →
      Gives (.dueTest p) s fun t => t.pstate p = 4 ∧ t.pstate d = 5 ∧ t.bit Reg.ISL_SWAP_CTL Fd.ISL_SWAP_CTL_GO = true
        ∧ t.swapFld Fd.ISL_SWAP_CTL_SRC = p ∧ t.swapFld Fd.ISL_SWAP_CTL_DST = d ∧ t.swapFld Fd.ISL_SWAP_CTL_AFTER = 1
        ∧ p.val ∈ t.fw.underTest ∧ (s.fw.trace.contains 0x020 = false → KeepsBut [.regs, .fw] s t))
    ∧ (∀ (runs : List CaseRun) (from0 : Nat), s.deferredAt p = some from0 →
      let force := s.loaded = false ∧ from0 + s.policy 2 2 * 3600 ≤ s.ontime ∧ from0 + s.policy 2 2 * 3600 ≤ s.fw.imgAt
        ∧ s.fw.imgSeq ≠ 0 ∧ s.fw.unloadImg = s.fw.imgSeq
      let u := (s.faultRecord (islEvent p 10 0 ((s.ontime - from0) / 3600) 0) 0).joinSession
      let res := (suiteResult ((u.casesAt 2 0).map (·.1)) (runsOn p runs) (islUnit p)).1
      (¬force → Waits (.testForced p runs) s)
      ∧ (force → res = 0 →
        Gives (.testForced p runs) s fun t => t.lastPass p = s.ontime % 2 ^ 32 ∧ t.deferredAt p = none
          ∧ t.fw.underTest.contains p.val = false ∧ t.fw.logWr = s.fw.logWr + 2 ∧ t.fw.hist.ents = s.fw.hist.ents
          ∧ ∀ x : Fin 144, t.pstate x = s.pstate x)
      ∧ (force → res = 2 → s.pstate p = 1 → s.logicalOf p < 136 → (∀ j : Fin 136, j.val ≠ s.logicalOf p → s.lmapPhys j ≠ p) →
        s.retBit p = false → s.ontime < 2 ^ 32 →
        Gives (.testForced p runs) s fun t => t.pstate p = 6 ∧ t.retBit p = true ∧ t.deferredAt p = none))

/-- R467, R468, R473, R474, R486, R488, R504: stage ROM runs the first copy that verifies, in the order of FWDIR's SEQ, sets the
bit of each copy that did not, measures its key manifest and its image manifest, takes the history that the HISTORY block
holds, and copies the MGMT block, or its defaults, into the management registers; stage IDENTITY follows. With no copy that
verifies the module enters RECOVERY, where BOOT_RCV runs an image in Pilot shared SRAM if it verifies.

R467, R468, R476 to R480: stage IDENTITY fails with ID_FAIL when the seed, the certificate and the key do not agree; otherwise
it reserves a block of 1,024 indices: a record with the next SEQ and a LIMIT 1,024 higher in the copy that does not hold the
current record, which becomes the current one. In service the next block is reserved when fewer than 256 indices remain; a
record that does not read back sets BOOT_ERR.IDX and moves no LIMIT, and a LIMIT above 2^40 ends the identity. -/
def Obligations.BootRomAndIdentity : Prop :=
  ((∀ s : State, s.atStage 1 = false → Waits .rom s)
   ∧ (∀ s : State, s.atStage 1 = true → s.imgRuns (imgBase 0) = false → s.imgRuns (imgBase 1) = false →
     Gives .rom s fun t => t.bit Reg.BOOT_STATUS Fd.BOOT_STATUS_RECOVERY = true ∧ t.bit Reg.BOOT_ERR Fd.BOOT_ERR_IMG_A = true
       ∧ t.bit Reg.BOOT_ERR Fd.BOOT_ERR_IMG_B = true ∧ KeepsBut [.regs, .boot] s t
       ∧ RegsBut [Reg.BOOT_STATUS, Reg.BOOT_ERR] s t)
   ∧ (∀ (s : State) (c : Fin 2), s.atStage 1 = true → s.imgRuns (imgBase c) = true →
     let first := if s.blkCopy 0 = some 1 then 1 else 0
     let a := imgBase c
     c.val = first ∨ s.imgRuns (imgBase first) = false →
     let m := s.manAt a
     (∀ e, s.secAt a 1 = some e → s.memNat (e + 24) 8 % 2 ^ 48 + s.memNat (e + 16) 8 ≤ 0x20000000) →
     s.fw.logBase = 0 → s.fw.logLog2 = 14 → (∀ b, b < 8 → s.blkNext b < 2 ^ 64) →
     Gives .rom s fun t => t.bootFld Fd.BOOT_STATUS_STAGE = 2 ∧ t.bootFld Fd.BOOT_STATUS_FWCOPY = c
       ∧ t.bootFld Fd.BOOT_STATUS_RECOVERY = 0 ∧ t.boot.fwver = s.imgVer a
       ∧ (c.val ≠ first → t.bit Reg.BOOT_ERR (if first = 0 then Fd.BOOT_ERR_IMG_A else Fd.BOOT_ERR_IMG_B) = true)
       ∧ (∃ l, t.boot.meas = measEntry 1 0 0 (shake256 (s.bytes a (s.memNat (a + 8) 4)) 32)
           :: measEntry 2 0 (s.imgVer a) (shake256 (s.bytes m (64 + 64 * s.nsec a + 2820)) 32) :: l)
       ∧ (s.blkPayload 5 ≠ [] → t.fw.hist.policy = payNat (s.blkPayload 5) 64 64
           ∧ t.fw.hist.ret = payNat (s.blkPayload 5) 32 18)
       ∧ (let p := s.blkPayload 6
          let w (off n d : Nat) : Nat := if p = [] then d else payNat p off n
          t.fld Reg.MGT_PCAP Fd.MGT_PCAP_LIMIT = w 144 2 2400 % 4096 ∧ t.fld Reg.MGT_PCAP Fd.MGT_PCAP_ALT = w 146 2 1600 % 4096
          ∧ t.fld Reg.MGT_THERM Fd.MGT_THERM_THROTTLE = w 148 1 95))
   ∧ (∀ (r : Requester) (v : BitVec 32) (s : State), s.up = true → s.mayWrite r Reg.BOOT_RCV = true →
     let n := v.toNat % 2 ^ 23
     let runs := s.bootFld Fd.BOOT_STATUS_RECOVERY = 1 ∧ 1 ≤ n ∧ n ≤ 0x400000 ∧ s.imgRuns 0x400000 = true
     (runs → Gives (.bootRcvGo r v) s fun t => t.boot.fwver = s.imgVer 0x400000 ∧ t.fld Reg.BOOT_RCV Fd.BOOT_RCV_LEN = n)
     ∧ (¬runs → Gives (.bootRcvGo r v) s fun t => t.fld Reg.BOOT_RCV Fd.BOOT_RCV_LEN = n ∧ KeepsBut [.regs] s t
         ∧ RegsBut [Reg.BOOT_RCV] s t)))
  ∧ (∀ (s : State) (q l c i : Nat), s.idxCurrent = some (q, l, c, i) → q + 1 < 2 ^ 64 →
     s.idxPlace (1 - c) % 2048 = 0 ∨ (∀ k, k < 32 → s.byte (idxAddr (1 - c) (s.idxPlace (1 - c)) + k) = 0xFF#8) →
     let reserved (t : State) : Prop := t.idxCurrent = some (q + 1, l + 1024, 1 - c, s.idxPlace (1 - c))
       ∧ t.boot.idxLimit = l + 1024 ∧ t.boot.idxSeq = q + 1
     let lost (t : State) : Prop := t.boot.idOk = false ∧ t.bootFld Fd.BOOT_STATUS_ID_FAIL = 1 ∧ t.fw.logWr = s.fw.logWr + 1
     let due := s.boot.idOk = true ∧ s.boot.idxLimit < s.boot.idxNext + 256
     (∀ puf, s.atStage 2 = false → Waits (.identity puf) s)
     ∧ (∀ puf, s.atStage 2 = true → s.identityOk (s.blkPayload 1) puf = false →
       Gives (.identity puf) s fun t => lost t ∧ t.bootFld Fd.BOOT_STATUS_STAGE = 3)
     ∧ (∀ puf, s.atStage 2 = true → s.identityOk (s.blkPayload 1) puf = true → l + 1024 ≤ 2 ^ 40 →
       Gives (.identity puf) s fun t => reserved t ∧ t.boot.idOk = true ∧ t.boot.idxNext = l
         ∧ t.boot.serial = payNat ((s.blkPayload 1).drop 16400) 8 16 ∧ t.bootFld Fd.BOOT_STATUS_STAGE = 3
         ∧ KeepsBut [.regs, .mem, .boot] s t ∧ RegsBut [Reg.BOOT_STATUS] s t)
     ∧ (¬due → ∀ ok, Waits (.indexReservation ok) s)
     ∧ (due → l + 1024 ≤ 2 ^ 40 →
       Gives (.indexReservation true) s fun t => reserved t ∧ t.boot.idxNext = s.boot.idxNext ∧ KeepsBut [.mem, .boot] s t)
     ∧ (due → l + 1024 ≤ 2 ^ 40 → Gives (.indexReservation false) s fun t => t.bit Reg.BOOT_ERR Fd.BOOT_ERR_IDX = true
         ∧ KeepsBut [.regs] s t ∧ RegsBut [Reg.BOOT_ERR] s t)
     ∧ (due → 2 ^ 40 < l + 1024 → ∀ ok, Gives (.indexReservation ok) s fun t => lost t))

/-- R24, R467, R468, R470, R518: stages ISTHMUS, MEMORY and ISLANDS. A Quarter is brought up when some pair reaches it; of the
controllers of such Quarters those that fail are FAILED and the others UP; of their Islands those that fail the march test or
a case of the suite with its repeat, or that the history retires, are RETIRED for good, and those that pass are bound or
SPARE, with one change of state. The FULL suite, which BOOTCFG or a rebuilt history asks for, sets LASTPASS of those that pass
it.

R467, R468, R477, R481: stages SHORE and STRAITS, and what a stage's limit does. SHORE loads its section where the digest
agrees and releases the cores; a mismatch resets them once, and the second time SHORT.SHORE is set and the boot goes on.
STRAITS turns on every port of a Quarter that is up, unless the identity is unavailable; once they have settled the module is
READY, with its measurement register formed. A stage that passes its limit takes its outcome. -/
def Obligations.BootStages : Prop :=
  (∀ s : State,
     let stage (t : State) (n : Nat) : Prop := t.bootFld Fd.BOOT_STATUS_STAGE = n
     (∀ bad : List (Fin 6), (s.atStage 3 = false → Waits (.isthmus bad) s)
       ∧ (s.atStage 3 = true → Gives (.isthmus bad) s fun t => stage t 4
           ∧ (∀ q : Fin 4, t.quarterUp q = true ↔ ∃ k : Fin 6, k ∉ bad ∧ ((isthmusPair k).1 = q ∨ (isthmusPair k).2 = q))
           ∧ (bad ≠ [] → t.bootFld Fd.BOOT_STATUS_ISTHMUS = 1 ∧ t.fw.logWr = s.fw.logWr + 1)
           ∧ (bad = [] → KeepsBut [.regs, .boot, .fw] s t ∧ RegsBut [Reg.BOOT_STATUS] s t)))
     ∧ (∀ bad : List MemUnit, (s.atStage 4 = false → Waits (.memory bad) s)
       ∧ (s.atStage 4 = true → Gives (.memory bad) s fun t => stage t 5
           ∧ (∀ m, isDram m = true → t.memState m
               = if s.quarterUp (memQuarter m) then (if m ∈ bad then 3 else 1) else s.memState m)
           ∧ ((∃ m ∈ bad, isDram m = true ∧ s.quarterUp (memQuarter m) = true) → t.bootFld Fd.BOOT_STATUS_MEMORY = 1)))
     ∧ (∀ (march : List (Fin 144)) (runs fuuRuns : List (BitVec 16 × CaseRun)), (s.atStage 5 = false → Waits (.islands march runs fuuRuns) s)
       ∧ (s.atStage 5 = true → let secOk := ∀ e, s.secAt s.ownImage 3 = some e → s.secOk s.ownImage e = true
         let full := s.fullSuite.1
         let u := (s.fullSuite.2.islandsCleared full march).2.takeSuites.newSession
         let cases := (u.casesAt (if full then 2 else 1) 0).map (·.1)
         let units := (u.bootIsls.filter fun p => u.pstate p == 0).map islUnit
         (¬secOk → Gives (.islands march runs fuuRuns) s fun t => stage t 6 ∧ t.bootFld Fd.BOOT_STATUS_ISLANDS = 1
           ∧ ∀ p : Fin 144, s.pstate p = 0 → t.pstate p = 0 ∨ t.pstate p = 6)
         ∧ (secOk → Gives (.islands march runs fuuRuns) s fun t => stage t 6
           ∧ (∀ p : Fin 144, s.quarterUp (quarterOf p) = true → s.pstate p = 0 →
             let res := (suiteResult cases runs (islUnit p)).1
             let gone := t.pstate p = 6 ∧ t.retBit p = true ∧ t.memState (.lag p) = 3
             (p ∈ march ∨ s.retBit p = true → gone)
             ∧ (res = 2 → (∀ c ∈ cases, c.xchk = false ∨ badMajority (units.map (c.digestOf runs)) c.digest = none) → gone)
             ∧ (p ∉ march → s.retBit p = false → res = 0 →
               (t.pstate p = 1 ∨ t.pstate p = 2) ∧ t.memState (.lag p) = 1 ∧ t.retBit p = false
                 ∧ t.fld (Reg.ISL_PSTATE p) Fd.ISL_PSTATE_SEQ = (s.fld (Reg.ISL_PSTATE p) Fd.ISL_PSTATE_SEQ + 1) % 65536
                 ∧ t.lastPass p = if full = true then s.ontime % 2 ^ 32 else s.lastPass p))
           ∧ (s.cfgMode = 1 ∨ s.boot.histNew = true → full = true)
           ∧ t.bootFld Fd.BOOT_STATUS_MODE = (if full = true then 1 else 0)
           ∧ (∀ q : Fin 4, (t.healthy q).length < t.perQuarter → t.bootFld Fd.BOOT_STATUS_ISLANDS = 1)))))
  ∧ (∀ s : State,
     let stage (t : State) (n : Nat) : Prop := t.bootFld Fd.BOOT_STATUS_STAGE = n
     let secBad := ∀ e, s.secAt s.ownImage 2 = some e → s.secOk s.ownImage e = false
     let ready (t : State) : Prop := stage t 8 ∧ t.bootFld Fd.BOOT_STATUS_READY = 1
       ∧ t.boot.measReg = t.boot.meas.foldl (fun r e => shake256 (r ++ e) 32) (List.replicate 32 0)
       ∧ KeepsBut [.regs, .boot] s t ∧ RegsBut [Reg.BOOT_STATUS] s t
     (s.atStage 6 = false → Waits .shore s)
     ∧ (∀ e, s.atStage 6 = true → s.secAt s.ownImage 2 = some e → s.secOk s.ownImage e = true →
       s.bit Reg.ISL_SWAP_CTL Fd.ISL_SWAP_CTL_GO = false →
       Gives .shore s fun t => stage t 6 ∧ t.reg Reg.SHR_RST = 0 ∧ t.reg Reg.SHR_STATUS = 0xFFFF ∧ t.power.shoreBegun = true
         ∧ t.bytes (s.memNat (e + 24) 8 % 2 ^ 48) (s.memNat (e + 16) 8) = s.secBytes s.ownImage e)
     ∧ (s.atStage 6 = true → secBad → s.boot.shoreTries = 0 →
       Gives .shore s fun t => stage t 6 ∧ (t.reg Reg.SHR_RST).toNat % 2 ^ 16 = 0xFFFF ∧ t.boot.shoreTries = 1)
     ∧ (s.atStage 6 = true → secBad → 1 ≤ s.boot.shoreTries →
       Gives .shore s fun t => stage t 7 ∧ t.bootFld Fd.BOOT_STATUS_SHORE = 1 ∧ (t.reg Reg.SHR_RST).toNat % 2 ^ 16 = 0xFFFF
         ∧ t.fw.logWr = s.fw.logWr + 1)
     ∧ (s.atStage 7 = false → Waits .straits s)
     ∧ (s.atStage 7 = true → s.bootFld Fd.BOOT_STATUS_ID_FAIL = 1 → Settles .straits s fun t => t = s)
     ∧ (s.atStage 7 = true → s.bootFld Fd.BOOT_STATUS_ID_FAIL = 0 →
       Settles .straits s fun t => ∀ k : Fin 16,
         (s.quarterUp (portQ k) = true → t.bit (stCtl k) Fd.STR_CTL_EN = true
           ∧ t.portSt k = if s.portSt k = 0 then 1 else s.portSt k)
         ∧ (s.quarterUp (portQ k) = false → t.reg (stCtl k) = s.reg (stCtl k) ∧ t.portSt k = s.portSt k))
     ∧ (s.atStage 7 = true → s.straitsDone = true → Gives .bootReady s ready)
     ∧ (s.atStage 7 = false ∨ s.straitsDone = false → Waits .bootReady s)
     ∧ (s.up = true → s.bootFld Fd.BOOT_STATUS_RECOVERY = 0 →
       let short (n : Nat) (f : Fld) (t : State) : Prop := stage t n ∧ t.bootFld f = 1 ∧ t.fw.logWr = s.fw.logWr + 1
       (s.bootFld Fd.BOOT_STATUS_STAGE = 1 → Gives .bootStageTimeout s fun t => t.bootFld Fd.BOOT_STATUS_RECOVERY = 1
           ∧ KeepsBut [.regs] s t ∧ RegsBut [Reg.BOOT_STATUS] s t)
       ∧ (s.bootFld Fd.BOOT_STATUS_STAGE = 2 → Gives .bootStageTimeout s (short 3 Fd.BOOT_STATUS_ID_FAIL))
       ∧ (s.bootFld Fd.BOOT_STATUS_STAGE = 3 → Gives .bootStageTimeout s (short 4 Fd.BOOT_STATUS_ISTHMUS))
       ∧ (s.bootFld Fd.BOOT_STATUS_STAGE = 4 → Gives .bootStageTimeout s fun t => stage t 5
           ∧ t.bootFld Fd.BOOT_STATUS_MEMORY = 1
           ∧ ∀ m, isDram m = true → s.quarterUp (memQuarter m) = true → s.memState m = 0 → t.memState m = 3)
       ∧ (s.bootFld Fd.BOOT_STATUS_STAGE = 5 → Gives .bootStageTimeout s fun t => stage t 6
           ∧ ∀ p : Fin 144, s.quarterUp (quarterOf p) = true → s.pstate p = 0 → t.pstate p = 6)
       ∧ (s.bootFld Fd.BOOT_STATUS_STAGE = 6 → 2 ≤ s.boot.shoreTries →
         Gives .bootStageTimeout s (short 7 Fd.BOOT_STATUS_SHORE))
       ∧ (s.bootFld Fd.BOOT_STATUS_STAGE = 7 → Gives .bootStageTimeout s ready)
       ∧ (s.bootFld Fd.BOOT_STATUS_STAGE = 8 → Waits .bootStageTimeout s)))

/-- R494, R495, R496, R497, R499: the power sequence. PWR_EN starts it, an input out of range holds it, PWR_GOOD and the release
of the internal reset follow each other, and the release waits for RST_N, CLK_SYS and CLK_STR. A fall of PWR_EN, a protection
event and a low on RST_N lose every register and every memory but NOR flash; a protection event sets the latch, except an
undervoltage (log entry 41), and a low on RST_N leaves the rails up.

R496, R499: the loss of CLK_SYS sets the latch and powers the module down; each other loss sets ALERT.CLK while the module is
up, and CLK_STR makes every port depart (to OFF where a LEAVE of EN = 0 was due, R313), CLK_PE takes the storage link down and
CLK_MGT the management link. -/
def Obligations.PowerAndClocks : Prop :=
  (∀ s : State,
     let phase (t : State) (n : Nat) : Prop := t.power.phase = n
     let lost (t : State) : Prop := (∀ p, p ∉ [Part.mem, .freeCtr, .power] → p.same State.reset t) ∧ t.pending = s.pending
       ∧ (∀ a, ¬(0x20000000 ≤ a ∧ a < 0x30000000) → t.byte a = memDefault a)
       ∧ (s.boot.flashOp = none → ∀ a, 0x20000000 ≤ a → a < 0x30000000 → t.byte a = s.byte a)
     let off (t : State) (latch : Bool) : Prop := phase t 0 ∧ t.power.latch = latch
       ∧ (s.power.phase ≠ 0 → lost t) ∧ (s.power.phase = 0 → KeepsBut [.power] s t)
     (∀ ok, s.power.pwrEn = false → Gives (.pwrEnHigh ok) s fun t => phase t (if ok = true then 2 else 1)
         ∧ t.power.pwrEn = true ∧ t.power.latch = false ∧ KeepsBut [.power] s t)
     ∧ (∀ ok, s.power.pwrEn = true → Waits (.pwrEnHigh ok) s)
     ∧ (s.power.phase = 1 → Gives .inputInRange s fun t => phase t 2 ∧ KeepsBut [.power] s t)
     ∧ (s.power.phase ≠ 1 → Waits .inputInRange s)
     ∧ (s.power.phase = 2 → (Gives .pwrGood s fun t => phase t 3 ∧ t.pwrGood = true ∧ KeepsBut [.power] s t)
         ∧ Gives .railTimeout s fun t => off t true)
     ∧ (s.power.phase ≠ 2 → Waits .pwrGood s ∧ Waits .railTimeout s)
     ∧ (let free := s.power.phase = 3 ∧ Clock.sys ∉ s.power.lost ∧ Clock.str ∉ s.power.lost
        let released (t : State) : Prop := phase t 4 ∧ t.power.rstN = true
          ∧ t.bit Reg.MGT_STATUS Fd.MGT_STATUS_PCAP = s.power.pcapLow ∧ KeepsBut [.power, .regs] s t
          ∧ RegsBut [Reg.MGT_STATUS] s t
        (free → s.power.rstN = true → Gives .resetRelease s released)
        ∧ (¬free ∨ s.power.rstN = false → Waits .resetRelease s)
        ∧ (free → s.power.rstN = false → Gives .rstNHigh s released)
        ∧ (s.power.rstN = true → Waits .rstNHigh s)
        ∧ (¬free → Gives .rstNHigh s fun t => t.power.rstN = true ∧ phase t s.power.phase ∧ KeepsBut [.power] s t))
     ∧ (Gives .pwrEnLow s fun t => off t s.power.latch ∧ t.power.pwrEn = false)
     ∧ (∀ c, Gives (.protectionEvent c) s fun t => off t (if c = .undervoltage then s.power.latch else true)
         ∧ t.power.pwrEn = s.power.pwrEn)
     ∧ (s.power.phase = 4 → Gives .rstNLow s fun t => phase t 3 ∧ t.power.rstN = false ∧ t.power.perst = true
         ∧ t.power.latch = s.power.latch ∧ t.pwrGood = true ∧ lost t)
     ∧ (s.power.phase ≠ 4 → Gives .rstNLow s fun t => phase t s.power.phase ∧ t.power.rstN = false ∧ KeepsBut [.power] s t))
  ∧ (∀ s : State,
     (∀ k, k ∈ s.power.lost → Waits (.clockLoss k) s)
     ∧ (Clock.sys ∉ s.power.lost → 2 ≤ s.power.phase →
       Gives (.clockLoss .sys) s fun t => t.power.phase = 0 ∧ t.power.latch = true ∧ Clock.sys ∈ t.power.lost)
     ∧ (∀ k, k ∉ s.power.lost → s.power.phase < 2 ∨ (k ≠ .sys ∧ s.power.phase < 4) →
       Gives (.clockLoss k) s fun t => t.power.lost = s.power.lost ++ [k] ∧ t.power.phase = s.power.phase ∧ KeepsBut [.power] s t)
     ∧ (Clock.str ∉ s.power.lost → s.power.phase = 4 →
       Settles (.clockLoss .str) s fun t => t.bit Reg.MGT_ALERT Fd.MGT_ALERT_CLK = true ∧ Clock.str ∈ t.power.lost
         ∧ ∀ k : Fin 16, t.portSt k = if s.portSt k = 0 ∨ s.portSt k ≠ 6 ∧ (s.port k).leaving = some true then 0 else 6)
     ∧ (Clock.pe ∉ s.power.lost → s.power.phase = 4 →
       Gives (.clockLoss .pe) s fun t => t.bit Reg.MGT_ALERT Fd.MGT_ALERT_CLK = true ∧ Clock.pe ∈ t.power.lost
         ∧ t.bit Reg.MGT_STATUS Fd.MGT_STATUS_PLINK = false
         ∧ (s.bit Reg.MGT_STATUS Fd.MGT_STATUS_PLINK = true → t.bit Reg.MGT_ALERT Fd.MGT_ALERT_PDOWN = true))
     ∧ (Clock.mgt ∉ s.power.lost → s.power.phase = 4 →
       Gives (.clockLoss .mgt) s fun t => t.bit Reg.MGT_ALERT Fd.MGT_ALERT_CLK = true ∧ Clock.mgt ∈ t.power.lost
         ∧ t.bit Reg.MGT_STATUS Fd.MGT_STATUS_MLINK = false
         ∧ (s.bit Reg.MGT_STATUS Fd.MGT_STATUS_MLINK = true → t.bit Reg.MGT_ALERT Fd.MGT_ALERT_MDOWN = true)
         ∧ KeepsBut [.regs, .power] s t)
     ∧ (∀ k, Gives (.clockRestored k) s fun t => (∀ j, j ∈ t.power.lost ↔ j ∈ s.power.lost ∧ j ≠ k)
         ∧ t.power.phase = s.power.phase ∧ KeepsBut [.power] s t))

/-- R500, R505, R506, R507, R514: the management and the storage link come and go with their status and alert bits, a dropped
frame is counted, PE_PERST_N is released once after stage SHORE began, and MGT_LB runs one loopback at a time, at depth 0 or
1, of which one on the management port takes its link down.

R508, R509, R510, R511, R514: the readings are shown; THROTTLE is 1 while TJ is above the throttle temperature, and the alert
is set when that begins; two readings in a row above a sensor's limit are a thermal trip, which sets the latch. L_eff is the
least of its three limits and at least 1,200 W; the gate count rises by an eighth of the excess, by 16 at most, falls by 1
more than 16 W below, and stays from 0 to 255; an Island takes it at its window. -/
def Obligations.PortLinksAndPowerControl : Prop :=
  (∀ s : State,
     let st := Reg.MGT_STATUS
     let al := Reg.MGT_ALERT
     let lb := Reg.MGT_LB
     let mup := s.bit st Fd.MGT_STATUS_MLINK
     let looping := s.bit lb Fd.MGT_LB_GO = true ∧ s.fld lb Fd.MGT_LB_PORT = 0
     let canUp (fec : BitVec 2) := s.power.phase = 4 ∧ Clock.mgt ∉ s.power.lost ∧ ¬looping ∧ fec ≠ 3
     let mdown (t : State) : Prop := t.bit st Fd.MGT_STATUS_MLINK = false ∧ t.fld st Fd.MGT_STATUS_MFEC = 0
       ∧ t.bit al Fd.MGT_ALERT_MDOWN = true
     (∀ fec, canUp fec → Gives (.managementLinkUp fec) s fun t => t.bit st Fd.MGT_STATUS_MLINK = true
         ∧ t.fld st Fd.MGT_STATUS_MFEC = fec.toNat ∧ KeepsBut [.regs] s t ∧ RegsBut [st] s t)
     ∧ (∀ fec, ¬canUp fec → Waits (.managementLinkUp fec) s)
     ∧ (mup = true → Gives .managementLinkDown s fun t => mdown t ∧ KeepsBut [.regs] s t ∧ RegsBut [st, al] s t)
     ∧ (mup = false → Waits .managementLinkDown s ∧ Waits .droppedFrame s)
     ∧ (mup = true → Gives .droppedFrame s fun t => (t.reg Reg.MGT_CNT_DROP).toNat
         = min ((s.reg Reg.MGT_CNT_DROP).toNat + 1) 0xFFFFFFFF ∧ KeepsBut [.regs] s t ∧ RegsBut [Reg.MGT_CNT_DROP] s t)
     ∧ (s.bit st Fd.MGT_STATUS_PLINK = true → Gives .storageLinkDown s fun t => t.bit st Fd.MGT_STATUS_PLINK = false
         ∧ t.fld st Fd.MGT_STATUS_PRATE = 0 ∧ t.fld st Fd.MGT_STATUS_PWIDTH = 0 ∧ t.bit al Fd.MGT_ALERT_PDOWN = true
         ∧ t.fw.logWr = s.fw.logWr + 1)
     ∧ (s.bit st Fd.MGT_STATUS_PLINK = false → Waits .storageLinkDown s)
     ∧ (let may := s.power.phase = 4 ∧ s.power.shoreBegun = true ∧ s.power.perst = true ∧ Clock.pe ∉ s.power.lost
        (may → Gives .pePerstRelease s fun t => t.power.perst = false ∧ KeepsBut [.regs, .power, .freeCtr] s t ∧ RegsBut [st] s t)
        ∧ (¬may → Waits .pePerstRelease s))
     ∧ (∀ (r : Requester) (v : BitVec 32), s.up = true → s.mayWrite r lb = true →
       (s.bit lb Fd.MGT_LB_GO = false → bitsOf v.toNat 2 1 ≤ 1 →
         Gives (.mgtLbGo r v) s fun t => t.bit lb Fd.MGT_LB_GO = true ∧ t.fld lb Fd.MGT_LB_PORT = v.toNat % 2
           ∧ t.fld lb Fd.MGT_LB_DEPTH = bitsOf v.toNat 2 1 ∧ KeepsBut [.regs] s t ∧ RegsBut [lb, st, al] s t
           ∧ (v.toNat % 2 = 0 → mup = true → mdown t) ∧ (v.toNat % 2 = 1 ∨ mup = false → RegsBut [lb] s t))
       ∧ (s.bit lb Fd.MGT_LB_GO = true ∨ 2 ≤ bitsOf v.toNat 2 1 →
         Gives (.mgtLbGo r v) s fun t => t.bit lb Fd.MGT_LB_GO = s.bit lb Fd.MGT_LB_GO ∧ KeepsBut [.regs] s t ∧ RegsBut [lb] s t))
     ∧ (∀ n, s.bit lb Fd.MGT_LB_GO = true → Gives (.mgtLoopbackDone n) s fun t => t.bit lb Fd.MGT_LB_GO = false
         ∧ t.bit lb Fd.MGT_LB_DONE = true ∧ (t.bit lb Fd.MGT_LB_PASS = true ↔ n = 0) ∧ t.fld lb Fd.MGT_LB_ERRS = min n 0xFFFF
         ∧ KeepsBut [.regs] s t ∧ RegsBut [lb] s t)
     ∧ (∀ n, s.bit lb Fd.MGT_LB_GO = false → Waits (.mgtLoopbackDone n) s))
  ∧ (∀ s : State,
     let st := Reg.MGT_STATUS
     let al := Reg.MGT_ALERT
     let cap (w : Nat) : Nat := min 2400 (max 1200 w)
     let thr := min 100 (max 80 (s.fld Reg.MGT_THERM Fd.MGT_THERM_THROTTLE))
     let limit (low : Bool) (tj : Nat) : Nat := max 1200 (min (cap (s.fld Reg.MGT_PCAP Fd.MGT_PCAP_LIMIT))
       (min (if low = true then cap (s.fld Reg.MGT_PCAP Fd.MGT_PCAP_ALT) else 2400) (2400 - 100 * (tj - thr))))
     let leff (t : State) : Nat := t.fld Reg.MGT_GATE Fd.MGT_GATE_LEFF
     let tj := s.fld Reg.MGT_TEMP Fd.MGT_TEMP_TJ
     let l := limit s.power.pcapLow tj
     let w0 := s.fld Reg.MGT_GATE Fd.MGT_GATE_W
     (∀ x : Temps, s.power.phase = 4 →
       let temps := [(x.junction.toNat, 110), (x.hbm.toNat, 105), (x.lpddr.toNat, 100), (x.regulator.toNat, 125),
         (x.baseplate.toNat, 70)]
       let trip := ∃ k, k < 5 ∧ (temps.getD k (0, 0)).2 < (temps.getD k (0, 0)).1 ∧ k ∈ s.power.hot
       Gives (.sensorRead x) s fun t => t.fld Reg.MGT_TEMP Fd.MGT_TEMP_TJ = x.junction.toNat
         ∧ t.fld Reg.MGT_TEMP Fd.MGT_TEMP_THBM = x.hbm.toNat ∧ t.fld Reg.MGT_TEMP Fd.MGT_TEMP_TBASE = x.baseplate.toNat
         ∧ t.fld Reg.MGT_TEMP Fd.MGT_TEMP_TVR = x.regulator.toNat ∧ leff t = limit s.power.pcapLow x.junction.toNat
         ∧ (t.bit st Fd.MGT_STATUS_THROTTLE = true ↔ thr < x.junction.toNat)
         ∧ (thr < x.junction.toNat → s.bit st Fd.MGT_STATUS_THROTTLE = false → t.bit al Fd.MGT_ALERT_THROTTLE = true)
         ∧ (t.power.thermTrip = true ↔ s.power.thermTrip = true ∨ trip)
         ∧ (∀ k, k ∈ t.power.hot ↔ k < 5 ∧ (temps.getD k (0, 0)).2 < (temps.getD k (0, 0)).1)
         ∧ (t.power.hotRefresh = true ↔ 85 < x.hbm.toNat) ∧ KeepsBut [.regs, .power, .events] s t
         ∧ RegsBut [Reg.MGT_TEMP, st, al, Reg.MGT_GATE] s t)
     ∧ (∀ x, s.power.phase ≠ 4 → Waits (.sensorRead x) s)
     ∧ (s.power.thermTrip = true → Gives .thermalTripLatch s fun t => t.power.phase = 0 ∧ t.power.latch = true)
     ∧ (s.power.thermTrip = false → Waits .thermalTripLatch s)
     ∧ (∀ low, s.power.phase = 4 → Gives (.pcapNChange low) s fun t => t.power.pcapLow = low
         ∧ t.bit st Fd.MGT_STATUS_PCAP = low ∧ leff t = limit low tj
         ∧ (low = true → s.power.pcapLow = false → t.bit al Fd.MGT_ALERT_PCAP = true)
         ∧ KeepsBut [.regs, .power] s t ∧ RegsBut [st, al, Reg.MGT_GATE] s t)
     ∧ (∀ low, s.power.phase ≠ 4 → Gives (.pcapNChange low) s fun t => t.power.pcapLow = low ∧ KeepsBut [.power] s t)
     ∧ (∀ (p : Nat) (v : BitVec 12) (sat : Bool), s.power.phase = 4 →
       let w := if l < p then min 255 (w0 + min 16 ((p - l + 7) / 8)) else if p + 16 < l then w0 - 1 else w0
       Gives (.powerControlUpdate p v sat) s fun t => t.fld Reg.MGT_GATE Fd.MGT_GATE_W = w ∧ leff t = l
         ∧ t.fld Reg.MGT_PWR Fd.MGT_PWR_PIN = min p 4095 ∧ t.fld Reg.MGT_PWR Fd.MGT_PWR_VIN = v.toNat
         ∧ (t.bit st Fd.MGT_STATUS_CAP_ACT = true ↔ w ≠ 0)
         ∧ (t.reg Reg.MGT_CNT_GATED).toNat = min ((s.reg Reg.MGT_CNT_GATED).toNat + (if w = 0 then 0 else 1)) 0xFFFFFFFF
         ∧ (sat = true → w0 = 255 → l < p → t.bit al Fd.MGT_ALERT_CAPSAT = true)
         ∧ KeepsBut [.regs] s t ∧ RegsBut [st, al, Reg.MGT_GATE, Reg.MGT_PWR, Reg.MGT_CNT_GATED] s t)
     ∧ (∀ p v sat, s.power.phase ≠ 4 → Waits (.powerControlUpdate p v sat) s)
     ∧ (∀ p : Fin 144, Gives (.gateWindow p) s fun t => (t.isl p).gateW = w0 ∧ (∀ q, q ≠ p.val → t.isl q = s.isl q)
         ∧ KeepsBut [.isls] s t))

/-- R500 to R503: the memory-access service answers every frame it receives while the management link is up. A request with a bad
length, a misaligned address, or one that R502 does not permit is refused and counted, with no effect. A permitted read of
clean memory returns its bytes, one that meets an uncorrectable codeword ERROR without data; a permitted write stores its
bytes and nothing else; a write of MGT_PCAP in the cycle of a Pilot write is dropped with BUSY. The order of the checks is the
model's.

R506: an inbound memory request that lies wholly in the checkpoint and spill region reads or writes its bytes; any other one
completes as an Unsupported Request and is logged. None is taken while the storage link is down. -/
def Obligations.RequestsFromOutside : Prop :=
  (∀ (f : MgmtFrame) (s : State),
     let n := f.len.toNat
     let a := f.addr.toNat
     let sized (wr : Bool) := n % 4 = 0 ∧ 4 ≤ n ∧ n ≤ 1024 ∧ (wr = true → f.data.length = n)
     let allowed (wr : Bool) := s.macAllowed f.src.toNat = true ∧ a < 2 ^ 48 ∧ s.mgmtArea a n wr = true
     let answers (t : State) (op st : Nat) (d : List Byte) : Prop := t.mgmtOut = some ⟨op, st, n, f.tag.toNat, a, d⟩
     let counts (t : State) (c : Nat) : Prop := (t.reg c).toNat = min ((s.reg c).toNat + 1) 0xFFFFFFFF
     let mem (wr : Bool) := ∀ x, a ≤ x → x < a + n → region x ≠ .regs ∧ (∀ p, region x ≠ .acc p) ∧ region x ≠ .pcie
       ∧ s.accessKind x wr = 0
     let serves := s.up = true ∧ s.bit Reg.MGT_STATUS Fd.MGT_STATUS_MLINK = true
     (¬serves → Waits (.read f) s ∧ Waits (.write f) s)
     ∧ (serves → ∀ (i : Instr) (op : Nat) (wr : Bool), (i, op, wr) ∈ [(Instr.read f, 3, false), (Instr.write f, 4, true)] →
       ¬(sized wr ∧ a % 4 = 0 ∧ allowed wr) →
       Gives i s fun t => answers t op (if ¬sized wr then 3 else if a % 4 ≠ 0 then 2 else 1) []
         ∧ counts t Reg.MGT_CNT_DENIED ∧ KeepsBut [.regs, .mgmtOut] s t ∧ RegsBut [Reg.MGT_CNT_DENIED] s t)
     ∧ (serves → sized false → a % 4 = 0 → allowed false → mem false → (∀ x, a ≤ x → x < a + n → s.cwAt x = .ok) →
       Settles (.read f) s fun t => answers t 3 0 (s.bytes a n) ∧ counts t Reg.MGT_CNT_REQ
         ∧ KeepsBut [.regs, .mgmtOut] s t ∧ RegsBut [Reg.MGT_CNT_REQ] s t)
     ∧ (serves → sized false → a % 4 = 0 → allowed false → mem false →
       (∃ x u, a ≤ x ∧ x < a + n ∧ memUnitOf x = some u ∧ (s.cwAt x = .ue ∨ s.cwAt x = .poison)) →
       Settles (.read f) s fun t => answers t 3 4 [] ∧ counts t Reg.MGT_CNT_REQ ∧ (∀ x, t.byte x = s.byte x))
     ∧ (serves → sized false → allowed false → (a, n) ∈ [(Reg.MGT_STATUS, 4), (Reg.MGT_PWR, 4), (Reg.MGT_TEMP, 4)] →
       Settles (.read f) s fun t => answers t 3 0 (leBytes 4 (s.reg a).toNat) ∧ counts t Reg.MGT_CNT_REQ
         ∧ KeepsBut [.regs, .mgmtOut] s t ∧ RegsBut [Reg.MGT_CNT_REQ] s t)
     ∧ (serves → sized true → a % 4 = 0 → allowed true → mem true → (∀ x, a ≤ x → x < a + n → s.cwAt x = .ok) →
       s.bit Reg.ISL_SWAP_CTL Fd.ISL_SWAP_CTL_GO = false →
       Settles (.write f) s fun t => answers t 4 0 [] ∧ counts t Reg.MGT_CNT_REQ ∧ t.bytes a n = f.data ∧ BytesBut a n s t
         ∧ KeepsBut [.regs, .mem, .cw, .mgmtOut] s t ∧ RegsBut [Reg.MGT_CNT_REQ] s t)
     ∧ (serves → sized true → allowed true → a = Reg.MGT_PCAP → n = 4 →
       (f.pilotSameCycle = true → Gives (.write f) s fun t => answers t 4 5 [] ∧ KeepsBut [.mgmtOut] s t)
       ∧ (f.pilotSameCycle = false → Settles (.write f) s fun t => answers t 4 0 [] ∧ counts t Reg.MGT_CNT_REQ
           ∧ t.fld Reg.MGT_PCAP Fd.MGT_PCAP_LIMIT = leNat f.data % 4096
           ∧ t.fld Reg.MGT_PCAP Fd.MGT_PCAP_ALT = bitsOf (leNat f.data) 27 16 ∧ KeepsBut [.regs, .mgmtOut] s t
           ∧ RegsBut [Reg.MGT_PCAP, Reg.MGT_GATE, Reg.MGT_CNT_REQ] s t)))
  ∧ (∀ (a : BitVec 64) (n : Nat) (d : List (BitVec 8)) (s : State), 1 ≤ n → 1 ≤ d.length →
     let takes := s.up = true ∧ s.bit Reg.MGT_STATUS Fd.MGT_STATUS_PLINK = true
     let rd := Instr.pcieInboundRequest (.rd a n)
     let wr := Instr.pcieInboundRequest (.wr a d)
     let spill (k : Nat) := 0x20C00000000 ≤ a.toNat ∧ a.toNat + k ≤ 0x2B400000000
     let clean (k : Nat) := ∀ x, a.toNat ≤ x → x < a.toNat + k → s.cwAt x = .ok ∧ s.accessKind x false = 0
     (¬takes → Waits rd s ∧ Waits wr s)
     ∧ (takes → spill n → clean n → Gives rd s fun t => t.pcieOut = .data (s.bytes a.toNat n) ∧ KeepsBut [.pcieOut] s t)
     ∧ (takes → spill d.length → clean d.length → Gives wr s fun t => t.pcieOut = .written ∧ t.bytes a.toNat d.length = d
         ∧ BytesBut a.toNat d.length s t ∧ KeepsBut [.pcieOut, .mem, .cw] s t)
     ∧ (takes → ¬spill n → Gives rd s fun t => t.pcieOut = .unsupported ∧ t.fw.logWr = s.fw.logWr + 1)
     ∧ (takes → ¬spill d.length → Gives wr s fun t => t.pcieOut = .unsupported ∧ t.fw.logWr = s.fw.logWr + 1))

/-- R16, R17: what a write and a read do to the fields of any register of the map. A write replaces RW fields, clears the bits of
W1C fields that it writes 1, and leaves RO and RC fields and reserved bits; a read clears RC fields and leaves all others. -/
def Obligations.RegisterFieldTypes : Prop :=
  ∀ (a : Nat) (r : RegRow), regRow? a = some r → ∀ old v : BitVec 32,
    (∀ f ∈ r.fields, (f.ty = .rw → f.get (r.swWrite old v) = f.get v)
      ∧ (f.ty = .ro ∨ f.ty = .rc → f.get (r.swWrite old v) = f.get old)
      ∧ (f.ty = .w1c → ∀ b, f.lo ≤ b → b < f.lo + f.w →
          (r.swWrite old v).getLsbD b = (old.getLsbD b && !v.getLsbD b))
      ∧ (f.get (r.rcClear old) = if f.ty = .rc then 0 else f.get old))
    ∧ (∀ b, b < 32 → (∀ f ∈ r.fields, ¬(f.lo ≤ b ∧ b < f.lo + f.w)) →
        (r.swWrite old v).getLsbD b = old.getLsbD b ∧ (r.rcClear old).getLsbD b = old.getLsbD b)

/-- R16, R37, R392, R502: a register read returns the word, in which a running context shows RUN or STALL by its readiness (R111,
R146), and clears its RC fields; a write acts on the register's fields and on no other register, for registers without a rule
of their own; a write that its requester may not make is dropped and recorded as an access error of kind 3; where the map has
no register nothing is written.

R146, R178, R247, R361, R369, R465: registers that take a write only at certain times. The PC, the context and the scalar
registers of a sequencer context are written only while it is stopped, an Island's Ebb descriptors, SHL_CFG and sentinel
settings only while both of its contexts are, and the seed, the types of the Tides and the update units' tables only while no
program is loaded; any other write of them is ignored. -/
def Obligations.RegisterAccess : Prop :=
  (∀ (r : Requester) (s : State), s.up = true →
     (∀ a : BitVec 48, s.mayRead r a.toNat = true →
       let w := a.toNat / 4 * 4
       let shown := (s.syncRead w).reg w
       (∀ row, regRow? w = some row → Gives (.rcCounterRead r a) s fun t => t.bus = .data (leBytes 4 shown.toNat)
         ∧ t.reg w = row.rcClear shown ∧ KeepsBut [.bus, .regs] s t ∧ RegsBut [w] s t)
       ∧ ((∀ p : Fin 144, w ≠ Reg.ISL_SEQ_STATUS p) → shown = s.reg w)
       ∧ (∀ p : Fin 144, w = Reg.ISL_SEQ_STATUS p →
         (∀ c : Fin 2, (s.syncRead w).ctxSt p c = if s.runs p c = true then (if s.ready p c = true then 1 else 2) else s.ctxSt p c)
         ∧ bitsOf shown.toNat 31 6 = bitsOf (s.reg w).toNat 31 6)
       ∧ (regRow? w = none → Gives (.rcCounterRead r a) s fun t => t.bus = .data [0, 0, 0, 0] ∧ KeepsBut [.bus] s t))
     ∧ (∀ a : BitVec 48, s.mayRead r a.toNat = false → Gives (.rcCounterRead r a) s fun t => t.bus = .err 3 []
         ∧ t.accessErrs = s.accessErrs ++ [⟨a.toNat, reqCode r, false, 3⟩] ∧ KeepsBut [.bus, .accessErrs] s t)
     ∧ (∀ (a : BitVec 48) (v : BitVec 32), s.mayWrite r a.toNat = false →
       Settles (.registerWrite r a v) s fun t => t.bus = .err 3 []
         ∧ t.accessErrs = s.accessErrs ++ [⟨a.toNat, reqCode r, true, 3⟩] ∧ KeepsBut [.bus, .accessErrs] s t)
     ∧ (∀ (a : BitVec 48) (v : BitVec 32), s.mayWrite r a.toNat = true → regRow? a.toNat = none →
       Settles (.registerWrite r a v) s fun t => t = s)
     ∧ (∀ (a : BitVec 48) (v : BitVec 32) (p : Fin 144) (q k : Fin 4) row, s.mayWrite r a.toNat = true →
       a.toNat ∈ [Reg.ISL_SEQ_WTO p, Reg.ISL_SEQ_EVT p, Reg.ACC_ERR p, Reg.SHL_ERR p, Reg.EBB_CNT_ROWS p, Reg.ISL_SENT_FIRST_TILE p,
         Reg.FRY_ERR q k, Reg.FRY_SUBMIT_LO q k, Reg.STR_EXPECT q k, Reg.STR_ERR q k, Reg.STR_TRK_TO q, Reg.TIDE_ERR,
         Reg.CHT_ERR q, Reg.FUU_CLIP q 1, Reg.BUOY_ERR q, Reg.BUOY_DUMP_ADDR_LO q, Reg.HBM_SCRUB q 0, Reg.PLT_CTXF, Reg.PLT_SHRWR, Reg.MGT_ALERT,
         Reg.MGT_ALERT_EN, Reg.MGT_STATUS, Reg.BOOT_ERR, Reg.BOOT_FL_ADDR, Reg.ISL_PSTATE p] → regRow? a.toNat = some row →
       Settles (.registerWrite r a v) s fun t => t.reg a.toNat = row.swWrite (s.reg a.toNat) v ∧ KeepsBut [.regs] s t
         ∧ RegsBut [a.toNat] s t))
  ∧ (∀ (r : Requester) (v : BitVec 32) (p : Fin 144) (c : Fin 2) (q : Fin 4) (s : State), s.up = true →
     let written (a : Nat) : Prop := ∀ row, regRow? a = some row →
       Settles (.registerWrite r (BitVec.ofNat 48 a) v) s fun t => t.reg a = row.swWrite (s.reg a) v ∧ KeepsBut [.regs] s t
         ∧ RegsBut [a] s t
     let ignored (a : Nat) : Prop := Settles (.registerWrite r (BitVec.ofNat 48 a) v) s fun t => t = s
     (∀ (a : Nat) (k : Fin 62), a ∈ [Reg.ISL_SEQ_PC p c, Reg.ISL_SEQ_CTXID p c, Reg.ISL_SEQ_SREG p c (k + 2), Reg.ISL_SEQ_PRED p c] →
       s.mayWrite r a = true → (s.ctxStopped p c = true → written a) ∧ (s.ctxStopped p c = false → ignored a))
     ∧ (∀ k : Fin 2, s.mayWrite r (Reg.ISL_SEQ_SREG p c k) = true → ignored (Reg.ISL_SEQ_SREG p c k))
     ∧ (∀ (a : Nat) (i : Fin 16) (j : Fin 16), a ∈ [Reg.EBB_DESC p i j, Reg.SHL_CFG p, Reg.ISL_SENT_CFG p, Reg.ISL_SENT_KEY_LO p,
         Reg.ISL_SENT_KEY_HI p] → s.mayWrite r a = true →
       (s.islStopped p = true → written a) ∧ (s.islStopped p = false → ignored a))
     ∧ (∀ (a : Nat) (k : Fin 16) (u : Fin 2), a ∈ [Reg.TIDE_SEED_LO, Reg.TIDE_SEED_HI, Reg.TIDE_FIRST, Reg.TIDE_CHILD, Reg.TIDE_TYPE k,
         Reg.FUU_TBL_LO q u, Reg.FUU_TBL_HI q u, Reg.FUU_TBL_N q u, Reg.FUU_T q u, Reg.FUU_BOFF_LO q u] →
       s.mayWrite r a = true → (s.loaded = false → written a) ∧ (s.loaded = true → ignored a)))

/-- A step takes the command at the front of the queue and is exec of that command on the state with the queue's rest. -/
def Obligations.StepFront : Prop :=
  ∀ (c : Instr) (r : List Instr) (s : State), s.pending = c :: r → step s = exec c { s with pending := r }

/-- On an empty queue one cycle passes; while the module is off nothing does (the model's choice, log entry 20). In a cycle no
memory of a Lagoon changes, every context in WAIT or not ready to issue counts it (R111, R146), and the cycle counter moves on
by one. -/
def Obligations.IdleCycle : Prop :=
  ∀ s : State, s.pending = [] →
    (s.up = false → step s = .next s)
    ∧ (s.up = true → s.fw.trace = [] → s.fw.logBase = 0 → s.fw.logLog2 = 14 → s.fw.expBase = 0 → s.tideSt = 0 →
      ∃ t, step s = .next t ∧ t.cycle = s.cycle + 1 ∧ t.pending = []
        ∧ (∀ (p : Fin 144) (c : Fin 2), (t.reg (Reg.ISL_SEQ_CNT_STALL p c)).toNat
            = if s.ctxSt p c = 3 ∨ (if s.runs p c = true then s.ready p c = false else s.ctxSt p c = 2) then min ((s.reg (Reg.ISL_SEQ_CNT_STALL p c)).toNat + 1) 0xFFFFFFFF
              else (s.reg (Reg.ISL_SEQ_CNT_STALL p c)).toNat)
        ∧ (∀ a, 0x40000000 ≤ a → a < 0x88000000 → t.byte a = s.byte a))

/-- Every well-formed command completes: exec answers a next state, whatever the state. An ill-formed one, whose operand has a
size that the interface does not have, stops with the fault illFormed. -/
def Obligations.EveryCommandCompletes : Prop :=
  ∀ (i : Instr) (s : State), (wellFormed i = true → ∃ t, exec i s = .next t)
    ∧ (wellFormed i = false → exec i s = .fault .illFormed)

/-- R16, R40, R490: right after reset every register holds the reset value of its table; stage ROM is due, no codeword is in
error, no command waits, every Island is UNTESTED, every port OFF, every context IDLE and the Tide UNLOADED.

The memory and the register file are in their canonical form at reset. -/
def Obligations.ResetIsCanonicalAndAsTabled : Prop :=
  ((∀ a row, regRow? a = some row → State.reset.reg a = row.reset)
   ∧ State.reset.bootFld Fd.BOOT_STATUS_STAGE = 1 ∧ State.reset.pending = [] ∧ (∀ a, State.reset.cwAt a = .ok)
   ∧ (∀ p : Fin 144, State.reset.pstate p = 0 ∧ State.reset.ctxSt p 0 = 0 ∧ State.reset.ctxSt p 1 = 0)
   ∧ (∀ k : Fin 16, State.reset.portSt k = 0) ∧ State.reset.tideSt = 0 ∧ State.reset.loaded = false)
  ∧ (State.reset.Canonical)

/-- Every step keeps the memory and the register file in their canonical form, from every state that has them so. -/
def Obligations.StepKeepsCanonical : Prop := ∀ s t : State, s.Canonical → step s = .next t → t.Canonical
end

