-- ==== Sys2Proof/Laws/State.lean ====
section
/-! SUPPORT. What each named update of State leaves alone: one lemma for each field and update, true by rfl. -/

namespace Sys2Proof.Machine

variable (s : State)

/-! ### setReg -/

@[simp] theorem State.setReg_pending (a : Nat) (v : Word) : (s.setReg a v).pending = s.pending := rfl
@[simp] theorem State.setReg_mem (a : Nat) (v : Word) : (s.setReg a v).mem = s.mem := rfl
@[simp] theorem State.setReg_cw (a : Nat) (v : Word) : (s.setReg a v).cw = s.cw := rfl
@[simp] theorem State.setReg_freeCtr (a : Nat) (v : Word) : (s.setReg a v).freeCtr = s.freeCtr := rfl
@[simp] theorem State.setReg_cycle (a : Nat) (v : Word) : (s.setReg a v).cycle = s.cycle := rfl
@[simp] theorem State.setReg_bus (a : Nat) (v : Word) : (s.setReg a v).bus = s.bus := rfl
@[simp] theorem State.setReg_accessErrs (a : Nat) (v : Word) : (s.setReg a v).accessErrs = s.accessErrs := rfl
@[simp] theorem State.setReg_events (a : Nat) (v : Word) : (s.setReg a v).events = s.events := rfl
@[simp] theorem State.setReg_nextWork (a : Nat) (v : Word) : (s.setReg a v).nextWork = s.nextWork := rfl
@[simp] theorem State.setReg_work (a : Nat) (v : Word) : (s.setReg a v).work = s.work := rfl
@[simp] theorem State.setReg_remLines (a : Nat) (v : Word) : (s.setReg a v).remLines = s.remLines := rfl
@[simp] theorem State.setReg_isls (a : Nat) (v : Word) : (s.setReg a v).isls = s.isls := rfl
@[simp] theorem State.setReg_qtrs (a : Nat) (v : Word) : (s.setReg a v).qtrs = s.qtrs := rfl
@[simp] theorem State.setReg_ports (a : Nat) (v : Word) : (s.setReg a v).ports = s.ports := rfl
@[simp] theorem State.setReg_frys (a : Nat) (v : Word) : (s.setReg a v).frys = s.frys := rfl
@[simp] theorem State.setReg_chans (a : Nat) (v : Word) : (s.setReg a v).chans = s.chans := rfl
@[simp] theorem State.setReg_fuus (a : Nat) (v : Word) : (s.setReg a v).fuus = s.fuus := rfl
@[simp] theorem State.setReg_tide (a : Nat) (v : Word) : (s.setReg a v).tide = s.tide := rfl
@[simp] theorem State.setReg_scrubs (a : Nat) (v : Word) : (s.setReg a v).scrubs = s.scrubs := rfl
@[simp] theorem State.setReg_fw (a : Nat) (v : Word) : (s.setReg a v).fw = s.fw := rfl
@[simp] theorem State.setReg_boot (a : Nat) (v : Word) : (s.setReg a v).boot = s.boot := rfl
@[simp] theorem State.setReg_power (a : Nat) (v : Word) : (s.setReg a v).power = s.power := rfl
@[simp] theorem State.setReg_mgmtOut (a : Nat) (v : Word) : (s.setReg a v).mgmtOut = s.mgmtOut := rfl
@[simp] theorem State.setReg_pcieOut (a : Nat) (v : Word) : (s.setReg a v).pcieOut = s.pcieOut := rfl

/-! ### setFld -/

@[simp] theorem State.setFld_pending (a : Nat) (f : Fld) (v : Nat) : (s.setFld a f v).pending = s.pending := rfl
@[simp] theorem State.setFld_mem (a : Nat) (f : Fld) (v : Nat) : (s.setFld a f v).mem = s.mem := rfl
@[simp] theorem State.setFld_cw (a : Nat) (f : Fld) (v : Nat) : (s.setFld a f v).cw = s.cw := rfl
@[simp] theorem State.setFld_freeCtr (a : Nat) (f : Fld) (v : Nat) : (s.setFld a f v).freeCtr = s.freeCtr := rfl
@[simp] theorem State.setFld_cycle (a : Nat) (f : Fld) (v : Nat) : (s.setFld a f v).cycle = s.cycle := rfl
@[simp] theorem State.setFld_bus (a : Nat) (f : Fld) (v : Nat) : (s.setFld a f v).bus = s.bus := rfl
@[simp] theorem State.setFld_accessErrs (a : Nat) (f : Fld) (v : Nat) : (s.setFld a f v).accessErrs = s.accessErrs := rfl
@[simp] theorem State.setFld_events (a : Nat) (f : Fld) (v : Nat) : (s.setFld a f v).events = s.events := rfl
@[simp] theorem State.setFld_nextWork (a : Nat) (f : Fld) (v : Nat) : (s.setFld a f v).nextWork = s.nextWork := rfl
@[simp] theorem State.setFld_work (a : Nat) (f : Fld) (v : Nat) : (s.setFld a f v).work = s.work := rfl
@[simp] theorem State.setFld_remLines (a : Nat) (f : Fld) (v : Nat) : (s.setFld a f v).remLines = s.remLines := rfl
@[simp] theorem State.setFld_isls (a : Nat) (f : Fld) (v : Nat) : (s.setFld a f v).isls = s.isls := rfl
@[simp] theorem State.setFld_qtrs (a : Nat) (f : Fld) (v : Nat) : (s.setFld a f v).qtrs = s.qtrs := rfl
@[simp] theorem State.setFld_ports (a : Nat) (f : Fld) (v : Nat) : (s.setFld a f v).ports = s.ports := rfl
@[simp] theorem State.setFld_frys (a : Nat) (f : Fld) (v : Nat) : (s.setFld a f v).frys = s.frys := rfl
@[simp] theorem State.setFld_chans (a : Nat) (f : Fld) (v : Nat) : (s.setFld a f v).chans = s.chans := rfl
@[simp] theorem State.setFld_fuus (a : Nat) (f : Fld) (v : Nat) : (s.setFld a f v).fuus = s.fuus := rfl
@[simp] theorem State.setFld_tide (a : Nat) (f : Fld) (v : Nat) : (s.setFld a f v).tide = s.tide := rfl
@[simp] theorem State.setFld_scrubs (a : Nat) (f : Fld) (v : Nat) : (s.setFld a f v).scrubs = s.scrubs := rfl
@[simp] theorem State.setFld_fw (a : Nat) (f : Fld) (v : Nat) : (s.setFld a f v).fw = s.fw := rfl
@[simp] theorem State.setFld_boot (a : Nat) (f : Fld) (v : Nat) : (s.setFld a f v).boot = s.boot := rfl
@[simp] theorem State.setFld_power (a : Nat) (f : Fld) (v : Nat) : (s.setFld a f v).power = s.power := rfl
@[simp] theorem State.setFld_mgmtOut (a : Nat) (f : Fld) (v : Nat) : (s.setFld a f v).mgmtOut = s.mgmtOut := rfl
@[simp] theorem State.setFld_pcieOut (a : Nat) (f : Fld) (v : Nat) : (s.setFld a f v).pcieOut = s.pcieOut := rfl

/-! ### count -/

@[simp] theorem State.count_pending (a n : Nat) : (s.count a n).pending = s.pending := rfl
@[simp] theorem State.count_mem (a n : Nat) : (s.count a n).mem = s.mem := rfl
@[simp] theorem State.count_cw (a n : Nat) : (s.count a n).cw = s.cw := rfl
@[simp] theorem State.count_freeCtr (a n : Nat) : (s.count a n).freeCtr = s.freeCtr := rfl
@[simp] theorem State.count_cycle (a n : Nat) : (s.count a n).cycle = s.cycle := rfl
@[simp] theorem State.count_bus (a n : Nat) : (s.count a n).bus = s.bus := rfl
@[simp] theorem State.count_accessErrs (a n : Nat) : (s.count a n).accessErrs = s.accessErrs := rfl
@[simp] theorem State.count_events (a n : Nat) : (s.count a n).events = s.events := rfl
@[simp] theorem State.count_nextWork (a n : Nat) : (s.count a n).nextWork = s.nextWork := rfl
@[simp] theorem State.count_work (a n : Nat) : (s.count a n).work = s.work := rfl
@[simp] theorem State.count_remLines (a n : Nat) : (s.count a n).remLines = s.remLines := rfl
@[simp] theorem State.count_isls (a n : Nat) : (s.count a n).isls = s.isls := rfl
@[simp] theorem State.count_qtrs (a n : Nat) : (s.count a n).qtrs = s.qtrs := rfl
@[simp] theorem State.count_ports (a n : Nat) : (s.count a n).ports = s.ports := rfl
@[simp] theorem State.count_frys (a n : Nat) : (s.count a n).frys = s.frys := rfl
@[simp] theorem State.count_chans (a n : Nat) : (s.count a n).chans = s.chans := rfl
@[simp] theorem State.count_fuus (a n : Nat) : (s.count a n).fuus = s.fuus := rfl
@[simp] theorem State.count_tide (a n : Nat) : (s.count a n).tide = s.tide := rfl
@[simp] theorem State.count_scrubs (a n : Nat) : (s.count a n).scrubs = s.scrubs := rfl
@[simp] theorem State.count_fw (a n : Nat) : (s.count a n).fw = s.fw := rfl
@[simp] theorem State.count_boot (a n : Nat) : (s.count a n).boot = s.boot := rfl
@[simp] theorem State.count_power (a n : Nat) : (s.count a n).power = s.power := rfl
@[simp] theorem State.count_mgmtOut (a n : Nat) : (s.count a n).mgmtOut = s.mgmtOut := rfl
@[simp] theorem State.count_pcieOut (a n : Nat) : (s.count a n).pcieOut = s.pcieOut := rfl

/-! ### setByte -/

@[simp] theorem State.setByte_pending (a : Nat) (v : Byte) : (s.setByte a v).pending = s.pending := rfl
@[simp] theorem State.setByte_regs (a : Nat) (v : Byte) : (s.setByte a v).regs = s.regs := rfl
@[simp] theorem State.setByte_cw (a : Nat) (v : Byte) : (s.setByte a v).cw = s.cw := rfl
@[simp] theorem State.setByte_freeCtr (a : Nat) (v : Byte) : (s.setByte a v).freeCtr = s.freeCtr := rfl
@[simp] theorem State.setByte_cycle (a : Nat) (v : Byte) : (s.setByte a v).cycle = s.cycle := rfl
@[simp] theorem State.setByte_bus (a : Nat) (v : Byte) : (s.setByte a v).bus = s.bus := rfl
@[simp] theorem State.setByte_accessErrs (a : Nat) (v : Byte) : (s.setByte a v).accessErrs = s.accessErrs := rfl
@[simp] theorem State.setByte_events (a : Nat) (v : Byte) : (s.setByte a v).events = s.events := rfl
@[simp] theorem State.setByte_nextWork (a : Nat) (v : Byte) : (s.setByte a v).nextWork = s.nextWork := rfl
@[simp] theorem State.setByte_work (a : Nat) (v : Byte) : (s.setByte a v).work = s.work := rfl
@[simp] theorem State.setByte_remLines (a : Nat) (v : Byte) : (s.setByte a v).remLines = s.remLines := rfl
@[simp] theorem State.setByte_isls (a : Nat) (v : Byte) : (s.setByte a v).isls = s.isls := rfl
@[simp] theorem State.setByte_qtrs (a : Nat) (v : Byte) : (s.setByte a v).qtrs = s.qtrs := rfl
@[simp] theorem State.setByte_ports (a : Nat) (v : Byte) : (s.setByte a v).ports = s.ports := rfl
@[simp] theorem State.setByte_frys (a : Nat) (v : Byte) : (s.setByte a v).frys = s.frys := rfl
@[simp] theorem State.setByte_chans (a : Nat) (v : Byte) : (s.setByte a v).chans = s.chans := rfl
@[simp] theorem State.setByte_fuus (a : Nat) (v : Byte) : (s.setByte a v).fuus = s.fuus := rfl
@[simp] theorem State.setByte_tide (a : Nat) (v : Byte) : (s.setByte a v).tide = s.tide := rfl
@[simp] theorem State.setByte_scrubs (a : Nat) (v : Byte) : (s.setByte a v).scrubs = s.scrubs := rfl
@[simp] theorem State.setByte_fw (a : Nat) (v : Byte) : (s.setByte a v).fw = s.fw := rfl
@[simp] theorem State.setByte_boot (a : Nat) (v : Byte) : (s.setByte a v).boot = s.boot := rfl
@[simp] theorem State.setByte_power (a : Nat) (v : Byte) : (s.setByte a v).power = s.power := rfl
@[simp] theorem State.setByte_mgmtOut (a : Nat) (v : Byte) : (s.setByte a v).mgmtOut = s.mgmtOut := rfl
@[simp] theorem State.setByte_pcieOut (a : Nat) (v : Byte) : (s.setByte a v).pcieOut = s.pcieOut := rfl

/-! ### setCw -/

@[simp] theorem State.setCw_pending (a : Nat) (e : CwErr) : (s.setCw a e).pending = s.pending := rfl
@[simp] theorem State.setCw_regs (a : Nat) (e : CwErr) : (s.setCw a e).regs = s.regs := rfl
@[simp] theorem State.setCw_mem (a : Nat) (e : CwErr) : (s.setCw a e).mem = s.mem := rfl
@[simp] theorem State.setCw_freeCtr (a : Nat) (e : CwErr) : (s.setCw a e).freeCtr = s.freeCtr := rfl
@[simp] theorem State.setCw_cycle (a : Nat) (e : CwErr) : (s.setCw a e).cycle = s.cycle := rfl
@[simp] theorem State.setCw_bus (a : Nat) (e : CwErr) : (s.setCw a e).bus = s.bus := rfl
@[simp] theorem State.setCw_accessErrs (a : Nat) (e : CwErr) : (s.setCw a e).accessErrs = s.accessErrs := rfl
@[simp] theorem State.setCw_events (a : Nat) (e : CwErr) : (s.setCw a e).events = s.events := rfl
@[simp] theorem State.setCw_nextWork (a : Nat) (e : CwErr) : (s.setCw a e).nextWork = s.nextWork := rfl
@[simp] theorem State.setCw_work (a : Nat) (e : CwErr) : (s.setCw a e).work = s.work := rfl
@[simp] theorem State.setCw_remLines (a : Nat) (e : CwErr) : (s.setCw a e).remLines = s.remLines := rfl
@[simp] theorem State.setCw_isls (a : Nat) (e : CwErr) : (s.setCw a e).isls = s.isls := rfl
@[simp] theorem State.setCw_qtrs (a : Nat) (e : CwErr) : (s.setCw a e).qtrs = s.qtrs := rfl
@[simp] theorem State.setCw_ports (a : Nat) (e : CwErr) : (s.setCw a e).ports = s.ports := rfl
@[simp] theorem State.setCw_frys (a : Nat) (e : CwErr) : (s.setCw a e).frys = s.frys := rfl
@[simp] theorem State.setCw_chans (a : Nat) (e : CwErr) : (s.setCw a e).chans = s.chans := rfl
@[simp] theorem State.setCw_fuus (a : Nat) (e : CwErr) : (s.setCw a e).fuus = s.fuus := rfl
@[simp] theorem State.setCw_tide (a : Nat) (e : CwErr) : (s.setCw a e).tide = s.tide := rfl
@[simp] theorem State.setCw_scrubs (a : Nat) (e : CwErr) : (s.setCw a e).scrubs = s.scrubs := rfl
@[simp] theorem State.setCw_fw (a : Nat) (e : CwErr) : (s.setCw a e).fw = s.fw := rfl
@[simp] theorem State.setCw_boot (a : Nat) (e : CwErr) : (s.setCw a e).boot = s.boot := rfl
@[simp] theorem State.setCw_power (a : Nat) (e : CwErr) : (s.setCw a e).power = s.power := rfl
@[simp] theorem State.setCw_mgmtOut (a : Nat) (e : CwErr) : (s.setCw a e).mgmtOut = s.mgmtOut := rfl
@[simp] theorem State.setCw_pcieOut (a : Nat) (e : CwErr) : (s.setCw a e).pcieOut = s.pcieOut := rfl

/-! ### setIsl -/

@[simp] theorem State.setIsl_pending (p : Nat) (x : Isl) : (s.setIsl p x).pending = s.pending := rfl
@[simp] theorem State.setIsl_regs (p : Nat) (x : Isl) : (s.setIsl p x).regs = s.regs := rfl
@[simp] theorem State.setIsl_mem (p : Nat) (x : Isl) : (s.setIsl p x).mem = s.mem := rfl
@[simp] theorem State.setIsl_cw (p : Nat) (x : Isl) : (s.setIsl p x).cw = s.cw := rfl
@[simp] theorem State.setIsl_freeCtr (p : Nat) (x : Isl) : (s.setIsl p x).freeCtr = s.freeCtr := rfl
@[simp] theorem State.setIsl_cycle (p : Nat) (x : Isl) : (s.setIsl p x).cycle = s.cycle := rfl
@[simp] theorem State.setIsl_bus (p : Nat) (x : Isl) : (s.setIsl p x).bus = s.bus := rfl
@[simp] theorem State.setIsl_accessErrs (p : Nat) (x : Isl) : (s.setIsl p x).accessErrs = s.accessErrs := rfl
@[simp] theorem State.setIsl_events (p : Nat) (x : Isl) : (s.setIsl p x).events = s.events := rfl
@[simp] theorem State.setIsl_nextWork (p : Nat) (x : Isl) : (s.setIsl p x).nextWork = s.nextWork := rfl
@[simp] theorem State.setIsl_work (p : Nat) (x : Isl) : (s.setIsl p x).work = s.work := rfl
@[simp] theorem State.setIsl_remLines (p : Nat) (x : Isl) : (s.setIsl p x).remLines = s.remLines := rfl
@[simp] theorem State.setIsl_qtrs (p : Nat) (x : Isl) : (s.setIsl p x).qtrs = s.qtrs := rfl
@[simp] theorem State.setIsl_ports (p : Nat) (x : Isl) : (s.setIsl p x).ports = s.ports := rfl
@[simp] theorem State.setIsl_frys (p : Nat) (x : Isl) : (s.setIsl p x).frys = s.frys := rfl
@[simp] theorem State.setIsl_chans (p : Nat) (x : Isl) : (s.setIsl p x).chans = s.chans := rfl
@[simp] theorem State.setIsl_fuus (p : Nat) (x : Isl) : (s.setIsl p x).fuus = s.fuus := rfl
@[simp] theorem State.setIsl_tide (p : Nat) (x : Isl) : (s.setIsl p x).tide = s.tide := rfl
@[simp] theorem State.setIsl_scrubs (p : Nat) (x : Isl) : (s.setIsl p x).scrubs = s.scrubs := rfl
@[simp] theorem State.setIsl_fw (p : Nat) (x : Isl) : (s.setIsl p x).fw = s.fw := rfl
@[simp] theorem State.setIsl_boot (p : Nat) (x : Isl) : (s.setIsl p x).boot = s.boot := rfl
@[simp] theorem State.setIsl_power (p : Nat) (x : Isl) : (s.setIsl p x).power = s.power := rfl
@[simp] theorem State.setIsl_mgmtOut (p : Nat) (x : Isl) : (s.setIsl p x).mgmtOut = s.mgmtOut := rfl
@[simp] theorem State.setIsl_pcieOut (p : Nat) (x : Isl) : (s.setIsl p x).pcieOut = s.pcieOut := rfl

/-! ### setCtx -/

@[simp] theorem State.setCtx_pending (p c : Nat) (y : Ctx) : (s.setCtx p c y).pending = s.pending := rfl
@[simp] theorem State.setCtx_regs (p c : Nat) (y : Ctx) : (s.setCtx p c y).regs = s.regs := rfl
@[simp] theorem State.setCtx_mem (p c : Nat) (y : Ctx) : (s.setCtx p c y).mem = s.mem := rfl
@[simp] theorem State.setCtx_cw (p c : Nat) (y : Ctx) : (s.setCtx p c y).cw = s.cw := rfl
@[simp] theorem State.setCtx_freeCtr (p c : Nat) (y : Ctx) : (s.setCtx p c y).freeCtr = s.freeCtr := rfl
@[simp] theorem State.setCtx_cycle (p c : Nat) (y : Ctx) : (s.setCtx p c y).cycle = s.cycle := rfl
@[simp] theorem State.setCtx_bus (p c : Nat) (y : Ctx) : (s.setCtx p c y).bus = s.bus := rfl
@[simp] theorem State.setCtx_accessErrs (p c : Nat) (y : Ctx) : (s.setCtx p c y).accessErrs = s.accessErrs := rfl
@[simp] theorem State.setCtx_events (p c : Nat) (y : Ctx) : (s.setCtx p c y).events = s.events := rfl
@[simp] theorem State.setCtx_nextWork (p c : Nat) (y : Ctx) : (s.setCtx p c y).nextWork = s.nextWork := rfl
@[simp] theorem State.setCtx_work (p c : Nat) (y : Ctx) : (s.setCtx p c y).work = s.work := rfl
@[simp] theorem State.setCtx_remLines (p c : Nat) (y : Ctx) : (s.setCtx p c y).remLines = s.remLines := rfl
@[simp] theorem State.setCtx_qtrs (p c : Nat) (y : Ctx) : (s.setCtx p c y).qtrs = s.qtrs := rfl
@[simp] theorem State.setCtx_ports (p c : Nat) (y : Ctx) : (s.setCtx p c y).ports = s.ports := rfl
@[simp] theorem State.setCtx_frys (p c : Nat) (y : Ctx) : (s.setCtx p c y).frys = s.frys := rfl
@[simp] theorem State.setCtx_chans (p c : Nat) (y : Ctx) : (s.setCtx p c y).chans = s.chans := rfl
@[simp] theorem State.setCtx_fuus (p c : Nat) (y : Ctx) : (s.setCtx p c y).fuus = s.fuus := rfl
@[simp] theorem State.setCtx_tide (p c : Nat) (y : Ctx) : (s.setCtx p c y).tide = s.tide := rfl
@[simp] theorem State.setCtx_scrubs (p c : Nat) (y : Ctx) : (s.setCtx p c y).scrubs = s.scrubs := rfl
@[simp] theorem State.setCtx_fw (p c : Nat) (y : Ctx) : (s.setCtx p c y).fw = s.fw := rfl
@[simp] theorem State.setCtx_boot (p c : Nat) (y : Ctx) : (s.setCtx p c y).boot = s.boot := rfl
@[simp] theorem State.setCtx_power (p c : Nat) (y : Ctx) : (s.setCtx p c y).power = s.power := rfl
@[simp] theorem State.setCtx_mgmtOut (p c : Nat) (y : Ctx) : (s.setCtx p c y).mgmtOut = s.mgmtOut := rfl
@[simp] theorem State.setCtx_pcieOut (p c : Nat) (y : Ctx) : (s.setCtx p c y).pcieOut = s.pcieOut := rfl

/-! ### setQtr -/

@[simp] theorem State.setQtr_pending (q : Nat) (x : Qtr) : (s.setQtr q x).pending = s.pending := rfl
@[simp] theorem State.setQtr_regs (q : Nat) (x : Qtr) : (s.setQtr q x).regs = s.regs := rfl
@[simp] theorem State.setQtr_mem (q : Nat) (x : Qtr) : (s.setQtr q x).mem = s.mem := rfl
@[simp] theorem State.setQtr_cw (q : Nat) (x : Qtr) : (s.setQtr q x).cw = s.cw := rfl
@[simp] theorem State.setQtr_freeCtr (q : Nat) (x : Qtr) : (s.setQtr q x).freeCtr = s.freeCtr := rfl
@[simp] theorem State.setQtr_cycle (q : Nat) (x : Qtr) : (s.setQtr q x).cycle = s.cycle := rfl
@[simp] theorem State.setQtr_bus (q : Nat) (x : Qtr) : (s.setQtr q x).bus = s.bus := rfl
@[simp] theorem State.setQtr_accessErrs (q : Nat) (x : Qtr) : (s.setQtr q x).accessErrs = s.accessErrs := rfl
@[simp] theorem State.setQtr_events (q : Nat) (x : Qtr) : (s.setQtr q x).events = s.events := rfl
@[simp] theorem State.setQtr_nextWork (q : Nat) (x : Qtr) : (s.setQtr q x).nextWork = s.nextWork := rfl
@[simp] theorem State.setQtr_work (q : Nat) (x : Qtr) : (s.setQtr q x).work = s.work := rfl
@[simp] theorem State.setQtr_remLines (q : Nat) (x : Qtr) : (s.setQtr q x).remLines = s.remLines := rfl
@[simp] theorem State.setQtr_isls (q : Nat) (x : Qtr) : (s.setQtr q x).isls = s.isls := rfl
@[simp] theorem State.setQtr_ports (q : Nat) (x : Qtr) : (s.setQtr q x).ports = s.ports := rfl
@[simp] theorem State.setQtr_frys (q : Nat) (x : Qtr) : (s.setQtr q x).frys = s.frys := rfl
@[simp] theorem State.setQtr_chans (q : Nat) (x : Qtr) : (s.setQtr q x).chans = s.chans := rfl
@[simp] theorem State.setQtr_fuus (q : Nat) (x : Qtr) : (s.setQtr q x).fuus = s.fuus := rfl
@[simp] theorem State.setQtr_tide (q : Nat) (x : Qtr) : (s.setQtr q x).tide = s.tide := rfl
@[simp] theorem State.setQtr_scrubs (q : Nat) (x : Qtr) : (s.setQtr q x).scrubs = s.scrubs := rfl
@[simp] theorem State.setQtr_fw (q : Nat) (x : Qtr) : (s.setQtr q x).fw = s.fw := rfl
@[simp] theorem State.setQtr_boot (q : Nat) (x : Qtr) : (s.setQtr q x).boot = s.boot := rfl
@[simp] theorem State.setQtr_power (q : Nat) (x : Qtr) : (s.setQtr q x).power = s.power := rfl
@[simp] theorem State.setQtr_mgmtOut (q : Nat) (x : Qtr) : (s.setQtr q x).mgmtOut = s.mgmtOut := rfl
@[simp] theorem State.setQtr_pcieOut (q : Nat) (x : Qtr) : (s.setQtr q x).pcieOut = s.pcieOut := rfl

/-! ### setPort -/

@[simp] theorem State.setPort_pending (k : Nat) (x : Port) : (s.setPort k x).pending = s.pending := rfl
@[simp] theorem State.setPort_regs (k : Nat) (x : Port) : (s.setPort k x).regs = s.regs := rfl
@[simp] theorem State.setPort_mem (k : Nat) (x : Port) : (s.setPort k x).mem = s.mem := rfl
@[simp] theorem State.setPort_cw (k : Nat) (x : Port) : (s.setPort k x).cw = s.cw := rfl
@[simp] theorem State.setPort_freeCtr (k : Nat) (x : Port) : (s.setPort k x).freeCtr = s.freeCtr := rfl
@[simp] theorem State.setPort_cycle (k : Nat) (x : Port) : (s.setPort k x).cycle = s.cycle := rfl
@[simp] theorem State.setPort_bus (k : Nat) (x : Port) : (s.setPort k x).bus = s.bus := rfl
@[simp] theorem State.setPort_accessErrs (k : Nat) (x : Port) : (s.setPort k x).accessErrs = s.accessErrs := rfl
@[simp] theorem State.setPort_events (k : Nat) (x : Port) : (s.setPort k x).events = s.events := rfl
@[simp] theorem State.setPort_nextWork (k : Nat) (x : Port) : (s.setPort k x).nextWork = s.nextWork := rfl
@[simp] theorem State.setPort_work (k : Nat) (x : Port) : (s.setPort k x).work = s.work := rfl
@[simp] theorem State.setPort_remLines (k : Nat) (x : Port) : (s.setPort k x).remLines = s.remLines := rfl
@[simp] theorem State.setPort_isls (k : Nat) (x : Port) : (s.setPort k x).isls = s.isls := rfl
@[simp] theorem State.setPort_qtrs (k : Nat) (x : Port) : (s.setPort k x).qtrs = s.qtrs := rfl
@[simp] theorem State.setPort_frys (k : Nat) (x : Port) : (s.setPort k x).frys = s.frys := rfl
@[simp] theorem State.setPort_chans (k : Nat) (x : Port) : (s.setPort k x).chans = s.chans := rfl
@[simp] theorem State.setPort_fuus (k : Nat) (x : Port) : (s.setPort k x).fuus = s.fuus := rfl
@[simp] theorem State.setPort_tide (k : Nat) (x : Port) : (s.setPort k x).tide = s.tide := rfl
@[simp] theorem State.setPort_scrubs (k : Nat) (x : Port) : (s.setPort k x).scrubs = s.scrubs := rfl
@[simp] theorem State.setPort_fw (k : Nat) (x : Port) : (s.setPort k x).fw = s.fw := rfl
@[simp] theorem State.setPort_boot (k : Nat) (x : Port) : (s.setPort k x).boot = s.boot := rfl
@[simp] theorem State.setPort_power (k : Nat) (x : Port) : (s.setPort k x).power = s.power := rfl
@[simp] theorem State.setPort_mgmtOut (k : Nat) (x : Port) : (s.setPort k x).mgmtOut = s.mgmtOut := rfl
@[simp] theorem State.setPort_pcieOut (k : Nat) (x : Port) : (s.setPort k x).pcieOut = s.pcieOut := rfl

/-! ### setFry -/

@[simp] theorem State.setFry_pending (f : Nat) (x : Fry) : (s.setFry f x).pending = s.pending := rfl
@[simp] theorem State.setFry_regs (f : Nat) (x : Fry) : (s.setFry f x).regs = s.regs := rfl
@[simp] theorem State.setFry_mem (f : Nat) (x : Fry) : (s.setFry f x).mem = s.mem := rfl
@[simp] theorem State.setFry_cw (f : Nat) (x : Fry) : (s.setFry f x).cw = s.cw := rfl
@[simp] theorem State.setFry_freeCtr (f : Nat) (x : Fry) : (s.setFry f x).freeCtr = s.freeCtr := rfl
@[simp] theorem State.setFry_cycle (f : Nat) (x : Fry) : (s.setFry f x).cycle = s.cycle := rfl
@[simp] theorem State.setFry_bus (f : Nat) (x : Fry) : (s.setFry f x).bus = s.bus := rfl
@[simp] theorem State.setFry_accessErrs (f : Nat) (x : Fry) : (s.setFry f x).accessErrs = s.accessErrs := rfl
@[simp] theorem State.setFry_events (f : Nat) (x : Fry) : (s.setFry f x).events = s.events := rfl
@[simp] theorem State.setFry_nextWork (f : Nat) (x : Fry) : (s.setFry f x).nextWork = s.nextWork := rfl
@[simp] theorem State.setFry_work (f : Nat) (x : Fry) : (s.setFry f x).work = s.work := rfl
@[simp] theorem State.setFry_remLines (f : Nat) (x : Fry) : (s.setFry f x).remLines = s.remLines := rfl
@[simp] theorem State.setFry_isls (f : Nat) (x : Fry) : (s.setFry f x).isls = s.isls := rfl
@[simp] theorem State.setFry_qtrs (f : Nat) (x : Fry) : (s.setFry f x).qtrs = s.qtrs := rfl
@[simp] theorem State.setFry_ports (f : Nat) (x : Fry) : (s.setFry f x).ports = s.ports := rfl
@[simp] theorem State.setFry_chans (f : Nat) (x : Fry) : (s.setFry f x).chans = s.chans := rfl
@[simp] theorem State.setFry_fuus (f : Nat) (x : Fry) : (s.setFry f x).fuus = s.fuus := rfl
@[simp] theorem State.setFry_tide (f : Nat) (x : Fry) : (s.setFry f x).tide = s.tide := rfl
@[simp] theorem State.setFry_scrubs (f : Nat) (x : Fry) : (s.setFry f x).scrubs = s.scrubs := rfl
@[simp] theorem State.setFry_fw (f : Nat) (x : Fry) : (s.setFry f x).fw = s.fw := rfl
@[simp] theorem State.setFry_boot (f : Nat) (x : Fry) : (s.setFry f x).boot = s.boot := rfl
@[simp] theorem State.setFry_power (f : Nat) (x : Fry) : (s.setFry f x).power = s.power := rfl
@[simp] theorem State.setFry_mgmtOut (f : Nat) (x : Fry) : (s.setFry f x).mgmtOut = s.mgmtOut := rfl
@[simp] theorem State.setFry_pcieOut (f : Nat) (x : Fry) : (s.setFry f x).pcieOut = s.pcieOut := rfl

/-! ### setChan -/

@[simp] theorem State.setChan_pending (ch : Nat) (x : Chan) : (s.setChan ch x).pending = s.pending := rfl
@[simp] theorem State.setChan_regs (ch : Nat) (x : Chan) : (s.setChan ch x).regs = s.regs := rfl
@[simp] theorem State.setChan_mem (ch : Nat) (x : Chan) : (s.setChan ch x).mem = s.mem := rfl
@[simp] theorem State.setChan_cw (ch : Nat) (x : Chan) : (s.setChan ch x).cw = s.cw := rfl
@[simp] theorem State.setChan_freeCtr (ch : Nat) (x : Chan) : (s.setChan ch x).freeCtr = s.freeCtr := rfl
@[simp] theorem State.setChan_cycle (ch : Nat) (x : Chan) : (s.setChan ch x).cycle = s.cycle := rfl
@[simp] theorem State.setChan_bus (ch : Nat) (x : Chan) : (s.setChan ch x).bus = s.bus := rfl
@[simp] theorem State.setChan_accessErrs (ch : Nat) (x : Chan) : (s.setChan ch x).accessErrs = s.accessErrs := rfl
@[simp] theorem State.setChan_events (ch : Nat) (x : Chan) : (s.setChan ch x).events = s.events := rfl
@[simp] theorem State.setChan_nextWork (ch : Nat) (x : Chan) : (s.setChan ch x).nextWork = s.nextWork := rfl
@[simp] theorem State.setChan_work (ch : Nat) (x : Chan) : (s.setChan ch x).work = s.work := rfl
@[simp] theorem State.setChan_remLines (ch : Nat) (x : Chan) : (s.setChan ch x).remLines = s.remLines := rfl
@[simp] theorem State.setChan_isls (ch : Nat) (x : Chan) : (s.setChan ch x).isls = s.isls := rfl
@[simp] theorem State.setChan_qtrs (ch : Nat) (x : Chan) : (s.setChan ch x).qtrs = s.qtrs := rfl
@[simp] theorem State.setChan_ports (ch : Nat) (x : Chan) : (s.setChan ch x).ports = s.ports := rfl
@[simp] theorem State.setChan_frys (ch : Nat) (x : Chan) : (s.setChan ch x).frys = s.frys := rfl
@[simp] theorem State.setChan_fuus (ch : Nat) (x : Chan) : (s.setChan ch x).fuus = s.fuus := rfl
@[simp] theorem State.setChan_tide (ch : Nat) (x : Chan) : (s.setChan ch x).tide = s.tide := rfl
@[simp] theorem State.setChan_scrubs (ch : Nat) (x : Chan) : (s.setChan ch x).scrubs = s.scrubs := rfl
@[simp] theorem State.setChan_fw (ch : Nat) (x : Chan) : (s.setChan ch x).fw = s.fw := rfl
@[simp] theorem State.setChan_boot (ch : Nat) (x : Chan) : (s.setChan ch x).boot = s.boot := rfl
@[simp] theorem State.setChan_power (ch : Nat) (x : Chan) : (s.setChan ch x).power = s.power := rfl
@[simp] theorem State.setChan_mgmtOut (ch : Nat) (x : Chan) : (s.setChan ch x).mgmtOut = s.mgmtOut := rfl
@[simp] theorem State.setChan_pcieOut (ch : Nat) (x : Chan) : (s.setChan ch x).pcieOut = s.pcieOut := rfl

/-! ### setFuu -/

@[simp] theorem State.setFuu_pending (u : Nat) (x : Fuu) : (s.setFuu u x).pending = s.pending := rfl
@[simp] theorem State.setFuu_regs (u : Nat) (x : Fuu) : (s.setFuu u x).regs = s.regs := rfl
@[simp] theorem State.setFuu_mem (u : Nat) (x : Fuu) : (s.setFuu u x).mem = s.mem := rfl
@[simp] theorem State.setFuu_cw (u : Nat) (x : Fuu) : (s.setFuu u x).cw = s.cw := rfl
@[simp] theorem State.setFuu_freeCtr (u : Nat) (x : Fuu) : (s.setFuu u x).freeCtr = s.freeCtr := rfl
@[simp] theorem State.setFuu_cycle (u : Nat) (x : Fuu) : (s.setFuu u x).cycle = s.cycle := rfl
@[simp] theorem State.setFuu_bus (u : Nat) (x : Fuu) : (s.setFuu u x).bus = s.bus := rfl
@[simp] theorem State.setFuu_accessErrs (u : Nat) (x : Fuu) : (s.setFuu u x).accessErrs = s.accessErrs := rfl
@[simp] theorem State.setFuu_events (u : Nat) (x : Fuu) : (s.setFuu u x).events = s.events := rfl
@[simp] theorem State.setFuu_nextWork (u : Nat) (x : Fuu) : (s.setFuu u x).nextWork = s.nextWork := rfl
@[simp] theorem State.setFuu_work (u : Nat) (x : Fuu) : (s.setFuu u x).work = s.work := rfl
@[simp] theorem State.setFuu_remLines (u : Nat) (x : Fuu) : (s.setFuu u x).remLines = s.remLines := rfl
@[simp] theorem State.setFuu_isls (u : Nat) (x : Fuu) : (s.setFuu u x).isls = s.isls := rfl
@[simp] theorem State.setFuu_qtrs (u : Nat) (x : Fuu) : (s.setFuu u x).qtrs = s.qtrs := rfl
@[simp] theorem State.setFuu_ports (u : Nat) (x : Fuu) : (s.setFuu u x).ports = s.ports := rfl
@[simp] theorem State.setFuu_frys (u : Nat) (x : Fuu) : (s.setFuu u x).frys = s.frys := rfl
@[simp] theorem State.setFuu_chans (u : Nat) (x : Fuu) : (s.setFuu u x).chans = s.chans := rfl
@[simp] theorem State.setFuu_tide (u : Nat) (x : Fuu) : (s.setFuu u x).tide = s.tide := rfl
@[simp] theorem State.setFuu_scrubs (u : Nat) (x : Fuu) : (s.setFuu u x).scrubs = s.scrubs := rfl
@[simp] theorem State.setFuu_fw (u : Nat) (x : Fuu) : (s.setFuu u x).fw = s.fw := rfl
@[simp] theorem State.setFuu_boot (u : Nat) (x : Fuu) : (s.setFuu u x).boot = s.boot := rfl
@[simp] theorem State.setFuu_power (u : Nat) (x : Fuu) : (s.setFuu u x).power = s.power := rfl
@[simp] theorem State.setFuu_mgmtOut (u : Nat) (x : Fuu) : (s.setFuu u x).mgmtOut = s.mgmtOut := rfl
@[simp] theorem State.setFuu_pcieOut (u : Nat) (x : Fuu) : (s.setFuu u x).pcieOut = s.pcieOut := rfl

/-! ### free -/

@[simp] theorem State.free_pending : s.free.2.pending = s.pending := rfl
@[simp] theorem State.free_regs : s.free.2.regs = s.regs := rfl
@[simp] theorem State.free_mem : s.free.2.mem = s.mem := rfl
@[simp] theorem State.free_cw : s.free.2.cw = s.cw := rfl
@[simp] theorem State.free_cycle : s.free.2.cycle = s.cycle := rfl
@[simp] theorem State.free_bus : s.free.2.bus = s.bus := rfl
@[simp] theorem State.free_accessErrs : s.free.2.accessErrs = s.accessErrs := rfl
@[simp] theorem State.free_events : s.free.2.events = s.events := rfl
@[simp] theorem State.free_nextWork : s.free.2.nextWork = s.nextWork := rfl
@[simp] theorem State.free_work : s.free.2.work = s.work := rfl
@[simp] theorem State.free_remLines : s.free.2.remLines = s.remLines := rfl
@[simp] theorem State.free_isls : s.free.2.isls = s.isls := rfl
@[simp] theorem State.free_qtrs : s.free.2.qtrs = s.qtrs := rfl
@[simp] theorem State.free_ports : s.free.2.ports = s.ports := rfl
@[simp] theorem State.free_frys : s.free.2.frys = s.frys := rfl
@[simp] theorem State.free_chans : s.free.2.chans = s.chans := rfl
@[simp] theorem State.free_fuus : s.free.2.fuus = s.fuus := rfl
@[simp] theorem State.free_tide : s.free.2.tide = s.tide := rfl
@[simp] theorem State.free_scrubs : s.free.2.scrubs = s.scrubs := rfl
@[simp] theorem State.free_fw : s.free.2.fw = s.fw := rfl
@[simp] theorem State.free_boot : s.free.2.boot = s.boot := rfl
@[simp] theorem State.free_power : s.free.2.power = s.power := rfl
@[simp] theorem State.free_mgmtOut : s.free.2.mgmtOut = s.mgmtOut := rfl
@[simp] theorem State.free_pcieOut : s.free.2.pcieOut = s.pcieOut := rfl

/-! ### report -/

@[simp] theorem State.report_pending (k : EventKind) (u a b : Nat) : (s.report k u a b).pending = s.pending := rfl
@[simp] theorem State.report_regs (k : EventKind) (u a b : Nat) : (s.report k u a b).regs = s.regs := rfl
@[simp] theorem State.report_mem (k : EventKind) (u a b : Nat) : (s.report k u a b).mem = s.mem := rfl
@[simp] theorem State.report_cw (k : EventKind) (u a b : Nat) : (s.report k u a b).cw = s.cw := rfl
@[simp] theorem State.report_freeCtr (k : EventKind) (u a b : Nat) : (s.report k u a b).freeCtr = s.freeCtr := rfl
@[simp] theorem State.report_cycle (k : EventKind) (u a b : Nat) : (s.report k u a b).cycle = s.cycle := rfl
@[simp] theorem State.report_bus (k : EventKind) (u a b : Nat) : (s.report k u a b).bus = s.bus := rfl
@[simp] theorem State.report_accessErrs (k : EventKind) (u a b : Nat) : (s.report k u a b).accessErrs = s.accessErrs := rfl
@[simp] theorem State.report_nextWork (k : EventKind) (u a b : Nat) : (s.report k u a b).nextWork = s.nextWork := rfl
@[simp] theorem State.report_work (k : EventKind) (u a b : Nat) : (s.report k u a b).work = s.work := rfl
@[simp] theorem State.report_remLines (k : EventKind) (u a b : Nat) : (s.report k u a b).remLines = s.remLines := rfl
@[simp] theorem State.report_isls (k : EventKind) (u a b : Nat) : (s.report k u a b).isls = s.isls := rfl
@[simp] theorem State.report_qtrs (k : EventKind) (u a b : Nat) : (s.report k u a b).qtrs = s.qtrs := rfl
@[simp] theorem State.report_ports (k : EventKind) (u a b : Nat) : (s.report k u a b).ports = s.ports := rfl
@[simp] theorem State.report_frys (k : EventKind) (u a b : Nat) : (s.report k u a b).frys = s.frys := rfl
@[simp] theorem State.report_chans (k : EventKind) (u a b : Nat) : (s.report k u a b).chans = s.chans := rfl
@[simp] theorem State.report_fuus (k : EventKind) (u a b : Nat) : (s.report k u a b).fuus = s.fuus := rfl
@[simp] theorem State.report_tide (k : EventKind) (u a b : Nat) : (s.report k u a b).tide = s.tide := rfl
@[simp] theorem State.report_scrubs (k : EventKind) (u a b : Nat) : (s.report k u a b).scrubs = s.scrubs := rfl
@[simp] theorem State.report_fw (k : EventKind) (u a b : Nat) : (s.report k u a b).fw = s.fw := rfl
@[simp] theorem State.report_boot (k : EventKind) (u a b : Nat) : (s.report k u a b).boot = s.boot := rfl
@[simp] theorem State.report_power (k : EventKind) (u a b : Nat) : (s.report k u a b).power = s.power := rfl
@[simp] theorem State.report_mgmtOut (k : EventKind) (u a b : Nat) : (s.report k u a b).mgmtOut = s.mgmtOut := rfl
@[simp] theorem State.report_pcieOut (k : EventKind) (u a b : Nat) : (s.report k u a b).pcieOut = s.pcieOut := rfl

/-! ### interruptCore -/

@[simp] theorem State.interruptCore_pending (k : EventKind) (u c : Nat) : (s.interruptCore k u c).pending = s.pending := rfl
@[simp] theorem State.interruptCore_regs (k : EventKind) (u c : Nat) : (s.interruptCore k u c).regs = s.regs := rfl
@[simp] theorem State.interruptCore_mem (k : EventKind) (u c : Nat) : (s.interruptCore k u c).mem = s.mem := rfl
@[simp] theorem State.interruptCore_cw (k : EventKind) (u c : Nat) : (s.interruptCore k u c).cw = s.cw := rfl
@[simp] theorem State.interruptCore_freeCtr (k : EventKind) (u c : Nat) : (s.interruptCore k u c).freeCtr = s.freeCtr := rfl
@[simp] theorem State.interruptCore_cycle (k : EventKind) (u c : Nat) : (s.interruptCore k u c).cycle = s.cycle := rfl
@[simp] theorem State.interruptCore_bus (k : EventKind) (u c : Nat) : (s.interruptCore k u c).bus = s.bus := rfl
@[simp] theorem State.interruptCore_accessErrs (k : EventKind) (u c : Nat) : (s.interruptCore k u c).accessErrs = s.accessErrs := rfl
@[simp] theorem State.interruptCore_nextWork (k : EventKind) (u c : Nat) : (s.interruptCore k u c).nextWork = s.nextWork := rfl
@[simp] theorem State.interruptCore_work (k : EventKind) (u c : Nat) : (s.interruptCore k u c).work = s.work := rfl
@[simp] theorem State.interruptCore_remLines (k : EventKind) (u c : Nat) : (s.interruptCore k u c).remLines = s.remLines := rfl
@[simp] theorem State.interruptCore_isls (k : EventKind) (u c : Nat) : (s.interruptCore k u c).isls = s.isls := rfl
@[simp] theorem State.interruptCore_qtrs (k : EventKind) (u c : Nat) : (s.interruptCore k u c).qtrs = s.qtrs := rfl
@[simp] theorem State.interruptCore_ports (k : EventKind) (u c : Nat) : (s.interruptCore k u c).ports = s.ports := rfl
@[simp] theorem State.interruptCore_frys (k : EventKind) (u c : Nat) : (s.interruptCore k u c).frys = s.frys := rfl
@[simp] theorem State.interruptCore_chans (k : EventKind) (u c : Nat) : (s.interruptCore k u c).chans = s.chans := rfl
@[simp] theorem State.interruptCore_fuus (k : EventKind) (u c : Nat) : (s.interruptCore k u c).fuus = s.fuus := rfl
@[simp] theorem State.interruptCore_tide (k : EventKind) (u c : Nat) : (s.interruptCore k u c).tide = s.tide := rfl
@[simp] theorem State.interruptCore_scrubs (k : EventKind) (u c : Nat) : (s.interruptCore k u c).scrubs = s.scrubs := rfl
@[simp] theorem State.interruptCore_fw (k : EventKind) (u c : Nat) : (s.interruptCore k u c).fw = s.fw := rfl
@[simp] theorem State.interruptCore_boot (k : EventKind) (u c : Nat) : (s.interruptCore k u c).boot = s.boot := rfl
@[simp] theorem State.interruptCore_power (k : EventKind) (u c : Nat) : (s.interruptCore k u c).power = s.power := rfl
@[simp] theorem State.interruptCore_mgmtOut (k : EventKind) (u c : Nat) : (s.interruptCore k u c).mgmtOut = s.mgmtOut := rfl
@[simp] theorem State.interruptCore_pcieOut (k : EventKind) (u c : Nat) : (s.interruptCore k u c).pcieOut = s.pcieOut := rfl

/-! ### accessErr -/

@[simp] theorem State.accessErr_pending (ad r : Nat) (w : Bool) (k : Nat) : (s.accessErr ad r w k).pending = s.pending := rfl
@[simp] theorem State.accessErr_regs (ad r : Nat) (w : Bool) (k : Nat) : (s.accessErr ad r w k).regs = s.regs := rfl
@[simp] theorem State.accessErr_mem (ad r : Nat) (w : Bool) (k : Nat) : (s.accessErr ad r w k).mem = s.mem := rfl
@[simp] theorem State.accessErr_cw (ad r : Nat) (w : Bool) (k : Nat) : (s.accessErr ad r w k).cw = s.cw := rfl
@[simp] theorem State.accessErr_freeCtr (ad r : Nat) (w : Bool) (k : Nat) : (s.accessErr ad r w k).freeCtr = s.freeCtr := rfl
@[simp] theorem State.accessErr_cycle (ad r : Nat) (w : Bool) (k : Nat) : (s.accessErr ad r w k).cycle = s.cycle := rfl
@[simp] theorem State.accessErr_bus (ad r : Nat) (w : Bool) (k : Nat) : (s.accessErr ad r w k).bus = s.bus := rfl
@[simp] theorem State.accessErr_events (ad r : Nat) (w : Bool) (k : Nat) : (s.accessErr ad r w k).events = s.events := rfl
@[simp] theorem State.accessErr_nextWork (ad r : Nat) (w : Bool) (k : Nat) : (s.accessErr ad r w k).nextWork = s.nextWork := rfl
@[simp] theorem State.accessErr_work (ad r : Nat) (w : Bool) (k : Nat) : (s.accessErr ad r w k).work = s.work := rfl
@[simp] theorem State.accessErr_remLines (ad r : Nat) (w : Bool) (k : Nat) : (s.accessErr ad r w k).remLines = s.remLines := rfl
@[simp] theorem State.accessErr_isls (ad r : Nat) (w : Bool) (k : Nat) : (s.accessErr ad r w k).isls = s.isls := rfl
@[simp] theorem State.accessErr_qtrs (ad r : Nat) (w : Bool) (k : Nat) : (s.accessErr ad r w k).qtrs = s.qtrs := rfl
@[simp] theorem State.accessErr_ports (ad r : Nat) (w : Bool) (k : Nat) : (s.accessErr ad r w k).ports = s.ports := rfl
@[simp] theorem State.accessErr_frys (ad r : Nat) (w : Bool) (k : Nat) : (s.accessErr ad r w k).frys = s.frys := rfl
@[simp] theorem State.accessErr_chans (ad r : Nat) (w : Bool) (k : Nat) : (s.accessErr ad r w k).chans = s.chans := rfl
@[simp] theorem State.accessErr_fuus (ad r : Nat) (w : Bool) (k : Nat) : (s.accessErr ad r w k).fuus = s.fuus := rfl
@[simp] theorem State.accessErr_tide (ad r : Nat) (w : Bool) (k : Nat) : (s.accessErr ad r w k).tide = s.tide := rfl
@[simp] theorem State.accessErr_scrubs (ad r : Nat) (w : Bool) (k : Nat) : (s.accessErr ad r w k).scrubs = s.scrubs := rfl
@[simp] theorem State.accessErr_fw (ad r : Nat) (w : Bool) (k : Nat) : (s.accessErr ad r w k).fw = s.fw := rfl
@[simp] theorem State.accessErr_boot (ad r : Nat) (w : Bool) (k : Nat) : (s.accessErr ad r w k).boot = s.boot := rfl
@[simp] theorem State.accessErr_power (ad r : Nat) (w : Bool) (k : Nat) : (s.accessErr ad r w k).power = s.power := rfl
@[simp] theorem State.accessErr_mgmtOut (ad r : Nat) (w : Bool) (k : Nat) : (s.accessErr ad r w k).mgmtOut = s.mgmtOut := rfl
@[simp] theorem State.accessErr_pcieOut (ad r : Nat) (w : Bool) (k : Nat) : (s.accessErr ad r w k).pcieOut = s.pcieOut := rfl

/-! ### respond -/

@[simp] theorem State.respond_pending (r : BusRsp) : (s.respond r).pending = s.pending := rfl
@[simp] theorem State.respond_regs (r : BusRsp) : (s.respond r).regs = s.regs := rfl
@[simp] theorem State.respond_mem (r : BusRsp) : (s.respond r).mem = s.mem := rfl
@[simp] theorem State.respond_cw (r : BusRsp) : (s.respond r).cw = s.cw := rfl
@[simp] theorem State.respond_freeCtr (r : BusRsp) : (s.respond r).freeCtr = s.freeCtr := rfl
@[simp] theorem State.respond_cycle (r : BusRsp) : (s.respond r).cycle = s.cycle := rfl
@[simp] theorem State.respond_accessErrs (r : BusRsp) : (s.respond r).accessErrs = s.accessErrs := rfl
@[simp] theorem State.respond_events (r : BusRsp) : (s.respond r).events = s.events := rfl
@[simp] theorem State.respond_nextWork (r : BusRsp) : (s.respond r).nextWork = s.nextWork := rfl
@[simp] theorem State.respond_work (r : BusRsp) : (s.respond r).work = s.work := rfl
@[simp] theorem State.respond_remLines (r : BusRsp) : (s.respond r).remLines = s.remLines := rfl
@[simp] theorem State.respond_isls (r : BusRsp) : (s.respond r).isls = s.isls := rfl
@[simp] theorem State.respond_qtrs (r : BusRsp) : (s.respond r).qtrs = s.qtrs := rfl
@[simp] theorem State.respond_ports (r : BusRsp) : (s.respond r).ports = s.ports := rfl
@[simp] theorem State.respond_frys (r : BusRsp) : (s.respond r).frys = s.frys := rfl
@[simp] theorem State.respond_chans (r : BusRsp) : (s.respond r).chans = s.chans := rfl
@[simp] theorem State.respond_fuus (r : BusRsp) : (s.respond r).fuus = s.fuus := rfl
@[simp] theorem State.respond_tide (r : BusRsp) : (s.respond r).tide = s.tide := rfl
@[simp] theorem State.respond_scrubs (r : BusRsp) : (s.respond r).scrubs = s.scrubs := rfl
@[simp] theorem State.respond_fw (r : BusRsp) : (s.respond r).fw = s.fw := rfl
@[simp] theorem State.respond_boot (r : BusRsp) : (s.respond r).boot = s.boot := rfl
@[simp] theorem State.respond_power (r : BusRsp) : (s.respond r).power = s.power := rfl
@[simp] theorem State.respond_mgmtOut (r : BusRsp) : (s.respond r).mgmtOut = s.mgmtOut := rfl
@[simp] theorem State.respond_pcieOut (r : BusRsp) : (s.respond r).pcieOut = s.pcieOut := rfl

/-! ### addWork -/

@[simp] theorem State.addWork_pending (cls : Nat) (src : WorkSrc) (pc : Nat) : (s.addWork cls src pc).2.pending = s.pending := rfl
@[simp] theorem State.addWork_regs (cls : Nat) (src : WorkSrc) (pc : Nat) : (s.addWork cls src pc).2.regs = s.regs := rfl
@[simp] theorem State.addWork_mem (cls : Nat) (src : WorkSrc) (pc : Nat) : (s.addWork cls src pc).2.mem = s.mem := rfl
@[simp] theorem State.addWork_cw (cls : Nat) (src : WorkSrc) (pc : Nat) : (s.addWork cls src pc).2.cw = s.cw := rfl
@[simp] theorem State.addWork_freeCtr (cls : Nat) (src : WorkSrc) (pc : Nat) : (s.addWork cls src pc).2.freeCtr = s.freeCtr := rfl
@[simp] theorem State.addWork_cycle (cls : Nat) (src : WorkSrc) (pc : Nat) : (s.addWork cls src pc).2.cycle = s.cycle := rfl
@[simp] theorem State.addWork_bus (cls : Nat) (src : WorkSrc) (pc : Nat) : (s.addWork cls src pc).2.bus = s.bus := rfl
@[simp] theorem State.addWork_accessErrs (cls : Nat) (src : WorkSrc) (pc : Nat) : (s.addWork cls src pc).2.accessErrs = s.accessErrs := rfl
@[simp] theorem State.addWork_events (cls : Nat) (src : WorkSrc) (pc : Nat) : (s.addWork cls src pc).2.events = s.events := rfl
@[simp] theorem State.addWork_remLines (cls : Nat) (src : WorkSrc) (pc : Nat) : (s.addWork cls src pc).2.remLines = s.remLines := rfl
@[simp] theorem State.addWork_isls (cls : Nat) (src : WorkSrc) (pc : Nat) : (s.addWork cls src pc).2.isls = s.isls := rfl
@[simp] theorem State.addWork_qtrs (cls : Nat) (src : WorkSrc) (pc : Nat) : (s.addWork cls src pc).2.qtrs = s.qtrs := rfl
@[simp] theorem State.addWork_ports (cls : Nat) (src : WorkSrc) (pc : Nat) : (s.addWork cls src pc).2.ports = s.ports := rfl
@[simp] theorem State.addWork_frys (cls : Nat) (src : WorkSrc) (pc : Nat) : (s.addWork cls src pc).2.frys = s.frys := rfl
@[simp] theorem State.addWork_chans (cls : Nat) (src : WorkSrc) (pc : Nat) : (s.addWork cls src pc).2.chans = s.chans := rfl
@[simp] theorem State.addWork_fuus (cls : Nat) (src : WorkSrc) (pc : Nat) : (s.addWork cls src pc).2.fuus = s.fuus := rfl
@[simp] theorem State.addWork_tide (cls : Nat) (src : WorkSrc) (pc : Nat) : (s.addWork cls src pc).2.tide = s.tide := rfl
@[simp] theorem State.addWork_scrubs (cls : Nat) (src : WorkSrc) (pc : Nat) : (s.addWork cls src pc).2.scrubs = s.scrubs := rfl
@[simp] theorem State.addWork_fw (cls : Nat) (src : WorkSrc) (pc : Nat) : (s.addWork cls src pc).2.fw = s.fw := rfl
@[simp] theorem State.addWork_boot (cls : Nat) (src : WorkSrc) (pc : Nat) : (s.addWork cls src pc).2.boot = s.boot := rfl
@[simp] theorem State.addWork_power (cls : Nat) (src : WorkSrc) (pc : Nat) : (s.addWork cls src pc).2.power = s.power := rfl
@[simp] theorem State.addWork_mgmtOut (cls : Nat) (src : WorkSrc) (pc : Nat) : (s.addWork cls src pc).2.mgmtOut = s.mgmtOut := rfl
@[simp] theorem State.addWork_pcieOut (cls : Nat) (src : WorkSrc) (pc : Nat) : (s.addWork cls src pc).2.pcieOut = s.pcieOut := rfl

/-! ### modWork -/

@[simp] theorem State.modWork_pending (id : Nat) (f : Work → Work) : (s.modWork id f).pending = s.pending := rfl
@[simp] theorem State.modWork_regs (id : Nat) (f : Work → Work) : (s.modWork id f).regs = s.regs := rfl
@[simp] theorem State.modWork_mem (id : Nat) (f : Work → Work) : (s.modWork id f).mem = s.mem := rfl
@[simp] theorem State.modWork_cw (id : Nat) (f : Work → Work) : (s.modWork id f).cw = s.cw := rfl
@[simp] theorem State.modWork_freeCtr (id : Nat) (f : Work → Work) : (s.modWork id f).freeCtr = s.freeCtr := rfl
@[simp] theorem State.modWork_cycle (id : Nat) (f : Work → Work) : (s.modWork id f).cycle = s.cycle := rfl
@[simp] theorem State.modWork_bus (id : Nat) (f : Work → Work) : (s.modWork id f).bus = s.bus := rfl
@[simp] theorem State.modWork_accessErrs (id : Nat) (f : Work → Work) : (s.modWork id f).accessErrs = s.accessErrs := rfl
@[simp] theorem State.modWork_events (id : Nat) (f : Work → Work) : (s.modWork id f).events = s.events := rfl
@[simp] theorem State.modWork_nextWork (id : Nat) (f : Work → Work) : (s.modWork id f).nextWork = s.nextWork := rfl
@[simp] theorem State.modWork_remLines (id : Nat) (f : Work → Work) : (s.modWork id f).remLines = s.remLines := rfl
@[simp] theorem State.modWork_isls (id : Nat) (f : Work → Work) : (s.modWork id f).isls = s.isls := rfl
@[simp] theorem State.modWork_qtrs (id : Nat) (f : Work → Work) : (s.modWork id f).qtrs = s.qtrs := rfl
@[simp] theorem State.modWork_ports (id : Nat) (f : Work → Work) : (s.modWork id f).ports = s.ports := rfl
@[simp] theorem State.modWork_frys (id : Nat) (f : Work → Work) : (s.modWork id f).frys = s.frys := rfl
@[simp] theorem State.modWork_chans (id : Nat) (f : Work → Work) : (s.modWork id f).chans = s.chans := rfl
@[simp] theorem State.modWork_fuus (id : Nat) (f : Work → Work) : (s.modWork id f).fuus = s.fuus := rfl
@[simp] theorem State.modWork_tide (id : Nat) (f : Work → Work) : (s.modWork id f).tide = s.tide := rfl
@[simp] theorem State.modWork_scrubs (id : Nat) (f : Work → Work) : (s.modWork id f).scrubs = s.scrubs := rfl
@[simp] theorem State.modWork_fw (id : Nat) (f : Work → Work) : (s.modWork id f).fw = s.fw := rfl
@[simp] theorem State.modWork_boot (id : Nat) (f : Work → Work) : (s.modWork id f).boot = s.boot := rfl
@[simp] theorem State.modWork_power (id : Nat) (f : Work → Work) : (s.modWork id f).power = s.power := rfl
@[simp] theorem State.modWork_mgmtOut (id : Nat) (f : Work → Work) : (s.modWork id f).mgmtOut = s.mgmtOut := rfl
@[simp] theorem State.modWork_pcieOut (id : Nat) (f : Work → Work) : (s.modWork id f).pcieOut = s.pcieOut := rfl

/-! ### dropWork -/

@[simp] theorem State.dropWork_pending (id : Nat) : (s.dropWork id).pending = s.pending := rfl
@[simp] theorem State.dropWork_regs (id : Nat) : (s.dropWork id).regs = s.regs := rfl
@[simp] theorem State.dropWork_mem (id : Nat) : (s.dropWork id).mem = s.mem := rfl
@[simp] theorem State.dropWork_cw (id : Nat) : (s.dropWork id).cw = s.cw := rfl
@[simp] theorem State.dropWork_freeCtr (id : Nat) : (s.dropWork id).freeCtr = s.freeCtr := rfl
@[simp] theorem State.dropWork_cycle (id : Nat) : (s.dropWork id).cycle = s.cycle := rfl
@[simp] theorem State.dropWork_bus (id : Nat) : (s.dropWork id).bus = s.bus := rfl
@[simp] theorem State.dropWork_accessErrs (id : Nat) : (s.dropWork id).accessErrs = s.accessErrs := rfl
@[simp] theorem State.dropWork_events (id : Nat) : (s.dropWork id).events = s.events := rfl
@[simp] theorem State.dropWork_nextWork (id : Nat) : (s.dropWork id).nextWork = s.nextWork := rfl
@[simp] theorem State.dropWork_isls (id : Nat) : (s.dropWork id).isls = s.isls := rfl
@[simp] theorem State.dropWork_qtrs (id : Nat) : (s.dropWork id).qtrs = s.qtrs := rfl
@[simp] theorem State.dropWork_ports (id : Nat) : (s.dropWork id).ports = s.ports := rfl
@[simp] theorem State.dropWork_frys (id : Nat) : (s.dropWork id).frys = s.frys := rfl
@[simp] theorem State.dropWork_chans (id : Nat) : (s.dropWork id).chans = s.chans := rfl
@[simp] theorem State.dropWork_fuus (id : Nat) : (s.dropWork id).fuus = s.fuus := rfl
@[simp] theorem State.dropWork_tide (id : Nat) : (s.dropWork id).tide = s.tide := rfl
@[simp] theorem State.dropWork_scrubs (id : Nat) : (s.dropWork id).scrubs = s.scrubs := rfl
@[simp] theorem State.dropWork_fw (id : Nat) : (s.dropWork id).fw = s.fw := rfl
@[simp] theorem State.dropWork_boot (id : Nat) : (s.dropWork id).boot = s.boot := rfl
@[simp] theorem State.dropWork_power (id : Nat) : (s.dropWork id).power = s.power := rfl
@[simp] theorem State.dropWork_mgmtOut (id : Nat) : (s.dropWork id).mgmtOut = s.mgmtOut := rfl
@[simp] theorem State.dropWork_pcieOut (id : Nat) : (s.dropWork id).pcieOut = s.pcieOut := rfl

end Sys2Proof.Machine
end

