-- ==== Sys2Proof/Laws/Table.lean ====
section
/-! SUPPORT. The laws of tables: a read after a write, and that writing keeps the canonical form. -/

namespace Sys2Proof.Machine

variable {α : Type}

@[simp] theorem tget_tdel_same (d : Nat → α) (t : Table α) (k : Nat) : tget d (tdel t k) k = d k := by
  induction t with
  | nil => rfl
  | cons p r ih =>
    obtain ⟨j, v⟩ := p
    by_cases h : j = k <;> simp [tdel, tget, h, ih]

theorem tget_tdel_other (d : Nat → α) (t : Table α) {k l : Nat} (h : l ≠ k) : tget d (tdel t k) l = tget d t l := by
  induction t with
  | nil => rfl
  | cons p r ih =>
    obtain ⟨j, v⟩ := p
    by_cases hj : j = k
    · subst hj; simp [tdel, tget, ih, Ne.symm h]
    · simp [tdel, tget, hj, ih]

theorem tget_tins_same (d : Nat → α) (t : Table α) (k : Nat) (v : α) (h : ∀ p ∈ t, p.1 ≠ k) :
    tget d (tins k v t) k = v := by
  induction t with
  | nil => simp [tins, tget]
  | cons p r ih =>
    obtain ⟨j, w⟩ := p
    have hj : j ≠ k := h (j, w) (by simp)
    by_cases hk : k < j
    · simp [tins, tget, hk]
    · simp [tins, tget, hk, hj]
      exact ih fun p hp => h p (by simp [hp])

theorem tget_tins_other (d : Nat → α) (t : Table α) {k l : Nat} (v : α) (h : l ≠ k) :
    tget d (tins k v t) l = tget d t l := by
  induction t with
  | nil => simp [tins, tget, Ne.symm h]
  | cons p r ih =>
    obtain ⟨j, w⟩ := p
    by_cases hk : k < j
    · simp [tins, tget, hk, Ne.symm h]
    · simp [tins, tget, hk, ih]

theorem tdel_ne (t : Table α) (k : Nat) : ∀ p ∈ tdel t k, p.1 ≠ k := by
  induction t with
  | nil => simp [tdel]
  | cons p r ih =>
    obtain ⟨j, v⟩ := p
    by_cases h : j = k
    · simpa [tdel, h] using ih
    · intro p hp
      simp [tdel, h] at hp
      rcases hp with rfl | hp
      · exact h
      · exact ih p hp

/-- A read after a write to the same key gives the value written. -/
@[simp] theorem tget_tset_same [DecidableEq α] (d : Nat → α) (t : Table α) (k : Nat) (v : α) :
    tget d (tset d t k v) k = v := by
  unfold tset
  split
  · next h => simp [h]
  · exact tget_tins_same d _ k v (tdel_ne t k)

/-- A write leaves every other key alone. -/
theorem tget_tset_other [DecidableEq α] (d : Nat → α) (t : Table α) {k l : Nat} (v : α) (h : l ≠ k) :
    tget d (tset d t k v) l = tget d t l := by
  unfold tset
  split
  · exact tget_tdel_other d t h
  · rw [tget_tins_other d _ v h, tget_tdel_other d t h]

theorem tget_tset [DecidableEq α] (d : Nat → α) (t : Table α) (k l : Nat) (v : α) :
    tget d (tset d t k v) l = if l = k then v else tget d t l := by
  split
  · next h => subst h; simp
  · next h => exact tget_tset_other d t v h

theorem tabove_tdel {t : Table α} {k j : Nat} (h : tabove j t = true) : tabove j (tdel t k) = true := by
  induction t with
  | nil => rfl
  | cons p r ih =>
    obtain ⟨i, v⟩ := p
    simp only [tabove, List.all_cons, Bool.and_eq_true] at h
    by_cases hi : i = k
    · simpa [tdel, hi] using ih h.2
    · simp only [tdel, hi, if_false, tabove, List.all_cons, Bool.and_eq_true]
      exact ⟨h.1, ih h.2⟩

theorem tabove_tins {t : Table α} {k j : Nat} {v : α} (h : tabove j t = true) (hk : j < k) :
    tabove j (tins k v t) = true := by
  induction t with
  | nil => simp [tins, tabove, hk]
  | cons p r ih =>
    obtain ⟨i, w⟩ := p
    simp only [tabove, List.all_cons, Bool.and_eq_true] at h
    by_cases hi : k < i
    · simp only [tins, hi, if_true, tabove, List.all_cons, Bool.and_eq_true]
      exact ⟨by simpa using hk, h.1, h.2⟩
    · simp only [tins, hi, if_false, tabove, List.all_cons, Bool.and_eq_true]
      exact ⟨h.1, ih h.2⟩

theorem twf_tdel [DecidableEq α] {d : Nat → α} {t : Table α} {k : Nat} (h : twf d t = true) :
    twf d (tdel t k) = true := by
  induction t with
  | nil => rfl
  | cons p r ih =>
    obtain ⟨i, v⟩ := p
    simp only [twf, Bool.and_eq_true] at h
    by_cases hi : i = k
    · simpa [tdel, hi] using ih h.2
    · simp only [tdel, hi, if_false, twf, Bool.and_eq_true]
      exact ⟨⟨h.1.1, tabove_tdel h.1.2⟩, ih h.2⟩

theorem twf_tins [DecidableEq α] {d : Nat → α} {t : Table α} {k : Nat} {v : α} (h : twf d t = true)
    (hv : v ≠ d k) (hne : ∀ p ∈ t, p.1 ≠ k) : twf d (tins k v t) = true := by
  induction t with
  | nil => simp [tins, twf, tabove, hv]
  | cons p r ih =>
    obtain ⟨i, w⟩ := p
    have hfull := h
    simp only [twf, Bool.and_eq_true] at h
    have hik : i ≠ k := hne (i, w) (by simp)
    by_cases hi : k < i
    · simp only [tins, hi, if_true]
      rw [twf]
      simp only [Bool.and_eq_true]
      refine ⟨⟨by simpa using hv, ?_⟩, hfull⟩
      simp only [tabove, List.all_cons, Bool.and_eq_true]
      refine ⟨by simpa using hi, ?_⟩
      have := h.1.2
      simp only [tabove, List.all_eq_true, decide_eq_true_eq] at this ⊢
      intro x hx
      exact lt_trans hi (this x hx)
    · simp only [tins, hi, if_false, twf, Bool.and_eq_true]
      exact ⟨⟨h.1.1, tabove_tins h.1.2 (by omega)⟩, ih h.2 fun p hp => hne p (by simp [hp])⟩

/-- A write keeps the canonical form. -/
theorem twf_tset [DecidableEq α] {d : Nat → α} {t : Table α} (k : Nat) (v : α) (h : twf d t = true) :
    twf d (tset d t k v) = true := by
  unfold tset
  split
  · exact twf_tdel h
  · next hv => exact twf_tins (twf_tdel h) hv (tdel_ne t k)

end Sys2Proof.Machine
end

