-- ==== Sys2Proof/Laws/Ops.lean ====
section
/-! SUPPORT. What each named operation over registers, memory bytes and units does: a read after each write. -/

namespace Sys2Proof.Machine

/-! ### Fields of a register word -/

/-- A field is below 2 to its width. -/
theorem Fld.get_lt (f : Fld) (w : Word) : f.get w < 2 ^ f.w := Nat.mod_lt _ (Nat.two_pow_pos _)

/-- A word split at a field. -/
theorem Fld.split (f : Fld) (w : Word) :
    w.toNat = w.toNat / 2 ^ (f.lo + f.w) * 2 ^ (f.lo + f.w) + f.get w * 2 ^ f.lo + w.toNat % 2 ^ f.lo := by
  have h1 := Nat.div_add_mod w.toNat (2 ^ f.lo)
  have h2 := Nat.div_add_mod (w.toNat / 2 ^ f.lo) (2 ^ f.w)
  rw [Nat.div_div_eq_div_mul, ← Nat.pow_add] at h2
  have h3 := congrArg (2 ^ f.lo * ·) h2
  unfold Fld.get
  have e : w.toNat / 2 ^ (f.lo + f.w) * 2 ^ (f.lo + f.w) + w.toNat / 2 ^ f.lo % 2 ^ f.w * 2 ^ f.lo
      = 2 ^ f.lo * (2 ^ f.w * (w.toNat / 2 ^ (f.lo + f.w)) + w.toNat / 2 ^ f.lo % 2 ^ f.w) := by rw [Nat.pow_add]; ring
  omega

/-- A word after a field has been replaced. -/
theorem Fld.put_toNat (f : Fld) (w : Word) (v : Nat) (h : f.lo + f.w ≤ 32) :
    (f.put w v).toNat = w.toNat / 2 ^ (f.lo + f.w) * 2 ^ (f.lo + f.w) + v % 2 ^ f.w * 2 ^ f.lo + w.toNat % 2 ^ f.lo := by
  have hs := f.split w
  have hg : f.get w % 2 ^ f.w = f.get w := Nat.mod_eq_of_lt (f.get_lt w)
  unfold Fld.put Fld.place
  rw [hg, BitVec.toNat_ofNat]
  have e : w.toNat - f.get w * 2 ^ f.lo + v % 2 ^ f.w * 2 ^ f.lo
      = w.toNat / 2 ^ (f.lo + f.w) * 2 ^ (f.lo + f.w) + v % 2 ^ f.w * 2 ^ f.lo + w.toNat % 2 ^ f.lo := by
    omega
  rw [e]
  apply Nat.mod_eq_of_lt
  have hw : w.toNat < 2 ^ 32 := w.isLt
  have hlo : w.toNat % 2 ^ f.lo < 2 ^ f.lo := Nat.mod_lt _ (Nat.two_pow_pos _)
  have hv : v % 2 ^ f.w < 2 ^ f.w := Nat.mod_lt _ (Nat.two_pow_pos _)
  have hd : w.toNat / 2 ^ (f.lo + f.w) < 2 ^ (32 - (f.lo + f.w)) := by
    rw [Nat.div_lt_iff_lt_mul (Nat.two_pow_pos _), ← Nat.pow_add]
    rwa [Nat.sub_add_cancel h]
  have hp : 2 ^ (32 - (f.lo + f.w)) * 2 ^ (f.lo + f.w) = 2 ^ 32 := by
    rw [← Nat.pow_add, Nat.sub_add_cancel h]
  have hq : 2 ^ (f.lo + f.w) = 2 ^ f.w * 2 ^ f.lo := by rw [Nat.pow_add, Nat.mul_comm]
  nlinarith [Nat.mul_le_mul_right (2 ^ (f.lo + f.w)) (Nat.succ_le_of_lt hd), Nat.mul_le_mul_right (2 ^ f.lo) (Nat.succ_le_of_lt hv)]

/-- A field that has been replaced reads as the new value, cut to its width. -/
theorem Fld.get_put (f : Fld) (w : Word) (v : Nat) (h : f.lo + f.w ≤ 32) : f.get (f.put w v) = v % 2 ^ f.w := by
  unfold Fld.get
  rw [f.put_toNat w v h, Nat.pow_add]
  have hlo : w.toNat % 2 ^ f.lo < 2 ^ f.lo := Nat.mod_lt _ (Nat.two_pow_pos _)
  have e : w.toNat / (2 ^ f.lo * 2 ^ f.w) * (2 ^ f.lo * 2 ^ f.w) + v % 2 ^ f.w * 2 ^ f.lo + w.toNat % 2 ^ f.lo
      = w.toNat % 2 ^ f.lo + 2 ^ f.lo * (w.toNat / (2 ^ f.lo * 2 ^ f.w) * 2 ^ f.w + v % 2 ^ f.w) := by ring
  rw [e, Nat.add_mul_div_left _ _ (Nat.two_pow_pos _), Nat.div_eq_of_lt hlo, Nat.zero_add, Nat.add_comm,
    Nat.add_mul_mod_self_right, Nat.mod_mod]

/-- Replacing a field leaves every field that does not overlap it alone. -/
theorem Fld.get_put_other (f g : Fld) (w : Word) (v : Nat) (h : f.lo + f.w ≤ 32)
    (d : g.lo + g.w ≤ f.lo ∨ f.lo + f.w ≤ g.lo) : g.get (f.put w v) = g.get w := by
  have hs := f.split w
  have hp := f.put_toNat w v h
  unfold Fld.get
  rcases d with d | d
  · have key : ∀ x : Nat, (x / 2 ^ g.lo) % 2 ^ g.w = (x % 2 ^ f.lo / 2 ^ g.lo) % 2 ^ g.w := by
      intro x
      obtain ⟨k, hk⟩ := Nat.exists_eq_add_of_le d
      rw [hk, Nat.add_assoc, Nat.pow_add, Nat.mod_mul_right_div_self, Nat.pow_add, Nat.mod_mul_right_mod]
    rw [key, key w.toNat, hp]
    congr 2
    have e : w.toNat / 2 ^ (f.lo + f.w) * 2 ^ (f.lo + f.w) + v % 2 ^ f.w * 2 ^ f.lo + w.toNat % 2 ^ f.lo
      = w.toNat % 2 ^ f.lo + 2 ^ f.lo * (w.toNat / 2 ^ (f.lo + f.w) * 2 ^ f.w + v % 2 ^ f.w) := by rw [Nat.pow_add]; ring
    rw [e, Nat.add_mul_mod_self_left, Nat.mod_mod]
  · obtain ⟨k, hk⟩ := Nat.exists_eq_add_of_le d
    have key : ∀ x : Nat, x / 2 ^ g.lo = x / 2 ^ (f.lo + f.w) / 2 ^ k := by
      intro x; rw [hk, Nat.pow_add, Nat.div_div_eq_div_mul]
    have hv : v % 2 ^ f.w < 2 ^ f.w := Nat.mod_lt _ (Nat.two_pow_pos _)
    have hlo : w.toNat % 2 ^ f.lo < 2 ^ f.lo := Nat.mod_lt _ (Nat.two_pow_pos _)
    have hh : (f.put w v).toNat / 2 ^ (f.lo + f.w) = w.toNat / 2 ^ (f.lo + f.w) := by
      have hz : (v % 2 ^ f.w * 2 ^ f.lo + w.toNat % 2 ^ f.lo) / 2 ^ (f.lo + f.w) = 0 := Nat.div_eq_of_lt (by
        rw [Nat.pow_add]
        nlinarith [Nat.mul_le_mul_right (2 ^ f.lo) (Nat.succ_le_of_lt hv)])
      rw [hp, Nat.add_assoc, Nat.mul_comm, Nat.mul_add_div (Nat.two_pow_pos _), hz, Nat.add_zero]
    rw [key, key w.toNat, hh]
/-! ### Registers -/

variable (s : State)

theorem State.reg_setReg (a b : Nat) (v : Word) : (s.setReg a v).reg b = if b = a then v else s.reg b :=
  tget_tset regReset s.regs a b v

@[simp] theorem State.reg_setReg_same (a : Nat) (v : Word) : (s.setReg a v).reg a = v := by simp [reg_setReg]

theorem State.reg_setReg_other {a b : Nat} (v : Word) (h : b ≠ a) : (s.setReg a v).reg b = s.reg b := by
  simp [reg_setReg, h]

theorem State.reg_setFld (a b : Nat) (f : Fld) (v : Nat) :
    (s.setFld a f v).reg b = if b = a then f.put (s.reg a) v else s.reg b := s.reg_setReg a b _

theorem State.reg_setFld_other {a b : Nat} (f : Fld) (v : Nat) (h : b ≠ a) : (s.setFld a f v).reg b = s.reg b := by
  simp [reg_setFld, h]

theorem State.fld_setFld_same (a : Nat) (f : Fld) (v : Nat) (h : f.lo + f.w ≤ 32) :
    (s.setFld a f v).fld a f = v % 2 ^ f.w := by
  simp [State.fld, reg_setFld, Fld.get_put _ _ _ h]

/-- A write of one field leaves every other field of the register that does not overlap it alone. -/
theorem State.fld_setFld_disjoint (a : Nat) (f g : Fld) (v : Nat) (h : f.lo + f.w ≤ 32)
    (d : g.lo + g.w ≤ f.lo ∨ f.lo + f.w ≤ g.lo) : (s.setFld a f v).fld a g = s.fld a g := by
  simp [State.fld, reg_setFld, Fld.get_put_other _ _ _ _ h d]

theorem State.fld_setFld_other {a b : Nat} (f g : Fld) (v : Nat) (h : b ≠ a) : (s.setFld a f v).fld b g = s.fld b g := by
  simp [State.fld, reg_setFld, h]

theorem State.fld_setReg_other {a b : Nat} (g : Fld) (v : Word) (h : b ≠ a) : (s.setReg a v).fld b g = s.fld b g := by
  simp [State.fld, reg_setReg, h]

theorem State.reg_count (a b n : Nat) :
    (s.count a n).reg b = if b = a then BitVec.ofNat 32 (min ((s.reg a).toNat + n) 0xFFFFFFFF) else s.reg b :=
  s.reg_setReg a b _

/-- A counter holds at 0xFFFF_FFFF. -/
theorem State.count_toNat (a n : Nat) : ((s.count a n).reg a).toNat = min ((s.reg a).toNat + n) 0xFFFFFFFF := by
  simp [reg_count]

/-- An update that leaves the registers alone leaves every register read alone. -/
theorem State.reg_congr {s t : State} (h : t.regs = s.regs) (a : Nat) : t.reg a = s.reg a := by
  simp [State.reg, h]

/-! ### Memory bytes -/

theorem State.byte_setByte (a b : Nat) (v : Byte) : (s.setByte a v).byte b = if b = a then v else s.byte b :=
  tget_tset memDefault s.mem a b v

theorem State.byte_congr {s t : State} (h : t.mem = s.mem) (a : Nat) : t.byte a = s.byte a := by
  simp [State.byte, h]

/-- The bytes stored, and every other byte as before. -/
theorem State.byte_setBytes (s : State) (a : Nat) (bs : List Byte) (b : Nat) :
    (s.setBytes a bs).byte b = if a ≤ b ∧ b < a + bs.length then bs.getD (b - a) 0 else s.byte b := by
  induction bs generalizing s a with
  | nil => simp [State.setBytes]
  | cons x r ih =>
    rw [State.setBytes, ih, State.byte_setByte]
    by_cases h : b = a
    · subst h; simp
    · by_cases h2 : a + 1 ≤ b ∧ b < a + 1 + r.length
      · have : b - a = (b - (a + 1)) + 1 := by omega
        rw [if_pos h2, if_pos (by simp only [List.length_cons]; omega), this]; simp
      · rw [if_neg h2, if_neg h, if_neg (by simp only [List.length_cons]; omega)]

theorem State.setBytes_regs (s : State) (a : Nat) (bs : List Byte) : (s.setBytes a bs).regs = s.regs := by
  induction bs generalizing s a with
  | nil => rfl
  | cons x r ih => rw [State.setBytes, ih]; rfl

/-- A little-endian number read back from its bytes. -/
theorem leNat_leBytes (n v : Nat) : leNat (leBytes n v) = v % 256 ^ n := by
  induction n generalizing v with
  | zero => simp [leBytes, leNat, Nat.mod_one]
  | succ n ih =>
    have h := ih (v / 256)
    simp only [leNat, leBytes, List.foldr_cons] at h ⊢
    rw [h, BitVec.toNat_ofNat, show (256 : Nat) ^ (n + 1) = 256 * 256 ^ n from Nat.pow_succ', Nat.mod_mul]

@[simp] theorem leBytes_length (n v : Nat) : (leBytes n v).length = n := by
  induction n generalizing v with
  | zero => rfl
  | succ n ih => simp [leBytes, ih]

/-! ### Units -/

theorem State.isl_setIsl (p q : Nat) (x : Isl) : (s.setIsl p x).isl q = if q = p then x else s.isl q :=
  tget_tset _ s.isls p q x

theorem State.qtr_setQtr (p q : Nat) (x : Qtr) : (s.setQtr p x).qtr q = if q = p then x else s.qtr q :=
  tget_tset _ s.qtrs p q x

theorem State.port_setPort (k j : Nat) (x : Port) : (s.setPort k x).port j = if j = k then x else s.port j :=
  tget_tset _ s.ports k j x

theorem State.fry_setFry (k j : Nat) (x : Fry) : (s.setFry k x).fry j = if j = k then x else s.fry j :=
  tget_tset _ s.frys k j x

theorem State.chan_setChan (k j : Nat) (x : Chan) : (s.setChan k x).chan j = if j = k then x else s.chan j :=
  tget_tset _ s.chans k j x

theorem State.fuu_setFuu (k j : Nat) (x : Fuu) : (s.setFuu k x).fuu j = if j = k then x else s.fuu j :=
  tget_tset _ s.fuus k j x

/-! ### A context's registers (R108) -/

theorem State.setSreg_regs_zero (p c v : Nat) : s.setSreg p c 0 v = s := rfl

/-- A scalar register reads what was written, modulo 2^64; s0 reads 0. -/
theorem State.sreg_setSreg_same (p c i v : Nat) :
    (s.setSreg p c i v).sreg p c i = if i = 0 then 0 else v % 2 ^ 64 := by
  by_cases h : i = 0
  · simp [State.sreg, h]
  · have hne : Reg.ISL_SEQ_SREG p c (2 * i) ≠ Reg.ISL_SEQ_SREG p c (2 * i + 1) := by
      simp only [Reg.ISL_SEQ_SREG]; omega
    simp only [State.sreg, State.setSreg, h, if_false, State.reg_setReg, hne]
    simp [BitVec.toNat_ofNat]
    omega

end Sys2Proof.Machine
end

