-- ==== Sys2Proof/Laws/Memory.lean ====
section
/-! SUPPORT. Every operation that writes memory keeps its canonical form. -/

namespace Sys2Proof.Machine

/-! ### Tables cut and joined -/

theorem tabove_filter {α : Type} {t : Table α} {k : Nat} (p : Nat × α → Bool) (h : tabove k t = true) :
    tabove k (t.filter p) = true := by
  simp only [tabove, List.all_eq_true, List.mem_filter, and_imp] at h ⊢
  exact fun x hx _ => h x hx

/-- Leaving entries out of a table keeps its canonical form. -/
theorem twf_filter {α : Type} [DecidableEq α] {d : Nat → α} {t : Table α} (p : Nat × α → Bool) (h : twf d t = true) :
    twf d (t.filter p) = true := by
  induction t with
  | nil => rfl
  | cons x r ih =>
    obtain ⟨j, v⟩ := x
    simp only [twf, Bool.and_eq_true] at h
    by_cases hp : p (j, v) = true
    · simp only [List.filter_cons_of_pos hp, twf, Bool.and_eq_true]
      exact ⟨⟨h.1.1, tabove_filter p h.1.2⟩, ih h.2⟩
    · rw [List.filter_cons_of_neg hp]; exact ih h.2

/-- Two canonical tables, all of the first below all of the second, join to a canonical table. -/
theorem twf_append {α : Type} [DecidableEq α] {d : Nat → α} {t u : Table α} (ht : twf d t = true) (hu : twf d u = true)
    (h : ∀ x ∈ t, ∀ y ∈ u, x.1 < y.1) : twf d (t ++ u) = true := by
  induction t with
  | nil => exact hu
  | cons x r ih =>
    obtain ⟨j, v⟩ := x
    simp only [twf, Bool.and_eq_true] at ht
    simp only [List.cons_append, twf, Bool.and_eq_true]
    refine ⟨⟨ht.1.1, ?_⟩, ih ht.2 fun x hx => h x (by simp [hx])⟩
    simp only [tabove, List.all_eq_true, decide_eq_true_eq, List.mem_append] at ht ⊢
    rintro y (hy | hy)
    · exact ht.1.2 y hy
    · exact h (j, v) (by simp) y hy

/-- A run of consecutive keys, without those that hold the default, is canonical. -/
theorem twf_run {α : Type} [DecidableEq α] (d : Nat → α) (a n : Nat) (f : Nat → α) :
    twf d (((List.range' a n).map fun i => (i, f i)).filter fun e => e.2 != d e.1) = true := by
  induction n generalizing a with
  | zero => rfl
  | succ n ih =>
    rw [List.range'_succ, List.map_cons]
    have above : tabove a (((List.range' (a + 1) n).map fun i => (i, f i)).filter fun e => e.2 != d e.1) = true := by
      simp only [tabove, List.all_eq_true, List.mem_filter, List.mem_map, decide_eq_true_eq]
      rintro x ⟨⟨i, hi, rfl⟩, _⟩
      have := List.mem_range'_1.1 hi
      simp only; omega
    by_cases hv : f a = d a
    · rw [List.filter_cons_of_neg (by simp [hv])]; exact ih (a + 1)
    · rw [List.filter_cons_of_pos (by simp [hv])]
      simp only [twf, Bool.and_eq_true, decide_eq_true_eq]
      exact ⟨⟨hv, above⟩, ih (a + 1)⟩

/-! ### Stores -/

theorem State.setByte_wf {s : State} (h : Memory.wf s.mem) (a : Nat) (v : Byte) : Memory.wf (s.setByte a v).mem :=
  twf_tset a v h

theorem State.setBytes_wf {s : State} (h : Memory.wf s.mem) (a : Nat) (bs : List Byte) : Memory.wf (s.setBytes a bs).mem := by
  induction bs generalizing s a with
  | nil => exact h
  | cons b r ih => exact ih (State.setByte_wf h a b) (a + 1)

theorem State.storeByte_wf {s : State} (h : Memory.wf s.mem) (a : Nat) (b : Byte) : Memory.wf (s.storeByte a b).mem := by
  unfold State.storeByte
  split
  · exact State.setByte_wf (State.setByte_wf h _ _) _ _
  · exact State.setByte_wf h _ _

theorem State.store_wf {s : State} (h : Memory.wf s.mem) (a : Nat) (bs : List Byte) : Memory.wf (s.store a bs).mem := by
  induction bs generalizing s a with
  | nil => exact h
  | cons b r ih => exact ih (State.storeByte_wf h a b) (a + 1)

/-! ### What checks and records leave alone -/

@[simp] theorem State.setErr_mem (s : State) (a : Nat) (f m : Fld) : (s.setErr a f m).mem = s.mem := by
  unfold State.setErr; split <;> rfl

@[simp] theorem State.setPlausBit_mem (s : State) (p : Nat) : (s.setPlausBit p).mem = s.mem := by
  rfl

@[simp] theorem State.raisePlaus_mem (s : State) (p : Nat) : (s.raisePlaus p).mem = s.mem := by
  unfold State.raisePlaus; simp only []; split <;> simp

@[simp] theorem State.errCe_mem (s : State) (u : MemUnit) (a y r l : Nat) : (s.errCe u a y r l).mem = s.mem := by
  unfold State.errCe; simp only [State.setErr_mem]; split <;> rfl

@[simp] theorem State.recordCe_mem (s : State) (u : MemUnit) (a y r l : Nat) : (s.recordCe u a y r l).mem = s.mem := by
  simp [State.recordCe]

@[simp] theorem State.errUe_mem (s : State) (u : MemUnit) (a r l : Nat) (p : Bool) : (s.errUe u a r l p).mem = s.mem := by
  simp only [State.errUe, State.count_mem, State.setErr_mem]; split <;> rfl

@[simp] theorem State.recordUe_mem (s : State) (u : MemUnit) (a r l : Nat) (p : Bool) :
    (s.recordUe u a r l p).mem = s.mem := by simp [State.recordUe]

@[simp] theorem State.checkCw_mem (s : State) (a r l : Nat) : (s.checkCw a r l).2.mem = s.mem := by
  unfold State.checkCw
  split
  · rfl
  · split <;> simp

@[simp] theorem State.checkCws_mem (s : State) (a r l k : Nat) : (s.checkCws a r l k).2.mem = s.mem := by
  induction k generalizing s a with
  | zero => rfl
  | succ k ih => simp only [State.checkCws, ih, State.checkCw_mem]

/-- A read leaves memory alone. -/
@[simp] theorem State.readMem_mem (s : State) (a n r l : Nat) : (s.readMem a n r l).2.2.mem = s.mem := by
  simp [State.readMem]

@[simp] theorem State.storeCw_mem (s : State) (a : Nat) (e : CwErr) : (s.storeCw a e).mem = s.mem := by
  unfold State.storeCw; split <;> rfl

@[simp] theorem State.writeCw_mem (s : State) (c lo hi r l : Nat) : (s.writeCw c lo hi r l).2.mem = s.mem := by
  unfold State.writeCw
  split
  · rfl
  · split
    · simp
    · simp only []; split <;> simp

@[simp] theorem State.writeCws_mem (s : State) (c lo hi r l k : Nat) : (s.writeCws c lo hi r l k).2.mem = s.mem := by
  induction k generalizing s c with
  | zero => rfl
  | succ k ih => simp only [State.writeCws, ih, State.writeCw_mem]

/-! ### Writes -/

theorem State.writeMem_wf {s : State} (h : Memory.wf s.mem) (a : Nat) (bs : List Byte) (r l : Nat) :
    Memory.wf (s.writeMem a bs r l).2.mem :=
  State.store_wf (by simpa using h) _ _

theorem State.writeChk_wf {s : State} (h : Memory.wf s.mem) (a : Nat) (bs : List Byte) (r l : Nat) :
    Memory.wf (s.writeChk a bs r l).st.mem := by
  simp only [State.writeChk]
  repeat' split
  all_goals first | exact State.writeMem_wf h _ _ _ _ | exact h

theorem State.writeAcc_wf {s : State} (h : Memory.wf s.mem) (p a j v : Nat) : Memory.wf (s.writeAcc p a j v).mem := by
  unfold State.writeAcc
  exact State.setBytes_wf (by simpa using h) _ _

@[simp] theorem State.recordParity_mem (s : State) (p a j b q : Nat) : (s.recordParity p a j b q).mem = s.mem := by
  rw [State.recordParity, State.report_mem, State.raisePlaus_mem, State.setErr_mem]
  split
  · rfl
  · exact State.setReg_mem _ _ _

@[simp] theorem State.readAcc_mem (s : State) (p a j q : Nat) : (s.readAcc p a j q).2.mem = s.mem := by
  simp only [State.readAcc]; split <;> simp

theorem State.writeAccWin_wf {s : State} (h : Memory.wf s.mem) (p a : Nat) (bs : List Byte) :
    Memory.wf (s.writeAccWin p a bs).mem := by
  unfold State.writeAccWin
  apply State.setBytes_wf
  simp only [State.setIsl_mem]
  split <;> simpa using h

theorem State.accWrites_wf {s : State} (h : Memory.wf s.mem) (p a : Nat) (bs : List Byte) (n : Nat) :
    Memory.wf (s.accWrites p a bs n).mem := by
  induction n generalizing s a bs with
  | zero => exact h
  | succ n ih =>
    simp only [State.accWrites]
    split
    · exact h
    · exact ih (State.writeAccWin_wf h _ _ _) _ _

theorem State.busWrite_wf {s : State} (h : Memory.wf s.mem) (a : Nat) (bs : List Byte) (r l : Nat) :
    Memory.wf (s.busWrite a bs r l).st.mem := by
  simp only [State.busWrite]
  repeat' split
  all_goals first | exact State.writeMem_wf h _ _ _ _ | exact State.accWrites_wf h _ _ _ _ | exact h

/-- Fills with free values keep the canonical form. -/
theorem State.fillFree_wf {s : State} (h : Memory.wf s.mem) (a n : Nat) : Memory.wf (s.fillFree a n).mem := by
  have e : ∀ (f : Nat → Byte), ((List.range n).map fun i => (a + i, f i))
      = (List.range' a n).map fun i => (i, f (i - a)) := by
    intro f
    rw [List.range'_eq_map_range, List.map_map]
    apply List.map_congr_left
    intro i _
    simp
  simp only [State.fillFree, e]
  apply twf_append
  · apply twf_append (twf_filter _ h) (twf_run memDefault a n _)
    simp only [List.mem_filter, List.mem_map, decide_eq_true_eq]
    rintro x ⟨_, hx⟩ y ⟨⟨i, hi, rfl⟩, _⟩
    have := List.mem_range'_1.1 hi
    simp only; omega
  · exact twf_filter _ h
  · simp only [List.mem_append, List.mem_filter, List.mem_map, decide_eq_true_eq]
    rintro x (⟨_, hx⟩ | ⟨⟨i, hi, rfl⟩, _⟩) y ⟨_, hy⟩
    · omega
    · have := List.mem_range'_1.1 hi
      simp only; omega

theorem State.zeroFill_wf {s : State} (h : Memory.wf s.mem) (a n : Nat) : Memory.wf (s.zeroFill a n).mem := twf_filter _ h

theorem State.flashErase_wf {s : State} (h : Memory.wf s.mem) (a n : Nat) : Memory.wf (s.flashErase a n).mem := twf_filter _ h

theorem State.flashProg_wf {s : State} (h : Memory.wf s.mem) (a : Nat) (bs : List Byte) : Memory.wf (s.flashProg a bs).mem := by
  induction bs generalizing s a with
  | nil => exact h
  | cons b r ih => exact ih (State.setByte_wf h _ _) _

/-- Memory is canonical at reset. -/
theorem State.reset_wf : Memory.wf State.reset.mem := rfl

end Sys2Proof.Machine
end

