-- ==== Sys2Proof/Laws/Sequencer.lean ====
section
/-! SUPPORT. What the issue of a sequencer instruction does when its context is ready: the fetch reads the word and changes
nothing, and the instruction's meaning follows. -/

namespace Sys2Proof.Machine

/-- A program-memory address belongs to the Lagoon controller of its Island (R107). -/
theorem memUnitOf_prog (p : Fin 144) (n : Nat) (h : n < 16384) : memUnitOf (progBase p + 16 * n) = some (.lag p) := by
  have hp := p.isLt
  have : region (progBase p + 16 * n) = .prog p := by
    unfold region progBase
    repeat (rw [if_neg (by omega)])
    rw [if_pos (by omega)]
    congr 1; omega
  simp [memUnitOf, this]

/-- The PC has 14 bits. -/
theorem pc_lt (s : State) (p c : Nat) : s.pc p c < 16384 := by
  unfold State.pc State.fld
  exact Fld.get_lt Fd.ISL_SEQ_PC_PC _

/-- A fetch whose codeword is clean reads the word and changes nothing (R107). -/
theorem fetch_ok (s : State) (p : Fin 144) (c l : Nat) (h : s.cwAt (progBase p + 16 * s.pc p c) = .ok) :
    s.readMem (progBase p + 16 * s.pc p c) 16 5 l = (s.bytes (progBase p + 16 * s.pc p c) 16, false, s) := by
  have h1 : cwSpan (progBase p + 16 * s.pc p c) 16 = 1 := by
    unfold cwSpan progBase; rw [if_neg (by omega)]; omega
  have h2 := memUnitOf_prog p (s.pc p c) (pc_lt s p c)
  have h3 : memUnitOf ((progBase p + 16 * s.pc p c) / 32 * 32) = some (.lag p) := by
    have : (progBase p + 16 * s.pc p c) / 32 * 32 = progBase p + 16 * (s.pc p c / 2 * 2) := by unfold progBase; omega
    rw [this]; exact memUnitOf_prog p _ (by have := pc_lt s p c; omega)
  have h4 : s.cwAt ((progBase p + 16 * s.pc p c) / 32 * 32) = .ok := by
    unfold State.cwAt at h ⊢
    have : (progBase p + 16 * s.pc p c) / 32 * 32 / 32 * 32 = (progBase p + 16 * s.pc p c) / 32 * 32 := by omega
    rw [this]; exact h
  simp only [State.readMem, h1, State.checkCws, State.checkCw, h3, h4]
  rfl

/-- Issue of an instruction by a ready context: the meaning acts, and its issue concludes (R113, R118). -/
theorem issue_ready {s : State} {p : Fin 144} {c : Fin 2} {o : Nat} {srcs : List Nat} (h : Ready s p c o srcs) (m : Meaning)
   (hm : m.mine (s.iword p c) = true) (ho : definedOpc o = true) (hs : srcRegs (s.iword p c) = srcs.filter (· != 0))
   (hr : s.hasRoom p c (s.iword p c) = true)
   (hv : m.rsv (s.iword p c) = none) :
   s.issue p c m = (s.running p c).conclude p c (s.pc p c) (m.act (s.running p c) (s.pc p c) (s.iword p c)) := by
  obtain ⟨⟨h1, hy, h2⟩, h3, h4, h5⟩ := h
  have hyy : s.yields p c = false := by
    unfold State.yields
    rcases hy with h | h
    · simp [h]
    · simp [h]
  unfold State.issue
  simp only [fetch_ok s p c _ h2]
  simp only [h1, hyy]
  rw [← h3] at ho
  have e : leNat (s.bytes (progBase p + 16 * s.pc p c) 16) = s.iword p c := rfl
  have hl : s.lacks p c (s.iword p c) = false := by
    simp only [State.lacks, hs, hr, Bool.not_true, Bool.or_false, List.any_eq_false, List.mem_filter, List.any_eq_true,
      beq_iff_eq, not_exists, not_and, bne_iff_ne, and_imp]
    intro x hx hx0 l hl e
    rcases h5 l hl with h | h
    · exact hx0 (e ▸ h)
    · exact h (e ▸ hx)
  have hp : s.predOff p c (s.iword p c) = false := by
    simpa [State.predOff] using h4
  simp only [e, ho, hm, hl, hp, hv]
  simp [State.running]

end Sys2Proof.Machine
end

