-- ==== Sys2Proof/Tests/Slice0.lean ====
section
/-! SUPPORT. Tests: for every statement with hypotheses a witness that meets them, clause by clause; small steps whose results are
computed by hand or copied from the spec's worked examples; and an ill-formed term for every check of WellFormed. -/

namespace Sys2Proof.Tests
open Sys2Proof Sys2Proof.Machine

set_option maxRecDepth 20000
set_option linter.unusedVariables false
set_option exponentiation.threshold 4000
set_option Elab.async false

/-! ### Small states, and values they are made of -/

abbrev S0 : State := State.reset
def w (s : State) (l : List (Nat × Fld × Nat)) : State := l.foldl (fun s x => s.setFld x.1 x.2.1 x.2.2) s
def put (s : State) (a : Nat) (n v : Nat) : State := s.setBytes a (leBytes n v)
def run1 (p c v : Nat) (s : State := S0) : State := put (s.setFld (Reg.ISL_SEQ_STATUS p) (stFld c) 1) (progBase p) 16 v
def tlbS (s : State := S0) : State := (s.setReg (Reg.CHT_CTX_PT_ROOT 0 0) 1).setQtr 0 { s.qtr 0 with tlb := [⟨0, 0, 0x10000000000 + 0xD, false⟩] }
def ldS (l : Load) : State := S0.setCtx 5 1 { loads := [l] }
def sigS (g : Sig) (s : State := S0) : State := s.setCtx 5 1 { sigq := [g] }
def arrS (a : BuoyArr) (s : State := S0) : State := s.setQtr 1 { s.qtr 1 with arrivals := [a] }
def chart (fl : Nat) (pb : Nat) : Nat := 64 * 2^64 + 64*2^96 + 1*2^256 + 64*2^320 + (2*2^4 + 2^11 + fl + 2^31)*2^(8*0x50) + pb*2^(8*0x68)
def chSpA (pb : Nat) : Nat := 64 * 2^64 + 64*2^96 + 1*2^256 + 2*2^320 + (2*2^4 + 2^7+2^9+2^11 + 2^31)*2^(8*0x50) + pb*2^(8*0x68)
def hb : Nat := 0x10000000000
def engS (cls : Nat) : State := ((tlbS S0).addWork cls (.ctx 5 0) 0).2.setIsl 5 { charts := [⟨0,2,chart 0 (hb+0x100000)⟩,⟨0,3,chart 0 (hb+0x180000)⟩,⟨0,4,chSpA (hb+0x140000)⟩,⟨0,5,chart 0 (lagBase 7)⟩] }
def okl {α} (d : α) (r : AcRes α × State) : α := match r.1 with | .ok l => l | _ => d
def okE {ε α} (d : α) (r : Except ε α × State) : α := match r.1 with | .ok l => l | _ => d
def ptS (q : Nat) (s : State := S0) : State := put (put (put ((s.setReg (Reg.CHT_CTX_PT_ROOT q 0) 0x10001).setReg (Reg.CHT_CTX_PT_ROOTHI q 0) 0x100) (hb+0x10000) 8 (hb+0x20001)) (hb+0x20000) 8 (hb+0x21001)) (hb+0x21000) 8 (hb+0x20000F)
def pst (k st : Nat) (x : Port := {}) (s : State := S0) : State := (s.setPort k x).setPortSt k st
def chT : Nat := 64 * 2^64 + 64*2^96 + 1*2^256 + 64*2^320 + (2*2^4 + 2^11 + 2^31)*2^(8*0x50) + 0x10000000000*2^(8*0x68)
def chSp : Nat := 64 * 2^64 + 64*2^96 + 1*2^256 + 2*2^320 + (2*2^4 + 2^7+2^9+2^11 + 2^31)*2^(8*0x50) + 0x10000000000*2^(8*0x68)
def mmA : MmOp := ⟨1,0,0,0,false,false,false,0,0,2,3,0,0,16,2,2,3,[0,0,0,0,0,0],[0,0,0,0,0,0]⟩
def stA : State := w (S0.setIsl 5 { mmq := [mmA], charts := [⟨0,2,chT⟩,⟨0,3,chT⟩] }) [(Reg.ACC_STATUS 5, Fd.ACC_STATUS_INIT_DONE, 1)]
def stB : State := (w (S0.setIsl 5 { mmq := [mmA], charts := [⟨0,2,0⟩,⟨0,3,chT⟩] }) [(Reg.ACC_STATUS 5, Fd.ACC_STATUS_INIT_DONE, 1)]).addWork 0 (.ctx 5 0) 0 |>.2
def runA : MmRun := ⟨mmA, chT, chT, 0, false, 0, [], 0, 0, none, none⟩
def runI (a : Nat) (skip add : Bool) : MmRun := ⟨{mmA with add := add}, a, chT, 0, skip, 1, [⟨0,0,[[[.fin false 1 0, .fin false 1 1, .fin false 1 0],[.fin false 1 0, .fin false 1 1, .fin false 1 0]]]⟩], 0, 0, none, none⟩
def stR (r : MmRun) : State := put ((S0.addWork 0 (.ctx 5 0) 0 |>.2).setIsl 5 { arr := [r] }) 0x10000000000 16 0x40000000_3F800000_40400000_3F800000
def fL (r : MmRun) : AcRes (List FElem) × State := let o := r.op; (stR r).fetch (arrAcc (stR r) 5 1 o) (parseChart r.b) none ((List.range o.copies).flatMap fun c => (o.ns (r.nextLoad / o.s)).flatMap fun n => (o.ks (r.nextLoad % o.s)).map fun k => r.coordB k n c)
def fA (r : MmRun) : AcRes (List FElem) × State := let o := r.op; let s := stR r; let c := parseChart r.a; s.fetch (arrAcc s 5 0 o) c (if c.sparse then some (s.fld (Reg.SHL_CFG 5) Fd.SHL_CFG_THRESH) else none)
        ((o.rows r.curG).flatMap fun i => (o.ks (r.curSet % o.s)).map fun k => r.coordA (if o.mode = 2 then r.curG else 16 * r.curG + i) k i)
def okv (r : AcRes (List FElem) × State) : List FElem := match r.1 with | .ok l => l | _ => []
def psA : Pass := ⟨1,[⟨3,4,false,.f32 0x3F800000⟩,⟨8191,31,true,.int (-7)⟩,⟨0,0,true,.exactZero⟩]⟩
def drA : DrainOp := ⟨1,0,0,0,0,2,2,[0,0,0,0,0,0]⟩
def deA : List Nat := [0, 0x3F800000, 0x7F7FFFFF, 0, 8, 2, 0, 0,0,0,0,0,0,0,0,0]
def deL (d : List Nat) (s : State) : State := (List.range 16).foldl (fun s j => s.setReg (Reg.EBB_DESC 5 0 j) (BitVec.ofNat 32 (d.getD j 0))) s
def stE (d : List Nat) : State := deL d (w ((S0.addWork 1 (.ctx 5 0) 0 |>.2).setIsl 5 { ebbq := [drA], charts := [⟨0,2,chT⟩] }) [(Reg.ACC_STATUS 5, Fd.ACC_STATUS_INIT_DONE, 1)])
def erA : EbbRun := ⟨drA, deA, chT, 0,0,0,0,0⟩
def stER : State := put (S0.setIsl 5 { ebb := some erA }) (accAddr 5 0 0) 4 0x3F800000
def aE := ebbAcc stER 5 drA
def uE0 : State := (stER.ebbLimit aE erA (ebbEntries deA 0 2)).2.2
def rowsE := uE0.readRows 5 0 2
def erow : EbbRow := ⟨0, some (0x3F800000,0x40000000) :: List.replicate 31 none⟩
def bA (rows : List EbbRow) (md : Nat) (last loss : Bool) : EbbBatch := ⟨drA, deA.set 0 (md*16 + if loss then 2^17 else 0), chT, 0, rows, last, none⟩
def stW (b : EbbBatch) : State := (S0.addWork 1 (.ctx 5 0) 0 |>.2).setIsl 5 { ebbw := [b] }
def rowW (b : EbbBatch) : EbbW := (stW b).ebbRow (ebbAcc (stW b) 5 drA) 5 b erow
def rowA (b : EbbBatch) := (stW b).ebbRowAdd (ebbAcc (stW b) 5 drA) 5 b erow
def fo : FryOp := ⟨1, .ctx 5 0, 0, 0x1000, false⟩
def d3 : Nat := 3 + 0x2000*2^64 + 0x3000*2^128 + 128*2^192
def perm : Nat := 8+2*64+3*512+4*4096+5*32768
def dF (op a b e : Nat) : Nat := op + a*2^4+b*2^10 + perm*2^32 + e*2^64+e*2^96+2^128+2^160+2^192+2^224
def fq (d : Nat) : State := put (put ((engS 3).setFry 0 { queue := [fo] }) (hb+0x1000) 64 d) (hb+0x2000) 64 0x1234567890
def fr (d a b : Nat) : FryRun := ⟨fo, d, [a, b], 0, 0, false⟩
def frS (r : FryRun) : State := put (put ((engS 3).setFry 0 { run := some r }) (hb+0x2000) 64 0x1234567890) (hb+0x100000) 8 0x400000003F800000
def wk3 : Work := ⟨1,3,.ctx 5 0,0,false,0⟩
def fAy (s : State) (d : Nat) := ferryAcc s 0 fo d
def rB := fr d3 0 0
def rC := fr (dF 1 2 4 32) (chart 0 (hb+0x110000) - 63*2^64 - 63*2^96) (chSpA (hb+0x140000))
def rM := fr (dF 0 2 3 2) (chart 0 (hb+0x100000)) (chart 0 (hb+0x180000))
def rE := fr (dF 2 4 3 32) (chSpA (hb+0x140000)) (chart 0 (hb+0x180000) - 63*2^64 - 63*2^96)
def esOf (r : FryRun) (xs : List (List Int)) : List Elem × State := match (frS r).ferryRead (fAy (frS r) r.desc) (r.chart 0) xs with | (some (es,_),u) => (es,u) | (_,u) => ([],u)
def esC := esOf rC ((tileElems rC.desc 0).map (sumCoord (fSorg rC.desc)))
def esM := esOf rM ((moveRow rM.desc 0).map fun x => sumCoord (fSorg rM.desc) (srcIdx rM.desc x))
def esZ : List Elem := List.replicate 1024 ⟨.fin false 0 (-149), 0⟩
def vC : State := (esC.2.chartPieces (ferryAcc (frS rC) 0 fo rC.desc) (rC.chart 1) ((rC.chart 1).slotOff (sumCoord (fDorg rC.desc) (tileIdx rC.desc 0))) (((rC.chart 1).base : Int) + (rC.chart 1).slotOff (sumCoord (fDorg rC.desc) (tileIdx rC.desc 0))) 144 true).2
def wM := esM.2.ferryElems (fAy (frS rM) rM.desc) 0 (rM.chart 1) ((((moveRow rM.desc 0).map (sumCoord (fDorg rM.desc))).zip esM.1).map fun xe => (xe.1, ferryPat esM.2 rM.desc (rM.chart 0).fmt (rM.chart 1) xe.1 xe.2))
def slE := (frS rE).readSlots (fAy (frS rE) rE.desc) (rE.chart 0) false (fun _ => false) [(rE.chart 0).slotOff (sumCoord (fSorg rE.desc) (tileIdx rE.desc 0))]
def sl1 : SlotRead := (okl [] slE).headD ⟨0,[],none⟩
def tlE : Tile := match sl1.tile with | some t => t | none => decodeTile 4 [] []
def wE := slE.2.ferryElems (fAy (frS rE) rE.desc) 0 (rE.chart 1) (((tileElems rE.desc 0).map (sumCoord (fDorg rE.desc))).zip
        ((((tileElems rE.desc 0).map (sumCoord (fSorg rE.desc))).zip tlE.vals).map fun xv =>
          if (rE.chart 0).inBounds xv.1 then xv.2 else (rE.chart 0).fillElem.pat))
def vals1 : List Nat := List.replicate 1024 0
def valsD : List Nat := List.replicate 1024 1
def so (k : Nat) : ShoalOp := ⟨1,0,0,k,0x1000⟩
def gd (n : Nat) : Nat := 2 + 3*2^6 + n*2^32 + 4*2^64 + 0x4000*2^128
def shQ (d : Nat) : State := put (put ((engS 2).setIsl 5 { (engS 2).isl 5 with shlq := [so 0] }) (hb+0x1000) 64 d) (hb+0x4000) 8 1
def shU (d : Nat) := (shQ d).fetchVa (shoalAcc (shQ d) 5 (so 0)) 0x1000 64
def shV (d : Nat) := (shU d).2.shoalCheck 5 (so 0) d
def shL (d : Nat) := (shV d).2.shoalLists (shoalAcc (shU d).2 5 (so 0)) 0 d
def wk2 : Work := ⟨1,2,.ctx 5 0,0,false,0⟩
def sr (sop d : Nat) (ls : List (List Nat)) : ShoalRun := ⟨so sop, d, [chart 0 (hb+0x100000), chart 0 (hb+0x180000), 0], ls, 0, [], false⟩
def srS (r : ShoalRun) : State := put ((engS 2).setIsl 5 { (engS 2).isl 5 with shl := some r }) (hb+0x100000) 8 0x400000003F800000
def laneO (r : ShoalRun) := (srS r).laneRead (shoalAcc (srS r) 5 r.op) 5 r 0 (r.chart 0) ((entryRows r.op.sop r.desc r.lists 0).1.getD [])
def laneR (r : ShoalRun) : LaneRes := match (laneO r).1 with | some l => l | none => ⟨[],none,r⟩
def dstO (r : ShoalRun) := let s := (laneO r).2.shoalRunning 5 (laneR r).run; s.dstElems (shoalAcc (srS r) 5 r.op) 5 (r.chart 1) (sMrg r.op.sop r.desc) {} (((entryRows r.op.sop r.desc r.lists 0).2.zip (laneR r).vals).map fun xv => (xv.1, shoalPat s r.desc (r.chart 1) (sMrg r.op.sop r.desc).mop xv.1 xv.2))
def rS1 := sr 1 (gd 2) [[1,0]]
def rP := sr 5 (gd 2 + 1*2^96) [[1,0],[5,5],[5,5]]
def rU := sr 6 (gd 2 + 1*2^96) [[1,0],[5,5],[5,5]]
def rSg := sr 3 (gd 2 + 2^18) [[3,3,4]]
def lo : LineOp := ⟨none,5,lagBase 7 + 64,1,false,0,0,4,[(0,0x3F800000),(8,0x40000000)],none,none⟩
def loG : LineOp := ⟨none,5,lagBase 7 + 64,1,true,3,9,4,[(0,0x3F800000)],none,none⟩
def ldd : State := w S0 [(Reg.ISL_POLICY, Fd.ISL_POLICY_LOADED, 1)]
def swS : State := (((w (ldd.setPstate 3 1) [(Reg.ISL_LMAP 7,Fd.ISL_LMAP_PHYS,3)]).setLogical 3 7).setPstate 9 2)
def swG (f : List (Nat × Fld × Nat)) : State := w (w (swS.setPstate 3 4 |>.setPstate 9 5) [(Reg.ISL_SWAP_CTL,Fd.ISL_SWAP_CTL_GO,1),(Reg.ISL_SWAP_CTL,Fd.ISL_SWAP_CTL_SRC,3),(Reg.ISL_SWAP_CTL,Fd.ISL_SWAP_CTL_DST,9)]) f
def t1S : State := ((ptS 1).setReg (Reg.CHT_T1_SRC_LO 1) 0x3000).setReg (Reg.CHT_T1_SRC_HI 1) 0x100
def t1D (f : Nat) (nd : Nat) : Nat := 4*2^64 + 1*2^192 + f*2^320 + nd*2^328 + 2^336
def boundS : State := [(34,40),(35,36)].foldl (fun s x => s.setFld (Reg.ISL_LMAP x.1) Fd.ISL_LMAP_PHYS x.2) ((List.range 144).foldl (fun s p => s.setPstate p (if p % 36 = 3 then 0 else if p % 36 = 4 then 6 else 2)) S0)
def body1 : List Byte := leBytes 244 12345
def ctl (i : Nat) : Port := { flitPos := i, subs := [⟨1,5,3,0⟩,⟨3,6,4,0⟩] }
def fl (kind seq ack : Nat) (nak : Bool) (b : List Byte := []) : List Byte := flitBytes kind seq ack nak b
def m0 (typ vc len : Nat) (addr : Nat) (data : List Byte) : Msg := { reqMsg typ vc len false 0 addr (if typ = 4 then leBytes 16 1 else []) data with src := 5, tag := 4096+9, gen := 2 }
def rxS (m : Msg) : State := w (pst 9 4 {} (pst 5 4 { rxq := ([[],[],[],[]] : List (List Msg)).modify m.vc (fun _ => [m]) } ((S0.setReg (Reg.STR_SELF 1) 7).setFld (Reg.STR_SELF 2) ⟨0,10,.rw,0⟩ 7))) [(Reg.STR_ROUTE 1 5,Fd.STR_ROUTE_VALID,1),(Reg.STR_ROUTE 1 5,Fd.STR_ROUTE_PORT,9)]
def dst7 (m : Msg) : Msg := { m with dst := (rxS m).selfId 1 }
def rdM := dst7 (m0 1 0 1 (hb+0x1000) [])
def wrM := dst7 (m0 3 0 1 (hb+0x1000) (leBytes 64 99))
def mgM := dst7 (m0 4 0 2 (lagBase 7) (leBytes 128 99))
def byM := dst7 (m0 5 0 0 (buoyFields 40 3 0 7) [])
def rsM := dst7 (m0 2 1 1 0 (leBytes 64 77))
def cpM := dst7 (m0 6 1 0 0 [])
def trkS (m : Msg) (u : TxUse) : State := let s := rxS m; (s.setQtr 1 { s.qtr 1 with trk := [(9, some ⟨5, m, u⟩)] }).setFld (Reg.STR_TRK_STATUS 1) Fd.STR_TRK_STATUS_INUSE 1
def fwM := { m0 3 0 1 (hb+0x1000) (leBytes 64 99) with dst := 5 }
def hlo (i n : Nat) (kind : Nat) (d : List Byte) : Msg := mgmtMsg 3 0 kind i n d
def hS (m : Msg) (f : Option Frag) : State := pst 5 2 { rxq := [[],[],[],[m]], frag := f }
def msgS3 (m : Msg) (o : Nat) : State := let s := pst 9 4 {} (pst 5 4 { rxq := [[],[],[],[m]] }); if o = 0 then { s with regs := s.regs } else w s [(Reg.STR_SELF 1, Fd.STR_SELF_ID, 7), (Reg.STR_ROUTE 1 m.dst,Fd.STR_ROUTE_VALID,1),(Reg.STR_ROUTE 1 m.dst,Fd.STR_ROUTE_PORT,o)]
def islsMarked (s : State) : State := { s with isls := (List.range 144).map fun p => (p, ({ marked := true } : Isl)) }
def tS (v : Nat) (s : State := S0) : State := ((s.setReg Reg.TIDE_NUM 9).setTideSt v).setFld Reg.ISL_POLICY Fd.ISL_POLICY_LOADED (if v = 0 then 0 else 1)
def selfS (s : State := S0) : State := (List.range 4).foldl (fun s q => w s [(Reg.STR_SELF q, Fd.STR_SELF_ID, 7), (Reg.STR_SELF q, Fd.STR_SELF_VALID, 1)]) s
def loadS : State :=
  let s := (List.range 4).foldl (fun s q => w s [(Reg.TIDE_SLOT_HI q, ⟨0,16,.rw,0⟩, 0x100), (Reg.STR_SELF q, Fd.STR_SELF_ID, 7), (Reg.STR_SELF q, Fd.STR_SELF_VALID, 1)])
    { S0 with regs := (List.range 136).map fun l => (Reg.ISL_LMAP l, BitVec.ofNat 32 (256 + l)) }
  w s [(Reg.TIDE_CFG, Fd.TIDE_CFG_ROOT, 1), (Reg.ISL_SEQ_CTL 3, Fd.ISL_SEQ_CTL_ENTRY0, 1), (Reg.TIDE_FIRST, ⟨0,32,.rw,0⟩, 10),
    (Reg.TIDE_BKT_HI, ⟨0,16,.rw,0⟩, 0x100), (Reg.TIDE_GRP_HI, ⟨0,16,.rw,0⟩, 0x100)]
def msgS (k : Nat) (m : Msg) (s : State) : State := s.setPort k { s.port k with rxq := ([[],[],[],[]] : List (List Msg)).modify m.vc (fun _ => [m]) }
def tm (kind n : Nat) (line : List Byte) : Msg := tideMsg 5 7 kind n line
def treeS (s : State) : State := w (pst 9 4 {} (pst 5 4 {} (selfS s))) [(Reg.TIDE_CFG, Fd.TIDE_CFG_PARENT, 5),(Reg.TIDE_CHILD, Fd.TIDE_CHILD_MASK, 512)]
def mv : MarkVals := { nonfin := 3, bound := 4, lossn := 5, loss := 0x3F800000 }
def bk (src dst n grp ch : Nat) (ex : Bool) : Nat := src + dst*2^64 + n*2^128 + grp*2^160+ch*2^166 + (if ex then 2^169 else 0) + 2^171 + 2^192+2^200
def grp (gid w ch : Nat) : Nat := gid + 2^32 + w*2^(8*(32+4*ch))
def chS (s : State) (b : Nat) (g : Nat) (ch : Nat) (r : Option BktRun) : State := ({ s with tide := { s.tide with buckets := [(6,b)], groups := [(2,g)] } } : State).setChan ch { cur := r }
def srcS (s : State) : State := put s (hb+0x1000) 512 (0x3F800000 * ((2^(32*128)-1)/(2^32-1)))
def redM (down ex : Bool) : Msg := let s := chS S0 (bk (hb+0x1000) (hb+0x9000) 512 2 3 ex) (grp 77 (0x2000000+5) 3) 3 (some {bkt:=6}); { s.redMsg 9 6 0 down (List.replicate 32 5) with dst := 7 }
def de (op cnt : Nat) : Nat := op + 16*1 + 2^14 + cnt*2^32 + (hb+0x100000)*2^64 + (hb+0x110000)*2^128 + (hb+0x120000)*2^192 + (hb+0x130000)*2^256
def fS (op cnt : Nat) (set : Nat) (s : State := S0) : State := (w (put s (hb+0x400) 64 (de op cnt)) [(Reg.FUU_TBL_LO 0 0, ⟨0,32,.rw,0⟩, 0x400),(Reg.FUU_TBL_HI 0 0, ⟨0,16,.rw,0⟩, 0x100),(Reg.FUU_TBL_N 0 0, Fd.FUU_TBL_N_COUNT, 1),(Reg.FUU_BOFF_LO 0 0, ⟨0,32,.rw,0⟩, 0x1000000),(Reg.CHT_CTX_PT_CT 0 0, ⟨0,32,.rw,0⟩, 0x40000),(Reg.CHT_CTX_PT_CTHI 0 0, ⟨0,16,.rw,0⟩, 0x100)]).setFuu 0 { runs := [⟨set,0,false,none⟩] }
def dataS (s : State) : State := put (put s (hb+0x100000) 8 0x3F8000003F800000) (hb+0x110000) 8 0x3F8000013F800001
def lockS (s : State) : State := (List.range 8).foldl (fun s u => s.setFld (fuuReg u Reg.FUU_STATE) Fd.FUU_STATE_LOCK 1) s
def allT (s : State) : State := (List.range 8).foldl (fun s u => w s [(fuuReg u Reg.FUU_TBL_LO, ⟨0,32,.rw,0⟩, 0x400),(fuuReg u Reg.FUU_TBL_HI, ⟨0,16,.rw,0⟩, 0x100),(fuuReg u Reg.FUU_TBL_N, Fd.FUU_TBL_N_COUNT, 1)]) s
def rpR (r : Replay) (s : State := S0) : State := { s with fw := { s.fw with replay := some r } }
def drD (ids : List Nat) (fin : Bool) : Drain := ⟨9, 1, 4, 7, [], 2, ids, false, fin⟩
def drT (d : Drain) (s : State := S0) : State := { s with fw := { s.fw with drain := some d } }
def drS (s : State := S0) : State := drT (drD [(s.addWork 6 .pilot 0).1] false) (s.addWork 6 .pilot 0).2
def img (n : Nat) (s : State := S0) : State := put (put s (hb+0x700000) 64 (0x4B43565A + 2^32 + 3*2^64 + 8*2^128 + 0xAA*2^160 + 0xBB*2^192 + 0xCC*2^224 + n*2^256 + 2^272)) (hb+0x700040) 64 (1 + (hb+0x100000)*2^64 + 64*2^128 + 0x80*2^192)
def cwS (a : Nat) (e : CwErr) (s : State := S0) : State := s.setCw a e
def cw9 : Nat := hb + 0x1000
def upS (s : State := S0) : State := s.setFld (memReg (.hbm 0) 0) Fd.HBM_STATUS_STATE 1
def upL (s : State := S0) : State := s.setFld (memReg (.lpx 5) 0) Fd.HBM_STATUS_STATE 1
def ur (c : Nat) (op : Nat := 2) : State := put (dataS (fS op 2 0)) (hb+0x40000) 128 c
def urd (op : Nat := 2) := de op 2
def ur1 (c : Nat) (op : Nat := 2) := (((ur c op).fuTouch 0 0).2.addWork 6 .pilot 0).2.fuAcc 0 (urd op) 1
def ur2 (c : Nat) (op : Nat := 2) := (ur1 c op).2.workFail (ur1 c op).1 (parseChart ((ur c op).fuChart 0 (urd op))) (urd op)
def ur3 (c : Nat) (op : Nat := 2) := (ur2 c op).2.fuGroups 0 (ur1 c op).1.lisl 2 [] (if op = 4 then ((ur c op).fuTouch 0 0).2.reloadJob 0 (urd op) else ((ur c op).fuTouch 0 0).2.updJob 0 (urd op) false []) (fuGroupCount (urd op)) 0
def ur3' (c : Nat) (op : Nat := 2) := (ur3 c op).2.count (Reg.FUU_CNT_PARAMS 0 0) 2
def ur4 (c : Nat) (op : Nat := 2) := (ur3' c op).workPut (ur1 c op).1 (parseChart ((ur3' c op).fuChart 0 (urd op))) (urd op) ((ur3' c op).fuTide 0 (urd op)) (((ur3 c op).1.getD []).zipIdx)
def badC : Nat := chart 0 (hb+0x200000) - 2^11*2^(8*0x50)
def hd : Nat := 0x20000100000
def cbase : Nat := 0x20000200000
def pbase : Nat := 0x20000300000
def rdy (s : State := S0) : State := (List.range 4).foldl (fun s c => w s [(Reg.PLT_CORE c, Fd.PLT_CORE_READY, 1)]) (w s [(Reg.BOOT_STATUS, Fd.BOOT_STATUS_READY, 1),(Reg.BOOT_STATUS, Fd.BOOT_STATUS_STAGE, 8)])
def hdrS (s : State := S0) : State := put (put (put s hd 8 (0x52504350 + 3*2^32 + 4*2^48 + 2*2^56)) (hd+8) 8 cbase) (hd+16) 8 pbase
def entS (opc : Nat) (s : State) : State := put (put s (hd+24) 4 1) cbase 64 (opc + 77*2^64 + 5*2^128)
def opS (s : State := S0) : State := (put (hdrS (rdy s)) (hd+46) 1 1).setSession 3 (some ⟨hd, 2, 0xFF⟩)
def inB (m : Nat) (n : Nat) (s : State) : State := (List.range 16).foldl (fun s i => s.setReg (Reg.PLT_MBX_IN m i) (BitVec.ofNat 32 (n / 2^(32*i)))) s
def ring (m : Nat) (s : State) : State := w s [(Reg.PLT_MBX_DB m, Fd.PLT_MBX_DB_IN_RING, 1)]
def helloN (fl maj : Nat) : Nat := 1 + fl*2^8 + maj*2^16 + 3*2^32 + hd*2^64 + 0xFFFF*2^128
def cmdS (src : PcpSrc) (q : Bool) (opc : Nat := 3) : Cmd := ⟨src, opc, 2, 0xFF, q, 0xABCD, [0,0,0,0,0,0], 0, some (5, 7, 9)⟩
def inf (c : Cmd) (s : State) : State := (s.setInflight hd 37 true).setCmds [c]
abbrev U6 : PcpSrc := .urgent 6
def cm (opc : Nat) (args : List Nat) (stage : Nat := 0) (ctx : Nat := 2) : Cmd := ⟨.urgent 6, opc, ctx, 0xFFF, false, 0xAB, args ++ List.replicate (6-args.length) 0, stage, none⟩
def cS (c : Cmd) (s : State := S0) : State := (rdy s).setCmds [c]
def mgr (s : State) : State := { selfS s with fw := { (selfS s).fw with manager := 8 } }
def halt (s : State := S0) : State := w (tS 3 (mgr loadS)) [(Reg.TIDE_BCN_VERDICT, Fd.TIDE_BCN_VERDICT_VERDICT, 4)]
def al : Alloc := { ctx := 2, va := 0x400000, pa := hb+0x40000000, bytes := 0x400000, giga := false, mapped := false, root := 0x400000 }
def alS (s : State := S0) : State := { s with fw := { s.fw with allocs := [al] } }
def ctxS (s : State := S0) : State := s.openCtx 2
def amv := ((cS (cm 0x0101 [0x400000, 0xFF02]) ctxS).allocMem 2 2 0xFF 0x400000 false)
def rowU : Nat := Reg.ISL_SEQ_CTL 3
def cDat (a : Nat) (s : State := S0) : State := put s 0x20000400000 128 a
def plain : Nat := chart 0 0 - 2^11*2^(8*0x50)
def chS1 (a : Nat) (opc : Nat) (arg1 : Nat := 3 + 5*2^8) : State := cS (cm opc [0x20000400000, arg1]) (ctxS (cDat a))
def plS := (chS1 plain 0x0203).placeLocal 2 (putFields ((chS1 plain 0x0203).memNat 0x20000400000 128) [(0x50, 12, 4, 2), (0x50, 31, 1, 1)])
def bL (s : State := S0) : State := put (loadS) 0x20000400000 16 (5 + 0*2^8 + 7*2^9 + (6 + 2^8)*2^64)
def w8lock : State := (List.range 8).foldl (fun s u => s.setFld (fuuReg u Reg.FUU_STATE) Fd.FUU_STATE_LOCK 1) S0
def ptv (s : State) (u n : Nat) : State := { s with fw := { s.fw with unitSeq := [(u, n)], unitLast := [(u, s.unitState u)] } }
def ev (cls typ unit code : Nat) : FaultEvent := { cls := BitVec.ofNat 8 cls, typ := BitVec.ofNat 8 typ, unit := BitVec.ofNat 16 unit, lisl := 3, sctx := 0, code := BitVec.ofNat 16 code, info := 0, detail0 := 0x10000001234, detail1 := 0 }
def ents (n : Nat) (u c t : Nat) : State := { S0 with fw := { hist := { ents := List.replicate n ⟨u, t, c, 0, 0, 5, false⟩ } } }
def dueS (s : State := S0) : State := { s with cycle := 940000000 * 86400 }
def defS (s : State := S0) : State := { dueS s with fw := { (dueS s).fw with deferred := [(5, 0)], hist := { policy := 24 + 3 * 2^16 + 3 * 2 ^ 32 + 30 * 2 ^ 40 + 3 * 2 ^ 48 + 8 * 2 ^ 56 } } }
def lateS (s : State := S0) : State := let s := defS s; { s with cycle := 940000000 * 172800, fw := { s.fw with imgSeq := 4, unloadImg := 4, imgAt := 172000 } }
def blt : List Byte := leBytes 64 (2 ^ 192) ++ leBytes 64 (1 + 3 * 2 ^ 8 + 128 * 2 ^ 96 + 8 * 2 ^ 128) ++ leBytes 8 0x3F8000003F800000
def badS (s : State) : State := { s with fw := { s.fw with builtin := blt } }
def cr (a b : Bool) (n : Nat := 7) : CaseRun := { case := BitVec.ofNat 16 n, rows := 1, first := leBytes 8 (if a then 0x3F8000003F800000 else 0), second := leBytes 8 (if b then 0x3F8000003F800000 else 0) }
def cas (kind : Nat) : TestCase := { num := 7, kind := kind, level := 3, target := 0, prog := leBytes 4 77, refs := leBytes 8 0x3F8000003F800000, opd := [], seed := 5, digest := 9 }
def suS (kind : Nat) (s : State := S0) : State := { s with fw := { s.fw with suite := [cas kind] } }
def idxS (s : State := S0) : State := s.idxAppend 1 4 2048
def stg (n : Nat) (s : State := S0) : State := w s [(Reg.BOOT_STATUS, Fd.BOOT_STATUS_STAGE, n)]
def flS (op dev off len : Nat) : State := w { put (put S0 0x20000000 300 (2^2400-1-0xF0F0F0)) 0x400000 300 (2^2400 / 7) with boot := { flashOp := some ⟨op, dev, off, 0x400000, len⟩ } } [(Reg.BOOT_FL_CTL, Fd.BOOT_FL_CTL_BUSY, 1)]
def ownSec (kind : Nat) (len : Nat) (s : State := S0) : State := put (put (put s (imgBase 0 + 8) 4 1000) (imgBase 0 + 1016) 4 1) (imgBase 0 + 1064) 64 (kind + 2000 * 2^64 + len*2^128 + 0x20000400000 * 2^192 )
def okSec (kind : Nat) (s : State := S0) : State := let s := put (ownSec kind 40 s) (imgBase 0 + 2000) 40 12345; s.setBytes (imgBase 0 + 1064 + 32) (shake256 (s.secBytes (imgBase 0) (imgBase 0 + 1064)) 32)
def ph (n : Nat) (lost : List Clock := []) (rst : Bool := true) (s : State := S0) : State := { s with power := { s.power with phase := n, lost := lost, rstN := rst } }
def lnk (s : State := S0) : State := w s [(Reg.MGT_STATUS, Fd.MGT_STATUS_MLINK, 1), (Reg.MGT_STATUS, Fd.MGT_STATUS_PLINK, 1)]
def mf (len addr : Nat) (data : List Byte) (same : Bool := false) (src : Nat := 0) : MgmtFrame := { src := BitVec.ofNat 48 src, len := BitVec.ofNat 16 len, tag := 9, addr := BitVec.ofNat 64 addr, data := data, pilotSameCycle := same }
def dirty (s : State := S0) : State := put (put ((((lnk s).setReg (Reg.MGT_WIN_LO 2) 0x400000).setReg (Reg.MGT_WIN_HI 2) 0x200).setFld (Reg.MGT_WIN_SIZE 2) Fd.MGT_WIN_SIZE_SIZE 1) 0x20000400000 8 77) 0x40000000 4 99
theorem okE_eq {ε α : Type} {d : α} (x : Except ε α × State) (h : x.1.toBool = true) : x = (.ok (okE d x), x.2) := by
  obtain ⟨_ | _, _⟩ := x
  · cases h
  · rfl
theorem findWork_all {s : State} {n : Nat} (h : ((s.findWork n).all fun x => x.out == 0) = true) :
    ∀ x, s.findWork n = some x → x.out = 0 := fun x hx => by simpa [hx] using h
def memOk (s : State) (a n : Nat) (wr : Bool) : Bool :=
  (List.range n).all fun k => (match region (a + k) with | .regs => false | .acc _ => false | .pcie => false | _ => true)
    && s.accessKind (a + k) wr == 0
theorem mgmt_mem {s : State} {a n : Nat} {wr : Bool} (h : memOk s a n wr = true) : ∀ x, a ≤ x → x < a + n →
    region x ≠ .regs ∧ (∀ p, region x ≠ .acc p) ∧ region x ≠ .pcie ∧ s.accessKind x wr = 0 := by
  intro x h1 h2
  have := List.all_eq_true.1 h (x - a) (List.mem_range.2 (by omega))
  rw [show a + (x - a) = x by omega, Bool.and_eq_true, beq_iff_eq] at this
  refine ⟨?_, ?_, ?_, this.2⟩ <;> intros <;> intro hr <;> simp [hr] at this
theorem laneO_eq {r : ShoalRun} (h : (laneO r).1.isSome = true) : laneO r = (some (laneR r), (laneO r).2) := by
  unfold laneR
  match h' : laneO r with
  | (some l, u) => rfl
  | (none, u) => rw [h'] at h; cases h
theorem tile_zero (t : Nat) : (tileBytes 0 t (List.replicate 1024 0)).1.length = 144 ∧ (tileBytes 0 t (List.replicate 1024 0)).2 = false := by
  have h : ∀ b, (List.replicate 1024 0).getD b 0 = 0 := fun b => by
    simp only [List.getD_eq_getElem?_getD, List.getElem?_replicate]; split <;> rfl
  have hn : (List.range 1024).filter (fun b => !((List.replicate 1024 0).getD b 0 % 2 ^ (fmtBits 0 - 1) == 0)) = [] :=
    List.filter_eq_nil_iff.2 fun b _ => by rw [h b]; simp
  have hb : ∀ n v, (leBytes n v).length = n := fun n => by induction n <;> simp_all [leBytes]
  unfold tileBytes
  simp only [show ((0 : Nat) = 7) = False by simp, if_false, hn]
  constructor
  · simp only [List.length_nil, show decide (0 > 1024 - 128 / fmtBytes 0) = false from rfl, Bool.false_eq_true, if_false,
      List.length_append, hb, List.flatMap_nil]
  · rfl

theorem tile_dense : (tileBytes 1 100 valsD).2 = true := by
  have h : ∀ b, b < 1024 → valsD.getD b 0 = 1 := fun b hb => by
    simp only [valsD, List.getD_eq_getElem?_getD, List.getElem?_replicate, hb, if_true, Option.getD_some]
  have hn : (List.range 1024).filter (fun b => !(valsD.getD b 0 % 2 ^ (fmtBits 1 - 1) == 0)) = List.range 1024 :=
    List.filter_eq_self.2 fun b hb => by rw [h b (List.mem_range.1 hb)]; rfl
  unfold tileBytes
  simp only [show ((1 : Nat) = 7) = False by simp, if_false, hn, List.length_range]
  rfl
theorem tile_packed : (tileBytes 1 100 vals1).2 = false := by
  have h : ∀ b, vals1.getD b 0 = 0 := fun b => by
    simp only [vals1, List.getD_eq_getElem?_getD, List.getElem?_replicate]; split <;> rfl
  have hn : (List.range 1024).filter (fun b => !(vals1.getD b 0 % 2 ^ (fmtBits 1 - 1) == 0)) = [] :=
    List.filter_eq_nil_iff.2 fun b _ => by rw [h b]; simp
  unfold tileBytes
  simp only [show ((1 : Nat) = 7) = False by simp, if_false, hn]
  rfl

/-! ### Witnesses of the hypotheses of the statements -/

/-- The operand fields of s3 := s1 op s2 (R119). -/
def r3 : Nat := 3 * 2 ^ 12 + 1 * 2 ^ 17 + 2 * 2 ^ 22

/-- ScalarResults, part AluResults: each clause has its hypotheses together. -/
theorem test_hyps_AluResults : ∀ o ∈ List.range 12, Ready (run1 5 1 (0x10 + o + r3)) 5 1 (0x10 + o) (aluSrcs ((run1 5 1 (0x10 + o + r3)).iword 5 1)) ∧ rsvInfo (maskOf 27 12 ||| maskOf 63 32) [] ((run1 5 1 (0x10 + o + r3)).iword 5 1) = none :=
  by decide +kernel

/-- ScalarResults, part ScalarMoves: each clause has its hypotheses together. -/
theorem test_hyps_ScalarMoves :
    (∃ p : Fin 144, ∃ c : Fin 2, ∃ s : State, (let w := s.iword p c; (Ready s p c 0x00 []) ∧ (rsvInfo 0 [] w = none)))
    ∧ (∃ p : Fin 144, ∃ c : Fin 2, ∃ s : State, (let w := s.iword p c; (Ready s p c 0x1F []) ∧ (rsvInfo (maskOf 16 12 ||| maskOf 127 64) [] w = none)))
    ∧ (∃ p : Fin 144, ∃ c : Fin 2, ∃ s : State, ∃ v : Nat, (let w := s.iword p c; (Ready s p c 0x1D []) ∧ (rsvInfo (maskOf 16 12 ||| maskOf 35 32) [] w = none) ∧ ((ifld w 35 32 = 0 ∧ v = (s.reg (Reg.ISL_SEQ_TIDE p)).toNat) ∨ (ifld w 35 32 = 1 ∧ v = s.logicalOf p) ∨ (ifld w 35 32 = 2 ∧ v = s.selfId (quarterOf p)) ∨ (ifld w 35 32 = 3 ∧ v = c) ∨ (ifld w 35 32 = 4 ∧ v = s.mctx p c) ∨ (5 ≤ ifld w 35 32 ∧ ifld w 35 32 ≤ 8 ∧ v = (((s.loops p c)[ifld w 35 32 - 5]?).map LoopEnt.iter).getD 0))))
    ∧ (∃ p : Fin 144, ∃ c : Fin 2, ∃ s : State, ∃ v : Bool, (let w := s.iword p c; (Ready s p c 0x08 (ifld w 19 15 :: (if ifld w 25 25 = 1 then [] else [ifld w 24 20]))) ∧ (rsvInfo (maskOf 29 12 ||| maskOf 63 32) [] w = none) ∧ (ifld w 14 12 ≠ 0) ∧ (let a := BitVec.ofNat 64 (s.sreg p c (ifld w 19 15));          let b := operandB p c s w (ifld w 24 20) (ifld w 25 25);          (ifld w 29 26 = 0 ∧ v = decide (a = b)) ∨ (ifld w 29 26 = 1 ∧ v = decide (a ≠ b)) ∨ (ifld w 29 26 = 2 ∧ v = decide (a.toInt < b.toInt)) ∨ (ifld w 29 26 = 3 ∧ v = decide (b.toInt ≤ a.toInt)) ∨ (ifld w 29 26 = 4 ∧ v = decide (a.toNat < b.toNat)) ∨ (ifld w 29 26 = 5 ∧ v = decide (b.toNat ≤ a.toNat)))))
    ∧ (∃ p : Fin 144, ∃ c : Fin 2, ∃ s : State, ∃ v : Bool, (let w := s.iword p c; (Ready s p c 0x09 []) ∧ (rsvInfo (maskOf 23 12) [] w = none) ∧ (ifld w 14 12 ≠ 0) ∧ (let a := if ifld w 23 23 = 1 then !s.pred p c (ifld w 17 15) else s.pred p c (ifld w 17 15);          let b := s.pred p c (ifld w 20 18);          (ifld w 22 21 = 0 ∧ v = (a && b)) ∨ (ifld w 22 21 = 1 ∧ v = (a || b)) ∨ (ifld w 22 21 = 2 ∧ v = (a != b)) ∨ (ifld w 22 21 = 3 ∧ v = (a && !b))))) := by
  refine ⟨?_, ?_, ?_, ?_, ?_⟩
  · exact ⟨5, 1, run1 5 1 0, by decide +kernel⟩
  · exact ⟨5, 1, run1 5 1 (0x1F + 3*2^12 + 77*2^64), by decide +kernel⟩
  · exact ⟨5, 1, run1 5 1 (0x1D + 3*2^12+3*2^32), 1, by decide +kernel⟩
  · exact ⟨5, 1, run1 5 1 (0x08 + 1*2^12+2*2^26 + 2^25 + 5*2^32), true, by decide +kernel⟩
  · exact ⟨5, 1, run1 5 1 (9+1*2^12+1*2^21), true, by decide +kernel⟩

/-- ScalarResults, part ScalarRegisters: each clause has its hypotheses together. -/
theorem test_hyps_ScalarRegisters :
    (∃ i : Fin 8, (i.val ≠ 0))
    ∧ (∃ i : Fin 8, ∃ j : Fin 8, (i.val ≠ 0) ∧ (j ≠ i)) := by
  refine ⟨?_, ?_⟩
  · exact ⟨3, by decide +kernel⟩
  · exact ⟨3, 4, by decide +kernel⟩

/-- IssueAndEndProcessing, part IssueFrame: each clause has its hypotheses together. -/
theorem test_hyps_IssueFrame :
    (∃ p : Fin 144, ∃ c : Fin 2, ∃ s : State, (let n := (endProc (s.pc p c) (s.loops p c)).2; (n < 16384)))
    ∧ (∃ p : Fin 144, ∃ c : Fin 2, ∃ s : State, (Picked s p c) ∧ (opc (s.iword p c) = 0x10) ∧ (s.pred p c (ifld (s.iword p c) 10 8) = (ifld (s.iword p c) 11 11 == 1))) := by
  refine ⟨?_, ?_⟩
  · exact ⟨5, 1, run1 5 1 0, by decide +kernel⟩
  · exact ⟨5, 1, run1 5 1 (0x10 + 1*2^8*0+2^11), by decide +kernel⟩

/-- IssueAndEndProcessing, part EndProcessing: each clause has its hypotheses together. -/
theorem test_hyps_EndProcessing :
    (∃ pc : Nat, ∃ l : LoopEnt, (l.stop ≠ pc))
    ∧ (∃ pc : Nat, ∃ l : LoopEnt, (l.stop = pc) ∧ (l.iter < l.count) ∧ (l.count < 2 ^ 32) ∧ (l.iter + 1 ≠ l.count))
    ∧ (∃ pc : Nat, ∃ l : LoopEnt, (l.stop = pc) ∧ (l.count < 2 ^ 32) ∧ (l.iter + 1 = l.count)) := by
  refine ⟨?_, ?_, ?_⟩
  · exact ⟨5, ⟨1,6,3,1⟩, by decide +kernel⟩
  · exact ⟨5, ⟨1,5,3,1⟩, by decide +kernel⟩
  · exact ⟨5, ⟨1,5,3,2⟩, by decide +kernel⟩

/-- ControlFlowAndFaults, part ControlFlow: each clause has its hypotheses together. -/
theorem test_hyps_ControlFlow :
    (∃ p : Fin 144, ∃ c : Fin 2, ∃ s : State, (let w := s.iword p c; (let pc := s.pc p c; (Ready s p c 0x02 []) ∧ (rsvInfo (maskOf 25 12) [] w = none) ∧ (∀ l ∈ (endProc pc (s.loops p c)).1, l.start ≤ ifld w 25 12 ∧ ifld w 25 12 ≤ l.stop))))
    ∧ (∃ p : Fin 144, ∃ c : Fin 2, ∃ s : State, ∃ n : Nat, (let w := s.iword p c; (let pc := s.pc p c; (Ready s p c 0x03 [ifld w 30 26]) ∧ (rsvInfo (maskOf 30 12 ||| maskOf 63 32) [] w = none) ∧ (n = (if ifld w 30 26 = 0 then ifld w 63 32 else s.sreg p c (ifld w 30 26) % 2 ^ 32)) ∧ (pc < ifld w 25 12) ∧ ((s.loops p c).length < 4) ∧ (∀ l ∈ s.loops p c, ifld w 25 12 ≤ l.stop))))
    ∧ (∃ p : Fin 144, ∃ c : Fin 2, ∃ s : State, (let w := s.iword p c; (Ready s p c 0x04 []) ∧ (rsvInfo (maskOf 17 12) [] w = none)))
    ∧ (∃ p : Fin 144, ∃ c : Fin 2, ∃ s : State, (let w := s.iword p c; (Ready s p c 0x05 []) ∧ (rsvInfo (maskOf 12 12 ||| maskOf 63 32) [] w = none) ∧ (ifld w 12 12 = 1 → ifld w 63 32 = (s.reg (Reg.ISL_SEQ_TIDE p)).toNat)))
    ∧ (∃ p : Fin 144, ∃ c : Fin 2, ∃ s : State, (let w := s.iword p c; (Ready s p c 0x01 []) ∧ (rsvInfo 0 [] w = none)))
    ∧ (∃ p : Fin 144, ∃ c : Fin 2, ∃ s : State, (let w := s.iword p c; (Ready s p c 0x06 []) ∧ (rsvInfo 0 [] w = none))) := by
  refine ⟨?_, ?_, ?_, ?_, ?_, ?_⟩
  · exact ⟨5, 1, run1 5 1 (2+9*2^12), by decide +kernel⟩
  · exact ⟨5, 1, run1 5 1 (3+9*2^12+3*2^32), 3, by decide +kernel⟩
  · exact ⟨5, 1, run1 5 1 (4+63*2^12), by decide +kernel⟩
  · exact ⟨5, 1, run1 5 1 (5+2^12), by decide +kernel⟩
  · exact ⟨5, 1, run1 5 1 1, by decide +kernel⟩
  · exact ⟨5, 1, run1 5 1 6, by decide +kernel⟩

/-- ControlFlowAndFaults, part IssueFaults: each clause has its hypotheses together. -/
theorem test_hyps_IssueFaults :
    (∃ p : Fin 144, ∃ c : Fin 2, ∃ s : State, (Picked s p c) ∧ (definedOpc (opc (s.iword p c)) = false))
    ∧ (∃ p : Fin 144, ∃ c : Fin 2, ∃ s : State, ∃ b : Nat, (Picked s p c) ∧ (Ready s p c 0x00 []) ∧ (rsvInfo 0 [] (s.iword p c) = some b))
    ∧ (∃ p : Fin 144, ∃ c : Fin 2, ∃ s : State, ∃ code : Nat, ∃ pc : Nat, ∃ info : Nat, (Picked s p c) ∧ (code < 256) ∧ (pc < 16384) ∧ (info < 2 ^ 32) ∧ (code ≠ 0x10) ∧ (s.bit (Reg.ISL_SEQ_FAULT p c) Fd.ISL_SEQ_FAULT_VALID = false)) := by
  refine ⟨?_, ?_, ?_⟩
  · exact ⟨5, 1, run1 5 1 7, by decide +kernel⟩
  · exact ⟨5, 1, run1 5 1 (2^40), 40, by decide +kernel⟩
  · exact ⟨5, 1, run1 5 1 7, 1, 8, 7, by decide +kernel⟩

/-- ScalarMemoryAccesses, part ScalarMemory: each clause has its hypotheses together. -/
theorem test_hyps_ScalarMemory :
    (∃ p : Fin 144, ∃ c : Fin 2, ∃ s : State, ∃ pa, ∃ u, (let w := s.iword p c; (let t := s.running p c; (let va : Int := (s.sreg p c (ifld w 21 17) : Int) + sext 32 (ifld w 63 32); (let n := if ifld w 23 22 = 1 then 8 else 4; (Ready s p c 0x20 [ifld w 21 17]) ∧ (rsvInfo (maskOf 23 12 ||| maskOf 63 32) [] w = none) ∧ (ifld w 23 22 ≠ 3) ∧ (t.scalarAddr p c va n false = (.ok pa, u)))))))
    ∧ (∃ p : Fin 144, ∃ c : Fin 2, ∃ s : State, ∃ pa, ∃ u, (let w := s.iword p c; (let t := s.running p c; (let va : Int := (s.sreg p c (ifld w 21 17) : Int) + sext 32 (ifld w 63 32); (let n := if ifld w 23 22 = 1 then 8 else 4; (Ready s p c 0x21 [ifld w 16 12, ifld w 21 17]) ∧ (rsvInfo (maskOf 23 12 ||| maskOf 63 32) [] w = none) ∧ (ifld w 23 22 ≠ 3) ∧ (t.scalarAddr p c va n true = (.ok pa, u)))))))
    ∧ (∃ p : Fin 144, ∃ c : Fin 2, ∃ s : State, ∃ pa, ∃ u, (let w := s.iword p c; (let t := s.running p c; (let va : Int := (s.sreg p c (ifld w 21 17) : Int) + sext 32 (ifld w 63 32); (Ready s p c 0x22 [ifld w 21 17]) ∧ (rsvInfo (maskOf 30 12 ||| maskOf 109 32) [] w = none) ∧ (ifld w 22 22 = 1 → ifld w 30 23 < s.logicalCount) ∧ (t.scalarAddr p c va 4 false = (.ok pa, u))))))
    ∧ (∃ p : Fin 144, ∃ c : Fin 2, ∃ s : State, ∃ rd, ∃ size, ∃ val, ∃ lpc, ∃ rest, ((s.ctx p c).loads = ⟨rd, .lds size, val, lpc⟩ :: rest))
    ∧ (∃ p : Fin 144, ∃ c : Fin 2, ∃ s : State, ∃ rd, ∃ mx, ∃ cbv, ∃ lisl, ∃ bidx, ∃ val, ∃ lpc, ∃ rest, ((s.ctx p c).loads = ⟨rd, .shape mx cbv lisl bidx, val, lpc⟩ :: rest) ∧ (val ≤ mx))
    ∧ (∃ p : Fin 144, ∃ c : Fin 2, ∃ s : State, ∃ rd, ∃ mx, ∃ cbv, ∃ lisl, ∃ bidx, ∃ val, ∃ lpc, ∃ rest, ((s.ctx p c).loads = ⟨rd, .shape mx cbv lisl bidx, val, lpc⟩ :: rest) ∧ (mx < val)) := by
  refine ⟨?_, ?_, ?_, ?_, ?_, ?_⟩
  · exact ⟨5, 1, run1 5 1 (0x20+3*2^12+8*2^32) tlbS, 0x10000000008, (run1 5 1 (0x20+3*2^12+8*2^32) tlbS).running 5 1, by decide +kernel⟩
  · exact ⟨5, 1, run1 5 1 (0x21+3*2^12+8*2^32) tlbS, 0x10000000008, (run1 5 1 (0x21+3*2^12+8*2^32) tlbS).running 5 1, by decide +kernel⟩
  · exact ⟨5, 1, run1 5 1 (0x22+3*2^12+8*2^32) tlbS, 0x10000000008, (run1 5 1 (0x22+3*2^12+8*2^32) tlbS).running 5 1, by decide +kernel⟩
  · exact ⟨5, 1, ldS ⟨3,.lds 2,0xFFFFFFFE,7⟩, 3, 2, 0xFFFFFFFE, 7, ([]:List Load), by decide +kernel⟩
  · exact ⟨5, 1, ldS ⟨3,.shape 100 true 2 5,99,7⟩, 3, 100, true, 2, 5, 99, 7, ([]:List Load), by decide +kernel⟩
  · exact ⟨5, 1, ldS ⟨3,.shape 100 false 2 5,101,7⟩, 3, 100, false, 2, 5, 101, 7, ([]:List Load), by decide +kernel⟩

/-- ScalarMemoryAccesses, part ScalarAlign: each clause has its hypotheses together. -/
theorem test_hyps_ScalarAlign :
    (∃ va : Int, ∃ n : Nat, (n = 4 ∨ n = 8) ∧ (va % (n : Int) ≠ 0))
    ∧ (∃ p : Fin 144, ∃ c : Fin 2, ∃ s : State, ∃ va : Int, ∃ n : Nat, ∃ wr : Bool, ∃ pa, ∃ t, (n = 4 ∨ n = 8) ∧ (s.scalarAddr p c va n wr = (.ok pa, t))) := by
  refine ⟨?_, ?_⟩
  · exact ⟨6, 4, by decide +kernel⟩
  · exact ⟨5, 1, tlbS, 8, 8, true, 0x10000000008, (tlbS.scalarAddr 5 1 8 8 true).2, by decide +kernel⟩

/-- EngineIssue: each clause has its hypotheses together. -/
theorem test_hyps_EngineIssue :
    (∃ p : Fin 144, ∃ c : Fin 2, ∃ s : State, (let w := s.iword p c; (let t := s.running p c; (let pc := s.pc p c; (let id := s.nextWork; (let x := s.isl p; (Ready s p c 0x30 ([ifld w 71 67, ifld w 76 72, ifld w 81 77, ifld w 96 92] ++ originRegs (ifld w 86 82) ++ originRegs (ifld w 91 87))) ∧ (mmRsv w = none) ∧ (ifld w 20 17 ≤ 8) ∧ (ifld w 24 21 ≤ 8) ∧ (x.mmWaiting < 4) ∧ (t.mmParam p (t.mmOf p c pc id w) = none)))))))
    ∧ (∃ p : Fin 144, ∃ c : Fin 2, ∃ s : State, ∃ trow : Nat, ∃ n : Nat, (let w := s.iword p c; (let x := s.isl p; (Ready s p c 0x40 ([ifld w 33 29, ifld w 52 48] ++ originRegs (ifld w 63 59))) ∧ (rsvInfo (maskOf 63 12) [] w = none) ∧ (ifld w 63 59 ≠ 31) ∧ (x.ebbq.length < 8) ∧ (trow = ifld w 28 16 + s.sreg p c (ifld w 33 29) % 2 ^ 13) ∧ (n = (if ifld w 52 48 = 0 then ifld w 47 34 else s.sreg p c (ifld w 52 48) % 2 ^ 14)) ∧ (0 < n) ∧ (n ≤ 8192) ∧ (trow + n - 1 ≤ 8191))))
    ∧ (∃ p : Fin 144, ∃ c : Fin 2, ∃ s : State, (let w := s.iword p c; (let va : Int := (s.sreg p c (ifld w 20 16) : Int) + sext 32 (ifld w 63 32); (Ready s p c 0x60 [ifld w 20 16]) ∧ (rsvInfo (maskOf 13 12 ||| maskOf 20 16 ||| maskOf 63 32) [] w = none) ∧ (va % 64 = 0) ∧ ((s.fry (ferryOf p w)).queue.length < 64))))
    ∧ (∃ p : Fin 144, ∃ c : Fin 2, ∃ s : State, ∃ i : ShoalPhase → Instr, ∃ sop : Nat, (let w := s.iword p c; (let x := s.isl p; (let va : Int := (s.sreg p c (ifld w 20 16) : Int) + sext 32 (ifld w 63 32); ((i, sop) ∈ [(Instr.gather p, 0), (Instr.scatter p, 1), (Instr.shoalMerge p, 2), (Instr.segred p, 3), (Instr.topk p, 4), (Instr.pack p, 5), (Instr.unpack p, 6), (Instr.spmm p, 7)]) ∧ (Ready s p c 0x50 [ifld w 20 16]) ∧ (rsvInfo (maskOf 20 12 ||| maskOf 63 32) [] w = none) ∧ (ifld w 15 12 = sop) ∧ (va % 64 = 0) ∧ (x.shlq.length < 8))))) := by
  refine ⟨?_, ?_, ?_, ?_⟩
  · exact ⟨5, 1, ((run1 5 1 (0x30+1*2^67+2*2^72+3*2^77+3*2^17+3*2^21)).setSreg 5 1 1 16).setSreg 5 1 2 32 |>.setSreg 5 1 3 64, by decide +kernel⟩
  · exact ⟨5, 1, run1 5 1 (0x40+3*2^16+2*2^34), 3, 2, by decide +kernel⟩
  · exact ⟨5, 1, run1 5 1 (0x60+2^12+64*2^32), by decide +kernel⟩
  · exact ⟨5, 1, run1 5 1 (0x50+7*2^12+64*2^32), Instr.spmm 5, 7, by refine ⟨by simp, ?_⟩; decide +kernel⟩

/-- BuoyOperations, part BuoyIssue: each clause has its hypotheses together. -/
theorem test_hyps_BuoyIssue :
    (∃ p : Fin 144, ∃ c : Fin 2, ∃ s : State, ∃ rst : Bool, ∃ i : Instr, (let w := s.iword p c; (let l := ifld w 30 23; (let x := s.ctx p c; ((rst, i) = (false, .bsig p c) ∨ (rst, i) = (true, .brst p c)) ∧ (Ready s p c (if rst then 0x72 else 0x70) []) ∧ (rsvInfo (if rst then maskOf 50 12 else maskOf 50 12 ||| maskOf 95 64) [] w = none) ∧ (l < s.logicalCount) ∧ (x.sigq.length < 16)))))
    ∧ (∃ p : Fin 144, ∃ c : Fin 2, ∃ s : State, (let w := s.iword p c; (let l := ifld w 30 23; (Ready s p c 0x71 []) ∧ (rsvInfo (maskOf 44 23 ||| maskOf 95 64) [] w = none) ∧ (l < s.logicalCount) ∧ (sext 32 (ifld w 95 64) ≤ (s.buoy (s.home l) (ifld w 44 31) : Int)))))
    ∧ (∃ p : Fin 144, ∃ c : Fin 2, ∃ s : State, (let w := s.iword p c; (let l := ifld w 30 23; (Ready s p c 0x71 []) ∧ (rsvInfo (maskOf 44 23 ||| maskOf 95 64) [] w = none) ∧ (l < s.logicalCount) ∧ ((s.buoy (s.home l) (ifld w 44 31) : Int) < sext 32 (ifld w 95 64)))))
    ∧ (∃ p : Fin 144, ∃ c : Fin 2, ∃ s : State, ∃ g, ∃ r, (let x := s.ctx p c; (x.sigq = g :: r) ∧ (s.workBefore p c g.after g.id = true)))
    ∧ (∃ p : Fin 144, ∃ c : Fin 2, ∃ s : State, ∃ g, ∃ r, ∃ n, (let x := s.ctx p c; (x.sigq = g :: r) ∧ (s.workBefore p c g.after g.id = false) ∧ (g.rem = true → g.mod = s.selfId (quarterOf p)) ∧ (n = 0 ∨ s.home g.lisl = quarterOf p)))
    ∧ (∃ p : Fin 144, ∃ c : Fin 2, ∃ s : State, ∃ g, ∃ r, (let x := s.ctx p c; (x.sigq = g :: r) ∧ (s.workBefore p c g.after g.id = false) ∧ (g.rem = true) ∧ (g.mod ≠ s.selfId (quarterOf p))))
    ∧ (∃ p : Fin 144, ∃ c : Fin 2, ∃ s : State, ∃ g, ∃ r, ∃ n : Nat, (let x := s.ctx p c; (x.sigq = g :: r) ∧ (s.workBefore p c g.after g.id = false) ∧ (g.rem = true → g.mod = s.selfId (quarterOf p)) ∧ (s.home g.lisl ≠ quarterOf p) ∧ (0 < n))) := by
  refine ⟨?_, ?_, ?_, ?_, ?_, ?_, ?_⟩
  · exact ⟨5, 1, run1 5 1 (0x72+3*2^31), true, .brst 5 1, by decide +kernel⟩
  · exact ⟨5, 1, run1 5 1 (0x71+3*2^31), by decide +kernel⟩
  · exact ⟨5, 1, run1 5 1 (0x71+3*2^31+2*2^64), by decide +kernel⟩
  · exact ⟨5, 1, (sigS ⟨2,false,false,0,3,4,1,63,0⟩).addWork 0 (.ctx 5 1) 0 |>.2, ⟨2,false,false,0,3,4,1,63,0⟩, [], by decide +kernel⟩
  · exact ⟨5, 1, (sigS ⟨2,false,false,0,3,4,1,63,0⟩), ⟨2,false,false,0,3,4,1,63,0⟩, [], 0, by decide +kernel⟩
  · exact ⟨5, 1, (sigS ⟨2,false,true,9,3,4,1,63,0⟩), ⟨2,false,true,9,3,4,1,63,0⟩, [], by decide +kernel⟩
  · exact ⟨5, 1, (sigS ⟨2,false,false,0,41,4,1,63,0⟩), ⟨2,false,false,0,41,4,1,63,0⟩, [], 1, by decide +kernel⟩

/-- BuoyOperations, part BuoyUnit: each clause has its hypotheses together. -/
theorem test_hyps_BuoyUnit : ∃ q : Fin 4, ∃ s : State, ∃ a : BuoyArr, ((s.qtr q).arrivals = [a]) ∧ (a.port < 44) ∧ (a.bidx < 16384) ∧ (a.answer = none) :=
  ⟨1, (arrS ⟨3,7,2,1,-5,0,3,1,9,none,none⟩ (S0.setBuoy 1 7 3)), ⟨3,7,2,1,-5,0,3,1,9,none,none⟩, by decide +kernel⟩

/-- BuoyOperations, part BuoyRelease: each clause has its hypotheses together. -/
theorem test_hyps_BuoyRelease :
    (∃ p : Fin 144, ∃ c : Fin 2, ∃ s : State, ∃ q : Fin 4, ∃ b, ∃ thr, (∀ k : Fin 4, k < q → (p.val, c.val) ∉ (s.qtr k).releases) ∧ ((p.val, c.val) ∈ (s.qtr q).releases) ∧ (s.ctxSt p c = 3) ∧ ((s.ctx p c).wait = .buoy b thr))
    ∧ (∃ p : Fin 144, ∃ c : Fin 2, ∃ s : State, (s.ctxSt p c = 3) ∧ ((s.ctx p c).waitReported = false) ∧ (s.fld (Reg.ISL_SEQ_WTO p) Fd.ISL_SEQ_WTO_LIMIT ≠ 0)) := by
  refine ⟨?_, ?_⟩
  · exact ⟨5, 1, ((S0.setCtx 5 1 {wait:=.buoy 3 2}).setSt 5 1 3).setQtr 0 {releases:=[(5,1)]}, 0, 3, 2, by decide +kernel⟩
  · exact ⟨5, 1, w (S0.setSt 5 1 3) [(Reg.ISL_SEQ_WTO 5,Fd.ISL_SEQ_WTO_LIMIT,9)], by decide +kernel⟩

/-- RunBitsAndHandWrites, part RunBits: each clause has its hypotheses together. -/
theorem test_hyps_RunBits :
    (∃ r : Requester, ∃ p : Fin 144, ∃ c : Fin 2, ∃ s : State, (s.up = true) ∧ (s.mayWrite r (Reg.ISL_SEQ_CTL p) = true) ∧ (s.ctxSt p c = 0 ∨ s.ctxSt p c = 5) ∧ (s.pstate p ≠ 6))
    ∧ (∃ r : Requester, ∃ p : Fin 144, ∃ c : Fin 2, ∃ s : State, (s.up = true) ∧ (s.mayWrite r (Reg.ISL_SEQ_CTL p) = true) ∧ (s.ctxSt p c = 1) ∧ ((s.ctx p c).wait = .none))
    ∧ (∃ r : Requester, ∃ p : Fin 144, ∃ s : State, (s.up = true) ∧ (s.mayWrite r (Reg.ISL_SEQ_CTL p) = false)) := by
  refine ⟨?_, ?_, ?_⟩
  · exact ⟨.debug, 5, 1, S0, by decide +kernel⟩
  · exact ⟨.debug, 5, 1, S0.setSt 5 1 1, by decide +kernel⟩
  · exact ⟨.shore 3, 5, S0, by decide +kernel⟩

/-- RunBitsAndHandWrites, part BuoyHand: each clause has its hypotheses together. -/
theorem test_hyps_BuoyHand :
    (∃ r : Requester, ∃ s : State, (s.up = true) ∧ ((∃ c, r = .pilot c) ∨ r = .debug))
    ∧ (∃ r : Requester, ∃ s : State, (s.up = true) ∧ ((∃ c, r = .shore c) ∨ r = .mgmt))
    ∧ (∃ r : Requester, ∃ q : Fin 4, ∃ s : State, (s.up = true) ∧ (s.mayWrite r (Reg.BUOY_DUMP_CTL q) = true) ∧ (s.bit (Reg.BUOY_DUMP_CTL q) Fd.BUOY_DUMP_CTL_GO = false))
    ∧ (∃ q : Fin 4, ∃ s : State, (s.up = true) ∧ (let a := s.addr48 (Reg.BUOY_DUMP_ADDR_LO q) (Reg.BUOY_DUMP_ADDR_HI q) + 32 * (s.qtr q).dumpPos; (s.bit (Reg.BUOY_DUMP_CTL q) Fd.BUOY_DUMP_CTL_GO = true) ∧ ((s.qtr q).arrivals = []) ∧ ((s.qtr q).dumpPos < 16383) ∧ (0x10000000000 ≤ a) ∧ (a + 32 ≤ 0x14800000000) ∧ (s.rangeKind a 32 true = 0))) := by
  refine ⟨?_, ?_, ?_, ?_⟩
  · exact ⟨.debug, S0, by decide +kernel⟩
  · exact ⟨.shore 0, S0, by decide +kernel⟩
  · exact ⟨.debug, 1, S0, by decide +kernel⟩
  · exact ⟨1, w S0 [(Reg.BUOY_DUMP_CTL 1, Fd.BUOY_DUMP_CTL_GO,1),(Reg.BUOY_DUMP_ADDR_HI 1,⟨0,16,.rw,0⟩,0x100)], by decide +kernel⟩

/-- ArrayAcceptsAndIssues, part ArrayAccepts: each clause has its hypotheses together. -/
theorem test_hyps_ArrayAccepts :
    (∃ p : Fin 144, ∃ s : State, ∃ o : MmOp, ∃ rest : List MmOp, ((s.isl p).mmq = o :: rest) ∧ (s.bit (Reg.ACC_STATUS p) Fd.ACC_STATUS_INIT_DONE = true) ∧ (∀ r ∈ (s.isl p).arr, r.stop = none → r.op.w ≤ r.nextLoad) ∧ (let ctx := s.mctx p o.c; (let a := (s.chartOf p ctx o.cha).1; (let b := (s.chartOf p ctx o.chb).1; (arrCheck a ctx o.fa = none) ∧ (arrCheck b ctx o.fb = none)))))
    ∧ (∃ p : Fin 144, ∃ s : State, ∃ o : MmOp, ∃ rest : List MmOp, ∃ code, ∃ w, ∃ c, ((s.isl p).mmq = o :: rest) ∧ (s.bit (Reg.ACC_STATUS p) Fd.ACC_STATUS_INIT_DONE = true) ∧ (∀ r ∈ (s.isl p).arr, r.stop = none → r.op.w ≤ r.nextLoad) ∧ (let ctx := s.mctx p o.c; (let a := (s.chartOf p ctx o.cha).1; (arrCheck a ctx o.fa = some code) ∧ (s.findWork o.id = some w) ∧ (w.src = .ctx p c) ∧ (c < 2)))) := by
  refine ⟨?_, ?_⟩
  · exact ⟨5, stA, mmA, ([]:List MmOp), by decide +kernel⟩
  · exact ⟨5, stB, mmA, ([]:List MmOp), 2, ⟨1,0,.ctx 5 0,0,false,0⟩, 0, by decide +kernel⟩

/-- ArrayAcceptsAndIssues, part ArrayLoadsAndIssues: each clause has its hypotheses together. -/
theorem test_hyps_ArrayLoadsAndIssues :
    (∃ p : Fin 144, ∃ s : State, ∃ r : MmRun, ∃ buf, ∃ cols, (let o := r.op; ((s.isl p).loader = some r) ∧ ((s.isl p).freeBuf o = some buf) ∧ (r.staged = some cols)))
    ∧ (∃ p : Fin 144, ∃ s : State, ∃ u : State, ∃ r : MmRun, ∃ es : List FElem, ∃ buf, (let o := r.op; ((s.isl p).loader = some r) ∧ ((s.isl p).freeBuf o = some buf) ∧ (r.staged = none) ∧ (s.readSet p r r.nextLoad = (.ok es, u))))
    ∧ (∃ p : Fin 144, ∃ s : State, ∃ u : State, ∃ r : MmRun, ∃ es : List FElem, ∃ w : WSet, (let o := r.op; ((s.isl p).issuer = some r) ∧ ((s.isl p).alignHeld r = false) ∧ ((s.isl p).drainHeld r = false) ∧ (s.withheld p = false) ∧ (r.sets.find? (·.idx == r.curSet) = some w) ∧ (let rows := o.rows r.curG; (let ks := o.ks (r.curSet % o.s); (let c := parseChart r.a; (s.fetch (arrAcc s p 0 o) c (if c.sparse then some (s.fld (Reg.SHL_CFG p) Fd.SHL_CFG_THRESH) else none) (rows.flatMap fun i => ks.map fun k => r.coordA (if o.mode = 2 then r.curG else 16 * r.curG + i) k i) = (.ok es, u)) ∧ (c.sparse = true) ∧ (r.skip = true) ∧ (r.adds = true) ∧ (∀ e ∈ es, e.zero = true))))))
    ∧ (∃ p : Fin 144, ∃ s : State, ∃ u : State, ∃ r : MmRun, ∃ es : List FElem, ∃ w : WSet, (let o := r.op; ((s.isl p).issuer = some r) ∧ ((s.isl p).alignHeld r = false) ∧ ((s.isl p).drainHeld r = false) ∧ (s.withheld p = false) ∧ (r.sets.find? (·.idx == r.curSet) = some w) ∧ (let rows := o.rows r.curG; (let ks := o.ks (r.curSet % o.s); (let c := parseChart r.a; (s.fetch (arrAcc s p 0 o) c (if c.sparse then some (s.fld (Reg.SHL_CFG p) Fd.SHL_CFG_THRESH) else none) (rows.flatMap fun i => ks.map fun k => r.coordA (if o.mode = 2 then r.curG else 16 * r.curG + i) k i) = (.ok es, u)) ∧ (c.sparse = false ∨ r.skip = false ∨ r.adds = false ∨ ∃ e ∈ es, e.zero = false)))))) := by
  refine ⟨?_, ?_, ?_, ?_⟩
  · exact ⟨5, stR {runA with staged:=some []}, {runA with staged:=some []}, 0, [], by decide +kernel⟩
  · exact ⟨5, stR runA, (fL runA).2, runA, okv (fL runA), 0, by decide +kernel⟩
  · exact ⟨5, stR (runI chSp true true), (fA (runI chSp true true)).2, runI chSp true true, okv (fA (runI chSp true true)), (runI chSp true true).sets.headD ⟨0,0,[]⟩, by decide +kernel⟩
  · exact ⟨5, stR (runI chT false false), (fA (runI chT false false)).2, runI chT false false, okv (fA (runI chT false false)), (runI chT false false).sets.headD ⟨0,0,[]⟩, by decide +kernel⟩

/-- PassArithmetic: each clause has its hypotheses together. -/
theorem test_hyps_PassArithmetic :
    (∃ ps : List FVal, ∃ qs : List FVal, (ps.Perm qs))
    ∧ (∃ ps : List FVal, (.nan ∈ ps ∨ (.inf false ∈ ps ∧ .inf true ∈ ps)))
    ∧ (∃ ps : List FVal, (.nan ∉ ps) ∧ (.inf false ∈ ps) ∧ (.inf true ∉ ps))
    ∧ (∃ ps : List FVal, (.nan ∉ ps) ∧ (.inf false ∉ ps) ∧ (.inf true ∈ ps))
    ∧ (∃ ps : List FVal, (∀ x ∈ ps, ∃ g e, x = .fin g 0 e))
    ∧ (∃ o : MmOp, (o.fa = 7)) := by
  refine ⟨?_, ?_, ?_, ?_, ?_, ?_⟩
  · exact ⟨[.fin true 3 0,.fin false 1 0], [.fin false 1 0,.fin true 3 0], by decide +kernel⟩
  · exact ⟨[.nan], by decide +kernel⟩
  · exact ⟨[.inf false], by decide +kernel⟩
  · exact ⟨[.inf true], by decide +kernel⟩
  · exact ⟨[.fin true 0 0], by simp⟩
  · exact ⟨{mmA with fa:=7}, by decide +kernel⟩

/-- PassesApplied, part PassApplied: each clause has its hypotheses together. -/
theorem test_hyps_PassApplied : ∃ p : Fin 144, ∃ s : State, ∃ q : Pass, ∃ r : List Pass, ((s.isl p).inflight = q :: r) ∧ (∀ i ∈ q.items, i.trow < 8192 ∧ i.entry < 32) ∧ ((q.items.map fun i => accAddr p i.trow i.entry).Nodup) :=
  ⟨5, put (S0.setIsl 5 {inflight:=[psA]}) (accAddr 5 8191 31) 4 3, psA, ([]:List Pass), by decide +kernel⟩

/-- PassesApplied, part AccumulatorCleared: each clause has its hypotheses together. -/
theorem test_hyps_AccumulatorCleared : ∃ s : State, (s.up = true) :=
  ⟨put S0 (accBase 5 + 0x1000) 8 77, by decide +kernel⟩

/-- EbbDrains, part EbbBegins: each clause has its hypotheses together. -/
theorem test_hyps_EbbBegins :
    (∃ p : Fin 144, ∃ s : State, ∃ o : DrainOp, ∃ rest : List DrainOp, ∃ cs, ((s.isl p).ebbq = o :: rest) ∧ ((s.isl p).ebb = none) ∧ (s.bit (Reg.ACC_STATUS p) Fd.ACC_STATUS_INIT_DONE = true) ∧ (let d := s.ebbDesc p o.edesc; (descCheck d o.count = none) ∧ ((s.ebbCharts p (s.mctx p o.c) (ebbSlots o d)).1 = .ok cs) ∧ (ebbFmtCheck o d cs = none)))
    ∧ (∃ p : Fin 144, ∃ s : State, ∃ o : DrainOp, ∃ rest : List DrainOp, ∃ code, ∃ w, ((s.isl p).ebbq = o :: rest) ∧ ((s.isl p).ebb = none) ∧ (s.bit (Reg.ACC_STATUS p) Fd.ACC_STATUS_INIT_DONE = true) ∧ (let d := s.ebbDesc p o.edesc; (descCheck d o.count = some code) ∧ (s.findWork o.id = some w) ∧ (w.src = .ctx p o.c) ∧ (o.c < 2) ∧ (∀ x ∈ rest, x.id ≠ o.id) ∧ (s.bit (Reg.ISL_SEQ_FAULT p o.c) Fd.ISL_SEQ_FAULT_VALID = false))) := by
  refine ⟨?_, ?_⟩
  · exact ⟨5, stE deA, drA, ([]:List DrainOp), [chT,0,0,0,0], by decide +kernel⟩
  · exact ⟨5, stE [3], drA, ([]:List DrainOp), 1, ⟨1,1,.ctx 5 0,0,false,0⟩, by decide +kernel⟩

/-- EbbDrains, part EbbReadsRows: each clause has its hypotheses together. -/
theorem test_hyps_EbbReadsRows :
    (∃ p : Fin 144, ∃ s : State, ∃ r : EbbRun, ((s.isl p).ebb = some r) ∧ (let n := min 8 (r.op.count - r.next); (∃ j, j < n ∧ (s.isl p).rowHeld r.op.id (r.op.trow + r.next + j) = true)))
    ∧ (∃ p : Fin 144, ∃ s : State, ∃ r : EbbRun, ∃ u0, ∃ u1, ∃ u2, ∃ u3, ∃ u4, ∃ u5, ∃ sc, ∃ bi, ∃ zs, ∃ gs, ∃ rows, ((s.isl p).ebb = some r) ∧ (let n := min 8 (r.op.count - r.next); (let A := ebbAcc s p r.op; (let d := r.desc; (let es := ebbEntries d r.next n; (let xs := es.map fun ie => ebbCoord r.op d ie.1 ie.2; (let vs := es.map fun ie => ebbVecCoord r.op d ie.1 ie.2; (∀ j, j < n → (s.isl p).rowHeld r.op.id (r.op.trow + r.next + j) = false) ∧ (s.ebbLimit A r es = (es.length, none, u0)) ∧ (u0.ebbAux A (eScaleVec d) r.sch vs = (.ok sc, u1)) ∧ (u1.ebbAux A (eBias d) r.bch vs = (.ok bi, u2)) ∧ (u2.ebbAux A (eMode d == 1) r.zch xs = (.ok zs, u3)) ∧ (u3.ebbAux A (eGate d) r.gch xs = (.ok gs, u4)) ∧ (u4.readRows p (r.op.trow + r.next) n = (rows, u5))))))))) := by
  refine ⟨?_, ?_⟩
  · exact ⟨5, S0.setIsl 5 {ebb:=some erA, mmq:=[{mmA with id:=0}]}, erA, by decide +kernel⟩
  · exact ⟨5, stER, erA, uE0, uE0, uE0, uE0, uE0, rowsE.2, ([]:List FElem), ([]:List FElem), ([]:List FElem), ([]:List FElem), rowsE.1, by decide +kernel⟩

/-- EbbArithmetic, part EbbChain: each clause has its hypotheses together. -/
theorem test_hyps_EbbChain :
    (∃ d : List Nat, (eSrc d = 0) ∧ (eBias d = false))
    ∧ (∃ d : List Nat, (eSrc d = 0) ∧ (eBias d = true))
    ∧ (∃ d : List Nat, (eSrc d = 0) ∧ (eGate d = false) ∧ (eMode d = 0))
    ∧ (∃ d : List Nat, (eSrc d = 0) ∧ (eGate d = false) ∧ (eMode d = 1))
    ∧ (∃ d : List Nat, (eSrc d = 0) ∧ (eGate d = false) ∧ (eMode d = 2))
    ∧ (∃ d : List Nat, (eSrc d = 0) ∧ (eGate d = true) ∧ (eMode d = 0)) := by
  refine ⟨?_, ?_, ?_, ?_, ?_, ?_⟩
  · exact ⟨deA, by decide +kernel⟩
  · exact ⟨[2^14], by decide +kernel⟩
  · exact ⟨deA, by decide +kernel⟩
  · exact ⟨[16], by decide +kernel⟩
  · exact ⟨[32], by decide +kernel⟩
  · exact ⟨[2^16], by decide +kernel⟩

/-- EbbArithmetic, part EbbFunctions: each clause has its hypotheses together. -/
theorem test_hyps_EbbFunctions :
    (∃ z, (f32 z = .nan))
    ∧ (∃ z, (f32 z ≠ .nan))
    ∧ (∃ z, (f32 z ≠ .nan) ∧ ((FVal.fin false 0 0).lt (f32 z) = true))
    ∧ (∃ z, (f32 z ≠ .nan) ∧ ((FVal.fin false 0 0).lt (f32 z) = false))
    ∧ (∃ func, (3 ≤ func) ∧ (func ≤ 5))
    ∧ (∃ func, (6 ≤ func) ∧ (func ≤ 7)) := by
  refine ⟨?_, ?_, ?_, ?_, ?_, ?_⟩
  · exact ⟨0x7FC00001, by decide +kernel⟩
  · exact ⟨0x3F800000, by decide +kernel⟩
  · exact ⟨0x3F800000, by decide +kernel⟩
  · exact ⟨0xBF800000, by decide +kernel⟩
  · exact ⟨5, by decide +kernel⟩
  · exact ⟨7, by decide +kernel⟩

/-- EbbDrains, part EbbWritesElements: each clause has its hypotheses together. -/
theorem test_hyps_EbbWritesElements :
    (∃ p : Fin 144, ∃ s : State, ∃ b : EbbBatch, ∃ rest : List EbbBatch, ∃ r, ∃ rs, ∃ w, ∃ u, ((s.isl p).ebbw = b :: rest) ∧ (let A := ebbAcc s p b.op; (b.rows = r :: rs) ∧ (eMode b.desc ≠ 2) ∧ (s.ebbRow A p b r = (none, w, u))))
    ∧ (∃ p : Fin 144, ∃ s : State, ∃ b : EbbBatch, ∃ rest : List EbbBatch, ∃ r, ∃ rs, ∃ u, ((s.isl p).ebbw = b :: rest) ∧ (let A := ebbAcc s p b.op; (b.rows = r :: rs) ∧ (eMode b.desc = 2) ∧ (s.ebbRowAdd A p b r = (.ok none, u))))
    ∧ (∃ p : Fin 144, ∃ s : State, ∃ b : EbbBatch, ∃ rest : List EbbBatch, ((s.isl p).ebbw = b :: rest) ∧ (b.rows = []) ∧ (b.fault = none) ∧ (b.last = false))
    ∧ (∃ p : Fin 144, ∃ s : State, ∃ b : EbbBatch, ∃ rest : List EbbBatch, ∃ r, ∃ s2, ∃ v, ∃ vals, ∃ w, ∃ u, ((s.isl p).ebbw = b :: rest) ∧ (let A := ebbAcc s p b.op; (b.rows = [r]) ∧ (r.vals = some (s2, v) :: vals) ∧ (b.fault = none) ∧ (b.last = true) ∧ (eLoss b.desc = true) ∧ (eMode b.desc ≠ 2) ∧ (s.ebbRow A p b r = (none, w, u)))) := by
  refine ⟨?_, ?_, ?_, ?_⟩
  · exact ⟨5, stW (bA [erow] 0 false false), bA [erow] 0 false false, ([]:List EbbBatch), erow, ([]:List EbbRow), (rowW (bA [erow] 0 false false)).2.1, (rowW (bA [erow] 0 false false)).2.2, by decide +kernel⟩
  · exact ⟨5, stW (bA [erow] 2 false false), bA [erow] 2 false false, ([]:List EbbBatch), erow, ([]:List EbbRow), (rowA (bA [erow] 2 false false)).2, by decide +kernel⟩
  · exact ⟨5, stW (bA [] 0 false false), bA [] 0 false false, ([]:List EbbBatch), by decide +kernel⟩
  · exact ⟨5, stW (bA [erow] 0 true true), bA [erow] 0 true true, ([]:List EbbBatch), erow, 0x3F800000, 0x40000000, List.replicate 31 none, (rowW (bA [erow] 0 true true)).2.1, (rowW (bA [erow] 0 true true)).2.2, by decide +kernel⟩

/-- Ferries, part FerrySubmits: each clause has its hypotheses together. -/
theorem test_hyps_FerrySubmits :
    (∃ r : Requester, ∃ f : Fin 16, ∃ v : BitVec 32, ∃ s : State, (s.up = true) ∧ (s.mayWrite r (Reg.FRY_SUBMIT_CTL (f / 4) (f % 4)) = true) ∧ (let x := s.fry f; (v.toNat % 2 = 1) ∧ (x.queue.length < 64)))
    ∧ (∃ r : Requester, ∃ f : Fin 16, ∃ v : BitVec 32, ∃ s : State, (s.up = true) ∧ (s.mayWrite r (Reg.FRY_SUBMIT_CTL (f / 4) (f % 4)) = true) ∧ (let x := s.fry f; (v.toNat % 2 = 1) ∧ (64 ≤ x.queue.length)))
    ∧ (∃ r : Requester, ∃ f : Fin 16, ∃ v : BitVec 32, ∃ s : State, (s.up = true) ∧ (s.mayWrite r (Reg.FRY_SUBMIT_CTL (f / 4) (f % 4)) = true) ∧ (v.toNat % 2 = 0)) := by
  refine ⟨?_, ?_, ?_⟩
  · exact ⟨.debug, 6, 1, S0, by decide +kernel⟩
  · exact ⟨.debug, 6, 1, S0.setFry 6 {queue:=List.replicate 64 fo}, by decide +kernel⟩
  · exact ⟨.debug, 6, 2, S0, by decide +kernel⟩

/-- Ferries, part FerryStarts: each clause has its hypotheses together. -/
theorem test_hyps_FerryStarts :
    (∃ f : Fin 16, ∃ i : Instr, ∃ op : Nat, ∃ s : State, ∃ u : State, ∃ o : FryOp, ∃ rest : List FryOp, ∃ bs : List Byte, ∃ a, ∃ b, ∃ v, ((i, op) ∈ [(Instr.move f, 0), (Instr.compress f, 1), (Instr.expand f, 2), (Instr.bytes f, 3)]) ∧ ((s.fry f).run = none) ∧ ((s.fry f).queue = o :: rest) ∧ (o.src = .pilot ∧ u = s.touch (ferryAcc s f o 0) [⟨.mem o.addr.toNat, 64⟩] ∧ bs = u.peek (ferryAcc s f o 0) [⟨.mem o.addr.toNat, 64⟩] ∨ o.src ≠ .pilot ∧ s.fetchVa (ferryAcc s f o 0) o.addr 64 = (.ok bs, u)) ∧ (let d := leNat bs; (fOp d = op) ∧ ((u.ferryTake f o rest d).ferryCheck f o d = (.ok (a, b), v)) ∧ (0 < ferrySteps d (fInPlace d a b && fOp d == 0))))
    ∧ (∃ f : Fin 16, ∃ i : Instr, ∃ op : Nat, ∃ s : State, ∃ u : State, ∃ o : FryOp, ∃ rest : List FryOp, ∃ bs : List Byte, ∃ code, ∃ v, ∃ p, ∃ c, ∃ w, ((i, op) ∈ [(Instr.move f, 0), (Instr.compress f, 1), (Instr.expand f, 2), (Instr.bytes f, 3)]) ∧ ((s.fry f).run = none) ∧ ((s.fry f).queue = o :: rest) ∧ (o.src = .pilot ∧ u = s.touch (ferryAcc s f o 0) [⟨.mem o.addr.toNat, 64⟩] ∧ bs = u.peek (ferryAcc s f o 0) [⟨.mem o.addr.toNat, 64⟩] ∨ o.src ≠ .pilot ∧ s.fetchVa (ferryAcc s f o 0) o.addr 64 = (.ok bs, u)) ∧ (let d := leNat bs; (fOp d = op) ∧ ((u.ferryTake f o rest d).ferryCheck f o d = (.error code, v)) ∧ (o.src = .ctx p c) ∧ (c < 2) ∧ (v.findWork o.id = some w) ∧ (w.src = .ctx p c) ∧ (∀ g ∈ rest, g.id ≠ o.id))) := by
  refine ⟨?_, ?_⟩
  · exact ⟨0, .bytes 0, 3, fq d3, ((fq d3).fetchVa (ferryAcc (fq d3) 0 fo 0) 0x1000 64).2, fo, ([]:List FryOp), leBytes 64 d3, 0, 0, ((((fq d3).fetchVa (ferryAcc (fq d3) 0 fo 0) 0x1000 64).2.ferryTake 0 fo [] d3).ferryCheck 0 fo d3).2, by decide +kernel⟩
  · exact ⟨0, .bytes 0, 3, fq (3+2^52), ((fq (3+2^52)).fetchVa (ferryAcc (fq (3+2^52)) 0 fo 0) 0x1000 64).2, fo, ([]:List FryOp), leBytes 64 (3+2^52), 0x001, ((((fq (3+2^52)).fetchVa (ferryAcc (fq (3+2^52)) 0 fo 0) 0x1000 64).2.ferryTake 0 fo [] (3+2^52)).ferryCheck 0 fo (3+2^52)).2, 5, 0, wk3, by decide +kernel⟩

/-- Ferries, part FerrySteps: clause 1 has its hypotheses together. -/
theorem test_hyps_FerrySteps_1 :
    ∃ f : Fin 16, ∃ s : State, ∃ r : FryRun, ∃ w : Work, ∃ bs, ∃ u, ∃ v, ∃ pa, ((s.fry f).run = some r) ∧ (r.failed = false) ∧ (s.findWork r.op.id = some w) ∧ (w.done = false) ∧ (s.bit Reg.ISL_SWAP_CTL Fd.ISL_SWAP_CTL_GO = false) ∧ (let d := r.desc; (let A := ferryAcc s f r.op d; (fOp d = 3) ∧ (fRemote d = false) ∧ (r.op.drain = false) ∧ (s.fetchVa A (fSva d + 64 * r.pos : Nat) 64 = (.ok bs, u)) ∧ (u.vaPieces A (fDaddr d + 64 * r.pos : Nat) 64 true = (.ok [⟨.mem pa, 64⟩], v)) ∧ (v.accessKind pa true = 0) ∧ (pa < 2 ^ 63))) :=
  ⟨0, frS rB, rB, wk3, leBytes 64 0x1234567890, ((frS rB).fetchVa (fAy (frS rB) d3) 0x2000 64).2, ((frS rB).fetchVa (fAy (frS rB) d3) 0x2000 64).2, hb+0x3000, by decide +kernel⟩

/-- Ferries, part FerrySteps: clause 2 has its hypotheses together. -/
theorem test_hyps_FerrySteps_2 :
    ∃ f : Fin 16, ∃ s : State, ∃ r : FryRun, ∃ w : Work, ∃ es, ∃ u, ∃ v, ∃ pa, ((s.fry f).run = some r) ∧ (r.failed = false) ∧ (s.findWork r.op.id = some w) ∧ (w.done = false) ∧ (s.bit Reg.ISL_SWAP_CTL Fd.ISL_SWAP_CTL_GO = false) ∧ (let d := r.desc; (let A := ferryAcc s f r.op d; (fOp d = 1) ∧ (s.ferryRead A (r.chart 0) ((tileElems d r.pos).map (sumCoord (fSorg d))) = (some (es, none), u)) ∧ (let x := sumCoord (fDorg d) (tileIdx d r.pos); (let b := r.chart 1; (let z := (tileBytes b.fmt (u.ferryThresh r.op d) (es.map (·.pat))); (b.inBounds x = true) ∧ (u.chartPieces A b (b.slotOff x) ((b.base : Int) + b.slotOff x) z.1.length true = (.ok [⟨.mem pa, z.1.length⟩], v)) ∧ (v.accessKind pa true = 0) ∧ (pa < 2 ^ 63)))))) :=
  ⟨0, frS rC, rC, wk3, esZ, esC.2, vC, hb+0x140000, by refine ⟨by decide +kernel, by decide +kernel, by decide +kernel, by decide +kernel, by decide +kernel, by decide +kernel, Prod.ext (by decide +kernel) rfl, by decide +kernel, ?_, by decide +kernel, by decide⟩; have hf : (rC.chart 1).fmt = 0 := (by decide +kernel); have he : esZ.map (·.pat) = List.replicate 1024 0 := List.map_replicate; simp only [hf, he, (tile_zero _).1, (tile_zero _).2, Bool.false_eq_true, if_false]; decide +kernel⟩

/-- Ferries, part FerrySteps: clause 3 has its hypotheses together. -/
theorem test_hyps_FerrySteps_3 :
    ∃ f : Fin 16, ∃ s : State, ∃ r : FryRun, ∃ w : Work, ∃ es, ∃ u, ∃ v, ∃ wb, ((s.fry f).run = some r) ∧ (r.failed = false) ∧ (s.findWork r.op.id = some w) ∧ (w.done = false) ∧ (s.bit Reg.ISL_SWAP_CTL Fd.ISL_SWAP_CTL_GO = false) ∧ (let d := r.desc; (let A := ferryAcc s f r.op d; (fOp d = 0) ∧ (fInPlace d (r.charts.getD 0 0) (r.charts.getD 1 0) = false) ∧ (fmtIsMx (r.chart 1).fmt = false) ∧ (s.ferryRead A (r.chart 0) ((moveRow d r.pos).map fun x => sumCoord (fSorg d) (srcIdx d x)) = (some (es, none), u)) ∧ (u.ferryElems A f (r.chart 1) ((((moveRow d r.pos).map (sumCoord (fDorg d))).zip es).map fun xe => (xe.1, ferryPat u d (r.chart 0).fmt (r.chart 1) xe.1 xe.2)) = (none, wb, v)))) :=
  ⟨0, frS rM, rM, wk3, esM.1, esM.2, wM.2.2, wM.2.1, by decide +kernel⟩

/-- Ferries, part FerrySteps: clause 4 has its hypotheses together. -/
theorem test_hyps_FerrySteps_4 :
    ∃ f : Fin 16, ∃ s : State, ∃ r : FryRun, ∃ w : Work, ∃ u, ∃ v, ∃ wb, ∃ sl, ∃ tl, ((s.fry f).run = some r) ∧ (r.failed = false) ∧ (s.findWork r.op.id = some w) ∧ (w.done = false) ∧ (s.bit Reg.ISL_SWAP_CTL Fd.ISL_SWAP_CTL_GO = false) ∧ (let d := r.desc; (let A := ferryAcc s f r.op d; (fOp d = 2) ∧ ((r.chart 0).inBounds (sumCoord (fSorg d) (tileIdx d r.pos)) = true) ∧ (s.readSlots A (r.chart 0) false (fun _ => false) [(r.chart 0).slotOff (sumCoord (fSorg d) (tileIdx d r.pos))] = (.ok [sl], u)) ∧ (sl.tile = some tl) ∧ (u.ferryElems A f (r.chart 1) (((tileElems d r.pos).map (sumCoord (fDorg d))).zip ((((tileElems d r.pos).map (sumCoord (fSorg d))).zip tl.vals).map fun xv => if (r.chart 0).inBounds xv.1 then xv.2 else (r.chart 0).fillElem.pat)) = (none, wb, v)))) :=
  ⟨0, frS rE, rE, wk3, slE.2, wE.2.2, wE.2.1, sl1, tlE, by decide +kernel⟩

/-- TileRoundTrip: each clause has its hypotheses together. -/
theorem test_hyps_TileRoundTrip :
    (∃ fmt : Nat, ∃ thresh : Nat, ∃ vals : List Nat, (fmt ≤ 7) ∧ (fmtIsMx fmt = false) ∧ (vals.length = 1024) ∧ (∀ v ∈ vals, v < 2 ^ fmtBits fmt) ∧ (let z := tileBytes fmt thresh vals; (z.2 = true)))
    ∧ (∃ fmt : Nat, ∃ thresh : Nat, ∃ vals : List Nat, (fmt ≤ 7) ∧ (fmtIsMx fmt = false) ∧ (vals.length = 1024) ∧ (∀ v ∈ vals, v < 2 ^ fmtBits fmt) ∧ (let z := tileBytes fmt thresh vals; (z.2 = false))) := by
  refine ⟨?_, ?_⟩
  · exact ⟨1, 100, valsD, by exact ⟨by decide, by decide, List.length_replicate, (fun v hv => by rw [List.eq_of_mem_replicate hv]; decide), tile_dense⟩⟩
  · exact ⟨1, 100, vals1, by exact ⟨by decide, by decide, List.length_replicate, (fun v hv => by rw [List.eq_of_mem_replicate hv]; decide), tile_packed⟩⟩

/-- ShoalBeginsAndMoves, part ShoalBegins: each clause has its hypotheses together. -/
theorem test_hyps_ShoalBegins :
    (∃ p : Fin 144, ∃ i : ShoalPhase → Instr, ∃ sop : Nat, ∃ s : State, ∃ u : State, ∃ v : State, ∃ o : ShoalOp, ∃ rest : List ShoalOp, ∃ bs : List Byte, ∃ cs, ∃ ls, ∃ x, ((i, sop) ∈ [(Instr.gather p, 0), (Instr.scatter p, 1), (Instr.shoalMerge p, 2), (Instr.segred p, 3), (Instr.topk p, 4), (Instr.pack p, 5), (Instr.unpack p, 6), (Instr.spmm p, 7)]) ∧ ((s.isl p).shl = none) ∧ ((s.isl p).shlq = o :: rest) ∧ (o.sop = sop) ∧ (s.fetchVa (shoalAcc s p o) o.desc 64 = (.ok bs, u)) ∧ (let d := leNat bs; (u.shoalCheck p o d = (.ok cs, v)) ∧ (0 < sCount d) ∧ (v.shoalLists (shoalAcc u p o) sop d = (.ok ls, x)) ∧ (overlapping (shoalRegions sop d (cs.map parseChart) ls).1 (shoalRegions sop d (cs.map parseChart) ls).2 = false) ∧ (sop ≠ 4 ∨ sCclr d = false)))
    ∧ (∃ p : Fin 144, ∃ i : ShoalPhase → Instr, ∃ sop : Nat, ∃ s : State, ∃ u : State, ∃ v : State, ∃ o : ShoalOp, ∃ rest : List ShoalOp, ∃ bs : List Byte, ∃ cs, ∃ w, ((i, sop) ∈ [(Instr.gather p, 0), (Instr.scatter p, 1), (Instr.shoalMerge p, 2), (Instr.segred p, 3), (Instr.topk p, 4), (Instr.pack p, 5), (Instr.unpack p, 6), (Instr.spmm p, 7)]) ∧ ((s.isl p).shl = none) ∧ ((s.isl p).shlq = o :: rest) ∧ (o.sop = sop) ∧ (s.fetchVa (shoalAcc s p o) o.desc 64 = (.ok bs, u)) ∧ (let d := leNat bs; (u.shoalCheck p o d = (.ok cs, v)) ∧ (sCount d = 0) ∧ (sop ≠ 4 ∨ sCclr d = false) ∧ (v.findWork o.id = some w) ∧ (w.src = .ctx p o.c) ∧ (w.out = 0) ∧ (w.cls = 2)))
    ∧ (∃ p : Fin 144, ∃ i : ShoalPhase → Instr, ∃ sop : Nat, ∃ s : State, ∃ u : State, ∃ v : State, ∃ o : ShoalOp, ∃ rest : List ShoalOp, ∃ bs : List Byte, ∃ code, ∃ w, ((i, sop) ∈ [(Instr.gather p, 0), (Instr.scatter p, 1), (Instr.shoalMerge p, 2), (Instr.segred p, 3), (Instr.topk p, 4), (Instr.pack p, 5), (Instr.unpack p, 6), (Instr.spmm p, 7)]) ∧ ((s.isl p).shl = none) ∧ ((s.isl p).shlq = o :: rest) ∧ (o.sop = sop) ∧ (s.fetchVa (shoalAcc s p o) o.desc 64 = (.ok bs, u)) ∧ (let d := leNat bs; (u.shoalCheck p o d = (.error code, v)) ∧ (v.findWork o.id = some w) ∧ (w.src = .ctx p o.c) ∧ (o.c < 2) ∧ (∀ x ∈ rest, x.id ≠ o.id))) := by
  refine ⟨?_, ?_, ?_⟩
  · exact ⟨5, Instr.gather 5, 0, shQ (gd 2), (shU (gd 2)).2, (shV (gd 2)).2, so 0, ([]:List ShoalOp), leBytes 64 (gd 2), okE [] (shV (gd 2)), okl [] (shL (gd 2)), (shL (gd 2)).2, by refine ⟨by simp, ?_⟩; decide +kernel⟩
  · exact ⟨5, Instr.gather 5, 0, shQ (gd 0), (shU (gd 0)).2, (shV (gd 0)).2, so 0, ([]:List ShoalOp), leBytes 64 (gd 0), okE [] (shV (gd 0)), wk2, by refine ⟨by simp, ?_⟩; decide +kernel⟩
  · exact ⟨5, Instr.gather 5, 0, shQ (2^27), (shU (2^27)).2, (shV (2^27)).2, so 0, ([]:List ShoalOp), leBytes 64 (2^27), 1, wk2, by refine ⟨by simp, ?_⟩; decide +kernel⟩

/-- ShoalBeginsAndMoves, part ShoalEntries: each clause has its hypotheses together. -/
theorem test_hyps_ShoalEntries :
    (∃ p : Fin 144, ∃ s : State, ∃ r : ShoalRun, ∃ w : Work, ∃ i : ShoalPhase → Instr, ∃ xs, ∃ l, ∃ u, ∃ v, ((s.isl p).shl = some r) ∧ (r.failed = false) ∧ (s.findWork r.op.id = some w) ∧ (w.done = false) ∧ (let d := r.desc; (let sop := r.op.sop; (let A := shoalAcc s p r.op; (let m := sMrg sop d; (let row := entryRows sop d r.lists r.pos; ((i, sop) ∈ [(Instr.gather p, 0), (Instr.scatter p, 1), (Instr.pack p, 5), (Instr.unpack p, 6)]) ∧ (row.1 = some xs) ∧ (s.laneRead A p r (r.pos % 32) (r.chart 0) xs = (some l, u)) ∧ (l.fail = none) ∧ ((u.shoalRunning p l.run).dstElems A p (r.chart 1) m {} ((row.2.zip l.vals).map fun xv => (xv.1, shoalPat (u.shoalRunning p l.run) d (r.chart 1) m.mop xv.1 xv.2)) = (none, v))))))))
    ∧ (∃ p : Fin 144, ∃ s : State, ∃ r : ShoalRun, ∃ w : Work, ((s.isl p).shl = some r) ∧ (r.failed = false) ∧ (s.findWork r.op.id = some w) ∧ (w.done = false) ∧ (let d := r.desc; (let sop := r.op.sop; (sop = 5) ∧ ((r.lists.getD 2 []).getD r.pos 0 ≤ (r.lists.getD 1 []).getD r.pos 0) ∧ (r.pos + 1 < sCount d))))
    ∧ (∃ p : Fin 144, ∃ s : State, ∃ r : ShoalRun, ∃ w : Work, ∃ v, ((s.isl p).shl = some r) ∧ (r.failed = false) ∧ (s.findWork r.op.id = some w) ∧ (w.done = false) ∧ (let d := r.desc; (let sop := r.op.sop; (let A := shoalAcc s p r.op; (let m := sMrg sop d; (sop = 6) ∧ ((r.lists.getD 2 []).getD r.pos 0 ≤ (r.lists.getD 1 []).getD r.pos 0) ∧ (s.dstElems A p (r.chart 1) m {} ((rowCoords (sDorg d) (sRowlen d) r.pos 0).map fun x => (x, 0)) = (none, v)))))))
    ∧ (∃ p : Fin 144, ∃ s : State, ∃ r : ShoalRun, ∃ w : Work, ∃ v, ((s.isl p).shl = some r) ∧ (r.failed = false) ∧ (s.findWork r.op.id = some w) ∧ (w.done = false) ∧ (let d := r.desc; (let sop := r.op.sop; (let A := shoalAcc s p r.op; (sop = 3) ∧ (let lo := (r.lists.getD 0 []).getD r.pos 0; (let hi := (r.lists.getD 0 []).getD (r.pos + 1) 0; (let c := r.chart 1; (hi ≤ lo) ∧ ((if hi < lo then s.count (Reg.SHL_CNT_SEGBAD p) 1 else s).dstElems A p c (sMrg 3 d) {} ((rowCoords (sDorg d) (sRowlen d) r.pos 0).map fun x => (x, c.fill % 2 ^ fmtBits c.fmt)) = (none, v))))))))) := by
  refine ⟨?_, ?_, ?_, ?_⟩
  · exact ⟨5, srS rS1, rS1, wk2, Instr.scatter 5, (entryRows 1 rS1.desc rS1.lists 0).1.getD [], laneR rS1, (laneO rS1).2, (dstO rS1).2, by refine ⟨by decide +kernel, by decide +kernel, by decide +kernel, by decide +kernel, by simp [show rS1.op.sop = 1 from by decide +kernel], by decide +kernel, laneO_eq (r := rS1) (by decide +kernel), rfl, ?_⟩; exact Prod.ext (by decide +kernel) rfl⟩
  · exact ⟨5, srS rP, rP, wk2, by decide +kernel⟩
  · exact ⟨5, srS rU, rU, wk2, ((srS rU).dstElems (shoalAcc (srS rU) 5 rU.op) 5 (rU.chart 1) (sMrg 6 rU.desc) {} ((rowCoords (sDorg rU.desc) (sRowlen rU.desc) 0 0).map fun x => (x, 0))).2, by decide +kernel⟩
  · exact ⟨5, srS rSg, rSg, wk2, ((srS rSg).dstElems (shoalAcc (srS rSg) 5 rSg.op) 5 (rSg.chart 1) (sMrg 3 rSg.desc) {} ((rowCoords (sDorg rSg.desc) (sRowlen rSg.desc) 0 0).map fun x => (x, (rSg.chart 1).fill % 2 ^ fmtBits 0))).2, by decide +kernel⟩

/-- ShoalOrder, part ShoalMergeOrder: each clause has its hypotheses together. -/
theorem test_hyps_ShoalMergeOrder :
    (∃ a : List Nat, ∃ b : List Nat, (a.length ≤ 2 ^ 31) ∧ (b.length ≤ 2 ^ 31))
    ∧ (∃ a : List Nat, ∃ b : List Nat, (a.length ≤ 2 ^ 31) ∧ (b.length ≤ 2 ^ 31) ∧ (a.Pairwise (· ≤ ·)) ∧ (b.Pairwise (· ≤ ·))) := by
  refine ⟨?_, ?_⟩
  · exact ⟨[1,3], [1,2], by decide +kernel⟩
  · exact ⟨[1,3], [1,2], by decide +kernel⟩

/-- ShoalOrder, part TopkRanks: each clause has its hypotheses together. -/
theorem test_hyps_TopkRanks :
    (∃ i : Nat, ∃ j : Nat, (i ≠ j))
    ∧ (∃ a : FVal, (a ≠ .nan))
    ∧ (∃ a : FVal, ∃ b : FVal, (a ≠ .nan) ∧ (b ≠ .nan) ∧ (b.lt a = true))
    ∧ (∃ sc : List FVal, ∃ i : Nat, ∃ j : Nat, (i < sc.length) ∧ (j < sc.length) ∧ (rankOf sc i = rankOf sc j)) := by
  refine ⟨?_, ?_, ?_, ?_⟩
  · exact ⟨1, 2, by decide +kernel⟩
  · exact ⟨FVal.inf true, by decide +kernel⟩
  · exact ⟨FVal.fin false 3 0, FVal.fin false 2 0, by decide +kernel⟩
  · exact ⟨[.nan,.nan], 1, 1, by decide +kernel⟩

/-- ShoalOrder, part MergeUnitApplies: each clause has its hypotheses together. -/
theorem test_hyps_MergeUnitApplies :
    (∃ p : Fin 144, ∃ u : Fin 16, ∃ s : State, ∃ o : LineOp, ((s.isl p).mergeNext u = some o) ∧ (s.bit Reg.ISL_SWAP_CTL Fd.ISL_SWAP_CTL_GO = false) ∧ (o.gchk = false ∨ s.fld (Reg.SHL_GEN p o.tslot) Fd.SHL_GEN_TAG = o.tag) ∧ (∀ a ∈ o.allBytes, s.accessKind a true = 0) ∧ (o.allBytes.Nodup))
    ∧ (∃ p : Fin 144, ∃ u : Fin 16, ∃ s : State, ∃ o : LineOp, ((s.isl p).mergeNext u = some o) ∧ (s.bit Reg.ISL_SWAP_CTL Fd.ISL_SWAP_CTL_GO = false) ∧ (o.gchk = true) ∧ (s.fld (Reg.SHL_GEN p o.tslot) Fd.SHL_GEN_TAG ≠ o.tag))
    ∧ (∃ p : Fin 144, ∃ u : Fin 16, ∃ s : State, ∃ o : LineOp, ((s.isl p).mergeNext u = some o) ∧ (s.bit Reg.ISL_SWAP_CTL Fd.ISL_SWAP_CTL_GO = false))
    ∧ (∃ p : Fin 144, ∃ u : Fin 16, ∃ s : State, ∃ o : LineOp, ∃ old, ∃ v, ((s.isl p).mergeNext u = some o) ∧ (s.bit Reg.ISL_SWAP_CTL Fd.ISL_SWAP_CTL_GO = false) ∧ (f32 old = .nan ∨ f32 v = .nan)) := by
  refine ⟨?_, ?_, ?_, ?_⟩
  · exact ⟨7, 1, S0.setIsl 7 {mergeq:=[lo]}, lo, by decide +kernel⟩
  · exact ⟨7, 1, S0.setIsl 7 {mergeq:=[loG]}, loG, by decide +kernel⟩
  · exact ⟨7, 1, S0.setIsl 7 {mergeq:=[lo]}, lo, by decide +kernel⟩
  · exact ⟨7, 1, S0.setIsl 7 {mergeq:=[lo]}, lo, 0x7FC00001, 0, by decide +kernel⟩

/-- BindingsAndIslandTests, part Bindings: each clause has its hypotheses together. -/
theorem test_hyps_Bindings :
    (∃ r : Requester, ∃ l : Fin 136, ∃ s : State, (s.up = true) ∧ (s.mayWrite r (Reg.ISL_LMAP l) = true) ∧ (s.loaded = true))
    ∧ (∃ r : Requester, ∃ l : Fin 136, ∃ s : State, (s.up = true) ∧ (s.mayWrite r (Reg.ISL_LMAP l) = true) ∧ (s.loaded = false))
    ∧ (∃ r : Requester, ∃ v : BitVec 32, ∃ s : State, (s.up = true) ∧ (s.mayWrite r Reg.ISL_POLICY = true) ∧ (s.loaded = true ∨ v.toNat % 4 = 3))
    ∧ (∃ r : Requester, ∃ v : BitVec 32, ∃ s : State, (s.up = true) ∧ (s.mayWrite r Reg.ISL_POLICY = true) ∧ (s.loaded = false) ∧ (v.toNat % 4 ≠ 3))
    ∧ (∃ s : State, (s.up = true) ∧ (s.loaded = true))
    ∧ (∃ s : State, (s.up = true) ∧ (s.loaded = false)) := by
  refine ⟨?_, ?_, ?_, ?_, ?_, ?_⟩
  · exact ⟨.debug, 35, ldd, by decide +kernel⟩
  · exact ⟨.debug, 35, (boundS.setPstate 36 1).setLogical 36 34, by decide +kernel⟩
  · exact ⟨.debug, 1, ldd, by decide +kernel⟩
  · exact ⟨.debug, 1, S0, by decide +kernel⟩
  · exact ⟨ldd, by decide +kernel⟩
  · exact ⟨boundS, by decide +kernel⟩

/-- SpareSwap, part SwapStartsAndAborts: each clause has its hypotheses together. -/
theorem test_hyps_SwapStartsAndAborts :
    (∃ r : Requester, ∃ v : BitVec 32, ∃ s : State, (s.up = true) ∧ (s.mayWrite r Reg.ISL_SWAP_CTL = true) ∧ (bitsOf v.toNat 22 22 = 0) ∧ (let src := bitsOf v.toNat 7 0; (let dst := bitsOf v.toNat 15 8; (let busy := s.bit Reg.ISL_SWAP_CTL Fd.ISL_SWAP_CTL_GO; (let ok := s.loaded = true ∧ src < 144 ∧ dst < 144 ∧ quarterOf src = quarterOf dst ∧ s.pstate src = 1 ∧ s.pstate dst = 2 ∧ (s.logicalOf src < 136 → s.lmapPin (s.logicalOf src) = false) ∧ bitsOf v.toNat 21 20 ≠ 3; (bitsOf v.toNat 19 19 = 0) ∧ (busy = false) ∧ (ok))))))
    ∧ (∃ r : Requester, ∃ v : BitVec 32, ∃ s : State, (s.up = true) ∧ (s.mayWrite r Reg.ISL_SWAP_CTL = true) ∧ (bitsOf v.toNat 22 22 = 0) ∧ (let src := bitsOf v.toNat 7 0; (let dst := bitsOf v.toNat 15 8; (let busy := s.bit Reg.ISL_SWAP_CTL Fd.ISL_SWAP_CTL_GO; (let ok := s.loaded = true ∧ src < 144 ∧ dst < 144 ∧ quarterOf src = quarterOf dst ∧ s.pstate src = 1 ∧ s.pstate dst = 2 ∧ (s.logicalOf src < 136 → s.lmapPin (s.logicalOf src) = false) ∧ bitsOf v.toNat 21 20 ≠ 3; (bitsOf v.toNat 19 19 = 0) ∧ (busy = true ∨ ¬ok))))))
    ∧ (∃ r : Requester, ∃ v : BitVec 32, ∃ s : State, (s.up = true) ∧ (s.mayWrite r Reg.ISL_SWAP_CTL = true) ∧ (bitsOf v.toNat 22 22 = 0) ∧ (let busy := s.bit Reg.ISL_SWAP_CTL Fd.ISL_SWAP_CTL_GO; (busy = true) ∧ (s.swapFld Fd.ISL_SWAP_CTL_SRC ≠ s.swapFld Fd.ISL_SWAP_CTL_DST))) := by
  refine ⟨?_, ?_, ?_⟩
  · exact ⟨.debug, 0x0903, swS, by decide +kernel⟩
  · exact ⟨.debug, 0x0309, swS, by decide +kernel⟩
  · exact ⟨.debug, 0x0903, swG [], by decide +kernel⟩

/-- SpareSwap, part SwapCopiesAndReleases: each clause has its hypotheses together. -/
theorem test_hyps_SwapCopiesAndReleases :
    (∃ s : State, (s.bit Reg.ISL_SWAP_CTL Fd.ISL_SWAP_CTL_GO = true) ∧ (s.bit Reg.ISL_SWAP_CTL Fd.ISL_SWAP_CTL_COPIED = false) ∧ (let src := s.swapFld Fd.ISL_SWAP_CTL_SRC; (let dst := s.swapFld Fd.ISL_SWAP_CTL_DST; (let n := s.fld Reg.ISL_SWAP_CURSOR Fd.ISL_SWAP_CURSOR_LINES; (let a (p : Nat) : Nat := if n < 1024 then 0xA0000000 + p * 0x40000 + 256 * n else 0x40000000 + p * 0x800000 + 256 * (n - 1024); (src < 144) ∧ (dst < 144) ∧ (n < 33792) ∧ (∀ i, i < 8 → s.cwAt (a src + 32 * i) = .ok ∨ ∃ sym, s.cwAt (a src + 32 * i) = .ce sym))))))
    ∧ (∃ s : State, (s.bit Reg.ISL_SWAP_CTL Fd.ISL_SWAP_CTL_GO = true) ∧ (s.bit Reg.ISL_SWAP_CTL Fd.ISL_SWAP_CTL_COPIED = false) ∧ (let src := s.swapFld Fd.ISL_SWAP_CTL_SRC; (let dst := s.swapFld Fd.ISL_SWAP_CTL_DST; (let n := s.fld Reg.ISL_SWAP_CURSOR Fd.ISL_SWAP_CURSOR_LINES; (let a (p : Nat) : Nat := if n < 1024 then 0xA0000000 + p * 0x40000 + 256 * n else 0x40000000 + p * 0x800000 + 256 * (n - 1024); (src < 144) ∧ (dst < 144) ∧ (n < 33792) ∧ (∃ i, i < 8 ∧ (s.cwAt (a src + 32 * i) = .ue ∨ s.cwAt (a src + 32 * i) = .poison)) ∧ (src ≠ dst)))))) := by
  refine ⟨?_, ?_⟩
  · exact ⟨(put (swG []) (lagBase 3) 9 0xFFFF1234).setFld Reg.ISL_SWAP_CURSOR Fd.ISL_SWAP_CURSOR_LINES 1024, by exact ⟨by decide +kernel, by decide +kernel, by decide +kernel, by decide +kernel, by decide +kernel, fun _ _ => Or.inl rfl⟩⟩
  · exact ⟨(swG []).setCw (progBase 3 + 64) .ue, by decide +kernel⟩

/-- SpareSwap, part SwapReleaseEndsHold: each clause has its hypotheses together. -/
theorem test_hyps_SwapReleaseEndsHold :
    (∃ r : Requester, ∃ s : State, (s.up = true) ∧ (s.mayWrite r Reg.ISL_SWAP_CTL = true) ∧ (s.bit Reg.ISL_SWAP_CTL Fd.ISL_SWAP_CTL_HOLD = true) ∧ (∀ c, r ≠ .pilot c))
    ∧ (∃ r : Requester, ∃ s : State, ∃ c, (s.up = true) ∧ (s.mayWrite r Reg.ISL_SWAP_CTL = true) ∧ (s.bit Reg.ISL_SWAP_CTL Fd.ISL_SWAP_CTL_HOLD = true) ∧ (r = .pilot c)) := by
  refine ⟨?_, ?_⟩
  · exact ⟨.debug, swG [(Reg.ISL_SWAP_CTL,Fd.ISL_SWAP_CTL_HOLD,1)], by decide +kernel⟩
  · exact ⟨.pilot 2, ptS 0 (swG [(Reg.ISL_SWAP_CTL,Fd.ISL_SWAP_CTL_HOLD,1)]), 2, by decide +kernel⟩

/-- BindingsAndIslandTests, part IslandTestCommands: each clause has its hypotheses together. -/
theorem test_hyps_IslandTestCommands :
    (∃ r : Requester, ∃ p : Fin 144, ∃ s : State, (s.up = true) ∧ (s.mayWrite r Reg.ISL_TEST_CTL = true) ∧ (s.bit Reg.ISL_SWAP_CTL Fd.ISL_SWAP_CTL_GO = false) ∧ (s.pstate p = 2))
    ∧ (∃ r : Requester, ∃ p : Fin 144, ∃ s : State, (s.up = true) ∧ (s.mayWrite r Reg.ISL_TEST_CTL = true) ∧ (s.bit Reg.ISL_SWAP_CTL Fd.ISL_SWAP_CTL_GO = false) ∧ (s.pstate p = 3))
    ∧ (∃ r : Requester, ∃ p : Fin 144, ∃ s : State, (s.up = true) ∧ (s.mayWrite r Reg.ISL_TEST_CTL = true) ∧ (s.bit Reg.ISL_SWAP_CTL Fd.ISL_SWAP_CTL_GO = false) ∧ (s.pstate p = 2 ∨ s.pstate p = 3))
    ∧ (∃ r : Requester, ∃ p : Fin 144, ∃ s : State, (s.up = true) ∧ (s.mayWrite r Reg.ISL_TEST_CTL = true) ∧ (s.bit Reg.ISL_SWAP_CTL Fd.ISL_SWAP_CTL_GO = false) ∧ (s.pstate p ≠ 2))
    ∧ (∃ r : Requester, ∃ p : Fin 144, ∃ s : State, (s.up = true) ∧ (s.mayWrite r Reg.ISL_TEST_CTL = true) ∧ (s.bit Reg.ISL_SWAP_CTL Fd.ISL_SWAP_CTL_GO = false) ∧ (s.pstate p ≠ 3))
    ∧ (∃ r : Requester, ∃ p : Fin 144, ∃ s : State, (s.up = true) ∧ (s.mayWrite r Reg.ISL_TEST_CTL = true) ∧ (s.bit Reg.ISL_SWAP_CTL Fd.ISL_SWAP_CTL_GO = false) ∧ (s.pstate p ≠ 2) ∧ (s.pstate p ≠ 3)) := by
  refine ⟨?_, ?_, ?_, ?_, ?_, ?_⟩
  · exact ⟨.debug, 9, swS, by decide +kernel⟩
  · exact ⟨.debug, 9, swS.setPstate 9 3, by decide +kernel⟩
  · exact ⟨.debug, 9, swS, by decide +kernel⟩
  · exact ⟨.debug, 3, swS, by decide +kernel⟩
  · exact ⟨.debug, 9, swS, by decide +kernel⟩
  · exact ⟨.debug, 3, swS, by decide +kernel⟩

/-- InvalidationAndT1, part Invalidation: each clause has its hypotheses together. -/
theorem test_hyps_Invalidation :
    (∃ r : Requester, ∃ q : Fin 4, ∃ s : State, (s.up = true) ∧ (s.mayWrite r (Reg.CHT_INV q) = true))
    ∧ (∃ q : Fin 4, ∃ s : State, (s.bit (Reg.CHT_INV q) Fd.CHT_INV_GO = true)) := by
  refine ⟨?_, ?_⟩
  · exact ⟨.debug, 1, S0, by decide +kernel⟩
  · exact ⟨1, w ((S0.setIsl 38 {charts:=[⟨0,1,2⟩,⟨1,1,2⟩]}).setQtr 1 {tlb:=[⟨0,0,0,false⟩]}) [(Reg.CHT_INV 1,Fd.CHT_INV_GO,1),(Reg.CHT_INV 1,Fd.CHT_INV_SCOPE,2)], by decide +kernel⟩

/-- InvalidationAndT1, part T1Validation: each clause has its hypotheses together. -/
theorem test_hyps_T1Validation :
    (∃ r : Requester, ∃ q : Fin 4, ∃ v : BitVec 32, ∃ s : State, (s.up = true) ∧ (s.mayWrite r (Reg.CHT_T1_CTL q) = true) ∧ (let ctx := v.toNat % 16; (let root := (s.reg (Reg.CHT_CTX_PT_ROOT q ctx)).toNat % 2; (root = 0))))
    ∧ (∃ r : Requester, ∃ q : Fin 4, ∃ v : BitVec 32, ∃ s : State, (s.up = true) ∧ (s.mayWrite r (Reg.CHT_T1_CTL q) = true) ∧ (let ctx := v.toNat % 16; (let src := s.addr48 (Reg.CHT_T1_SRC_LO q) (Reg.CHT_T1_SRC_HI q); (let d := parseT1 (leNat (s.bytes src 48)); (let root := (s.reg (Reg.CHT_CTX_PT_ROOT q ctx)).toNat % 2; (root = 1) ∧ (t1Fmt d.fmt = none))))))
    ∧ (∃ r : Requester, ∃ q : Fin 4, ∃ v : BitVec 32, ∃ s : State, ∃ e, ∃ fmt, (s.up = true) ∧ (s.mayWrite r (Reg.CHT_T1_CTL q) = true) ∧ (let ctx := v.toNat % 16; (let src := s.addr48 (Reg.CHT_T1_SRC_LO q) (Reg.CHT_T1_SRC_HI q); (let d := parseT1 (leNat (s.bytes src 48)); (let root := (s.reg (Reg.CHT_CTX_PT_ROOT q ctx)).toNat % 2; (root = 1) ∧ (t1Fmt d.fmt = some (e, fmt)) ∧ (1 ≤ d.ndim) ∧ (d.ndim ≤ 4) ∧ (∀ n ∈ d.size.take d.ndim, n ≠ 0) ∧ (d.base + d.extent e ≤ 2 ^ 52) ∧ (d.extent e ≤ 2 ^ 44) ∧ (s.bit Reg.ISL_SWAP_CTL Fd.ISL_SWAP_CTL_GO = false) ∧ ((s.t1Walk q ctx d.wr ((d.base + d.extent e - 1) / 2 ^ 21 - d.base / 2 ^ 21 + 1) d.base (s.walkAddr q ctx d.base) s).1 = 0)))))) := by
  refine ⟨?_, ?_, ?_⟩
  · exact ⟨.debug, 1, 0, S0, by decide +kernel⟩
  · exact ⟨.debug, 1, 0, put t1S (hb+0x3000) 48 (t1D 9 1), by decide +kernel⟩
  · exact ⟨.debug, 1, 0, put t1S (hb+0x3000) 48 (t1D 0 1), 4, 0, by decide +kernel⟩

/-- LinkCodecs: each clause has its hypotheses together. -/
theorem test_hyps_LinkCodecs :
    (∃ kind : Nat, ∃ seq : Nat, ∃ ack : Nat, ∃ body : List Byte, (kind < 3) ∧ (seq < 4096) ∧ (ack < 4096) ∧ (body.length = 244))
    ∧ (∃ m : Msg, (m.wf = true))
    ∧ (∃ data : List Nat, (data.length = 514)) := by
  refine ⟨?_, ?_, ?_⟩
  · exact ⟨1, 4095, 3, body1, by decide +kernel⟩
  · exact ⟨{ m0 4 3 7 0xFFFF0000FFFF (leBytes 448 3) with dst:=1023, tag:=0x3FFF, status:=15, hops:=15, gen:=3}, by decide +kernel⟩
  · exact ⟨List.replicate 514 7, by decide +kernel⟩

/-- FlitsSent: each clause has its hypotheses together. -/
theorem test_hyps_FlitsSent :
    (∃ k : Fin 16, ∃ s : State, (s.flitsFlow k = false))
    ∧ (∃ k : Fin 16, ∃ s : State, (let x := s.port k; (s.flitsFlow k = true) ∧ (x.flitPos % 128 = 127) ∧ (x.leaving = none)))
    ∧ (∃ k : Fin 16, ∃ s : State, ∃ off, (let x := s.port k; (s.flitsFlow k = true) ∧ (x.flitPos % 128 = 127) ∧ (x.leaving = some off)))
    ∧ (∃ k : Fin 16, ∃ s : State, (let x := s.port k; (s.flitsFlow k = true) ∧ (x.flitPos % 128 ≠ 127) ∧ (s.portSt k = 5)))
    ∧ (∃ k : Fin 16, ∃ s : State, ∃ i, ∃ seq, ∃ body, (let x := s.port k; (s.flitsFlow k = true) ∧ (x.flitPos % 128 ≠ 127) ∧ (s.portSt k ≠ 5) ∧ (x.replayAt = some i) ∧ (x.replay[i]? = some (seq, body))))
    ∧ (∃ k : Fin 16, ∃ s : State, (let x := s.port k; (s.flitsFlow k = true) ∧ (x.flitPos % 128 ≠ 127) ∧ (s.portSt k ≠ 5) ∧ (x.replayAt = none) ∧ (x.replay.length < 1024) ∧ (244 ≤ x.txStream.length)))
    ∧ (∃ k : Fin 16, ∃ s : State, (let x := s.port k; (s.flitsFlow k = true) ∧ (x.flitPos % 128 ≠ 127) ∧ (s.portSt k ≠ 5) ∧ (x.replayAt = none) ∧ (x.txStream = []) ∧ (∀ q ∈ x.txq, q = []))) := by
  refine ⟨?_, ?_, ?_, ?_, ?_, ?_, ?_⟩
  · exact ⟨5, S0, by decide +kernel⟩
  · exact ⟨5, pst 5 4 (ctl 127), by decide +kernel⟩
  · exact ⟨5, pst 5 4 {ctl 255 with leaving:=some true}, true, by decide +kernel⟩
  · exact ⟨5, pst 5 5 (ctl 3), by decide +kernel⟩
  · exact ⟨5, pst 5 4 {ctl 3 with replay:=[(7,body1),(8,body1)],replayAt:=some 1}, 1, 8, body1, by decide +kernel⟩
  · exact ⟨5, pst 5 4 {ctl 3 with txStream:=leBytes 250 77}, by decide +kernel⟩
  · exact ⟨5, pst 5 4 (ctl 3), by decide +kernel⟩

/-- FlitsReceivedAndReplayed, part FlitsReceived: each clause has its hypotheses together. -/
theorem test_hyps_FlitsReceived :
    (∃ k : Fin 16, ∃ flit : List (BitVec 8), ∃ fec : List FecWord, ∃ s : State, ∃ i : Instr, (let clean : Prop := s.fecBad k fec = []; (s.flitsFlow k = true) ∧ (flit.length = 256) ∧ (i ∈ [Instr.dataFlit k flit fec, .ctrlFlit k flit fec, .idleFlit k flit fec]) ∧ (¬clean ∨ flitOk flit = false)))
    ∧ (∃ k : Fin 16, ∃ flit : List (BitVec 8), ∃ fec : List FecWord, ∃ s : State, (let x := s.port k; (let clean : Prop := s.fecBad k fec = []; (s.flitsFlow k = true) ∧ (flit.length = 256) ∧ (clean) ∧ (flitOk flit = true) ∧ (flitKind flit = 1) ∧ (flitSeq flit = (x.ack + 1) % 4096))))
    ∧ (∃ k : Fin 16, ∃ flit : List (BitVec 8), ∃ fec : List FecWord, ∃ s : State, (let x := s.port k; (let clean : Prop := s.fecBad k fec = []; (s.flitsFlow k = true) ∧ (flit.length = 256) ∧ (clean) ∧ (flitOk flit = true) ∧ (flitKind flit = 1) ∧ (flitSeq flit ≠ (x.ack + 1) % 4096))))
    ∧ (∃ k : Fin 16, ∃ flit : List (BitVec 8), ∃ fec : List FecWord, ∃ s : State, (let clean : Prop := s.fecBad k fec = []; (s.flitsFlow k = true) ∧ (flit.length = 256) ∧ (clean) ∧ (flitOk flit = true) ∧ (flitKind flit = 2) ∧ (leNat (((flitBody flit).drop 8).take 1) ≠ 6)))
    ∧ (∃ k : Fin 16, ∃ flit : List (BitVec 8), ∃ fec : List FecWord, ∃ s : State, ∃ pre, ∃ body, ∃ post, (let x := s.port k; (let clean : Prop := s.fecBad k fec = []; (s.flitsFlow k = true) ∧ (flit.length = 256) ∧ (clean) ∧ (flitOk flit = true) ∧ (flitKind flit = 0) ∧ (flitNak flit = false) ∧ (x.replay = pre ++ (flitAck flit, body) :: post) ∧ (∀ e ∈ pre, e.1 ≠ flitAck flit)))) := by
  refine ⟨?_, ?_, ?_, ?_, ?_⟩
  · exact ⟨5, (fl 2 0 0 false).set 5 77, [], pst 5 4, .ctrlFlit 5 ((fl 2 0 0 false).set 5 77) [], by decide +kernel⟩
  · exact ⟨5, fl 1 0 7 false (m0 6 1 0 0 []).encode, [], pst 5 4, by decide +kernel⟩
  · exact ⟨5, fl 1 9 7 false (m0 6 1 0 0 []).encode, [], pst 5 4, by decide +kernel⟩
  · exact ⟨5, fl 2 0 7 false (ctrlBody [1,2,3,4] ⟨1,2,3,4⟩), [], pst 5 4, by decide +kernel⟩
  · exact ⟨5, fl 0 0 8 false, [], pst 5 4 {replay:=[(7,body1),(8,body1),(9,body1)]}, [(7,body1)], body1, [(9,body1)], by decide +kernel⟩

/-- FlitsReceivedAndReplayed, part Replays: each clause has its hypotheses together. -/
theorem test_hyps_Replays :
    (∃ k : Fin 16, ∃ ack : BitVec 12, ∃ s : State, (s.flitsFlow k = true) ∧ (let x := (s.ackTo k ack.toNat).port k; (x.replay ≠ []) ∧ (¬(x.replayAt.isSome = true ∧ x.replayAck = some ack.toNat))))
    ∧ (∃ k : Fin 16, ∃ ack : BitVec 12, ∃ s : State, (s.flitsFlow k = true) ∧ (let x := (s.ackTo k ack.toNat).port k; (x.replayAt.isSome = true ∧ x.replayAck = some ack.toNat)))
    ∧ (∃ k : Fin 16, ∃ s : State, (s.flitsFlow k = true) ∧ ((s.port k).replay ≠ [])) := by
  refine ⟨?_, ?_, ?_⟩
  · exact ⟨5, 7, pst 5 4 {replay:=[(7,body1),(8,body1)],retry:=5}, by decide +kernel⟩
  · exact ⟨5, 7, pst 5 4 {replay:=[(8,body1)],replayAt:=some 0,replayAck:=some 7}, by decide +kernel⟩
  · exact ⟨5, pst 5 4 {replay:=[(8,body1)],txSeq:=9,retry:=700}, by decide +kernel⟩

/-- LaneSparingAndLoopbacks, part LaneSparing: each clause has its hypotheses together. -/
theorem test_hyps_LaneSparing :
    (∃ k : Fin 16, ∃ s : State, ∃ n : Fin 9, (2 ≤ s.portSt k) ∧ (s.portSt k ≤ 4) ∧ (s.laneInUse k n = true) ∧ (s.laneGoing k n = true))
    ∧ (∃ k : Fin 16, ∃ s : State, ∃ n : Fin 9, (2 ≤ s.portSt k) ∧ (s.portSt k ≤ 4) ∧ (s.laneInUse k n = true) ∧ (s.laneGoing k n = false) ∧ (s.noSpare k = false))
    ∧ (∃ k : Fin 16, ∃ s : State, ∃ n : Fin 9, (2 ≤ s.portSt k) ∧ (s.portSt k ≤ 4) ∧ (s.laneInUse k n = true) ∧ (s.laneGoing k n = false) ∧ (s.noSpare k = true))
    ∧ (∃ k : Fin 16, ∃ s : State, (2 ≤ s.portSt k) ∧ (s.portSt k ≤ 4) ∧ (s.laneInUse k 8 = false))
    ∧ (∃ k : Fin 16, ∃ s : State, ∃ syms : List Nat, (2 ≤ s.portSt k) ∧ (s.portSt k ≤ 5) ∧ (syms.length = 9) ∧ (∀ n ∈ syms, n ≤ s.fld (Reg.STR_LANE_THR (portQ k) (portK k)) Fd.STR_LANE_THR_THR))
    ∧ (∃ k : Fin 16, ∃ s : State, ∃ b, (let x := s.port k; (x.subOf 1 = some b) ∧ (s.portSt k ≠ 5)))
    ∧ (∃ k : Fin 16, ∃ s : State, ∃ b, (let x := s.port k; (x.subOf 2 = some b)))
    ∧ (∃ k : Fin 16, ∃ s : State, ∃ n, ∃ c, (let x := s.port k; (x.txSwitch = some (n, c)) ∧ (n < 8)))
    ∧ (∃ k : Fin 16, ∃ s : State, ∃ n, ∃ c, (let x := s.port k; (x.rxSwitch = some (n, c)) ∧ (n < 8))) := by
  refine ⟨?_, ?_, ?_, ?_, ?_, ?_, ?_, ?_, ?_⟩
  · exact ⟨5, w (pst 5 4 {subs:=[⟨1,5,3,0⟩]}) [(Reg.STR_STATUS 1 1,Fd.STR_STATUS_RX_SPARED,15)], 3, by decide +kernel⟩
  · exact ⟨5, w (pst 5 4 {caps:=7}) [(Reg.STR_STATUS 1 1,Fd.STR_STATUS_RX_SPARED,15)], 3, by decide +kernel⟩
  · exact ⟨5, w (pst 5 4 {caps:=7}) [(Reg.STR_STATUS 1 1,Fd.STR_STATUS_RX_SPARED,2)], 3, by decide +kernel⟩
  · exact ⟨5, w (pst 5 4) [(Reg.STR_STATUS 1 1,Fd.STR_STATUS_RX_SPARED,15)], by decide +kernel⟩
  · exact ⟨5, pst 5 4, [0,1,2,0,0,0,0,0,4], by decide +kernel⟩
  · exact ⟨5, pst 5 4 {subIn:=[⟨1,3,2,0⟩]}, ⟨1,3,2,0⟩, by decide +kernel⟩
  · exact ⟨5, pst 5 4 {subIn:=[⟨2,3,2,512⟩]}, ⟨2,3,2,512⟩, by decide +kernel⟩
  · exact ⟨5, pst 5 4 {txSwitch:=some (2,512)}, 2, 512, by decide +kernel⟩
  · exact ⟨5, pst 5 4 {rxSwitch:=some (2,512)}, 2, 512, by decide +kernel⟩

/-- PortStatesAndHello, part PortStates: each clause has its hypotheses together. -/
theorem test_hyps_PortStates :
    (∃ k : Fin 16, ∃ s : State, ∃ rf : List (Fin 9), ∃ tf : List (Fin 9), (s.portSt k = 1) ∧ (s.power.lost.contains .str = false) ∧ (let rb := s.badLanes k 0 (rf.map (·.val)); (let tb := s.badLanes k 1 (tf.map (·.val)); (trainOk rb (rf.map (·.val)) = true) ∧ (trainOk tb (tf.map (·.val)) = true))))
    ∧ (∃ k : Fin 16, ∃ s : State, ∃ rf : List (Fin 9), ∃ tf : List (Fin 9), (s.portSt k = 1) ∧ (s.power.lost.contains .str = false) ∧ (let rb := s.badLanes k 0 (rf.map (·.val)); (let tb := s.badLanes k 1 (tf.map (·.val)); (trainOk rb (rf.map (·.val)) = false ∨ trainOk tb (tf.map (·.val)) = false))))
    ∧ (∃ k : Fin 16, ∃ s : State, (s.portSt k = 1))
    ∧ (∃ k : Fin 16, ∃ s : State, ((s.port k).retraining = true))
    ∧ (∃ k : Fin 16, ∃ s : State, (s.portSt k = 2))
    ∧ (∃ k : Fin 16, ∃ s : State, (let st := Reg.STR_STATUS (portQ k) (portK k); (s.portSt k = 6) ∧ (s.bit st Fd.STR_STATUS_HOLD = false) ∧ (s.power.lost.contains .str = false)))
    ∧ (∃ k : Fin 16, ∃ s : State, ∃ r : Requester, (let st := Reg.STR_STATUS (portQ k) (portK k); (s.up = true) ∧ (s.mayWrite r st = true) ∧ (s.bit st Fd.STR_STATUS_HOLD = true) ∧ (s.power.lost.contains .str = false)))
    ∧ (∃ k : Fin 16, ∃ s : State, ∃ r : Requester, (s.up = true) ∧ (s.mayWrite r (Reg.STR_CTL (portQ k) (portK k)) = true) ∧ (s.portSt k = 0))
    ∧ (∃ k : Fin 16, ∃ s : State, ∃ r : Requester, (s.up = true) ∧ (s.mayWrite r (Reg.STR_CTL (portQ k) (portK k)) = true) ∧ (s.portSt k = 4) ∧ (s.flitsFlow k = true))
    ∧ (∃ k : Fin 16, ∃ s : State, ∃ r : Requester, (s.up = true) ∧ (s.mayWrite r (Reg.STR_CTL (portQ k) (portK k)) = true) ∧ (s.portSt k ≠ 0) ∧ (s.portSt k ≠ 4))
    ∧ (∃ k : Fin 16, ∃ s : State, ∃ r : Requester, (let st := Reg.STR_STATUS (portQ k) (portK k); (s.up = true) ∧ (s.mayWrite r (Reg.STR_CTL (portQ k) (portK k)) = true) ∧ (s.portSt k = 4) ∧ (s.loaded = false ∨ s.bit st Fd.STR_STATUS_SCHED = false)))
    ∧ (∃ k : Fin 16, ∃ s : State, ∃ r : Requester, (let st := Reg.STR_STATUS (portQ k) (portK k); (s.up = true) ∧ (s.mayWrite r (Reg.STR_CTL (portQ k) (portK k)) = true) ∧ (s.loaded = true) ∧ (s.bit st Fd.STR_STATUS_SCHED = true)))
    ∧ (∃ k : Fin 16, ∃ s : State, ∃ r : Requester, (s.up = true) ∧ (s.mayWrite r (Reg.STR_CTL (portQ k) (portK k)) = true) ∧ (s.portSt k = 5))
    ∧ (∃ k : Fin 16, ∃ s : State, ∃ r : Requester, (s.up = true) ∧ (s.mayWrite r (Reg.STR_CTL (portQ k) (portK k)) = true) ∧ (2 ≤ s.portSt k) ∧ (s.portSt k ≤ 4))
    ∧ (∃ k : Fin 16, ∃ s : State, ∃ r : Requester, (s.up = true) ∧ (s.mayWrite r (Reg.STR_CTL (portQ k) (portK k)) = true) ∧ (s.portSt k = 3))
    ∧ (∃ k : Fin 16, ∃ s : State, ∃ r : Requester, (s.up = true) ∧ (s.mayWrite r (Reg.STR_CTL (portQ k) (portK k)) = true) ∧ (s.portSt k ≠ 0) ∧ (s.portSt k ≠ 6) ∧ (s.flitsFlow k = true)) := by
  refine ⟨?_, ?_, ?_, ?_, ?_, ?_, ?_, ?_, ?_, ?_, ?_, ?_, ?_, ?_, ?_, ?_⟩
  · exact ⟨5, pst 5 1, [3], ([]:List (Fin 9)), by decide +kernel⟩
  · exact ⟨5, pst 5 1, [3,4], ([]:List (Fin 9)), by decide +kernel⟩
  · exact ⟨5, pst 5 1 {downs:=[0,0]}, by decide +kernel⟩
  · exact ⟨5, pst 5 4 {retraining:=true}, by decide +kernel⟩
  · exact ⟨5, pst 5 2, by decide +kernel⟩
  · exact ⟨5, pst 5 6, by decide +kernel⟩
  · exact ⟨5, w (pst 5 6 {}) [(Reg.STR_STATUS 1 1,Fd.STR_STATUS_HOLD,1)], .debug, by decide +kernel⟩
  · exact ⟨5, S0, .debug, by decide +kernel⟩
  · exact ⟨5, pst 5 4, .debug, by decide +kernel⟩
  · exact ⟨5, pst 5 6, .debug, by decide +kernel⟩
  · exact ⟨5, pst 5 4, .debug, by decide +kernel⟩
  · exact ⟨5, w (pst 5 4) [(Reg.STR_STATUS 1 1,Fd.STR_STATUS_SCHED,1),(Reg.ISL_POLICY, Fd.ISL_POLICY_LOADED, 1)], .debug, by decide +kernel⟩
  · exact ⟨5, pst 5 5 {lb:=some 2}, .debug, by decide +kernel⟩
  · exact ⟨5, pst 5 3, .debug, by decide +kernel⟩
  · exact ⟨5, pst 5 3, .debug, by decide +kernel⟩
  · exact ⟨5, pst 5 2, .debug, by decide +kernel⟩

/-- PortStatesAndHello, part Hello: each clause has its hypotheses together. -/
theorem test_hyps_Hello :
    (∃ k : Fin 16, ∃ s : State, ∃ m : Msg, ((s.port k).head 3 = some m) ∧ (m.typ = 7) ∧ (m.vc = 3) ∧ (let x := s.port k; (let kind := bitsOf m.addr 7 0; (let i := bitsOf m.addr 31 16; (let n := bitsOf m.addr 47 32; (let f := x.frag.getD ⟨kind, n, 0, []⟩; (let here := m.dst = s.selfId (portQ k); (kind = 1 ∨ kind = 2) ∧ (s.portSt k = 2 ∨ here) ∧ (f.kind = kind) ∧ (f.count = n) ∧ (f.next = i) ∧ (i < n) ∧ (i + 1 < n))))))))
    ∧ (∃ k : Fin 16, ∃ s : State, ∃ m : Msg, ((s.port k).head 3 = some m) ∧ (m.typ = 7) ∧ (m.vc = 3) ∧ (let x := s.port k; (let kind := bitsOf m.addr 7 0; (let i := bitsOf m.addr 31 16; (let n := bitsOf m.addr 47 32; (let f := x.frag.getD ⟨kind, n, 0, []⟩; (let here := m.dst = s.selfId (portQ k); (kind = 1 ∨ kind = 2) ∧ (s.portSt k = 2 ∨ here) ∧ (f.kind = kind) ∧ (f.count = n) ∧ (f.next = i) ∧ (i < n) ∧ (i + 1 = n) ∧ (kind = 2) ∧ (s.portSt k = 2) ∧ (s.bit (Reg.STR_EXPECT (portQ k) (portK k)) Fd.STR_EXPECT_EN = false))))))))
    ∧ (∃ k : Fin 16, ∃ s : State, ∃ m : Msg, ((s.port k).head 3 = some m) ∧ (m.typ = 7) ∧ (m.vc = 3) ∧ (let kind := bitsOf m.addr 7 0; (let here := m.dst = s.selfId (portQ k); (kind ≠ 1) ∧ (kind ≠ 2) ∧ (s.portSt k ≠ 2) ∧ (here))))
    ∧ (∃ k : Fin 16, ∃ s : State, ∃ m : Msg, ∃ o, ((s.port k).head 3 = some m) ∧ (m.typ = 7) ∧ (m.vc = 3) ∧ (let here := m.dst = s.selfId (portQ k); (s.portSt k ≠ 2) ∧ (¬here) ∧ (s.route (portQ k) m.dst = some o) ∧ (o ≠ k) ∧ (m.hops < 15) ∧ (s.portSt o = 4))) := by
  refine ⟨?_, ?_, ?_, ?_⟩
  · exact ⟨5, hS (hlo 1 4 2 body1) (some ⟨2,4,1,[1,2]⟩), hlo 1 4 2 body1, by decide +kernel⟩
  · exact ⟨5, hS (hlo 3 4 2 body1) (some ⟨2,4,3,[1,2]⟩), hlo 3 4 2 body1, by decide +kernel⟩
  · exact ⟨5, msgS3 (hlo 1 4 5 body1) 0, hlo 1 4 5 body1, by decide +kernel⟩
  · exact ⟨5, msgS3 (hlo 1 4 5 body1) 9, hlo 1 4 5 body1, 9, by decide +kernel⟩

/-- LaneSparingAndLoopbacks, part StraitLoopbacks: each clause has its hypotheses together. -/
theorem test_hyps_StraitLoopbacks :
    (∃ r : Requester, ∃ k : Fin 16, ∃ v : BitVec 32, ∃ s : State, (let x := s.port k; (let lb := Reg.STR_LB_CTL (portQ k) (portK k); (s.up = true) ∧ (s.mayWrite r lb = true) ∧ (s.portSt k = 5) ∧ (x.lb = none) ∧ (x.lbAsk = false) ∧ (v.toNat % 8 < 4))))
    ∧ (∃ r : Requester, ∃ k : Fin 16, ∃ v : BitVec 32, ∃ s : State, (let x := s.port k; (let lb := Reg.STR_LB_CTL (portQ k) (portK k); (s.up = true) ∧ (s.mayWrite r lb = true) ∧ (s.portSt k = 5) ∧ (x.lb = none) ∧ (x.lbAsk = false) ∧ (v.toNat % 8 = 4))))
    ∧ (∃ k : Fin 16, ∃ s : State, ∃ b, (let x := s.port k; (x.subOf 3 = some b) ∧ (s.portSt k = 5) ∧ (x.caps / 4 % 2 = 1) ∧ (x.lb = none) ∧ (b.arg % 8 = 4) ∧ (x.lbAsk = false ∨ s.partnerFirst k = true)))
    ∧ (∃ k : Fin 16, ∃ s : State, ∃ b, (let x := s.port k; (x.subOf 3 = some b) ∧ (s.portSt k ≠ 5)))
    ∧ (∃ k : Fin 16, ∃ s : State, ∃ b, (let x := s.port k; (x.subOf 4 = some b) ∧ (x.lbAsk = true)))
    ∧ (∃ k : Fin 16, ∃ s : State, ∃ b, (let x := s.port k; (x.subOf 5 = some b) ∧ (x.lbAsk = true)))
    ∧ (∃ k : Fin 16, ∃ s : State, ∃ d : Nat, (let x := s.port k; (x.lb = some d) ∧ (d < 8) ∧ (d = 3 → (s.freeTrk (portQ k)).isSome = true))) := by
  refine ⟨?_, ?_, ?_, ?_, ?_, ?_, ?_⟩
  · exact ⟨.debug, 5, 3, pst 5 5, by decide +kernel⟩
  · exact ⟨.debug, 5, 4, pst 5 5, by decide +kernel⟩
  · exact ⟨5, pst 5 5 {subIn:=[⟨3,1,4,0⟩]}, ⟨3,1,4,0⟩, by decide +kernel⟩
  · exact ⟨5, pst 5 4 {subIn:=[⟨3,1,4,0⟩]}, ⟨3,1,4,0⟩, by decide +kernel⟩
  · exact ⟨5, pst 5 5 {subIn:=[⟨4,1,4,0⟩],lbAsk:=true}, ⟨4,1,4,0⟩, by decide +kernel⟩
  · exact ⟨5, pst 5 5 {subIn:=[⟨5,1,4,0⟩],lbAsk:=true}, ⟨5,1,4,0⟩, by decide +kernel⟩
  · exact ⟨5, pst 5 5 {lb:=some 1}, 1, by decide +kernel⟩

/-- RequestsAndResponses, part RequestsServed: each clause has its hypotheses together. -/
theorem test_hyps_RequestsServed :
    (∃ k : Fin 16, ∃ vc : Fin 4, ∃ s : State, ∃ m : Msg, ∃ a, ∃ o, ((s.port k).head vc = some m) ∧ (m.dst = s.selfId (portQ k)) ∧ (let q := portQ k; (let u := s.takeMsg k m; (m.typ = 1) ∧ (s.resolveAddr (m.addr % 2 ^ 48) = some a) ∧ (0 < m.len) ∧ (s.remKind a (64 * m.len) false = 0) ∧ ((u.busRead a (64 * m.len) 10 (remLisl m.src)).bad = false) ∧ (s.route q m.src = some o) ∧ (s.portSt o = 4))))
    ∧ (∃ k : Fin 16, ∃ vc : Fin 4, ∃ s : State, ∃ m : Msg, ∃ a, ((s.port k).head vc = some m) ∧ (m.dst = s.selfId (portQ k)) ∧ (m.typ = 3) ∧ (m.masked = false) ∧ (s.resolveAddr (m.addr % 2 ^ 48) = some a) ∧ (0 < m.data.length) ∧ (s.remKind a m.data.length true = 0) ∧ (region a ≠ .pcie) ∧ (s.bit Reg.ISL_SWAP_CTL Fd.ISL_SWAP_CTL_GO = false))
    ∧ (∃ k : Fin 16, ∃ vc : Fin 4, ∃ s : State, ∃ m : Msg, ∃ a, ∃ p, ((s.port k).head vc = some m) ∧ (m.dst = s.selfId (portQ k)) ∧ (m.typ = 4) ∧ (s.resolveAddr (m.addr % 2 ^ 48) = some a) ∧ (region a = .lag p) ∧ (region (a + 64 * m.len - 1) = .lag p) ∧ (s.pstate p ≠ 6) ∧ (0 < m.len))
    ∧ (∃ k : Fin 16, ∃ vc : Fin 4, ∃ s : State, ∃ m : Msg, ((s.port k).head vc = some m) ∧ (m.dst = s.selfId (portQ k)) ∧ (m.typ = 5) ∧ (m.buoyLisl < s.logicalCount) ∧ (m.buoyOp < 2)) := by
  refine ⟨?_, ?_, ?_, ?_⟩
  · exact ⟨5, 0, rxS rdM, rdM, hb+0x1000, 9, by decide +kernel⟩
  · exact ⟨5, 0, rxS wrM, wrM, hb+0x1000, by decide +kernel⟩
  · exact ⟨5, 0, rxS mgM, mgM, lagBase 7, 7, by decide +kernel⟩
  · exact ⟨5, 0, rxS byM, byM, by decide +kernel⟩

/-- RequestsAndResponses, part ResponsesAndForwarding: each clause has its hypotheses together. -/
theorem test_hyps_ResponsesAndForwarding :
    (∃ k : Fin 16, ∃ vc : Fin 4, ∃ s : State, ∃ m : Msg, ∃ e, ∃ w, ∃ md, ∃ ad, (let q := m.tag / 4096 % 4; (let i := m.tag % 4096; ((s.port k).head vc = some m) ∧ (m.dst = s.selfId (portQ k)) ∧ (m.typ = 2) ∧ (tget (fun _ => none) (s.qtr q).trk i = some e) ∧ (e.msg.gen = m.gen) ∧ (e.use = .read w md ad) ∧ ((s.qtr q).waitTrk = []) ∧ (m.status = 0))))
    ∧ (∃ k : Fin 16, ∃ vc : Fin 4, ∃ s : State, ∃ m : Msg, ∃ e, ∃ w, (let q := m.tag / 4096 % 4; (let i := m.tag % 4096; ((s.port k).head vc = some m) ∧ (m.dst = s.selfId (portQ k)) ∧ (m.typ = 6) ∧ (tget (fun _ => none) (s.qtr q).trk i = some e) ∧ (e.msg.gen = m.gen) ∧ (e.use = .write w) ∧ ((s.qtr q).waitTrk = []))))
    ∧ (∃ k : Fin 16, ∃ vc : Fin 4, ∃ s : State, ∃ m : Msg, (let q := m.tag / 4096 % 4; (let i := m.tag % 4096; ((s.port k).head vc = some m) ∧ (m.dst = s.selfId (portQ k)) ∧ (m.typ = 6) ∧ (tget (fun _ => none) (s.qtr q).trk i = none))))
    ∧ (∃ k : Fin 16, ∃ vc : Fin 4, ∃ s : State, ∃ m : Msg, ∃ j : Instr, ∃ typ : Nat, ∃ o : Nat, ((j, typ) ∈ [(Instr.rd k vc, 1), (Instr.rdRsp k vc, 2), (Instr.wr k vc, 3), (Instr.merge k vc, 4), (Instr.buoy k vc, 5), (Instr.cpl k vc, 6)]) ∧ ((s.port k).head vc = some m) ∧ (m.typ = typ) ∧ (m.dst ≠ s.selfId (portQ k)) ∧ (s.route (portQ k) m.dst = some o) ∧ (o ≠ k) ∧ (m.hops < 15) ∧ (s.portSt o = 4))
    ∧ (∃ s : State, ∃ m : Msg, ∃ q : Fin 4, ∃ i : Fin 4096, ∃ e, (let q := m.tag / 4096 % 4; (let i := m.tag % 4096; (tget (fun _ => none) (s.qtr q).trk i = some e) ∧ ((s.qtr q).waitTrk = []))))
    ∧ (∃ s : State, ∃ m : Msg, (let q := m.tag / 4096 % 4; (let i := m.tag % 4096; (i ∈ (s.qtr q).quarantine) ∧ ((s.qtr q).waitTrk = [])))) := by
  refine ⟨?_, ?_, ?_, ?_, ?_, ?_⟩
  · exact ⟨5, 1, trkS rsM (.read 4 3 64), rsM, ⟨5,rsM,.read 4 3 64⟩, 4, 3, 64, by decide +kernel⟩
  · exact ⟨5, 1, trkS cpM (.write 4), cpM, ⟨5,cpM,.write 4⟩, 4, by decide +kernel⟩
  · exact ⟨5, 1, rxS cpM, cpM, by decide +kernel⟩
  · exact ⟨5, 0, rxS fwM, fwM, .wr 5 0, 3, 9, by decide +kernel⟩
  · exact ⟨trkS cpM (.write 4), cpM, 1, 9, ⟨5,cpM,.write 4⟩, by decide +kernel⟩
  · exact ⟨S0.setQtr 1 {quarantine:=[9]}, cpM, by decide +kernel⟩

/-- TideLoads: each clause has its hypotheses together. -/
theorem test_hyps_TideLoads :
    (∃ r : Requester, ∃ s : State, (s.up = true) ∧ (s.mayWrite r Reg.TIDE_CTL = true) ∧ (s.loaded = true))
    ∧ (∃ r : Requester, ∃ s : State, (s.up = true) ∧ (s.mayWrite r Reg.TIDE_CTL = true) ∧ (s.loaded = false) ∧ (s.loadCheck = 0))
    ∧ (∃ r : Requester, ∃ s : State, (s.up = true) ∧ (s.mayWrite r Reg.TIDE_CTL = true) ∧ (s.loaded = false) ∧ (s.loadCheck ≠ 0))
    ∧ (∃ r : Requester, ∃ s : State, (s.up = true) ∧ (s.mayWrite r Reg.TIDE_CTL = true) ∧ (s.tideSt = 2 ∨ s.tideSt = 3 ∨ s.tideSt = 4))
    ∧ (∃ r : Requester, ∃ s : State, (s.up = true) ∧ (s.mayWrite r Reg.TIDE_CTL = true) ∧ (s.tideSt = 0 ∨ s.tideSt = 1))
    ∧ (∃ r : Requester, ∃ s : State, (s.up = true) ∧ (s.mayWrite r Reg.TIDE_CTL = true) ∧ (s.loaded = false))
    ∧ (∃ r : Requester, ∃ s : State, (s.up = true) ∧ (s.mayWrite r Reg.TIDE_CTL = true) ∧ (s.loaded = true) ∧ (s.tideSt ≠ 0) ∧ (s.tideSt ≠ 4) ∧ (s.bit Reg.TIDE_ERR Fd.TIDE_ERR_FAIL = false)) := by
  refine ⟨?_, ?_, ?_, ?_, ?_, ?_, ?_⟩
  · exact ⟨.debug, tS 1, by decide +kernel⟩
  · exact ⟨.debug, loadS, by decide +kernel⟩
  · exact ⟨.debug, S0, by decide +kernel⟩
  · exact ⟨.debug, tS 3 (S0.setSt 5 1 1), by decide +kernel⟩
  · exact ⟨.debug, tS 1, by decide +kernel⟩
  · exact ⟨.debug, S0, by decide +kernel⟩
  · exact ⟨.debug, tS 1, by decide +kernel⟩

/-- TideMarksAndStarts, part TideMarks: each clause has its hypotheses together. -/
theorem test_hyps_TideMarks :
    (∃ s : State, (s.tideSt ≠ 1))
    ∧ (∃ s : State, (let done := ∀ q, q < 4 → s.quarterDone q = true; (s.tideSt = 1) ∧ (¬done)))
    ∧ (∃ s : State, (let done := ∀ q, q < 4 → s.quarterDone q = true; (s.tideSt = 1) ∧ (done) ∧ (s.kidsIn = true) ∧ (s.isRoot = false)))
    ∧ (∃ s : State, (let done := ∀ q, q < 4 → s.quarterDone q = true; (s.tideSt = 1) ∧ (done) ∧ (s.kidsIn = true) ∧ (s.isRoot = true) ∧ (s.bit Reg.TIDE_CFG Fd.TIDE_CFG_HOLDGO = true) ∧ (s.bit Reg.TIDE_BCN_CFG Fd.TIDE_BCN_CFG_EN = false)))
    ∧ (∃ s : State, (let done := ∀ q, q < 4 → s.quarterDone q = true; (s.tideSt = 1) ∧ (done) ∧ (s.kidsIn = true) ∧ (s.isRoot = true) ∧ (s.bit Reg.TIDE_CFG Fd.TIDE_CFG_HOLDGO = false) ∧ (s.tideNum ≠ 0xFFFFFFFF))) := by
  refine ⟨?_, ?_, ?_, ?_, ?_⟩
  · exact ⟨S0, by decide +kernel⟩
  · exact ⟨tS 1 loadS, by decide +kernel⟩
  · exact ⟨tS 1 (islsMarked { treeS S0 with tide := { kids := [(9,mv)] } }), by decide +kernel⟩
  · exact ⟨tS 1 (islsMarked (w S0 [(Reg.TIDE_CFG, Fd.TIDE_CFG_ROOT, 1),(Reg.TIDE_CFG, Fd.TIDE_CFG_HOLDGO, 1)])), by decide +kernel⟩
  · exact ⟨tS 1 (islsMarked (w S0 [(Reg.TIDE_CFG, Fd.TIDE_CFG_ROOT, 1)])), by decide +kernel⟩

/-- TideMarksAndStarts, part TideStarts: each clause has its hypotheses together. -/
theorem test_hyps_TideStarts : ∃ k : Fin 16, ∃ s : State, ∃ m : Msg, (((s.port k).rxq.getD 2 []).find? (fun m => m.typ == 8) = some m) ∧ (m.tideKind = 2) ∧ (m.dst = s.selfId (portQ k)) ∧ (s.tideSt = 2) ∧ (s.fromParent k = true) ∧ (m.tideNo = (s.tideNum + 1) % 2 ^ 32) ∧ (s.bit Reg.ISL_SWAP_CTL Fd.ISL_SWAP_CTL_GO = false) ∧ (s.bit Reg.ISL_SWAP_CTL Fd.ISL_SWAP_CTL_HOLD = false) :=
  ⟨5, msgS 5 (tm 2 10 (goLine 1 123456789012 0)) (tS 2 ((treeS S0).setSt 5 1 4)), tm 2 10 (goLine 1 123456789012 0), by decide +kernel⟩

/-- MarksStretchesAndVerdicts, part MarksAndGoWrites: each clause has its hypotheses together. -/
theorem test_hyps_MarksAndGoWrites :
    (∃ k : Fin 16, ∃ s : State, ∃ m : Msg, (((s.port k).rxq.getD 2 []).find? (fun m => m.typ == 8) = some m) ∧ (m.tideKind = 1) ∧ (m.dst = s.selfId (portQ k)) ∧ (s.tideSt ≠ 4) ∧ (m.tideNo = s.tideNum) ∧ (s.tideSt ≠ 0) ∧ (k.val ∈ s.childPorts))
    ∧ (∃ k : Fin 16, ∃ s : State, ∃ m : Msg, (((s.port k).rxq.getD 2 []).find? (fun m => m.typ == 8) = some m) ∧ (m.tideKind = 1) ∧ (m.dst = s.selfId (portQ k)) ∧ (s.tideSt ≠ 4) ∧ (m.tideNo ≠ s.tideNum))
    ∧ (∃ r : Requester, ∃ s : State, (s.up = true) ∧ (s.mayWrite r Reg.TIDE_GO = true) ∧ (s.tideSt ≠ 3))
    ∧ (∃ r : Requester, ∃ s : State, (s.up = true) ∧ (s.mayWrite r Reg.TIDE_GO = true) ∧ (s.tideSt = 3) ∧ (s.tideNum ≠ 0xFFFFFFFF)) := by
  refine ⟨?_, ?_, ?_, ?_⟩
  · exact ⟨9, msgS 9 (tm 1 9 mv.line) (tS 2 (treeS S0)), tm 1 9 mv.line, by decide +kernel⟩
  · exact ⟨9, msgS 9 (tm 1 8 mv.line) (tS 1 (treeS S0)), tm 1 8 mv.line, by decide +kernel⟩
  · exact ⟨.debug, tS 2, by decide +kernel⟩
  · exact ⟨.debug, tS 3 loadS, by decide +kernel⟩

/-- MarksStretchesAndVerdicts, part Stretches: each clause has its hypotheses together. -/
theorem test_hyps_Stretches :
    (∃ us : Nat, ∃ s : State, (let v := tideCheck s; (let n := v.fld (Reg.TIDE_TYPE (v.tideNum % v.nTypes)) Fd.TIDE_TYPE_TLEN; (let sq := max 1 (v.fld Reg.TIDE_STRETCH Fd.TIDE_STRETCH_SQ); (let kk := v.fld Reg.TIDE_STATUS Fd.TIDE_STATUS_K; (v.tideSt = 1) ∧ (v.tideNum = s.tideNum) ∧ (v.tide.startMarker = false) ∧ (n ≠ 0) ∧ (∃ q, q < 4 ∧ v.quarterDone q = false) ∧ (n + kk * sq < us) ∧ (v.tide.stretchUp ≤ kk) ∧ (v.isRoot = false))))))
    ∧ (∃ us : Nat, ∃ s : State, (let v := tideCheck s; (let n := v.fld (Reg.TIDE_TYPE (v.tideNum % v.nTypes)) Fd.TIDE_TYPE_TLEN; (let sq := max 1 (v.fld Reg.TIDE_STRETCH Fd.TIDE_STRETCH_SQ); (let kk := v.fld Reg.TIDE_STATUS Fd.TIDE_STATUS_K; (v.tideSt = 1) ∧ (v.tideNum = s.tideNum) ∧ (v.tide.startMarker = false) ∧ (n ≠ 0) ∧ (∃ q, q < 4 ∧ v.quarterDone q = false) ∧ (n + kk * sq < us) ∧ (v.tide.stretchUp ≤ kk) ∧ (v.isRoot = true) ∧ (kk + 1 ≤ v.fld Reg.TIDE_STRETCH Fd.TIDE_STRETCH_SMAX))))))
    ∧ (∃ us : Nat, ∃ s : State, (let v := tideCheck s; (let n := v.fld (Reg.TIDE_TYPE (v.tideNum % v.nTypes)) Fd.TIDE_TYPE_TLEN; (let sq := max 1 (v.fld Reg.TIDE_STRETCH Fd.TIDE_STRETCH_SQ); (let kk := v.fld Reg.TIDE_STATUS Fd.TIDE_STATUS_K; (v.tideSt = 1) ∧ (v.tideNum = s.tideNum) ∧ (v.tide.startMarker = false) ∧ (n ≠ 0) ∧ (∃ q, q < 4 ∧ v.quarterDone q = false) ∧ (n + kk * sq < us) ∧ (v.tide.stretchUp ≤ kk) ∧ (v.isRoot = true) ∧ (v.fld Reg.TIDE_STRETCH Fd.TIDE_STRETCH_SMAX < kk + 1))))))
    ∧ (∃ us : Nat, ∃ s : State, (let v := tideCheck s; (let n := v.fld (Reg.TIDE_TYPE (v.tideNum % v.nTypes)) Fd.TIDE_TYPE_TLEN; (let sq := max 1 (v.fld Reg.TIDE_STRETCH Fd.TIDE_STRETCH_SQ); (let kk := v.fld Reg.TIDE_STATUS Fd.TIDE_STATUS_K; (v.tideSt = 1) ∧ (v.tideNum = s.tideNum) ∧ (v.tide.startMarker = false) ∧ (n ≠ 0) ∧ (∀ q, q < 4 → v.quarterDone q = true) ∧ (v.isRoot = true) ∧ (n + (kk + 1) * sq < us) ∧ (v.bit Reg.TIDE_ERR Fd.TIDE_ERR_FAIL = false))))))
    ∧ (∃ k : Fin 16, ∃ s : State, ∃ m : Msg, (((s.port k).rxq.getD 2 []).find? (fun m => m.typ == 8) = some m) ∧ (m.dst = s.selfId (portQ k)) ∧ (s.tideSt ≠ 0) ∧ (s.tideSt ≠ 4) ∧ (m.tideKind = 3) ∧ (m.tideNo = s.tideNum) ∧ (k.val ∈ s.childPorts) ∧ (s.isRoot = true) ∧ (s.fld Reg.TIDE_STATUS Fd.TIDE_STATUS_K < m.lineNat 0 4) ∧ (m.lineNat 0 4 ≤ s.fld Reg.TIDE_STRETCH Fd.TIDE_STRETCH_SMAX))
    ∧ (∃ k : Fin 16, ∃ s : State, ∃ m : Msg, (((s.port k).rxq.getD 2 []).find? (fun m => m.typ == 8) = some m) ∧ (m.dst = s.selfId (portQ k)) ∧ (s.tideSt ≠ 0) ∧ (s.tideSt ≠ 4) ∧ (m.tideKind = 3) ∧ (m.tideNo = s.tideNum) ∧ (k.val ∈ s.childPorts) ∧ (s.isRoot = false) ∧ (s.tide.stretchUp < m.lineNat 0 4))
    ∧ (∃ k : Fin 16, ∃ s : State, ∃ m : Msg, (((s.port k).rxq.getD 2 []).find? (fun m => m.typ == 8) = some m) ∧ (m.dst = s.selfId (portQ k)) ∧ (s.tideSt ≠ 0) ∧ (s.tideSt ≠ 4) ∧ (m.tideKind = 4) ∧ (m.tideNo = s.tideNum) ∧ (s.fromParent k = true))
    ∧ (∃ k : Fin 16, ∃ s : State, ∃ m : Msg, (((s.port k).rxq.getD 2 []).find? (fun m => m.typ == 8) = some m) ∧ (m.dst = s.selfId (portQ k)) ∧ (s.tideSt ≠ 0) ∧ (s.tideSt ≠ 4) ∧ (m.tideKind = 5) ∧ (s.fromParent k = true ∨ k.val ∈ s.childPorts) ∧ (s.bit Reg.TIDE_ERR Fd.TIDE_ERR_FAIL = false)) := by
  refine ⟨?_, ?_, ?_, ?_, ?_, ?_, ?_, ?_⟩
  · exact ⟨500, w (tS 1 (treeS loadS)) [(Reg.TIDE_TYPE 0, Fd.TIDE_TYPE_TLEN, 100),(Reg.TIDE_STRETCH,Fd.TIDE_STRETCH_SQ,10),(Reg.TIDE_STRETCH,Fd.TIDE_STRETCH_SMAX,3),(Reg.TIDE_CFG, Fd.TIDE_CFG_ROOT, 0)], by decide +kernel⟩
  · exact ⟨500, w (tS 1 loadS) [(Reg.TIDE_TYPE 0, Fd.TIDE_TYPE_TLEN, 100),(Reg.TIDE_STRETCH,Fd.TIDE_STRETCH_SQ,10),(Reg.TIDE_STRETCH,Fd.TIDE_STRETCH_SMAX,3),(Reg.TIDE_CFG, Fd.TIDE_CFG_ROOT, 1)], by decide +kernel⟩
  · exact ⟨500, w (tS 1 loadS) [(Reg.TIDE_TYPE 0, Fd.TIDE_TYPE_TLEN, 100),(Reg.TIDE_STRETCH,Fd.TIDE_STRETCH_SQ,10),(Reg.TIDE_STRETCH,Fd.TIDE_STRETCH_SMAX,0),(Reg.TIDE_CFG, Fd.TIDE_CFG_ROOT, 1)], by decide +kernel⟩
  · exact ⟨500, w (tS 1 (islsMarked (treeS S0))) [(Reg.TIDE_TYPE 0, Fd.TIDE_TYPE_TLEN, 100),(Reg.TIDE_STRETCH,Fd.TIDE_STRETCH_SQ,10),(Reg.TIDE_STRETCH,Fd.TIDE_STRETCH_SMAX,0),(Reg.TIDE_CFG, Fd.TIDE_CFG_ROOT, 1)], by decide +kernel⟩
  · exact ⟨9, msgS 9 (tm 3 9 (leBytes 4 2 ++ leBytes 4 5)) (w (tS 1 (treeS loadS)) [(Reg.TIDE_TYPE 0, Fd.TIDE_TYPE_TLEN, 100),(Reg.TIDE_STRETCH,Fd.TIDE_STRETCH_SQ,10),(Reg.TIDE_STRETCH,Fd.TIDE_STRETCH_SMAX,3),(Reg.TIDE_CFG, Fd.TIDE_CFG_ROOT, 1)]), tm 3 9 (leBytes 4 2 ++ leBytes 4 5), by decide +kernel⟩
  · exact ⟨9, msgS 9 (tm 3 9 (leBytes 4 2 ++ leBytes 4 5)) (w (tS 1 (treeS loadS)) [(Reg.TIDE_TYPE 0, Fd.TIDE_TYPE_TLEN, 100),(Reg.TIDE_STRETCH,Fd.TIDE_STRETCH_SQ,10),(Reg.TIDE_STRETCH,Fd.TIDE_STRETCH_SMAX,3),(Reg.TIDE_CFG, Fd.TIDE_CFG_ROOT, 0)]), tm 3 9 (leBytes 4 2 ++ leBytes 4 5), by decide +kernel⟩
  · exact ⟨5, msgS 5 (tm 4 9 (leBytes 4 2)) (w (tS 1 (treeS loadS)) [(Reg.TIDE_TYPE 0, Fd.TIDE_TYPE_TLEN, 100),(Reg.TIDE_STRETCH,Fd.TIDE_STRETCH_SQ,10),(Reg.TIDE_STRETCH,Fd.TIDE_STRETCH_SMAX,3),(Reg.TIDE_CFG, Fd.TIDE_CFG_ROOT, 0)]), tm 4 9 (leBytes 4 2), by decide +kernel⟩
  · exact ⟨9, msgS 9 (tm 5 9 (leBytes 4 2++leBytes 4 5)) (w (tS 1 (treeS loadS)) [(Reg.TIDE_TYPE 0, Fd.TIDE_TYPE_TLEN, 100),(Reg.TIDE_STRETCH,Fd.TIDE_STRETCH_SQ,10),(Reg.TIDE_STRETCH,Fd.TIDE_STRETCH_SMAX,3),(Reg.TIDE_CFG, Fd.TIDE_CFG_ROOT, 0)]), tm 5 9 (leBytes 4 2++leBytes 4 5), by decide +kernel⟩

/-- MarksStretchesAndVerdicts, part BeaconVerdicts: each clause has its hypotheses together. -/
theorem test_hyps_BeaconVerdicts :
    (∃ s : State, ∃ n : Nat, (let gate := s.tide.startMarker = false ∧ s.isGate n = true; (¬gate)))
    ∧ (∃ s : State, ∃ n : Nat, (let wplaus := s.bit Reg.TIDE_BCN_VERDICT Fd.TIDE_BCN_VERDICT_WPLAUS; (let gate := s.tide.startMarker = false ∧ s.isGate n = true; (gate) ∧ (wplaus = true))))
    ∧ (∃ s : State, ∃ n : Nat, ∃ nsq : Nat, (let wplaus := s.bit Reg.TIDE_BCN_VERDICT Fd.TIDE_BCN_VERDICT_WPLAUS; (let lossN := (s.reg Reg.TIDE_BCN_WLOSSN).toNat; (let gate := s.tide.startMarker = false ∧ s.isGate n = true; (let breaks := (s.reg Reg.TIDE_BCN_NFMAX).toNat < (s.reg Reg.TIDE_BCN_WNONFIN).toNat ∨ (s.reg Reg.TIDE_BCN_BDMAX).toNat < (s.reg Reg.TIDE_BCN_WBOUND).toNat ∨ (f64 nsq).nonfin = true ∨ (0 < lossN ∧ (f32 s.beaconL).nonfin = true) ∨ (0 < lossN ∧ s.fld Reg.TIDE_BCN_CFG Fd.TIDE_BCN_CFG_WARM ≤ (s.reg Reg.TIDE_BCN_WINS).toNat ∧ (f32 (f32Mul (s.reg Reg.TIDE_BCN_EMA).toNat (s.reg Reg.TIDE_BCN_SPIKE).toNat)).lt (f32 s.beaconL) = true); (gate) ∧ (wplaus = false) ∧ (breaks))))))
    ∧ (∃ s : State, ∃ n : Nat, ∃ nsq : Nat, (let wplaus := s.bit Reg.TIDE_BCN_VERDICT Fd.TIDE_BCN_VERDICT_WPLAUS; (let lossN := (s.reg Reg.TIDE_BCN_WLOSSN).toNat; (let gate := s.tide.startMarker = false ∧ s.isGate n = true; (let breaks := (s.reg Reg.TIDE_BCN_NFMAX).toNat < (s.reg Reg.TIDE_BCN_WNONFIN).toNat ∨ (s.reg Reg.TIDE_BCN_BDMAX).toNat < (s.reg Reg.TIDE_BCN_WBOUND).toNat ∨ (f64 nsq).nonfin = true ∨ (0 < lossN ∧ (f32 s.beaconL).nonfin = true) ∨ (0 < lossN ∧ s.fld Reg.TIDE_BCN_CFG Fd.TIDE_BCN_CFG_WARM ≤ (s.reg Reg.TIDE_BCN_WINS).toNat ∧ (f32 (f32Mul (s.reg Reg.TIDE_BCN_EMA).toNat (s.reg Reg.TIDE_BCN_SPIKE).toNat)).lt (f32 s.beaconL) = true); (gate) ∧ (wplaus = false) ∧ (¬breaks)))))) := by
  refine ⟨?_, ?_, ?_, ?_⟩
  · exact ⟨w (tS 1) [(Reg.TIDE_BCN_CFG,Fd.TIDE_BCN_CFG_GTYPE,1)], 9, by decide +kernel⟩
  · exact ⟨w (tS 1) [(Reg.TIDE_BCN_VERDICT, Fd.TIDE_BCN_VERDICT_WPLAUS,1)], 9, by decide +kernel⟩
  · exact ⟨tS 1, 9, 0x7FF0000000000000, by decide +kernel⟩
  · exact ⟨tS 1, 9, 0, by decide +kernel⟩

/-- SumsAndReductions, part ExactSums: each clause has its hypotheses together. -/
theorem test_hyps_ExactSums :
    (∃ ws : List Nat, ∃ vs : List Nat, (ws.Perm vs))
    ∧ (∃ ws : List Nat, (∀ w ∈ ws, w < 2 ^ 64 ∧ -2 ^ 62 ≤ sext 64 w ∧ sext 64 w < 2 ^ 62) ∧ (-2 ^ 62 ≤ (ws.map (sext 64)).foldr (· + ·) 0) ∧ ((ws.map (sext 64)).foldr (· + ·) 0 < 2 ^ 62))
    ∧ (∃ ws : List Nat, (0x8000000000000000 ∈ ws ∨ (0x8000000000000001 ∈ ws ∧ 0x8000000000000002 ∈ ws)))
    ∧ (∃ w : Int, ∃ bits : Nat, ∃ neg, ∃ m, ∃ e, (f32 bits = .fin neg m e) ∧ (2 ^ 52 ≤ roundTo .rne m e w))
    ∧ (∃ w : Int, ∃ bits : Nat, ∃ neg, ∃ m, ∃ e, (f32 bits = .fin neg m e) ∧ (roundTo .rne m e w < 2 ^ 52)) := by
  refine ⟨?_, ?_, ?_, ?_, ?_⟩
  · exact ⟨[1,2,3], [3,1,2], by decide +kernel⟩
  · exact ⟨[1,2^64-5,3], by decide +kernel⟩
  · exact ⟨[5,0x8000000000000002,1,0x8000000000000001], by decide +kernel⟩
  · exact ⟨-200, 0xBF800000, true, 0x800000, -23, by decide +kernel⟩
  · exact ⟨-30, 0xBF800000, true, 0x800000, -23, by decide +kernel⟩

/-- SumsAndReductions, part Reductions: each clause has its hypotheses together. -/
theorem test_hyps_Reductions :
    (∃ ch : Fin 8, ∃ s : State, ∃ b, ∃ r, ((s.chan ch).cur = none) ∧ ((s.chan ch).trig = b :: r))
    ∧ (∃ ch : Fin 8, ∃ s : State, ∃ r : BktRun, ((s.chan ch).cur = some r) ∧ (let raw := s.bktRaw r.bkt; (let tree := s.bktTree r.bkt; (let n := bktElems raw; (bktCh raw = ch.val) ∧ (r.up < n) ∧ (treeKids tree = []) ∧ (treeRoot tree = true) ∧ (s.bit Reg.ISL_SWAP_CTL Fd.ISL_SWAP_CTL_GO = false) ∧ (let len := min 64 (n - r.up); (r.written + len < n))))))
    ∧ (∃ ch : Fin 8, ∃ s : State, ∃ r : BktRun, ((s.chan ch).cur = some r) ∧ (let raw := s.bktRaw r.bkt; (let tree := s.bktTree r.bkt; (let n := bktElems raw; (bktCh raw = ch.val) ∧ (r.up < n) ∧ (treeKids tree = []) ∧ (treeRoot tree = false) ∧ (s.portSt (treeParent tree) = 4) ∧ ((s.chan ch).got = [])))))
    ∧ (∃ ch : Fin 8, ∃ s : State, ∃ r : BktRun, ((s.chan ch).cur = some r) ∧ (s.sumsChunk ch r = true) ∧ (s.tideSt ≠ 0) ∧ (s.tideSt ≠ 4) ∧ (s.bit Reg.TIDE_ERR Fd.TIDE_ERR_FAIL = false))
    ∧ (∃ k : Fin 16, ∃ s : State, ∃ m : Msg, (((s.port k).rxq.getD 2 []).find? (fun m => m.typ == 9 && !s.redHeld m) = some m) ∧ (m.dst = s.selfId (portQ k)) ∧ (s.redOk k m = false) ∧ (s.tideSt ≠ 0) ∧ (s.tideSt ≠ 4) ∧ (s.bit Reg.TIDE_ERR Fd.TIDE_ERR_FAIL = false))
    ∧ (∃ k : Fin 16, ∃ s : State, ∃ m : Msg, (((s.port k).rxq.getD 2 []).find? (fun m => m.typ == 9 && !s.redHeld m) = some m) ∧ (m.dst = s.selfId (portQ k)) ∧ (s.redOk k m = true) ∧ (bitsOf m.addr 19 19 = 0)) := by
  refine ⟨?_, ?_, ?_, ?_, ?_, ?_⟩
  · exact ⟨3, S0.setChan 3 {trig:=[6,7]}, 6, [7], by decide +kernel⟩
  · exact ⟨3, srcS (tS 1 (chS S0 (bk (hb+0x1000) (hb+0x9000) 512 2 3 true) (grp 77 16 3) 3 (some {bkt:=6}))), {bkt:=6}, by decide +kernel⟩
  · exact ⟨3, srcS (tS 2 (chS (treeS S0) (bk (hb+0x1000) (hb+0x9000) 512 2 3 true) (grp 77 5 3) 3 (some {bkt:=6}))), {bkt:=6}, by decide +kernel⟩
  · exact ⟨3, srcS (tS 2 (chS (treeS S0) (bk (hb+0x1000) (hb+0x9000) 512 2 3 true) (grp 77 5 3) 3 (some {bkt:=6}))), {bkt:=6}, by decide +kernel⟩
  · exact ⟨5, msgS 5 (redM false true) (tS 1 (chS (treeS S0) (bk (hb+0x1000) (hb+0x9000) 512 2 3 true) (grp 77 (0x2000000+5) 3) 3 (some {bkt:=6}))), redM false true, by decide +kernel⟩
  · exact ⟨9, msgS 9 (redM false true) (tS 2 (chS (treeS S0) (bk (hb+0x1000) (hb+0x9000) 512 2 3 true) (grp 77 (0x2000000+5) 3) 3 (some {bkt:=6}))), redM false true, by decide +kernel⟩

/-- ManagerRoles: each clause has its hypotheses together. -/
theorem test_hyps_ManagerRoles :
    (∃ cands : List Candidate, ∃ s : State, (s.up = true) ∧ (cands ≠ []))
    ∧ (∃ s : State, (s.fw.manager = s.selfId 0 + 1))
    ∧ (∃ s : State, (s.fw.standby = s.selfId 0 + 1)) := by
  refine ⟨?_, ?_, ?_⟩
  · exact ⟨[⟨5,1,9⟩,⟨6,2,9⟩,⟨7,2,3⟩], S0, by decide +kernel⟩
  · exact ⟨({ selfS with fw := {manager:=8} }:State), by decide +kernel⟩
  · exact ⟨({ selfS with fw := {standby:=8} }:State), by decide +kernel⟩

/-- FusedUpdates, part UpdateGroups: each clause has its hypotheses together. -/
theorem test_hyps_UpdateGroups :
    (∃ u : Fin 8, ∃ s : State, ∃ d : Nat, ∃ inplace : Bool, ∃ prog : List Nat, (fuuOp d ≤ 3) ∧ (s.fuAddrsOk u d = true) ∧ (∀ a, hbmBase u ≤ a → a < hbmBase (u + 1) → s.cwAt a = .ok) ∧ (let n := fuCount d; (let j := s.updJob u d inplace prog; (∀ x ∈ j.reads, ∀ y ∈ j.writes, x = y ∨ x + 4 * n ≤ y ∨ y + 4 * n ≤ x) ∧ (j.writes.Pairwise fun x y => x + 4 * n ≤ y ∨ y + 4 * n ≤ x))))
    ∧ (∃ u : Fin 8, ∃ s : State, ∃ d : Nat, ∃ inplace : Bool, ∃ prog : List Nat, ∃ i, (fuuOp d ≤ 3) ∧ (s.fuAddrsOk u d = true) ∧ (∀ a, hbmBase u ≤ a → a < hbmBase (u + 1) → s.cwAt a = .ok) ∧ (let n := fuCount d; (let j := s.updJob u d inplace prog; (∀ x ∈ j.reads, ∀ y ∈ j.writes, x = y ∨ x + 4 * n ≤ y ∨ y + 4 * n ≤ x) ∧ (j.writes.Pairwise fun x y => x + 4 * n ≤ y ∨ y + 4 * n ≤ x) ∧ (i < n))))
    ∧ (∃ u : Fin 8, ∃ s : State, ∃ d : Nat, ∃ inplace : Bool, ∃ prog : List Nat, ∃ b, (fuuOp d ≤ 3) ∧ (s.fuAddrsOk u d = true) ∧ (∀ a, hbmBase u ≤ a → a < hbmBase (u + 1) → s.cwAt a = .ok) ∧ (let n := fuCount d; (let j := s.updJob u d inplace prog; (∀ x ∈ j.reads, ∀ y ∈ j.writes, x = y ∨ x + 4 * n ≤ y ∨ y + 4 * n ≤ x) ∧ (j.writes.Pairwise fun x y => x + 4 * n ≤ y ∨ y + 4 * n ≤ x) ∧ (∀ a ∈ j.writes, ¬(a ≤ b ∧ b < a + 4 * n))))) := by
  refine ⟨?_, ?_, ?_⟩
  · exact ⟨0, dataS (fS 0 100 0), de 2 100, false, ([]:List Nat), by exact ⟨by decide +kernel, by decide +kernel, fun _ _ _ => rfl, by decide +kernel⟩⟩
  · exact ⟨0, dataS (fS 0 100 0), de 2 100, false, ([]:List Nat), 77, by exact ⟨by decide +kernel, by decide +kernel, fun _ _ _ => rfl, by decide +kernel⟩⟩
  · exact ⟨0, dataS (fS 0 100 0), de 2 100, false, ([]:List Nat), hb+0x100004, by exact ⟨by decide +kernel, by decide +kernel, fun _ _ _ => rfl, by decide +kernel⟩⟩

/-- FusedUpdates, part UpdateRuns: each clause has its hypotheses together. -/
theorem test_hyps_UpdateRuns :
    (∃ u : Fin 8, ∃ rt : List GroupRetry, ∃ i : Instr, ∃ op : Nat, ∃ s : State, ∃ r : FuuRun, ∃ rest : List FuuRun, ∃ s1, ∃ A, ∃ u1, ∃ u2, ∃ u3, ∃ vals, ∃ wb, ∃ u4, ((i, op) ∈ [(Instr.adam u rt, 0), (Instr.momentum u rt, 1), (Instr.sgd u rt, 2), (Instr.ucode u rt, 3), (Instr.reload u rt, 4)]) ∧ ((s.fuu u).runs = r :: rest) ∧ (r.work = none) ∧ (let d := s.fuuEntry u r.pos; (let q := u.val / 2; (let k := u.val % 2; (s.fuTouch u r.pos = (false, s1)) ∧ (let s2 : State := if op = 3 then { s1 with freeCtr := s1.freeCtr + 16 * fuCount d } else s1; (fuuOp d = op) ∧ (s.fuCheck u d = 0) ∧ (s.findWork s.nextWork = none) ∧ (let c := parseChart (s.fuChart u d); ((s2.addWork 6 .pilot 0).2.fuAcc u d s.nextWork = (A, u1)) ∧ (u1.workFail A c d = (none, u2)) ∧ (u2.fuGroups u A.lisl (fuCount d) rt (if op = 4 then s1.reloadJob u d else s1.updJob u d r.inplace ((s.uProg u 64 (fuD d 0 23 16)).getD [])) (fuGroupCount d) 0 = (some vals, u3)) ∧ (let u3' := if r.set = 0 then u3.count (Reg.FUU_CNT_PARAMS q k) (fuCount d) else u3; (u3'.workPut A (parseChart (u3'.fuChart u d)) d (u3'.fuTide u d) vals.zipIdx = (.ok wb, u4)) ∧ (∀ b ∈ wb, b.1 = 0) ∧ (∀ x, u4.findWork A.work = some x → x.out = 0) ∧ ((u4.fuu u).runs = r :: rest))))))))
    ∧ (∃ u : Fin 8, ∃ rt : List GroupRetry, ∃ i : Instr, ∃ op : Nat, ∃ s : State, ∃ r : FuuRun, ∃ rest : List FuuRun, ∃ s1, ∃ A, ∃ u1, ∃ u2, ∃ f, ((i, op) ∈ [(Instr.adam u rt, 0), (Instr.momentum u rt, 1), (Instr.sgd u rt, 2), (Instr.ucode u rt, 3), (Instr.reload u rt, 4)]) ∧ ((s.fuu u).runs = r :: rest) ∧ (r.work = none) ∧ (let d := s.fuuEntry u r.pos; (s.fuTouch u r.pos = (false, s1)) ∧ (let s2 : State := if op = 3 then { s1 with freeCtr := s1.freeCtr + 16 * fuCount d } else s1; (fuuOp d = op) ∧ (s.fuCheck u d = 0) ∧ (s.findWork s.nextWork = none) ∧ ((s2.addWork 6 .pilot 0).2.fuAcc u d s.nextWork = (A, u1)) ∧ (u1.workFail A (parseChart (s.fuChart u d)) d = (some f, u2)))))
    ∧ (∃ u : Fin 8, ∃ rt : List GroupRetry, ∃ i : Instr, ∃ op : Nat, ∃ s : State, ∃ r : FuuRun, ∃ rest : List FuuRun, ∃ s1, ∃ code, ((i, op) ∈ [(Instr.adam u rt, 0), (Instr.momentum u rt, 1), (Instr.sgd u rt, 2), (Instr.ucode u rt, 3), (Instr.reload u rt, 4)]) ∧ ((s.fuu u).runs = r :: rest) ∧ (r.work = none) ∧ (let d := s.fuuEntry u r.pos; (let q := u.val / 2; (let k := u.val % 2; (s.fuTouch u r.pos = (false, s1)) ∧ (fuuOp d = op ∨ (op ≤ 3 ∧ 7 ≤ fuuOp d)) ∧ (s.fuCheck u d = code) ∧ (code ≠ 0) ∧ (s.bit (Reg.FUU_ERR q k) Fd.FUU_ERR_FAULT = false) ∧ (s.bit (Reg.FUU_ERR q k) Fd.FUU_ERR_HARD = false) ∧ (r.pos < 1024))))) := by
  refine ⟨?_, ?_, ?_⟩
  · exact ⟨0, [], .sgd 0 [], 2, ur (chart 0 (hb+0x200000)), ⟨0,0,false,none⟩, ([]:List FuuRun), ((ur (chart 0 (hb+0x200000))).fuTouch 0 0).2, (ur1 (chart 0 (hb+0x200000))).1, (ur1 (chart 0 (hb+0x200000))).2, (ur2 (chart 0 (hb+0x200000))).2, (ur3 (chart 0 (hb+0x200000))).2, (ur3 (chart 0 (hb+0x200000))).1.getD [], okE [] (ur4 (chart 0 (hb+0x200000))), (ur4 (chart 0 (hb+0x200000))).2, by exact ⟨by simp, by decide +kernel, rfl, Prod.ext (by decide +kernel) rfl, by decide +kernel, by decide +kernel, by decide +kernel, rfl, Prod.ext (by decide +kernel) rfl, Prod.ext (by decide +kernel) rfl, okE_eq _ (by decide +kernel), by decide +kernel, findWork_all (by decide +kernel), by decide +kernel⟩⟩
  · exact ⟨0, [], .sgd 0 [], 2, ur badC, ⟨0,0,false,none⟩, ([]:List FuuRun), ((ur badC).fuTouch 0 0).2, (ur1 badC).1, (ur1 badC).2, (ur2 badC).2, (ur2 badC).1.getD ⟨0,0,0⟩, by exact ⟨by simp, by decide +kernel, rfl, Prod.ext (by decide +kernel) rfl, by decide +kernel, by decide +kernel, by decide +kernel, rfl, Prod.ext (by decide +kernel) rfl⟩⟩
  · exact ⟨0, [], .sgd 0 [], 2, fS 2 100 0, ⟨0,0,false,none⟩, ([]:List FuuRun), ((fS 2 100 0).fuTouch 0 0).2, 3, by decide +kernel⟩

/-- KeepCompareAndSets, part KeepAndCompare: each clause has its hypotheses together. -/
theorem test_hyps_KeepAndCompare :
    (∃ u : Fin 8, ∃ s : State, ∃ r : FuuRun, ∃ rest : List FuuRun, ((s.fuu u).runs = r :: rest) ∧ (r.work = none) ∧ (r.set ≠ 0) ∧ (let d := s.fuuEntry u r.pos; (let n := fuCount d; (s.fuCheck u d = 0) ∧ (∀ a, hbmBase u ≤ a → a < hbmBase (u + 1) → s.cwAt a = .ok) ∧ ((s.fuTouch u r.pos).1 = false) ∧ (fuuOp d = 5) ∧ (fuAddr d 3 + 4 * n ≤ fuAddr d 1 ∨ fuAddr d 1 + 4 * n ≤ fuAddr d 3))))
    ∧ (∃ u : Fin 8, ∃ s : State, ∃ r : FuuRun, ∃ rest : List FuuRun, ((s.fuu u).runs = r :: rest) ∧ (r.work = none) ∧ (r.set ≠ 0) ∧ (let d := s.fuuEntry u r.pos; (s.fuCheck u d = 0) ∧ (∀ a, hbmBase u ≤ a → a < hbmBase (u + 1) → s.cwAt a = .ok) ∧ ((s.fuTouch u r.pos).1 = false) ∧ (fuuOp d = 6))) := by
  refine ⟨?_, ?_⟩
  · exact ⟨0, dataS (fS 5 100 2), ⟨2,0,false,none⟩, ([]:List FuuRun), by exact ⟨by decide +kernel, rfl, by decide, by decide +kernel, fun _ _ _ => rfl, by decide +kernel⟩⟩
  · exact ⟨0, dataS (fS 6 100 3), ⟨3,0,false,none⟩, ([]:List FuuRun), by exact ⟨by decide +kernel, rfl, by decide, by decide +kernel, fun _ _ _ => rfl, by decide +kernel⟩⟩

/-- KeepCompareAndSets, part FuuSets: each clause has its hypotheses together. -/
theorem test_hyps_FuuSets :
    (∃ r : Requester, ∃ u : Fin 8, ∃ s : State, ∃ v : BitVec 32, ∃ e, (s.up = true) ∧ (let q := u.val / 2; (let k := u.val % 2; (s.mayWrite r (Reg.FUU_CTL q k) = true) ∧ (let set := v.toNat % 4; (set ≠ 0) ∧ (∀ x ∈ (s.fuu u).runs, x.set = 0) ∧ (s.fuuNext u set 0 = some e)))))
    ∧ (∃ r : Requester, ∃ u : Fin 8, ∃ s : State, ∃ v : BitVec 32, (s.up = true) ∧ (let q := u.val / 2; (let k := u.val % 2; (s.mayWrite r (Reg.FUU_CTL q k) = true) ∧ (let set := v.toNat % 4; (set ≠ 0) ∧ (∀ x ∈ (s.fuu u).runs, x.set = 0) ∧ (s.fuuNext u set 0 = none)))))
    ∧ (∃ r : Requester, ∃ u : Fin 8, ∃ s : State, ∃ v : BitVec 32, (s.up = true) ∧ (let q := u.val / 2; (let k := u.val % 2; (s.mayWrite r (Reg.FUU_CTL q k) = true) ∧ (let set := v.toNat % 4; (set = 0)))))
    ∧ (∃ r : Requester, ∃ u : Fin 8, ∃ s : State, (s.up = true) ∧ (let q := u.val / 2; (let k := u.val % 2; (s.mayWrite r (Reg.FUU_STATE q k) = true)))) := by
  refine ⟨?_, ?_, ?_, ?_⟩
  · exact ⟨Requester.debug, 0, (dataS (fS 5 100 2)).setFuu 0 {}, 2, 0, by decide +kernel⟩
  · exact ⟨Requester.debug, 0, (dataS (fS 5 100 2)).setFuu 0 {}, 1, by decide +kernel⟩
  · exact ⟨Requester.debug, 0, (dataS (fS 5 100 2)).setFuu 0 {}, 4, by decide +kernel⟩
  · exact ⟨Requester.debug, 0, lockS S0, by decide +kernel⟩

/-- Drains: each clause has its hypotheses together. -/
theorem test_hyps_Drains :
    (∃ s : State, ∃ md, ∃ q, (s.buddy = some (md, q)) ∧ (∀ u : Fin 8, s.bit (Reg.FUU_STATE (u / 2) (u % 2)) Fd.FUU_STATE_LOCK = true) ∧ (s.fw.drain = none))
    ∧ (∃ s : State, (s.fw.drain = none) ∧ (s.buddy = none ∨ ∃ u : Fin 8, s.bit (Reg.FUU_STATE (u / 2) (u % 2)) Fd.FUU_STATE_LOCK = false))
    ∧ (∃ s : State, ∃ d, (s.fw.drain = some d) ∧ (s.drainThere d = true) ∧ (d.final = false) ∧ (s.ferryFull 0 = false))
    ∧ (∃ s : State, ∃ d, (s.fw.drain = some d) ∧ (s.drainThere d = true) ∧ (d.final = true))
    ∧ (∃ s : State, ∃ d, (s.fw.drain = some d) ∧ (s.drainThere d = false))
    ∧ (∃ s : State, (s.fw.drain.isSome = true ∨ (∃ u : Fin 8, s.bit (Reg.FUU_STATE (u / 2) (u % 2)) Fd.FUU_STATE_LOCK = true)))
    ∧ (∃ s : State, (s.fw.drain = none) ∧ (∀ u : Fin 8, s.bit (Reg.FUU_STATE (u / 2) (u % 2)) Fd.FUU_STATE_LOCK = false)) := by
  refine ⟨?_, ?_, ?_, ?_, ?_, ?_, ?_⟩
  · exact ⟨lockS (pst 5 4 {} (selfS S0)), (lockS (pst 5 4 {} (selfS S0))).partnerId 5, 1, by decide +kernel⟩
  · exact ⟨S0, by decide +kernel⟩
  · exact ⟨drT (drD [] false) (lockS S0), drD [] false, by decide +kernel⟩
  · exact ⟨drT (drD [] true) (lockS S0), drD [] true, by decide +kernel⟩
  · exact ⟨drS (lockS S0), drD [1] false, by decide +kernel⟩
  · exact ⟨drT (drD [] true) (lockS S0), by decide +kernel⟩
  · exact ⟨S0, by decide +kernel⟩

/-- ReplayAndRestore, part WindowReplays: each clause has its hypotheses together. -/
theorem test_hyps_WindowReplays :
    (∃ s : State, ∃ buddy : Option Bool, ∃ isl, ∃ exch, ∃ own, (s.fw.replay = none) ∧ (s.tideSt = 2 ∨ (s.tideSt = 3 ∧ s.fld Reg.TIDE_BCN_VERDICT Fd.TIDE_BCN_VERDICT_VERDICT = 3)) ∧ (s.chooseSubst buddy = some (isl, exch, own)))
    ∧ (∃ s : State, ∃ buddy : Option Bool, (s.fw.replay = none) ∧ (s.tideSt = 2 ∨ (s.tideSt = 3 ∧ s.fld Reg.TIDE_BCN_VERDICT Fd.TIDE_BCN_VERDICT_VERDICT = 3)) ∧ (s.chooseSubst buddy = none))
    ∧ (∃ s : State, ∃ r : Replay, (s.fw.replay = some r) ∧ (let done := ∀ u : Fin 8, ∀ x ∈ (s.fuu u).runs, x.set = 0; (r.step = 2) ∧ (done) ∧ (s.loaded = true) ∧ (1 ≤ s.tideSt) ∧ (s.tideSt ≤ 4)))
    ∧ (∃ s : State, ∃ r : Replay, ∃ a : Fin 144, ∃ b : Fin 144, (s.fw.replay = some r) ∧ (r.step = 3) ∧ (s.loaded = false) ∧ (r.isl = some (a.val, b.val)) ∧ (s.logicalOf a < 136) ∧ (s.pinned a = false) ∧ (s.pstate b = 2) ∧ (quarterOf a = quarterOf b) ∧ (a ≠ b))
    ∧ (∃ s : State, ∃ r : Replay, (s.fw.replay = some r) ∧ (r.step = 3) ∧ (s.loaded = false) ∧ (r.isl = none) ∧ (r.exch = false))
    ∧ (∃ s : State, ∃ r : Replay, (s.fw.replay = some r) ∧ (r.step = 4) ∧ (s.findWork r.work = none) ∧ (r.exch = false))
    ∧ (∃ s : State, ∃ r : Replay, (s.fw.replay = some r) ∧ (let done := ∀ u : Fin 8, ∀ x ∈ (s.fuu u).runs, x.set = 0; (r.step = 5) ∧ (done)))
    ∧ (∃ s : State, ∃ r : Replay, (s.fw.replay = some r) ∧ (r.step = 6) ∧ (s.tideSt = 2 ∨ s.tideSt = 3) ∧ (s.isGate s.tideNum = true))
    ∧ (∃ s : State, ∃ r : Replay, (s.fw.replay = some r) ∧ (let done := ∀ u : Fin 8, ∀ x ∈ (s.fuu u).runs, x.set = 0; (r.step = 7) ∧ (done) ∧ (s.isRoot = false ∨ (s.tideSt = 3 ∧ 2 < s.fld Reg.TIDE_BCN_VERDICT Fd.TIDE_BCN_VERDICT_VERDICT)))) := by
  refine ⟨?_, ?_, ?_, ?_, ?_, ?_, ?_, ?_, ?_⟩
  · exact ⟨tS 2 (allT (put S0 (hb+0x400) 64 (de 5 8))), none, none, false, false, by decide +kernel⟩
  · exact ⟨tS 2 (S0.setReg (plausReg 5) 32), some true, by decide +kernel⟩
  · exact ⟨rpR ⟨2,none,5,false,false,0⟩ (tS 1 loadS), ⟨2,none,5,false,false,0⟩, by decide +kernel⟩
  · exact ⟨rpR ⟨3,some (5,7),5,false,false,0⟩ (((loadS.setPstate 7 2).setLogical 5 5)), ⟨3,some (5,7),5,false,false,0⟩, 5, 7, by decide +kernel⟩
  · exact ⟨rpR ⟨3,none,5,false,false,0⟩ (loadS), ⟨3,none,5,false,false,0⟩, by decide +kernel⟩
  · exact ⟨rpR ⟨4,none,5,false,false,0⟩ ((allT (put S0 (hb+0x400) 64 (de 4 8)))), ⟨4,none,5,false,false,0⟩, by decide +kernel⟩
  · exact ⟨rpR ⟨5,none,5,false,false,0⟩ (loadS), ⟨5,none,5,false,false,0⟩, by decide +kernel⟩
  · exact ⟨rpR ⟨6,none,5,false,false,0⟩ (tS 2 (allT (put S0 (hb+0x400) 64 (de 6 8)))), ⟨6,none,5,false,false,0⟩, by decide +kernel⟩
  · exact ⟨rpR ⟨7,none,5,false,false,0⟩ ((tS 2 (S0.setReg (Reg.FUU_CMP_CNT 1 1) 3))), ⟨7,none,5,false,false,0⟩, by decide +kernel⟩

/-- ReplayAndRestore, part Restores: each clause has its hypotheses together. -/
theorem test_hyps_Restores :
    (∃ s : State, ∃ images : List (BitVec 48), (s.loaded = false) ∧ (let all := s.buddyImgs ++ (images.map (·.toNat)).map ImgSrc.here; (∀ i ∈ all, s.imgWhole i = false)))
    ∧ (∃ s : State, ∃ images : List (BitVec 48), (s.loaded = false) ∧ (let all := s.buddyImgs ++ (images.map (·.toNat)).map ImgSrc.here; (∃ i ∈ all, s.imgWhole i = true)))
    ∧ (∃ s : State, (s.loaded = false))
    ∧ (∃ s : State, ∃ n : Nat, (s.fw.restored = some n) ∧ (∀ u : Fin 8, ∀ x ∈ (s.fuu u).runs, x.set = 0) ∧ (s.loaded = false) ∧ (s.fw.image = 0) ∧ (n < 2 ^ 32))
    ∧ (∃ s : State, ∃ g : Seg × Nat, ∃ u, ∃ b, (g.1.kind = 1) ∧ (s.masterBase g.1.src = (u, b)) ∧ (hbmBase 0 ≤ b) ∧ (b + s.boff u + g.1.len ≤ hbmBase 8) ∧ (g.1.len ≤ s.boff u))
    ∧ (∃ s : State, ∃ g : Seg × Nat, ∃ u, ∃ b, ∃ x, (g.1.kind = 1) ∧ (s.masterBase g.1.src = (u, b)) ∧ (hbmBase 0 ≤ b) ∧ (b + s.boff u + g.1.len ≤ hbmBase 8) ∧ (g.1.len ≤ s.boff u) ∧ (¬(b ≤ x ∧ x < b + g.1.len)) ∧ (¬(b + s.boff u ≤ x ∧ x < b + s.boff u + g.1.len))) := by
  refine ⟨?_, ?_, ?_, ?_, ?_, ?_⟩
  · exact ⟨S0, [0x10000700000], by decide +kernel⟩
  · exact ⟨img 1, [0x10000700000], by decide +kernel⟩
  · exact ⟨allT (put S0 (hb+0x400) 64 (de 4 8)), by decide +kernel⟩
  · exact ⟨({ loadS with fw := { loadS.fw with restored := some 5 } } : State), 5, by decide +kernel⟩
  · exact ⟨(dataS (fS 1 100 0 (img 1))), (⟨1,hb+0x100000,64,false⟩,0x80), 0, hb+0x100000, by decide +kernel⟩
  · exact ⟨(dataS (fS 1 100 0 (img 1))), (⟨1,hb+0x100000,64,false⟩,0x80), 0, hb+0x100000, hb+0x100040, by decide +kernel⟩

/-- CoreLoadsAndStores, part CoreLoads: each clause has its hypotheses together. -/
theorem test_hyps_CoreLoads :
    (∃ a : BitVec 48, ∃ n : Nat, ∃ s : State, ∃ m : MemUnit, (s.up = true) ∧ (1 ≤ n) ∧ (a.toNat % 32 + n ≤ 32) ∧ (memUnitOf a.toNat = some m) ∧ (let k := s.accessKind a.toNat false; (k ≠ 0)))
    ∧ (∃ a : BitVec 48, ∃ n : Nat, ∃ s : State, ∃ m : MemUnit, (s.up = true) ∧ (1 ≤ n) ∧ (a.toNat % 32 + n ≤ 32) ∧ (memUnitOf a.toNat = some m) ∧ (let k := s.accessKind a.toNat false; (k = 0) ∧ (s.cwAt a.toNat = .ok)))
    ∧ (∃ a : BitVec 48, ∃ n : Nat, ∃ s : State, ∃ m : MemUnit, ∃ sym, (s.up = true) ∧ (1 ≤ n) ∧ (a.toNat % 32 + n ≤ 32) ∧ (memUnitOf a.toNat = some m) ∧ (let k := s.accessKind a.toNat false; (k = 0) ∧ (s.cwAt a.toNat = .ce sym)))
    ∧ (∃ a : BitVec 48, ∃ n : Nat, ∃ s : State, ∃ m : MemUnit, (s.up = true) ∧ (1 ≤ n) ∧ (a.toNat % 32 + n ≤ 32) ∧ (memUnitOf a.toNat = some m) ∧ (let k := s.accessKind a.toNat false; (k = 0) ∧ (s.cwAt a.toNat = .ue)))
    ∧ (∃ a : BitVec 48, ∃ n : Nat, ∃ s : State, ∃ m : MemUnit, (s.up = true) ∧ (1 ≤ n) ∧ (a.toNat % 32 + n ≤ 32) ∧ (memUnitOf a.toNat = some m) ∧ (let k := s.accessKind a.toNat false; (k = 0) ∧ (s.cwAt a.toNat = .poison))) := by
  refine ⟨?_, ?_, ?_, ?_, ?_⟩
  · exact ⟨0x10000001004, 20, S0.setFld (memReg (.hbm 0) 0) Fd.HBM_STATUS_STATE 3, .hbm 0, by decide +kernel⟩
  · exact ⟨0x10000001004, 20, upS, .hbm 0, by decide +kernel⟩
  · exact ⟨0x10000001004, 20, cwS cw9 (.ce 5) upS, .hbm 0, 5, by decide +kernel⟩
  · exact ⟨0x10000001004, 20, cwS cw9 .ue upS, .hbm 0, by decide +kernel⟩
  · exact ⟨0x10000001004, 20, cwS cw9 .poison upS, .hbm 0, by decide +kernel⟩

/-- CoreLoadsAndStores, part CoreStores: each clause has its hypotheses together. -/
theorem test_hyps_CoreStores :
    (∃ a : BitVec 48, ∃ d : List (BitVec 8), ∃ s : State, ∃ m : MemUnit, (s.up = true) ∧ (1 ≤ d.length) ∧ (a.toNat % 32 + d.length ≤ 32) ∧ (memUnitOf a.toNat = some m) ∧ (s.bit Reg.ISL_SWAP_CTL Fd.ISL_SWAP_CTL_GO = false) ∧ (let k := s.accessKind a.toNat true; (k ≠ 0)))
    ∧ (∃ a : BitVec 48, ∃ d : List (BitVec 8), ∃ s : State, ∃ m : MemUnit, (s.up = true) ∧ (1 ≤ d.length) ∧ (a.toNat % 32 + d.length ≤ 32) ∧ (memUnitOf a.toNat = some m) ∧ (s.bit Reg.ISL_SWAP_CTL Fd.ISL_SWAP_CTL_GO = false) ∧ (let k := s.accessKind a.toNat true; (k = 0) ∧ (d.length = 32)))
    ∧ (∃ a : BitVec 48, ∃ d : List (BitVec 8), ∃ s : State, ∃ m : MemUnit, (s.up = true) ∧ (1 ≤ d.length) ∧ (a.toNat % 32 + d.length ≤ 32) ∧ (memUnitOf a.toNat = some m) ∧ (s.bit Reg.ISL_SWAP_CTL Fd.ISL_SWAP_CTL_GO = false) ∧ (let k := s.accessKind a.toNat true; (k = 0) ∧ (s.cwAt a.toNat = .ok)))
    ∧ (∃ a : BitVec 48, ∃ d : List (BitVec 8), ∃ s : State, ∃ m : MemUnit, (s.up = true) ∧ (1 ≤ d.length) ∧ (a.toNat % 32 + d.length ≤ 32) ∧ (memUnitOf a.toNat = some m) ∧ (s.bit Reg.ISL_SWAP_CTL Fd.ISL_SWAP_CTL_GO = false) ∧ (let k := s.accessKind a.toNat true; (k = 0) ∧ (d.length < 32) ∧ (s.cwAt a.toNat = .ue ∨ s.cwAt a.toNat = .poison))) := by
  refine ⟨?_, ?_, ?_, ?_⟩
  · exact ⟨0x10000001004, [1,2,3,4], S0.setFld (memReg (.hbm 0) 0) Fd.HBM_STATUS_STATE 3, .hbm 0, by decide +kernel⟩
  · exact ⟨0x10000001000, List.replicate 32 7, cwS cw9 .ue upS, .hbm 0, by decide +kernel⟩
  · exact ⟨0x10000001004, [1,2,3,4], upS, .hbm 0, by decide +kernel⟩
  · exact ⟨0x10000001004, [1,2,3,4], cwS cw9 .ue upS, .hbm 0, by decide +kernel⟩

/-- ScrubbingAndControllers, part Scrubbing: each clause has its hypotheses together. -/
theorem test_hyps_Scrubbing :
    (∃ m : MemUnit, ∃ s : State, (let on := s.bit (memReg m 0x004) Fd.HBM_SCRUB_EN = true ∧ s.memState m = 1 ∧ s.scrub m = none ∧ s.sliceGone m = false; (¬on)))
    ∧ (∃ m : MemUnit, ∃ s : State, (let pos := (s.reg (memReg m 0x008)).toNat; (let on := s.bit (memReg m 0x004) Fd.HBM_SCRUB_EN = true ∧ s.memState m = 1 ∧ s.scrub m = none ∧ s.sliceGone m = false; (on) ∧ (pos < scrubUnits m))))
    ∧ (∃ m : MemUnit, ∃ s : State, ∃ x, (s.scrub m = some x) ∧ (s.sliceGone m = true))
    ∧ (∃ m : MemUnit, ∃ s : State, ∃ x, (s.scrub m = some x) ∧ (s.sliceGone m = false))
    ∧ (∃ m : MemUnit, ∃ s : State, (s.scrub m = none)) := by
  refine ⟨?_, ?_, ?_, ?_, ?_⟩
  · exact ⟨.hbm 0, S0, by decide +kernel⟩
  · exact ⟨.hbm 0, w (cwS cw9 (.ce 5) upS) [(memReg (.hbm 0) 4, Fd.HBM_SCRUB_EN, 1),(memReg (.hbm 0) 8,⟨0,32,.rw,0⟩,64)], by decide +kernel⟩
  · exact ⟨.lag 5, (S0.setPstate 5 6).setScrub (.lag 5) (some ⟨64,[]⟩), ⟨64,[]⟩, by decide +kernel⟩
  · exact ⟨.hbm 0, ((cwS cw9 (.ce 5) upS)).setScrub (.hbm 0) (some ⟨64,[cw9]⟩), ⟨64,[cw9]⟩, by decide +kernel⟩
  · exact ⟨.hbm 0, S0, by decide +kernel⟩

/-- ScrubbingAndControllers, part MemoryControllers: each clause has its hypotheses together. -/
theorem test_hyps_MemoryControllers :
    (∃ m : MemUnit, ∃ s : State, (s.up = true) ∧ (isDram m = true))
    ∧ (∃ m : MemUnit, ∃ s : State, ∃ r, (s.up = true) ∧ (isDram m = true) ∧ (s.mayWrite r (memReg m 0x04C) = true) ∧ (s.loaded = false) ∧ (s.memState m = 1))
    ∧ (∃ m : MemUnit, ∃ s : State, ∃ r, (s.up = true) ∧ (isDram m = true) ∧ (s.mayWrite r (memReg m 0x04C) = true) ∧ (s.loaded = true))
    ∧ (∃ m : MemUnit, ∃ s : State, ∃ r, (s.up = true) ∧ (isDram m = true) ∧ (s.mayWrite r (memReg m 0x04C) = true) ∧ (s.memState m = 2))
    ∧ (∃ m : MemUnit, ∃ s : State, ∃ r, ∃ v : BitVec 32, (s.up = true) ∧ (isDram m = true) ∧ (let st := memReg m 0x000; (let lb := memReg m 0x050; (s.mayWrite r lb = true) ∧ (s.memState m = 2) ∧ (v.toNat % 4 ≠ 3) ∧ (s.bit st Fd.HBM_STATUS_LB_BUSY = false))))
    ∧ (∃ m : MemUnit, ∃ s : State, ∃ r, ∃ v : BitVec 32, (s.up = true) ∧ (isDram m = true) ∧ (let lb := memReg m 0x050; (s.mayWrite r lb = true) ∧ (s.memState m ≠ 2 ∨ v.toNat % 4 = 3)))
    ∧ (∃ m : MemUnit, ∃ s : State, (s.up = true) ∧ (isDram m = true) ∧ (let st := memReg m 0x000; (s.bit st Fd.HBM_STATUS_LB_BUSY = true)))
    ∧ (∃ m : MemUnit, ∃ s : State, (s.up = true) ∧ (isDram m = true) ∧ (let st := memReg m 0x000; (s.bit st Fd.HBM_STATUS_LB_BUSY = false)))
    ∧ (∃ m : MemUnit, ∃ s : State, ∃ p : Fin 144, ∃ r, (s.up = true) ∧ (isDram m = true) ∧ (s.mayWrite r (memReg (.lag p) 0x04C) = true))
    ∧ (∃ m : MemUnit, ∃ s : State, ∃ p : Fin 144, ∃ r, (s.up = true) ∧ (isDram m = true) ∧ (s.mayWrite r (memReg (.lag p) 0x050) = true)) := by
  refine ⟨?_, ?_, ?_, ?_, ?_, ?_, ?_, ?_, ?_, ?_⟩
  · exact ⟨.lpx 5, w upL [(memReg (.lpx 5) 0,Fd.HBM_STATUS_STATE,1),(memReg (.lpx 5) 0,Fd.HBM_STATUS_LB_BUSY,0)], by decide +kernel⟩
  · exact ⟨.lpx 5, w upL [(memReg (.lpx 5) 0,Fd.HBM_STATUS_STATE,1),(memReg (.lpx 5) 0,Fd.HBM_STATUS_LB_BUSY,0)], Requester.debug, by decide +kernel⟩
  · exact ⟨.lpx 5, tS 1, Requester.debug, by decide +kernel⟩
  · exact ⟨.lpx 5, w upL [(memReg (.lpx 5) 0,Fd.HBM_STATUS_STATE,2),(memReg (.lpx 5) 0,Fd.HBM_STATUS_LB_BUSY,1)], Requester.debug, by decide +kernel⟩
  · exact ⟨.lpx 5, w upL [(memReg (.lpx 5) 0,Fd.HBM_STATUS_STATE,2),(memReg (.lpx 5) 0,Fd.HBM_STATUS_LB_BUSY,0)], Requester.debug, 2, by decide +kernel⟩
  · exact ⟨.lpx 5, w upL [(memReg (.lpx 5) 0,Fd.HBM_STATUS_STATE,1),(memReg (.lpx 5) 0,Fd.HBM_STATUS_LB_BUSY,0)], Requester.debug, 2, by decide +kernel⟩
  · exact ⟨.lpx 5, w upL [(memReg (.lpx 5) 0,Fd.HBM_STATUS_STATE,2),(memReg (.lpx 5) 0,Fd.HBM_STATUS_LB_BUSY,1)], by decide +kernel⟩
  · exact ⟨.lpx 5, w upL [(memReg (.lpx 5) 0,Fd.HBM_STATUS_STATE,2),(memReg (.lpx 5) 0,Fd.HBM_STATUS_LB_BUSY,0)], by decide +kernel⟩
  · exact ⟨.lpx 5, w upL [(memReg (.lpx 5) 0,Fd.HBM_STATUS_STATE,1),(memReg (.lpx 5) 0,Fd.HBM_STATUS_LB_BUSY,0)], 7, Requester.debug, by decide +kernel⟩
  · exact ⟨.lpx 5, w upL [(memReg (.lpx 5) 0,Fd.HBM_STATUS_STATE,1),(memReg (.lpx 5) 0,Fd.HBM_STATUS_LB_BUSY,0)], 7, Requester.debug, by decide +kernel⟩

/-- Mailboxes: each clause has its hypotheses together. -/
theorem test_hyps_Mailboxes :
    (∃ r : Requester, ∃ m : Fin 8, ∃ s : State, (s.up = true) ∧ (let db := Reg.PLT_MBX_DB m; (s.mayWrite r db = true) ∧ (s.coreReady (s.mbxOwner m) = false ∨ s.inByte m 0 = 1)))
    ∧ (∃ r : Requester, ∃ m : Fin 8, ∃ s : State, (s.up = true) ∧ (let db := Reg.PLT_MBX_DB m; (s.mayWrite r db = true) ∧ (s.coreReady (s.mbxOwner m) = true) ∧ (s.inByte m 0 ≠ 1) ∧ (s.inByte m 0 ≠ 3)))
    ∧ (∃ r : Requester, ∃ m : Fin 8, ∃ s : State, ∃ opc, ∃ ctx, ∃ feats, (s.up = true) ∧ (let db := Reg.PLT_MBX_DB m; (s.mayWrite r db = true) ∧ (s.coreReady (s.mbxOwner m) = true) ∧ (s.inByte m 0 = 3) ∧ (s.inNat m 2 2 = opc) ∧ (opc ∈ urgentOpcs) ∧ (∀ c ∈ s.fw.cmds, c.src ≠ .urgent m) ∧ (tget (fun _ => none) s.fw.mbxCtx m = some (ctx, feats)) ∧ (s.ctxRings ctx ≠ []) ∧ (s.ctxFenced ctx = false) ∧ (let args := (List.range 6).map fun i => s.inNat m (8 + 8 * i) 8; (preStatus opc feats args (s.inByte m 1 != 0) = none))))
    ∧ (∃ r : Requester, ∃ m : Fin 8, ∃ s : State, ∃ i : Fin 16, (s.up = true) ∧ (s.mayWrite r (Reg.PLT_MBX_IN m i) = true) ∧ (mbxClient r m = false))
    ∧ (∃ r : Requester, ∃ m : Fin 8, ∃ s : State, ∃ i : Fin 16, (s.up = true) ∧ (let db := Reg.PLT_MBX_DB m; (s.mayWrite r (Reg.PLT_MBX_IN m i) = true) ∧ (mbxClient r m = true) ∧ (s.bit db Fd.PLT_MBX_DB_IN_RING = true)))
    ∧ (∃ r : Requester, ∃ m : Fin 8, ∃ s : State, ∃ i : Fin 16, (s.up = true) ∧ (let db := Reg.PLT_MBX_DB m; (s.mayWrite r (Reg.PLT_MBX_IN m i) = true) ∧ (mbxClient r m = true) ∧ (s.bit db Fd.PLT_MBX_DB_IN_RING = false)))
    ∧ (∃ m : Fin 8, ∃ s : State, ∃ c : Fin 4, ∃ ws, ∃ rest, (s.up = true) ∧ (let db := Reg.PLT_MBX_DB m; (let out (t : State) := tget (fun _ => []) t.fw.mbxOut m; (out s = ws :: rest) ∧ (s.coreReady c = true) ∧ (s.mbxOwner m = c.val) ∧ (s.bit db Fd.PLT_MBX_DB_OUT_RING = false))))
    ∧ (∃ m : Fin 8, ∃ s : State, ∃ c : Fin 4, ∃ ws, ∃ rest, (s.up = true) ∧ (let db := Reg.PLT_MBX_DB m; (let out (t : State) := tget (fun _ => []) t.fw.mbxOut m; (out s = ws :: rest) ∧ (s.coreReady c = true) ∧ (s.mbxOwner m = c.val) ∧ (s.bit db Fd.PLT_MBX_DB_OUT_RING = true)))) := by
  refine ⟨?_, ?_, ?_, ?_, ?_, ?_, ?_, ?_⟩
  · exact ⟨.debug, 6, S0, by decide +kernel⟩
  · exact ⟨.debug, 6, inB 6 2 rdy, by decide +kernel⟩
  · exact ⟨.debug, 6, inB 6 (3+3*2^16) ({ opS with fw := { (opS).fw with mbxCtx := [(6, some (2,0xFF))] } } : State), 3, 2, 0xFF, by decide +kernel⟩
  · exact ⟨.debug, 6, S0, 4, by decide +kernel⟩
  · exact ⟨.shore 2, 3, ring 3 S0, 4, by decide +kernel⟩
  · exact ⟨.shore 2, 3, S0, 4, by decide +kernel⟩
  · exact ⟨6, w (({ rdy with fw := { (rdy).fw with mbxOut := [(6,[[2,3],[5]])] } } : State)) [(Reg.PLT_MOWN, Fd.PLT_MOWN_OWNER, 2*4^6)], 2, [2,3], [[5]], by decide +kernel⟩
  · exact ⟨6, w (({ rdy with fw := { (rdy).fw with mbxOut := [(6,[[2,3],[5]])] } } : State)) [(Reg.PLT_MOWN, Fd.PLT_MOWN_OWNER, 2*4^6),(Reg.PLT_MBX_DB 6, Fd.PLT_MBX_DB_OUT_RING, 1)], 2, [2,3], [[5]], by decide +kernel⟩

/-- Hellos: each clause has its hypotheses together. -/
theorem test_hyps_Hellos :
    (∃ m : Fin 8, ∃ s : State, ∃ owner, (s.bit (Reg.PLT_MBX_DB m) Fd.PLT_MBX_DB_IN_RING = true) ∧ (s.coreReady (s.mbxOwner m) = true) ∧ (s.inByte m 0 = 1) ∧ (s.bit Reg.BOOT_STATUS Fd.BOOT_STATUS_READY = true) ∧ (s.fld Reg.BOOT_STATUS Fd.BOOT_STATUS_STAGE ≠ 6) ∧ (let r := s.inByte m 4 % 64; (let h := s.inNat m 8 8 % 2 ^ 48; (let ctx := s.hdr h 7 1 % 16; (s.session r = none) ∧ (s.ringOk h r = true) ∧ (s.ctxFenced ctx = false) ∧ (ctx ≠ 15 ∨ s.policy 0 2 = 0) ∧ (0x20000000000 ≤ h) ∧ (s.fw.logBase = 0) ∧ (s.fw.logLog2 = 14) ∧ (s.leastCore = some owner)))))
    ∧ (∃ m : Fin 8, ∃ s : State, ∃ x, (s.bit (Reg.PLT_MBX_DB m) Fd.PLT_MBX_DB_IN_RING = true) ∧ (s.coreReady (s.mbxOwner m) = true) ∧ (s.inByte m 0 = 1) ∧ (s.bit Reg.BOOT_STATUS Fd.BOOT_STATUS_READY = true) ∧ (s.fld Reg.BOOT_STATUS Fd.BOOT_STATUS_STAGE ≠ 6) ∧ (let r := s.inByte m 4 % 64; (let h := s.inNat m 8 8 % 2 ^ 48; (s.session r = some x) ∧ (s.inByte m 1 % 2 = 0 ∨ h ≠ x.hdr))))
    ∧ (∃ m : Fin 8, ∃ s : State, (s.bit (Reg.PLT_MBX_DB m) Fd.PLT_MBX_DB_IN_RING = true) ∧ (s.coreReady (s.mbxOwner m) = true) ∧ (s.inByte m 0 = 1) ∧ (s.bit Reg.BOOT_STATUS Fd.BOOT_STATUS_READY = true) ∧ (s.fld Reg.BOOT_STATUS Fd.BOOT_STATUS_STAGE ≠ 6) ∧ (let r := s.inByte m 4 % 64; (let h := s.inNat m 8 8 % 2 ^ 48; (s.session r = none) ∧ (s.ringOk h r = false))))
    ∧ (∃ m : Fin 8, ∃ s : State, (s.bit (Reg.PLT_MBX_DB m) Fd.PLT_MBX_DB_IN_RING = true) ∧ (s.coreReady (s.mbxOwner m) = true) ∧ (s.inByte m 0 = 1) ∧ (s.bit Reg.BOOT_STATUS Fd.BOOT_STATUS_READY = true) ∧ (s.fld Reg.BOOT_STATUS Fd.BOOT_STATUS_STAGE ≠ 6) ∧ (let r := s.inByte m 4 % 64; (let h := s.inNat m 8 8 % 2 ^ 48; (let ctx := s.hdr h 7 1 % 16; (s.session r = none) ∧ (s.ringOk h r = true) ∧ (s.ctxFenced ctx = true)))))
    ∧ (∃ m : Fin 8, ∃ s : State, (s.bit (Reg.PLT_MBX_DB m) Fd.PLT_MBX_DB_IN_RING = true) ∧ (s.coreReady (s.mbxOwner m) = true) ∧ (s.inByte m 0 = 1) ∧ (s.bit Reg.BOOT_STATUS Fd.BOOT_STATUS_READY = true) ∧ (s.fld Reg.BOOT_STATUS Fd.BOOT_STATUS_STAGE ≠ 6) ∧ (let r := s.inByte m 4 % 64; (let h := s.inNat m 8 8 % 2 ^ 48; (let ctx := s.hdr h 7 1 % 16; (s.session r = none) ∧ (s.ringOk h r = true) ∧ (s.ctxFenced ctx = false) ∧ (ctx = 15) ∧ (s.policy 0 2 ≠ 0)))))
    ∧ (∃ m : Fin 8, ∃ s : State, ∃ owner, (s.bit (Reg.PLT_MBX_DB m) Fd.PLT_MBX_DB_IN_RING = true) ∧ (s.coreReady (s.mbxOwner m) = true) ∧ (s.inByte m 0 = 1) ∧ (s.bit Reg.BOOT_STATUS Fd.BOOT_STATUS_READY = true) ∧ (s.fld Reg.BOOT_STATUS Fd.BOOT_STATUS_STAGE ≠ 6) ∧ (s.leastCore = some owner))
    ∧ (∃ m : Fin 8, ∃ s : State, ∃ owner, ∃ d, (s.bit (Reg.PLT_MBX_DB m) Fd.PLT_MBX_DB_IN_RING = true) ∧ (s.coreReady (s.mbxOwner m) = true) ∧ (s.inByte m 0 = 1) ∧ (s.bit Reg.BOOT_STATUS Fd.BOOT_STATUS_READY = true) ∧ (s.fld Reg.BOOT_STATUS Fd.BOOT_STATUS_STAGE ≠ 6) ∧ (s.leastCore = some owner) ∧ (d < 4) ∧ (s.coreReady d = true))
    ∧ (∃ m : Fin 8, ∃ s : State, ∃ owner, ∃ d, (s.bit (Reg.PLT_MBX_DB m) Fd.PLT_MBX_DB_IN_RING = true) ∧ (s.coreReady (s.mbxOwner m) = true) ∧ (s.inByte m 0 = 1) ∧ (s.bit Reg.BOOT_STATUS Fd.BOOT_STATUS_READY = true) ∧ (s.fld Reg.BOOT_STATUS Fd.BOOT_STATUS_STAGE ≠ 6) ∧ (s.leastCore = some owner) ∧ (d < 4) ∧ (s.coreReady d = true) ∧ (s.ringCount d = s.ringCount owner))
    ∧ (∃ m : Fin 8, ∃ s : State, ∃ major, (s.bit (Reg.PLT_MBX_DB m) Fd.PLT_MBX_DB_IN_RING = true) ∧ (s.coreReady (s.mbxOwner m) = true) ∧ (s.inByte m 0 = 1) ∧ (s.bit Reg.BOOT_STATUS Fd.BOOT_STATUS_READY = true) ∧ (s.fld Reg.BOOT_STATUS Fd.BOOT_STATUS_STAGE ≠ 6) ∧ (major ≠ 1))
    ∧ (∃ m : Fin 8, ∃ s : State, ∃ major, (s.bit (Reg.PLT_MBX_DB m) Fd.PLT_MBX_DB_IN_RING = true) ∧ (s.coreReady (s.mbxOwner m) = true) ∧ (s.inByte m 0 = 1) ∧ (s.bit Reg.BOOT_STATUS Fd.BOOT_STATUS_READY = true) ∧ (s.fld Reg.BOOT_STATUS Fd.BOOT_STATUS_STAGE ≠ 6) ∧ (major = 1)) := by
  refine ⟨?_, ?_, ?_, ?_, ?_, ?_, ?_, ?_, ?_, ?_⟩
  · exact ⟨6, ring 6 (inB 6 (helloN 2 1) (hdrS (rdy))), 0, by decide +kernel⟩
  · exact ⟨6, ring 6 (inB 6 (helloN 0 1) (opS)), ⟨hd,2,0xFF⟩, by decide +kernel⟩
  · exact ⟨6, ring 6 (inB 6 (helloN 0 1) (rdy)), by decide +kernel⟩
  · exact ⟨6, ring 6 (inB 6 (helloN 0 1) (w (hdrS (rdy)) [(Reg.PLT_CTXF, Fd.PLT_CTXF_FENCED, 4)])), by decide +kernel⟩
  · exact ⟨6, ring 6 (inB 6 (helloN 2 1) (put (hdrS rdy) (hd + 7) 1 15)), by decide +kernel⟩
  · exact ⟨6, ring 6 (inB 6 (helloN 2 1) (hdrS (rdy))), 0, by decide +kernel⟩
  · exact ⟨6, ring 6 (inB 6 (helloN 2 1) (hdrS (rdy))), 0, 0, by decide +kernel⟩
  · exact ⟨6, ring 6 (inB 6 (helloN 2 1) (hdrS (rdy))), 0, 0, by decide +kernel⟩
  · exact ⟨6, ring 6 (inB 6 (helloN 2 1) (hdrS (rdy))), 2, by decide +kernel⟩
  · exact ⟨6, ring 6 (inB 6 (helloN 2 1) (hdrS (rdy))), 1, by decide +kernel⟩

/-- AcceptanceAndCompletion, part Acceptance: each clause has its hypotheses together. -/
theorem test_hyps_Acceptance :
    (∃ c : Fin 4, ∃ ring : Fin 64, ∃ s : State, ∃ x : Sess, (s.session ring = some x) ∧ (s.coreReady c = true) ∧ (s.urgentWaits c = false) ∧ (s.dueRing c = some ring.val) ∧ (s.ctxFenced x.ctx = false) ∧ (inRingMem x.hdr 128 = true) ∧ (s.fw.trace = []) ∧ (let h := x.hdr; (let head := s.hdr h 28 4; (let e := s.nextEntry h; (let opc := bitsOf e 15 0; (bitsOf e 63 32 = head) ∧ (opc ≠ 0x0105))))))
    ∧ (∃ c : Fin 4, ∃ ring : Fin 64, ∃ s : State, (s.session ring = none ∨ s.coreReady c = false ∨ s.urgentWaits c = true ∨ s.dueRing c ≠ some ring.val))
    ∧ (∃ c : Nat, ∃ r : Nat, ∃ s : State, (s.dueRing c = some r))
    ∧ (∃ opc, (opcFeature opc = none))
    ∧ (∃ opc, ∃ feats : Nat, ∃ f, (opcFeature opc = some f) ∧ (feats.testBit f = false))
    ∧ (∃ opc, ∃ feats : Nat, ∃ rsv, ∃ f, (opcFeature opc = some f) ∧ (feats.testBit f = true) ∧ (rsv = true))
    ∧ (∃ r : Requester, ∃ s : State, (s.up = true) ∧ (s.mayWrite r Reg.PLT_RDB = true) ∧ (s.fw.trace = [])) := by
  refine ⟨?_, ?_, ?_, ?_, ?_, ?_, ?_⟩
  · exact ⟨0, 3, entS 3 opS, ⟨hd,2,0xFF⟩, by decide +kernel⟩
  · exact ⟨0, 3, S0, by decide +kernel⟩
  · exact ⟨0, 3, entS 3 opS, by decide +kernel⟩
  · exact ⟨0x999, by decide +kernel⟩
  · exact ⟨3, 2, 0, by decide +kernel⟩
  · exact ⟨3, 1, true, 0, by decide +kernel⟩
  · exact ⟨.debug, opS, by decide +kernel⟩

/-- AcceptanceAndCompletion, part Completion: each clause has its hypotheses together. -/
theorem test_hyps_Completion :
    (∃ src : PcpSrc, ∃ s : State, ∃ c : Cmd, ∃ st : Nat, ∃ r0 : Nat, ∃ r1 : Nat, ∃ ring : Fin 64, ∃ seq : BitVec 32, ∃ x : Sess, (s.fw.cmds.find? (fun c => c.src == src) = some c) ∧ (c.res = some (st, r0, r1)) ∧ (s.srcServed src = true) ∧ (s.closeWaits c = false) ∧ (src = .ring ring seq) ∧ (s.session ring = some x) ∧ (c.opc ≠ 0x0002) ∧ (s.fw.trace = []) ∧ (inRingMem x.hdr 128 = true) ∧ (let h := x.hdr; (let tail := s.hdr h 32 4; (let e := s.hdr h 16 8 % 2 ^ 48 + 32 * (tail % s.ringN h); (c.quiet = false ∨ st ≠ 0) ∧ (inRingMem e 32 = true) ∧ (e + 32 ≤ h ∨ h + 128 ≤ e)))))
    ∧ (∃ src : PcpSrc, ∃ s : State, ∃ c : Cmd, ∃ st : Nat, ∃ r0 : Nat, ∃ r1 : Nat, ∃ ring : Fin 64, ∃ seq : BitVec 32, ∃ x : Sess, (s.fw.cmds.find? (fun c => c.src == src) = some c) ∧ (c.res = some (st, r0, r1)) ∧ (s.srcServed src = true) ∧ (s.closeWaits c = false) ∧ (src = .ring ring seq) ∧ (s.session ring = some x) ∧ (c.opc ≠ 0x0002) ∧ (s.fw.trace = []) ∧ (inRingMem x.hdr 128 = true) ∧ (c.quiet = true) ∧ (st = 0))
    ∧ (∃ src : PcpSrc, ∃ s : State, ∃ c : Cmd, ∃ st : Nat, ∃ r0 : Nat, ∃ r1 : Nat, ∃ m : Fin 8, (s.fw.cmds.find? (fun c => c.src == src) = some c) ∧ (c.res = some (st, r0, r1)) ∧ (s.srcServed src = true) ∧ (s.closeWaits c = false) ∧ (src = .urgent m)) := by
  refine ⟨?_, ?_, ?_⟩
  · exact ⟨.ring 3 37, inf (cmdS (.ring 3 37) true) opS, cmdS (.ring 3 37) true, 5, 7, 9, 3, 37, ⟨hd,2,0xFF⟩, by decide +kernel⟩
  · exact ⟨.ring 3 37, inf ({cmdS (.ring 3 37) true with res:=some (0,7,9)}:Cmd) opS, ({cmdS (.ring 3 37) true with res:=some (0,7,9)}:Cmd), 0, 7, 9, 3, 37, ⟨hd,2,0xFF⟩, by decide +kernel⟩
  · exact ⟨.urgent 6, (opS).setCmds [cmdS (.urgent 6) false], cmdS (.urgent 6) false, 5, 7, 9, 6, by decide +kernel⟩

/-- PilotRestartAndResets, part PilotRestart: each clause has its hypotheses together. -/
theorem test_hyps_PilotRestart :
    (∃ c : Fin 4, ∃ s : State, (s.up = true) ∧ (s.coreReady c = true))
    ∧ (∃ s : State, (s.up = true))
    ∧ (∃ c : Fin 4, ∃ s : State, (s.up = true) ∧ (s.coreReady c = false))
    ∧ (∃ c : Fin 4, ∃ s : State, ∃ d, ∃ rest, (s.up = true) ∧ (let core := Reg.PLT_CORE c; (s.coreReady c = false) ∧ (s.fld core Fd.PLT_CORE_RESTARTS ≠ 0) ∧ (s.readyCores = d :: rest)))
    ∧ (∃ c : Fin 4, ∃ s : State, ∃ r : Fin 64, (s.up = true) ∧ (let old := s.ringOwner r; (c.val ≠ old) ∧ (s.coreReady old = true)))
    ∧ (∃ s : State, ∃ r : Fin 64, ∃ x, (s.up = true) ∧ (let old := s.ringOwner r; (s.coreReady old = true) ∧ (s.session r = some x) ∧ (s.inflightBits x.hdr ≠ [])))
    ∧ (∃ c : Fin 4, ∃ s : State, ∃ r : Fin 64, (s.up = true) ∧ (let old := s.ringOwner r; (c.val = old ∨ s.coreReady old = false) ∧ (s.coreReady old = false ∨ s.session r = none ∨ (∃ x, s.session r = some x ∧ s.inflightBits x.hdr = []))))
    ∧ (∃ s : State, ∃ r : Fin 64, ∃ x : Sess, (s.up = true) ∧ (s.session r = some x) ∧ (s.bit (Reg.PLT_ROWN r) Fd.PLT_ROWN_FTIMER = true) ∧ (s.coreReady (s.ringOwner r) = false) ∧ (x.ctx < 16)) := by
  refine ⟨?_, ?_, ?_, ?_, ?_, ?_, ?_, ?_⟩
  · exact ⟨0, inf (cmdS (.urgent 6) false) opS, by decide +kernel⟩
  · exact ⟨opS, by decide +kernel⟩
  · exact ⟨0, w (inf (cmdS (.ring 3 37) false) opS) [(Reg.PLT_CORE 0, Fd.PLT_CORE_READY, 0),(Reg.PLT_ROWN 3, Fd.PLT_ROWN_FTIMER, 1)], by decide +kernel⟩
  · exact ⟨0, w (inf (cmdS (.ring 3 37) false) opS) [(Reg.PLT_CORE 0, Fd.PLT_CORE_READY, 0),(Reg.PLT_CORE 0, Fd.PLT_CORE_RESTARTS, 1),(Reg.PLT_ROWN 3, Fd.PLT_ROWN_FTIMER, 1)], 1, [2,3], by decide +kernel⟩
  · exact ⟨2, opS, 3, by decide +kernel⟩
  · exact ⟨inf (cmdS (.ring 3 37) false) opS, 3, ⟨hd,2,0xFF⟩, by decide +kernel⟩
  · exact ⟨0, opS, 3, by decide +kernel⟩
  · exact ⟨w (inf (cmdS (.ring 3 37) false) opS) [(Reg.PLT_CORE 0, Fd.PLT_CORE_READY, 0),(Reg.PLT_ROWN 3, Fd.PLT_ROWN_FTIMER, 1)], 3, ⟨hd,2,0xFF⟩, by decide +kernel⟩

/-- PilotRestartAndResets, part CoreResets: each clause has its hypotheses together. -/
theorem test_hyps_CoreResets :
    (∃ s : State, (∀ c : Fin 4, s.coreReady c = false) ∧ (s.loaded = true) ∧ (s.tideSt ≠ 0) ∧ (s.tideSt ≠ 4))
    ∧ (∃ s : State, ((∃ c : Fin 4, s.coreReady c = true) ∨ s.loaded = false))
    ∧ (∃ r : Requester, ∃ s : State, (s.up = true) ∧ (s.mayWrite r Reg.SHR_RST = true))
    ∧ (∃ k : Fin 16, ∃ s : State, (let at' (t : State) (a : Nat) : Bool := (t.reg a).getLsbD k; (at' s Reg.SHR_RST = true)))
    ∧ (∃ k : Fin 16, ∃ s : State, (let at' (t : State) (a : Nat) : Bool := (t.reg a).getLsbD k; (at' s Reg.SHR_RST = false))) := by
  refine ⟨?_, ?_, ?_, ?_, ?_⟩
  · exact ⟨w S0 [(Reg.TIDE_STATUS, Fd.TIDE_STATUS_STATE, 2),(Reg.ISL_POLICY, Fd.ISL_POLICY_LOADED, 1)], by decide +kernel⟩
  · exact ⟨S0, by decide +kernel⟩
  · exact ⟨.debug, w S0 [(Reg.SHR_STATUS,⟨0,32,.rw,0⟩,0xFFFF)], by decide +kernel⟩
  · exact ⟨15, w S0 [(Reg.SHR_RST,⟨0,32,.rw,0⟩,0xFFFF)], by decide +kernel⟩
  · exact ⟨15, S0, by decide +kernel⟩

/-- PcpGate: each clause has its hypotheses together. -/
theorem test_hyps_PcpGate :
    (∃ src : PcpSrc, ∃ as : List ModuleAnswer, ∃ ds : List DepthResult, ∃ rs : List CaseRun, ∃ i : Instr, ∃ opc : Nat, ∃ s : State, ((i, opc) ∈ [(Instr.pcpNop src, 0x0001), (.ringClose src, 0x0002), (.pilotStatus src, 0x0003), (.memAlloc src, 0x0101), (.memFree src, 0x0102), (.map src, 0x0103), (.unmap src, 0x0104), (.ctxRecover src, 0x0105), (.chartWrite src, 0x0201), (.t1Validate src, 0x0202), (.tensorPlace src, 0x0203), (.progLoad src as, 0x0301), (.progUnload src as, 0x0302), (.jobResumeContinue src, 0x0303), (.jobResumeRewind src, 0x0303), (.jobResumeRestore src, 0x0303), (.batchCancel src, 0x0304), (.ckptCfg src, 0x0305), (.ckptNow src, 0x0306), (.buoySet src, 0x0401), (.buoyDump src, 0x0402), (.regRead src, 0x0403), (.regWrite src, 0x0404), (.ferrySubmit src, 0x0405), (.placePin src, 0x0501), (.placeUnpin src, 0x0502), (.placeQuery src, 0x0503), (.unitQuery src, 0x0601), (.unitSet src, 0x0602), (.maintRun src ds, 0x0603), (.logCfg src, 0x0701), (.traceSet src, 0x0702), (.attest src, 0x0801), (.testpackInstall src as, 0x0802), (.testpackRun src rs, 0x0802), (.testpackQuery src, 0x0802), (.testpackPolicy src, 0x0802), (.testpackExport src, 0x0802), (.fwUpdate src, 0x0803)]) ∧ (s.pcpCmd src opc = none))
    ∧ (∃ src : PcpSrc, ∃ s : State, ∃ c : Cmd, (s.fw.cmds = [c]) ∧ (c.src = src) ∧ (c.res = none) ∧ (s.up = true) ∧ (s.srcServed src = true) ∧ (s.ctxFenced c.ctx = false))
    ∧ (∃ r : Fin 64, ∃ m : BitVec 32, ∃ n : BitVec 32, ∃ s : State, ∃ c : Cmd, ∃ d : Cmd, (s.fw.cmds = [c, d]) ∧ (c.src = .ring r m) ∧ (d.src = .ring r n) ∧ (m ≠ n) ∧ (c.res = none) ∧ (c.opc ∈ [0x0601, 0x0602, 0x0603]) ∧ (d.opc ∈ [0x0601, 0x0602, 0x0603]) ∧ (c.arg 0 = d.arg 0)) := by
  refine ⟨?_, ?_, ?_⟩
  · exact ⟨U6, [], [], [], .pcpNop U6, 1, S0, by decide +kernel⟩
  · exact ⟨U6, cS (cm 3 []), cm 3 [], by decide +kernel⟩
  · exact ⟨5, 3, 4, (rdy).setCmds [{cm 0x601 [7] with src:=.ring 5 3},{cm 0x602 [7] with src:=.ring 5 4}], {cm 0x601 [7] with src:=.ring 5 3}, {cm 0x602 [7] with src:=.ring 5 4}, by decide +kernel⟩

/-- PcpSessionsAndResources, part PcpSessions: each clause has its hypotheses together. -/
theorem test_hyps_PcpSessions :
    (∃ src : PcpSrc, ∃ s : State, ∃ c : Cmd, (s.pcpCmd src 0x0001 = some c))
    ∧ (∃ src : PcpSrc, ∃ s : State, ∃ c : Cmd, (s.pcpCmd src 0x0002 = some c))
    ∧ (∃ src : PcpSrc, ∃ s : State, ∃ c : Cmd, (s.pcpCmd src 0x0003 = some c))
    ∧ (∃ src : PcpSrc, ∃ s : State, ∃ c : Cmd, (s.pcpCmd src 0x0105 = some c) ∧ (s.ctxFenced c.ctx = false))
    ∧ (∃ src : PcpSrc, ∃ s : State, ∃ c : Cmd, ∃ r, ∃ x, (s.pcpCmd src 0x0105 = some c) ∧ (s.ctxFenced c.ctx = true) ∧ (s.ctxRings c.ctx = [r]) ∧ (s.session r = some x) ∧ (inRingMem x.hdr 128 = true) ∧ (s.fw.trace = [])) := by
  refine ⟨?_, ?_, ?_, ?_, ?_⟩
  · exact ⟨U6, cS (cm 1 [] 0) (S0), cm 1 [] 0, by decide +kernel⟩
  · exact ⟨U6, cS (cm 2 [] 0) ((opS)), cm 2 [] 0, by decide +kernel⟩
  · exact ⟨U6, cS (cm 3 [] 0) (S0), cm 3 [] 0, by decide +kernel⟩
  · exact ⟨U6, cS (cm 0x105 [] 0) (S0), cm 0x105 [] 0, by decide +kernel⟩
  · exact ⟨U6, cS (cm 0x105 [] 0) (w (opS) [(Reg.PLT_CTXF, Fd.PLT_CTXF_FENCED, 4)]), cm 0x105 [] 0, 3, ⟨hd,2,0xFF⟩, by decide +kernel⟩

/-- PcpMemoryAndCharts, part PcpMemory: each clause has its hypotheses together. -/
theorem test_hyps_PcpMemory :
    (∃ src : PcpSrc, ∃ s : State, ∃ c : Cmd, ∃ va, ∃ u, (let a (i : Nat) := c.arg i; (s.pcpCmd src 0x0101 = some c) ∧ (s.ctxUsed c.ctx = false) ∧ (a 0 ≠ 0) ∧ (a 0 % 2 ^ 21 = 0) ∧ (bitsOf (a 1) 15 8 = 0xFF) ∧ (s.allocMem c.ctx (a 1 % 4) 0xFF (a 0) (bitsOf (a 1) 16 16 == 1) = some (va, u))))
    ∧ (∃ src : PcpSrc, ∃ s : State, ∃ c : Cmd, (let a (i : Nat) := c.arg i; (s.pcpCmd src 0x0101 = some c) ∧ (s.ctxUsed c.ctx = false) ∧ (a 0 ≠ 0) ∧ (a 0 % 2 ^ 21 = 0) ∧ (bitsOf (a 1) 15 8 = 0xFF) ∧ (s.allocMem c.ctx (a 1 % 4) 0xFF (a 0) (bitsOf (a 1) 16 16 == 1) = none)))
    ∧ (∃ src : PcpSrc, ∃ s : State, ∃ c : Cmd, (s.pcpCmd src 0x0101 = some c) ∧ (s.ctxUsed c.ctx = true))
    ∧ (∃ src : PcpSrc, ∃ s : State, ∃ c : Cmd, (let a (i : Nat) := c.arg i; (s.pcpCmd src 0x0102 = some c) ∧ (s.ctxUsed c.ctx = false) ∧ (let own (x : Alloc) : Bool := x.ctx == c.ctx && x.root == a 0 && !x.mapped; (∃ x ∈ s.fw.allocs, own x = true))))
    ∧ (∃ src : PcpSrc, ∃ s : State, ∃ c : Cmd, (let a (i : Nat) := c.arg i; (s.pcpCmd src 0x0102 = some c) ∧ (s.ctxUsed c.ctx = false) ∧ (let own (x : Alloc) : Bool := x.ctx == c.ctx && x.root == a 0 && !x.mapped; (∀ x ∈ s.fw.allocs, own x = false))))
    ∧ (∃ src : PcpSrc, ∃ s : State, ∃ c : Cmd, (let a (i : Nat) := c.arg i; (s.pcpCmd src 0x0103 = some c) ∧ (s.ctxUsed c.ctx = false) ∧ (a 2 ≠ 0) ∧ (a 0 + a 2 ≤ 2 ^ 52) ∧ (let giga := bitsOf (a 3) 2 2 == 1; (let sz := if giga then 2 ^ 30 else 2 ^ 21; (a 0 % sz = 0) ∧ (a 1 % sz = 0) ∧ (a 2 % sz = 0) ∧ (frameOk (a 1) (a 2) = true) ∧ (giga = false ∨ 0x88000000 ≤ a 1) ∧ (s.tablesLeft (a 2) = true)))))
    ∧ (∃ src : PcpSrc, ∃ s : State, ∃ c : Cmd, (let a (i : Nat) := c.arg i; (s.pcpCmd src 0x0103 = some c) ∧ (s.ctxUsed c.ctx = false) ∧ (a 2 ≠ 0) ∧ (a 0 + a 2 ≤ 2 ^ 52) ∧ (let giga := bitsOf (a 3) 2 2 == 1; (let sz := if giga then 2 ^ 30 else 2 ^ 21; (a 0 % sz = 0) ∧ (a 1 % sz = 0) ∧ (a 2 % sz = 0) ∧ (frameOk (a 1) (a 2) = false)))))
    ∧ (∃ src : PcpSrc, ∃ s : State, ∃ c : Cmd, (let a (i : Nat) := c.arg i; (s.pcpCmd src 0x0104 = some c) ∧ (s.ctxUsed c.ctx = false) ∧ (a 1 ≠ 0) ∧ (a 1 % 2 ^ 21 = 0) ∧ (a 0 % 2 ^ 21 = 0) ∧ (a 0 + a 1 ≤ 2 ^ 52)))
    ∧ (∃ s : State, ∃ ctx : Nat, ∃ va : Nat, ∃ pa : Nat, (ctx < 16) ∧ (s.ctxRoot ctx = ctxL0 ctx) ∧ ((s.reg (Reg.CHT_CTX_PT_ROOT 0 ctx)).toNat % 2 = 1) ∧ (s.fw.ptPages + 2 ≤ ptMax) ∧ (va < 2 ^ 52) ∧ (va % 2 ^ 21 = 0) ∧ (pa < 2 ^ 48) ∧ (pa % 2 ^ 21 = 0) ∧ (frameOk pa (2 ^ 21) = true) ∧ (s.memNat (ctxL0 ctx + 8 * bitsOf va 51 39) 8 % 2 = 0)) := by
  refine ⟨?_, ?_, ?_, ?_, ?_, ?_, ?_, ?_, ?_⟩
  · exact ⟨U6, cS (cm 0x101 [0x400000, 0xFF02] 0) (ctxS), cm 0x101 [0x400000, 0xFF02] 0, (amv.getD (0,S0)).1, (amv.getD (0,S0)).2, by decide +kernel⟩
  · exact ⟨U6, cS (cm 0x101 [0x400000000000, 0xFF02] 0) (ctxS), cm 0x101 [0x400000000000, 0xFF02] 0, by decide +kernel⟩
  · exact ⟨U6, cS (cm 0x101 [0x400000, 0xFF02] 0) (w ({ S0 with tide := {ctxs:=[2]} }:State) [(Reg.ISL_POLICY, Fd.ISL_POLICY_LOADED, 1)]), cm 0x101 [0x400000, 0xFF02] 0, by decide +kernel⟩
  · exact ⟨U6, cS (cm 0x102 [0x400000] 0) (alS ctxS), cm 0x102 [0x400000] 0, by decide +kernel⟩
  · exact ⟨U6, cS (cm 0x102 [0x600000] 0) (alS ctxS), cm 0x102 [0x600000] 0, by decide +kernel⟩
  · exact ⟨U6, cS (cm 0x103 [0x600000,hb+0x20000000,0x400000,3] 0) (alS ctxS), cm 0x103 [0x600000,hb+0x20000000,0x400000,3] 0, by decide +kernel⟩
  · exact ⟨U6, cS (cm 0x103 [0x600000,0x8000000000,0x400000,3] 0) (alS ctxS), cm 0x103 [0x600000,0x8000000000,0x400000,3] 0, by decide +kernel⟩
  · exact ⟨U6, cS (cm 0x104 [0x600000,0x200000] 0) (alS ctxS), cm 0x104 [0x600000,0x200000] 0, by decide +kernel⟩
  · exact ⟨ctxS, 2, 0x1234567600000, hb+0x600000, by decide +kernel⟩

/-- PcpMemoryAndCharts, part PcpCharts: each clause has its hypotheses together. -/
theorem test_hyps_PcpCharts :
    (∃ src : PcpSrc, ∃ s : State, ∃ c : Cmd, (s.ctxUsed c.ctx = false) ∧ (s.bit Reg.ISL_SWAP_CTL Fd.ISL_SWAP_CTL_GO = false) ∧ (let l := c.arg 1 % 256; (s.pcpCmd src 0x0201 = some c) ∧ (readable (c.arg 0) 128 = true) ∧ (l < 136) ∧ ((parseChart (s.memNat (c.arg 0) 128)).t1 = false)))
    ∧ (∃ src : PcpSrc, ∃ s : State, ∃ c : Cmd, (s.ctxUsed c.ctx = false) ∧ (s.bit Reg.ISL_SWAP_CTL Fd.ISL_SWAP_CTL_GO = false) ∧ (let l := c.arg 1 % 256; (s.pcpCmd src 0x0201 = some c) ∧ (readable (c.arg 0) 128 = true) ∧ (l < 136) ∧ ((parseChart (s.memNat (c.arg 0) 128)).t1 = true)))
    ∧ (∃ src : PcpSrc, ∃ s : State, ∃ c : Cmd, (s.ctxUsed c.ctx = false) ∧ (s.bit Reg.ISL_SWAP_CTL Fd.ISL_SWAP_CTL_GO = false) ∧ (s.pcpCmd src 0x0201 = some c) ∧ (readable (c.arg 0) 128 = false))
    ∧ (∃ src : PcpSrc, ∃ s : State, ∃ c : Cmd, ∃ st, ∃ u, (s.ctxUsed c.ctx = false) ∧ (s.bit Reg.ISL_SWAP_CTL Fd.ISL_SWAP_CTL_GO = false) ∧ (let l := c.arg 1 % 256; (s.pcpCmd src 0x0202 = some c) ∧ (readable (c.arg 0) 48 = true) ∧ (l < 136) ∧ (s.t1Validate (min 3 (s.home l)) c.ctx l (bitsOf (c.arg 1) 13 8) (c.arg 0) = (st, u))))
    ∧ (∃ src : PcpSrc, ∃ s : State, ∃ c : Cmd, ∃ raw', ∃ b, ∃ u, (s.ctxUsed c.ctx = false) ∧ (s.bit Reg.ISL_SWAP_CTL Fd.ISL_SWAP_CTL_GO = false) ∧ (let l := c.arg 1 % 256; (s.pcpCmd src 0x0203 = some c) ∧ (readable (c.arg 0) 128 = true) ∧ (l < 136) ∧ (bitsOf (c.arg 1) 21 21 = 0) ∧ (let raw := putFields (s.memNat (c.arg 0) 128) [(0x50, 12, 4, c.ctx), (0x50, 31, 1, 1)]; (let ch := parseChart raw; (ch.t1 = false) ∧ (fmtOk ch.fmt = true) ∧ (1 ≤ ch.ndim) ∧ (ch.ndim ≤ 6) ∧ (∀ x ∈ ch.size.take ch.ndim, x ≠ 0) ∧ (∀ x ∈ ch.stride.take ch.ndim, 0 ≤ x) ∧ (s.placeLocal c.ctx raw = some (raw', b, u))))))
    ∧ (∃ src : PcpSrc, ∃ s : State, ∃ c : Cmd, (s.ctxUsed c.ctx = false) ∧ (s.bit Reg.ISL_SWAP_CTL Fd.ISL_SWAP_CTL_GO = false) ∧ (let l := c.arg 1 % 256; (s.pcpCmd src 0x0203 = some c) ∧ (readable (c.arg 0) 128 = true) ∧ (l < 136) ∧ (bitsOf (c.arg 1) 21 21 = 0) ∧ (let raw := putFields (s.memNat (c.arg 0) 128) [(0x50, 12, 4, c.ctx), (0x50, 31, 1, 1)]; (let ch := parseChart raw; (ch.t1 = false) ∧ (fmtOk ch.fmt = true) ∧ (1 ≤ ch.ndim) ∧ (ch.ndim ≤ 6) ∧ (∀ x ∈ ch.size.take ch.ndim, x ≠ 0) ∧ (∀ x ∈ ch.stride.take ch.ndim, 0 ≤ x) ∧ (s.placeLocal c.ctx raw = none))))) := by
  refine ⟨?_, ?_, ?_, ?_, ?_, ?_⟩
  · exact ⟨U6, chS1 plain 0x201, cm 0x201 [0x20000400000,3+5*2^8], by decide +kernel⟩
  · exact ⟨U6, chS1 (chart 0 0) 0x201, cm 0x201 [0x20000400000,3+5*2^8], by decide +kernel⟩
  · exact ⟨U6, cS (cm 0x201 [0x900,3] 0) (S0), cm 0x201 [0x900,3] 0, by decide +kernel⟩
  · exact ⟨U6, chS1 plain 0x202, cm 0x202 [0x20000400000,3+5*2^8], ((chS1 plain 0x202).t1Validate (min 3 ((chS1 plain 0x202).home 3)) 2 3 5 0x20000400000).1, ((chS1 plain 0x202).t1Validate (min 3 ((chS1 plain 0x202).home 3)) 2 3 5 0x20000400000).2, by decide +kernel⟩
  · exact ⟨U6, chS1 plain 0x203, cm 0x203 [0x20000400000,3+5*2^8], (plS.getD (0,0,S0)).1, (plS.getD (0,0,S0)).2.1, (plS.getD (0,0,S0)).2.2, by decide +kernel⟩
  · exact ⟨U6, chS1 (plain + 64*2^32*2^64 + (2^30)*2^320) 0x203, cm 0x203 [0x20000400000,3+5*2^8], by decide +kernel⟩

/-- PcpJobs: each clause has its hypotheses together. -/
theorem test_hyps_PcpJobs :
    (∃ src : PcpSrc, ∃ s : State, ∃ c : Cmd, ∃ st, ∃ code, ∃ u, (s.pcpCmd src 0x0301 = some c) ∧ (c.arg 3 % 2 = 0) ∧ (s.loadHere (c.arg 0) (c.arg 1) (if bitsOf (c.arg 3) 1 1 = 1 then some (c.arg 2) else none) = (st, code, u)) ∧ (s.loaded = true))
    ∧ (∃ src : PcpSrc, ∃ s : State, ∃ c : Cmd, ∃ st, ∃ code, ∃ u, (s.pcpCmd src 0x0301 = some c) ∧ (c.arg 3 % 2 = 0) ∧ (s.loadHere (c.arg 0) (c.arg 1) (if bitsOf (c.arg 3) 1 1 = 1 then some (c.arg 2) else none) = (st, code, u)) ∧ (st ≠ 0) ∧ (st ≠ 8))
    ∧ (∃ src : PcpSrc, ∃ s : State, ∃ c : Cmd, (s.pcpCmd src 0x0301 = some c) ∧ (c.arg 3 % 2 = 1) ∧ (s.fw.manager ≠ s.selfId 0 + 1))
    ∧ (∃ src : PcpSrc, ∃ s : State, ∃ c : Cmd, (s.pcpCmd src 0x0302 = some c) ∧ (c.arg 0 % 2 = 0) ∧ (s.tideSt ≤ 4) ∧ (s.loaded = true ↔ s.tideSt ≠ 0))
    ∧ (∃ src : PcpSrc, ∃ s : State, ∃ c : Cmd, (s.pcpCmd src 0x0302 = some c) ∧ (c.arg 0 % 2 = 1) ∧ (s.fw.manager ≠ s.selfId 0 + 1))
    ∧ (∃ src : PcpSrc, ∃ s : State, ∃ c : Cmd, (s.pcpCmd src 0x0303 = some c) ∧ (let act := bitsOf (c.arg 0) 3 2; (let halted := s.fw.manager = s.selfId 0 + 1 ∧ s.isRoot = true ∧ s.tideSt = 3 ∧ s.fld Reg.TIDE_BCN_VERDICT Fd.TIDE_BCN_VERDICT_VERDICT = 4; (c.arg 0 % 4 = 0) ∧ (halted) ∧ (act = 1 ∨ act = 2) ∧ (s.tideNum ≠ 0xFFFFFFFF) ∧ (s.tide.startMarker = false))))
    ∧ (∃ src : PcpSrc, ∃ s : State, ∃ c : Cmd, (s.pcpCmd src 0x0303 = some c) ∧ (let halted := s.fw.manager = s.selfId 0 + 1 ∧ s.isRoot = true ∧ s.tideSt = 3 ∧ s.fld Reg.TIDE_BCN_VERDICT Fd.TIDE_BCN_VERDICT_VERDICT = 4; (c.arg 0 % 4 = 0) ∧ (¬halted)))
    ∧ (∃ src : PcpSrc, ∃ s : State, ∃ c : Cmd, (s.pcpCmd src 0x0303 = some c) ∧ (let halted := s.fw.manager = s.selfId 0 + 1 ∧ s.isRoot = true ∧ s.tideSt = 3 ∧ s.fld Reg.TIDE_BCN_VERDICT Fd.TIDE_BCN_VERDICT_VERDICT = 4; (c.arg 0 % 4 = 1) ∧ (c.stage = 0) ∧ (halted)))
    ∧ (∃ src : PcpSrc, ∃ s : State, ∃ c : Cmd, (s.pcpCmd src 0x0303 = some c) ∧ (c.arg 0 % 4 = 1) ∧ (c.stage ≠ 0) ∧ (s.setsDone = true) ∧ (let u := s.loadAt (c.stage - 1); (u.loaded = true)))
    ∧ (∃ src : PcpSrc, ∃ s : State, ∃ c : Cmd, (s.pcpCmd src 0x0303 = some c) ∧ (c.arg 0 % 4 = 1) ∧ (c.stage ≠ 0) ∧ (s.setsDone = true) ∧ (let u := s.loadAt (c.stage - 1); (u.loaded = false)))
    ∧ (∃ src : PcpSrc, ∃ s : State, ∃ c : Cmd, (s.pcpCmd src 0x0303 = some c) ∧ (let halted := s.fw.manager = s.selfId 0 + 1 ∧ s.isRoot = true ∧ s.tideSt = 3 ∧ s.fld Reg.TIDE_BCN_VERDICT Fd.TIDE_BCN_VERDICT_VERDICT = 4; (c.arg 0 % 4 = 2) ∧ (c.stage = 0) ∧ (halted)))
    ∧ (∃ src : PcpSrc, ∃ s : State, ∃ c : Cmd, (s.pcpCmd src 0x0303 = some c) ∧ (c.arg 0 % 4 = 2) ∧ (c.stage ≠ 0) ∧ (s.loaded = true))
    ∧ (∃ src : PcpSrc, ∃ s : State, ∃ c : Cmd, (s.pcpCmd src 0x0304 = some c) ∧ (bitsOf (c.arg 0) 5 5 = 0) ∧ (readable (c.arg 1) (8 * c.arg 2) = true) ∧ (let l := s.batchList (c.arg 1) (c.arg 2); (∀ e ∈ l, (s.physOf e.1).isSome = true))) := by
  refine ⟨?_, ?_, ?_, ?_, ?_, ?_, ?_, ?_, ?_, ?_, ?_, ?_, ?_⟩
  · exact ⟨U6, cS (cm 0x301 [0x20000400000,64] 0) (tS 1 loadS), cm 0x301 [0x20000400000,64] 0, ((cS (cm 0x301 [0x20000400000,64]) (tS 1 loadS)).loadHere 0x20000400000 64 none).1, ((cS (cm 0x301 [0x20000400000,64]) (tS 1 loadS)).loadHere 0x20000400000 64 none).2.1, ((cS (cm 0x301 [0x20000400000,64]) (tS 1 loadS)).loadHere 0x20000400000 64 none).2.2, by decide +kernel⟩
  · exact ⟨U6, cS (cm 0x301 [0x20000400000,64] 0) (S0), cm 0x301 [0x20000400000,64] 0, ((cS (cm 0x301 [0x20000400000,64]) (S0)).loadHere 0x20000400000 64 none).1, ((cS (cm 0x301 [0x20000400000,64]) (S0)).loadHere 0x20000400000 64 none).2.1, ((cS (cm 0x301 [0x20000400000,64]) (S0)).loadHere 0x20000400000 64 none).2.2, by decide +kernel⟩
  · exact ⟨U6, cS (cm 0x301 [0x20000400000,64,0,1] 0) (selfS), cm 0x301 [0x20000400000,64,0,1] 0, by decide +kernel⟩
  · exact ⟨U6, cS (cm 0x302 [0] 0) (tS 1 loadS), cm 0x302 [0] 0, by decide +kernel⟩
  · exact ⟨U6, cS (cm 0x302 [1] 0) (selfS), cm 0x302 [1] 0, by decide +kernel⟩
  · exact ⟨U6, cS (cm 0x303 [4] 0) (halt), cm 0x303 [4] 0, by decide +kernel⟩
  · exact ⟨U6, cS (cm 0x303 [4] 0) (S0), cm 0x303 [4] 0, by decide +kernel⟩
  · exact ⟨U6, cS (cm 0x303 [1] 0) (halt), cm 0x303 [1] 0, by decide +kernel⟩
  · exact ⟨U6, cS (cm 0x303 [1] 6) (ldd), cm 0x303 [1] 6, by decide +kernel⟩
  · exact ⟨U6, cS (cm 0x303 [1] 6) (S0), cm 0x303 [1] 6, by decide +kernel⟩
  · exact ⟨U6, cS (cm 0x303 [2] 0) (halt), cm 0x303 [2] 0, by decide +kernel⟩
  · exact ⟨U6, cS (cm 0x303 [2] 1) (tS 1 loadS), cm 0x303 [2] 1, by decide +kernel⟩
  · exact ⟨U6, cS (cm 0x304 [3,0x20000400000,2] 0) (bL), cm 0x304 [3,0x20000400000,2] 0, by decide +kernel⟩

/-- PcpSessionsAndResources, part PcpResources: each clause has its hypotheses together. -/
theorem test_hyps_PcpResources :
    (∃ src : PcpSrc, ∃ s : State, ∃ c : Cmd, (s.pcpCmd src 0x0305 = some c))
    ∧ (∃ src : PcpSrc, ∃ s : State, ∃ c : Cmd, (s.pcpCmd src 0x0306 = some c) ∧ (c.stage = 0) ∧ (s.fw.manager = s.selfId 0 + 1) ∧ (s.loaded = true) ∧ (s.anyLocked = false))
    ∧ (∃ src : PcpSrc, ∃ s : State, ∃ c : Cmd, (s.pcpCmd src 0x0306 = some c) ∧ (c.stage ≠ 0) ∧ (s.allLocked = true))
    ∧ (∃ src : PcpSrc, ∃ s : State, ∃ c : Cmd, (let a (i : Nat) := c.arg i; (s.pcpCmd src 0x0401 = some c) ∧ (a 0 % 256 < s.logicalCount) ∧ (a 1 ≤ buoyMax)))
    ∧ (∃ src : PcpSrc, ∃ s : State, ∃ c : Cmd, (let a (i : Nat) := c.arg i; (s.pcpCmd src 0x0402 = some c) ∧ (c.stage = 0) ∧ (s.dumping = false) ∧ (a 0 % 4096 = 0) ∧ (readable (a 0) 0x200000 = true)))
    ∧ (∃ src : PcpSrc, ∃ s : State, ∃ c : Cmd, (s.pcpCmd src 0x0402 = some c) ∧ (c.stage ≠ 0) ∧ (s.dumping = false) ∧ (let err := ∃ q : Fin 4, s.bit (Reg.BUOY_DUMP_CTL q) Fd.BUOY_DUMP_CTL_ERR = true; (¬err)))
    ∧ (∃ src : PcpSrc, ∃ s : State, ∃ c : Cmd, (s.pcpCmd src 0x0402 = some c) ∧ (c.stage ≠ 0) ∧ (s.dumping = false) ∧ (let err := ∃ q : Fin 4, s.bit (Reg.BUOY_DUMP_CTL q) Fd.BUOY_DUMP_CTL_ERR = true; (err)))
    ∧ (∃ src : PcpSrc, ∃ s : State, ∃ c : Cmd, ∃ row, ∃ mask, (let a (i : Nat) := c.arg i; (s.pcpCmd src 0x0403 = some c) ∧ (a 1 = 1) ∧ (a 0 % 4 = 0) ∧ (regRow? (a 0) = some row) ∧ (pcpReadMask (a 0) = some mask)))
    ∧ (∃ src : PcpSrc, ∃ s : State, ∃ c : Cmd, (let a (i : Nat) := c.arg i; (s.pcpCmd src 0x0403 = some c) ∧ (a 1 = 1) ∧ (a 0 % 4 = 0) ∧ (pcpReadMask (a 0) = none)))
    ∧ (∃ src : PcpSrc, ∃ s : State, ∃ c : Cmd, (let a (i : Nat) := c.arg i; (s.pcpCmd src 0x0404 = some c) ∧ (a 0 % 4 = 0) ∧ (pcpWritable (a 0) = true)))
    ∧ (∃ src : PcpSrc, ∃ s : State, ∃ c : Cmd, (let a (i : Nat) := c.arg i; (s.pcpCmd src 0x0404 = some c) ∧ (a 0 % 4 = 0) ∧ (pcpWritable (a 0) = false)))
    ∧ (∃ src : PcpSrc, ∃ s : State, ∃ c : Cmd, (let a (i : Nat) := c.arg i; (s.pcpCmd src 0x0405 = some c) ∧ (a 1 < 16) ∧ (a 0 % 64 = 0) ∧ (a 0 < 2 ^ 48) ∧ (readable (a 0) 64 = true) ∧ (bitsOf (s.memNat (a 0) 4) 30 27 = c.ctx) ∧ ((s.fry (a 1)).queue.length < 64)))
    ∧ (∃ src : PcpSrc, ∃ s : State, ∃ c : Cmd, (let a (i : Nat) := c.arg i; (s.pcpCmd src 0x0405 = some c) ∧ (a 1 < 16) ∧ (a 0 % 64 = 0) ∧ (a 0 < 2 ^ 48) ∧ (readable (a 0) 64 = true) ∧ (bitsOf (s.memNat (a 0) 4) 30 27 = c.ctx) ∧ (64 ≤ (s.fry (a 1)).queue.length)))
    ∧ (∃ src : PcpSrc, ∃ s : State, ∃ c : Cmd, (let a (i : Nat) := c.arg i; (s.pcpCmd src 0x0501 = some c) ∧ (a 0 = 1) ∧ (a 1 < 136) ∧ (a 2 < 144) ∧ (quarterOf (a 2) = s.home (a 1)) ∧ (s.pstate (a 2) = 1) ∧ (s.loaded = true) ∧ (s.lmapPhys (a 1) = a 2)))
    ∧ (∃ src : PcpSrc, ∃ s : State, ∃ c : Cmd, (let a (i : Nat) := c.arg i; (s.pcpCmd src 0x0501 = some c) ∧ (a 0 = 1) ∧ (a 1 < 136) ∧ (a 2 < 144) ∧ (quarterOf (a 2) = s.home (a 1)) ∧ (s.pstate (a 2) = 1) ∧ (s.loaded = true) ∧ (s.lmapPhys (a 1) ≠ a 2)))
    ∧ (∃ src : PcpSrc, ∃ s : State, ∃ c : Cmd, (let a (i : Nat) := c.arg i; (s.pcpCmd src 0x0501 = some c) ∧ (a 0 = 3) ∧ (a 2 ≠ 0) ∧ (a 1 + a 2 ≤ 32768)))
    ∧ (∃ src : PcpSrc, ∃ s : State, ∃ c : Cmd, (let a (i : Nat) := c.arg i; (s.pcpCmd src 0x0502 = some c) ∧ (a 0 = 1) ∧ (a 1 < 136) ∧ (s.lmapPin (a 1) = true) ∧ (s.lmapPhys (a 1) = a 2)))
    ∧ (∃ src : PcpSrc, ∃ s : State, ∃ c : Cmd, (let a (i : Nat) := c.arg i; (s.pcpCmd src 0x0502 = some c) ∧ (a 0 = 3) ∧ ((a 1, a 2) ∈ s.fw.pinBot)))
    ∧ (∃ src : PcpSrc, ∃ s : State, ∃ c : Cmd, (let a (i : Nat) := c.arg i; (s.pcpCmd src 0x0503 = some c) ∧ (a 0 < 136))) := by
  refine ⟨?_, ?_, ?_, ?_, ?_, ?_, ?_, ?_, ?_, ?_, ?_, ?_, ?_, ?_, ?_, ?_, ?_, ?_, ?_⟩
  · exact ⟨U6, cS (cm 0x305 [1,2,3] 0) (S0), cm 0x305 [1,2,3] 0, by decide +kernel⟩
  · exact ⟨U6, cS (cm 0x306 [] 0) (w (mgr (tS 1 loadS)) []), cm 0x306 [] 0, by decide +kernel⟩
  · exact ⟨U6, cS (cm 0x306 [] 1) (w8lock), cm 0x306 [] 1, by decide +kernel⟩
  · exact ⟨U6, cS (cm 0x401 [5+40*2^8,99] 0) (S0), cm 0x401 [5+40*2^8,99] 0, by decide +kernel⟩
  · exact ⟨U6, cS (cm 0x402 [0x20000400000] 0) (S0), cm 0x402 [0x20000400000] 0, by decide +kernel⟩
  · exact ⟨U6, cS (cm 0x402 [0x20000400000] 1) (S0), cm 0x402 [0x20000400000] 1, by decide +kernel⟩
  · exact ⟨U6, cS (cm 0x402 [0x20000400000] 1) (w S0 [(Reg.BUOY_DUMP_CTL 2, Fd.BUOY_DUMP_CTL_ERR, 1)]), cm 0x402 [0x20000400000] 1, by decide +kernel⟩
  · exact ⟨U6, cS (cm 0x403 [rowU,1] 0) (S0), cm 0x403 [rowU,1] 0, (regRow? rowU).getD ⟨0,[],false,[]⟩, (pcpReadMask rowU).getD 0, by decide +kernel⟩
  · exact ⟨U6, cS (cm 0x403 [0x400000,1] 0) (S0), cm 0x403 [0x400000,1] 0, by decide +kernel⟩
  · exact ⟨U6, cS (cm 0x404 [rowU,0xFF,0xF] 0) (S0), cm 0x404 [rowU,0xFF,0xF] 0, by decide +kernel⟩
  · exact ⟨U6, cS (cm 0x404 [0x400000,0xFF,0xF] 0) (S0), cm 0x404 [0x400000,0xFF,0xF] 0, by decide +kernel⟩
  · exact ⟨U6, cS (cm 0x405 [0x20000400000,5] 0) (put S0 0x20000400000 64 (2*2^27)), cm 0x405 [0x20000400000,5] 0, by decide +kernel⟩
  · exact ⟨U6, cS (cm 0x405 [0x20000400000,5] 0) ((put S0 0x20000400000 64 (2*2^27)).setFry 5 { queue := List.replicate 64 ⟨1,.pilot,0,0,false⟩ }), cm 0x405 [0x20000400000,5] 0, by decide +kernel⟩
  · exact ⟨U6, cS (cm 0x501 [1,5,5] 0) (tS 1 (loadS.setPstate 5 1)), cm 0x501 [1,5,5] 0, by decide +kernel⟩
  · exact ⟨U6, cS (cm 0x501 [1,5,6] 0) (tS 1 (loadS.setPstate 6 1)), cm 0x501 [1,5,6] 0, by decide +kernel⟩
  · exact ⟨U6, cS (cm 0x501 [3,5,6] 0) (S0), cm 0x501 [3,5,6] 0, by decide +kernel⟩
  · exact ⟨U6, cS (cm 0x502 [1,5,5] 0) (w loadS [(Reg.ISL_LMAP 5, Fd.ISL_LMAP_PIN, 1)]), cm 0x502 [1,5,5] 0, by decide +kernel⟩
  · exact ⟨U6, cS (cm 0x502 [3,5,6] 0) (({ S0 with fw := { pinBot := [(5,6),(7,8)] } }:State)), cm 0x502 [3,5,6] 0, by decide +kernel⟩
  · exact ⟨U6, cS (cm 0x503 [5] 0) (loadS), cm 0x503 [5] 0, by decide +kernel⟩

/-- PcpUnitsAndSecurity, part PcpUnits: each clause has its hypotheses together. -/
theorem test_hyps_PcpUnits :
    (∃ src : PcpSrc, ∃ s : State, ∃ c : Cmd, (let a (i : Nat) := c.arg i; (s.pcpCmd src 0x0601 = some c) ∧ (unitOk (a 0) = true)))
    ∧ (∃ src : PcpSrc, ∃ s : State, ∃ c : Cmd, ∃ mst, (let a (i : Nat) := c.arg i; (let v := s.observe (a 0); (s.pcpCmd src 0x0602 = some c) ∧ (unitOk (a 0) = true) ∧ (setAssumes (a 0 / 4096) (a 2) = some mst) ∧ (c.stage = 0) ∧ (v.unitSeqOf (a 0) ≠ a 1))))
    ∧ (∃ src : PcpSrc, ∃ s : State, ∃ c : Cmd, ∃ k : Fin 16, (let a (i : Nat) := c.arg i; (let v := s.observe (a 0); (s.pcpCmd src 0x0602 = some c) ∧ (a 0 = 0x2000 + k) ∧ (a 2 = 1) ∧ (c.stage = 0) ∧ (v.unitSeqOf (a 0) = a 1) ∧ (s.portSt k = 3))))
    ∧ (∃ src : PcpSrc, ∃ s : State, ∃ c : Cmd, ∃ k : Fin 8, (let a (i : Nat) := c.arg i; (let v := s.observe (a 0); (s.pcpCmd src 0x0602 = some c) ∧ (a 0 = 0x3000 + k) ∧ (a 2 = 5) ∧ (c.stage = 0) ∧ (v.unitSeqOf (a 0) = a 1) ∧ (s.memState (.hbm k) = 1) ∧ (s.loaded = false))))
    ∧ (∃ src : PcpSrc, ∃ s : State, ∃ c : Cmd, ∃ p : Fin 144, (let a (i : Nat) := c.arg i; (s.pcpCmd src 0x0602 = some c) ∧ (a 0 = 0x1000 + p) ∧ (1 ≤ a 2) ∧ (a 2 ≤ 3) ∧ (c.stage = 1) ∧ (s.pstate p ≠ 4) ∧ (s.pstate p ≠ 1)))
    ∧ (∃ src : PcpSrc, ∃ s : State, ∃ c : Cmd, (let a (i : Nat) := c.arg i; (let v := s.observe (a 0); (s.pcpCmd src 0x0603 = some c) ∧ (unitOk (a 0) = true) ∧ (a 0 / 4096 = 3 ∨ a 0 / 4096 = 4) ∧ (a 2 ≤ 2) ∧ (v.unitSeqOf (a 0) ≠ a 1))))
    ∧ (∃ src : PcpSrc, ∃ s : State, ∃ c : Cmd, (let a (i : Nat) := c.arg i; (let v := s.observe (a 0); (s.pcpCmd src 0x0603 = some c) ∧ (unitOk (a 0) = true) ∧ (a 0 / 4096 = 3 ∨ a 0 / 4096 = 4) ∧ (a 2 ≤ 2) ∧ (v.unitSeqOf (a 0) = a 1) ∧ (s.unitState (a 0) ≠ 2))))
    ∧ (∃ src : PcpSrc, ∃ s : State, ∃ c : Cmd, ∃ ds : List DepthResult, (let a (i : Nat) := c.arg i; (let v := s.observe (a 0); (s.pcpCmd src 0x0603 = some c) ∧ (unitOk (a 0) = true) ∧ (a 0 / 4096 = 3 ∨ a 0 / 4096 = 4) ∧ (a 2 ≤ 2) ∧ (v.unitSeqOf (a 0) = a 1) ∧ (s.unitState (a 0) = 2) ∧ (ds.length = a 2 + 1) ∧ (∀ d ∈ ds, d.laneErrs.sum = 0))))
    ∧ (∃ src : PcpSrc, ∃ s : State, ∃ c : Cmd, ∃ ds : List DepthResult, ∃ d, (let a (i : Nat) := c.arg i; (let v := s.observe (a 0); (s.pcpCmd src 0x0603 = some c) ∧ (unitOk (a 0) = true) ∧ (a 0 / 4096 = 3 ∨ a 0 / 4096 = 4) ∧ (a 2 ≤ 2) ∧ (v.unitSeqOf (a 0) = a 1) ∧ (s.unitState (a 0) = 2) ∧ (ds.length = a 2 + 1) ∧ (d < ds.length) ∧ ((ds.map (·.laneErrs.sum)).getD d 0 ≠ 0) ∧ (∀ e, e < d → (ds.map (·.laneErrs.sum)).getD e 0 = 0))))
    ∧ (∃ src : PcpSrc, ∃ s : State, ∃ c : Cmd, (let a (i : Nat) := c.arg i; (s.pcpCmd src 0x0701 = some c) ∧ (a 0 % 4096 = 0) ∧ (8 ≤ a 1) ∧ (a 1 ≤ 20) ∧ (readable (a 0) (64 + 64 * 2 ^ a 1) = true)))
    ∧ (∃ src : PcpSrc, ∃ s : State, ∃ c : Cmd, (let a (i : Nat) := c.arg i; (s.pcpCmd src 0x0702 = some c) ∧ (a 0 ≠ 0) ∧ (a 0 + a 1 ≤ 0x100))) := by
  refine ⟨?_, ?_, ?_, ?_, ?_, ?_, ?_, ?_, ?_, ?_, ?_⟩
  · exact ⟨U6, cS (cm 0x601 [0x2005] 0) (ptv (pst 5 4) 0x2005 7), cm 0x601 [0x2005] 0, by decide +kernel⟩
  · exact ⟨U6, cS (cm 0x602 [0x2005,6,1] 0) (ptv (pst 5 3) 0x2005 7), cm 0x602 [0x2005,6,1] 0, 3, by decide +kernel⟩
  · exact ⟨U6, cS (cm 0x602 [0x2005,7,1] 0) (ptv (pst 5 3) 0x2005 7), cm 0x602 [0x2005,7,1] 0, 5, by decide +kernel⟩
  · exact ⟨U6, cS (cm 0x602 [0x3005,7,5] 0) (ptv (S0.setFld (memReg (.hbm 5) 0) Fd.HBM_STATUS_STATE 1) 0x3005 7), cm 0x602 [0x3005,7,5] 0, 5, by decide +kernel⟩
  · exact ⟨U6, cS (cm 0x602 [0x1005,7,2] 1) (S0.setPstate 5 6), cm 0x602 [0x1005,7,2] 1, 5, by decide +kernel⟩
  · exact ⟨U6, cS (cm 0x603 [0x3005,6,2] 0) (ptv (S0.setFld (memReg (.hbm 5) 0) Fd.HBM_STATUS_STATE 2) 0x3005 7), cm 0x603 [0x3005,6,2] 0, by decide +kernel⟩
  · exact ⟨U6, cS (cm 0x603 [0x3005,7,2] 0) (ptv (S0.setFld (memReg (.hbm 5) 0) Fd.HBM_STATUS_STATE 1) 0x3005 7), cm 0x603 [0x3005,7,2] 0, by decide +kernel⟩
  · exact ⟨U6, cS (cm 0x603 [0x3005,7,2] 0) (ptv (S0.setFld (memReg (.hbm 5) 0) Fd.HBM_STATUS_STATE 2) 0x3005 7), cm 0x603 [0x3005,7,2] 0, [⟨false,[],[]⟩,⟨false,[],[]⟩,⟨false,[0],[]⟩], by decide +kernel⟩
  · exact ⟨U6, cS (cm 0x603 [0x3005,7,2] 0) (ptv (S0.setFld (memReg (.hbm 5) 0) Fd.HBM_STATUS_STATE 2) 0x3005 7), cm 0x603 [0x3005,7,2] 0, [⟨false,[],[]⟩,⟨false,[2,3],[]⟩,⟨false,[],[]⟩], 1, by decide +kernel⟩
  · exact ⟨U6, cS (cm 0x701 [0x20000400000,10] 0) (S0), cm 0x701 [0x20000400000,10] 0, by decide +kernel⟩
  · exact ⟨U6, cS (cm 0x702 [5,6,1] 0) (S0), cm 0x702 [5,6,1] 0, by decide +kernel⟩

/-- PcpUnitsAndSecurity, part PcpSecurity: each clause has its hypotheses together. -/
theorem test_hyps_PcpSecurity :
    (∃ src : PcpSrc, ∃ s : State, ∃ c : Cmd, (s.pcpCmd src 0x0801 = some c) ∧ (s.boot.idOk = false))
    ∧ (∃ src : PcpSrc, ∃ s : State, ∃ c : Cmd, (let a (i : Nat) := c.arg i; (s.pcpCmd src 0x0801 = some c) ∧ (s.boot.idOk = true) ∧ (s.boot.idxNext < s.boot.idxLimit) ∧ (readable (a 0) 32 = true) ∧ (readable (a 1) (a 2) = true) ∧ (s.bit Reg.ISL_SWAP_CTL Fd.ISL_SWAP_CTL_GO = false) ∧ (let h := s.report4 (s.bytes (a 0) 32); (h.length + sigLen ≤ a 2))))
    ∧ (∃ src : PcpSrc, ∃ s : State, ∃ c : Cmd, (let a (i : Nat) := c.arg i; (s.pcpCmd src 0x0803 = some c) ∧ (1 ≤ a 1) ∧ (a 1 ≤ 0x4000000) ∧ (readable (a 0) (a 1) = true) ∧ (∀ y ∈ s.fw.cmds, y.opc = 0x0803 → y.src ≠ src → y.stage = 0) ∧ (s.imgSigned (a 0) = false)))
    ∧ (∃ src : PcpSrc, ∃ s : State, ∃ c : Cmd, (let a (i : Nat) := c.arg i; (let n := s.memNat (a 1 + 28) 4; (s.pcpCmd src 0x0802 = some c ∧ a 0 = 0 ∧ readable (a 1) (a 2) = true ∧ 64 ≤ a 2 ∧ s.memNat (a 1) 4 = 0x4B50545A ∧ s.memNat (a 1 + 4) 2 = 1 ∧ n ≤ 0x400000 ∧ n + packSigLen ≤ a 2 ∧ s.memNat (a 1 + 24) 4 ≠ 0 ∧ s.memNat (a 1 + 24) 4 ≤ 4096 ∧ s.memNat (a 1 + 6) 2 / 16 % 2 = 1 ∧ s.memNat (a 1 + 16) 8 ≤ s.boot.fwver ∧ s.fw.hist.packSeq ≤ s.memNat (a 1 + 8) 8) ∧ (Config.xmssVerify s.boot.packKey (s.bytes (a 1) n) (s.bytes (a 1 + n) packSigLen) = false ∨ Config.xmssVerify s.boot.packKey (s.bytes (a 1) n) (s.bytes (a 1 + n) packSigLen) = true))))
    ∧ (∃ src : PcpSrc, ∃ s : State, ∃ c : Cmd, (let a (i : Nat) := c.arg i; (s.pcpCmd src 0x0802 = some c) ∧ (a 0 = 1) ∧ (a 1 < 144) ∧ (a 2 = 1 ∨ a 2 = 2) ∧ (s.pstate (a 1) = 2) ∧ (s.bit Reg.ISL_SWAP_CTL Fd.ISL_SWAP_CTL_GO = false ∨ (s.fld Reg.ISL_SWAP_CTL Fd.ISL_SWAP_CTL_SRC ≠ a 1 ∧ s.fld Reg.ISL_SWAP_CTL Fd.ISL_SWAP_CTL_DST ≠ a 1))))
    ∧ (∃ src : PcpSrc, ∃ s : State, ∃ c : Cmd, (let a (i : Nat) := c.arg i; (s.pcpCmd src 0x0802 = some c) ∧ (a 0 = 1) ∧ (a 1 < 144) ∧ (a 2 = 1 ∨ a 2 = 2) ∧ (s.pstate (a 1) ≠ 2)))
    ∧ (∃ src : PcpSrc, ∃ s : State, ∃ c : Cmd, (let a (i : Nat) := c.arg i; (s.pcpCmd src 0x0802 = some c) ∧ (a 0 = 2) ∧ (a 1 < 144)))
    ∧ (∃ src : PcpSrc, ∃ s : State, ∃ c : Cmd, (let a (i : Nat) := c.arg i; (s.pcpCmd src 0x0802 = some c) ∧ (a 0 = 3) ∧ (readable (a 1) 64 = true) ∧ (policyOk (s.memNat (a 1) 64) = true)))
    ∧ (∃ src : PcpSrc, ∃ s : State, ∃ c : Cmd, (let a (i : Nat) := c.arg i; (s.pcpCmd src 0x0802 = some c) ∧ (a 0 = 3) ∧ (readable (a 1) 64 = true) ∧ (policyOk (s.memNat (a 1) 64) = false)))
    ∧ (∃ src : PcpSrc, ∃ s : State, ∃ c : Cmd, (let a (i : Nat) := c.arg i; (s.pcpCmd src 0x0802 = some c) ∧ (a 0 = 4) ∧ (a 1 % 4096 = 0) ∧ (4 ≤ a 2) ∧ (a 2 ≤ 12) ∧ (0x20000000000 ≤ a 1) ∧ (a 1 + 64 + 1024 * 2 ^ a 2 ≤ 0x20C00000000))) := by
  refine ⟨?_, ?_, ?_, ?_, ?_, ?_, ?_, ?_, ?_, ?_⟩
  · exact ⟨U6, cS (cm 0x801 [] 0) (S0), cm 0x801 [] 0, by decide +kernel⟩
  · exact ⟨U6, cS (cm 0x801 [0x20000400000,0x20000500000,0x8000] 0) (({ S0 with boot := { idOk := true, idxNext := 4, idxLimit := 8 } }:State)), cm 0x801 [0x20000400000,0x20000500000,0x8000] 0, by decide +kernel⟩
  · exact ⟨U6, cS (cm 0x803 [0x20000400000,64] 0) (S0), cm 0x803 [0x20000400000,64] 0, by decide +kernel⟩
  · exact ⟨U6, cS (cm 0x802 [0,0x20000400000,0x8000] 0) (put S0 0x20000400000 64 (0x4B50545A + 2^32 + 16*2^48 + 5*2^64 + 7*2^192 + 64*2^224)), cm 0x802 [0,0x20000400000,0x8000] 0, by decide +kernel, Bool.eq_false_or_eq_true _ |>.symm⟩
  · exact ⟨U6, cS (cm 0x802 [1,5,2] 0) (S0.setPstate 5 2), cm 0x802 [1,5,2] 0, by decide +kernel⟩
  · exact ⟨U6, cS (cm 0x802 [1,5,2] 0) (S0), cm 0x802 [1,5,2] 0, by decide +kernel⟩
  · exact ⟨U6, cS (cm 0x802 [2,5] 0) (S0), cm 0x802 [2,5] 0, by decide +kernel⟩
  · exact ⟨U6, cS (cm 0x802 [3,0x20000400000] 0) (put S0 0x20000400000 64 (({}:Hist).policy)), cm 0x802 [3,0x20000400000] 0, by decide +kernel⟩
  · exact ⟨U6, cS (cm 0x802 [3,0x20000400000] 0) (S0), cm 0x802 [3,0x20000400000] 0, by decide +kernel⟩
  · exact ⟨U6, cS (cm 0x802 [4,0x20000400000,5] 0) (S0), cm 0x802 [4,0x20000400000,5] 0, by decide +kernel⟩

/-- FaultHistoryAndTestCases, part FaultHistory: each clause has its hypotheses together. -/
theorem test_hyps_FaultHistory :
    (∃ e : FaultEvent, ∃ s : State, (s.up = true) ∧ (s.fw.hist.ents.length < 4096) ∧ (s.ontime < 2 ^ 32) ∧ (s.seenInTide e = true))
    ∧ (∃ e : FaultEvent, ∃ s : State, (s.up = true) ∧ (s.fw.hist.ents.length < 4096) ∧ (s.ontime < 2 ^ 32) ∧ (let unit := e.unit.toNat; (let cls := e.cls.toNat; (let typ := e.typ.toNat; (let counted := countedType unit cls typ (entCode e); (let n := s.countedIn unit + 1; (let thr := s.threshold unit cls typ; (let hard := cls = 4 ∧ (typ = 5 ∨ typ = 8 ∨ typ = 10); (s.seenInTide e = false) ∧ (counted = false ∨ n < thr) ∧ (¬hard)))))))))
    ∧ (∃ e : FaultEvent, ∃ s : State, ∃ p : Fin 144, (s.up = true) ∧ (s.fw.hist.ents.length < 4096) ∧ (s.ontime < 2 ^ 32) ∧ (let unit := e.unit.toNat; (let cls := e.cls.toNat; (let typ := e.typ.toNat; (let counted := countedType unit cls typ (entCode e); (let n := s.countedIn unit + 1; (let thr := s.threshold unit cls typ; (s.seenInTide e = false) ∧ (counted = true) ∧ (thr ≤ n) ∧ (unit = 0x1000 + p) ∧ (s.retBit p = false) ∧ (s.pstate p = 2 ∨ s.pstate p = 3) ∧ (s.bit Reg.ISL_SWAP_CTL Fd.ISL_SWAP_CTL_GO = false))))))))
    ∧ (∃ e : FaultEvent, ∃ s : State, (s.up = true) ∧ (s.fw.hist.ents.length < 4096) ∧ (s.ontime < 2 ^ 32) ∧ (let unit := e.unit.toNat; (let cls := e.cls.toNat; (let typ := e.typ.toNat; (let counted := countedType unit cls typ (entCode e); (let n := s.countedIn unit + 1; (let thr := s.threshold unit cls typ; (let hard := cls = 4 ∧ (typ = 5 ∨ typ = 8 ∨ typ = 10); (s.seenInTide e = false) ∧ (counted = true) ∧ (thr ≤ n ∨ hard) ∧ (unit / 4096 ≠ 1) ∧ (s.fw.hist.replace = false))))))))) := by
  refine ⟨?_, ?_, ?_, ?_⟩
  · exact ⟨ev 1 2 0x3005 0, { S0 with fw := { seen := [seenKey (ev 1 2 0x3005 0)] } }, by decide +kernel⟩
  · exact ⟨ev 3 2 0x1005 0, ents 1 0x1005 3 2, by decide +kernel⟩
  · exact ⟨ev 3 2 0x1005 0, (ents 2 0x1005 3 2).setPstate 5 2, 5, by decide +kernel⟩
  · exact ⟨ev 4 5 0x5003 0, tS 1 S0, by decide +kernel⟩

/-- BlocksAndFlash, part BlocksAndHistory: each clause has its hypotheses together. -/
theorem test_hyps_BlocksAndHistory :
    (∃ s : State, ∃ t : Fin 8, ∃ p : List Byte, (p.length + 32 ≤ slotSize t) ∧ (s.blkNext t < 2 ^ 64))
    ∧ (∃ s : State, (s.up = true) ∧ (s.fw.hist.ents.length ≤ 4096) ∧ (s.blkNext 5 < 2 ^ 64) ∧ (s.fw.hist.urgent = true ∨ (s.fw.hist.dirty = true ∧ s.fw.hist.wrote + 600 ≤ s.ontime)))
    ∧ (∃ s : State, (s.fw.hist.urgent = false) ∧ (s.fw.hist.dirty = false ∨ s.ontime < s.fw.hist.wrote + 600)) := by
  refine ⟨?_, ?_, ?_⟩
  · exact ⟨S0.writeBlock 2 (leBytes 8 1), 2, leBytes 24 777, by decide +kernel⟩
  · exact ⟨{ ents 2 0x1005 3 2 with fw := { (ents 2 0x1005 3 2).fw with hist := { (ents 2 0x1005 3 2).fw.hist with urgent := true } } }, by decide +kernel⟩
  · exact ⟨S0, by decide +kernel⟩

/-- FaultHistoryAndTestCases, part TestCases: each clause has its hypotheses together. -/
theorem test_hyps_TestCases :
    (∃ p : Fin 144, ∃ run : CaseRun, ∃ s : State, (s.up = true) ∧ (s.pstate p = 3) ∧ (s.fw.hist.ents.length < 4096) ∧ (s.ontime < 2 ^ 32) ∧ (s.bit Reg.ISL_SWAP_CTL Fd.ISL_SWAP_CTL_GO = false) ∧ (let found := s.fw.suite.zipIdx.find? fun c => c.1.num == run.case.toNat && c.1.target == 0; (found = none)))
    ∧ (∃ p : Fin 144, ∃ run : CaseRun, ∃ peers : List (BitVec 64), ∃ s : State, ∃ c, ∃ k, (s.up = true) ∧ (s.pstate p = 3) ∧ (s.fw.hist.ents.length < 4096) ∧ (s.ontime < 2 ^ 32) ∧ (s.bit Reg.ISL_SWAP_CTL Fd.ISL_SWAP_CTL_GO = false) ∧ (let found := s.fw.suite.zipIdx.find? fun c => c.1.num == run.case.toNat && c.1.target == 0; (found = some (c, k)) ∧ (let ds := outDigest run.first :: peers.map (·.toNat); (let bad := c.xchk = true ∧ peers ≠ [] ∧ ∃ d ∈ ds, d ≠ c.digest ∧ ds.length < 2 * ds.count d; (let ok (out : List Byte) : Prop := if c.xchk = true then outDigest out = c.digest else c.differs run.rows out = none; (¬bad) ∧ (ok run.first))))))
    ∧ (∃ p : Fin 144, ∃ run : CaseRun, ∃ peers : List (BitVec 64), ∃ s : State, ∃ c, ∃ k, (s.up = true) ∧ (s.pstate p = 3) ∧ (s.fw.hist.ents.length < 4096) ∧ (s.ontime < 2 ^ 32) ∧ (s.bit Reg.ISL_SWAP_CTL Fd.ISL_SWAP_CTL_GO = false) ∧ (let found := s.fw.suite.zipIdx.find? fun c => c.1.num == run.case.toNat && c.1.target == 0; (found = some (c, k)) ∧ (let ds := outDigest run.first :: peers.map (·.toNat); (let bad := c.xchk = true ∧ peers ≠ [] ∧ ∃ d ∈ ds, d ≠ c.digest ∧ ds.length < 2 * ds.count d; (bad)))))
    ∧ (∃ p : Fin 144, ∃ run : CaseRun, ∃ peers : List (BitVec 64), ∃ s : State, ∃ c, ∃ k, (s.up = true) ∧ (s.pstate p = 3) ∧ (s.fw.hist.ents.length < 4096) ∧ (s.ontime < 2 ^ 32) ∧ (s.bit Reg.ISL_SWAP_CTL Fd.ISL_SWAP_CTL_GO = false) ∧ (let found := s.fw.suite.zipIdx.find? fun c => c.1.num == run.case.toNat && c.1.target == 0; (found = some (c, k)) ∧ (let ds := outDigest run.first :: peers.map (·.toNat); (let bad := c.xchk = true ∧ peers ≠ [] ∧ ∃ d ∈ ds, d ≠ c.digest ∧ ds.length < 2 * ds.count d; (let ok (out : List Byte) : Prop := if c.xchk = true then outDigest out = c.digest else c.differs run.rows out = none; (¬bad) ∧ (¬ok run.first) ∧ (ok run.second) ∧ (s.countedIn (0x1000 + p) + 1 < s.policy 4 1))))))
    ∧ (∃ p : Fin 144, ∃ run : CaseRun, ∃ peers : List (BitVec 64), ∃ s : State, ∃ c, ∃ k, (s.up = true) ∧ (s.pstate p = 3) ∧ (s.fw.hist.ents.length < 4096) ∧ (s.ontime < 2 ^ 32) ∧ (s.bit Reg.ISL_SWAP_CTL Fd.ISL_SWAP_CTL_GO = false) ∧ (let found := s.fw.suite.zipIdx.find? fun c => c.1.num == run.case.toNat && c.1.target == 0; (found = some (c, k)) ∧ (let ds := outDigest run.first :: peers.map (·.toNat); (let bad := c.xchk = true ∧ peers ≠ [] ∧ ∃ d ∈ ds, d ≠ c.digest ∧ ds.length < 2 * ds.count d; (let ok (out : List Byte) : Prop := if c.xchk = true then outDigest out = c.digest else c.differs run.rows out = none; (¬bad) ∧ (¬ok run.first) ∧ (¬ok run.second) ∧ (s.retBit p = false))))))
    ∧ (∃ p : Fin 144, ∃ run : CaseRun, ∃ s : State, ∃ c, ∃ k, (s.up = true) ∧ (s.pstate p = 3) ∧ (s.fw.hist.ents.length < 4096) ∧ (s.ontime < 2 ^ 32) ∧ (s.bit Reg.ISL_SWAP_CTL Fd.ISL_SWAP_CTL_GO = false) ∧ (let found := s.fw.suite.zipIdx.find? fun c => c.1.num == run.case.toNat && c.1.target == 0; (found = some (c, k)))) := by
  refine ⟨?_, ?_, ?_, ?_, ?_, ?_⟩
  · exact ⟨5, cr true true, (S0.setPstate 5 3), by decide +kernel⟩
  · exact ⟨5, cr true true, [], suS 1 (S0.setPstate 5 3), cas 1, 0, by decide +kernel⟩
  · exact ⟨5, cr true true, [5,5,5], suS 2 (S0.setPstate 5 3), cas 2, 0, by decide +kernel⟩
  · exact ⟨5, cr false true, [], suS 1 (S0.setPstate 5 3), cas 1, 0, by decide +kernel⟩
  · exact ⟨5, cr false false, [], suS 1 (S0.setPstate 5 3), cas 1, 0, by decide +kernel⟩
  · exact ⟨5, cr true true, suS 1 (S0.setPstate 5 3), cas 1, 0, by decide +kernel⟩

/-- DueTests: each clause has its hypotheses together. -/
theorem test_hyps_DueTests :
    (∃ p : Fin 144, ∃ s : State, (s.bit Reg.ISL_SWAP_CTL Fd.ISL_SWAP_CTL_GO = false) ∧ (let now := s.due p = true ∧ s.retBit p = false ∧ s.fw.underTest.contains p.val = false; (¬now)))
    ∧ (∃ p : Fin 144, ∃ s : State, (s.bit Reg.ISL_SWAP_CTL Fd.ISL_SWAP_CTL_GO = false) ∧ (let now := s.due p = true ∧ s.retBit p = false ∧ s.fw.underTest.contains p.val = false; (now) ∧ (s.pstate p = 2)))
    ∧ (∃ p : Fin 144, ∃ s : State, (s.bit Reg.ISL_SWAP_CTL Fd.ISL_SWAP_CTL_GO = false) ∧ (let now := s.due p = true ∧ s.retBit p = false ∧ s.fw.underTest.contains p.val = false; (now) ∧ (s.pstate p = 1) ∧ (s.freeSpare p = none ∨ s.pinned p = true) ∧ (s.deferredAt p = none)))
    ∧ (∃ p : Fin 144, ∃ s : State, (s.bit Reg.ISL_SWAP_CTL Fd.ISL_SWAP_CTL_GO = false) ∧ (let now := s.due p = true ∧ s.retBit p = false ∧ s.fw.underTest.contains p.val = false; (now) ∧ (s.pstate p = 1) ∧ (s.freeSpare p = none ∨ s.pinned p = true) ∧ (s.deferredAt p ≠ none)))
    ∧ (∃ p : Fin 144, ∃ s : State, ∃ d : Fin 144, (s.bit Reg.ISL_SWAP_CTL Fd.ISL_SWAP_CTL_GO = false) ∧ (let now := s.due p = true ∧ s.retBit p = false ∧ s.fw.underTest.contains p.val = false; (now) ∧ (s.pstate p = 1) ∧ (s.freeSpare p = some d.val) ∧ (s.pinned p = false) ∧ (s.loaded = true) ∧ (s.bit Reg.ISL_SWAP_CTL Fd.ISL_SWAP_CTL_HOLD = false) ∧ (s.fw.retireSwap = []) ∧ (s.firstDue p = true)))
    ∧ (∃ p : Fin 144, ∃ s : State, ∃ from0 : Nat, (s.bit Reg.ISL_SWAP_CTL Fd.ISL_SWAP_CTL_GO = false) ∧ (s.deferredAt p = some from0) ∧ (let force := s.loaded = false ∧ from0 + s.policy 2 2 * 3600 ≤ s.ontime ∧ from0 + s.policy 2 2 * 3600 ≤ s.fw.imgAt ∧ s.fw.imgSeq ≠ 0 ∧ s.fw.unloadImg = s.fw.imgSeq; (¬force)))
    ∧ (∃ p : Fin 144, ∃ s : State, ∃ runs : List CaseRun, ∃ from0 : Nat, (s.bit Reg.ISL_SWAP_CTL Fd.ISL_SWAP_CTL_GO = false) ∧ (s.deferredAt p = some from0) ∧ (let force := s.loaded = false ∧ from0 + s.policy 2 2 * 3600 ≤ s.ontime ∧ from0 + s.policy 2 2 * 3600 ≤ s.fw.imgAt ∧ s.fw.imgSeq ≠ 0 ∧ s.fw.unloadImg = s.fw.imgSeq; (let u := (s.faultRecord (islEvent p 10 0 ((s.ontime - from0) / 3600) 0) 0).joinSession; (let res := (suiteResult ((u.casesAt 2 0).map (·.1)) (runsOn p runs) (islUnit p)).1; (force) ∧ (res = 0)))))
    ∧ (∃ p : Fin 144, ∃ s : State, ∃ runs : List CaseRun, ∃ from0 : Nat, (s.bit Reg.ISL_SWAP_CTL Fd.ISL_SWAP_CTL_GO = false) ∧ (s.deferredAt p = some from0) ∧ (let force := s.loaded = false ∧ from0 + s.policy 2 2 * 3600 ≤ s.ontime ∧ from0 + s.policy 2 2 * 3600 ≤ s.fw.imgAt ∧ s.fw.imgSeq ≠ 0 ∧ s.fw.unloadImg = s.fw.imgSeq; (let u := (s.faultRecord (islEvent p 10 0 ((s.ontime - from0) / 3600) 0) 0).joinSession; (let res := (suiteResult ((u.casesAt 2 0).map (·.1)) (runsOn p runs) (islUnit p)).1; (force) ∧ (res = 2) ∧ (s.pstate p = 1) ∧ (s.logicalOf p < 136) ∧ (∀ j : Fin 136, j.val ≠ s.logicalOf p → s.lmapPhys j ≠ p) ∧ (s.retBit p = false) ∧ (s.ontime < 2 ^ 32))))) := by
  refine ⟨?_, ?_, ?_, ?_, ?_, ?_, ?_, ?_⟩
  · exact ⟨5, S0, by decide +kernel⟩
  · exact ⟨5, dueS (S0.setPstate 5 2), by decide +kernel⟩
  · exact ⟨5, dueS (S0.setPstate 5 1), by decide +kernel⟩
  · exact ⟨5, defS (S0.setPstate 5 1), by decide +kernel⟩
  · exact ⟨5, tS 1 (dueS (((S0.setPstate 5 1).setPstate 7 2))), 7, by decide +kernel⟩
  · exact ⟨5, tS 1 (defS (S0.setPstate 5 1)), 0, by decide +kernel⟩
  · exact ⟨5, lateS (S0.setPstate 5 1), [], 0, by decide +kernel⟩
  · exact ⟨5, badS (lateS ((w S0 [(Reg.ISL_LMAP 5, Fd.ISL_LMAP_VALID, 1),(Reg.ISL_LMAP 5, Fd.ISL_LMAP_PHYS, 5)]).setPstate 5 1 |>.setLogical 5 5)), [cr false false 0], 0, by decide +kernel⟩

/-- BootRomAndIdentity, part BootRom: each clause has its hypotheses together. -/
theorem test_hyps_BootRom :
    (∃ s : State, (s.atStage 1 = false))
    ∧ (∃ s : State, (s.atStage 1 = true) ∧ (s.imgRuns (imgBase 0) = false) ∧ (s.imgRuns (imgBase 1) = false))
    ∧ (∃ r : Requester, ∃ v : BitVec 32, ∃ s : State, (s.up = true) ∧ (s.mayWrite r Reg.BOOT_RCV = true) ∧ (let n := v.toNat % 2 ^ 23; (let runs := s.bootFld Fd.BOOT_STATUS_RECOVERY = 1 ∧ 1 ≤ n ∧ n ≤ 0x400000 ∧ s.imgRuns 0x400000 = true; (¬runs)))) := by
  refine ⟨?_, ?_, ?_⟩
  · exact ⟨stg 2, by decide +kernel⟩
  · exact ⟨stg 1, by decide +kernel⟩
  · exact ⟨.debug, 77, S0, by decide +kernel⟩

/-- BootRomAndIdentity, part IdentityAndIndices: each clause has its hypotheses together. -/
theorem test_hyps_IdentityAndIndices :
    (∃ s : State, ∃ q : Nat, ∃ l : Nat, ∃ c : Nat, ∃ i : Nat, (s.idxCurrent = some (q, l, c, i)) ∧ (q + 1 < 2 ^ 64) ∧ (s.idxPlace (1 - c) % 2048 = 0 ∨ (∀ k, k < 32 → s.byte (idxAddr (1 - c) (s.idxPlace (1 - c)) + k) = 0xFF#8)) ∧ (s.atStage 2 = false))
    ∧ (∃ s : State, ∃ q : Nat, ∃ l : Nat, ∃ c : Nat, ∃ i : Nat, ∃ puf, (s.idxCurrent = some (q, l, c, i)) ∧ (q + 1 < 2 ^ 64) ∧ (s.idxPlace (1 - c) % 2048 = 0 ∨ (∀ k, k < 32 → s.byte (idxAddr (1 - c) (s.idxPlace (1 - c)) + k) = 0xFF#8)) ∧ (s.atStage 2 = true) ∧ (s.identityOk (s.blkPayload 1) puf = false))
    ∧ (∃ s : State, ∃ q : Nat, ∃ l : Nat, ∃ c : Nat, ∃ i : Nat, (s.idxCurrent = some (q, l, c, i)) ∧ (q + 1 < 2 ^ 64) ∧ (s.idxPlace (1 - c) % 2048 = 0 ∨ (∀ k, k < 32 → s.byte (idxAddr (1 - c) (s.idxPlace (1 - c)) + k) = 0xFF#8)) ∧ (let due := s.boot.idOk = true ∧ s.boot.idxLimit < s.boot.idxNext + 256; (¬due)))
    ∧ (∃ s : State, ∃ q : Nat, ∃ l : Nat, ∃ c : Nat, ∃ i : Nat, (s.idxCurrent = some (q, l, c, i)) ∧ (q + 1 < 2 ^ 64) ∧ (s.idxPlace (1 - c) % 2048 = 0 ∨ (∀ k, k < 32 → s.byte (idxAddr (1 - c) (s.idxPlace (1 - c)) + k) = 0xFF#8)) ∧ (let due := s.boot.idOk = true ∧ s.boot.idxLimit < s.boot.idxNext + 256; (due) ∧ (l + 1024 ≤ 2 ^ 40)))
    ∧ (∃ s : State, ∃ q : Nat, ∃ l : Nat, ∃ c : Nat, ∃ i : Nat, (s.idxCurrent = some (q, l, c, i)) ∧ (q + 1 < 2 ^ 64) ∧ (s.idxPlace (1 - c) % 2048 = 0 ∨ (∀ k, k < 32 → s.byte (idxAddr (1 - c) (s.idxPlace (1 - c)) + k) = 0xFF#8)) ∧ (let due := s.boot.idOk = true ∧ s.boot.idxLimit < s.boot.idxNext + 256; (due) ∧ (2 ^ 40 < l + 1024))) := by
  refine ⟨?_, ?_, ?_, ?_, ?_⟩
  · exact ⟨idxS, 4, 2048, 1, 0, by decide +kernel⟩
  · exact ⟨stg 2 idxS, 4, 2048, 1, 0, [], by decide +kernel⟩
  · exact ⟨idxS, 4, 2048, 1, 0, by decide +kernel⟩
  · exact ⟨{ idxS with boot := { idOk := true, idxNext := 2000, idxLimit := 2048 } }, 4, 2048, 1, 0, by decide +kernel⟩
  · exact ⟨{ S0.idxAppend 1 4 (2^40) with boot := { idOk := true, idxNext := 2000, idxLimit := 2048 } }, 4, 2^40, 1, 0, by decide +kernel⟩

/-- BootStages: each clause has its hypotheses together. -/
theorem test_hyps_BootStages :
    (∃ s : State, (s.atStage 3 = false))
    ∧ (∃ s : State, (s.atStage 3 = true))
    ∧ (∃ s : State, (s.atStage 4 = false))
    ∧ (∃ s : State, (s.atStage 4 = true))
    ∧ (∃ s : State, (s.atStage 5 = false))
    ∧ (∃ s : State, (s.atStage 5 = true) ∧ (let secOk := ∀ e, s.secAt s.ownImage 3 = some e → s.secOk s.ownImage e = true; (¬secOk)))
    ∧ (∃ s : State, (s.atStage 5 = true) ∧ (let secOk := ∀ e, s.secAt s.ownImage 3 = some e → s.secOk s.ownImage e = true; (secOk))) := by
  refine ⟨?_, ?_, ?_, ?_, ?_, ?_, ?_⟩
  · exact ⟨S0, by decide +kernel⟩
  · exact ⟨stg 3, by decide +kernel⟩
  · exact ⟨S0, by decide +kernel⟩
  · exact ⟨stg 4, by decide +kernel⟩
  · exact ⟨S0, by decide +kernel⟩
  · exact ⟨stg 5 (ownSec 3 40), by decide +kernel⟩
  · exact ⟨stg 5, by decide +kernel⟩

/-- BootStages, part BootEnds: each clause has its hypotheses together. -/
theorem test_hyps_BootEnds :
    (∃ s : State, (s.atStage 6 = false))
    ∧ (∃ s : State, ∃ e, (s.atStage 6 = true) ∧ (s.secAt s.ownImage 2 = some e) ∧ (s.secOk s.ownImage e = true) ∧ (s.bit Reg.ISL_SWAP_CTL Fd.ISL_SWAP_CTL_GO = false))
    ∧ (∃ s : State, (let secBad := ∀ e, s.secAt s.ownImage 2 = some e → s.secOk s.ownImage e = false; (s.atStage 6 = true) ∧ (secBad) ∧ (s.boot.shoreTries = 0)))
    ∧ (∃ s : State, (let secBad := ∀ e, s.secAt s.ownImage 2 = some e → s.secOk s.ownImage e = false; (s.atStage 6 = true) ∧ (secBad) ∧ (1 ≤ s.boot.shoreTries)))
    ∧ (∃ s : State, (s.atStage 7 = false))
    ∧ (∃ s : State, (s.atStage 7 = true) ∧ (s.bootFld Fd.BOOT_STATUS_ID_FAIL = 1))
    ∧ (∃ s : State, (s.atStage 7 = true) ∧ (s.bootFld Fd.BOOT_STATUS_ID_FAIL = 0))
    ∧ (∃ s : State, (s.atStage 7 = true) ∧ (s.straitsDone = true))
    ∧ (∃ s : State, (s.atStage 7 = false ∨ s.straitsDone = false))
    ∧ (∃ s : State, (s.up = true) ∧ (s.bootFld Fd.BOOT_STATUS_RECOVERY = 0) ∧ (s.bootFld Fd.BOOT_STATUS_STAGE = 1))
    ∧ (∃ s : State, (s.up = true) ∧ (s.bootFld Fd.BOOT_STATUS_RECOVERY = 0) ∧ (s.bootFld Fd.BOOT_STATUS_STAGE = 2))
    ∧ (∃ s : State, (s.up = true) ∧ (s.bootFld Fd.BOOT_STATUS_RECOVERY = 0) ∧ (s.bootFld Fd.BOOT_STATUS_STAGE = 3))
    ∧ (∃ s : State, (s.up = true) ∧ (s.bootFld Fd.BOOT_STATUS_RECOVERY = 0) ∧ (s.bootFld Fd.BOOT_STATUS_STAGE = 4))
    ∧ (∃ s : State, (s.up = true) ∧ (s.bootFld Fd.BOOT_STATUS_RECOVERY = 0) ∧ (s.bootFld Fd.BOOT_STATUS_STAGE = 5))
    ∧ (∃ s : State, (s.up = true) ∧ (s.bootFld Fd.BOOT_STATUS_RECOVERY = 0) ∧ (s.bootFld Fd.BOOT_STATUS_STAGE = 6) ∧ (2 ≤ s.boot.shoreTries))
    ∧ (∃ s : State, (s.up = true) ∧ (s.bootFld Fd.BOOT_STATUS_RECOVERY = 0) ∧ (s.bootFld Fd.BOOT_STATUS_STAGE = 7))
    ∧ (∃ s : State, (s.up = true) ∧ (s.bootFld Fd.BOOT_STATUS_RECOVERY = 0) ∧ (s.bootFld Fd.BOOT_STATUS_STAGE = 8)) := by
  refine ⟨?_, ?_, ?_, ?_, ?_, ?_, ?_, ?_, ?_, ?_, ?_, ?_, ?_, ?_, ?_, ?_, ?_⟩
  · exact ⟨S0, by decide +kernel⟩
  · exact ⟨stg 6 (okSec 2), imgBase 0 + 1064, by decide +kernel⟩
  · exact ⟨stg 6, by decide +kernel⟩
  · exact ⟨{ stg 6 with boot := { shoreTries := 1 } }, by decide +kernel⟩
  · exact ⟨S0, by decide +kernel⟩
  · exact ⟨w (stg 7) [(Reg.BOOT_STATUS, Fd.BOOT_STATUS_ID_FAIL,1)], by decide +kernel⟩
  · exact ⟨stg 7, by decide +kernel⟩
  · exact ⟨w (stg 7) [(Reg.BOOT_STATUS, Fd.BOOT_STATUS_ID_FAIL,1)], by decide +kernel⟩
  · exact ⟨stg 7, by decide +kernel⟩
  · exact ⟨stg 1, by decide +kernel⟩
  · exact ⟨stg 2, by decide +kernel⟩
  · exact ⟨stg 3, by decide +kernel⟩
  · exact ⟨stg 4, by decide +kernel⟩
  · exact ⟨stg 5, by decide +kernel⟩
  · exact ⟨{ stg 6 with boot := { shoreTries := 2 } }, by decide +kernel⟩
  · exact ⟨stg 7, by decide +kernel⟩
  · exact ⟨stg 8, by decide +kernel⟩

/-- BlocksAndFlash, part FlashController: each clause has its hypotheses together. -/
theorem test_hyps_FlashController :
    (∃ s : State, ∃ r : Requester, ∃ v : BitVec 32, ∃ i : Instr, ∃ op : Nat, (let a := Reg.BOOT_FL_CTL; ((i, op) ∈ [(Instr.flashProgram r v, 1), (Instr.flashErase r v, 2)]) ∧ (s.up = true) ∧ (s.mayWrite r a = true) ∧ (s.bit a Fd.BOOT_FL_CTL_BUSY = false)))
    ∧ (∃ s : State, ∃ r : Requester, ∃ v : BitVec 32, ∃ i : Instr, ∃ op : Nat, (let a := Reg.BOOT_FL_CTL; ((i, op) ∈ [(Instr.flashProgram r v, 1), (Instr.flashErase r v, 2)]) ∧ (s.up = true) ∧ (s.mayWrite r a = true) ∧ (s.bit a Fd.BOOT_FL_CTL_BUSY = true)))
    ∧ (∃ s : State, (s.boot.flashOp = none))
    ∧ (∃ s : State, ∃ x : FlashOp, (s.boot.flashOp = some x) ∧ (x.op = 1) ∧ (flashParams 1 x.off x.len = true))
    ∧ (∃ s : State, ∃ x : FlashOp, (s.boot.flashOp = some x) ∧ (x.op = 2) ∧ (x.off % 65536 = 0) ∧ (x.dev ≤ 1) ∧ (x.off + 0x10000 ≤ 0x8000000))
    ∧ (∃ s : State, ∃ x : FlashOp, (s.boot.flashOp = some x) ∧ (flashParams x.op x.off x.len = false))
    ∧ (∃ s : State, ∃ x : FlashOp, (s.boot.flashOp = some x) ∧ (flashParams x.op x.off x.len = true)) := by
  refine ⟨?_, ?_, ?_, ?_, ?_, ?_, ?_⟩
  · exact ⟨S0, .debug, 4, .flashProgram Requester.debug 4, 1, by decide +kernel⟩
  · exact ⟨flS 1 0 0 256, .debug, 4, .flashProgram Requester.debug 4, 1, by decide +kernel⟩
  · exact ⟨S0, by decide +kernel⟩
  · exact ⟨flS 1 0 0 256, ⟨1,0,0,0x400000,256⟩, by decide +kernel⟩
  · exact ⟨flS 2 0 0 256, ⟨2,0,0,0x400000,256⟩, by decide +kernel⟩
  · exact ⟨flS 1 0 0 255, ⟨1,0,0,0x400000,255⟩, by decide +kernel⟩
  · exact ⟨flS 1 0 0 256, ⟨1,0,0,0x400000,256⟩, by decide +kernel⟩

/-- PowerAndClocks, part PowerSequence: each clause has its hypotheses together. -/
theorem test_hyps_PowerSequence :
    (∃ s : State, (s.power.pwrEn = false))
    ∧ (∃ s : State, (s.power.pwrEn = true))
    ∧ (∃ s : State, (s.power.phase = 1))
    ∧ (∃ s : State, (s.power.phase ≠ 1))
    ∧ (∃ s : State, (s.power.phase = 2))
    ∧ (∃ s : State, (s.power.phase ≠ 2))
    ∧ (∃ s : State, (let free := s.power.phase = 3 ∧ Clock.sys ∉ s.power.lost ∧ Clock.str ∉ s.power.lost; (free) ∧ (s.power.rstN = true)))
    ∧ (∃ s : State, (let free := s.power.phase = 3 ∧ Clock.sys ∉ s.power.lost ∧ Clock.str ∉ s.power.lost; (¬free ∨ s.power.rstN = false)))
    ∧ (∃ s : State, (let free := s.power.phase = 3 ∧ Clock.sys ∉ s.power.lost ∧ Clock.str ∉ s.power.lost; (free) ∧ (s.power.rstN = false)))
    ∧ (∃ s : State, (s.power.rstN = true))
    ∧ (∃ s : State, (let free := s.power.phase = 3 ∧ Clock.sys ∉ s.power.lost ∧ Clock.str ∉ s.power.lost; (¬free)))
    ∧ (∃ s : State, (s.power.phase = 4))
    ∧ (∃ s : State, (s.power.phase ≠ 4)) := by
  refine ⟨?_, ?_, ?_, ?_, ?_, ?_, ?_, ?_, ?_, ?_, ?_, ?_, ?_⟩
  · exact ⟨{ S0 with power := { S0.power with pwrEn := false, phase := 0, latch := true } }, by decide +kernel⟩
  · exact ⟨S0, by decide +kernel⟩
  · exact ⟨ph 1, by decide +kernel⟩
  · exact ⟨ph 2, by decide +kernel⟩
  · exact ⟨ph 2 [] true dirty, by decide +kernel⟩
  · exact ⟨ph 3, by decide +kernel⟩
  · exact ⟨ph 3, by decide +kernel⟩
  · exact ⟨ph 3 [.str], by decide +kernel⟩
  · exact ⟨ph 3 [.pe] false, by decide +kernel⟩
  · exact ⟨ph 2, by decide +kernel⟩
  · exact ⟨ph 3 [.str] false, by decide +kernel⟩
  · exact ⟨ph 4 [.pe] true dirty, by decide +kernel⟩
  · exact ⟨ph 3, by decide +kernel⟩

/-- PowerAndClocks, part Clocks: each clause has its hypotheses together. -/
theorem test_hyps_Clocks :
    (∃ s : State, ∃ k, (k ∈ s.power.lost))
    ∧ (∃ s : State, (Clock.sys ∉ s.power.lost) ∧ (2 ≤ s.power.phase))
    ∧ (∃ s : State, ∃ k, (k ∉ s.power.lost) ∧ (s.power.phase < 2 ∨ (k ≠ .sys ∧ s.power.phase < 4)))
    ∧ (∃ s : State, (Clock.str ∉ s.power.lost) ∧ (s.power.phase = 4))
    ∧ (∃ s : State, (Clock.pe ∉ s.power.lost) ∧ (s.power.phase = 4))
    ∧ (∃ s : State, (Clock.mgt ∉ s.power.lost) ∧ (s.power.phase = 4)) := by
  refine ⟨?_, ?_, ?_, ?_, ?_, ?_⟩
  · exact ⟨ph 4 [.pe], .pe, by decide +kernel⟩
  · exact ⟨dirty, by decide +kernel⟩
  · exact ⟨ph 3, .pe, by decide +kernel⟩
  · exact ⟨pst 3 4 {} (pst 5 6), by decide +kernel⟩
  · exact ⟨lnk, by decide +kernel⟩
  · exact ⟨lnk, by decide +kernel⟩

/-- PortLinksAndPowerControl, part PortLinks: each clause has its hypotheses together. -/
theorem test_hyps_PortLinks :
    (∃ s : State, ∃ fec, (let lb := Reg.MGT_LB; (let looping := s.bit lb Fd.MGT_LB_GO = true ∧ s.fld lb Fd.MGT_LB_PORT = 0; (let canUp (fec : BitVec 2) := s.power.phase = 4 ∧ Clock.mgt ∉ s.power.lost ∧ ¬looping ∧ fec ≠ 3; (canUp fec)))))
    ∧ (∃ s : State, ∃ fec, (let lb := Reg.MGT_LB; (let looping := s.bit lb Fd.MGT_LB_GO = true ∧ s.fld lb Fd.MGT_LB_PORT = 0; (let canUp (fec : BitVec 2) := s.power.phase = 4 ∧ Clock.mgt ∉ s.power.lost ∧ ¬looping ∧ fec ≠ 3; (¬canUp fec)))))
    ∧ (∃ s : State, (let st := Reg.MGT_STATUS; (let mup := s.bit st Fd.MGT_STATUS_MLINK; (mup = true))))
    ∧ (∃ s : State, (let st := Reg.MGT_STATUS; (let mup := s.bit st Fd.MGT_STATUS_MLINK; (mup = false))))
    ∧ (∃ s : State, (let st := Reg.MGT_STATUS; (s.bit st Fd.MGT_STATUS_PLINK = true)))
    ∧ (∃ s : State, (let st := Reg.MGT_STATUS; (s.bit st Fd.MGT_STATUS_PLINK = false)))
    ∧ (∃ s : State, (let may := s.power.phase = 4 ∧ s.power.shoreBegun = true ∧ s.power.perst = true ∧ Clock.pe ∉ s.power.lost; (may)))
    ∧ (∃ s : State, (let may := s.power.phase = 4 ∧ s.power.shoreBegun = true ∧ s.power.perst = true ∧ Clock.pe ∉ s.power.lost; (¬may)))
    ∧ (∃ s : State, ∃ r : Requester, ∃ v : BitVec 32, (let lb := Reg.MGT_LB; (s.up = true) ∧ (s.mayWrite r lb = true) ∧ (s.bit lb Fd.MGT_LB_GO = false) ∧ (bitsOf v.toNat 2 1 ≤ 1)))
    ∧ (∃ s : State, ∃ r : Requester, ∃ v : BitVec 32, (let lb := Reg.MGT_LB; (s.up = true) ∧ (s.mayWrite r lb = true) ∧ (s.bit lb Fd.MGT_LB_GO = true ∨ 2 ≤ bitsOf v.toNat 2 1)))
    ∧ (∃ s : State, (let lb := Reg.MGT_LB; (s.bit lb Fd.MGT_LB_GO = true)))
    ∧ (∃ s : State, (let lb := Reg.MGT_LB; (s.bit lb Fd.MGT_LB_GO = false))) := by
  refine ⟨?_, ?_, ?_, ?_, ?_, ?_, ?_, ?_, ?_, ?_, ?_, ?_⟩
  · exact ⟨S0, 2, by decide +kernel⟩
  · exact ⟨ph 4 [.mgt], 2, by decide +kernel⟩
  · exact ⟨lnk, by decide +kernel⟩
  · exact ⟨S0, by decide +kernel⟩
  · exact ⟨lnk, by decide +kernel⟩
  · exact ⟨S0, by decide +kernel⟩
  · exact ⟨{ S0 with power := { S0.power with shoreBegun := true, perst := true } }, by decide +kernel⟩
  · exact ⟨S0, by decide +kernel⟩
  · exact ⟨lnk, .pilot 1, 2, by decide +kernel⟩
  · exact ⟨lnk, .debug, 4, by decide +kernel⟩
  · exact ⟨w S0 [(Reg.MGT_LB, Fd.MGT_LB_GO,1)], by decide +kernel⟩
  · exact ⟨S0, by decide +kernel⟩

/-- PortLinksAndPowerControl, part PowerControl: each clause has its hypotheses together. -/
theorem test_hyps_PowerControl :
    (∃ s : State, (s.power.phase = 4))
    ∧ (∃ s : State, (s.power.phase ≠ 4))
    ∧ (∃ s : State, (s.power.thermTrip = true))
    ∧ (∃ s : State, (s.power.thermTrip = false))
    ∧ (∃ s : State, (s.power.phase = 4))
    ∧ (∃ s : State, (s.power.phase = 4)) := by
  refine ⟨?_, ?_, ?_, ?_, ?_, ?_⟩
  · exact ⟨{ S0 with power := { S0.power with hot := [1] } }, by decide +kernel⟩
  · exact ⟨ph 3, by decide +kernel⟩
  · exact ⟨{ S0 with power := { S0.power with thermTrip := true } }, by decide +kernel⟩
  · exact ⟨S0, by decide +kernel⟩
  · exact ⟨S0, by decide +kernel⟩
  · exact ⟨w S0 [(Reg.MGT_GATE, Fd.MGT_GATE_W, 255),(Reg.MGT_GATE, Fd.MGT_GATE_LEFF, 2400)], by decide +kernel⟩

/-- RequestsFromOutside, part MgmtService: each clause has its hypotheses together. -/
theorem test_hyps_MgmtService :
    (∃ s : State, (let serves := s.up = true ∧ s.bit Reg.MGT_STATUS Fd.MGT_STATUS_MLINK = true; (¬serves)))
    ∧ (∃ f : MgmtFrame, ∃ s : State, ∃ i : Instr, ∃ op : Nat, ∃ wr : Bool, (let n := f.len.toNat; (let a := f.addr.toNat; (let sized (wr : Bool) := n % 4 = 0 ∧ 4 ≤ n ∧ n ≤ 1024 ∧ (wr = true → f.data.length = n); (let allowed (wr : Bool) := s.macAllowed f.src.toNat = true ∧ a < 2 ^ 48 ∧ s.mgmtArea a n wr = true; (let serves := s.up = true ∧ s.bit Reg.MGT_STATUS Fd.MGT_STATUS_MLINK = true; (serves) ∧ ((i, op, wr) ∈ [(Instr.read f, 3, false), (Instr.write f, 4, true)]) ∧ (¬(sized wr ∧ a % 4 = 0 ∧ allowed wr))))))))
    ∧ (∃ f : MgmtFrame, ∃ s : State, (let n := f.len.toNat; (let a := f.addr.toNat; (let sized (wr : Bool) := n % 4 = 0 ∧ 4 ≤ n ∧ n ≤ 1024 ∧ (wr = true → f.data.length = n); (let allowed (wr : Bool) := s.macAllowed f.src.toNat = true ∧ a < 2 ^ 48 ∧ s.mgmtArea a n wr = true; (let mem (wr : Bool) := ∀ x, a ≤ x → x < a + n → region x ≠ .regs ∧ (∀ p, region x ≠ .acc p) ∧ region x ≠ .pcie ∧ s.accessKind x wr = 0; (let serves := s.up = true ∧ s.bit Reg.MGT_STATUS Fd.MGT_STATUS_MLINK = true; (serves) ∧ (sized false) ∧ (a % 4 = 0) ∧ (allowed false) ∧ (mem false) ∧ (∀ x, a ≤ x → x < a + n → s.cwAt x = .ok))))))))
    ∧ (∃ f : MgmtFrame, ∃ s : State, (let n := f.len.toNat; (let a := f.addr.toNat; (let sized (wr : Bool) := n % 4 = 0 ∧ 4 ≤ n ∧ n ≤ 1024 ∧ (wr = true → f.data.length = n); (let allowed (wr : Bool) := s.macAllowed f.src.toNat = true ∧ a < 2 ^ 48 ∧ s.mgmtArea a n wr = true; (let mem (wr : Bool) := ∀ x, a ≤ x → x < a + n → region x ≠ .regs ∧ (∀ p, region x ≠ .acc p) ∧ region x ≠ .pcie ∧ s.accessKind x wr = 0; (let serves := s.up = true ∧ s.bit Reg.MGT_STATUS Fd.MGT_STATUS_MLINK = true; (serves) ∧ (sized false) ∧ (a % 4 = 0) ∧ (allowed false) ∧ (mem false) ∧ (∃ x u, a ≤ x ∧ x < a + n ∧ memUnitOf x = some u ∧ (s.cwAt x = .ue ∨ s.cwAt x = .poison)))))))))
    ∧ (∃ f : MgmtFrame, ∃ s : State, (let n := f.len.toNat; (let a := f.addr.toNat; (let sized (wr : Bool) := n % 4 = 0 ∧ 4 ≤ n ∧ n ≤ 1024 ∧ (wr = true → f.data.length = n); (let allowed (wr : Bool) := s.macAllowed f.src.toNat = true ∧ a < 2 ^ 48 ∧ s.mgmtArea a n wr = true; (let serves := s.up = true ∧ s.bit Reg.MGT_STATUS Fd.MGT_STATUS_MLINK = true; (serves) ∧ (sized false) ∧ (allowed false) ∧ ((a, n) ∈ [(Reg.MGT_STATUS, 4), (Reg.MGT_PWR, 4), (Reg.MGT_TEMP, 4)])))))))
    ∧ (∃ f : MgmtFrame, ∃ s : State, (let n := f.len.toNat; (let a := f.addr.toNat; (let sized (wr : Bool) := n % 4 = 0 ∧ 4 ≤ n ∧ n ≤ 1024 ∧ (wr = true → f.data.length = n); (let allowed (wr : Bool) := s.macAllowed f.src.toNat = true ∧ a < 2 ^ 48 ∧ s.mgmtArea a n wr = true; (let mem (wr : Bool) := ∀ x, a ≤ x → x < a + n → region x ≠ .regs ∧ (∀ p, region x ≠ .acc p) ∧ region x ≠ .pcie ∧ s.accessKind x wr = 0; (let serves := s.up = true ∧ s.bit Reg.MGT_STATUS Fd.MGT_STATUS_MLINK = true; (serves) ∧ (sized true) ∧ (a % 4 = 0) ∧ (allowed true) ∧ (mem true) ∧ (∀ x, a ≤ x → x < a + n → s.cwAt x = .ok) ∧ (s.bit Reg.ISL_SWAP_CTL Fd.ISL_SWAP_CTL_GO = false))))))))
    ∧ (∃ f : MgmtFrame, ∃ s : State, (let n := f.len.toNat; (let a := f.addr.toNat; (let sized (wr : Bool) := n % 4 = 0 ∧ 4 ≤ n ∧ n ≤ 1024 ∧ (wr = true → f.data.length = n); (let allowed (wr : Bool) := s.macAllowed f.src.toNat = true ∧ a < 2 ^ 48 ∧ s.mgmtArea a n wr = true; (let serves := s.up = true ∧ s.bit Reg.MGT_STATUS Fd.MGT_STATUS_MLINK = true; (serves) ∧ (sized true) ∧ (allowed true) ∧ (a = Reg.MGT_PCAP) ∧ (n = 4) ∧ (f.pilotSameCycle = true)))))))
    ∧ (∃ f : MgmtFrame, ∃ s : State, (let n := f.len.toNat; (let a := f.addr.toNat; (let sized (wr : Bool) := n % 4 = 0 ∧ 4 ≤ n ∧ n ≤ 1024 ∧ (wr = true → f.data.length = n); (let allowed (wr : Bool) := s.macAllowed f.src.toNat = true ∧ a < 2 ^ 48 ∧ s.mgmtArea a n wr = true; (let serves := s.up = true ∧ s.bit Reg.MGT_STATUS Fd.MGT_STATUS_MLINK = true; (serves) ∧ (sized true) ∧ (allowed true) ∧ (a = Reg.MGT_PCAP) ∧ (n = 4) ∧ (f.pilotSameCycle = false))))))) := by
  refine ⟨?_, ?_, ?_, ?_, ?_, ?_, ?_, ?_⟩
  · exact ⟨S0, by decide +kernel⟩
  · exact ⟨mf 5 0x20000400000 [], dirty, .read (mf 5 0x20000400000 []), 3, false, by decide +kernel⟩
  · exact ⟨mf 16 0x20000400000 [], dirty, by exact ⟨by decide +kernel, by decide +kernel, by decide +kernel, by decide +kernel, mgmt_mem (by decide +kernel), fun _ _ _ => rfl⟩⟩
  · exact ⟨mf 16 0x20000400000 [], { dirty with cw := [(0x20000400000, .ue)] }, by exact ⟨by decide +kernel, by decide +kernel, by decide +kernel, by decide +kernel, mgmt_mem (by decide +kernel), 0x20000400000, .lpx 0, by decide, by decide +kernel, by decide +kernel, by decide +kernel⟩⟩
  · exact ⟨mf 4 Reg.MGT_TEMP [], dirty, by decide +kernel⟩
  · exact ⟨mf 16 0x20000400000 (List.replicate 16 7), dirty, by exact ⟨by decide +kernel, by decide +kernel, by decide +kernel, by decide +kernel, mgmt_mem (by decide +kernel), fun _ _ _ => rfl, by decide +kernel⟩⟩
  · exact ⟨mf 4 Reg.MGT_PCAP [0x40,6,0,8] true, dirty, by decide +kernel⟩
  · exact ⟨mf 4 Reg.MGT_PCAP [0x40,6,0,8] false, dirty, by decide +kernel⟩

/-- RequestsFromOutside, part PcieInbound: each clause has its hypotheses together. -/
theorem test_hyps_PcieInbound :
    (∃ n : Nat, ∃ d : List (BitVec 8), ∃ s : State, (1 ≤ n) ∧ (1 ≤ d.length) ∧ (let takes := s.up = true ∧ s.bit Reg.MGT_STATUS Fd.MGT_STATUS_PLINK = true; (¬takes)))
    ∧ (∃ a : BitVec 64, ∃ n : Nat, ∃ d : List (BitVec 8), ∃ s : State, (1 ≤ n) ∧ (1 ≤ d.length) ∧ (let takes := s.up = true ∧ s.bit Reg.MGT_STATUS Fd.MGT_STATUS_PLINK = true; (let spill (k : Nat) := 0x20C00000000 ≤ a.toNat ∧ a.toNat + k ≤ 0x2B400000000; (let clean (k : Nat) := ∀ x, a.toNat ≤ x → x < a.toNat + k → s.cwAt x = .ok ∧ s.accessKind x false = 0; (takes) ∧ (spill n) ∧ (clean n)))))
    ∧ (∃ a : BitVec 64, ∃ n : Nat, ∃ d : List (BitVec 8), ∃ s : State, (1 ≤ n) ∧ (1 ≤ d.length) ∧ (let takes := s.up = true ∧ s.bit Reg.MGT_STATUS Fd.MGT_STATUS_PLINK = true; (let spill (k : Nat) := 0x20C00000000 ≤ a.toNat ∧ a.toNat + k ≤ 0x2B400000000; (let clean (k : Nat) := ∀ x, a.toNat ≤ x → x < a.toNat + k → s.cwAt x = .ok ∧ s.accessKind x false = 0; (takes) ∧ (spill d.length) ∧ (clean d.length)))))
    ∧ (∃ a : BitVec 64, ∃ n : Nat, ∃ d : List (BitVec 8), ∃ s : State, (1 ≤ n) ∧ (1 ≤ d.length) ∧ (let takes := s.up = true ∧ s.bit Reg.MGT_STATUS Fd.MGT_STATUS_PLINK = true; (let spill (k : Nat) := 0x20C00000000 ≤ a.toNat ∧ a.toNat + k ≤ 0x2B400000000; (takes) ∧ (¬spill n))))
    ∧ (∃ a : BitVec 64, ∃ n : Nat, ∃ d : List (BitVec 8), ∃ s : State, (1 ≤ n) ∧ (1 ≤ d.length) ∧ (let takes := s.up = true ∧ s.bit Reg.MGT_STATUS Fd.MGT_STATUS_PLINK = true; (let spill (k : Nat) := 0x20C00000000 ≤ a.toNat ∧ a.toNat + k ≤ 0x2B400000000; (takes) ∧ (¬spill d.length)))) := by
  refine ⟨?_, ?_, ?_, ?_, ?_⟩
  · exact ⟨4, [1], S0, by decide +kernel⟩
  · exact ⟨0x20C00000000, 4, [1], dirty, by decide +kernel⟩
  · exact ⟨0x20C00000000, 4, [1,2], dirty, by decide +kernel⟩
  · exact ⟨0x20BFFFFFFFF, 4, [1,2], dirty, by decide +kernel⟩
  · exact ⟨0x2B3FFFFFFFF, 4, [1,2], dirty, by decide +kernel⟩

/-- RegisterFieldTypes: each clause has its hypotheses together. -/
theorem test_hyps_RegisterFieldTypes :
    (∃ a : Nat, ∃ r : RegRow, (regRow? a = some r))
    ∧ (∃ a : Nat, ∃ r : RegRow, ∃ b, (regRow? a = some r) ∧ (b < 32) ∧ (∀ f ∈ r.fields, ¬(f.lo ≤ b ∧ b < f.lo + f.w))) := by
  refine ⟨?_, ?_⟩
  · exact ⟨Reg.MGT_STATUS, (regRow? Reg.MGT_STATUS).getD ⟨0, [], false, []⟩, by decide +kernel⟩
  · exact ⟨Reg.MGT_STATUS, (regRow? Reg.MGT_STATUS).getD ⟨0, [], false, []⟩, 31, by decide +kernel⟩

/-- RegisterAccess: each clause has its hypotheses together. -/
theorem test_hyps_RegisterAccess :
    (∃ r : Requester, ∃ s : State, ∃ a : BitVec 48, ∃ row, (s.up = true) ∧ (s.mayRead r a.toNat = true) ∧ (let w := a.toNat / 4 * 4; (regRow? w = some row)))
    ∧ (∃ r : Requester, ∃ s : State, ∃ a : BitVec 48, (s.up = true) ∧ (s.mayRead r a.toNat = true) ∧ (let w := a.toNat / 4 * 4; (∀ p : Fin 144, w ≠ Reg.ISL_SEQ_STATUS p)))
    ∧ (∃ r : Requester, ∃ s : State, ∃ a : BitVec 48, ∃ p : Fin 144, (s.up = true) ∧ (s.mayRead r a.toNat = true) ∧ (let w := a.toNat / 4 * 4; (w = Reg.ISL_SEQ_STATUS p)))
    ∧ (∃ r : Requester, ∃ s : State, ∃ a : BitVec 48, (s.up = true) ∧ (s.mayRead r a.toNat = true) ∧ (let w := a.toNat / 4 * 4; (regRow? w = none)))
    ∧ (∃ r : Requester, ∃ s : State, ∃ a : BitVec 48, (s.up = true) ∧ (s.mayRead r a.toNat = false))
    ∧ (∃ r : Requester, ∃ s : State, ∃ a : BitVec 48, (s.up = true) ∧ (s.mayWrite r a.toNat = false))
    ∧ (∃ r : Requester, ∃ s : State, ∃ a : BitVec 48, (s.up = true) ∧ (s.mayWrite r a.toNat = true) ∧ (regRow? a.toNat = none))
    ∧ (∃ r : Requester, ∃ s : State, ∃ a : BitVec 48, ∃ p : Fin 144, ∃ q : Fin 4, ∃ k : Fin 4, ∃ row, (s.up = true) ∧ (s.mayWrite r a.toNat = true) ∧ (a.toNat ∈ [Reg.ISL_SEQ_WTO p, Reg.ISL_SEQ_EVT p, Reg.ACC_ERR p, Reg.SHL_ERR p, Reg.EBB_CNT_ROWS p, Reg.ISL_SENT_FIRST_TILE p, Reg.FRY_ERR q k, Reg.FRY_SUBMIT_LO q k, Reg.STR_EXPECT q k, Reg.STR_ERR q k, Reg.STR_TRK_TO q, Reg.TIDE_ERR, Reg.CHT_ERR q, Reg.FUU_CLIP q 1, Reg.BUOY_ERR q, Reg.BUOY_DUMP_ADDR_LO q, Reg.HBM_SCRUB q 0, Reg.PLT_CTXF, Reg.PLT_SHRWR, Reg.MGT_ALERT, Reg.MGT_ALERT_EN, Reg.MGT_STATUS, Reg.BOOT_ERR, Reg.BOOT_FL_ADDR, Reg.ISL_PSTATE p]) ∧ (regRow? a.toNat = some row)) := by
  refine ⟨?_, ?_, ?_, ?_, ?_, ?_, ?_, ?_⟩
  · exact ⟨.debug, S0, BitVec.ofNat 48 (Reg.MGT_CNT_REQ), (regRow? (Reg.MGT_CNT_REQ)).getD ⟨0, [], false, []⟩, by decide +kernel⟩
  · exact ⟨.debug, S0, BitVec.ofNat 48 (Reg.MGT_CNT_REQ+0x800), by decide +kernel⟩
  · exact ⟨.debug, S0, BitVec.ofNat 48 (Reg.ISL_SEQ_STATUS 5), 5, by decide +kernel⟩
  · exact ⟨.debug, S0, BitVec.ofNat 48 (Reg.MGT_CNT_REQ+0x800), by decide +kernel⟩
  · exact ⟨.mgmt, S0, BitVec.ofNat 48 Reg.PLT_CTXF, by decide +kernel⟩
  · exact ⟨.mgmt, S0, BitVec.ofNat 48 Reg.PLT_CTXF, by decide +kernel⟩
  · exact ⟨.debug, S0, BitVec.ofNat 48 (Reg.MGT_CNT_REQ+0x800), by decide +kernel⟩
  · exact ⟨.debug, S0.setReg (Reg.ISL_SEQ_WTO 5) 0xDEADBEEF, BitVec.ofNat 48 (Reg.ISL_SEQ_WTO 5), 5, 2, 3, (regRow? (Reg.ISL_SEQ_WTO 5)).getD ⟨0, [], false, []⟩, by decide +kernel⟩

/-- RegisterAccess, part GuardedRegisters: each clause has its hypotheses together. -/
theorem test_hyps_GuardedRegisters :
    (∃ r : Requester, ∃ p : Fin 144, ∃ c : Fin 2, ∃ s : State, ∃ a : Nat, ∃ k : Fin 62, (s.up = true) ∧ (a ∈ [Reg.ISL_SEQ_PC p c, Reg.ISL_SEQ_CTXID p c, Reg.ISL_SEQ_SREG p c (k + 2), Reg.ISL_SEQ_PRED p c]) ∧ (s.mayWrite r a = true) ∧ (s.ctxStopped p c = true))
    ∧ (∃ r : Requester, ∃ p : Fin 144, ∃ c : Fin 2, ∃ s : State, ∃ a : Nat, ∃ k : Fin 62, (s.up = true) ∧ (a ∈ [Reg.ISL_SEQ_PC p c, Reg.ISL_SEQ_CTXID p c, Reg.ISL_SEQ_SREG p c (k + 2), Reg.ISL_SEQ_PRED p c]) ∧ (s.mayWrite r a = true) ∧ (s.ctxStopped p c = false))
    ∧ (∃ r : Requester, ∃ p : Fin 144, ∃ c : Fin 2, ∃ s : State, ∃ k : Fin 2, (s.up = true) ∧ (s.mayWrite r (Reg.ISL_SEQ_SREG p c k) = true))
    ∧ (∃ r : Requester, ∃ p : Fin 144, ∃ s : State, ∃ a : Nat, ∃ i : Fin 16, ∃ j : Fin 16, (s.up = true) ∧ (a ∈ [Reg.EBB_DESC p i j, Reg.SHL_CFG p, Reg.ISL_SENT_CFG p, Reg.ISL_SENT_KEY_LO p, Reg.ISL_SENT_KEY_HI p]) ∧ (s.mayWrite r a = true) ∧ (s.islStopped p = true))
    ∧ (∃ r : Requester, ∃ p : Fin 144, ∃ s : State, ∃ a : Nat, ∃ i : Fin 16, ∃ j : Fin 16, (s.up = true) ∧ (a ∈ [Reg.EBB_DESC p i j, Reg.SHL_CFG p, Reg.ISL_SENT_CFG p, Reg.ISL_SENT_KEY_LO p, Reg.ISL_SENT_KEY_HI p]) ∧ (s.mayWrite r a = true) ∧ (s.islStopped p = false))
    ∧ (∃ r : Requester, ∃ q : Fin 4, ∃ s : State, ∃ a : Nat, ∃ k : Fin 16, ∃ u : Fin 2, (s.up = true) ∧ (a ∈ [Reg.TIDE_SEED_LO, Reg.TIDE_SEED_HI, Reg.TIDE_FIRST, Reg.TIDE_CHILD, Reg.TIDE_TYPE k, Reg.FUU_TBL_LO q u, Reg.FUU_TBL_HI q u, Reg.FUU_TBL_N q u, Reg.FUU_T q u, Reg.FUU_BOFF_LO q u]) ∧ (s.mayWrite r a = true) ∧ (s.loaded = false))
    ∧ (∃ r : Requester, ∃ q : Fin 4, ∃ s : State, ∃ a : Nat, ∃ k : Fin 16, ∃ u : Fin 2, (s.up = true) ∧ (a ∈ [Reg.TIDE_SEED_LO, Reg.TIDE_SEED_HI, Reg.TIDE_FIRST, Reg.TIDE_CHILD, Reg.TIDE_TYPE k, Reg.FUU_TBL_LO q u, Reg.FUU_TBL_HI q u, Reg.FUU_TBL_N q u, Reg.FUU_T q u, Reg.FUU_BOFF_LO q u]) ∧ (s.mayWrite r a = true) ∧ (s.loaded = true)) := by
  refine ⟨?_, ?_, ?_, ?_, ?_, ?_, ?_⟩
  · exact ⟨.debug, 5, 1, w S0 [(Reg.ISL_SEQ_STATUS 5,stFld 1,5)], Reg.ISL_SEQ_PC 5 1, 3, by decide +kernel⟩
  · exact ⟨.debug, 5, 1, S0.setFld (Reg.ISL_SEQ_STATUS 5) (stFld 1) 1, Reg.ISL_SEQ_PC 5 1, 3, by decide +kernel⟩
  · exact ⟨.debug, 5, 1, S0, 1, by decide +kernel⟩
  · exact ⟨.debug, 5, w S0 [(Reg.ISL_SEQ_STATUS 5,stFld 1,5),(Reg.ISL_SEQ_STATUS 5,stFld 0,5)], Reg.EBB_DESC 5 3 4, 3, 4, by decide +kernel⟩
  · exact ⟨.debug, 5, S0.setFld (Reg.ISL_SEQ_STATUS 5) (stFld 1) 1, Reg.EBB_DESC 5 3 4, 3, 4, by decide +kernel⟩
  · exact ⟨.debug, 2, S0, Reg.TIDE_SEED_LO, 3, 1, by decide +kernel⟩
  · exact ⟨.debug, 2, w S0 [(Reg.ISL_POLICY, Fd.ISL_POLICY_LOADED,1)], Reg.TIDE_SEED_LO, 3, 1, by decide +kernel⟩

/-- StepFront: each clause has its hypotheses together. -/
theorem test_hyps_StepFront : ∃ c : Instr, ∃ r : List Instr, ∃ s : State, (s.pending = c :: r) :=
  ⟨.pwrGood, [], { S0 with pending := [.pwrGood] }, by decide +kernel⟩

/-- IdleCycle: each clause has its hypotheses together. -/
theorem test_hyps_IdleCycle :
    (∃ s : State, (s.pending = []) ∧ (s.up = false))
    ∧ (∃ s : State, (s.pending = []) ∧ (s.up = true) ∧ (s.fw.trace = []) ∧ (s.fw.logBase = 0) ∧ (s.fw.logLog2 = 14) ∧ (s.fw.expBase = 0) ∧ (s.tideSt = 0)) := by
  refine ⟨?_, ?_⟩
  · exact ⟨ph 3, by decide +kernel⟩
  · exact ⟨w (S0.setFld (Reg.ISL_SEQ_STATUS 5) (stFld 1) 2) [], by decide +kernel⟩

/-- EveryCommandCompletes: each clause has its hypotheses together. -/
theorem test_hyps_EveryCommandCompletes :
    (∃ i : Instr, (wellFormed i = true))
    ∧ (∃ i : Instr, (wellFormed i = false)) := by
  refine ⟨?_, ?_⟩
  · exact ⟨.pwrGood, by decide +kernel⟩
  · exact ⟨.dataFlit 0 [] [], by decide +kernel⟩

/-- ResetIsCanonicalAndAsTabled, part ResetState: each clause has its hypotheses together. -/
theorem test_hyps_ResetState : ∃ a, ∃ row, (regRow? a = some row) :=
  ⟨Reg.MGT_THERM, (regRow? Reg.MGT_THERM).getD ⟨0, [], false, []⟩, by decide +kernel⟩

/-- StepKeepsCanonical: each clause has its hypotheses together. -/
theorem test_hyps_StepKeepsCanonical : ∃ s t : State, s.Canonical ∧ step s = .next t :=
  ⟨{ put S0 0x20000400000 8 77 with pending := [.pwrGood] }, _, ⟨by decide +kernel, by decide +kernel⟩, rfl⟩

/-! ### One step of a command, against the spec's text

Each expected value is computed by hand from the rule that the test names, or copied from a worked example of the spec. -/

/-- The command answers a next state of which the check holds. -/
def after (i : Instr) (s : State) (f : State → Bool) : Bool := match exec i s with | .next t => f t | _ => false

/-- Context (5, 1) runs the word `v` at PC 0 with s1 and s2 as given. -/
def alu (v a b : Nat) : State := ((run1 5 1 v).setSreg 5 1 1 a).setSreg 5 1 2 b

/-- R120: ADD wraps, and the PC goes to the next instruction. -/
theorem test_add_wraps : after (.add 5 1) (alu (0x10 + r3) (2 ^ 64 - 1) 2) (fun t => t.sreg 5 1 3 == 1 && t.pc 5 1 == 1) = true := by
  decide +kernel
/-- R108: a write of s0 is discarded. -/
theorem test_add_to_s0 : after (.add 5 1) (alu (0x10 + 1 * 2 ^ 17 + 2 * 2 ^ 22) 7 2) (fun t => t.sreg 5 1 0 == 0) = true := by
  decide +kernel
/-- R120: IMM32 is sign-extended. -/
theorem test_sub_immediate :
    after (.sub 5 1) (alu (0x11 + 3 * 2 ^ 12 + 1 * 2 ^ 17 + 2 ^ 27 + 0xFFFFFFFF * 2 ^ 32) 5 0) (fun t => t.sreg 5 1 3 == 6) = true := by
  decide +kernel
theorem test_mul_wraps : after (.mul 5 1) (alu (0x12 + r3) (2 ^ 63 + 3) 2) (fun t => t.sreg 5 1 3 == 6) = true := by decide +kernel
theorem test_and_or_xor : after (.and 5 1) (alu (0x13 + r3) 0xC 0xA) (fun t => t.sreg 5 1 3 == 8) = true
    ∧ after (.or 5 1) (alu (0x14 + r3) 0xC 0xA) (fun t => t.sreg 5 1 3 == 14) = true
    ∧ after (.xor 5 1) (alu (0x15 + r3) 0xC 0xA) (fun t => t.sreg 5 1 3 == 6) = true := by decide +kernel
/-- R120: a shift by 65 shifts by 1; SRA keeps the sign and SHR does not. -/
theorem test_shifts : after (.shl 5 1) (alu (0x16 + r3) 3 65) (fun t => t.sreg 5 1 3 == 6) = true
    ∧ after (.shr 5 1) (alu (0x17 + r3) (2 ^ 63) 63) (fun t => t.sreg 5 1 3 == 1) = true
    ∧ after (.sra 5 1) (alu (0x18 + r3) (2 ^ 63) 63) (fun t => t.sreg 5 1 3 == 2 ^ 64 - 1) = true := by decide +kernel
/-- R120: MIN and MAX are signed, MINU is not. -/
theorem test_min_max : after (.min 5 1) (alu (0x19 + r3) (2 ^ 64 - 1) 1) (fun t => t.sreg 5 1 3 == 2 ^ 64 - 1) = true
    ∧ after (.max 5 1) (alu (0x1A + r3) (2 ^ 64 - 1) 1) (fun t => t.sreg 5 1 3 == 1) = true
    ∧ after (.minu 5 1) (alu (0x1B + r3) (2 ^ 64 - 1) 1) (fun t => t.sreg 5 1 3 == 1) = true := by decide +kernel
/-- R121: COND 2 is signed less-than, COND 4 the unsigned one; PD is p1. -/
theorem test_cmp_signed :
    after (.cmp 5 1) (alu (0x08 + 1 * 2 ^ 12 + 1 * 2 ^ 15 + 2 * 2 ^ 20 + 2 * 2 ^ 26) (2 ^ 64 - 1) 0) (fun t => t.pred 5 1 1) = true
    ∧ after (.cmp 5 1) (alu (0x08 + 1 * 2 ^ 12 + 1 * 2 ^ 15 + 2 * 2 ^ 20 + 4 * 2 ^ 26) (2 ^ 64 - 1) 0) (fun t => !t.pred 5 1 1) = true := by
  decide +kernel
/-- LI s9, 0x40_0000_0000 of the GEMM program. -/
theorem test_li : after (.li 5 1) (run1 5 1 (0x1F + 9 * 2 ^ 12 + 0x4000000000 * 2 ^ 64)) (fun t => t.sreg 5 1 9 == 0x4000000000) = true := by
  decide +kernel
theorem test_br : after (.br 5 1) (run1 5 1 (0x02 + 9 * 2 ^ 12)) (fun t => t.pc 5 1 == 9) = true := by decide +kernel
/-- LOOP END = 14, IMM = 16 of the GEMM program; R123: a count of 0 goes to END + 1. -/
theorem test_loop : after (.loop 5 1) (run1 5 1 (0x03 + 14 * 2 ^ 12 + 16 * 2 ^ 32)) (fun t => t.pc 5 1 == 1 && (t.loops 5 1).length == 1) = true
    ∧ after (.loop 5 1) (run1 5 1 (0x03 + 14 * 2 ^ 12)) (fun t => t.pc 5 1 == 15 && (t.loops 5 1).isEmpty) = true := by decide +kernel
/-- R127, R143: BRK stops with code 0x10, holds its PC, and raises no plausibility flag. -/
theorem test_brk : after (.brk 5 1) (run1 5 1 0x06) (fun t => t.ctxSt 5 1 == 5 && t.pc 5 1 == 0
    && t.fld (Reg.ISL_SEQ_FAULT 5 1) Fd.ISL_SEQ_FAULT_CODE == 0x10) = true := by decide +kernel
/-- R117: a predicated-off instruction advances the PC and writes nothing: p1 is 0 at reset. -/
theorem test_predicated_off : after (.add 5 1) (alu (0x10 + 2 ^ 8 + r3) 1 2) (fun t => t.pc 5 1 == 1 && t.sreg 5 1 3 == 0) = true := by
  decide +kernel
/-- The encoded MM of the GEMM example (R132): M, N and K come from s1, s2 and s3. -/
theorem test_mm_worked_example :
    after (.mm 5 1) ((((run1 5 1 0x000000006200620A0000000184660030).setSreg 5 1 1 2048).setSreg 5 1 2 64).setSreg 5 1 3 1024)
      (fun t => ((t.isl 5).mmq.map fun o => (o.cha, o.chb, o.m, o.n, o.k, o.base, o.nstr, o.fa)) == [(2, 3, 2048, 64, 1024, 0, 2048, 3)]) = true := by
  decide +kernel

/-- The example of chapter 5: +2 on a count of 3, then −2, then −4, which underflows and leaves 3. -/
theorem test_buoy_example :
    after (.buoyApply 0) ((S0.setBuoy 0 40 3).setQtr 0 { S0.qtr 0 with arrivals :=
      [⟨40, 40, 5, 1, 2, 1, 0, 0, 0, none, none⟩, ⟨8, 40, 5, 1, -2, 0, 7, 0, 0, some (7, 0, 1), none⟩,
       ⟨21, 40, 5, 1, -4, 0, 20, 0, 0, some (20, 0, 2), none⟩] }) (fun t => t.buoy 0 40 == 3) = true := by decide +kernel
/-- R155: a Pilot core sets a Buoy; R392: a Shore core may not. -/
theorem test_buoy_by_hand : after (.buoyValWrite (.pilot 0) 1 9 77) S0 (fun t => t.buoy 1 9 == 77) = true
    ∧ after (.buoyValWrite (.shore 0) 1 9 77) S0 (fun t => t.buoy 1 9 == 0 && t.accessErrs.length == 1) = true := by decide +kernel

/-- The LPDDR5X byte of chapter 10: channel, rank, then bank, row, page offset, and the check bytes' offset. -/
theorem test_lpddr_example : lpxChannel 0x20C00001234 = 5 ∧ lpxRank 0x20C00001234 = 0 ∧ lpxPlace 0x20C00001234 = (12, 17476, 1716)
    ∧ lpxCheckAt 1716 = 2026 := by decide +kernel
/-- Island Q2.I5 of chapter 1. -/
theorem test_island_addresses : lagBase 77 = 0x66800000 ∧ progBase 77 = 0xA1340000 := by decide +kernel

/-- The distributed tensor of chapter 7: element (3000, 5000) and its block. -/
def exChart : Chart := parseChart (8192 * 2 ^ 64 + 16384 * 2 ^ 96 + 1024 * 2 ^ 256 + 262144 * 2 ^ 320
  + (1 + 2 * 2 ^ 4 + 2 ^ 7 + 2 ^ 10 + 2 ^ 31) * 2 ^ (8 * 0x50) + (1024 + 21 * 2 ^ 16) * 2 ^ (8 * 0x60) + 128 * 2 ^ (8 * 0x64))
theorem test_distributed_offset : exChart.off [3000, 5000] = 40989976 ∧ exChart.byteOff [3000, 5000] = 81979952 := by decide +kernel
theorem test_distributed_block :
    let s := (w (((S0.setReg (Reg.CHT_BOT_LO 0 1063) 0x0004D605).setReg (Reg.CHT_BOT_HI 0 1063) 0x40))
      ((List.range 4).flatMap fun q => [(Reg.STR_SELF q, Fd.STR_SELF_ID, 517), (Reg.ISL_POLICY, Fd.ISL_POLICY_POLICY, 1),
        (Reg.ISL_LMAP 77, Fd.ISL_LMAP_PHYS, 85), (Reg.ISL_LMAP 77, Fd.ISL_LMAP_VALID, 1)]))
    (match s.botLoc ⟨0, 0, 0, 0, 0, 0⟩ exChart 81979952 with | .ok (.mem pa) => pa == 0x6AC2EA30 | _ => false) = true := by decide +kernel

/-- The tile of chapter 8 with a false STRUCT: bits 0 to 9 are right, the third set bit of group 2 becomes +0, and the values
that follow are one place late. -/
def exTile : Tile := decodeTile 2 ([0xA1, 0, 0x0B, 0] ++ List.replicate 12 0) ([0xA5, 0x9B, 0, 0, 6] ++ List.replicate 123 0
  ++ [0x80, 0x3F, 0, 0x40, 0x40, 0x40, 0x80, 0x40, 0xA0, 0x40, 0xC0, 0x40, 0xE0, 0x40, 0, 0x41, 0x10, 0x41, 0x20, 0x41, 0x30, 0x41])
theorem test_tile_example : exTile.vals.take 35 = [0x3F80, 0, 0x4000, 0, 0, 0x4040, 0, 0x4080, 0x40A0, 0x40C0, 0, 0, 0x40E0, 0, 0, 0x4100,
    0, 0, 0, 0, 0, 0, 0, 0, 0, 0, 0, 0, 0, 0, 0, 0, 0, 0x4110, 0x4120] ∧ exTile.popcount = 11 := by decide +kernel

/-- The Ebb example of chapter 6: 150,000.0 is written as BF16 0x4812; −0.8180882 as 0xBF51. -/
theorem test_ebb_example_bf16 : narrow 1 false .rne (f32 0x48127C00) = 0x4812 ∧ narrow 1 false .rne (f32 0xBF516E3B) = 0xBF51 := by
  decide +kernel
/-- R46, R47 on FP32: 1 + 2^-24 rounds to even, +∞ + −∞ is the canonical NaN, and a subnormal sum is kept. -/
theorem test_fp32_add : f32Add 0x3F800000 0x33800000 = 0x3F800000 ∧ f32Add 0x7F800000 0xFF800000 = 0x7FC00000 ∧ f32Add 1 1 = 2 := by
  decide +kernel

/-- Published check values of the algorithms that the spec names: Philox4x32-10 of zeros (R66), CRC-64 of "123456789" (R292),
CRC-32 of the same (R500), SHAKE256 of no bytes (R436). -/
theorem test_philox : philox 0 0 0 0 0 0 = [0x6627E8D5, 0xE169C58D, 0xBC57AC4C, 0x9B00DBD8] := by decide +kernel
theorem test_crcs : crc64 [0x31, 0x32, 0x33, 0x34, 0x35, 0x36, 0x37, 0x38, 0x39] = 0x995DC9BBDF1939FA
    ∧ crc32 [0x31, 0x32, 0x33, 0x34, 0x35, 0x36, 0x37, 0x38, 0x39] = 0xCBF43926 := by decide +kernel
theorem test_shake256 : shake256 [] 8 = [0x46, 0xB9, 0xDD, 0x2B, 0x0B, 0xA8, 0x8D, 0x13] := by decide +kernel

/-- R16: a write of 1 clears a W1C bit and leaves the others; a read clears an RC counter after it has answered it. -/
theorem test_w1c : after (.registerWrite .debug (BitVec.ofNat 48 (Reg.ACC_ERR 5)) 1) (S0.setReg (Reg.ACC_ERR 5) 3)
    (fun t => t.reg (Reg.ACC_ERR 5) == 2) = true := by decide +kernel
theorem test_rc_read : (match execRcCounterRead .debug (BitVec.ofNat 48 Reg.MGT_CNT_REQ) (S0.setReg Reg.MGT_CNT_REQ 9) with
    | .next t => t.bus == .data [9, 0, 0, 0] && t.reg Reg.MGT_CNT_REQ == 0 | _ => false) = true := by decide +kernel
/-- R39: a store to the boot ROM is dropped and recorded; a store to LPDDR5X is read back. -/
theorem test_core_store : (match execCoreMemoryAccess (.pilot 0) (.wr 0x20000400000 [1, 2, 3, 4]) (S0.setFld (memReg (.lpx 0) 0) Fd.HBM_STATUS_STATE 1) with
      | .next t => t.bytes 0x20000400000 4 == [1, 2, 3, 4] | _ => false) = true
    ∧ (match execCoreMemoryAccess (.pilot 0) (.wr 0x100 [1, 2, 3, 4]) S0 with
      | .next t => t.mem.isEmpty && t.accessErrs.length == 1 | _ => false) = true := by decide +kernel
/-- R484: programming flash only clears bits. -/
theorem test_flash_program : ((put S0 0x20000000 1 0xF0).flashProg 0x20000000 [0x3C]).byte 0x20000000 = 0x30 := by decide +kernel
/-- R468, R474: with neither image valid the ROM goes to RECOVERY. -/
theorem test_rom_recovery : after .rom S0 (fun t => t.bit Reg.BOOT_STATUS Fd.BOOT_STATUS_RECOVERY) = true := by decide +kernel
/-- R494, R497: the power sequence up to PWR_GOOD, and PWR_EN's fall. -/
theorem test_power : after .pwrGood (ph 2) (fun t => t.pwrGood && t.power.phase == 3) = true
    ∧ after .pwrEnLow S0 (fun t => t.power.phase == 0 && !t.power.pwrEn) = true := by decide +kernel
/-- R511: 40 W above a limit of 2,400 W raise the gate count by 5. -/
theorem test_power_control : after (.powerControlUpdate 2440 48 false) (w S0 [(Reg.MGT_GATE, Fd.MGT_GATE_W, 10)])
    (fun t => t.fld Reg.MGT_GATE Fd.MGT_GATE_W == 15) = true := by decide +kernel
/-- R502: outside the permitted areas the management service answers DENIED and counts it. -/
theorem test_mgmt_denied : after (.read (mf 4 0x20000500000 [])) dirty
    (fun t => (t.mgmtOut.map (·.status)) == some 1 && t.reg Reg.MGT_CNT_DENIED == 1) = true := by decide +kernel
/-- R428, R432: a watchdog that expires resets its core. -/
theorem test_watchdog : after (.watchdogExpiry 1) (w S0 [(Reg.PLT_CORE 1, Fd.PLT_CORE_READY, 1)])
    (fun t => !t.bit (Reg.PLT_CORE 1) Fd.PLT_CORE_READY) = true := by decide +kernel
/-- R494: with the module up and no command waiting, a cycle passes. -/
theorem test_idle_cycle : (match step S0 with | .next t => t.cycle == S0.cycle + 1 | _ => false) = true := by decide +kernel
/-- A step performs the front command and removes it. -/
theorem test_step_front : (match step { S0 with pending := [.pwrEnLow, .pwrGood] } with
    | .next t => t.pending == [.pwrGood] && t.power.phase == 0 | _ => false) = true := by decide +kernel
/-- No word spells a command. -/
theorem test_no_word : decodeTableWord 64 0 = none ∧ S0.withFetchWord 64 0 = S0 := by decide +kernel

/-! ### Ill-formed operands -/

theorem test_ill_formed_flits : wellFormed (.dataFlit 0 (List.replicate 255 0) []) = false
    ∧ wellFormed (.ctrlFlit 0 (List.replicate 257 0) []) = false ∧ wellFormed (.idleFlit 0 [] []) = false := by decide +kernel
theorem test_ill_formed_window : wellFormed (.laneCeWindow 0 [1, 2, 3, 4, 5, 6, 7, 8] 100) = false := by decide
theorem test_ill_formed_accesses : accessSized (.rd 0x1000 0) = false ∧ accessSized (.rd 0x1000 65) = false
    ∧ accessSized (.wr 0x1000 []) = false ∧ accessSized (.wr 0x1000 (List.replicate 65 0)) = false
    ∧ pcieSized (.rd 0 0) = false ∧ pcieSized (.wr 0 []) = false := by decide +kernel
theorem test_ill_formed_stops : exec (.dataFlit 0 [] []) S0 = .fault .illFormed := rfl

end Sys2Proof.Tests
end

section
/-! SUPPORT. The bits of a register row's fields: no two fields of a row share a bit, the mask of a field type has exactly the
bits of that type's fields, and what a software write and a read do to each bit (R16, R17). -/

namespace Sys2Proof.Machine

/-- Bit `b` of a register word belongs to the field. -/
abbrev Fld.Covers (f : Fld) (b : Nat) : Prop := f.lo ≤ b ∧ b < f.lo + f.w

/-- Two fields have no bit in common. -/
abbrev Fld.Apart (f g : Fld) : Prop := f.lo + f.w ≤ g.lo ∨ g.lo + g.w ≤ f.lo

/-- The fields of a row do not overlap. -/
abbrev RegRow.Laid (r : RegRow) : Prop := r.fields.Pairwise Fld.Apart

/-! ### The rows of the map -/

theorem regRow?_mem {a : Nat} {r : RegRow} (h : regRow? a = some r) : r ∈ buoyRegs ++ islRegs ++ qtrRegs ++ modRegs := by
  simp only [List.mem_append]
  unfold regRow? at h
  split_ifs at h
  · exact .inl (.inl (.inl (List.mem_of_find?_eq_some h)))
  · exact .inl (.inl (.inr (List.mem_of_find?_eq_some h)))
  · exact .inl (.inr (List.mem_of_find?_eq_some (Option.filter_eq_some_iff.1 h).1))
  · exact .inr (List.mem_of_find?_eq_some h)

theorem laid_of_mem_map : ∀ r ∈ buoyRegs ++ islRegs ++ qtrRegs ++ modRegs, r.Laid := by decide +kernel

theorem regRow?_laid {a : Nat} {r : RegRow} (h : regRow? a = some r) : r.Laid := laid_of_mem_map r (regRow?_mem h)

/-- A bit belongs to at most one field of a row. -/
theorem RegRow.Laid.eq_of_covers {r : RegRow} (h : r.Laid) {f g : Fld} (hf : f ∈ r.fields) (hg : g ∈ r.fields) {b : Nat}
    (cf : f.Covers b) (cg : g.Covers b) : f = g := by
  have symm : Std.Symm Fld.Apart := ⟨fun _ _ => Or.symm⟩
  by_contra hne
  have := h.forall hf hg hne
  omega

/-! ### The mask of a field type -/

/-- The word whose ones are the bits of field `f`. -/
theorem Fld.ones_getLsbD (f : Fld) {b : Nat} (hb : b < 32) :
    (BitVec.ofNat 32 (f.place (2 ^ f.w - 1))).getLsbD b = decide (f.Covers b) := by
  have e : f.place (2 ^ f.w - 1) = (2 ^ f.w - 1) * 2 ^ f.lo := by
    rw [Fld.place, Nat.mod_eq_of_lt (Nat.sub_lt (Nat.two_pow_pos _) one_pos)]
  rw [BitVec.getLsbD_ofNat, e, Nat.testBit_mul_two_pow, Nat.testBit_two_pow_sub_one, Bool.eq_iff_iff]
  simp only [Bool.and_eq_true, decide_eq_true_eq]
  omega

/-- The sum of the ones of fields that do not overlap has exactly their bits. -/
theorem ones_sum_getLsbD {fs : List Fld} (h : fs.Pairwise Fld.Apart) {b : Nat} (hb : b < 32) :
    (BitVec.ofNat 32 ((fs.map fun f => f.place (2 ^ f.w - 1)).sum)).getLsbD b = decide (∃ f ∈ fs, f.Covers b) := by
  induction fs generalizing b with
  | nil => simp
  | cons f fs ih =>
    obtain ⟨hf, hfs⟩ := List.pairwise_cons.1 h
    have apart : BitVec.ofNat 32 (f.place (2 ^ f.w - 1))
        &&& BitVec.ofNat 32 ((fs.map fun f => f.place (2 ^ f.w - 1)).sum) = 0#32 := by
      apply BitVec.eq_of_getLsbD_eq
      intro i hi
      rw [BitVec.getLsbD_and, f.ones_getLsbD hi, ih hfs hi]
      simp only [BitVec.getLsbD_zero, Bool.and_eq_false_iff, decide_eq_false_iff_not]
      by_cases c : f.Covers i
      · right
        rintro ⟨g, hg, cg⟩
        have := hf g hg
        omega
      · exact .inl c
    rw [List.map_cons, List.sum_cons, BitVec.ofNat_add, BitVec.add_eq_or_of_and_eq_zero _ _ apart, BitVec.getLsbD_or,
      f.ones_getLsbD hb, ih hfs hb, ← Bool.decide_or]
    simp only [List.exists_mem_cons_iff]

theorem RegRow.Laid.mask_getLsbD {r : RegRow} (h : r.Laid) (t : FieldType) {b : Nat} (hb : b < 32) :
    (r.mask t).getLsbD b = decide (∃ f ∈ r.fields, f.ty = t ∧ f.Covers b) := by
  rw [RegRow.mask, ones_sum_getLsbD (h.filter _) hb]
  simp [List.mem_filter, and_assoc]

/-- In a bit of a field, the mask of the field's own type is 1 and every other mask is 0. -/
theorem RegRow.Laid.mask_of_covers {r : RegRow} (h : r.Laid) {f : Fld} (hf : f ∈ r.fields) {b : Nat} (hb : b < 32)
    (c : f.Covers b) (t : FieldType) : (r.mask t).getLsbD b = decide (f.ty = t) := by
  rw [h.mask_getLsbD t hb]
  apply decide_eq_decide.2
  constructor
  · rintro ⟨g, hg, rfl, cg⟩
    rw [h.eq_of_covers hf hg c cg]
  · exact fun e => ⟨f, hf, e, c⟩

/-- In a reserved bit every mask is 0. -/
theorem RegRow.Laid.mask_of_reserved {r : RegRow} (h : r.Laid) {b : Nat} (hb : b < 32) (c : ∀ f ∈ r.fields, ¬f.Covers b)
    (t : FieldType) : (r.mask t).getLsbD b = false := by
  rw [h.mask_getLsbD t hb, decide_eq_false_iff_not]
  exact fun ⟨f, hf, _, cf⟩ => c f hf cf

/-! ### Writes and reads, bit by bit -/

theorem RegRow.swWrite_getLsbD (r : RegRow) (old v : Word) {b : Nat} (hb : b < 32) :
    (r.swWrite old v).getLsbD b = ((if (r.mask .rw).getLsbD b then v.getLsbD b else old.getLsbD b)
      && !(v.getLsbD b && (r.mask .w1c).getLsbD b)) := by
  simp only [RegRow.swWrite, BitVec.getLsbD_and, BitVec.getLsbD_or, BitVec.getLsbD_not, hb, decide_true, Bool.true_and]
  cases (r.mask .rw).getLsbD b <;> simp

theorem RegRow.rcClear_getLsbD (r : RegRow) (old : Word) {b : Nat} (hb : b < 32) :
    (r.rcClear old).getLsbD b = (old.getLsbD b && !(r.mask .rc).getLsbD b) := by
  simp only [RegRow.rcClear, BitVec.getLsbD_and, BitVec.getLsbD_not, hb, decide_true, Bool.true_and]

/-- What a write does to a bit of a field, by the field's type (R16). -/
theorem RegRow.Laid.swWrite_of_covers {r : RegRow} (h : r.Laid) {f : Fld} (hf : f ∈ r.fields) (old v : Word) {b : Nat}
    (hb : b < 32) (c : f.Covers b) : (r.swWrite old v).getLsbD b =
      match f.ty with
      | .rw => v.getLsbD b
      | .ro | .rc => old.getLsbD b
      | .w1c => old.getLsbD b && !v.getLsbD b := by
  rw [r.swWrite_getLsbD old v hb, h.mask_of_covers hf hb c, h.mask_of_covers hf hb c]
  cases f.ty <;> simp

/-- A field reads the same from two words that agree in its bits. -/
theorem Fld.get_congr (f : Fld) {x y : Word} (h : ∀ b < 32, f.Covers b → x.getLsbD b = y.getLsbD b) : f.get x = f.get y := by
  apply Nat.eq_of_testBit_eq
  intro i
  simp only [Fld.get, Nat.testBit_mod_two_pow, Nat.testBit_div_two_pow, BitVec.testBit_toNat]
  by_cases hi : i < f.w
  · by_cases hb : i + f.lo < 32
    · rw [h (i + f.lo) hb ⟨by omega, by omega⟩]
    · rw [BitVec.getLsbD_of_ge x _ (by omega), BitVec.getLsbD_of_ge y _ (by omega)]
  · simp [hi]

theorem Fld.get_zero (f : Fld) : f.get 0 = 0 := by simp [Fld.get]

theorem RegRow.Laid.get_rcClear {r : RegRow} (h : r.Laid) {f : Fld} (hf : f ∈ r.fields) (old : Word) :
    f.get (r.rcClear old) = if f.ty = .rc then 0 else f.get old := by
  split
  case isTrue hrc =>
    rw [← f.get_zero]
    apply f.get_congr
    intro b hb c
    simp [r.rcClear_getLsbD old hb, h.mask_of_covers hf hb c, hrc]
  case isFalse hrc =>
    apply f.get_congr
    intro b hb c
    simp [r.rcClear_getLsbD old hb, h.mask_of_covers hf hb c, hrc]

/-- Settles O54, from what a write and a read do to each bit of a row whose fields do not overlap. -/
theorem registerFieldTypes : Obligations.RegisterFieldTypes := by
  intro a r hr old v
  have h : r.Laid := regRow?_laid hr
  refine ⟨fun f hf => ⟨fun hty => ?_, fun hty => ?_, fun hty b hlo hhi => ?_, h.get_rcClear hf old⟩, fun b hb hres => ?_⟩
  · exact f.get_congr fun b hb c => by rw [h.swWrite_of_covers hf old v hb c, hty]
  · exact f.get_congr fun b hb c => by rw [h.swWrite_of_covers hf old v hb c]; rcases hty with hty | hty <;> rw [hty]
  · by_cases hb : b < 32
    · rw [h.swWrite_of_covers hf old v hb ⟨hlo, hhi⟩, hty]
    · rw [BitVec.getLsbD_of_ge _ _ (by omega), BitVec.getLsbD_of_ge _ _ (by omega), Bool.false_and]
  · rw [r.swWrite_getLsbD old v hb, r.rcClear_getLsbD old hb]
    simp [h.mask_of_reserved hb hres]

end Sys2Proof.Machine
end


section
/-! SUPPORT. The state right after reset: every register reads its table's reset value (R16, R40, R490). -/

namespace Sys2Proof.Machine

/-- At reset every register reads the value that its table gives (R16). -/
theorem State.reset_reg {a : Nat} {row : RegRow} (h : regRow? a = some row) : State.reset.reg a = row.reset := by
  change regReset a = row.reset
  rw [regReset, h]

theorem State.reset_cwAt (a : Nat) : State.reset.cwAt a = .ok := rfl

theorem State.reset_canonical : State.reset.Canonical := ⟨State.reset_wf, rfl⟩

/-- Every Island is UNTESTED at reset, and both of its contexts are IDLE. -/
theorem State.reset_islands : ∀ p : Fin 144,
    State.reset.pstate p = 0 ∧ State.reset.ctxSt p 0 = 0 ∧ State.reset.ctxSt p 1 = 0 := by decide +kernel

/-- Every Strait port is OFF at reset. -/
theorem State.reset_ports : ∀ k : Fin 16, State.reset.portSt k = 0 := by decide +kernel

/-- Stage ROM is due at reset, and no Tide program is loaded. -/
theorem State.reset_boot_and_tide : State.reset.bootFld Fd.BOOT_STATUS_STAGE = 1 ∧ State.reset.tideSt = 0
    ∧ State.reset.loaded = false := by decide +kernel

/-- Settles O59, from the default that an unlisted register reads. -/
theorem resetIsCanonicalAndAsTabled : Obligations.ResetIsCanonicalAndAsTabled := by
  obtain ⟨hstage, htide, hloaded⟩ := State.reset_boot_and_tide
  exact ⟨⟨fun _ _ h => State.reset_reg h, hstage, rfl, State.reset_cwAt, State.reset_islands, State.reset_ports, htide, hloaded⟩,
    State.reset_canonical⟩

end Sys2Proof.Machine
end


section
/-! SUPPORT. What a command leaves alone, composed: a chain of updates keeps every part that each of them keeps. -/

namespace Sys2Proof.Machine

theorem Part.same_trans {s t u : State} {p : Part} (h : p.same s t) (h' : p.same t u) : p.same s u := by
  cases p <;> exact Eq.trans h' h

theorem KeepsBut.refl (ps : List Part) (s : State) : KeepsBut ps s s := ⟨rfl, fun p _ => by cases p <;> rfl⟩

/-- Two updates in a row keep what both of them keep. -/
theorem KeepsBut.trans {ps qs : List Part} {s t u : State} (h : KeepsBut ps s t) (h' : KeepsBut qs t u) :
    KeepsBut (ps ++ qs) s u := by
  refine ⟨h'.1.trans h.1, fun p hp => ?_⟩
  rw [List.mem_append, not_or] at hp
  exact Part.same_trans (h.2 p hp.1) (h'.2 p hp.2)

/-- What leaves more alone leaves less alone. -/
theorem KeepsBut.mono {ps qs : List Part} {s t : State} (h : KeepsBut ps s t) (hs : ps ⊆ qs) : KeepsBut qs s t :=
  ⟨h.1, fun p hp => h.2 p fun hm => hp (hs hm)⟩

theorem State.setReg_keeps (s : State) (a : Nat) (v : Word) : KeepsBut [.regs] s (s.setReg a v) := by
  refine ⟨rfl, fun p hp => ?_⟩
  cases p with
  | regs => exact absurd (List.mem_singleton.2 rfl) hp
  | _ => rfl

theorem State.respond_keeps (s : State) (r : BusRsp) : KeepsBut [.bus] s (s.respond r) := by
  refine ⟨rfl, fun p hp => ?_⟩
  cases p with
  | bus => exact absurd (List.mem_singleton.2 rfl) hp
  | _ => rfl

theorem State.accessErr_keeps (s : State) (a r : Nat) (w : Bool) (k : Nat) : KeepsBut [.accessErrs] s (s.accessErr a r w k) := by
  refine ⟨rfl, fun p hp => ?_⟩
  cases p with
  | accessErrs => exact absurd (List.mem_singleton.2 rfl) hp
  | _ => rfl

theorem RegsBut.refl (as : List Nat) (s : State) : RegsBut as s s := fun _ _ => rfl

/-- Two updates of the same registers in a row leave every other register alone. -/
theorem RegsBut.trans {as : List Nat} {s t u : State} (h : RegsBut as s t) (h' : RegsBut as t u) : RegsBut as s u :=
  fun a ha => (h' a ha).trans (h a ha)

theorem State.setReg_regsBut (s : State) (a : Nat) (v : Word) : RegsBut [a] s (s.setReg a v) :=
  fun _ hb => s.reg_setReg_other v (List.ne_of_not_mem_cons hb)

/-- A software write of a register of the map acts on its fields and on no other register (R16, R17). -/
theorem State.swWrite_effect (s : State) {a : Nat} {row : RegRow} (h : regRow? a = some row) (v : Word) :
    (s.swWrite a v).reg a = row.swWrite (s.reg a) v ∧ KeepsBut [.regs] s (s.swWrite a v) ∧ RegsBut [a] s (s.swWrite a v) := by
  have e : s.swWrite a v = s.setReg a (row.swWrite (s.reg a) v) := by rw [State.swWrite, h]
  rw [e]
  exact ⟨s.reg_setReg_same a _, s.setReg_keeps a _, s.setReg_regsBut a _⟩

theorem State.swWrite_of_none (s : State) {a : Nat} (h : regRow? a = none) (v : Word) : s.swWrite a v = s := by
  rw [State.swWrite, h]

end Sys2Proof.Machine
end


section
/-! SUPPORT. The read of a register (R16, R111, R146). -/

namespace Sys2Proof.Machine

variable (s : State)

/-! ### The state field of a context in ISL_SEQ_STATUS -/

theorem stFld_fits (c : Nat) : (stFld c).lo + (stFld c).w ≤ 32 := by
  unfold stFld; split <;> decide

theorem State.ctxSt_setSt_same (p c : Nat) {st : Nat} (h : st < 8) : (s.setSt p c st).ctxSt p c = st := by
  have e : (s.setSt p c st).ctxSt p c = st % 2 ^ (stFld c).w := s.fld_setFld_same _ (stFld c) st (stFld_fits c)
  have w : (stFld c).w = 3 := by unfold stFld; split <;> rfl
  rw [e, w]
  omega

theorem State.ctxSt_setSt_other (p st : Nat) {c d : Fin 2} (h : d ≠ c) : (s.setSt p c st).ctxSt p d = s.ctxSt p d := by
  have apart : (stFld d).lo + (stFld d).w ≤ (stFld c).lo ∨ (stFld c).lo + (stFld c).w ≤ (stFld d).lo := by
    revert c d; decide
  exact s.fld_setFld_disjoint _ (stFld c) (stFld d) st (stFld_fits c) apart

theorem State.setSt_regsBut (p c st : Nat) : RegsBut [Reg.ISL_SEQ_STATUS p] s (s.setSt p c st) := s.setReg_regsBut _ _

/-- The bits of ISL_SEQ_STATUS above both contexts' state. -/
theorem State.setSt_high (p c st : Nat) : bitsOf ((s.setSt p c st).reg (Reg.ISL_SEQ_STATUS p)).toNat 31 6
    = bitsOf (s.reg (Reg.ISL_SEQ_STATUS p)).toNat 31 6 :=
  s.fld_setFld_disjoint _ (stFld c) ⟨6, 26, .ro, 0⟩ st (stFld_fits c) (.inr (by unfold stFld; split <;> decide))

/-! ### Readiness follows other registers -/

/-- An update of ISL_SEQ_STATUS that keeps a context's state keeps whether the context runs. -/
theorem State.runs_congr {s t : State} {p : Fin 144} {c : Nat} (hr : RegsBut [Reg.ISL_SEQ_STATUS p] s t)
    (hc : t.ctxSt p c = s.ctxSt p c) : t.runs p c = s.runs p c := by
  have hp : t.pstate p = s.pstate p := by
    have : Reg.ISL_PSTATE p ≠ Reg.ISL_SEQ_STATUS p := by
      unfold Reg.ISL_PSTATE Reg.ISL_SEQ_STATUS modWin islWin; omega
    rw [State.pstate, State.fld, hr _ (List.not_mem_cons_of_ne_of_not_mem this List.not_mem_nil)]; rfl
  rw [State.runs, hc, hp]; rfl

/-- An update of ISL_SEQ_STATUS that keeps a context's state keeps whether the context is ready. -/
theorem State.ready_congr {s t : State} {p : Fin 144} {c : Nat} (hk : KeepsBut [.regs] s t)
    (hr : RegsBut [Reg.ISL_SEQ_STATUS p] s t) (hc : t.ctxSt p c = s.ctxSt p c) : t.ready p c = s.ready p c := by
  have reg {a : Nat} (h : a ≠ Reg.ISL_SEQ_STATUS p) : t.reg a = s.reg a :=
    hr a (List.not_mem_cons_of_ne_of_not_mem h List.not_mem_nil)
  have hpc : t.pc p c = s.pc p c := by
    rw [State.pc, State.fld, reg (by unfold Reg.ISL_SEQ_PC Reg.ISL_SEQ_STATUS; omega)]; rfl
  have hpred (i : Nat) : t.pred p c i = s.pred p c i := by
    rw [State.pred, reg (by unfold Reg.ISL_SEQ_PRED Reg.ISL_SEQ_STATUS; omega)]; rfl
  have hmem : t.mem = s.mem := hk.2 .mem (by decide)
  have hisls : t.isls = s.isls := hk.2 .isls (by decide)
  have hfrys : t.frys = s.frys := hk.2 .frys (by decide)
  have hword : t.iword p c = s.iword p c := by
    simp only [State.iword, State.bytes, State.byte, hpc, hmem]
  have hlacks (w : Nat) : t.lacks p c w = s.lacks p c w := by
    unfold State.lacks State.hasRoom State.ctx State.isl State.fry
    rw [hisls, hfrys]
  simp only [State.ready, State.predOff, State.runs_congr hr hc, hword, hlacks, hpred]

/-! ### What a read of ISL_SEQ_STATUS shows -/

/-- What a context's state field shows when it is read (R111, R146). -/
def State.shownSt (s : State) (p c : Nat) : Nat :=
  if s.runs p c = true then (if s.ready p c = true then 1 else 2) else s.ctxSt p c

theorem State.syncCtx_keeps (p c : Nat) : KeepsBut [.regs] s (s.syncCtx p c) := by
  unfold State.syncCtx
  split
  · exact s.setReg_keeps _ _
  · exact .refl _ s

theorem State.syncCtx_regsBut (p c : Nat) : RegsBut [Reg.ISL_SEQ_STATUS p] s (s.syncCtx p c) := by
  unfold State.syncCtx
  split
  · exact s.setSt_regsBut p c _
  · exact .refl _ s

theorem State.syncCtx_high (p c : Nat) : bitsOf ((s.syncCtx p c).reg (Reg.ISL_SEQ_STATUS p)).toNat 31 6
    = bitsOf (s.reg (Reg.ISL_SEQ_STATUS p)).toNat 31 6 := by
  unfold State.syncCtx
  split
  · exact s.setSt_high p c _
  · rfl

theorem State.ctxSt_syncCtx_same (p c : Nat) : (s.syncCtx p c).ctxSt p c = s.shownSt p c := by
  unfold State.syncCtx State.shownSt
  split
  · exact s.ctxSt_setSt_same p c (by split <;> decide)
  · rfl

theorem State.ctxSt_syncCtx_other (p : Nat) {c d : Fin 2} (h : d ≠ c) : (s.syncCtx p c).ctxSt p d = s.ctxSt p d := by
  unfold State.syncCtx
  split
  · exact s.ctxSt_setSt_other p _ h
  · rfl

/-- Bringing one context's state up to date leaves what the other one shows. -/
theorem State.shownSt_syncCtx_other (p : Fin 144) {c d : Fin 2} (h : d ≠ c) :
    (s.syncCtx p c).shownSt p d = s.shownSt p d := by
  have hc := s.ctxSt_syncCtx_other p h
  have hr := s.syncCtx_regsBut p c
  rw [State.shownSt, State.runs_congr hr hc, State.ready_congr (s.syncCtx_keeps p c) hr hc, hc]; rfl

theorem State.syncRead_status (p : Fin 144) : s.syncRead (Reg.ISL_SEQ_STATUS p) = (s.syncCtx p 0).syncCtx p 1 := by
  have hp := p.isLt
  have e : (Reg.ISL_SEQ_STATUS p - 0x4000000) / 0x10000 = p := by unfold Reg.ISL_SEQ_STATUS islWin; omega
  rw [State.syncRead, if_pos (by unfold Reg.ISL_SEQ_STATUS islWin; omega), e]

theorem State.syncRead_other {w : Nat} (h : ∀ p : Fin 144, w ≠ Reg.ISL_SEQ_STATUS p) : s.syncRead w = s := by
  rw [State.syncRead, if_neg]
  intro hw
  exact h ⟨(w - 0x4000000) / 0x10000, by omega⟩ (by simp only [Reg.ISL_SEQ_STATUS, islWin]; omega)

/-- A read brings at most the register it reads up to date. -/
theorem State.syncRead_frame (w : Nat) : KeepsBut [.regs] s (s.syncRead w) ∧ RegsBut [w] s (s.syncRead w) := by
  by_cases h : ∃ p : Fin 144, w = Reg.ISL_SEQ_STATUS p
  · obtain ⟨p, rfl⟩ := h
    rw [s.syncRead_status p]
    exact ⟨((s.syncCtx_keeps p 0).trans (State.syncCtx_keeps _ p 1)).mono (by simp),
      (s.syncCtx_regsBut p 0).trans (State.syncCtx_regsBut _ p 1)⟩
  · rw [s.syncRead_other (not_exists.1 h)]
    exact ⟨.refl _ s, .refl _ s⟩

/-- A read of ISL_SEQ_STATUS shows both contexts by their readiness, and the other bits as they are (R111, R146). -/
theorem State.syncRead_status_shows (p : Fin 144) :
    (∀ c : Fin 2, (s.syncRead (Reg.ISL_SEQ_STATUS p)).ctxSt p c = s.shownSt p c)
      ∧ bitsOf ((s.syncRead (Reg.ISL_SEQ_STATUS p)).reg (Reg.ISL_SEQ_STATUS p)).toNat 31 6
        = bitsOf (s.reg (Reg.ISL_SEQ_STATUS p)).toNat 31 6 := by
  rw [s.syncRead_status p]
  refine ⟨fun c => ?_, by rw [State.syncCtx_high, State.syncCtx_high]⟩
  match c with
  | 0 => exact ((s.syncCtx p 0).ctxSt_syncCtx_other p (c := 1) (d := 0) (by decide)).trans (s.ctxSt_syncCtx_same p 0)
  | 1 => exact ((s.syncCtx p 0).ctxSt_syncCtx_same p 1).trans (s.shownSt_syncCtx_other p (c := 0) (d := 1) (by decide))

theorem State.rd_of_some {w : Nat} {row : RegRow} (h : regRow? w = some row) :
    s.rd w = ((s.syncRead w).reg w, (s.syncRead w).setReg w (row.rcClear ((s.syncRead w).reg w))) := by
  rw [State.rd, h]

theorem State.rd_of_none {w : Nat} (h : regRow? w = none) : s.rd w = (0, s) := by rw [State.rd, h]

/-! ### The command RC_COUNTER_READ -/

/-- A permitted read answers what the register shows. -/
theorem exec_rcCounterRead_permitted {s : State} {r : Requester} {a : BitVec 48} (hup : s.up = true)
    (hm : s.mayRead r a.toNat = true) : exec (.rcCounterRead r a) s
      = .next ((s.rd (a.toNat / 4 * 4)).2.respond (.data (leBytes 4 (s.rd (a.toNat / 4 * 4)).1.toNat))) := by
  change execRcCounterRead r a s = _
  simp [execRcCounterRead, hup, hm]

theorem exec_rcCounterRead_denied {s : State} {r : Requester} {a : BitVec 48} (hup : s.up = true)
    (hm : s.mayRead r a.toNat = false) : exec (.rcCounterRead r a) s
      = .next ((s.accessErr a.toNat (reqCode r) false 3).respond (.err 3 [])) := by
  change execRcCounterRead r a s = _
  simp [execRcCounterRead, hup, hm]

/-- A read of a register of the map answers its word and clears its RC fields (R16). -/
theorem rcCounterRead_register {s : State} {r : Requester} {a : BitVec 48} (hup : s.up = true)
    (hm : s.mayRead r a.toNat = true) {row : RegRow} (hrow : regRow? (a.toNat / 4 * 4) = some row) :
    Gives (.rcCounterRead r a) s fun t =>
      t.bus = .data (leBytes 4 ((s.syncRead (a.toNat / 4 * 4)).reg (a.toNat / 4 * 4)).toNat)
        ∧ t.reg (a.toNat / 4 * 4) = row.rcClear ((s.syncRead (a.toNat / 4 * 4)).reg (a.toNat / 4 * 4))
        ∧ KeepsBut [.bus, .regs] s t ∧ RegsBut [a.toNat / 4 * 4] s t := by
  generalize hw : a.toNat / 4 * 4 = w at hrow ⊢
  have e := exec_rcCounterRead_permitted hup hm
  rw [hw, s.rd_of_some hrow] at e
  obtain ⟨hk, hr⟩ := s.syncRead_frame w
  refine ⟨_, e, rfl, (s.syncRead w).reg_setReg_same w _, ?_, hr.trans ((s.syncRead w).setReg_regsBut w _)⟩
  exact ((hk.trans ((s.syncRead w).setReg_keeps w _)).trans (State.respond_keeps _ _)).mono (by simp)

/-- A read where the map has no register answers 0 and changes nothing. -/
theorem rcCounterRead_unmapped {s : State} {r : Requester} {a : BitVec 48} (hup : s.up = true)
    (hm : s.mayRead r a.toNat = true) (hrow : regRow? (a.toNat / 4 * 4) = none) :
    Gives (.rcCounterRead r a) s fun t => t.bus = .data [0, 0, 0, 0] ∧ KeepsBut [.bus] s t := by
  have e := exec_rcCounterRead_permitted hup hm
  rw [s.rd_of_none hrow] at e
  exact ⟨_, e, by simp [State.respond, leBytes], s.respond_keeps _⟩

theorem State.accessErr_respond_keeps (a r : Nat) (w : Bool) (k : Nat) (b : BusRsp) :
    KeepsBut [.bus, .accessErrs] s ((s.accessErr a r w k).respond b) :=
  ((s.accessErr_keeps a r w k).trans (State.respond_keeps _ b)).mono (by simp)

end Sys2Proof.Machine
end


section
/-! SUPPORT. Where a register write goes: the windows of the map, the registers without a rule of their own, and those that
take a write only at certain times (R17, R146, R178, R247, R361, R369, R465). -/

namespace Sys2Proof.Machine

variable (s : State)

/-! ### Windows -/

theorem State.wrReg_isl (r : Requester) (p : Fin 144) {off : Nat} (h : off < 0x10000) (v : Word) :
    s.wrReg r (islWin p + off) v = if (regRow? (islWin p + off)).isNone then s else s.wrIsl p off v := by
  have hp := p.isLt
  have e1 : (islWin p + off - 0x4000000) / 0x10000 = p := by unfold islWin; omega
  have e2 : (islWin p + off) % 0x10000 = off := by unfold islWin; omega
  rw [State.wrReg, if_neg (c := _ < 0x2000000) (by unfold islWin; omega),
    if_pos (c := _ < 0x5000000) (by unfold islWin; omega), e1, e2]

theorem State.wrReg_qtr (r : Requester) (q : Fin 4) {off : Nat} (h : off < 0x100000) (v : Word) :
    s.wrReg r (qtrWin q + off) v = if (regRow? (qtrWin q + off)).isNone then s else s.wrQtr q off v := by
  have hq := q.isLt
  have e1 : (qtrWin q + off - 0x5000000) / 0x100000 = q := by unfold qtrWin; omega
  have e2 : (qtrWin q + off) % 0x100000 = off := by unfold qtrWin; omega
  rw [State.wrReg, if_neg (c := _ < 0x2000000) (by unfold qtrWin; omega),
    if_neg (c := _ < 0x5000000) (by unfold qtrWin; omega), if_pos (c := _ < 0x6000000) (by unfold qtrWin; omega), e1, e2]

theorem State.wrReg_mod (r : Requester) (off : Nat) (v : Word) :
    s.wrReg r (modWin + off) v = if (regRow? (modWin + off)).isNone then s else s.wrMod r off v := by
  rw [State.wrReg, if_neg (c := _ < 0x2000000) (by unfold modWin; omega),
    if_neg (c := _ < 0x5000000) (by unfold modWin; omega), if_neg (c := _ < 0x6000000) (by unfold modWin; omega),
    Nat.add_sub_cancel_left]

theorem State.wrReg_of_unmapped (r : Requester) {a : Nat} (h : regRow? a = none) (v : Word) : s.wrReg r a v = s := by
  rw [State.wrReg, h]; rfl

/-- A plain write does nothing where the map has no register, so it needs no test of the map. -/
theorem State.mapped_swWrite (a : Nat) (v : Word) :
    (if (regRow? a).isNone then s else s.swWrite a v) = s.swWrite a v := by
  split
  · next h => exact (s.swWrite_of_none (Option.isNone_iff_eq_none.1 h) v).symm
  · rfl

theorem State.mapped_swWrite_if (a : Nat) (v : Word) (b : Bool) :
    (if (regRow? a).isNone then s else if b then s.swWrite a v else s) = if b then s.swWrite a v else s := by
  cases b
  · exact ite_self s
  · exact s.mapped_swWrite a v

/-! ### Registers without a rule of their own -/

theorem State.wrIsl_plain (p : Nat) {off : Nat} (h : off ∈ [0x34, 0x38, 0x2008, 0x4008, 0x3020, 0x5014]) (v : Word) :
    s.wrIsl p off v = s.swWrite (islWin p + off) v := by
  simp only [List.mem_cons, List.not_mem_nil, or_false] at h
  rcases h with rfl | rfl | rfl | rfl | rfl | rfl <;> simp [State.wrIsl, bothStopped, stoppedOnly]

/-- Every register of a Ferry but FRY_SUBMIT_CTL. -/
theorem State.wrQtr_ferry (q : Nat) {off : Nat} (h : off < 0x10000) (hctl : off % 0x4000 ≠ 0x018) (v : Word) :
    s.wrQtr q off v = s.swWrite (qtrWin q + off) v := by
  rw [State.wrQtr, if_pos h, if_neg hctl]

/-- Every register of a Strait port but STR_CTL and STR_LB_CTL. -/
theorem State.wrQtr_strPort (q : Nat) (k : Fin 4) {o : Nat} (h : o < 0x1000) (hctl : o ≠ 0x000) (hlb : o ≠ 0x100) (v : Word) :
    s.wrQtr q (0x20000 + (o + k * 0x1000)) v = s.swWrite (qtrWin q + (0x20000 + (o + k * 0x1000))) v := by
  have e : (o + k * 0x1000) % 0x1000 = o := by omega
  rw [State.wrQtr, if_neg (by omega), if_pos (by omega), Nat.add_sub_cancel_left, State.wrStr, if_pos (by omega), e,
    Nat.add_assoc]
  split
  · exact absurd rfl hctl
  · exact absurd rfl hlb
  · rfl

/-- The scrub register of a memory controller (R287). -/
theorem State.wrMem_scrub (u : MemUnit) (v : Word) : s.wrMem u 0x004 v = s.swWrite (memReg u 0x004) v := rfl

/-- HBM_SCRUB of a Quarter's first stack. -/
theorem State.wrQtr_hbmScrub (q : Fin 4) (v : Word) : s.wrQtr q 0x40004 v = s.swWrite (qtrWin q + 0x40004) v := by
  have hq := q.isLt
  have e : memReg (.hbm ⟨2 * q + (0x40004 - 0x40000) / 0x2000, by omega⟩) 0x004 = qtrWin q + 0x40004 := by
    unfold memReg qtrWin
    simp only
    omega
  rw [State.wrQtr, if_neg (by omega), if_neg (by omega), dif_pos (by omega)]
  exact (s.wrMem_scrub _ v).trans (by rw [e])

theorem State.wrQtr_plain (q : Nat) {off : Nat} (h : off ∈ [0x25008, 0x80004, 0xA1030, 0x70000, 0x70008]) (v : Word) :
    s.wrQtr q off v = s.swWrite (qtrWin q + off) v := by
  simp only [List.mem_cons, List.not_mem_nil, or_false] at h
  rcases h with rfl | rfl | rfl | rfl | rfl
  · simp [State.wrQtr, State.wrStr, Nat.add_assoc]
  · simp [State.wrQtr, State.wrCht, Nat.add_assoc]
  · simp [State.wrQtr, State.wrFuu, Nat.add_assoc]
  · simp [State.wrQtr]
  · simp [State.wrQtr]

/-- TIDE_ERR takes its write at any time. -/
theorem State.wrTide_err (q : Nat) (v : Word) : s.wrTide q 0x030 v = s.swWrite (qtrWin q + 0x60030) v := by
  simp [State.wrTide, tideFixed, Nat.add_assoc]

theorem State.wrMod_plain (r : Requester) {off : Nat}
    (h : off ∈ [0x40, 0x44, 0x20018, 0x2001C, 0x20000, 0x30004, 0x30014]) (v : Word) :
    s.wrMod r off v = s.swWrite (modWin + off) v := by
  simp only [List.mem_cons, List.not_mem_nil, or_false] at h
  rcases h with rfl | rfl | rfl | rfl | rfl | rfl | rfl <;> rfl

theorem State.wrMod_pstate (r : Requester) (p : Fin 144) (v : Word) :
    s.wrMod r (0x40400 + p * 4) v = s.swWrite (modWin + (0x40400 + p * 4)) v := by
  have hp := p.isLt
  have e : modWin + 0x40000 + (0x40400 + p * 4 - 0x40000) = modWin + (0x40400 + p * 4) := by omega
  rw [State.wrMod, if_neg (by omega), if_neg (by omega), if_neg (by omega), if_neg (by omega), if_neg (by omega),
    if_pos (by omega), State.wrOrg, if_neg (by omega), if_neg (by omega), if_neg (by omega), if_neg (by omega), e]

/-! ### Registers that take a write only while contexts are stopped -/

theorem State.wrIsl_bothStopped (p : Nat) {off : Nat} (h : bothStopped off = true) (v : Word) :
    s.wrIsl p off v = if s.islStopped p then s.swWrite (islWin p + off) v else s := by
  have own : off ≠ 0x000 ∧ off ≠ 0x020 ∧ off ≠ 0x028 ∧ off ≠ 0x3004 ∧ off ≠ 0x500C := by
    refine ⟨?_, ?_, ?_, ?_, ?_⟩ <;> (rintro rfl; revert h; decide)
  simp only [State.wrIsl, own, h, if_false, if_true]

/-- Whether an offset of an Island's window is a half of s0 of a context (R108). -/
def isS0 (off : Nat) : Bool := 0x100 ≤ off && off < 0x300 && decide (off % 0x100 < 8)

theorem stoppedOnly_lt {off c : Nat} (h : stoppedOnly off = some c) : off < 0x308 := by
  unfold stoppedOnly at h
  split_ifs at h <;> omega

theorem State.wrIsl_stoppedOnly (p : Nat) {off c : Nat} (hc : stoppedOnly off = some c) (v : Word) :
    s.wrIsl p off v = if !isS0 off && s.ctxStopped p c then s.swWrite (islWin p + off) v else s := by
  have own : off ≠ 0x000 ∧ off ≠ 0x020 ∧ off ≠ 0x028 ∧ off ≠ 0x3004 ∧ off ≠ 0x500C := by
    refine ⟨?_, ?_, ?_, ?_, ?_⟩ <;> (rintro rfl; revert hc; simp [stoppedOnly])
  have hb : bothStopped off = false := by
    have := stoppedOnly_lt hc
    simp only [bothStopped, Bool.or_eq_false_iff, Bool.and_eq_false_iff, decide_eq_false_iff_not, beq_eq_false_iff_ne]
    omega
  have e : s.wrIsl p off v = if isS0 off || !s.ctxStopped p c then s else s.swWrite (islWin p + off) v := by
    simp only [State.wrIsl, own, hb, hc, if_false, Bool.false_eq_true, isS0] <;> rfl
  rw [e]
  cases isS0 off <;> cases s.ctxStopped p c <;> simp

theorem State.wrReg_stoppedOnly (r : Requester) (p : Fin 144) {off c : Nat} (hc : stoppedOnly off = some c) (v : Word) :
    s.wrReg r (islWin p + off) v = if !isS0 off && s.ctxStopped p c then s.swWrite (islWin p + off) v else s := by
  have := stoppedOnly_lt hc
  rw [s.wrReg_isl r p (by omega), s.wrIsl_stoppedOnly p hc]
  exact s.mapped_swWrite_if _ v _

theorem State.wrReg_bothStopped (r : Requester) (p : Fin 144) {off : Nat} (hlt : off < 0x10000) (h : bothStopped off = true)
    (v : Word) : s.wrReg r (islWin p + off) v = if s.islStopped p then s.swWrite (islWin p + off) v else s := by
  rw [s.wrReg_isl r p hlt, s.wrIsl_bothStopped p h]
  exact s.mapped_swWrite_if _ v _

/-! ### Registers that take a write only while no program is loaded -/

theorem State.wrQtr_tide (q : Nat) {o : Nat} (h : o < 0x10000) (v : Word) : s.wrQtr q (0x60000 + o) v = s.wrTide q o v := by
  rw [State.wrQtr, if_neg (by omega), if_neg (by omega), dif_neg (by omega), if_pos (by omega), Nat.add_sub_cancel_left]

theorem State.wrQtr_fuu (q : Nat) {o : Nat} (h : o < 0x2000) (v : Word) : s.wrQtr q (0xA0000 + o) v = s.wrFuu q o v := by
  rw [State.wrQtr, if_neg (by omega), if_neg (by omega), dif_neg (by omega), if_neg (by omega), if_neg (by omega),
    if_neg (by omega), if_pos (by omega), Nat.add_sub_cancel_left]

theorem State.wrTide_fixed (q : Nat) {o : Nat} (hf : tideFixed o = true) (h4 : o ≠ 0x004) (v : Word) :
    s.wrTide q o v = if !s.loaded then s.swWrite (qtrWin q + (0x60000 + o)) v else s := by
  have h0 : o ≠ 0x000 := by rintro rfl; revert hf; decide
  have h28 : o ≠ 0x028 := by rintro rfl; revert hf; decide
  simp only [State.wrTide, hf, h0, h4, h28, Bool.and_true, and_false, if_false, Nat.add_assoc]
  cases s.loaded <;> simp

/-- The offsets of an update unit's registers that take a write only while no program is loaded (R369). -/
abbrev fuuFixed : List Nat := [0x010, 0x014, 0x018, 0x020, 0x024, 0x028]

theorem fuuFixed_bounds : ∀ o ∈ fuuFixed, o < 0x1000 ∧ o ≠ 0x000 ∧ o ≠ 0x004 := by decide

theorem State.wrFuu_fixed (q : Nat) (u : Fin 2) {o : Nat} (ho : o ∈ fuuFixed) (v : Word) :
    s.wrFuu q (o + u * 0x1000) v = if !s.loaded then s.swWrite (qtrWin q + (0xA0000 + (o + u * 0x1000))) v else s := by
  have hlt := fuuFixed_bounds o ho
  have e : (o + u * 0x1000) % 0x1000 = o := by omega
  have hc : [0x010, 0x014, 0x018, 0x020, 0x024, 0x028].contains o = true := List.contains_iff_mem.2 ho
  simp only [State.wrFuu, e, hc, hlt, Bool.true_or, Bool.and_true, if_false, Nat.add_assoc]
  cases s.loaded <;> simp

theorem State.wrReg_tideFixed (r : Requester) {o : Nat} (hlt : o < 0x10000) (hf : tideFixed o = true) (h4 : o ≠ 0x004) (v : Word) :
    s.wrReg r (qtrWin 0 + (0x60000 + o)) v = if !s.loaded then s.swWrite (qtrWin 0 + (0x60000 + o)) v else s := by
  rw [← Fin.val_zero 4, s.wrReg_qtr r 0 (by omega), s.wrQtr_tide _ hlt, s.wrTide_fixed _ hf h4]
  exact s.mapped_swWrite_if _ v _

theorem State.wrReg_fuuFixed (r : Requester) (q : Fin 4) (u : Fin 2) {o : Nat}
    (ho : o ∈ fuuFixed) (v : Word) :
    s.wrReg r (qtrWin q + (0xA0000 + (o + u * 0x1000))) v
      = if !s.loaded then s.swWrite (qtrWin q + (0xA0000 + (o + u * 0x1000))) v else s := by
  have hlt := (fuuFixed_bounds o ho).1
  rw [s.wrReg_qtr r q (by omega), s.wrQtr_fuu _ (by omega), s.wrFuu_fixed _ u ho]
  exact s.mapped_swWrite_if _ v _

end Sys2Proof.Machine
end


section
/-! SUPPORT. The command REGISTER_WRITE, and the registers that the statement of register access names (R16, R37, R392). -/

namespace Sys2Proof.Machine

variable {s : State} {r : Requester} {v : BitVec 32}

/-! ### The command REGISTER_WRITE -/

theorem exec_registerWrite_permitted {a : BitVec 48} (hup : s.up = true) (hm : s.mayWrite r a.toNat = true) :
    exec (.registerWrite r a v) s = .next (tideCheck (s.wrReg r a.toNat v)) := by
  change settled (s.guarded r a.toNat fun s => s.wrReg r a.toNat v) = _
  simp [State.guarded, hup, hm, settled]

theorem exec_registerWrite_denied {a : BitVec 48} (hup : s.up = true) (hm : s.mayWrite r a.toNat = false) :
    exec (.registerWrite r a v) s = .next (tideCheck (s.denied r a.toNat)) := by
  change settled (s.guarded r a.toNat fun s => s.wrReg r a.toNat v) = _
  simp [State.guarded, hup, hm, settled]

/-- A permitted write whose effect is the plain one acts on the register's fields and on no other register (R16). -/
theorem registerWrite_plain {a : BitVec 48} (hup : s.up = true) (hm : s.mayWrite r a.toNat = true)
    (h : s.wrReg r a.toNat v = s.swWrite a.toNat v) {row : RegRow} (hrow : regRow? a.toNat = some row) :
    Settles (.registerWrite r a v) s fun t =>
      t.reg a.toNat = row.swWrite (s.reg a.toNat) v ∧ KeepsBut [.regs] s t ∧ RegsBut [a.toNat] s t :=
  ⟨_, by rw [exec_registerWrite_permitted hup hm, h], s.swWrite_effect hrow v⟩

/-- A permitted write of a register that the address map names acts so. -/
theorem registerWrite_written {a : Nat} (ha : a < 2 ^ 48) (hup : s.up = true) (hm : s.mayWrite r a = true)
    (h : s.wrReg r a v = s.swWrite a v) : ∀ row, regRow? a = some row →
    Settles (.registerWrite r (BitVec.ofNat 48 a) v) s fun t =>
      t.reg a = row.swWrite (s.reg a) v ∧ KeepsBut [.regs] s t ∧ RegsBut [a] s t := by
  intro row hrow
  have e : (BitVec.ofNat 48 a).toNat = a := by rw [BitVec.toNat_ofNat, Nat.mod_eq_of_lt ha]
  have := registerWrite_plain (a := BitVec.ofNat 48 a) (v := v) hup (by rwa [e]) (by rwa [e]) (by rwa [e])
  rwa [e] at this

/-- A permitted write that its register ignores changes nothing. -/
theorem registerWrite_ignored {a : Nat} (ha : a < 2 ^ 48) (hup : s.up = true) (hm : s.mayWrite r a = true)
    (h : s.wrReg r a v = s) : Settles (.registerWrite r (BitVec.ofNat 48 a) v) s fun t => t = s := by
  have e : (BitVec.ofNat 48 a).toNat = a := by rw [BitVec.toNat_ofNat, Nat.mod_eq_of_lt ha]
  exact ⟨s, by rw [exec_registerWrite_permitted hup (by rwa [e]), e, h], rfl⟩

/-! ### The registers named -/

theorem State.wrReg_plain (p : Fin 144) (q k : Fin 4) {a : Nat}
    (h : a ∈ [Reg.ISL_SEQ_WTO p, Reg.ISL_SEQ_EVT p, Reg.ACC_ERR p, Reg.SHL_ERR p, Reg.EBB_CNT_ROWS p, Reg.ISL_SENT_FIRST_TILE p,
      Reg.FRY_ERR q k, Reg.FRY_SUBMIT_LO q k, Reg.STR_EXPECT q k, Reg.STR_ERR q k, Reg.STR_TRK_TO q, Reg.TIDE_ERR,
      Reg.CHT_ERR q, Reg.FUU_CLIP q 1, Reg.BUOY_ERR q, Reg.BUOY_DUMP_ADDR_LO q, Reg.HBM_SCRUB q 0, Reg.PLT_CTXF, Reg.PLT_SHRWR,
      Reg.MGT_ALERT, Reg.MGT_ALERT_EN, Reg.MGT_STATUS, Reg.BOOT_ERR, Reg.BOOT_FL_ADDR, Reg.ISL_PSTATE p]) :
    s.wrReg r a v = s.swWrite a v := by
  have isl (off : Nat) (hlt : off < 0x10000) (ho : off ∈ [0x34, 0x38, 0x2008, 0x4008, 0x3020, 0x5014]) :
      s.wrReg r (islWin p + off) v = s.swWrite (islWin p + off) v := by
    rw [s.wrReg_isl r p hlt, s.wrIsl_plain p ho, s.mapped_swWrite]
  have qtr {a : Nat} (q : Fin 4) (off : Nat) (ha : a = qtrWin q + off) (hlt : off < 0x100000)
      (ho : s.wrQtr q off v = s.swWrite (qtrWin q + off) v) : s.wrReg r a v = s.swWrite a v := by
    rw [ha, s.wrReg_qtr r q hlt, ho, s.mapped_swWrite]
  have mod {a : Nat} (off : Nat) (ha : a = modWin + off) (ho : s.wrMod r off v = s.swWrite (modWin + off) v) :
      s.wrReg r a v = s.swWrite a v := by
    rw [ha, s.wrReg_mod, ho, s.mapped_swWrite]
  simp only [List.mem_cons, List.not_mem_nil, or_false] at h
  rcases h with rfl | rfl | rfl | rfl | rfl | rfl | rfl | rfl | rfl | rfl | rfl | rfl | rfl | rfl | rfl | rfl | rfl | rfl | rfl
    | rfl | rfl | rfl | rfl | rfl | rfl
  · exact isl 0x34 (by decide) (by decide)
  · exact isl 0x38 (by decide) (by decide)
  · exact isl 0x2008 (by decide) (by decide)
  · exact isl 0x4008 (by decide) (by decide)
  · exact isl 0x3020 (by decide) (by decide)
  · exact isl 0x5014 (by decide) (by decide)
  · exact qtr q (0x4 + k * 0x4000) (Nat.add_assoc _ _ _) (by omega) (s.wrQtr_ferry q (by omega) (by omega) v)
  · exact qtr q (0x10 + k * 0x4000) (Nat.add_assoc _ _ _) (by omega) (s.wrQtr_ferry q (by omega) (by omega) v)
  · exact qtr q (0x20000 + (0xC + k * 0x1000)) (by unfold Reg.STR_EXPECT; omega) (by omega)
      (s.wrQtr_strPort q k (by decide) (by decide) (by decide) v)
  · exact qtr q (0x20000 + (0x10 + k * 0x1000)) (by unfold Reg.STR_ERR; omega) (by omega)
      (s.wrQtr_strPort q k (by decide) (by decide) (by decide) v)
  · exact qtr q 0x25008 rfl (by decide) (s.wrQtr_plain q (by decide) v)
  · exact qtr 0 0x60030 rfl (by decide) ((s.wrQtr_tide 0 (by decide) v).trans (s.wrTide_err 0 v))
  · exact qtr q 0x80004 rfl (by decide) (s.wrQtr_plain q (by decide) v)
  · exact qtr q 0xA1030 rfl (by decide) (s.wrQtr_plain q (by decide) v)
  · exact qtr q 0x70000 rfl (by decide) (s.wrQtr_plain q (by decide) v)
  · exact qtr q 0x70008 rfl (by decide) (s.wrQtr_plain q (by decide) v)
  · exact qtr q 0x40004 rfl (by decide) (s.wrQtr_hbmScrub q v)
  · exact mod 0x40 rfl (s.wrMod_plain r (by decide) v)
  · exact mod 0x44 rfl (s.wrMod_plain r (by decide) v)
  · exact mod 0x20018 rfl (s.wrMod_plain r (by decide) v)
  · exact mod 0x2001C rfl (s.wrMod_plain r (by decide) v)
  · exact mod 0x20000 rfl (s.wrMod_plain r (by decide) v)
  · exact mod 0x30004 rfl (s.wrMod_plain r (by decide) v)
  · exact mod 0x30014 rfl (s.wrMod_plain r (by decide) v)
  · exact mod (0x40400 + p * 4) (Nat.add_assoc _ _ _) (s.wrMod_pstate r p v)

/-- PC, CTXID, the halves of s1 and up, and PRED of a context lie where a write needs that context stopped (R146). -/
theorem ctxRegister_offset (p : Fin 144) (c : Fin 2) (k : Fin 62) {a : Nat}
    (h : a ∈ [Reg.ISL_SEQ_PC p c, Reg.ISL_SEQ_CTXID p c, Reg.ISL_SEQ_SREG p c (k + 2), Reg.ISL_SEQ_PRED p c]) :
    ∃ off, a = islWin p + off ∧ stoppedOnly off = some c.val ∧ isS0 off = false := by
  have hk := k.isLt
  simp only [List.mem_cons, List.not_mem_nil, or_false] at h
  rcases h with rfl | rfl | rfl | rfl
  · exact ⟨0x10 + c * 4, Nat.add_assoc _ _ _, by revert c; decide, by revert c; decide⟩
  · exact ⟨0x18 + c * 4, Nat.add_assoc _ _ _, by revert c; decide, by revert c; decide⟩
  · refine ⟨0x100 + c * 0x100 + (k + 2) * 4, by unfold Reg.ISL_SEQ_SREG; omega, ?_, ?_⟩
    · rw [stoppedOnly, if_neg (by omega), if_pos (by omega)]
      congr 1; omega
    · simp only [isS0, Bool.and_eq_false_iff, decide_eq_false_iff_not]
      omega
  · exact ⟨0x300 + c * 4, Nat.add_assoc _ _ _, by revert c; decide, by revert c; decide⟩

theorem s0_offset (p : Fin 144) (c k : Fin 2) :
    ∃ off, Reg.ISL_SEQ_SREG p c k = islWin p + off ∧ stoppedOnly off = some c.val ∧ isS0 off = true :=
  ⟨0x100 + c * 0x100 + k * 4, by unfold Reg.ISL_SEQ_SREG; omega, by revert c k; decide, by revert c k; decide⟩

/-- EBB_DESC, SHL_CFG, ISL_SENT_CFG and ISL_SENT_KEY lie where a write needs both contexts stopped (R178, R247, R465). -/
theorem islRegister_offset (p : Fin 144) (i j : Fin 16) {a : Nat}
    (h : a ∈ [Reg.EBB_DESC p i j, Reg.SHL_CFG p, Reg.ISL_SENT_CFG p, Reg.ISL_SENT_KEY_LO p, Reg.ISL_SENT_KEY_HI p]) :
    ∃ off < 0x10000, a = islWin p + off ∧ bothStopped off = true := by
  simp only [List.mem_cons, List.not_mem_nil, or_false] at h
  rcases h with rfl | rfl | rfl | rfl | rfl
  · refine ⟨0x3100 + i * 0x40 + j * 4, by omega, by unfold Reg.EBB_DESC; omega, ?_⟩
    simp only [bothStopped, Bool.or_eq_true, Bool.and_eq_true, decide_eq_true_eq]
    omega
  · exact ⟨0x4004, by decide, rfl, by decide⟩
  · exact ⟨0x5000, by decide, rfl, by decide⟩
  · exact ⟨0x5004, by decide, rfl, by decide⟩
  · exact ⟨0x5008, by decide, rfl, by decide⟩

/-- The seed, the types of the Tides and the update units' tables take a write only while no program is loaded (R361, R369). -/
theorem State.wrReg_unloadedOnly (q : Fin 4) (k : Fin 16) (u : Fin 2) {a : Nat}
    (h : a ∈ [Reg.TIDE_SEED_LO, Reg.TIDE_SEED_HI, Reg.TIDE_FIRST, Reg.TIDE_CHILD, Reg.TIDE_TYPE k,
      Reg.FUU_TBL_LO q u, Reg.FUU_TBL_HI q u, Reg.FUU_TBL_N q u, Reg.FUU_T q u, Reg.FUU_BOFF_LO q u]) :
    a < 2 ^ 48 ∧ s.wrReg r a v = if !s.loaded then s.swWrite a v else s := by
  have tide {a : Nat} (o : Nat) (ha : a = qtrWin 0 + (0x60000 + o)) (hlt : o < 0x10000) (hf : tideFixed o = true)
      (h4 : o ≠ 0x004) : a < 2 ^ 48 ∧ s.wrReg r a v = if !s.loaded then s.swWrite a v else s := by
    rw [ha]
    exact ⟨by unfold qtrWin; omega, s.wrReg_tideFixed r hlt hf h4 v⟩
  have fuu {a : Nat} (o : Nat) (ha : a = qtrWin q + 0xA0000 + o + u * 0x1000)
      (ho : o ∈ fuuFixed) :
      a < 2 ^ 48 ∧ s.wrReg r a v = if !s.loaded then s.swWrite a v else s := by
    have hlt := (fuuFixed_bounds o ho).1
    rw [ha, Nat.add_assoc, Nat.add_assoc]
    exact ⟨by unfold qtrWin; omega, s.wrReg_fuuFixed r q u ho v⟩
  simp only [List.mem_cons, List.not_mem_nil, or_false] at h
  rcases h with rfl | rfl | rfl | rfl | rfl | rfl | rfl | rfl | rfl | rfl
  · exact tide 0x00C rfl (by decide) (by decide) (by decide)
  · exact tide 0x010 rfl (by decide) (by decide) (by decide)
  · exact tide 0x014 rfl (by decide) (by decide) (by decide)
  · exact tide 0x008 rfl (by decide) (by decide) (by decide)
  · exact tide (0x0C0 + k * 4) (by unfold Reg.TIDE_TYPE; omega) (by omega) (by revert k; decide) (by omega)
  · exact fuu 0x010 rfl (by decide)
  · exact fuu 0x014 rfl (by decide)
  · exact fuu 0x018 rfl (by decide)
  · exact fuu 0x028 rfl (by decide)
  · exact fuu 0x020 rfl (by decide)

/-- Settles O55, from the read of a register, the plain write, and the three conditions under which a register takes a write. -/
theorem registerAccess : Obligations.RegisterAccess := by
  refine ⟨fun r s hup => ⟨fun a hm => ⟨fun row hrow => ?_, fun hne => ?_, fun p hp => ?_, fun hn => ?_⟩, fun a hm => ?_,
    fun a v hm => ?_, fun a v hm hn => ?_, fun a v p q k row hm ha hrow => ?_⟩, fun r v p c q s hup => ⟨?_, ?_, ?_, ?_⟩⟩
  · exact rcCounterRead_register hup hm hrow
  · exact State.reg_congr (by rw [s.syncRead_other hne]) _
  · exact hp ▸ s.syncRead_status_shows p
  · exact rcCounterRead_unmapped hup hm hn
  · exact ⟨_, exec_rcCounterRead_denied hup hm, rfl, rfl, s.accessErr_respond_keeps _ _ _ _ _⟩
  · exact ⟨_, exec_registerWrite_denied hup hm, rfl, rfl, s.accessErr_respond_keeps _ _ _ _ _⟩
  · exact ⟨s, by rw [exec_registerWrite_permitted hup hm, s.wrReg_of_unmapped r hn], rfl⟩
  · exact registerWrite_plain hup hm (State.wrReg_plain p q k ha) hrow
  · intro a k ha hm
    obtain ⟨off, rfl, hoff, h0⟩ := ctxRegister_offset p c k ha
    have hlt : islWin p + off < 2 ^ 48 := by have := stoppedOnly_lt hoff; unfold islWin; omega
    have e := s.wrReg_stoppedOnly r p hoff v
    exact ⟨fun hs => registerWrite_written hlt hup hm (by simpa [h0, hs] using e),
      fun hs => registerWrite_ignored hlt hup hm (by simpa [h0, hs] using e)⟩
  · intro k hm
    obtain ⟨off, ha, hoff, h0⟩ := s0_offset p c k
    have hlt : islWin p + off < 2 ^ 48 := by have := stoppedOnly_lt hoff; unfold islWin; omega
    have e := s.wrReg_stoppedOnly r p hoff v
    rw [ha] at hm ⊢
    exact registerWrite_ignored hlt hup hm (by simpa [h0] using e)
  · intro a i j ha hm
    obtain ⟨off, hoff, rfl, hb⟩ := islRegister_offset p i j ha
    have hlt : islWin p + off < 2 ^ 48 := by unfold islWin; omega
    have e := s.wrReg_bothStopped r p hoff hb v
    exact ⟨fun hs => registerWrite_written hlt hup hm (by simpa [hs] using e),
      fun hs => registerWrite_ignored hlt hup hm (by simpa [hs] using e)⟩
  · intro a k u ha hm
    obtain ⟨hlt, e⟩ := State.wrReg_unloadedOnly (s := s) (r := r) (v := v) q k u ha
    exact ⟨fun hs => registerWrite_written hlt hup hm (by simpa [hs] using e),
      fun hs => registerWrite_ignored hlt hup hm (by simpa [hs] using e)⟩

end Sys2Proof.Machine
end


section
/-! SUPPORT. Commands run on a concrete state, and the statements of the organisation that such a run refutes: the end of a test
by the Pilot (R454), the trace point of a swap (R426), and a test section that does not have its digest (R468). -/

namespace Sys2Proof.Machine

/-- A part of the next state that a command answers, where it answers one. -/
def answer {α : Type} (i : Instr) (s : State) (f : State → α) : Option α :=
  match exec i s with
  | .next t => some (f t)
  | _ => none

/-- What a command is said to give holds of a state of which every part is as the command answers it. -/
theorem Gives.exists_answer {i : Instr} {s : State} {Q : State → Prop} (h : Gives i s Q) :
    ∃ t, Q t ∧ ∀ {α : Type} (f : State → α), answer i s f = some (f t) := by
  obtain ⟨t, ht, hq⟩ := h
  exact ⟨t, hq, fun f => by rw [answer, ht]⟩

/-! ### The release of an Island under test -/

/-- Island 0 is TESTING, and the firmware has it under test (R454). -/
def islandUnderTest : State :=
  { State.reset with
    regs := [(Reg.ISL_PSTATE 0, BitVec.ofNat 32 (Fd.ISL_PSTATE_STATE.place 3 + Fd.ISL_PSTATE_LOGICAL.place 0xFF))]
    fw := { underTest := [0] } }

/-- Refutes O17: a RELEASE by the Pilot of an Island under test ends that test in the firmware's records too (R454, R461), so that
it keeps more parts than the registers and the Islands. -/
theorem not_bindingsAndIslandTests : ¬ Obligations.BindingsAndIslandTests := by
  rintro ⟨-, commands⟩
  obtain ⟨-, release, -⟩ := commands (.pilot 0) 0 islandUnderTest rfl rfl (by decide +kernel)
  obtain ⟨t, ⟨⟨-, -, -, keeps⟩, -⟩, answers⟩ := (release (by decide +kernel)).exists_answer
  have hfw : t.fw = islandUnderTest.fw := keeps.2 .fw (by decide)
  have ended : answer (.release (.pilot 0) 0) islandUnderTest (fun t => t.fw.underTest) = some [] := by decide +kernel
  rw [answers, hfw] at ended
  exact absurd ended (by decide)

/-! ### A swap whose trace point is enabled -/

/-- A program is loaded, Island 0 is ACTIVE and Island 1 a SPARE. The trace point of a swap's start is enabled, and the header of the
log ring lies in a codeword of HBM3E that holds an uncorrectable error. -/
def tracedSwap : State :=
  { State.reset with
    regs := [(Reg.ISL_POLICY, BitVec.ofNat 32 (Fd.ISL_POLICY_LOADED.place 1)),
      (Reg.ISL_PSTATE 0, BitVec.ofNat 32 (Fd.ISL_PSTATE_STATE.place 1 + Fd.ISL_PSTATE_LOGICAL.place 0xFF)),
      (Reg.ISL_PSTATE 1, BitVec.ofNat 32 (Fd.ISL_PSTATE_STATE.place 2 + Fd.ISL_PSTATE_LOGICAL.place 0xFF))]
    cw := [(hbmBase 0, .ue)]
    fw := { trace := [0x020], logBase := hbmBase 0 } }

/-- Refutes O18: the record of the trace point at a swap's start is merged into the codeword of the ring's header, and where that is
uncorrectable its controller counts it (R273, R426): a register beside those of the swap. -/
theorem not_spareSwap : ¬ Obligations.SpareSwap := by
  rintro ⟨starts, -⟩
  obtain ⟨go, -⟩ := starts (.pilot 0) 0x100 tracedSwap rfl rfl rfl
  obtain ⟨t, ⟨-, -, -, -, -, -, -, regs, -⟩, answers⟩ :=
    (go rfl (by decide +kernel) (by decide +kernel)).exists_answer
  have kept : t.reg (memReg (.hbm 0) 0x034) = tracedSwap.reg (memReg (.hbm 0) 0x034) := regs _ (by decide +kernel)
  have counted : answer (.swapGo (.pilot 0) 0x100) tracedSwap (fun t => t.reg (memReg (.hbm 0) 0x034)) = some 1 := by
    decide +kernel
  rw [answers, kept] at counted
  exact absurd counted (by decide +kernel)

/-! ### Stage ISLANDS with a test section that does not have its digest -/

/-- Where the manifest of image A is read while the BYTES of its key manifest are erased flash (R472). -/
def erasedManifest : Nat := imgBase 0 + 0xFFFFFFFF

/-- Stage ISLANDS is due, the history is new and no Quarter is brought up, and every Island is SPARE already. The running image has
one section, the test suites, of no bytes and with a digest of zeros. -/
def badSuiteSection : State :=
  { State.reset with
    regs := (Reg.BOOT_STATUS, BitVec.ofNat 32 (Fd.BOOT_STATUS_STAGE.place 5))
      :: (List.range 144).map fun p => (Reg.ISL_PSTATE p, BitVec.ofNat 32 (Fd.ISL_PSTATE_STATE.place 2))
    mem := [(erasedManifest + 16, 1), (erasedManifest + 64, 3)]
    boot := { histNew := true, qUp := [] } }

/-- Refutes O50: where the Islands are healthy already, no Quarter falls short (R25), and a test section without its digest leaves
SHORT.ISLANDS clear. -/
theorem not_bootStages : ¬ Obligations.BootStages := by
  rintro ⟨stages, -⟩
  obtain ⟨-, -, islands⟩ := stages badSuiteSection
  obtain ⟨mismatch, -⟩ := (islands [] [] []).2 (by decide +kernel)
  have section3 : badSuiteSection.secAt badSuiteSection.ownImage 3 = some (erasedManifest + 64) := by decide +kernel
  have digest : badSuiteSection.secOk badSuiteSection.ownImage (erasedManifest + 64) = false := by decide +kernel
  obtain ⟨t, ⟨-, flagged, -⟩, answers⟩ := (mismatch fun ok => by
    rw [ok _ section3] at digest; exact Bool.noConfusion digest).exists_answer
  have clear : answer (.islands [] [] []) badSuiteSection (fun t => t.bootFld Fd.BOOT_STATUS_ISLANDS) = some 0 := by
    decide +kernel
  rw [answers, flagged] at clear
  exact absurd clear (by decide)

end Sys2Proof.Machine
end


section
/-! SUPPORT. An access within one codeword: all its bytes lie in one region, in one controller, and share one outcome (R36 to R38,
R268). -/

namespace Sys2Proof.Machine

/-- The region of an address is that of its codeword. -/
theorem region_congr {a b : Nat} (h : a / 32 = b / 32) : region a = region b := by
  unfold region
  iterate 9 refine if_congr (by omega) rfl ?_
  refine if_congr (by omega) (congrArg _ (by omega)) ?_
  refine if_congr (by omega) (congrArg _ (by omega)) ?_
  refine if_congr (by omega) (congrArg _ (by omega)) ?_
  refine if_congr (by omega) (congrArg _ (by omega)) ?_
  iterate 2 refine if_congr (by omega) rfl ?_
  rfl

theorem lpxChannel_congr {a b : Nat} (h : a / 32 = b / 32) : lpxChannel a = lpxChannel b := by
  have : (a - lpxBase) / 128 = (b - lpxBase) / 128 := by unfold lpxBase; omega
  rw [lpxChannel, this]; rfl

theorem memUnitOf_congr {a b : Nat} (h : a / 32 = b / 32) : memUnitOf a = memUnitOf b := by
  simp only [memUnitOf, region_congr h, lpxChannel_congr h]

theorem State.accessKind_congr (s : State) {a b : Nat} (h : a / 32 = b / 32) (wr : Bool) :
    s.accessKind a wr = s.accessKind b wr := by
  simp only [State.accessKind, region_congr h, lpxChannel_congr h]

theorem State.cwAt_congr (s : State) {a b : Nat} (h : a / 32 = b / 32) : s.cwAt a = s.cwAt b := by
  simp only [State.cwAt, h]

/-- Where the symbol code holds, a byte is none of a register, an accumulator, the flash and the outbound window. -/
theorem region_of_memUnitOf {a : Nat} {m : MemUnit} (h : memUnitOf a = some m) :
    (∃ p, region a = .lag p) ∨ (∃ p, region a = .prog p) ∨ (∃ k, region a = .hbm k) ∨ region a = .lpx := by
  revert h
  unfold memUnitOf
  cases region a <;> simp

theorem cwSpan_within {a n : Nat} (hn : 1 ≤ n) (h : a % 32 + n ≤ 32) : cwSpan a n = 1 := by
  rw [cwSpan, if_neg (by omega)]
  omega

theorem linePieces_within {a n : Nat} (hn : 1 ≤ n) (h : a % 32 + n ≤ 32) : linePieces 2 a n = [(a, n)] := by
  rw [linePieces, if_neg (by omega), if_pos (by omega)]

theorem State.rangeKind_within (s : State) {a n : Nat} (hn : 1 ≤ n) (h : a % 32 + n ≤ 32) (wr : Bool) :
    s.rangeKind a n wr = s.accessKind a wr := by
  rw [State.rangeKind, s.accessKind_congr (show (a + n - 1) / 32 = a / 32 by omega), ite_self]

/-! ### Reads -/

theorem State.readMem_within (s : State) {a n : Nat} (hn : 1 ≤ n) (h : a % 32 + n ≤ 32) (req lisl : Nat) :
    s.readMem a n req lisl = (s.bytes a n, s.checkCw (a / 32 * 32) req lisl) := by
  have hb : (s.checkCw (a / 32 * 32) req lisl).2.bytes a n = s.bytes a n := by
    simp only [State.bytes, State.byte, State.checkCw_mem]
  simp [State.readMem, cwSpan_within hn h, State.checkCws, hb]

/-- A read of bytes of one codeword that carries the symbol code. -/
theorem State.busRead_within (s : State) {a n : Nat} {m : MemUnit} (hn : 1 ≤ n) (h : a % 32 + n ≤ 32)
    (hm : memUnitOf a = some m) (req lisl : Nat) : s.busRead a n req lisl =
      if s.accessKind a false ≠ 0 then
        ⟨s.accessKind a false, List.replicate n 0, false, s.accessErr a req false (s.accessKind a false)⟩
      else ⟨0, s.bytes a n, (s.checkCw (a / 32 * 32) req lisl).1, (s.checkCw (a / 32 * 32) req lisl).2⟩ := by
  rw [State.busRead, s.rangeKind_within hn h, s.readMem_within hn h]
  rcases region_of_memUnitOf hm with ⟨p, e⟩ | ⟨p, e⟩ | ⟨k, e⟩ | e <;> rw [e]

theorem State.flashWaits_of_memUnitOf (s : State) {a : Nat} {m : MemUnit} (hm : memUnitOf a = some m) :
    s.flashWaits a = false := by
  rcases region_of_memUnitOf hm with ⟨p, e⟩ | ⟨p, e⟩ | ⟨k, e⟩ | e <;> simp [State.flashWaits, e]

theorem region_ne_regs_of_memUnitOf {a : Nat} {m : MemUnit} (hm : memUnitOf a = some m) : region a ≠ .regs := by
  rcases region_of_memUnitOf hm with ⟨p, e⟩ | ⟨p, e⟩ | ⟨k, e⟩ | e <;> simp [e]

/-- A load of a Pilot core from one codeword (R37, R272). -/
theorem State.coreLoad_within (s : State) (c : Fin 4) {a n : Nat} {m : MemUnit} (hn : 1 ≤ n) (h : a % 32 + n ≤ 32)
    (hm : memUnitOf a = some m) : s.coreLoad (.pilot c) a n =
      if s.accessKind a false ≠ 0 then
        (s.accessErr a 9 false (s.accessKind a false)).respond (.err (s.accessKind a false) (List.replicate n 0))
      else (s.checkCw (a / 32 * 32) 9 0xFF).2.respond
        (if (s.checkCw (a / 32 * 32) 9 0xFF).1 then .err 5 (s.bytes a n) else .data (s.bytes a n)) := by
  have hm' : memUnitOf (a + n - 1) = some m := by rw [memUnitOf_congr (show (a + n - 1) / 32 = a / 32 by omega), hm]
  have hr : reqCode (.pilot c) = 9 := rfl
  have hq : (Requester.pilot c == .mgmt) = false := rfl
  simp only [State.coreLoad, s.flashWaits_of_memUnitOf hm, s.flashWaits_of_memUnitOf hm', linePieces_within hn h, hq,
    State.readPieces, State.readPiece, region_ne_regs_of_memUnitOf hm, s.busRead_within hn h hm, hr]
  by_cases hk : s.accessKind a false = 0
  · simp [hk]
  · simp [hk]

end Sys2Proof.Machine
end


section
/-! SUPPORT. The records of a codeword error (R271 to R273, R287): which registers of its controller they write, and that they write
nothing else. -/

namespace Sys2Proof.Machine

variable (s : State) (m : MemUnit)

/-! ### The registers of a controller -/

@[simp] theorem memReg_inj {i j : Nat} : memReg m i = memReg m j ↔ i = j := by
  cases m <;> simp [memReg]

/-- A controller's registers lie apart from those of the module. -/
theorem memReg_ne_of_modWin_le {off a : Nat} (h : off < 0x1000) (ha : modWin ≤ a) : memReg m off ≠ a := by
  cases m <;> simp only [memReg, islWin, qtrWin, modWin] at ha ⊢ <;> omega

/-! ### Frames -/

theorem RegsBut.mono {as bs : List Nat} {s t : State} (h : RegsBut as s t) (hs : as ⊆ bs) : RegsBut bs s t :=
  fun a ha => h a fun hm => ha (hs hm)

theorem RegsBut.of_regs_eq {as : List Nat} {s t : State} (h : t.regs = s.regs) : RegsBut as s t :=
  fun a _ => State.reg_congr h a

theorem State.report_keeps (k : EventKind) (u a b : Nat) : KeepsBut [.events] s (s.report k u a b) := by
  refine ⟨rfl, fun p hp => ?_⟩
  cases p with
  | events => exact absurd (List.mem_singleton.2 rfl) hp
  | _ => rfl

theorem State.setCw_keeps (a : Nat) (e : CwErr) : KeepsBut [.cw] s (s.setCw a e) := by
  refine ⟨rfl, fun p hp => ?_⟩
  cases p with
  | cw => exact absurd (List.mem_singleton.2 rfl) hp
  | _ => rfl

theorem State.setByte_keeps (a : Nat) (v : Byte) : KeepsBut [.mem] s (s.setByte a v) := by
  refine ⟨rfl, fun p hp => ?_⟩
  cases p with
  | mem => exact absurd (List.mem_singleton.2 rfl) hp
  | _ => rfl

theorem State.setBytes_keeps (s : State) (a : Nat) (bs : List Byte) : KeepsBut [.mem] s (s.setBytes a bs) := by
  induction bs generalizing s a with
  | nil => exact .refl _ s
  | cons b bs ih => exact ((s.setByte_keeps a b).trans (ih _ _)).mono (by simp)

/-! ### Event bits, 64-bit registers -/

theorem State.setErr_keeps (a : Nat) (f g : Fld) : KeepsBut [.regs] s (s.setErr a f g) := by
  unfold State.setErr
  split <;> exact s.setReg_keeps _ _

theorem State.setErr_regsBut (a : Nat) (f g : Fld) : RegsBut [a] s (s.setErr a f g) := by
  unfold State.setErr
  split <;> exact s.setReg_regsBut _ _

/-- The first of two event bits is set after either event. -/
theorem State.bit_setErr (a : Nat) {f g : Fld} (hf : f.lo + f.w ≤ 32) (hg : g.lo + g.w ≤ 32) (hw : f.w = 1)
    (d : f.lo + f.w ≤ g.lo ∨ g.lo + g.w ≤ f.lo) : (s.setErr a f g).bit a f = true := by
  unfold State.setErr
  split
  case isTrue h => rw [State.bit, s.fld_setFld_disjoint a g f 1 hg d]; exact h
  case isFalse => rw [State.bit, s.fld_setFld_same a f 1 hf, hw]; rfl

/-- A 64-bit value that two registers take is read back from them. -/
theorem State.reg64_setReg64 {lo hi v : Nat} (h : lo ≠ hi) (hv : v < 2 ^ 64) : (s.setReg64 lo hi v).reg64 lo hi = v := by
  simp only [State.reg64, State.setReg64, State.reg_setReg, h, if_true, if_false, BitVec.toNat_ofNat]
  omega

theorem State.reg64_congr {s t : State} {lo hi : Nat} (hl : t.reg lo = s.reg lo) (hh : t.reg hi = s.reg hi) :
    t.reg64 lo hi = s.reg64 lo hi := by
  rw [State.reg64, hl, hh]; rfl

theorem State.bit_congr {s t : State} {a : Nat} (h : t.reg a = s.reg a) (f : Fld) : t.bit a f = s.bit a f := by
  rw [State.bit, State.fld, h]; rfl

/-- The symbol that an INFO word names. -/
theorem memInfo_symbol {sym : Nat} (h : sym < 128) (loc req lisl : Nat) (poison : Bool) :
    Fd.HBM_CE_INFO_SYMBOL.get (memInfo sym loc req lisl poison) = sym := by
  simp only [Fld.get, memInfo, BitVec.toNat_ofNat, Fd.HBM_CE_INFO_SYMBOL]
  split <;> omega

/-! ### The record of an error -/

/-- The record of an error of a kind with event bits `f` and `g` and address registers at `o`: the first one's address and INFO are
held, and its event bit is set (R287). -/
def State.firstErr (f g : Fld) (o cwa : Nat) (info : Word) : State :=
  (if s.bit (memReg m 0x010) f then s
    else (s.setReg64 (memReg m o) (memReg m (o + 4)) cwa).setReg (memReg m (o + 8)) info).setErr (memReg m 0x010) f g

theorem State.recordCe_eq (a sym req lisl : Nat) : s.recordCe m a sym req lisl =
    ((s.firstErr m Fd.HBM_ERR_CE Fd.HBM_ERR_CE_MULTI 0x014 (a / 32 * 32) (memInfo sym (memLoc a) req lisl false)).count
      (memReg m 0x030) 1).report .memCe (a / 32 * 32) sym (req + lisl * 16) := rfl

theorem State.recordUe_eq (a req lisl : Nat) (poison : Bool) : s.recordUe m a req lisl poison =
    ((s.firstErr m Fd.HBM_ERR_UE Fd.HBM_ERR_UE_MULTI 0x020 (a / 32 * 32) (memInfo 0x7F (memLoc a) req lisl poison)).count
      (memReg m (if poison then 0x038 else 0x034)) 1).report (if poison then .memPoison else .memUe) (a / 32 * 32) 0x7F
      (req + lisl * 16) := rfl

section
variable (f g : Fld) (o cwa : Nat) (info : Word)

theorem State.firstErr_keeps : KeepsBut [.regs] s (s.firstErr m f g o cwa info) := by
  refine KeepsBut.mono (.trans ?_ (State.setErr_keeps _ _ _ _)) (List.append_subset.2 ⟨List.Subset.refl _, List.Subset.refl _⟩)
  split
  · exact .refl _ s
  · exact ((s.setReg_keeps _ _).trans ((State.setReg_keeps _ _ _).trans (State.setReg_keeps _ _ _))).mono (by simp)

theorem State.firstErr_regsBut :
    RegsBut [memReg m 0x010, memReg m o, memReg m (o + 4), memReg m (o + 8)] s (s.firstErr m f g o cwa info) := by
  refine RegsBut.trans ?_ ((State.setErr_regsBut _ _ f g).mono (by simp))
  split
  · exact .refl _ s
  · exact ((s.setReg_regsBut _ _).mono (by simp)).trans
      (((State.setReg_regsBut _ _ _).mono (by simp)).trans ((State.setReg_regsBut _ _ _).mono (by simp)))

variable {f g o cwa}

theorem State.firstErr_bit (hf : f.lo + f.w ≤ 32) (hg : g.lo + g.w ≤ 32) (hw : f.w = 1)
    (d : f.lo + f.w ≤ g.lo ∨ g.lo + g.w ≤ f.lo) : (s.firstErr m f g o cwa info).bit (memReg m 0x010) f = true :=
  State.bit_setErr _ _ hf hg hw d

/-- The first error's address and INFO are held. -/
theorem State.firstErr_holds (ho : 0x010 < o) (hc : cwa < 2 ^ 64) (h : s.bit (memReg m 0x010) f = false) :
    (s.firstErr m f g o cwa info).reg64 (memReg m o) (memReg m (o + 4)) = cwa
      ∧ (s.firstErr m f g o cwa info).reg (memReg m (o + 8)) = info := by
  have other {i : Nat} (hi : 0x010 < i) (u : State) : (u.setErr (memReg m 0x010) f g).reg (memReg m i) = u.reg (memReg m i) :=
    u.setErr_regsBut _ f g _ (by simp; omega)
  rw [State.firstErr, h, if_neg Bool.false_ne_true, State.reg64_congr (other ho _) (other (by omega) _), other (by omega)]
  refine ⟨?_, State.reg_setReg_same _ _ _⟩
  rw [State.reg64_congr (State.reg_setReg_other _ _ (by simp)) (State.reg_setReg_other _ _ (by simp))]
  exact s.reg64_setReg64 (by simp) hc

end

variable {a sym : Nat} (req lisl : Nat)

/-- The record of a correctable error (R271, R287). -/
theorem State.recordCe_effect (ha : a < 2 ^ 64) (hs : sym < 128) : let t := s.recordCe m a sym req lisl
    (t.reg (memReg m 0x030)).toNat = min ((s.reg (memReg m 0x030)).toNat + 1) 0xFFFFFFFF
      ∧ t.bit (memReg m 0x010) Fd.HBM_ERR_CE = true
      ∧ (s.bit (memReg m 0x010) Fd.HBM_ERR_CE = false → t.reg64 (memReg m 0x014) (memReg m 0x018) = a / 32 * 32
          ∧ t.fld (memReg m 0x01C) Fd.HBM_CE_INFO_SYMBOL = sym)
      ∧ KeepsBut [.regs, .events] s t := by
  intro t
  let u := s.firstErr m Fd.HBM_ERR_CE Fd.HBM_ERR_CE_MULTI 0x014 (a / 32 * 32) (memInfo sym (memLoc a) req lisl false)
  have ht : t = (u.count (memReg m 0x030) 1).report .memCe (a / 32 * 32) sym (req + lisl * 16) :=
    s.recordCe_eq m a sym req lisl
  have other {i : Nat} (hi : i ≠ 0x030) : t.reg (memReg m i) = u.reg (memReg m i) := by
    rw [ht, State.reg_congr (State.report_regs _ _ _ _ _), State.reg_count, if_neg (by simpa using hi)]
  refine ⟨?_, ?_, fun h => ?_, ?_⟩
  · rw [ht, State.reg_congr (State.report_regs _ _ _ _ _), State.count_toNat,
      s.firstErr_regsBut m _ _ _ _ _ (memReg m 0x030) (by simp)]
  · rw [State.bit_congr (other (by decide))]
    exact s.firstErr_bit m _ (by decide) (by decide) rfl (by decide)
  · obtain ⟨haddr, hinfo⟩ := s.firstErr_holds m (g := Fd.HBM_ERR_CE_MULTI) (o := 0x014) (cwa := a / 32 * 32)
      (memInfo sym (memLoc a) req lisl false) (by decide) (by omega) h
    rw [State.reg64_congr (other (by decide)) (other (by decide)), State.fld, other (by decide), hinfo]
    exact ⟨haddr, memInfo_symbol hs _ _ _ _⟩
  · exact ((s.firstErr_keeps m _ _ _ _ _).trans ((State.setReg_keeps _ _ _).trans (State.report_keeps _ _ _ _ _))).mono (by simp)

/-- The record of an uncorrectable error or of poison (R272, R287). -/
theorem State.recordUe_effect (ha : a < 2 ^ 64) (poison : Bool) : let t := s.recordUe m a req lisl poison
    let o := if poison then 0x038 else 0x034
    (t.reg (memReg m o)).toNat = min ((s.reg (memReg m o)).toNat + 1) 0xFFFFFFFF
      ∧ t.bit (memReg m 0x010) Fd.HBM_ERR_UE = true
      ∧ (s.bit (memReg m 0x010) Fd.HBM_ERR_UE = false → t.reg64 (memReg m 0x020) (memReg m 0x024) = a / 32 * 32)
      ∧ RegsBut [memReg m 0x010, memReg m 0x020, memReg m 0x024, memReg m 0x028, memReg m o] s t
      ∧ KeepsBut [.regs, .events] s t := by
  intro t o
  let info := memInfo 0x7F (memLoc a) req lisl poison
  let u := s.firstErr m Fd.HBM_ERR_UE Fd.HBM_ERR_UE_MULTI 0x020 (a / 32 * 32) info
  have ht : t = (u.count (memReg m o) 1).report (if poison then .memPoison else .memUe) (a / 32 * 32) 0x7F (req + lisl * 16) :=
    s.recordUe_eq m a req lisl poison
  have ho : 0x028 < o := by cases poison <;> decide
  have hu : RegsBut [memReg m 0x010, memReg m 0x020, memReg m 0x024, memReg m 0x028] s u := s.firstErr_regsBut m _ _ _ _ _
  have hr : t.reg = (u.count (memReg m o) 1).reg := funext (State.reg_congr (State.report_regs _ _ _ _ _))
  have other {i : Nat} (hi : i ≤ 0x028) : t.reg (memReg m i) = u.reg (memReg m i) := by
    rw [hr, State.reg_count, if_neg (by simp; omega)]
  refine ⟨?_, ?_, fun h => ?_, ?_, ?_⟩
  · rw [hr, State.count_toNat, hu _ (by simp; omega)]
  · rw [State.bit_congr (other (by decide))]
    exact s.firstErr_bit m _ (by decide) (by decide) rfl (by decide)
  · rw [State.reg64_congr (other (by decide)) (other (by decide))]
    exact (s.firstErr_holds m info (by decide) (by omega) h).1
  · refine (hu.mono (by simp)).trans (RegsBut.trans ((State.setReg_regsBut _ (memReg m o) _).mono (by simp)) (.of_regs_eq rfl))
  · exact ((s.firstErr_keeps m _ _ _ _ _).trans ((State.setReg_keeps _ _ _).trans (State.report_keeps _ _ _ _ _))).mono (by simp)

/-- The records of a controller leave the module's registers alone. -/
theorem State.recordUe_reg_module (ha : a < 2 ^ 64) (poison : Bool) {b : Nat} (hb : modWin ≤ b) :
    (s.recordUe m a req lisl poison).reg b = s.reg b := by
  obtain ⟨-, -, -, hregs, -⟩ := s.recordUe_effect m req lisl ha poison
  have apart {off : Nat} (ho : off < 0x1000) : b ≠ memReg m off := (memReg_ne_of_modWin_le m ho hb).symm
  exact hregs b (by cases poison <;> simp [apart])

end Sys2Proof.Machine
end


section
/-! SUPPORT. A load and a store of a Pilot core within one codeword (R37, R38, R271 to R273). -/

namespace Sys2Proof.Machine

variable (s : State)

/-! ### The read of a codeword -/

section
variable {a : Nat} {m : MemUnit} (hm : memUnitOf a = some m) (req lisl : Nat)
include hm

theorem State.checkCw_of_ok (h : s.cwAt a = .ok) : s.checkCw a req lisl = (false, s) := by
  simp [State.checkCw, hm, h]

theorem State.checkCw_of_ce {sym : Fin 68} (h : s.cwAt a = .ce sym) :
    s.checkCw a req lisl = (false, s.recordCe m a sym req lisl) := by
  simp [State.checkCw, hm, h]

/-- A bad codeword: uncorrectable, or poisoned. -/
theorem State.checkCw_of_bad {poison : Bool} (h : s.cwAt a = if poison then .poison else .ue) :
    s.checkCw a req lisl = (true, s.recordUe m a req lisl poison) := by
  cases poison <;> simp_all [State.checkCw]

end

/-! ### Stores while no swap copies -/

theorem State.mirrorAddr_of_idle (h : s.bit Reg.ISL_SWAP_CTL Fd.ISL_SWAP_CTL_GO = false) (a : Nat) : s.mirrorAddr a = none := by
  simp [State.mirrorAddr, h]

theorem State.storeCw_of_idle (h : s.bit Reg.ISL_SWAP_CTL Fd.ISL_SWAP_CTL_GO = false) (a : Nat) (e : CwErr) :
    s.storeCw a e = s.setCw a e := by
  simp [State.storeCw, s.mirrorAddr_of_idle h]

theorem State.store_of_idle {s : State} (h : s.bit Reg.ISL_SWAP_CTL Fd.ISL_SWAP_CTL_GO = false) (a : Nat) (bs : List Byte) :
    s.store a bs = s.setBytes a bs := by
  induction bs generalizing s a with
  | nil => rfl
  | cons b bs ih =>
    have hb : s.storeByte a b = s.setByte a b := by simp [State.storeByte, s.mirrorAddr_of_idle h]
    rw [State.store, State.setBytes, hb, ih]
    rwa [State.bit_congr (State.reg_congr (State.setByte_regs s a b) _)]

theorem State.bytes_setBytes_same (a : Nat) (bs : List Byte) : (s.setBytes a bs).bytes a bs.length = bs := by
  apply List.ext_getElem
  · simp [State.bytes]
  · intro i h₁ h₂
    simp [State.bytes, State.byte_setBytes, h₂]

theorem State.setBytes_bytesBut (a : Nat) (bs : List Byte) : BytesBut a bs.length s (s.setBytes a bs) := by
  intro b hb
  rw [State.byte_setBytes, if_neg hb]

theorem State.cwAt_setCw (a b : Nat) (e : CwErr) : (s.setCw a e).cwAt b = if b / 32 = a / 32 then e else s.cwAt b := by
  rw [State.cwAt, State.setCw, tget_tset]
  exact if_congr (by omega) rfl rfl

/-! ### Writes within one codeword -/

section
variable {a : Nat} {d : List Byte} (hn : 1 ≤ d.length) (h : a % 32 + d.length ≤ 32)
include hn h

theorem State.writeMem_within (req lisl : Nat) : s.writeMem a d req lisl =
    ((s.writeCw (a / 32 * 32) a (a + d.length) req lisl).1,
      (s.writeCw (a / 32 * 32) a (a + d.length) req lisl).2.store a d) := by
  simp [State.writeMem, cwSpan_within hn h, State.writeCws]

/-- A write of bytes of one codeword that carries the symbol code. -/
theorem State.busWrite_within {m : MemUnit} (hm : memUnitOf a = some m) (req lisl : Nat) : s.busWrite a d req lisl =
      if s.accessKind a true ≠ 0 then ⟨s.accessKind a true, [], false, s.accessErr a req true (s.accessKind a true)⟩
      else ⟨0, [], (s.writeCw (a / 32 * 32) a (a + d.length) req lisl).1,
        (s.writeCw (a / 32 * 32) a (a + d.length) req lisl).2.store a d⟩ := by
  rw [State.busWrite, s.rangeKind_within hn h, s.writeMem_within hn h]
  rcases region_of_memUnitOf hm with ⟨p, e⟩ | ⟨p, e⟩ | ⟨k, e⟩ | e <;> rw [e]

/-- A store of a Pilot core to one codeword (R37, R273). -/
theorem State.coreStore_within (c : Fin 4) {m : MemUnit} (hm : memUnitOf a = some m) : s.coreStore (.pilot c) a d =
      if s.accessKind a true ≠ 0 then
        (s.accessErr a 9 true (s.accessKind a true)).respond (.err (s.accessKind a true) [])
      else ((s.writeCw (a / 32 * 32) a (a + d.length) 9 0xFF).2.store a d).respond
        (if (s.writeCw (a / 32 * 32) a (a + d.length) 9 0xFF).1 then .err 5 [] else .data []) := by
  have hr : reqCode (.pilot c) = 9 := rfl
  have hp : s.mayStore (.pilot c) a d.length = true := rfl
  simp only [State.coreStore, hp, linePieces_within hn h, State.writePieces, State.writePiece,
    region_ne_regs_of_memUnitOf hm, List.take_length, s.busWrite_within hn h hm, hr]
  by_cases hk : s.accessKind a true = 0
  · simp [hk]
  · simp [hk]

end

/-- The records of a write that merges into a bad codeword: that of its read, and that of the codeword it poisons (R273). -/
def State.mergeRecord (m : MemUnit) (cwa req lisl : Nat) (poison : Bool) : State :=
  (s.recordUe m cwa req lisl poison).count (memReg m 0x038) 1

theorem State.mergeRecord_effect (m : MemUnit) {cwa : Nat} (req lisl : Nat) (ha : cwa < 2 ^ 64) (poison : Bool) :
    let t := s.mergeRecord m cwa req lisl poison
    (t.reg (memReg m 0x038)).toNat = min ((s.reg (memReg m 0x038)).toNat + (if poison then 2 else 1)) 0xFFFFFFFF
      ∧ t.bit Reg.ISL_SWAP_CTL Fd.ISL_SWAP_CTL_GO = s.bit Reg.ISL_SWAP_CTL Fd.ISL_SWAP_CTL_GO
      ∧ KeepsBut [.regs, .events] s t := by
  intro t
  obtain ⟨hcount, -, -, hregs, hkeeps⟩ := s.recordUe_effect m req lisl ha poison
  have ht : (t.reg (memReg m 0x038)).toNat
      = min (((s.recordUe m cwa req lisl poison).reg (memReg m 0x038)).toNat + 1) 0xFFFFFFFF := State.count_toNat _ _ _
  refine ⟨?_, State.bit_congr ?_ _, (hkeeps.trans (State.setReg_keeps _ _ _)).mono (by simp)⟩
  · cases poison with
    | false => rw [ht, hregs _ (by simp)]; rfl
    | true =>
      simp only [if_true] at hcount ⊢
      rw [ht, hcount]
      omega
  · exact (State.reg_setReg_other _ _ (memReg_ne_of_modWin_le m (by decide) (by decide)).symm).trans
      (s.recordUe_reg_module m req lisl ha poison (by decide))

section
variable {cwa lo hi : Nat} {m : MemUnit} (hm : memUnitOf cwa = some m) (hgo : s.bit Reg.ISL_SWAP_CTL Fd.ISL_SWAP_CTL_GO = false)
  (req lisl : Nat)
include hm hgo

/-- A write of all 32 bytes of a codeword, and one that merges into a clean codeword, leave it clean (R273). -/
theorem State.writeCw_of_clean (h : (lo ≤ cwa ∧ cwa + 32 ≤ hi) ∨ s.cwAt cwa = .ok) :
    s.writeCw cwa lo hi req lisl = (false, s.setCw cwa .ok) := by
  by_cases hfull : lo ≤ cwa ∧ cwa + 32 ≤ hi
  · simp [State.writeCw, hm, hfull, s.storeCw_of_idle hgo]
  · simp [State.writeCw, hm, hfull, s.checkCw_of_ok hm _ _ (h.resolve_left hfull), s.storeCw_of_idle hgo]

/-- A write that merges into a bad codeword records the read and writes the codeword back poisoned, which counts as well (R273). -/
theorem State.writeCw_of_bad {poison : Bool} (hp : ¬(lo ≤ cwa ∧ cwa + 32 ≤ hi)) (ha : cwa < 2 ^ 64)
    (h : s.cwAt cwa = if poison then .poison else .ue) :
    s.writeCw cwa lo hi req lisl = (true, (s.mergeRecord m cwa req lisl poison).setCw cwa .poison) := by
  have idle : (s.recordUe m cwa req lisl poison).bit Reg.ISL_SWAP_CTL Fd.ISL_SWAP_CTL_GO = false := by
    rw [State.bit_congr (s.recordUe_reg_module m req lisl ha poison (by decide)), hgo]
  simp only [State.writeCw, hm, hp, s.checkCw_of_bad hm _ _ h, State.storeCw_of_idle _ idle, if_false, if_true]
  rfl

end

/-! ### The two commands -/

section
variable {s} {c : Fin 4} (hup : s.up = true)
include hup

theorem settles_coreLoad {a : BitVec 48} {n : Nat} {Q : State → Prop} (hn : 1 ≤ n) (h : a.toNat % 32 + n ≤ 32)
    (hq : Q (s.coreLoad (.pilot c) a.toNat n)) : Settles (.coreMemoryAccess (.pilot c) (.rd a n)) s Q := by
  refine ⟨_, ?_, hq⟩
  change execCoreMemoryAccess _ _ s = _
  have hs : accessSized (.rd a n) = true := by simp [accessSized]; omega
  simp [execCoreMemoryAccess, hs, hup, settled]

theorem settles_coreStore {a : BitVec 48} {d : List Byte} {Q : State → Prop} (hn : 1 ≤ d.length)
    (h : a.toNat % 32 + d.length ≤ 32) (hq : Q (s.coreStore (.pilot c) a.toNat d)) :
    Settles (.coreMemoryAccess (.pilot c) (.wr a d)) s Q := by
  refine ⟨_, ?_, hq⟩
  change execCoreMemoryAccess _ _ s = _
  have hs : accessSized (.wr a d) = true := by simp [accessSized]; omega
  simp [execCoreMemoryAccess, hs, hup, settled]

end

/-! ### The outcomes -/

/-- What a store leaves of its bytes and of its codeword's condition. -/
theorem State.stored_effect (a : Nat) (d : List Byte) (e : CwErr) (r : BusRsp) :
    let t := ((s.setCw (a / 32 * 32) e).setBytes a d).respond r
    (t.bytes a d.length = d ∧ BytesBut a d.length s t) ∧ t.cwAt a = e ∧ (∀ x, x / 32 ≠ a / 32 → t.cwAt x = s.cwAt x)
      ∧ KeepsBut [.bus, .mem, .cw] s t := by
  intro t
  let u := s.setCw (a / 32 * 32) e
  have hcw (x : Nat) : t.cwAt x = if x / 32 = a / 32 then e else s.cwAt x := by
    have : t.cw = u.cw := (u.setBytes_keeps a d).2 .cw (by decide)
    have hline : (a / 32 * 32) / 32 = a / 32 := by omega
    rw [State.cwAt, this, ← hline]
    exact s.cwAt_setCw _ x e
  exact ⟨⟨u.bytes_setBytes_same a d, u.setBytes_bytesBut a d⟩, by rw [hcw, if_pos rfl], fun x hx => by rw [hcw, if_neg hx],
    ((s.setCw_keeps _ _).trans ((State.setBytes_keeps _ _ _).trans (State.respond_keeps _ _))).mono (by simp)⟩

/-- A load that meets an uncorrectable error or poison (R272). -/
theorem coreLoad_bad {s : State} {c : Fin 4} {a n : Nat} {m : MemUnit} (hn : 1 ≤ n) (h : a % 32 + n ≤ 32)
    (hm : memUnitOf a = some m) (ha : a < 2 ^ 64) (hk : s.accessKind a false = 0) {poison : Bool}
    (hcw : s.cwAt a = if poison then .poison else .ue) : let t := s.coreLoad (.pilot c) a n
    let o := if poison then 0x038 else 0x034
    (t.bus = .err 5 (s.bytes a n) ∧ t.bit (memReg m 0x010) Fd.HBM_ERR_UE = true
      ∧ (s.bit (memReg m 0x010) Fd.HBM_ERR_UE = false → t.reg64 (memReg m 0x020) (memReg m 0x024) = a / 32 * 32)
      ∧ KeepsBut [.bus, .regs, .events] s t)
    ∧ (t.reg (memReg m o)).toNat = min ((s.reg (memReg m o)).toNat + 1) 0xFFFFFFFF := by
  intro t o
  have hline : (a / 32 * 32) / 32 = a / 32 := by omega
  have ht : t = (s.recordUe m (a / 32 * 32) 9 0xFF poison).respond (.err 5 (s.bytes a n)) := by
    have e := s.coreLoad_within c hn h hm
    rw [s.checkCw_of_bad ((memUnitOf_congr hline).trans hm) 9 0xFF ((s.cwAt_congr hline).trans hcw)] at e
    simpa [hk] using e
  obtain ⟨hcount, hbit, haddr, -, hkeeps⟩ := s.recordUe_effect m 9 0xFF (show a / 32 * 32 < 2 ^ 64 by omega) poison
  rw [hline] at haddr
  rw [ht]
  exact ⟨⟨rfl, hbit, haddr, (hkeeps.trans (State.respond_keeps _ _)).mono (by simp)⟩, hcount⟩

section
variable {s} {c : Fin 4} {a : Nat} {d : List Byte} {m : MemUnit} (hn : 1 ≤ d.length) (h : a % 32 + d.length ≤ 32)
  (hm : memUnitOf a = some m) (hgo : s.bit Reg.ISL_SWAP_CTL Fd.ISL_SWAP_CTL_GO = false) (hk : s.accessKind a true = 0)
include hn h hm hgo hk

/-- A store that leaves its codeword clean (R273). -/
theorem coreStore_clean (hc : d.length = 32 ∨ s.cwAt a = .ok) : let t := s.coreStore (.pilot c) a d
    t.bus = .data [] ∧ (t.bytes a d.length = d ∧ BytesBut a d.length s t) ∧ t.cwAt a = .ok
      ∧ (∀ x, x / 32 ≠ a / 32 → t.cwAt x = s.cwAt x) ∧ KeepsBut [.bus, .mem, .cw] s t := by
  intro t
  have hline : (a / 32 * 32) / 32 = a / 32 := by omega
  have ht : t = ((s.setCw (a / 32 * 32) .ok).setBytes a d).respond (.data []) := by
    have e := s.coreStore_within hn h c hm
    rw [s.writeCw_of_clean ((memUnitOf_congr hline).trans hm) hgo 9 0xFF
      (hc.imp (fun hd => by omega) (s.cwAt_congr hline).trans), State.store_of_idle (by exact hgo)] at e
    simpa [hk] using e
  rw [ht]
  exact ⟨rfl, s.stored_effect a d .ok _⟩

/-- A store that merges into an uncorrectable or poisoned codeword (R273). -/
theorem coreStore_bad (ha : a < 2 ^ 64) (hd : d.length < 32) {poison : Bool}
    (hc : s.cwAt a = if poison then .poison else .ue) : let t := s.coreStore (.pilot c) a d
    t.bus = .err 5 [] ∧ (t.bytes a d.length = d ∧ BytesBut a d.length s t) ∧ t.cwAt a = .poison
      ∧ (∀ x, x / 32 ≠ a / 32 → t.cwAt x = s.cwAt x)
      ∧ (t.reg (memReg m 0x038)).toNat = min ((s.reg (memReg m 0x038)).toNat + (if s.cwAt a = .ue then 1 else 2)) 0xFFFFFFFF
      ∧ KeepsBut [.bus, .mem, .cw, .regs, .events] s t := by
  intro t
  have hline : (a / 32 * 32) / 32 = a / 32 := by omega
  have hlt : a / 32 * 32 < 2 ^ 64 := by omega
  let u := s.mergeRecord m (a / 32 * 32) 9 0xFF poison
  obtain ⟨hcount, hidle, hrec⟩ : _ ∧ _ ∧ KeepsBut [.regs, .events] s u := s.mergeRecord_effect m 9 0xFF hlt poison
  have ht : t = ((u.setCw (a / 32 * 32) .poison).setBytes a d).respond (.err 5 []) := by
    have e := s.coreStore_within hn h c hm
    rw [s.writeCw_of_bad ((memUnitOf_congr hline).trans hm) hgo 9 0xFF (by omega) hlt ((s.cwAt_congr hline).trans hc),
      State.store_of_idle (by exact hidle.trans hgo)] at e
    simpa [hk] using e
  have hbyte (x : Nat) : u.byte x = s.byte x := State.byte_congr (hrec.2 .mem (by decide)) x
  have hcw (x : Nat) : u.cwAt x = s.cwAt x := by rw [State.cwAt, hrec.2 .cw (by decide)]; rfl
  obtain ⟨⟨hput, hbut⟩, hpoison, hother, hkeeps⟩ := u.stored_effect a d .poison (.err 5 [])
  rw [ht]
  refine ⟨rfl, ⟨hput, fun x hx => (hbut x hx).trans (hbyte x)⟩, hpoison, fun x hx => (hother x hx).trans (hcw x), ?_,
    (hrec.trans hkeeps).mono (by simp)⟩
  rw [State.reg_congr (hkeeps.2 .regs (by decide)), hcount, hc]
  cases poison <;> rfl

end

/-- Settles O35, from what a load and a store within one codeword do by the codeword's condition. -/
theorem coreLoadsAndStores : Obligations.CoreLoadsAndStores := by
  refine ⟨fun c a n s m hup hn h hm => ?_, fun c a d s m hup hn h hm hgo => ?_⟩
  · have ha : a.toNat < 2 ^ 64 := by omega
    have hline : (a.toNat / 32 * 32) / 32 = a.toNat / 32 := by omega
    have hm' := (memUnitOf_congr hline).trans hm
    have load := s.coreLoad_within c hn h hm
    refine ⟨fun hk => ?_, fun hk hcw => ?_, fun sym hk hcw => ?_, fun hk hcw => ?_, fun hk hcw => ?_⟩ <;>
      apply settles_coreLoad hup hn h
    · rw [load, if_pos hk]
      exact ⟨rfl, rfl, ((s.accessErr_keeps _ _ _ _).trans (State.respond_keeps _ _)).mono (by simp)⟩
    · rw [load, s.checkCw_of_ok hm' _ _ ((s.cwAt_congr hline).trans hcw), if_neg (by simpa using hk)]
      exact ⟨rfl, s.respond_keeps _⟩
    · obtain ⟨hcount, hbit, hheld, hkeeps⟩ :=
        s.recordCe_effect m (a := a.toNat / 32 * 32) (sym := sym) 9 0xFF (by omega) (by omega)
      rw [hline] at hheld
      rw [load, s.checkCw_of_ce hm' _ _ ((s.cwAt_congr hline).trans hcw), if_neg (by simpa using hk)]
      exact ⟨rfl, hcount, hbit, hheld, (hkeeps.trans (State.respond_keeps _ _)).mono (by simp)⟩
    · exact coreLoad_bad (poison := false) hn h hm ha hk hcw
    · exact coreLoad_bad (poison := true) hn h hm ha hk hcw
  · have ha : a.toNat < 2 ^ 64 := by omega
    refine ⟨fun hk => ?_, fun hk hd => ?_, fun hk hcw => ?_, fun hk hd hcw => ?_⟩ <;> apply settles_coreStore hup hn h
    · rw [s.coreStore_within hn h c hm, if_pos hk]
      exact ⟨rfl, rfl, ((s.accessErr_keeps _ _ _ _).trans (State.respond_keeps _ _)).mono (by simp)⟩
    · exact coreStore_clean hn h hm hgo hk (.inl hd)
    · exact coreStore_clean hn h hm hgo hk (.inr hcw)
    · rcases hcw with hcw | hcw
      · exact coreStore_bad (poison := false) hn h hm hgo hk ha hd hcw
      · exact coreStore_bad (poison := true) hn h hm hgo hk ha hd hcw

end Sys2Proof.Machine
end


section
/-! SUPPORT. The arithmetic of a pass (R54, R55, R58): its result is a function of its products as a multiset, and the special
values and the zeros among them decide it alone. -/

namespace Sys2Proof.Machine

/-- floor(log2) of a product's magnitude, none of a zero, an infinity or a NaN. -/
def FVal.exponent? : FVal → Option Int
  | .fin _ k e => if k = 0 then none else some (flog2 k e)
  | _ => none

/-- The largest exponent is a fold of `max` over the exponents that there are. -/
theorem emaxOf_eq_foldl (ps : List FVal) : emaxOf ps = (ps.map FVal.exponent?).foldl (Option.merge max) none := by
  rw [emaxOf, List.foldl_map]
  congr 1
  funext m p
  match p with
  | .nan | .inf _ => cases m <;> rfl
  | .fin g k e =>
    by_cases hk : k = 0
    · cases m <;> simp [FVal.exponent?, hk]
    · cases m <;> simp [FVal.exponent?, hk]

theorem emaxOf_perm {ps qs : List FVal} (h : ps.Perm qs) : emaxOf ps = emaxOf qs := by
  rw [emaxOf_eq_foldl, emaxOf_eq_foldl]
  exact (h.map _).foldl_op_eq

/-- A pass's result does not depend on the order of its products (R54). -/
theorem dpuPass_perm {ps qs : List FVal} (h : ps.Perm qs) : dpuPass ps = dpuPass qs := by
  have hsum (u : Int) : (ps.map (truncAt u)).sum = (qs.map (truncAt u)).sum := (h.map _).sum_eq
  simp only [dpuPass, h.contains_eq, emaxOf_perm h, hsum]

/-! ### Special values (R55) -/

section
variable {ps : List FVal}

theorem dpuPass_of_nan (h : .nan ∈ ps ∨ (.inf false ∈ ps ∧ .inf true ∈ ps)) : dpuPass ps = .f32 (toF32 .nan) := by
  rw [dpuPass, if_pos (by simpa using h)]

theorem dpuPass_of_posInf (hn : .nan ∉ ps) (hp : .inf false ∈ ps) (hm : .inf true ∉ ps) :
    dpuPass ps = .f32 (toF32 (.inf false)) := by
  simp [dpuPass, hn, hp, hm]

theorem dpuPass_of_negInf (hn : .nan ∉ ps) (hp : .inf false ∉ ps) (hm : .inf true ∈ ps) :
    dpuPass ps = .f32 (toF32 (.inf true)) := by
  simp [dpuPass, hn, hp, hm]

theorem emaxOf_of_zeros (h : ∀ x ∈ ps, ∃ g e, x = .fin g 0 e) : emaxOf ps = none := by
  rw [emaxOf_eq_foldl]
  induction ps with
  | nil => rfl
  | cons x xs ih =>
    obtain ⟨g, e, rfl⟩ := h x List.mem_cons_self
    exact ih fun y hy => h y (List.mem_cons_of_mem _ hy)

/-- Products that are all zero have the exact sum zero (R56). -/
theorem dpuPass_of_zeros (h : ∀ x ∈ ps, ∃ g e, x = .fin g 0 e) : dpuPass ps = .exactZero := by
  have special {x : FVal} (hx : ∀ g e, x ≠ .fin g 0 e) : x ∉ ps := fun hm =>
    let ⟨g, e, he⟩ := h x hm
    hx g e he
  have hn : .nan ∉ ps := special (by simp)
  have hp : .inf false ∉ ps := special (by simp)
  have hm : .inf true ∉ ps := special (by simp)
  simp [dpuPass, hn, hp, hm, emaxOf_of_zeros h]

end

/-- An INT8 pass is the exact sum of its integer products (R58). -/
theorem passVal_int8 {o : MmOp} (h : o.fa = 7) (a b : List FVal) :
    passVal o a b = .int ((a.zip b).map fun x => intOf x.1 * intOf x.2).sum := by
  rw [passVal, if_pos h]

/-- Settles O9, from the fold of the exponents and the truncated sum, neither of which sees the order. -/
theorem passArithmetic : Obligations.PassArithmetic :=
  ⟨fun _ _ => dpuPass_perm, fun _ => ⟨dpuPass_of_nan, dpuPass_of_posInf, dpuPass_of_negInf, dpuPass_of_zeros⟩,
    fun _ a b h => passVal_int8 h a b⟩

end Sys2Proof.Machine
end


section
/-! SUPPORT. What an accumulator is made of: memory, the passes in flight and the parity of the entries. The records of errors and
the completion of work leave all three alone, in every Island (R96, R126, R142, R185). -/

namespace Sys2Proof.Machine

/-- Memory, and of each Island the passes in flight and the parity of its accumulator. -/
def State.accs (s : State) : Table Byte × (Nat → List Pass × Table Nat) :=
  (s.mem, fun p => ((s.isl p).inflight, (s.isl p).parity))

theorem State.accs_congr {s t : State} (hm : t.mem = s.mem) (hi : t.isls = s.isls) : t.accs = s.accs := by
  simp only [State.accs, State.isl, hm, hi]

section
variable {s t : State} (h : t.accs = s.accs)
include h

theorem State.mem_of_accs : t.mem = s.mem := congrArg Prod.fst h

theorem State.memNat_of_accs (a n : Nat) : t.memNat a n = s.memNat a n := by
  simp only [State.memNat, State.bytes, State.byte, State.mem_of_accs h]

theorem State.inflight_of_accs (p : Nat) : (t.isl p).inflight = (s.isl p).inflight :=
  congrArg (fun v => (v.2 p).1) h

theorem State.parity_of_accs (p : Nat) : (t.isl p).parity = (s.isl p).parity :=
  congrArg (fun v => (v.2 p).2) h

end

variable (s : State)

/-! ### Updates -/

@[simp] theorem State.setReg_accs (a : Nat) (v : Word) : (s.setReg a v).accs = s.accs := State.accs_congr rfl rfl
@[simp] theorem State.setFld_accs (a : Nat) (f : Fld) (v : Nat) : (s.setFld a f v).accs = s.accs := State.accs_congr rfl rfl
@[simp] theorem State.count_accs (a n : Nat) : (s.count a n).accs = s.accs := by
  rw [State.count, State.setReg_accs]
@[simp] theorem State.setSt_accs (p c st : Nat) : (s.setSt p c st).accs = s.accs := by
  rw [State.setSt, State.setFld_accs]
@[simp] theorem State.report_accs (k : EventKind) (u a b : Nat) : (s.report k u a b).accs = s.accs := State.accs_congr rfl rfl
@[simp] theorem State.setQtr_accs (q : Nat) (x : Qtr) : (s.setQtr q x).accs = s.accs := State.accs_congr rfl rfl
@[simp] theorem State.setFry_accs (f : Nat) (x : Fry) : (s.setFry f x).accs = s.accs := State.accs_congr rfl rfl
@[simp] theorem State.syncWaiters_accs (q b : Nat) : (s.syncWaiters q b).accs = s.accs := by
  simp [State.syncWaiters]
@[simp] theorem State.modWork_accs (id : Nat) (f : Work → Work) : (s.modWork id f).accs = s.accs := State.accs_congr rfl rfl
@[simp] theorem State.dropWork_accs (id : Nat) : (s.dropWork id).accs = s.accs := State.accs_congr rfl rfl
@[simp] theorem State.setPlausBit_accs (p : Nat) : (s.setPlausBit p).accs = s.accs := by
  simp [State.setPlausBit]
@[simp] theorem State.syncAcc_accs (p : Nat) : (s.syncAcc p).accs = s.accs := by
  simp [State.syncAcc]
@[simp] theorem State.syncEbb_accs (p : Nat) : (s.syncEbb p).accs = s.accs := by
  simp [State.syncEbb]

@[simp] theorem State.setErr_accs (a : Nat) (f g : Fld) : (s.setErr a f g).accs = s.accs := by
  unfold State.setErr
  split <;> simp

/-- Another value of an Island that has the same passes in flight and the same parity. -/
theorem State.setIsl_accs {p : Nat} {x : Isl} (hi : x.inflight = (s.isl p).inflight) (hp : x.parity = (s.isl p).parity) :
    (s.setIsl p x).accs = s.accs := by
  refine Prod.ext rfl (funext fun q => ?_)
  change (((s.setIsl p x).isl q).inflight, ((s.setIsl p x).isl q).parity) = _
  rw [State.isl_setIsl]
  split
  · next h => rw [h, hi, hp]; rfl
  · rfl

@[simp] theorem State.setCtx_accs (p c : Nat) (y : Ctx) : (s.setCtx p c y).accs = s.accs := by
  unfold State.setCtx Isl.setCtx
  split <;> exact s.setIsl_accs rfl rfl

/-- A fold of updates that each leave the accumulators alone. -/
theorem State.foldl_accs {α : Type} {f : State → α → State} (h : ∀ s x, (f s x).accs = s.accs) (xs : List α) (s : State) :
    (xs.foldl f s).accs = s.accs := by
  induction xs generalizing s with
  | nil => rfl
  | cons x xs ih => exact (ih _).trans (h s x)

/-! ### Records -/

@[simp] theorem State.raisePlaus_accs (p : Nat) : (s.raisePlaus p).accs = s.accs := by
  unfold State.raisePlaus
  dsimp only
  split
  · exact s.setIsl_accs rfl rfl
  · exact (State.setPlausBit_accs _ p).trans (s.setIsl_accs rfl rfl)

@[simp] theorem State.recordParity_accs (p a j bytes port : Nat) : (s.recordParity p a j bytes port).accs = s.accs := by
  simp only [State.recordParity, State.report_accs, State.raisePlaus_accs, State.setErr_accs]
  split <;> simp

/-- A read of an entry leaves the accumulators alone, whether or not its parity is good (R96). -/
@[simp] theorem State.readAcc_accs (p a j port : Nat) : (s.readAcc p a j port).2.accs = s.accs := by
  simp only [State.readAcc]
  split
  · rfl
  · exact s.recordParity_accs _ _ _ _ _

/-! ### Stops of a context -/

@[simp] theorem State.dropWait_accs (q p c : Nat) : (s.dropWait q p c).accs = s.accs := by
  unfold State.dropWait
  split <;> simp

@[simp] theorem State.dropWaits_accs (p c : Nat) : (s.dropWaits p c).accs = s.accs := by
  unfold State.dropWaits
  refine (State.foldl_accs (fun s q => ?_) _ _).trans (by simp)
  dsimp only
  split <;> simp

@[simp] theorem State.stopCtx_accs (p c st : Nat) : (s.stopCtx p c st).accs = s.accs := by
  unfold State.stopCtx
  dsimp only
  rw [State.setCtx_accs]
  split <;> simp

@[simp] theorem State.discardSigs_accs (p c : Nat) : (s.discardSigs p c).accs = s.accs :=
  (State.accs_congr rfl rfl).trans (s.setCtx_accs p c { s.ctx p c with sigq := [] })

@[simp] theorem State.recordFault_accs (p c code pc info : Nat) : (s.recordFault p c code pc info).accs = s.accs := by
  unfold State.recordFault
  split <;> simp

@[simp] theorem State.seqFault_accs (p c code pc info : Nat) : (s.seqFault p c code pc info).accs = s.accs := by
  by_cases h : code = 0x10 <;> simp [State.seqFault, h]

/-! ### Completion of work -/

@[simp] theorem State.wakeCtx_accs (p c : Nat) : (s.wakeCtx p c).accs = s.accs := by
  unfold State.wakeCtx
  dsimp only
  split
  · rfl
  · split
    · split <;> simp
    · split <;> simp
    · split <;> simp
    · rfl

@[simp] theorem State.islandMark_accs (p : Nat) : (s.islandMark p).accs = s.accs := by
  unfold State.islandMark
  dsimp only
  split
  · exact s.setIsl_accs rfl rfl
  · rfl

@[simp] theorem State.shoalFree_accs (p id : Nat) : (s.shoalFree p id).accs = s.accs := by
  have hidle : (s.setIsl p { s.isl p with shl := none }).accs = s.accs := s.setIsl_accs rfl rfl
  unfold State.shoalFree
  dsimp only
  split
  · split
    · split <;> simp [hidle]
    · rfl
  · rfl

@[simp] theorem State.ferryFree_accs (id : Nat) : (s.ferryFree id).accs = s.accs := by
  unfold State.ferryFree
  split
  · dsimp only
    split
    · split <;> simp
    · simp
  · rfl

@[simp] theorem State.engineFree_accs (w : Work) : (s.engineFree w).accs = s.accs := by
  unfold State.engineFree
  split <;> simp

@[simp] theorem State.finishWork_accs (id : Nat) : (s.finishWork id).accs = s.accs := by
  unfold State.finishWork
  split
  · rfl
  · split
    · dsimp only
      split <;> simp
    · rfl

@[simp] theorem State.workDone_accs (id : Nat) : (s.workDone id).accs = s.accs := by simp [State.workDone]

@[simp] theorem State.engineFault_accs (id eng code : Nat) : (s.engineFault id eng code).accs = s.accs := by
  unfold State.engineFault
  split
  · rfl
  · split <;> simp

/-- Instructions that leave the array leave the accumulators alone (R185). -/
@[simp] theorem State.settleArr_accs (p : Nat) : (s.settleArr p).accs = s.accs := by
  have hdrop (s : State) (id : Nat) : (s.setIsl p ((s.isl p).dropRun id)).accs = s.accs := s.setIsl_accs rfl rfl
  rw [State.settleArr, State.syncAcc_accs]
  apply State.foldl_accs
  intro s r
  split
  · rfl
  · split
    · rw [State.workDone_accs, hdrop]
    · split
      · split
        · rw [State.engineFault_accs, hdrop]
        · rfl
      · rfl

end Sys2Proof.Machine
end


section
/-! SUPPORT. A pass applied to the accumulator, entry by entry, and the start-up clear (R56 to R58, R84, R88, R96, R97). -/

namespace Sys2Proof.Machine

section
variable (s : State) (p : Nat)

/-! ### Little-endian numbers in memory -/

theorem State.memNat_congr {s t : State} {a n : Nat} (h : ∀ x, a ≤ x → x < a + n → t.byte x = s.byte x) :
    t.memNat a n = s.memNat a n := by
  rw [State.memNat, State.memNat, State.bytes, State.bytes]
  congr 1
  apply List.map_congr_left
  intro i hi
  exact h _ (by omega) (by have := List.mem_range.1 hi; omega)

/-- A number stored is read back, cut to its bytes. -/
theorem State.memNat_setBytes_same (a n v : Nat) : (s.setBytes a (leBytes n v)).memNat a n = v % 256 ^ n := by
  have h := s.bytes_setBytes_same a (leBytes n v)
  rw [leBytes_length] at h
  rw [State.memNat, h, leNat_leBytes]

theorem leNat_of_zeros {bs : List Byte} (h : ∀ b ∈ bs, b = 0) : leNat bs = 0 := by
  induction bs with
  | nil => rfl
  | cons b bs ih =>
    have hr : leNat (b :: bs) = b.toNat + 256 * leNat bs := rfl
    rw [hr, h b List.mem_cons_self, ih fun c hc => h c (List.mem_cons_of_mem _ hc)]
    rfl

theorem State.memNat_of_zeros {s : State} {a n : Nat} (h : ∀ x, a ≤ x → x < a + n → s.byte x = 0) : s.memNat a n = 0 := by
  apply leNat_of_zeros
  intro b hb
  obtain ⟨i, hi, rfl⟩ := List.mem_map.1 hb
  exact h _ (by omega) (by have := List.mem_range.1 hi; omega)

/-! ### One entry of a pass -/

/-- The entry that an item of a pass names: its address in the accumulator of Island `p` (R88). -/
def PassItem.addr (i : PassItem) : Nat := accAddr p i.trow i.entry

/-- The address `x` is that of a byte of the item's entry. -/
def PassItem.Covers (i : PassItem) (x : Nat) : Prop := i.addr p ≤ x ∧ x < i.addr p + 4

/-- Entries of different addresses share no byte. -/
theorem PassItem.Covers.addr_eq {p : Nat} {i j : PassItem} {x : Nat} (hi : i.Covers p x) (hj : j.Covers p x) :
    i.addr p = j.addr p := by
  simp only [PassItem.Covers, PassItem.addr, accAddr] at *
  omega

/-- The entry holds its old value with the pass's result added or in its place, its parity is good, and every other byte of memory
and every other entry's parity is as it was. -/
theorem State.applyItem_effect (i : PassItem) : let t := s.applyItem p i
    (t.isl p).inflight = (s.isl p).inflight
      ∧ t.memNat (i.addr p) 4 = applyVal (s.memNat (i.addr p) 4) i.add i.val % 2 ^ 32
      ∧ (∀ b, tget (fun _ => 0) (t.isl p).parity b = if b = i.addr p then 0 else tget (fun _ => 0) (s.isl p).parity b)
      ∧ ∀ x, ¬i.Covers p x → t.byte x = s.byte x := by
  intro t
  let u := (s.readAcc p i.trow i.entry 0).2
  let v := applyVal (s.memNat (i.addr p) 4) i.add i.val
  let w := u.setIsl p { u.isl p with parity := tset (fun _ => 0) (u.isl p).parity (i.addr p) 0 }
  have hu : u.accs = s.accs := s.readAcc_accs _ _ _ _
  have hval : (s.readAcc p i.trow i.entry 0).1 = s.memNat (i.addr p) 4 := by
    simp only [State.readAcc]
    split
    · rfl
    · exact State.memNat_of_accs (s.recordParity_accs _ _ _ _ _) _ _
  have ht : t = w.setBytes (i.addr p) (leBytes 4 v) := by
    change u.writeAcc p i.trow i.entry (applyVal (s.readAcc p i.trow i.entry 0).1 i.add i.val) = _
    rw [hval]
    rfl
  have hisl : t.isl p = { u.isl p with parity := tset (fun _ => 0) (u.isl p).parity (i.addr p) 0 } := by
    have hisls : t.isls = w.isls := ht ▸ (w.setBytes_keeps _ _).2 .isls (by decide)
    rw [State.isl, hisls]
    exact (u.isl_setIsl p p _).trans (if_pos rfl)
  refine ⟨?_, ?_, fun b => ?_, fun x hx => ?_⟩
  · rw [hisl]
    exact State.inflight_of_accs hu p
  · rw [ht]
    exact w.memNat_setBytes_same _ 4 v
  · rw [hisl, ← State.parity_of_accs hu p]
    exact tget_tset _ (u.isl p).parity (i.addr p) b 0
  · rw [ht, w.setBytes_bytesBut _ _ x (by rw [leBytes_length]; exact hx)]
    exact State.byte_congr (State.mem_of_accs hu) x

/-! ### A whole pass -/

/-- Applies entries one after another, in the order of a list (R84). -/
def State.applyItems (is : List PassItem) : State := is.foldl (fun s i => s.applyItem p i) s

/-- Entries of different addresses do not meet, so each one's new value comes from what it held before the pass. -/
theorem State.applyItems_effect {is : List PassItem} (hd : (is.map (PassItem.addr p)).Nodup) : let t := s.applyItems p is
    (t.isl p).inflight = (s.isl p).inflight
      ∧ (∀ i ∈ is, t.memNat (i.addr p) 4 = applyVal (s.memNat (i.addr p) 4) i.add i.val % 2 ^ 32)
      ∧ (∀ b, tget (fun _ => 0) (t.isl p).parity b
          = if b ∈ is.map (PassItem.addr p) then 0 else tget (fun _ => 0) (s.isl p).parity b)
      ∧ ∀ x, (∀ i ∈ is, ¬i.Covers p x) → t.byte x = s.byte x := by
  induction is generalizing s with
  | nil => exact ⟨rfl, by simp, by simp [State.applyItems], fun _ _ => rfl⟩
  | cons i is ih =>
    intro t
    obtain ⟨hfresh, hd'⟩ := List.nodup_cons.1 hd
    obtain ⟨hfl, hval, hpar, hbyte⟩ := s.applyItem_effect p i
    obtain ⟨hfl', hval', hpar', hbyte'⟩ := ih (s.applyItem p i) hd'
    have apart (j : PassItem) (hj : j ∈ is) {x : Nat} (hi : i.Covers p x) : ¬j.Covers p x := fun h =>
      hfresh (hi.addr_eq h ▸ List.mem_map_of_mem hj)
    refine ⟨hfl'.trans hfl, fun j hj => ?_, fun b => ?_, fun x hx => ?_⟩
    · rcases List.mem_cons.1 hj with rfl | hj
      · exact (State.memNat_congr fun x hlo hhi => hbyte' x fun k hk => apart k hk ⟨hlo, hhi⟩).trans hval
      · rw [← State.memNat_congr fun x hlo hhi => hbyte x fun hi => apart j hj hi ⟨hlo, hhi⟩]
        exact hval' j hj
    · refine (hpar' b).trans ?_
      rw [hpar b, List.map_cons]
      by_cases hb : b ∈ is.map (PassItem.addr p) <;> simp [hb]
    · exact (hbyte' x fun j hj => hx j (List.mem_cons_of_mem _ hj)).trans (hbyte x (hx i List.mem_cons_self))

/-- The oldest pass in flight leaves the queue, and its entries are applied (R84). -/
theorem exec_passApply {s : State} {p : Fin 144} {q : Pass} {r : List Pass} (h : (s.isl p).inflight = q :: r) :
    exec (.passApply p) s
      = settled (((s.setIsl p { s.isl p with inflight := r }).applyItems p q.items).settleArr p) := by
  change execPassApply p s = _
  simp only [execPassApply, h]
  rfl

/-- The application of the oldest pass in flight (R56 to R58, R84, R96). -/
theorem settles_passApply {s : State} {p : Fin 144} {q : Pass} {r : List Pass} (h : (s.isl p).inflight = q :: r)
    (hd : (q.items.map (PassItem.addr p)).Nodup) : Settles (.passApply p) s fun t =>
      (t.isl p).inflight = r
      ∧ (∀ i ∈ q.items, t.memNat (i.addr p) 4 = applyVal (s.memNat (i.addr p) 4) i.add i.val % 2 ^ 32
        ∧ tget (fun _ => 0) (t.isl p).parity (i.addr p) = 0)
      ∧ ∀ x, (∀ i ∈ q.items, ¬i.Covers p x) → t.byte x = s.byte x := by
  refine ⟨_, exec_passApply h, ?_⟩
  let u := s.setIsl p { s.isl p with inflight := r }
  have hu : (u.isl p).inflight = r := by
    rw [State.isl_setIsl, if_pos rfl]
  obtain ⟨hfl, hval, hpar, hbyte⟩ := u.applyItems_effect p hd
  have hs := (u.applyItems p q.items).settleArr_accs p
  refine ⟨(State.inflight_of_accs hs p).trans (hfl.trans hu), fun i hi => ⟨?_, ?_⟩, fun x hx => ?_⟩
  · rw [State.memNat_of_accs hs]
    exact hval i hi
  · rw [State.parity_of_accs hs, hpar, if_pos (List.mem_map_of_mem hi)]
  · rw [State.byte_congr (State.mem_of_accs hs)]
    exact hbyte x hx

/-! ### The start-up clear (R97) -/

/-- A table without the entries whose keys fail a test reads the default at those keys. -/
theorem tget_filter {α : Type} (d : Nat → α) (t : Table α) (f : Nat → Bool) (k : Nat) :
    tget d (t.filter fun e => f e.1) k = if f k = true then tget d t k else d k := by
  induction t with
  | nil => simp [tget]
  | cons e r ih =>
    obtain ⟨j, v⟩ := e
    by_cases hj : j = k
    · subst hj
      by_cases hf : f j = true <;> simp [tget, hf, ih]
    · by_cases hf : f j = true <;> simp [tget, hf, hj, ih]

/-- The clear leaves every byte of the accumulator 0 and no other byte changed. -/
theorem State.byte_accClear (x : Nat) : (s.accClear p).byte x
    = if accBase p ≤ x ∧ x < accBase p + 0x100000 then 0 else s.byte x := by
  refine (tget_filter memDefault s.mem (fun k => decide (k < accBase p) || decide (accBase p + 0x100000 ≤ k)) x).trans ?_
  by_cases hx : accBase p ≤ x ∧ x < accBase p + 0x100000
  · have hzero : memDefault x = 0 := by
      unfold accBase at hx
      rw [memDefault, if_neg (by omega), if_neg (by omega)]
      rfl
    rw [if_pos hx, hzero, if_neg (by simpa using by omega)]
  · rw [if_neg hx, if_pos (by simp; omega)]
    rfl

theorem State.withMem_keeps (m : List Host.Cell) : KeepsBut [.mem] s { s with mem := m } := by
  refine ⟨rfl, fun q hq => ?_⟩
  cases q with
  | mem => exact absurd (List.mem_singleton.2 rfl) hq
  | _ => rfl

theorem State.setIsl_keeps (x : Isl) : KeepsBut [.isls] s (s.setIsl p x) := by
  refine ⟨rfl, fun q hq => ?_⟩
  cases q with
  | isls => exact absurd (List.mem_singleton.2 rfl) hq
  | _ => rfl

theorem State.accClear_keeps : KeepsBut [.regs, .mem, .isls] s (s.accClear p) :=
  ((s.withMem_keeps _).trans ((State.setIsl_keeps _ p _).trans (State.setReg_keeps _ _ _))).mono (by simp)

end

theorem settles_accumulatorClear {s : State} (p : Fin 144) (hup : s.up = true) {Q : State → Prop} (hq : Q (s.accClear p)) :
    Settles (.accumulatorClear p) s Q := by
  refine ⟨_, ?_, hq⟩
  change execAccumulatorClear p s = _
  rw [execAccumulatorClear, if_pos hup, settled]

/-- Settles O10, from the entries of a pass applied one by one, and from the clear of the accumulator's bytes. -/
theorem passesApplied : Obligations.PassesApplied := by
  refine ⟨fun p s q r h _ hd => settles_passApply h hd, fun p s hup => settles_accumulatorClear p hup ?_⟩
  refine ⟨fun a j ha hj => State.memNat_of_zeros fun x hlo hhi => ?_, ?_, ?_, fun x hx => ?_, s.accClear_keeps p, ?_⟩
  · rw [s.byte_accClear, if_pos (by unfold accAddr at hlo hhi; omega)]
  · rw [State.accClear, State.isl, State.setFld_isls]
    exact congrArg Isl.parity ((State.isl_setIsl _ p p _).trans (if_pos rfl))
  · rw [State.bit, State.accClear, State.fld_setFld_same _ _ _ _ (by decide)]
    rfl
  · rw [s.byte_accClear, if_neg hx]
  · exact State.setReg_regsBut _ _ _

end Sys2Proof.Machine
end


section
/-! SUPPORT. The statement about the dense array whose hypotheses leave out a bound that every instruction issued by a sequencer
meets: a walk descriptor's index is one of 0 to 15 (R85). -/

namespace Sys2Proof.Machine

/-! ### A Tide whose own work is not done -/

/-- A Quarter with a reduction channel that has buckets left is not done with the Tide (R332). -/
theorem State.quarterDone_of_chan_busy {s : State} {q : Nat} (h : (s.chan (2 * q)).done = false) : s.quarterDone q = false := by
  simp [State.quarterDone, h]

/-- While a Quarter's reduction channel has buckets left, the end of a command changes no Island (R332). -/
theorem tideCheck_isls_of_chan_busy {s : State} {q : Nat} (hq : q < 4) (h : (s.chan (2 * q)).done = false) :
    (tideCheck s).isls = s.isls := by
  let v := (List.range 4).foldl (fun s q =>
    s.setFld (Reg.TIDE_QSTATUS q) Fd.TIDE_QSTATUS_DONE (if s.quarterDone q then 1 else 0)) s
  have hidle : v.quarterDone q = false := State.quarterDone_of_chan_busy h
  have hnot : (List.range 4).all v.quarterDone = false :=
    List.all_eq_false.2 ⟨q, List.mem_range.2 hq, by simp [hidle]⟩
  unfold tideCheck
  split
  · rfl
  · change (if !(List.range 4).all v.quarterDone then v else _).isls = s.isls
    rw [hnot]
    rfl

/-- What a command is said to settle holds of a state that the Tide's check takes to the one the command answers. -/
theorem Settles.exists_answer {i : Instr} {s : State} {Q : State → Prop} (h : Settles i s Q) :
    ∃ t, Q t ∧ ∀ {α : Type} (f : State → α), answer i s f = some (f (tideCheck t)) := by
  obtain ⟨t, ht, hq⟩ := h
  exact ⟨t, hq, fun f => by rw [answer, ht]⟩

/-! ### The acceptance of an instruction with a stray walk descriptor -/

/-- A CONV instruction, both of whose operands are in Chart slot 0. The index of its walk descriptor is not one of 0 to 15:
the 32 bytes that it names begin at Quarter 0's plausibility register. -/
def strayWalk : MmOp :=
  { id := 1, c := 0, pc := 0, mode := 1, add := false, ta := false, tb := false, fa := 0, fb := 0, cha := 0, chb := 0,
    aux := (plausReg 0 - Reg.ACC_WALK 0 0 0) / 0x20, base := 0, nstr := 1, m := 1, n := 1, k := 1, orgA := [], orgB := [] }

/-- Island 0 is ACTIVE as logical Island 0 and queues that instruction, with its start-up clear done. Its Chart table lies at the base
of HBM3E, where slot 0 holds a valid FP32 Chart of one element (R184) and its first codeword has an uncorrectable error. Reduction
channel 0 has a bucket left, so that the command ends no Tide. -/
def strayAccept : State :=
  { State.reset with
    regs := [(Reg.ACC_STATUS 0, BitVec.ofNat 32 (Fd.ACC_STATUS_INIT_DONE.place 1)),
      (Reg.ISL_PSTATE 0, BitVec.ofNat 32 (Fd.ISL_PSTATE_STATE.place 1)),
      (Reg.CHT_CTX_PT_CTHI 0 0, 0x100)]
    mem := [(hbmBase 0 + 0x08, 1), (hbmBase 0 + 0x20, 1), (hbmBase 0 + 0x50, 0x10), (hbmBase 0 + 0x53, 0x80)]
    cw := [(hbmBase 0, .ue)]
    isls := [(0, { mmq := [strayWalk] })]
    chans := [(0, { waiting := [0] })] }

/-- Refutes O8: the statement leaves the index of the walk descriptor open (R85). Beyond 15 it names other registers, and the
read of a Chart entry with an uncorrectable error raises the Island's plausibility bit in one of them (R272, R389) before the
array copies the descriptor, so that the copy is not what the descriptor held when the instruction was still queued. -/
theorem not_arrayAcceptsAndIssues : ¬ Obligations.ArrayAcceptsAndIssues := by
  rintro ⟨accepts, -⟩
  obtain ⟨accepted, -⟩ := accepts 0 strayAccept strayWalk [] (by decide +kernel) (by decide +kernel) (by decide +kernel)
  obtain ⟨t, ⟨-, joins, -, keeps, -⟩, answers⟩ :=
    (accepted (by decide +kernel) (by decide +kernel)).exists_answer
  have hchans : t.chans = strayAccept.chans := keeps.2 .chans (by decide)
  have hbusy : (t.chan (2 * 0)).done = false := by
    rw [State.chan, hchans]
    decide
  have hisls : (tideCheck t).isls = t.isls := tideCheck_isls_of_chan_busy (q := 0) (by decide) hbusy
  have stated : (t.isl 0).arr.map (·.walk) = [0] := by
    have queued : ((strayAccept.isl 0).arr.map (·.walk)) ++ [strayAccept.walkDesc 0 strayWalk.aux] = [0] := by decide +kernel
    rw [← queued]
    exact (congrArg (List.map (·.walk)) joins).trans List.map_append
  have copied : answer (.matrixAccept 0) strayAccept (fun t => (t.isl 0).arr.map (·.walk)) = some [1] := by decide +kernel
  rw [answers, State.isl, hisls] at copied
  exact absurd (stated.symm.trans (Option.some.inj copied)) (by decide)

end Sys2Proof.Machine
end

section
/-! SUPPORT. The registers that an instruction reads at issue, in the state in which it has its effect: putting its context into RUN
changes none of them (R108, R111, R119). -/

namespace Sys2Proof.Machine

variable (s : State) (p c : Nat)

/-- A field of an instruction word is below 2 to its width. -/
theorem ifld_lt (w hi lo : Nat) : ifld w hi lo < 2 ^ (hi + 1 - lo) := Nat.mod_lt _ (Nat.two_pow_pos _)

theorem State.running_keeps : KeepsBut [.regs] s (s.running p c) := s.setReg_keeps _ _

theorem State.reg_running {a : Nat} (h : a ≠ Reg.ISL_SEQ_STATUS p) : (s.running p c).reg a = s.reg a := s.reg_setReg_other _ h

@[simp] theorem State.running_mem : (s.running p c).mem = s.mem := rfl
@[simp] theorem State.running_isls : (s.running p c).isls = s.isls := rfl
@[simp] theorem State.running_work : (s.running p c).work = s.work := rfl
@[simp] theorem State.running_nextWork : (s.running p c).nextWork = s.nextWork := rfl
@[simp] theorem State.isl_running (q : Nat) : (s.running p c).isl q = s.isl q := rfl
@[simp] theorem State.ctx_running (q d : Nat) : (s.running p c).ctx q d = s.ctx q d := rfl
@[simp] theorem State.fry_running (f : Nat) : (s.running p c).fry f = s.fry f := rfl
@[simp] theorem State.hasWork_running (d : Nat) : (s.running p c).hasWork p d = s.hasWork p d := rfl
@[simp] theorem State.workBefore_running (d mask id : Nat) : (s.running p c).workBefore p d mask id = s.workBefore p d mask id := rfl

@[simp] theorem State.seqTide_running : (s.running p c).seqTide p = s.seqTide p := by
  rw [State.seqTide, s.reg_running p c (by simp [Reg.ISL_SEQ_TIDE, Reg.ISL_SEQ_STATUS])]; rfl

@[simp] theorem State.sreg_running (d i : Nat) : (s.running p c).sreg p d i = s.sreg p d i := by
  simp only [State.sreg]
  rw [s.reg_running p c (by simp only [Reg.ISL_SEQ_SREG, Reg.ISL_SEQ_STATUS]; omega),
    s.reg_running p c (by simp only [Reg.ISL_SEQ_SREG, Reg.ISL_SEQ_STATUS]; omega)]

@[simp] theorem State.pred_running (d i : Nat) : (s.running p c).pred p d i = s.pred p d i := by
  rw [State.pred, s.reg_running p c (by simp only [Reg.ISL_SEQ_PRED, Reg.ISL_SEQ_STATUS]; omega)]; rfl

@[simp] theorem State.mctx_running (d : Nat) : (s.running p c).mctx p d = s.mctx p d := by
  rw [State.mctx, State.fld, s.reg_running p c (by simp only [Reg.ISL_SEQ_CTXID, Reg.ISL_SEQ_STATUS]; omega)]; rfl

@[simp] theorem State.loops_running (d : Nat) : (s.running p c).loops p d = s.loops p d := by
  have reg {a : Nat} (h : a ≠ Reg.ISL_SEQ_STATUS p) := s.reg_running p c h
  have hl (e : Nat) := reg (a := Reg.ISL_SEQ_LOOP p d e) (by simp only [Reg.ISL_SEQ_LOOP, Reg.ISL_SEQ_STATUS]; omega)
  have hc (e : Nat) := reg (a := Reg.ISL_SEQ_LOOP_COUNT p d e) (by simp only [Reg.ISL_SEQ_LOOP_COUNT, Reg.ISL_SEQ_STATUS]; omega)
  have hi (e : Nat) := reg (a := Reg.ISL_SEQ_LOOP_ITER p d e) (by simp only [Reg.ISL_SEQ_LOOP_ITER, Reg.ISL_SEQ_STATUS]; omega)
  simp only [State.loops, State.bit, State.fld, hl, hc, hi]

@[simp] theorem State.logicalOf_running (p : Fin 144) : (s.running p c).logicalOf p = s.logicalOf p := by
  rw [State.logicalOf, State.fld, s.reg_running p c (by simp only [Reg.ISL_PSTATE, Reg.ISL_SEQ_STATUS, modWin, islWin]; omega)]
  rfl

@[simp] theorem State.selfId_running (p : Fin 144) (q : Nat) : (s.running p c).selfId q = s.selfId q := by
  rw [State.selfId, State.fld, s.reg_running p c (by simp only [Reg.STR_SELF, Reg.ISL_SEQ_STATUS, qtrWin, islWin]; omega)]
  rfl

@[simp] theorem operandB_running (d w rb imm : Nat) : operandB p d (s.running p c) w rb imm = operandB p d s w rb imm := by
  simp only [operandB, State.sreg_running]

@[simp] theorem State.origin_running (d n : Nat) : (s.running p c).origin p d n = s.origin p d n := by
  simp only [State.origin, State.sreg_running]

end Sys2Proof.Machine
end

section
/-! SUPPORT. What the scalar, predicate and move instructions write (R108, R119 to R121). -/

namespace Sys2Proof.Machine

section
variable {s : State} {p : Fin 144} {c : Fin 2} {o : Nat} {srcs : List Nat}

/-- An instruction of a ready context, its encoding clean and its queue not full, ends as its meaning says (R111, R113, R118). -/
theorem issueOut_ready (h : Ready s p c o srcs) (m : Meaning) (hm : m.mine (s.iword p c) = true) (ho : definedOpc o = true)
    (hs : srcFields (s.iword p c) = srcs) (hr : s.hasRoom p c (s.iword p c) = true) (hv : m.rsv (s.iword p c) = none) :
    s.issueOut p c m = issues s p c (m.act (s.running p c) (s.pc p c) (s.iword p c)) := by
  rw [State.issueOut, issue_ready h m hm ho (by rw [srcRegs, hs]) hr hv]
  rfl

/-- The opcode of a ready context's word. -/
theorem Ready.opc_eq (h : Ready s p c o srcs) : opc (s.iword p c) = o := h.2.1

/-- A ready context's instruction is not turned off (R117). -/
theorem Ready.predOff_eq (h : Ready s p c o srcs) : s.predOff p c (s.iword p c) = false := beq_false_of_ne h.2.2.1

/-- A ready context lacks neither a source register nor room (R111). -/
theorem Ready.lacks_eq (h : Ready s p c o srcs) (hs : srcFields (s.iword p c) = srcs)
    (hr : s.hasRoom p c (s.iword p c) = true) : s.lacks p c (s.iword p c) = false := by
  have free : ∀ r ∈ srcRegs (s.iword p c), ((s.ctx p c).loads.any (·.rd == r)) = false := by
    intro r hr
    rw [srcRegs, hs, List.mem_filter, bne_iff_ne] at hr
    obtain ⟨hmem, hzero⟩ := hr
    refine List.any_eq_false.2 fun l hl e => ?_
    rw [beq_iff_eq] at e
    rcases h.2.2.2 l hl with h0 | hnot
    · exact hzero (e ▸ h0)
    · exact hnot (e ▸ hmem)
  simp only [State.lacks, hr, List.any_eq_false.2 fun r hr => Bool.eq_false_iff.1 (free r hr), Bool.not_true, Bool.or_false]

end

/-- The opcodes of the instructions that need room in a queue (R114). -/
abbrev queueOpcodes : List Nat := [0x30, 0x40, 0x50, 0x60, 0x70, 0x72]

/-- Only the instructions of the engines and of the signal queue need room in a queue (R114). -/
theorem hasRoom_of_no_queue (s : State) (p c : Nat) {w : Nat} (h : opc w ∉ queueOpcodes) :
    s.hasRoom p c w = true := by
  unfold State.hasRoom
  split
  case h_7 => rfl
  all_goals exact absurd (by simp_all) h

/-- The issue of a ready instruction that needs no room in a queue. -/
theorem issueOut_plain {s : State} {p : Fin 144} {c : Fin 2} {o : Nat} {srcs : List Nat} (h : Ready s p c o srcs) (m : Meaning)
    (hm : m.mine (s.iword p c) = (opc (s.iword p c) == o)) (ho : definedOpc o = true) (hq : o ∉ queueOpcodes)
    (hs : srcFields (s.iword p c) = srcs) (hv : m.rsv (s.iword p c) = none) :
    s.issueOut p c m = issues s p c (m.act (s.running p c) (s.pc p c) (s.iword p c)) :=
  issueOut_ready h m (by rw [hm, h.opc_eq, beq_self_eq_true]) ho hs (hasRoom_of_no_queue s p c (by rwa [h.opc_eq])) hv

/-- Reserved values that are not there leave the check of the reserved bits (R145). -/
theorem rsvInfo_of_none {mask w : Nat} {bad : List (Bool × Nat)} (h : rsvInfo mask [] w = none) (hb : ∀ x ∈ bad, x.1 = false) :
    rsvInfo mask bad w = none := by
  have e : bad.filter (·.1) = [] := List.filter_eq_nil_iff.2 fun x hx => by simp [hb x hx]
  rw [← h]
  simp only [rsvInfo, e, List.filter_nil]

/-! ### ALU instructions -/

theorem srcFields_alu {w : Nat} (h : 0x10 ≤ opc w ∧ opc w ≤ 0x1B) : srcFields w = aluSrcs w := by
  unfold srcFields
  split
  case h_10 => exact if_pos h
  all_goals omega

theorem definedOpc_alu {o : Nat} (h : 0x10 ≤ o ∧ o ≤ 0x1B) : definedOpc o = true := by
  simp [definedOpc, h]

/-- An instruction with the ALU's meaning writes its function of the operands (R119, R120). -/
theorem aluWrites {i : Fin 144 → Fin 2 → Instr} {o : Nat} {f : BitVec 64 → BitVec 64 → BitVec 64} (ho : 0x10 ≤ o ∧ o ≤ 0x1B)
    (hi : ∀ p c s, exec (i p c) s = s.issueOut p c (aluMeaning p c o f)) : AluWrites i o f := by
  intro p c s h hv
  have hw : 0x10 ≤ opc (s.iword p c) ∧ opc (s.iword p c) ≤ 0x1B := by rwa [h.opc_eq]
  rw [hi, issueOut_plain h _ rfl (definedOpc_alu ho) (by simp; omega) (srcFields_alu hw) hv]
  simp only [aluMeaning, State.sreg_running, operandB_running]

/-! ### Predicates -/

/-- The system value that a SEL names (R120). -/
theorem State.sysValue_eq (s : State) (p c : Nat) {sel v : Nat}
    (h : (sel = 0 ∧ v = (s.reg (Reg.ISL_SEQ_TIDE p)).toNat) ∨ (sel = 1 ∧ v = s.logicalOf p)
      ∨ (sel = 2 ∧ v = s.selfId (quarterOf p)) ∨ (sel = 3 ∧ v = c) ∨ (sel = 4 ∧ v = s.mctx p c)
      ∨ (5 ≤ sel ∧ sel ≤ 8 ∧ v = (((s.loops p c)[sel - 5]?).map LoopEnt.iter).getD 0)) :
    sel ≤ 8 ∧ s.sysValue p c sel = v := by
  rcases h with ⟨rfl, rfl⟩ | ⟨rfl, rfl⟩ | ⟨rfl, rfl⟩ | ⟨rfl, rfl⟩ | ⟨rfl, rfl⟩ | ⟨hlo, hhi, rfl⟩
  iterate 5 · exact ⟨by decide, rfl⟩
  refine ⟨hhi, ?_⟩
  unfold State.sysValue
  split
  case h_6 => cases (s.loops p c)[sel - 5]? <;> rfl
  all_goals omega

theorem cmpCond_eq {cond : Nat} {a b : BitVec 64} {v : Bool}
    (h : (cond = 0 ∧ v = decide (a = b)) ∨ (cond = 1 ∧ v = decide (a ≠ b))
      ∨ (cond = 2 ∧ v = decide (a.toInt < b.toInt)) ∨ (cond = 3 ∧ v = decide (b.toInt ≤ a.toInt))
      ∨ (cond = 4 ∧ v = decide (a.toNat < b.toNat)) ∨ (cond = 5 ∧ v = decide (b.toNat ≤ a.toNat))) : cond ≤ 5 ∧ cmpCond cond a b = v := by
  rcases h with ⟨rfl, rfl⟩ | ⟨rfl, rfl⟩ | ⟨rfl, rfl⟩ | ⟨rfl, rfl⟩ | ⟨rfl, rfl⟩ | ⟨rfl, rfl⟩
  all_goals refine ⟨by decide, ?_⟩
  · rfl
  · simp [cmpCond, bne, BEq.beq]
  · rfl
  · simp [cmpCond, BitVec.slt, ← decide_not]
  · rfl
  · simp [cmpCond, BitVec.ult, ← decide_not]

theorem psetOp_eq {op : Nat} {a b v : Bool} (h : (op = 0 ∧ v = (a && b)) ∨ (op = 1 ∧ v = (a || b)) ∨ (op = 2 ∧ v = (a != b))
    ∨ (op = 3 ∧ v = (a && !b))) : psetOp op a b = v := by
  rcases h with ⟨rfl, rfl⟩ | ⟨rfl, rfl⟩ | ⟨rfl, rfl⟩ | ⟨rfl, rfl⟩ <;> rfl

/-- A predicate holds what was written, and the others what they held (R108). -/
theorem State.pred_setPred (s : State) (p c : Nat) (i j : Fin 8) (hi : i.val ≠ 0) (b : Bool) :
    (s.setPred p c i b).pred p c j = if j = i then b else s.pred p c j := by
  have field (t : State) (k : Nat) : t.pred p c k = (k == 0 || t.fld (Reg.ISL_SEQ_PRED p c) ⟨k, 1, .rw, 0⟩ == 1) := rfl
  rw [field, field]
  split
  case isTrue e =>
    rw [e, State.setPred, s.fld_setFld_same _ _ _ (by simp; omega)]
    cases b <;> simp [hi]
  case isFalse e =>
    have : (j : Nat) ≠ i := fun h => e (Fin.ext h)
    rw [State.setPred, s.fld_setFld_disjoint _ _ _ _ (by simp; omega) (by simp; omega)]

theorem State.setSreg_frame (s : State) (p c i v : Nat) : KeepsBut [.regs] s (s.setSreg p c i v)
    ∧ RegsBut (if i = 0 then [] else [Reg.ISL_SEQ_SREG p c (2 * i), Reg.ISL_SEQ_SREG p c (2 * i + 1)]) s (s.setSreg p c i v) := by
  unfold State.setSreg
  split
  · exact ⟨.refl _ s, .refl _ s⟩
  · exact ⟨((s.setReg_keeps _ _).trans (State.setReg_keeps _ _ _)).mono (by simp),
      ((s.setReg_regsBut _ _).mono (by simp)).trans ((State.setReg_regsBut _ _ _).mono (by simp))⟩

end Sys2Proof.Machine

namespace Sys2Proof.Machine

section
variable {s : State} {p : Fin 144} {c : Fin 2}

theorem exec_nop_ready (h : Ready s p c 0x00 []) (hv : rsvInfo 0 [] (s.iword p c) = none) :
    exec (.nop p c) s = issues s p c (.next (s.running p c)) :=
  issueOut_plain h _ rfl rfl (by decide) (by simp [srcFields, h.opc_eq]) hv

theorem exec_li_ready (h : Ready s p c 0x1F []) (hv : rsvInfo (maskOf 16 12 ||| maskOf 127 64) [] (s.iword p c) = none) :
    exec (.li p c) s = issues s p c
      (.next ((s.running p c).setSreg p c (ifld (s.iword p c) 16 12) (ifld (s.iword p c) 127 64))) :=
  issueOut_plain h _ rfl rfl (by decide) (by simp [srcFields, h.opc_eq]) hv

theorem exec_rdsys_ready (h : Ready s p c 0x1D []) (hv : rsvInfo (maskOf 16 12 ||| maskOf 35 32) [] (s.iword p c) = none)
    (hsel : ifld (s.iword p c) 35 32 ≤ 8) :
    exec (.rdsys p c) s = issues s p c
      (.next ((s.running p c).setSreg p c (ifld (s.iword p c) 16 12) (s.sysValue p c (ifld (s.iword p c) 35 32)))) := by
  have same (sel : Nat) : (s.running p c).sysValue p c sel = s.sysValue p c sel := by
    simp only [State.sysValue, State.seqTide_running, State.logicalOf_running, State.selfId_running, State.mctx_running,
      State.loops_running]
  rw [exec, execRdsys, issueOut_plain h _ rfl rfl (by decide) (by simp [srcFields, h.opc_eq]) (rsvInfo_of_none hv (by simpa using hsel))]
  simp only [same]

theorem exec_cmp_ready
    (h : Ready s p c 0x08 (ifld (s.iword p c) 19 15 :: (if ifld (s.iword p c) 25 25 = 1 then [] else [ifld (s.iword p c) 24 20])))
    (hv : rsvInfo (maskOf 29 12 ||| maskOf 63 32) [] (s.iword p c) = none) (hp : ifld (s.iword p c) 14 12 ≠ 0)
    (hcond : ifld (s.iword p c) 29 26 ≤ 5) :
    exec (.cmp p c) s = issues s p c (.next ((s.running p c).setPred p c (ifld (s.iword p c) 14 12)
      (cmpCond (ifld (s.iword p c) 29 26) (BitVec.ofNat 64 (s.sreg p c (ifld (s.iword p c) 19 15)))
        (operandB p c s (s.iword p c) (ifld (s.iword p c) 24 20) (ifld (s.iword p c) 25 25))))) := by
  rw [exec, execCmp, issueOut_plain h _ rfl rfl (by decide) (by simp [srcFields, h.opc_eq]) (rsvInfo_of_none hv (by simpa using ⟨hp, hcond⟩))]
  simp only [State.sreg_running, operandB_running]

theorem exec_pset_ready (h : Ready s p c 0x09 []) (hv : rsvInfo (maskOf 23 12) [] (s.iword p c) = none)
    (hp : ifld (s.iword p c) 14 12 ≠ 0) :
    exec (.pset p c) s = issues s p c (.next ((s.running p c).setPred p c (ifld (s.iword p c) 14 12)
      (psetOp (ifld (s.iword p c) 22 21) (s.pred p c (ifld (s.iword p c) 17 15) != (ifld (s.iword p c) 23 23 == 1))
        (s.pred p c (ifld (s.iword p c) 20 18))))) := by
  rw [exec, execPset, issueOut_plain h _ rfl rfl (by decide) (by simp [srcFields, h.opc_eq]) (rsvInfo_of_none hv (by simpa using hp))]
  simp only [State.pred_running]

end

/-- Settles O1. Each instruction issues with its meaning (`issueOut_plain`); its operands read in RUN as they did before
(R119 to R121), and a register reads what was written (R108). -/
theorem scalarResults : Obligations.ScalarResults := by
  unfold Obligations.ScalarResults
  refine ⟨⟨?_, ?_, ?_, ?_, ?_, ?_, ?_, ?_, ?_, ?_, ?_, ?_⟩, fun p c s => ⟨exec_nop_ready, exec_li_ready, ?_, ?_, ?_⟩,
    fun p c s v b => ⟨fun i => ⟨s.sreg_setSreg_same p c i v, s.setSreg_frame p c i v⟩, fun i hi => ⟨?_, ?_, ?_, ?_⟩, rfl, rfl⟩⟩
  iterate 9 · exact aluWrites (by decide) fun _ _ _ => rfl
  iterate 2 · exact aluWrites (by decide) fun p c s => by simp [exec, execMin, execMax, BitVec.slt]
  · exact aluWrites (by decide) fun p c s => by simp [exec, execMinu, BitVec.ult]
  · intro v h hv hval
    obtain ⟨hsel, rfl⟩ := s.sysValue_eq p c hval
    exact exec_rdsys_ready h hv hsel
  · intro v h hv hp hval
    obtain ⟨hcond, rfl⟩ := cmpCond_eq hval
    exact exec_cmp_ready h hv hp hcond
  · intro v h hv hp hval
    have neg (x : Bool) : (if ifld (s.iword p c) 23 23 = 1 then !x else x) = (x != (ifld (s.iword p c) 23 23 == 1)) := by
      split
      case isTrue h23 => simp [h23]
      case isFalse h23 => simp [beq_false_of_ne h23]
    rw [exec_pset_ready h hv hp, psetOp_eq (by simpa only [neg] using hval)]
  · rw [s.pred_setPred p c i i hi b, if_pos rfl]
  · exact fun j hj => by rw [s.pred_setPred p c i j hi b, if_neg hj]
  · exact s.setReg_keeps _ _
  · exact s.setReg_regsBut _ _

end Sys2Proof.Machine
end

section
/-! SUPPORT. What the issue of an instruction changes beside its effect, and END processing of loops (R111, R117, R124). -/

namespace Sys2Proof.Machine

/-- The registers of a context's loop stack. -/
def loopRegs (p c : Nat) : List Nat := (List.range 4).flatMap fun d =>
  [Reg.ISL_SEQ_LOOP p c d, Reg.ISL_SEQ_LOOP_COUNT p c d, Reg.ISL_SEQ_LOOP_ITER p c d]

section
variable (s : State) (p c : Nat)

theorem State.setLoop_keeps (d : Nat) (l : Option LoopEnt) : KeepsBut [.regs] s (s.setLoop p c d l) := by
  cases l <;> exact (((s.setReg_keeps _ _).trans (State.setReg_keeps _ _ _)).trans (State.setReg_keeps _ _ _)).mono (by simp)

theorem State.setLoop_regsBut {d : Nat} (hd : d < 4) (l : Option LoopEnt) : RegsBut (loopRegs p c) s (s.setLoop p c d l) := by
  have member : [Reg.ISL_SEQ_LOOP p c d, Reg.ISL_SEQ_LOOP_COUNT p c d, Reg.ISL_SEQ_LOOP_ITER p c d] ⊆ loopRegs p c :=
    fun a ha => List.mem_flatMap.2 ⟨d, List.mem_range.2 hd, ha⟩
  refine RegsBut.mono ?_ member
  cases l <;> exact (((s.setReg_regsBut _ _).mono (by simp)).trans ((State.setReg_regsBut _ _ _).mono (by simp))).trans
    ((State.setReg_regsBut _ _ _).mono (by simp))

/-- Writing the loop stack changes its registers alone. -/
theorem State.setLoops_frame (ls : List LoopEnt) : KeepsBut [.regs] s (s.setLoops p c ls)
    ∧ RegsBut (loopRegs p c) s (s.setLoops p c ls) := by
  refine ⟨KeepsBut.mono ((((s.setLoop_keeps p c 0 _).trans (State.setLoop_keeps _ p c 1 _)).trans
    (State.setLoop_keeps _ p c 2 _)).trans (State.setLoop_keeps _ p c 3 _)) (by simp), ?_⟩
  exact (((s.setLoop_regsBut p c (by decide) _).trans (State.setLoop_regsBut _ p c (by decide) _)).trans
    (State.setLoop_regsBut _ p c (by decide) _)).trans (State.setLoop_regsBut _ p c (by decide) _)

theorem State.issued_keeps : KeepsBut [.regs] s (s.issued p c) :=
  ((s.setReg_keeps _ _).trans (State.setReg_keeps _ _ _)).mono (by simp)

theorem State.issued_regsBut : RegsBut [Reg.ISL_SEQ_STATUS p, Reg.ISL_SEQ_CNT_ISSUE p c] s (s.issued p c) :=
  ((s.setReg_regsBut _ _).mono (by simp)).trans ((State.setReg_regsBut _ _ _).mono (by simp))

end

/-- The registers that an issue writes beside the instruction's own effect. -/
def issueRegs (p c : Nat) : List Nat := [Reg.ISL_SEQ_STATUS p, Reg.ISL_SEQ_PC p c, Reg.ISL_SEQ_CNT_ISSUE p c] ++ loopRegs p c

/-- The issue of an instruction without an effect of its own, its next PC in program memory: the PC, the counter, the context's state,
the favoured context, and the frame (R111, R124, R146). -/
theorem State.conclude_running (s : State) (p : Nat) (c : Fin 2) {rest : List LoopEnt} {n : Nat}
    (he : endProc (s.pc p c) (s.loops p c) = (rest, n)) (hn : n < 16384) :
    let t := (s.running p c).conclude p c (s.pc p c) (.next (s.running p c))
    t.pc p c = n ∧ t.ctxSt p c = 1
      ∧ (t.reg (Reg.ISL_SEQ_CNT_ISSUE p c)).toNat = min ((s.reg (Reg.ISL_SEQ_CNT_ISSUE p c)).toNat + 1) 0xFFFFFFFF
      ∧ t.bit (Reg.ISL_SEQ_STATUS p) Fd.ISL_SEQ_STATUS_FAV = (c.val == 0)
      ∧ KeepsBut [.regs] s t ∧ RegsBut (issueRegs p c) s t := by
  set r := s.running p c
  have conclude_eq : r.conclude p c (s.pc p c) (.next r) = ((r.issued p c).setLoops p c rest).setPc p c n := by
    simp only [State.conclude, r, State.loops_running, he, State.toPc, if_neg (Nat.not_le.2 hn)]
  rw [conclude_eq]
  intro t
  have loops := State.setLoops_frame (r.issued p c) p c rest
  have setPc : RegsBut [Reg.ISL_SEQ_PC p c] ((r.issued p c).setLoops p c rest) t := State.setReg_regsBut _ _ _
  have hc := c.isLt
  have outside {a : Nat} (h : a ∉ Reg.ISL_SEQ_PC p c :: loopRegs p c) : t.reg a = (r.issued p c).reg a := by
    rw [List.mem_cons, not_or] at h
    rw [setPc a (by simpa using h.1), loops.2 a h.2]
  have status : t.reg (Reg.ISL_SEQ_STATUS p) = (r.issued p c).reg (Reg.ISL_SEQ_STATUS p) := outside (by
    simp [loopRegs, List.range_succ, Reg.ISL_SEQ_PC, Reg.ISL_SEQ_LOOP, Reg.ISL_SEQ_LOOP_COUNT, Reg.ISL_SEQ_LOOP_ITER, Reg.ISL_SEQ_STATUS]
    omega)
  have count : t.reg (Reg.ISL_SEQ_CNT_ISSUE p c) = (r.issued p c).reg (Reg.ISL_SEQ_CNT_ISSUE p c) := outside (by
    simp [loopRegs, List.range_succ, Reg.ISL_SEQ_PC, Reg.ISL_SEQ_LOOP, Reg.ISL_SEQ_LOOP_COUNT, Reg.ISL_SEQ_LOOP_ITER, Reg.ISL_SEQ_CNT_ISSUE]
    omega)
  have apart : Reg.ISL_SEQ_CNT_ISSUE p c ≠ Reg.ISL_SEQ_STATUS p := by
    simp only [Reg.ISL_SEQ_CNT_ISSUE, Reg.ISL_SEQ_STATUS]; omega
  refine ⟨?_, ?_, ?_, ?_, ?_, ?_⟩
  · exact (State.fld_setFld_same _ _ Fd.ISL_SEQ_PC_PC n (by decide)).trans (Nat.mod_eq_of_lt hn)
  · calc t.ctxSt p c = (r.issued p c).ctxSt p c := by rw [State.ctxSt, State.fld, status]; rfl
      _ = (r.count (Reg.ISL_SEQ_CNT_ISSUE p c) 1).ctxSt p c :=
        State.fld_setFld_disjoint _ _ _ (stFld c) _ (by decide) (.inl (by unfold stFld; split <;> decide))
      _ = r.ctxSt p c := State.fld_setReg_other _ _ _ (Ne.symm apart)
      _ = 1 := s.ctxSt_setSt_same p c (by decide)
  · rw [count, State.issued, State.reg_setFld_other _ _ _ apart, State.count_toNat, s.reg_running p c apart]
  · have fav : t.fld (Reg.ISL_SEQ_STATUS p) Fd.ISL_SEQ_STATUS_FAV = (1 - c) % 2 ^ 1 := by
      rw [State.fld, status]
      exact State.fld_setFld_same _ _ Fd.ISL_SEQ_STATUS_FAV _ (by decide)
    rw [State.bit, fav]
    exact (show ∀ d : Fin 2, ((1 - d.val) % 2 ^ 1 == 1) = (d.val == 0) by decide) c
  · exact ((((s.running_keeps p c).trans (r.issued_keeps p c)).trans loops.1).trans (State.setReg_keeps _ _ _)).mono (by simp)
  · have running : RegsBut [Reg.ISL_SEQ_STATUS p] s r := s.setSt_regsBut p c 1
    exact (((running.mono (by simp)).trans ((r.issued_regsBut p c).mono (by simp))).trans
      (loops.2.mono (List.subset_append_right _ _))).trans (setPc.mono (by simp))

theorem endProc_of_last {pc : Nat} {l : LoopEnt} {r : List LoopEnt} (hs : l.stop = pc) (hc : l.count < 2 ^ 32)
    (hi : l.iter + 1 = l.count) : endProc pc (l :: r) = endProc pc r := by
  rw [endProc, if_neg (by simp [hs]), if_pos (by omega)]

theorem endProc_of_again {pc : Nat} {l : LoopEnt} {r : List LoopEnt} (hs : l.stop = pc) (hlt : l.iter < l.count)
    (hc : l.count < 2 ^ 32) (hi : l.iter + 1 ≠ l.count) :
    endProc pc (l :: r) = ({ l with iter := l.iter + 1 } :: r, l.start) := by
  have e : (l.iter + 1) % 2 ^ 32 = l.iter + 1 := Nat.mod_eq_of_lt (by omega)
  rw [endProc, if_neg (by simp [hs]), e, if_neg hi]

/-- A context that is picked reads its word without an error, and the checks follow in their order (R107, R111, R117, R118). -/
theorem issue_picked {s : State} {p : Fin 144} {c : Fin 2} (h : Picked s p c) (m : Meaning) :
    s.issue p c m = if !definedOpc (opc (s.iword p c)) then s.seqFault p c 0x01 (s.pc p c) (opc (s.iword p c))
      else if !m.mine (s.iword p c) then s
      else if s.predOff p c (s.iword p c) then (s.running p c).conclude p c (s.pc p c) (.next (s.running p c))
      else if s.lacks p c (s.iword p c) then s.setSt p c 2
      else match m.rsv (s.iword p c) with
        | some b => (s.running p c).seqFault p c 0x02 (s.pc p c) b
        | none => (s.running p c).conclude p c (s.pc p c) (m.act (s.running p c) (s.pc p c) (s.iword p c)) := by
  obtain ⟨hruns, hother, hclean⟩ := h
  have hyields : s.yields p c = false := by
    rcases hother with h | h <;> simp [State.yields, h]
  have hword : leNat (s.bytes (progBase p + 16 * s.pc p c) 16) = s.iword p c := rfl
  unfold State.issue
  simp only [fetch_ok s p c _ hclean, hruns, hyields, hword] <;> rfl

/-- A predicated-off instruction does nothing but issue (R117). -/
theorem issueOut_predOff {s : State} {p : Fin 144} {c : Fin 2} (h : Picked s p c) (m : Meaning)
    (hm : m.mine (s.iword p c) = true) (hd : definedOpc (opc (s.iword p c)) = true)
    (hp : s.predOff p c (s.iword p c) = true) : s.issueOut p c m = issues s p c (.next (s.running p c)) := by
  rw [State.issueOut, issue_picked h, hd, hm, hp]
  rfl

/-- Settles O2. The effect of an issue is `State.conclude_running`; END processing follows its definition's cases (R124). -/
theorem issueAndEndProcessing : Obligations.IssueAndEndProcessing := by
  unfold Obligations.IssueAndEndProcessing
  refine ⟨fun p c s => ⟨fun hn => s.conclude_running p c rfl hn, fun hpick ho hp => ?_⟩,
    fun pc l r => ⟨rfl, fun hs => if_pos hs, endProc_of_again, endProc_of_last⟩⟩
  exact issueOut_predOff hpick _ (beq_iff_eq.2 ho) (by rw [ho]; rfl) (beq_iff_eq.2 hp)

end Sys2Proof.Machine
end

section
/-! SUPPORT. Control flow where it executes, and the faults of an instruction word (R117, R118, R122 to R127, R139 to R145). -/

namespace Sys2Proof.Machine

/-! ### Where an instruction executes -/

section
variable {s : State} {p : Fin 144} {c : Fin 2}

theorem exec_br_ready (h : Ready s p c 0x02 []) (hv : rsvInfo (maskOf 25 12) [] (s.iword p c) = none) :
    exec (.br p c) s = issues s p c (.branch (s.running p c) (ifld (s.iword p c) 25 12)) :=
  issueOut_plain h _ rfl rfl (by decide) (by simp [srcFields, h.opc_eq]) hv

/-- A branch within every loop that is still active is taken (R122, R124). -/
theorem State.conclude_branch (s : State) {p c pc n : Nat} (h : ∀ l ∈ (endProc pc (s.loops p c)).1, l.start ≤ n ∧ n ≤ l.stop) :
    s.conclude p c pc (.branch s n) = ((s.issued p c).setLoops p c (endProc pc (s.loops p c)).1).setPc p c n := by
  have inside : ((endProc pc (s.loops p c)).1.any fun l => decide (n < l.start) || decide (l.stop < n)) = false := by
    simpa [not_or, Nat.not_lt] using h
  simp only [State.conclude, inside, Bool.false_eq_true, if_false]

theorem exec_loop_ready (h : Ready s p c 0x03 [ifld (s.iword p c) 30 26])
    (hv : rsvInfo (maskOf 30 12 ||| maskOf 63 32) [] (s.iword p c) = none) :
    exec (.loop p c) s = issues s p c (loopAct p c (s.running p c) (s.pc p c) (s.iword p c)) :=
  issueOut_plain h _ rfl rfl (by decide) (by simp [srcFields, h.opc_eq]) hv

/-- A loop with a body, room and nesting (R123). -/
theorem loopAct_enters (s : State) {p c pc w n : Nat}
    (hn : n = if ifld w 30 26 = 0 then ifld w 63 32 else s.sreg p c (ifld w 30 26) % 2 ^ 32)
    (hbody : pc < ifld w 25 12) (hroom : (s.loops p c).length < 4) (hnest : ∀ l ∈ s.loops p c, ifld w 25 12 ≤ l.stop) :
    loopAct p c s pc w = if n = 0 then .goto s (ifld w 25 12 + 1)
      else .goto (s.setLoops p c (⟨pc + 1, ifld w 25 12, n, 0⟩ :: s.loops p c)) (pc + 1) := by
  have nested : ((s.loops p c).any fun l => decide (l.stop < ifld w 25 12)) = false := by
    simpa [Nat.not_lt] using hnest
  simp only [loopAct, Nat.not_le.2 hbody, Nat.not_le.2 hroom, nested, if_false, Bool.false_eq_true, ← hn]

theorem exec_fence_ready (h : Ready s p c 0x04 []) (hv : rsvInfo (maskOf 17 12) [] (s.iword p c) = none) :
    exec (.fence p c) s = issues s p c (.next (fenceAct p c (s.running p c) (s.iword p c))) :=
  issueOut_plain h _ rfl rfl (by decide) (by simp [srcFields, h.opc_eq]) hv

theorem exec_tmark_ready (h : Ready s p c 0x05 [])
    (hv : rsvInfo (maskOf 12 12 ||| maskOf 63 32) [] (s.iword p c) = none) :
    exec (.tmark p c) s = issues s p c (tmarkAct p c (s.running p c) (s.pc p c) (s.iword p c)) :=
  issueOut_plain h _ rfl rfl (by decide) (by simp [srcFields, h.opc_eq]) hv

/-- A TMARK that names the Island's Tide, or none (R139). -/
theorem tmarkAct_of_tide (s : State) {p c pc w : Nat} (h : ifld w 12 12 = 1 → ifld w 63 32 = s.seqTide p) :
    tmarkAct p c s pc w = .next (if s.hasWork p c
      then (s.setSt p c 3).setCtx p c { s.ctx p c with wait := .tmark, waitReported := false, waitCycles := 0 }
      else (s.setSt p c 4).islandMark p) := by
  rw [tmarkAct, if_neg fun hx => hx.2 (h hx.1)]
  split <;> rfl

theorem exec_halt_ready (h : Ready s p c 0x01 []) (hv : rsvInfo 0 [] (s.iword p c) = none) :
    exec (.halt p c) s = issues s p c (.next (haltAct p c (s.running p c))) :=
  issueOut_plain h _ rfl rfl (by decide) (by simp [srcFields, h.opc_eq]) hv

theorem exec_brk_ready (h : Ready s p c 0x06 []) (hv : rsvInfo 0 [] (s.iword p c) = none) :
    exec (.brk p c) s = issues s p c (.stay ((s.running p c).seqFault p c 0x10 (s.pc p c) 0)) :=
  issueOut_plain h _ rfl rfl (by decide) (by simp [srcFields, h.opc_eq]) hv

/-! ### Faults of the word -/

theorem issueOut_undefined (h : Picked s p c) (m : Meaning) (hd : definedOpc (opc (s.iword p c)) = false) :
    s.issueOut p c m = settled (s.seqFault p c 0x01 (s.pc p c) (opc (s.iword p c))) := by
  rw [State.issueOut, issue_picked h, hd]
  rfl

theorem issueOut_reserved {o b : Nat} {srcs : List Nat} (h : Ready s p c o srcs) (m : Meaning)
    (hm : m.mine (s.iword p c) = (opc (s.iword p c) == o)) (ho : definedOpc o = true) (hq : o ∉ queueOpcodes)
    (hs : srcFields (s.iword p c) = srcs) (hv : m.rsv (s.iword p c) = some b) :
    s.issueOut p c m = settled ((s.running p c).seqFault p c 0x02 (s.pc p c) b) := by
  have lacks := h.lacks_eq hs (hasRoom_of_no_queue s p c (by rwa [h.opc_eq]))
  rw [State.issueOut, issue_picked h.1, h.predOff_eq, lacks, hm, h.opc_eq, ho, beq_self_eq_true, hv]
  rfl

end

/-! ### A fault stops its context -/

/-- An update that each step of a fold keeps, the fold keeps. -/
theorem foldl_keeps {α β : Type} {f : State → α → State} {g : State → β} (h : ∀ s x, g (f s x) = g s) (xs : List α) (s : State) :
    g (xs.foldl f s) = g s := by
  induction xs generalizing s with
  | nil => rfl
  | cons x xs ih => exact (ih _).trans (h s x)

section
variable (s : State) (q p c : Nat) {a : Nat} {f : Fld}

/-- BUOY_FLAGS of a Buoy stands at offset 4 of its 256 bytes, and WAITERS from bit 12 on. -/
theorem State.fld_dropWait (h : a % 256 ≠ 4 ∨ f.lo + f.w ≤ 12) : (s.dropWait q p c).fld a f = s.fld a f := by
  unfold State.dropWait
  split
  · rfl
  case h_2 w hw =>
    rw [State.syncWaiters]
    by_cases ha : a = Reg.BUOY_FLAGS (16384 * q + w.bidx)
    · subst ha
      have low : f.lo + f.w ≤ 12 := h.resolve_left fun hne => hne (by unfold Reg.BUOY_FLAGS buoyWin; omega)
      exact State.fld_setFld_disjoint _ _ Fd.BUOY_FLAGS_WAITERS f _ (by decide) (.inl low)
    · exact State.fld_setFld_other _ _ _ _ ha

theorem State.fld_dropWaits (h : a % 256 ≠ 4 ∨ f.lo + f.w ≤ 12) : (s.dropWaits p c).fld a f = s.fld a f := by
  unfold State.dropWaits
  refine Eq.trans (congrArg f.get (State.reg_congr (foldl_keeps (g := State.regs) (fun s q => ?_) _ _) a)) ?_
  · dsimp only
    split <;> rfl
  · exact ((State.fld_dropWait _ 3 p c h).trans (State.fld_dropWait _ 2 p c h)).trans
      ((State.fld_dropWait _ 1 p c h).trans (s.fld_dropWait 0 p c h))

theorem State.fld_setCtx (d : Nat) (y : Ctx) : (s.setCtx p d y).fld a f = s.fld a f := rfl

/-- A stop writes the context's RUN bit and state, and of other registers no field but WAITERS. -/
theorem State.fld_stopCtx (st : Nat) (h : a % 256 ≠ 4 ∨ f.lo + f.w ≤ 12) :
    (s.stopCtx p c st).fld a f = ((s.setFld (Reg.ISL_SEQ_CTL p) (runFld c) 0).setSt p c st).fld a f := by
  unfold State.stopCtx
  set t := (s.setFld (Reg.ISL_SEQ_CTL p) (runFld c) 0).setSt p c st
  dsimp only
  rw [State.fld_setCtx]
  split
  · exact t.fld_dropWaits p c h
  · rfl

theorem runFld_fits : (runFld c).lo + (runFld c).w ≤ 32 := by unfold runFld; split <;> decide

end

/-- A stopped context: its state, its RUN bit, and the other context's state (R140, R142, R146). -/
theorem State.stopCtx_stops (s : State) (p : Nat) (c : Fin 2) {st : Nat} (h : st < 8) : let t := s.stopCtx p c st
    t.ctxSt p c = st ∧ t.bit (Reg.ISL_SEQ_CTL p) (runFld c) = false ∧ t.ctxSt p (1 - c.val) = s.ctxSt p (1 - c.val) := by
  intro t
  have low (d : Nat) : (stFld d).lo + (stFld d).w ≤ 12 := by unfold stFld; split <;> decide
  have apart : Reg.ISL_SEQ_CTL p ≠ Reg.ISL_SEQ_STATUS p := by simp [Reg.ISL_SEQ_CTL, Reg.ISL_SEQ_STATUS]
  have one : (runFld c).w = 1 := by unfold runFld; split <;> rfl
  have status (d : Nat) : t.ctxSt p d = ((s.setFld (Reg.ISL_SEQ_CTL p) (runFld c) 0).setSt p c st).ctxSt p d :=
    s.fld_stopCtx p c st (.inr (low d))
  have run : t.fld (Reg.ISL_SEQ_CTL p) (runFld c) = 0 := by
    rw [s.fld_stopCtx p c st (.inr (by unfold runFld; split <;> decide)), State.setSt, State.fld_setFld_other _ _ _ _ apart,
      State.fld_setFld_same _ _ _ _ (runFld_fits c)]
    simp
  obtain ⟨d, hd, hne⟩ : ∃ d : Fin 2, d.val = 1 - c.val ∧ d ≠ c := ⟨⟨1 - c.val, by omega⟩, rfl, fun e => by
    have := congrArg Fin.val e; simp at this; omega⟩
  refine ⟨?_, by rw [State.bit, run]; rfl, ?_⟩
  · rw [status]; exact State.ctxSt_setSt_same _ p c h
  · rw [status, ← hd, State.ctxSt_setSt_other _ p st hne]
    exact State.fld_setFld_other _ _ _ _ apart.symm

theorem State.reg_raisePlaus (s : State) (p : Nat) {a : Nat} (h : a ≠ plausReg p) : (s.raisePlaus p).reg a = s.reg a := by
  unfold State.raisePlaus
  dsimp only
  split
  · rfl
  · exact State.reg_setReg_other _ _ h

theorem islReg_ne_plausReg (p : Fin 144) {off : Nat} (h : off < 0x10000) : islWin p + off ≠ plausReg p := by
  unfold plausReg Reg.TIDE_BCN_PLAUS_LO Reg.TIDE_BCN_PLAUS_HI qtrWin islWin
  split <;> omega

/-- The first fault of a context (R142, R144, R145): it is STOPPED, the record holds code, PC and INFO, the other context goes on, and
no byte of memory changes. -/
theorem State.seqFault_effect (s : State) (p : Fin 144) (c : Fin 2) {code pc info : Nat} (hcode : code < 256) (hpc : pc < 16384)
    (hinfo : info < 2 ^ 32) (hbrk : code ≠ 0x10) (hfirst : s.bit (Reg.ISL_SEQ_FAULT p c) Fd.ISL_SEQ_FAULT_VALID = false) :
    let t := s.seqFault p c code pc info
    t.ctxSt p c = 5 ∧ t.bit (Reg.ISL_SEQ_CTL p) (runFld c) = false
      ∧ t.fld (Reg.ISL_SEQ_FAULT p c) Fd.ISL_SEQ_FAULT_CODE = code ∧ t.fld (Reg.ISL_SEQ_FAULT p c) Fd.ISL_SEQ_FAULT_PC = pc
      ∧ t.bit (Reg.ISL_SEQ_FAULT p c) Fd.ISL_SEQ_FAULT_VALID = true ∧ (t.reg (Reg.ISL_SEQ_FINFO p c)).toNat = info
      ∧ t.ctxSt p (1 - c.val) = s.ctxSt p (1 - c.val) ∧ (∀ a, t.byte a = s.byte a) := by
  intro t
  have hc := c.isLt
  set d := s.discardSigs p c
  set u := d.stopCtx p c 5
  obtain ⟨stopped, run, other⟩ := d.stopCtx_stops p c (st := 5) (by decide)
  have first : u.bit (Reg.ISL_SEQ_FAULT p c) Fd.ISL_SEQ_FAULT_VALID = false := by
    rw [← hfirst, State.bit, d.fld_stopCtx p c 5 (.inl (by unfold Reg.ISL_SEQ_FAULT islWin; omega)), State.setSt,
      State.fld_setFld_other _ _ _ _ (by unfold Reg.ISL_SEQ_FAULT Reg.ISL_SEQ_STATUS; omega),
      State.fld_setFld_other _ _ _ _ (by unfold Reg.ISL_SEQ_FAULT Reg.ISL_SEQ_CTL; omega)]
    rfl
  set w : Word := BitVec.ofNat 32 (code % 256 + (pc % 2 ^ 14) * 2 ^ 8 + 2 ^ 22)
  have record : t = (((u.setReg (Reg.ISL_SEQ_FAULT p c) w).setReg (Reg.ISL_SEQ_FINFO p c) (BitVec.ofNat 32 info)).raisePlaus p).report
      .seqFault p (code % 256 + c % 2 * 2 ^ 8 + pc % 2 ^ 14 * 2 ^ 9) info := by
    show s.seqFault p c code pc info = _
    simp only [State.seqFault, if_neg hbrk]
    rw [State.recordFault, first]
    rfl
  have reg {off : Nat} (h : off < 0x10000) : t.reg (islWin p + off)
      = ((u.setReg (Reg.ISL_SEQ_FAULT p c) w).setReg (Reg.ISL_SEQ_FINFO p c) (BitVec.ofNat 32 info)).reg (islWin p + off) := by
    rw [record, State.reg_congr (State.report_regs _ _ _ _ _), State.reg_raisePlaus _ _ (islReg_ne_plausReg p h)]
  have kept {off : Nat} (h : off < 0x20) : t.reg (islWin p + off) = u.reg (islWin p + off) := by
    rw [reg (by omega), State.reg_setReg_other _ _ (by unfold Reg.ISL_SEQ_FINFO; omega),
      State.reg_setReg_other _ _ (by unfold Reg.ISL_SEQ_FAULT; omega)]
  have fault : t.reg (Reg.ISL_SEQ_FAULT p c) = w := by
    have e : Reg.ISL_SEQ_FAULT p c = islWin p + (0x20 + c * 8) := Nat.add_assoc _ _ _
    rw [e, reg (by omega), ← e, State.reg_setReg_other _ _ (by unfold Reg.ISL_SEQ_FAULT Reg.ISL_SEQ_FINFO; omega),
      State.reg_setReg_same]
  have finfo : t.reg (Reg.ISL_SEQ_FINFO p c) = BitVec.ofNat 32 info := by
    have e : Reg.ISL_SEQ_FINFO p c = islWin p + (0x24 + c * 8) := Nat.add_assoc _ _ _
    rw [e, reg (by omega), ← e, State.reg_setReg_same]
  have word : w.toNat = code + pc * 2 ^ 8 + 2 ^ 22 := by simp only [w, BitVec.toNat_ofNat]; omega
  have status (x : Nat) : t.ctxSt p x = u.ctxSt p x := congrArg (Fld.get _) (kept (off := 4) (by decide))
  have mem : t.mem = s.mem := State.mem_of_accs (s.seqFault_accs p c code pc info)
  refine ⟨(status c).trans stopped, ?_, ?_, ?_, ?_, ?_, ?_, fun a => State.byte_congr mem a⟩
  · rw [State.bit, State.fld, show t.reg (Reg.ISL_SEQ_CTL p) = u.reg (Reg.ISL_SEQ_CTL p) from kept (off := 0) (by decide)]
    exact run
  · rw [State.fld, fault, Fld.get, word]; simp only [Fd.ISL_SEQ_FAULT_CODE]; omega
  · rw [State.fld, fault, Fld.get, word]; simp only [Fd.ISL_SEQ_FAULT_PC]; omega
  · rw [State.bit, State.fld, fault, Fld.get, word, beq_iff_eq]; simp only [Fd.ISL_SEQ_FAULT_VALID]; omega
  · rw [finfo, BitVec.toNat_ofNat]; exact Nat.mod_eq_of_lt hinfo
  · rw [status]; exact other

/-- Settles O3. Where an instruction executes it issues with its meaning; the checks of its word come before (`issue_picked`), and a
fault is `State.seqFault_effect`. -/
theorem controlFlowAndFaults : Obligations.ControlFlowAndFaults := by
  unfold Obligations.ControlFlowAndFaults
  refine ⟨fun p c s => ⟨fun h hv hin => ?_, fun n h hv hn hbody hroom hnest => ?_, exec_fence_ready, fun h hv htide => ?_,
    fun h hv => ?_, exec_brk_ready⟩, fun p c s hpick => ⟨issueOut_undefined hpick _, fun b h hv => ?_, fun code pc info => ?_⟩⟩
  · rw [exec_br_ready h hv, issues, State.conclude_branch _ (by simpa using hin), State.loops_running]
  · rw [exec_loop_ready h hv, loopAct_enters _ (by simpa using hn) hbody (by simpa using hroom) (by simpa using hnest),
      State.loops_running]
  · rw [exec_tmark_ready h hv, tmarkAct_of_tide _ (by rwa [State.seqTide_running])]; rfl
  · rw [exec_halt_ready h hv]; rfl
  · exact issueOut_reserved h _ rfl rfl (by decide) (by simp [srcFields, h.opc_eq]) hv
  · exact s.seqFault_effect p c

end Sys2Proof.Machine
end

section
/-! SUPPORT. Scalar loads and stores: the issue of each, what the return of a load writes, and the address of an access (R128 to R130,
R191 to R193). -/

namespace Sys2Proof.Machine

/-! ### A translation leaves memory alone -/

section
variable (s : State) (A : Acc)

@[simp] theorem State.badRead_mem : (s.badRead A).mem = s.mem := by
  unfold State.badRead
  split
  · exact State.raisePlaus_mem _ _
  · split <;> rfl

@[simp] theorem State.touchCws_mem (as : List Nat) : (s.touchCws A as).mem = s.mem := by
  induction as generalizing s with
  | nil => rfl
  | cons a r ih =>
    rw [State.touchCws, ih]
    split
    · rfl
    · dsimp only
      split <;> simp

@[simp] theorem State.pageOf_mem (va : Nat) : (s.pageOf A va).2.mem = s.mem := by
  have counted (b : Prop) [Decidable b] (a : Nat) : (if b then s else s.count a 1).mem = s.mem := by split <;> rfl
  unfold State.pageOf
  dsimp only
  split
  · rfl
  · split
    · rw [State.walkTouch, State.touchCws_mem, counted]
    · rw [State.setQtr_mem, State.walkTouch, State.touchCws_mem, counted]

@[simp] theorem State.xlate_mem (va : Int) (wr : Bool) : (s.xlate A va wr).2.mem = s.mem := by
  have page := s.pageOf_mem A va.toNat
  unfold State.xlate
  split
  · rfl
  · dsimp only
    split
    case h_1 hp => rw [hp] at page; exact page
    case h_2 hp =>
      rw [hp] at page
      repeat' split
      all_goals exact page

end

/-- An access that is not aligned to its size faults ALIGN, with the low bits of its address (R128). -/
theorem State.scalarAddr_of_misaligned (s : State) (p c : Nat) {va : Int} {n : Nat} (wr : Bool) (h : va % (n : Int) ≠ 0) :
    s.scalarAddr p c va n wr = (.error (0x08, toPat 32 va), s) := if_pos h

/-- An access that has a physical address is aligned, and its translation leaves memory alone (R128, R192). -/
theorem State.scalarAddr_of_ok {s t : State} {p c n pa : Nat} {va : Int} {wr : Bool}
    (h : s.scalarAddr p c va n wr = (.ok pa, t)) : va % (n : Int) = 0 ∧ t.mem = s.mem := by
  by_cases ha : va % (n : Int) = 0
  · have mem := s.xlate_mem (scalarAcc s p c) va wr
    rw [State.scalarAddr, if_neg (not_not.2 ha)] at h
    generalize s.xlate (scalarAcc s p c) va wr = x at h mem
    obtain ⟨_ | pa', u⟩ := x
    · cases h
    · cases h
      exact ⟨ha, mem⟩
  · rw [s.scalarAddr_of_misaligned p c wr ha] at h
    cases h

/-! ### Issue -/

section
variable {s : State} {p : Fin 144} {c : Fin 2}

/-- The state after a scalar access: an access whose codeword check was bad raises the plausibility flag (R272). -/
def AccRes.checked (r : AccRes) (p : Nat) : State := if r.bad then r.st.raisePlaus p else r.st

/-- A scalar load on its way, with the data of a read. -/
def AccRes.loading (r : AccRes) (p c rd pc : Nat) (k : LoadKind) : State :=
  (r.checked p).setCtx p c { (r.checked p).ctx p c with loads := ((r.checked p).ctx p c).loads ++ [⟨rd, k, leNat r.data, pc⟩] }

theorem State.startLoad_ok {t u : State} {pa n rd pc : Nat} {va : Int} {k : LoadKind}
    (h : t.scalarAddr p c va n false = (.ok pa, u)) :
    t.startLoad p c pc rd n va k = .next ((u.readChk pa n 5 (u.logicalOf p)).loading p c rd pc k) := by
  rw [State.startLoad, h]
  rfl

theorem exec_lds_ready (h : Ready s p c 0x20 [ifld (s.iword p c) 21 17])
    (hv : rsvInfo (maskOf 23 12 ||| maskOf 63 32) [] (s.iword p c) = none) (hz : ifld (s.iword p c) 23 22 ≠ 3) :
    exec (.lds p c) s = issues s p c ((s.running p c).startLoad p c (s.pc p c) (ifld (s.iword p c) 16 12)
      (scalarSize (ifld (s.iword p c) 23 22)) (scalarVa p c s (s.iword p c)) (.lds (ifld (s.iword p c) 23 22))) := by
  rw [exec, execLds, issueOut_plain h _ rfl rfl (by decide) (by simp [srcFields, h.opc_eq])
    (rsvInfo_of_none hv (by simpa using hz))]
  simp only [scalarVa, State.sreg_running]

theorem exec_sts_ready (h : Ready s p c 0x21 [ifld (s.iword p c) 16 12, ifld (s.iword p c) 21 17])
    (hv : rsvInfo (maskOf 23 12 ||| maskOf 63 32) [] (s.iword p c) = none) (hz : ifld (s.iword p c) 23 22 ≠ 3) :
    exec (.sts p c) s = issues s p c (stsAct p c (s.running p c) (s.pc p c) (s.iword p c)) := by
  rw [exec, execSts, issueOut_plain h _ rfl rfl (by decide) (by simp [srcFields, h.opc_eq])
    (rsvInfo_of_none hv (by simpa using hz))]

/-- A store at an address that translates (R128). -/
theorem stsAct_ok {t u : State} {pa pc w : Nat} (h : t.scalarAddr p c (scalarVa p c t w) (scalarSize (ifld w 23 22)) true = (.ok pa, u)) :
    stsAct p c t pc w = .next ((u.writeChk pa (leBytes (scalarSize (ifld w 23 22)) (t.sreg p c (ifld w 16 12))) 5
      (u.logicalOf p)).checked p) := by
  simp only [stsAct, h]
  rfl

theorem exec_ldshape_ready (h : Ready s p c 0x22 [ifld (s.iword p c) 21 17])
    (hv : rsvInfo (maskOf 30 12 ||| maskOf 109 32) [] (s.iword p c) = none) :
    exec (.ldshape p c) s = issues s p c (ldshapeAct p c (s.running p c) (s.pc p c) (s.iword p c)) :=
  issueOut_plain h _ rfl rfl (by decide) (by simp [srcFields, h.opc_eq]) hv

/-- An LDSHAPE whose clamp Buoy, if it names one, is on a logical Island of the module (R129, R130). -/
theorem ldshapeAct_of_buoy (t : State) {pc w : Nat} (h : ifld w 22 22 = 1 → ifld w 30 23 < t.logicalCount) :
    ldshapeAct p c t pc w = t.startLoad p c pc (ifld w 16 12) 4 (scalarVa p c t w)
      (.shape (ifld w 95 64) (ifld w 22 22 == 1) (ifld w 30 23) (ifld w 109 96)) := by
  refine if_neg fun e => ?_
  rw [Bool.and_eq_true, beq_iff_eq, decide_eq_true_eq] at e
  exact absurd (h e.1) (Nat.not_lt.2 e.2)

/-! ### Return -/

theorem State.home_congr {s t : State} (h : t.reg Reg.ISL_POLICY = s.reg Reg.ISL_POLICY) (l : Nat) : t.home l = s.home l := by
  rw [State.home, State.perQuarter, State.fld, h]
  rfl

theorem State.selfId_congr {s t : State} {q : Nat} (h : t.reg (Reg.STR_SELF q) = s.reg (Reg.STR_SELF q)) :
    t.selfId q = s.selfId q := congrArg Fd.STR_SELF_ID.get h

theorem State.logicalOf_congr {s t : State} {p : Nat} (h : t.reg (Reg.ISL_PSTATE p) = s.reg (Reg.ISL_PSTATE p)) :
    t.logicalOf p = s.logicalOf p := congrArg Fd.ISL_PSTATE_LOGICAL.get h

theorem scalarLoadReturn_lds {rd size val pc : Nat} {rest : List Load}
    (h : (s.ctx p c).loads = ⟨rd, .lds size, val, pc⟩ :: rest) :
    exec (.scalarLoadReturn p c) s = settled ((((s.setCtx p c { s.ctx p c with loads := rest }).setSreg p c rd
      (ldsValue size val)).wakeCtx p c).islandMark p) := by
  simp only [exec, execScalarLoadReturn, h]

theorem scalarLoadReturn_shape {rd mx lisl bidx val pc : Nat} {cbv : Bool} {rest : List Load}
    (h : (s.ctx p c).loads = ⟨rd, .shape mx cbv lisl bidx, val, pc⟩ :: rest) :
    exec (.scalarLoadReturn p c) s = settled (((((if val > mx
        then (s.setCtx p c { s.ctx p c with loads := rest }).shapeClamp p c pc cbv lisl bidx
        else s.setCtx p c { s.ctx p c with loads := rest })).setSreg p c rd (min val mx)).wakeCtx p c).islandMark p) := by
  simp only [exec, execScalarLoadReturn, h]

/-- A clamp writes its counter and its event bit, and signals to the Buoy that the load names (R130). -/
theorem State.shapeClamp_eq (s : State) (p : Fin 144) (c pc : Nat) (cbv : Bool) (lisl bidx : Nat) :
    s.shapeClamp p c pc cbv lisl bidx =
      (let clamped := (s.count (Reg.ISL_SEQ_CNT_CLAMP p) 1).setFld (Reg.ISL_SEQ_EVT p) Fd.ISL_SEQ_EVT_CLAMP 1
       if cbv then clamped.buoyArrive (s.home lisl)
         { port := islPort (s.home lisl) p, bidx := bidx, tl := lisl, kind := 4, val := 1, mod := s.selfId (quarterOf p),
           lisl := s.logicalOf p, sctx := c, pc := pc, src := none, answer := none } else clamped) := by
  have kept {a : Nat} (h : 0x5000000 ≤ a) : ((s.count (Reg.ISL_SEQ_CNT_CLAMP p) 1).setFld (Reg.ISL_SEQ_EVT p)
      Fd.ISL_SEQ_EVT_CLAMP 1).reg a = s.reg a := by
    rw [State.reg_setFld_other _ _ _ (by simp only [Reg.ISL_SEQ_EVT, islWin]; omega), State.reg_count,
      if_neg (by simp only [Reg.ISL_SEQ_CNT_CLAMP, islWin]; omega)]
  have home (l : Nat) := State.home_congr (kept (a := Reg.ISL_POLICY) (by decide)) l
  have self (q : Nat) := State.selfId_congr (kept (a := Reg.STR_SELF q) (by simp only [Reg.STR_SELF, qtrWin]; omega))
  have logical := State.logicalOf_congr (kept (a := Reg.ISL_PSTATE p) (by simp only [Reg.ISL_PSTATE, modWin]; omega))
  simp only [State.shapeClamp, home, self, logical]

end

/-- Settles O4. A load that issues is on its way with the data read (`State.startLoad_ok`), a store is written (`stsAct_ok`), a return
writes the destination, and an address is checked for its alignment before it is translated. -/
theorem scalarMemoryAccesses : Obligations.ScalarMemoryAccesses := by
  unfold Obligations.ScalarMemoryAccesses
  refine ⟨fun p c s => ⟨fun pa u h hv hz ha => ?_, fun pa u h hv hz ha => ?_, fun pa u h hv hbuoy ha => ?_,
    fun rd size val pc rest hl => scalarLoadReturn_lds hl, fun rd mx cbv lisl bidx val pc rest hl hle => ?_,
    fun rd mx cbv lisl bidx val pc rest hl hlt => ?_⟩,
    fun p c s va n wr _ => ⟨s.scalarAddr_of_misaligned p c wr, fun _ _ => State.scalarAddr_of_ok⟩⟩
  · rw [exec_lds_ready h hv hz, State.startLoad_ok (n := scalarSize _) (va := scalarVa p c s _) ha]
    rfl
  · rw [exec_sts_ready h hv hz, stsAct_ok (u := u) (pa := pa) (by rw [scalarVa, State.sreg_running]; exact ha), State.sreg_running]
    rfl
  · have count : (s.running p c).logicalCount = s.logicalCount := by
      have policy := s.reg_running p c (a := Reg.ISL_POLICY) (by
        unfold Reg.ISL_POLICY Reg.ISL_SEQ_STATUS modWin islWin; omega)
      rw [State.logicalCount, State.fld, policy]
      rfl
    rw [exec_ldshape_ready h hv, ldshapeAct_of_buoy _ (by rwa [count]), scalarVa, State.sreg_running, State.startLoad_ok ha]
    rfl
  · rw [scalarLoadReturn_shape hl, if_neg (Nat.not_lt.2 hle), Nat.min_eq_left hle]
    rfl
  · rw [scalarLoadReturn_shape hl, if_pos hlt, Nat.min_eq_right hlt.le, State.shapeClamp_eq]
    rfl

end Sys2Proof.Machine
end

section
/-! SUPPORT. MM, DRAIN, FERRY and the Shoal instructions where they issue: the operation joins its queue as numbered work of its class
(R114, R131, R133 to R135). -/

namespace Sys2Proof.Machine

section
variable {s : State} {p : Fin 144} {c : Fin 2}

/-- A matrix instruction whose formats R44 lists and whose parameters are in range (R131, R133). -/
theorem mmAct_ok {t : State} {pc w : Nat} (hfa : ifld w 20 17 ≤ 8) (hfb : ifld w 24 21 ≤ 8)
    (hp : t.mmParam p (t.mmOf p c pc t.nextWork w) = none) :
    mmAct p c t pc w = .next (((t.addWork 0 (.ctx p c) pc).2).setIsl p { t.isl p with
      mmq := (t.isl p).mmq ++ [t.mmOf p c pc t.nextWork w] }) := by
  have formats : ¬(ifld w 20 17 > 8 ∨ ifld w 24 21 > 8) := by omega
  simp only [mmAct, if_neg formats, hp]
  rfl

/-- A drain whose count and range fit the tile (R134). -/
theorem drainAct_ok {t : State} {pc w trow n : Nat} (htrow : trow = ifld w 28 16 + t.sreg p c (ifld w 33 29) % 2 ^ 13)
    (hcount : n = if ifld w 52 48 = 0 then ifld w 47 34 else t.sreg p c (ifld w 52 48) % 2 ^ 14)
    (hpos : 0 < n) (hmax : n ≤ 8192) (hend : trow + n - 1 ≤ 8191) :
    drainAct p c t pc w = .next ((((t.addWork 1 (.ctx p c) pc).2).setIsl p { t.isl p with ebbq := (t.isl p).ebbq
      ++ [⟨t.nextWork, c, pc, ifld w 15 12, trow, n, ifld w 58 53, t.origin p c (ifld w 63 59)⟩] }).setFld (Reg.EBB_STATUS p)
      Fd.EBB_STATUS_QDEPTH ((t.isl p).ebbq.length + 1)) := by
  simp only [drainAct, ← htrow, ← hcount]
  rw [if_neg (by omega), if_neg (by omega)]
  rfl

/-- A Shoal descriptor at an aligned address (R135). -/
theorem shoalAct_ok {t : State} {pc w : Nat} (ha : descVa p c t w % 64 = 0) :
    shoalAct p c t pc w = .next ((((t.addWork 2 (.ctx p c) pc).2).setIsl p { t.isl p with shlq := (t.isl p).shlq
      ++ [⟨t.nextWork, c, pc, ifld w 15 12, descVa p c t w⟩] }).setFld (Reg.SHL_STATUS p) Fd.SHL_STATUS_QDEPTH
      ((t.isl p).shlq.length + 1)) := by
  rw [shoalAct, if_neg (not_not.2 ha)]
  rfl

/-- A Ferry descriptor at an aligned address (R135). -/
theorem ferryAct_ok {t : State} {pc w : Nat} (ha : descVa p c t w % 64 = 0) :
    ferryAct p c t pc w = .next ((((t.addWork 3 (.ctx p c) pc).2).setFry (ferryOf p w) { t.fry (ferryOf p w) with
      queue := (t.fry (ferryOf p w)).queue ++ [⟨t.nextWork, .ctx p c, pc, descVa p c t w, false⟩] }).setFld
      (Reg.FRY_STATUS (ferryOf p w / 4) (ferryOf p w % 4)) Fd.FRY_STATUS_QDEPTH
      ((t.fry (ferryOf p w)).queue.length + 1)) := by
  rw [ferryAct, if_neg (not_not.2 ha)]
  rfl

theorem descVa_running (w : Nat) : descVa p c (s.running p c) w = descVa p c s w := by
  simp only [descVa, State.sreg_running]

/-- The issue of the Shoal instruction of one sub-operation (R135, R217). -/
theorem shoalIssue_ready {sop : Nat} (h : Ready s p c 0x50 [ifld (s.iword p c) 20 16])
    (hv : rsvInfo (maskOf 20 12 ||| maskOf 63 32) [] (s.iword p c) = none) (hsop : ifld (s.iword p c) 15 12 = sop) (hle : sop ≤ 7)
    (ha : descVa p c s (s.iword p c) % 64 = 0) (hroom : (s.isl p).shlq.length < 8) :
    settled (shoalIssue sop p c s) = issues s p c (.next (((((s.running p c).addWork 2 (.ctx p c) (s.pc p c)).2).setIsl p
      { s.isl p with shlq := (s.isl p).shlq ++ [⟨s.nextWork, c, s.pc p c, sop, descVa p c s (s.iword p c)⟩] }).setFld
      (Reg.SHL_STATUS p) Fd.SHL_STATUS_QDEPTH ((s.isl p).shlq.length + 1))) := by
  have issue := issueOut_ready h ⟨fun w => opc w == 0x50 && (ifld w 15 12 == sop || decide (ifld w 15 12 > 7)),
    fun w => rsvInfo (maskOf 20 12 ||| maskOf 63 32) [(decide (ifld w 15 12 > 7), 12)] w, shoalAct p c⟩
    (by simp [h.opc_eq, hsop]) rfl (by simp [srcFields, h.opc_eq]) (by simpa [State.hasRoom, h.opc_eq] using hroom)
    (rsvInfo_of_none hv (by simpa [hsop] using hle))
  refine issue.trans ?_
  dsimp only
  rw [shoalAct_ok (by rwa [descVa_running]), descVa_running, hsop]
  rfl

end

/-- Settles O5. Each instruction issues with its meaning (`issueOut_ready`), and its meaning queues the operation. -/
theorem engineIssue : Obligations.EngineIssue := by
  unfold Obligations.EngineIssue
  refine fun p c s => ⟨fun h hv hfa hfb hroom hp => ?_, fun trow n h hv horg hroom htrow hcount hpos hmax hend => ?_,
    fun h hv ha hroom => ?_, fun i sop hi h hv hsop ha hroom => ?_⟩
  · refine (issueOut_ready h _ (beq_iff_eq.2 h.opc_eq) rfl (by simp [srcFields, h.opc_eq])
      (by simpa [State.hasRoom, h.opc_eq] using hroom) hv).trans ?_
    dsimp only
    rw [mmAct_ok hfa hfb hp]
    rfl
  · refine (issueOut_ready h _ (beq_iff_eq.2 h.opc_eq) rfl (by simp [srcFields, h.opc_eq])
      (by simpa [State.hasRoom, h.opc_eq] using hroom) (rsvInfo_of_none hv (by simpa using horg))).trans ?_
    dsimp only
    rw [drainAct_ok (by rwa [State.sreg_running]) (by rwa [State.sreg_running]) hpos hmax hend, State.origin_running]
    rfl
  · refine (issueOut_ready h _ (beq_iff_eq.2 h.opc_eq) rfl (by simp [srcFields, h.opc_eq])
      (by simpa [State.hasRoom, h.opc_eq] using hroom) hv).trans ?_
    dsimp only
    rw [ferryAct_ok (by rw [descVa_running]; exact ha), descVa_running]
    rfl
  · simp only [List.mem_cons, Prod.mk.injEq, List.not_mem_nil, or_false] at hi
    rcases hi with ⟨rfl, rfl⟩ | ⟨rfl, rfl⟩ | ⟨rfl, rfl⟩ | ⟨rfl, rfl⟩ | ⟨rfl, rfl⟩ | ⟨rfl, rfl⟩ | ⟨rfl, rfl⟩ | ⟨rfl, rfl⟩
    all_goals exact shoalIssue_ready h hv hsop (by decide) ha hroom

end Sys2Proof.Machine
end

section
/-! SUPPORT. RUN bits of a context, hand writes of Buoys and dumps (R145, R146, R155, R156, R159, R392). -/

namespace Sys2Proof.Machine

/-! ### Requesters -/

theorem State.guarded_permitted {s : State} {r : Requester} {a : Nat} (act : State → State) (hup : s.up = true)
    (h : s.mayWrite r a = true) : s.guarded r a act = act s := by
  simp [State.guarded, hup, h]

theorem State.guarded_denied {s : State} {r : Requester} {a : Nat} (act : State → State) (hup : s.up = true)
    (h : s.mayWrite r a = false) : s.guarded r a act = s.denied r a := by
  simp [State.guarded, hup, h]

theorem State.denied_keeps (s : State) (r : Requester) (a : Nat) : KeepsBut [.accessErrs, .bus] s (s.denied r a) :=
  (s.accessErr_keeps _ _ _ _).trans (State.respond_keeps _ _)

/-! ### RUN bits -/

section
variable (s : State) (p c : Nat)

theorem State.ctx_setCtx_same (y : Ctx) : (s.setCtx p c y).ctx p c = y := by
  rw [State.ctx, State.setCtx, State.isl_setIsl, if_pos rfl]
  by_cases h : c = 0 <;> simp [Isl.ctx, Isl.setCtx, h]

theorem State.setCtx_keeps (y : Ctx) : KeepsBut [.isls] s (s.setCtx p c y) := s.setIsl_keeps p _

/-- What RUN and a stop write: the RUN bit and the state of the context. -/
def State.setRun (run st : Nat) : State := (s.setFld (Reg.ISL_SEQ_CTL p) (runFld c) run).setSt p c st

theorem State.setRun_frame (run st : Nat) : KeepsBut [.regs] s (s.setRun p c run st)
    ∧ RegsBut [Reg.ISL_SEQ_CTL p, Reg.ISL_SEQ_STATUS p] s (s.setRun p c run st) :=
  ⟨((s.setReg_keeps _ _).trans (State.setReg_keeps _ _ _)).mono (by simp),
    ((s.setReg_regsBut _ _).mono (by simp)).trans ((State.setSt_regsBut _ p c st).mono (by simp))⟩

theorem State.setRun_fields {run st : Nat} (hrun : run < 2) (hst : st < 8) :
    (s.setRun p c run st).ctxSt p c = st ∧ (s.setRun p c run st).fld (Reg.ISL_SEQ_CTL p) (runFld c) = run := by
  have apart : Reg.ISL_SEQ_CTL p ≠ Reg.ISL_SEQ_STATUS p := by simp [Reg.ISL_SEQ_CTL, Reg.ISL_SEQ_STATUS]
  have one : (runFld c).w = 1 := by unfold runFld; split <;> rfl
  refine ⟨State.ctxSt_setSt_same _ p c hst, ?_⟩
  rw [State.setRun, State.setSt, State.fld_setFld_other _ _ _ _ apart, State.fld_setFld_same _ _ _ _ (runFld_fits c), one]
  omega

/-- RUN 1 on a STOPPED or IDLE context of an Island that is not RETIRED (R41, R145). -/
theorem State.runCtx_stopped (h : s.ctxSt p c = 0 ∨ s.ctxSt p c = 5) (hp : s.pstate p ≠ 6) : s.runCtx p c = s.setRun p c 1 1 :=
  if_pos (by rcases h with h | h <;> simp [State.ctxStopped, h, hp])

/-- RUN 0 on a context that runs and waits for nothing (R146). -/
theorem State.stopRun_running (h : s.ctxSt p c = 1) (hw : (s.ctx p c).wait = .none) : s.stopRun p c
    = (s.setRun p c 0 5).setCtx p c { s.ctx p c with wait := .none, waitReported := false, waitCycles := 0 } := by
  rw [State.stopRun, if_neg (by omega), State.stopCtx]
  have wait : ((s.setRun p c 0 5).ctx p c).wait = .none := hw
  simp only [State.setRun] at wait ⊢
  simp only [wait]
  rfl

end

/-! ### Hand writes -/

/-- A field that the waits of a Buoy do not touch: it is neither in the record of its last wait nor WAITERS (R152, R157). -/
def KeptByWaits (q b a : Nat) (f : Fld) : Prop :=
  a ≠ Reg.BUOY_LWAIT_SRC (16384 * q + b) ∧ (a = Reg.BUOY_FLAGS (16384 * q + b) → f.lo + f.w ≤ 12)

section
variable (s : State) (q b : Nat) {a : Nat} {f : Fld} (h : KeptByWaits q b a f)

theorem State.fld_setChan (ch : Nat) (x : Chan) : (s.setChan ch x).fld a f = s.fld a f := rfl

include h

theorem State.fld_syncWaiters : (s.syncWaiters q b).fld a f = s.fld a f := by
  by_cases ha : a = Reg.BUOY_FLAGS (16384 * q + b)
  · subst ha
    exact s.fld_setFld_disjoint _ Fd.BUOY_FLAGS_WAITERS f _ (by decide) (.inl (h.2 rfl))
  · exact s.fld_setFld_other _ _ _ ha

theorem State.fld_releaseWaits : (s.releaseWaits q b).fld a f = s.fld a f := by
  unfold State.releaseWaits
  dsimp only
  split
  · rfl
  · rw [State.fld_syncWaiters _ q b h]
    split
    · exact State.fld_setFld_other _ _ _ _ h.1
    · rfl

theorem State.fld_triggerBkts : (s.triggerBkts q b).fld a f = s.fld a f := by
  unfold State.triggerBkts
  refine foldl_keeps (g := fun s => s.fld a f) (fun s ch => ?_) _ s
  dsimp only
  split
  · split
    · exact State.fld_setFld_other _ _ _ _ h.1
    · rfl
  · rw [State.fld_setChan]
    split
    · exact State.fld_setFld_other _ _ _ _ h.1
    · rfl

theorem State.fld_buoyChanged : (s.buoyChanged q b).fld a f = s.fld a f :=
  (State.fld_triggerBkts _ q b h).trans (s.fld_releaseWaits q b h)

omit h

theorem State.releaseWaits_mem : (s.releaseWaits q b).mem = s.mem := by
  unfold State.releaseWaits
  dsimp only
  split
  · rfl
  · rw [State.syncWaiters, State.setFld_mem]
    split
    · rw [State.setFld_mem, State.setQtr_mem]
    · rw [State.setQtr_mem]

theorem State.triggerBkts_mem : (s.triggerBkts q b).mem = s.mem := by
  unfold State.triggerBkts
  refine foldl_keeps (g := State.mem) (fun s ch => ?_) _ s
  dsimp only
  split
  · split
    · rw [State.setFld_mem]
    · rfl
  · rw [State.setChan_mem]
    split
    · rw [State.setFld_mem]
    · rfl

end

/-- What a hand write does before the waits on its Buoy are served: the count, HAND, the record of the last operation, and the
counters (R155, R157, R158). -/
def State.handSet (s : State) (q b n : Nat) : State :=
  ((((s.setBuoy q b n).setFld (Reg.BUOY_FLAGS (16384 * q + b)) Fd.BUOY_FLAGS_HAND 1).recordSig q b
    (((s.setBuoy q b n).setFld (Reg.BUOY_FLAGS (16384 * q + b)) Fd.BUOY_FLAGS_HAND 1).selfId q) 0xFF 0 3 0 0 n).count
    (Reg.BUOY_CNT_HAND q) 1).count (Reg.BUOY_CNT_OPS q) 1

theorem State.buoyHand_eq (s : State) {r : Requester} (hr : (∃ c, r = .pilot c) ∨ r = .debug) (q b v : Nat) :
    s.buoyHand r q b v = if ((s.handSet q b (v % 2 ^ 31)).buoyChanged q b).loaded
      then ((List.range 36).map (36 * q + ·)).foldl State.raisePlaus ((s.handSet q b (v % 2 ^ 31)).buoyChanged q b)
      else (s.handSet q b (v % 2 ^ 31)).buoyChanged q b := by
  rcases hr with ⟨c, rfl⟩ | rfl <;> rfl

/-- Count and HAND after a hand write, and memory (R155, R156). -/
theorem State.handSet_effect (s : State) (q : Fin 4) (b : Fin 16384) (n : Nat) : let t := s.handSet q b n
    t.buoy q b = n % 2 ^ 31 ∧ t.bit (Reg.BUOY_FLAGS (16384 * q + b)) Fd.BUOY_FLAGS_HAND = true ∧ t.mem = s.mem := by
  intro t
  set g := 16384 * q.val + b with hg
  have reg {a : Nat} (h : a < 0x4000000) (hsrc : a ≠ Reg.BUOY_LSIG_SRC g) (hinfo : a ≠ Reg.BUOY_LSIG_INFO g)
      (hval : a ≠ Reg.BUOY_LSIG_VAL g) :
      t.reg a = ((s.setBuoy q b n).setFld (Reg.BUOY_FLAGS g) Fd.BUOY_FLAGS_HAND 1).reg a := by
    rw [show t = s.handSet q b n from rfl, State.handSet, State.reg_count,
      if_neg (by unfold Reg.BUOY_CNT_OPS qtrWin; omega), State.reg_count,
      if_neg (by unfold Reg.BUOY_CNT_HAND qtrWin; omega), State.recordSig, State.reg_setReg_other _ _ hval,
      State.reg_setReg_other _ _ hinfo, State.reg_setReg_other _ _ hsrc]
  have window : buoyWin g + 0x100 ≤ 0x4000000 := by unfold buoyWin; omega
  have val : t.reg (Reg.BUOY_VAL g) = (s.setBuoy q b n).reg (Reg.BUOY_VAL g) := by
    rw [reg (by unfold Reg.BUOY_VAL; omega) (by unfold Reg.BUOY_VAL Reg.BUOY_LSIG_SRC; omega)
      (by unfold Reg.BUOY_VAL Reg.BUOY_LSIG_INFO; omega) (by unfold Reg.BUOY_VAL Reg.BUOY_LSIG_VAL; omega),
      State.reg_setFld_other _ _ _ (by unfold Reg.BUOY_VAL Reg.BUOY_FLAGS; omega)]
  have flags : t.reg (Reg.BUOY_FLAGS g) = ((s.setBuoy q b n).setFld (Reg.BUOY_FLAGS g) Fd.BUOY_FLAGS_HAND 1).reg (Reg.BUOY_FLAGS g) :=
    reg (by unfold Reg.BUOY_FLAGS; omega) (by unfold Reg.BUOY_FLAGS Reg.BUOY_LSIG_SRC; omega)
      (by unfold Reg.BUOY_FLAGS Reg.BUOY_LSIG_INFO; omega) (by unfold Reg.BUOY_FLAGS Reg.BUOY_LSIG_VAL; omega)
  refine ⟨?_, ?_, ?_⟩
  · rw [State.buoy, State.fld, val]
    exact s.fld_setFld_same _ Fd.BUOY_VAL_COUNT n (by decide)
  · rw [State.bit, State.fld, flags, beq_iff_eq]
    exact State.fld_setFld_same _ _ Fd.BUOY_FLAGS_HAND 1 (by decide)
  · rw [show t = s.handSet q b n from rfl, State.handSet, State.count_mem, State.count_mem, State.recordSig, State.setReg_mem,
      State.setReg_mem, State.setReg_mem, State.setFld_mem, State.setBuoy, State.setFld_mem]

/-- A hand write by a core or the debug path (R155, R156). -/
theorem State.buoyHand_effect (s : State) {r : Requester} (hr : (∃ c, r = .pilot c) ∨ r = .debug) (q : Fin 4) (b : Fin 16384)
    (v : Nat) : let t := s.buoyHand r q b v
    t.buoy q b = v % 2 ^ 31 ∧ t.bit (Reg.BUOY_FLAGS (16384 * q + b)) Fd.BUOY_FLAGS_HAND = true ∧ ∀ x, t.byte x = s.byte x := by
  intro t
  set u := s.handSet q b (v % 2 ^ 31)
  obtain ⟨count, hand, mem⟩ := s.handSet_effect q b (v % 2 ^ 31)
  have window : buoyWin (16384 * q.val + b) + 0x100 ≤ 0x4000000 := by unfold buoyWin; omega
  have changed (a : Nat) (f : Fld) (h : KeptByWaits q b a f) (ha : a < 0x4000000) : t.fld a f = u.fld a f := by
    rw [show t = s.buoyHand r q b v from rfl, s.buoyHand_eq hr]
    split
    · have plaus (x : State) (p : Nat) : (x.raisePlaus p).fld a f = x.fld a f := by
        rw [State.fld, x.reg_raisePlaus p (by
          unfold plausReg Reg.TIDE_BCN_PLAUS_LO Reg.TIDE_BCN_PLAUS_HI qtrWin; split <;> omega)]
        rfl
      rw [foldl_keeps (g := fun x => x.fld a f) plaus]
      exact u.fld_buoyChanged q b h
    · exact u.fld_buoyChanged q b h
  refine ⟨?_, ?_, fun x => State.byte_congr ?_ x⟩
  · rw [State.buoy, changed _ _ ⟨by unfold Reg.BUOY_VAL Reg.BUOY_LWAIT_SRC; omega,
      fun e => absurd e (by unfold Reg.BUOY_VAL Reg.BUOY_FLAGS; omega)⟩ (by unfold Reg.BUOY_VAL; omega)]
    exact count.trans (Nat.mod_mod _ _)
  · rw [State.bit, changed _ _ ⟨by unfold Reg.BUOY_FLAGS Reg.BUOY_LWAIT_SRC; omega, fun _ => by decide⟩
      (by unfold Reg.BUOY_FLAGS; omega)]
    exact hand
  · rw [show t = s.buoyHand r q b v from rfl, s.buoyHand_eq hr]
    split
    · rw [foldl_keeps (g := State.mem) State.raisePlaus_mem, State.buoyChanged, State.triggerBkts_mem, State.releaseWaits_mem]
      exact mem
    · rw [State.buoyChanged, State.triggerBkts_mem, State.releaseWaits_mem]
      exact mem

theorem State.buoyHand_denied (s : State) {r : Requester} (hr : (∃ c, r = .shore c) ∨ r = .mgmt) (q b v : Nat) :
    s.buoyHand r q b v = s.denied r (Reg.BUOY_VAL (16384 * q + b)) := by
  rcases hr with ⟨c, rfl⟩ | rfl <;> rfl

/-! ### Dumps -/

theorem State.qtr_setFld (s : State) (a : Nat) (f : Fld) (v q : Nat) : (s.setFld a f v).qtr q = s.qtr q := rfl

theorem State.dumpGo_idle (s : State) (q : Nat) (h : s.bit (Reg.BUOY_DUMP_CTL q) Fd.BUOY_DUMP_CTL_GO = false) :
    s.dumpGo q = (s.setQtr q { s.qtr q with dumpPos := 0 }).setFld (Reg.BUOY_DUMP_CTL q) Fd.BUOY_DUMP_CTL_GO 1 :=
  if_neg (by simp [h])

theorem State.setQtr_keeps (s : State) (q : Nat) (x : Qtr) : KeepsBut [.qtrs] s (s.setQtr q x) := by
  refine ⟨rfl, fun p hp => ?_⟩
  cases p with
  | qtrs => exact absurd (List.mem_singleton.2 rfl) hp
  | _ => rfl

/-- No write outside a Lagoon and its program memory is mirrored (R28). -/
theorem State.mirrorAddr_hbm (s : State) {a : Nat} (h : 0x10000000000 ≤ a) : s.mirrorAddr a = none := by
  have outside : (∀ p, region a ≠ .prog p) ∧ ∀ p, region a ≠ .lag p := by
    unfold region
    repeat (rw [if_neg (by omega)])
    repeat' split
    all_goals simp
  unfold State.mirrorAddr
  split
  · dsimp only
    split
    · exact absurd ‹_› (outside.1 _)
    · exact absurd ‹_› (outside.2 _)
    · rfl
  · rfl

theorem State.store_hbm (s : State) {a : Nat} (h : 0x10000000000 ≤ a) (bs : List Byte) : s.store a bs = s.setBytes a bs := by
  induction bs generalizing s a with
  | nil => rfl
  | cons b bs ih =>
    have first : s.storeByte a b = s.setByte a b := by simp [State.storeByte, s.mirrorAddr_hbm h]
    rw [State.store, State.setBytes, first, ih _ (by omega)]

@[simp] theorem State.dumpRecord_length (s : State) (q b : Nat) : (s.dumpRecord q b).length = 32 := by
  simp [State.dumpRecord]

/-- A record of a dump, written where nothing stands against the access (R159). -/
theorem State.writeChk_hbm (s : State) {a : Nat} {d : List Byte} (req lisl : Nat) (ha : 0x10000000000 ≤ a)
    (hk : s.rangeKind a d.length true = 0) : let r := s.writeChk a d req lisl
    r.kind = 0 ∧ r.st.bytes a d.length = d ∧ BytesBut a d.length s r.st := by
  have kind : (if s.accessKind a true ≠ 0 then s.accessKind a true else s.accessKind (a + d.length - 1) true) = 0 := hk
  have written : s.writeChk a d req lisl = ⟨0, [], (s.writeMem a d req lisl).1, (s.writeMem a d req lisl).2⟩ := by
    simp only [State.writeChk, kind]
    rfl
  set u := (s.writeCws (a / 32 * 32) a (a + d.length) req lisl (cwSpan a d.length)).2
  have stored : (s.writeMem a d req lisl).2 = u.setBytes a d := u.store_hbm ha d
  rw [written, stored]
  refine ⟨rfl, u.bytes_setBytes_same a d, fun b hb => (u.setBytes_bytesBut a d b hb).trans ?_⟩
  exact State.byte_congr (s.writeCws_mem _ _ _ _ _ _) b

theorem State.bytes_congr {s t : State} (h : t.mem = s.mem) (a n : Nat) : t.bytes a n = s.bytes a n :=
  List.map_congr_left fun _ _ => State.byte_congr h _

/-- A record before the last, in a cycle in which the unit applies no operation, is written and the dump goes on (R159). -/
theorem exec_buoyDumpRecord {s : State} {q : Fin 4} {a : Nat} (hgo : s.bit (Reg.BUOY_DUMP_CTL q) Fd.BUOY_DUMP_CTL_GO = true)
    (harr : (s.qtr q).arrivals = []) (hpos : (s.qtr q).dumpPos < 16383)
    (ha : s.addr48 (Reg.BUOY_DUMP_ADDR_LO q) (Reg.BUOY_DUMP_ADDR_HI q) + 32 * (s.qtr q).dumpPos = a)
    (hk : (s.writeChk a (s.dumpRecord q (s.qtr q).dumpPos) 6 0xFF).kind = 0) :
    let r := s.writeChk a (s.dumpRecord q (s.qtr q).dumpPos) 6 0xFF
    exec (.buoyDumpRecord q) s = .next (r.st.setQtr q { r.st.qtr q with dumpPos := (s.qtr q).dumpPos + 1 }) := by
  intro r
  have acts : ¬((!s.bit (Reg.BUOY_DUMP_CTL q) Fd.BUOY_DUMP_CTL_GO) = true ∨ (!(s.qtr q).arrivals.isEmpty) = true) := by
    simp [hgo, harr]
  show execBuoyDumpRecord q s = _
  unfold execBuoyDumpRecord
  dsimp only
  rw [if_neg acts, ha, if_neg (not_not.2 hk), if_neg (Nat.ne_of_lt hpos)]

/-- Settles O7. A permitted write of RUN writes the RUN bit and the state; a hand write is `State.buoyHand_effect`; a record of a dump is a
write in HBM3E, which no swap mirrors (`State.writeChk_hbm`). -/
theorem runBitsAndHandWrites : Obligations.RunBitsAndHandWrites := by
  unfold Obligations.RunBitsAndHandWrites
  refine ⟨fun r p c s hup => ⟨fun hw hst hp => ?_, fun hw hst hwait => ?_, fun hw => ?_⟩,
    fun r q b v s hup => ⟨fun hr => ?_, fun hr => ?_, fun hw hgo => ?_, ?_⟩⟩
  · obtain ⟨st, run⟩ := s.setRun_fields p c (run := 1) (st := 1) (by decide) (by decide)
    obtain ⟨keeps, regs⟩ := s.setRun_frame p c 1 1
    refine ⟨s.setRun p c 1 1, ?_, st, beq_iff_eq.2 run, ?_, keeps, regs⟩
    · exact congrArg Host.Outcome.next ((State.guarded_permitted _ hup hw).trans (s.runCtx_stopped p c hst hp))
    · have pc := regs (Reg.ISL_SEQ_PC p c) (by simp [Reg.ISL_SEQ_PC, Reg.ISL_SEQ_CTL, Reg.ISL_SEQ_STATUS]; omega)
      exact congrArg Fd.ISL_SEQ_PC_PC.get pc
  · obtain ⟨st, run⟩ := s.setRun_fields p c (run := 0) (st := 5) (by decide) (by decide)
    obtain ⟨keeps, regs⟩ := s.setRun_frame p c 0 5
    refine ⟨_, congrArg Host.Outcome.next ((State.guarded_permitted _ hup hw).trans (s.stopRun_running p c hst hwait)),
      ?_, ?_, ?_, ?_, fun a ha => (State.reg_congr (State.setCtx_regs _ _ _ _) a).trans (regs a ha)⟩
    · rw [State.ctxSt, State.fld_setCtx]
      exact st
    · exact beq_eq_false_iff_ne.2 (by rw [State.fld_setCtx, run]; decide)
    · rw [State.ctx_setCtx_same]
    · exact (keeps.trans (State.setCtx_keeps _ p c _)).mono (by simp)
  · exact ⟨_, congrArg Host.Outcome.next (State.guarded_denied _ hup hw), rfl, s.denied_keeps r _⟩
  · exact ⟨_, if_pos hup, s.buoyHand_effect hr q b v.toNat⟩
  · have denied := s.buoyHand_denied hr q b v.toNat
    exact ⟨_, (if_pos hup).trans (congrArg Host.Outcome.next denied), rfl, s.denied_keeps r _⟩
  · refine ⟨_, congrArg Host.Outcome.next ((State.guarded_permitted _ hup hw).trans (s.dumpGo_idle q hgo)), ?_, ?_, ?_, ?_⟩
    · exact beq_iff_eq.2 (State.fld_setFld_same _ _ Fd.BUOY_DUMP_CTL_GO 1 (by decide))
    · rw [State.qtr_setFld, State.qtr_setQtr, if_pos rfl]
    · exact ((s.setQtr_keeps q _).trans (State.setReg_keeps _ _ _)).mono (by simp)
    · exact State.setReg_regsBut _ _ _
  · intro a hgo harr hpos hlo hhi hk
    have length := s.dumpRecord_length q (s.qtr q).dumpPos
    obtain ⟨kind, bytes, but⟩ := s.writeChk_hbm (d := s.dumpRecord q (s.qtr q).dumpPos) 6 0xFF hlo (by rwa [length])
    rw [length] at bytes but
    refine ⟨_, exec_buoyDumpRecord hgo harr hpos rfl kind, ?_, ?_, fun x hx => (State.byte_congr (State.setQtr_mem _ _ _) x).trans (but x hx)⟩
    · rw [State.bytes_congr (State.setQtr_mem _ _ _)]
      exact bytes
    · rw [State.qtr_setQtr, if_pos rfl]

end Sys2Proof.Machine
end

section
/-! SUPPORT. What the firmware does without a command in a cycle (R286, R386, R421, R450, R464): it writes its log in SRAM, queues
messages and writes registers of the module window, and no more of what a cycle may change. -/

namespace Sys2Proof.Machine

/-- Where the firmware writes its records: the enabled trace points, the log ring, the ring of exported records. -/
def State.rings (s : State) : List Nat × Nat × Nat × Nat := (s.fw.trace, s.fw.logBase, s.fw.logLog2, s.fw.expBase)

/-- The rings as they are at start-up: no trace point enabled, the start-up log ring, no ring of exported records. -/
def State.StartRings (s : State) : Prop := s.rings = ([], 0, 14, 0)

/-- What the firmware's own work leaves alone: the queue, the clock, its rings, the registers below the module window, HOLD of a swap, and
the Lagoons. -/
structure Served (s t : State) : Prop where
  pending : t.pending = s.pending
  cycle : t.cycle = s.cycle
  rings : t.rings = s.rings
  regs : ∀ a < modWin, t.reg a = s.reg a
  hold : t.bit Reg.ISL_SWAP_CTL Fd.ISL_SWAP_CTL_HOLD = s.bit Reg.ISL_SWAP_CTL Fd.ISL_SWAP_CTL_HOLD
  lagoon : ∀ a, 0x40000000 ≤ a → a < 0x88000000 → t.byte a = s.byte a

namespace Served

theorem refl (s : State) : Served s s := ⟨rfl, rfl, rfl, fun _ _ => rfl, rfl, fun _ _ _ => rfl⟩

theorem trans {s t u : State} (h : Served s t) (h' : Served t u) : Served s u :=
  ⟨h'.pending.trans h.pending, h'.cycle.trans h.cycle, h'.rings.trans h.rings, fun a ha => (h'.regs a ha).trans (h.regs a ha),
    h'.hold.trans h.hold, fun a h1 h2 => (h'.lagoon a h1 h2).trans (h.lagoon a h1 h2)⟩

theorem startRings {s t : State} (h : Served s t) (hs : s.StartRings) : t.StartRings := h.rings.trans hs

/-- A further part of the work, from rings that are still as at start-up. -/
theorem next {s t u : State} (hs : s.StartRings) (h : Served s t) (h' : t.StartRings → Served t u) : Served s u :=
  h.trans (h' (h.startRings hs))

/-- An update of parts that no register, no byte and none of the rings belong to. -/
theorem of_parts {s t : State} (hp : t.pending = s.pending) (hc : t.cycle = s.cycle) (hr : t.rings = s.rings)
    (hregs : t.regs = s.regs) (hm : t.mem = s.mem) : Served s t :=
  ⟨hp, hc, hr, fun a _ => State.reg_congr hregs a, State.bit_congr (State.reg_congr hregs _) _, fun a _ _ => State.byte_congr hm a⟩

theorem withFw (s : State) (w : Fw) (h : (w.trace, w.logBase, w.logLog2, w.expBase) = s.rings) : Served s { s with fw := w } :=
  of_parts rfl rfl h rfl rfl

/-- A write of a register of the module window other than ISL_SWAP_CTL. -/
theorem setReg (s : State) {a : Nat} (v : Word) (ha : modWin ≤ a) (hne : a ≠ Reg.ISL_SWAP_CTL) : Served s (s.setReg a v) :=
  ⟨State.setReg_pending s a v, State.setReg_cycle s a v, by rw [State.rings, State.setReg_fw]; rfl,
    fun b hb => s.reg_setReg_other v (Nat.ne_of_lt (hb.trans_le ha)), State.bit_congr (s.reg_setReg_other v hne.symm) _,
    fun b _ _ => State.byte_congr (State.setReg_mem s a v) b⟩

/-- A write of a field of ISL_SWAP_CTL other than HOLD. -/
theorem setFld_swapCtl (s : State) {f : Fld} (v : Nat) (hf : f.lo + f.w ≤ 23) : Served s (s.setFld Reg.ISL_SWAP_CTL f v) :=
  ⟨State.setFld_pending _ _ _ _, State.setFld_cycle _ _ _ _, by rw [State.rings, State.setFld_fw]; rfl,
    fun b hb => s.reg_setFld_other f v (Nat.ne_of_lt (hb.trans_le (Nat.le_add_right _ _))),
    congrArg (· == 1) (s.fld_setFld_disjoint _ f Fd.ISL_SWAP_CTL_HOLD v (by omega) (.inr hf)),
    fun b _ _ => State.byte_congr (State.setFld_mem _ _ _ _) b⟩

/-- Bytes stored in SRAM. -/
theorem setBytes_sram (s : State) {a : Nat} (bs : List Byte) (hi : a + bs.length ≤ 0x800000) : Served s (s.setBytes a bs) := by
  have keeps := s.setBytes_keeps a bs
  have regs : (s.setBytes a bs).regs = s.regs := keeps.2 .regs (by decide)
  have fw : (s.setBytes a bs).fw = s.fw := keeps.2 .fw (by decide)
  refine ⟨keeps.1, keeps.2 .cycle (by decide), by rw [State.rings, fw]; rfl, fun b _ => State.reg_congr regs b,
    State.bit_congr (State.reg_congr regs _) _, fun b hb _ => ?_⟩
  rw [State.byte_setBytes, if_neg (by omega)]

theorem ite {s t u : State} {c : Prop} [Decidable c] (ht : Served s t) (hu : Served s u) : Served s (if c then t else u) := by
  split
  · exact ht
  · exact hu

theorem foldl {α : Type} {f : State → α → State} (h : ∀ s x, s.StartRings → Served s (f s x)) (xs : List α) {s : State}
    (hs : s.StartRings) : Served s (xs.foldl f s) := by
  induction xs generalizing s with
  | nil => exact refl s
  | cons x xs ih => exact (h s x hs).trans (ih ((h s x hs).startRings hs))

theorem thenFoldl {α : Type} {f : State → α → State} (h : ∀ s x, s.StartRings → Served s (f s x)) {xs : List α} {s t : State}
    (hs : s.StartRings) (ht : Served s t) : Served s (xs.foldl f t) := next hs ht (foldl h xs)

end Served

/-! ### The log ring -/

theorem region_sram {a : Nat} (hlo : 0x400000 ≤ a) (hhi : a < 0x800000) : region a = .sram := by
  unfold region
  rw [if_neg (by omega), if_neg (by omega), if_pos ⟨hlo, hhi⟩]

theorem State.writeCws_sram (s : State) {cwa lo hi req lisl k : Nat} (hlo : 0x400000 ≤ cwa) (hhi : cwa + 32 * k ≤ 0x800000) :
    (s.writeCws cwa lo hi req lisl k).2 = s := by
  induction k generalizing cwa with
  | zero => rfl
  | succ k ih =>
    have none : memUnitOf cwa = none := by rw [memUnitOf, region_sram hlo (by omega)]
    have same : s.writeCw cwa lo hi req lisl = (false, s) := by rw [State.writeCw, none]
    simp only [State.writeCws, same]
    exact ih (by omega) (by omega)

theorem State.store_sram (s : State) {a : Nat} (bs : List Byte) (hlo : 0x400000 ≤ a) (hhi : a + bs.length ≤ 0x800000) :
    s.store a bs = s.setBytes a bs := by
  induction bs generalizing s a with
  | nil => rfl
  | cons b bs ih =>
    rw [List.length_cons] at hhi
    have mirror : s.mirrorAddr a = none := by
      rw [State.mirrorAddr, region_sram hlo (by omega)]
      split <;> rfl
    have first : s.storeByte a b = s.setByte a b := by simp [State.storeByte, mirror]
    rw [State.store, State.setBytes, first, ih _ (by omega) (by omega)]

/-- SRAM has no symbol code, and no swap mirrors it (R28, R268). -/
theorem State.writeMem_sram (s : State) {a : Nat} (bs : List Byte) (req lisl : Nat) (hlo : 0x400000 ≤ a)
    (hhi : a + bs.length ≤ 0x800000) : (s.writeMem a bs req lisl).2 = s.setBytes a bs := by
  have span : a / 32 * 32 + 32 * cwSpan a bs.length ≤ 0x800000 := by unfold cwSpan; split <;> omega
  show ((s.writeCws (a / 32 * 32) a (a + bs.length) req lisl (cwSpan a bs.length)).2).store a bs = _
  rw [s.writeCws_sram (by omega) span, s.store_sram bs hlo hhi]

theorem Served.writeMem_sram (s : State) {a : Nat} (bs : List Byte) (req lisl : Nat) (hlo : 0x400000 ≤ a)
    (hhi : a + bs.length ≤ 0x800000) : Served s (s.writeMem a bs req lisl).2 := by
  rw [s.writeMem_sram bs req lisl hlo hhi]
  exact .setBytes_sram s bs hhi

/-- The entry of a log record (R425). -/
def State.logEntry (s : State) (cls : Nat) (body : List Byte) : List Byte :=
  leBytes 4 s.fw.logWr ++ leBytes 1 cls ++ leBytes 1 s.fw.duty ++ leBytes 2 0 ++ leBytes 8 s.nanos
    ++ (body ++ List.replicate 48 0).take 48

theorem State.logEntry_length (s : State) (cls : Nat) (body : List Byte) : (s.logEntry cls body).length = 64 := by
  simp [State.logEntry]

theorem State.StartRings.log_eq {s : State} (h : s.StartRings) : s.fw.logBase = 0 ∧ s.fw.logLog2 = 14 ∧ s.fw.trace = []
    ∧ s.fw.expBase = 0 := by
  obtain ⟨htrace, hbase, hlog2, hexp⟩ : s.fw.trace = [] ∧ s.fw.logBase = 0 ∧ s.fw.logLog2 = 14 ∧ s.fw.expBase = 0 := by
    simpa [State.StartRings, State.rings] using h
  exact ⟨hbase, hlog2, htrace, hexp⟩

/-- A record in the start-up log ring (R424, R425). -/
theorem Served.log (s : State) (cls : Nat) (body : List Byte) (h : s.StartRings) : Served s (s.log cls body) := by
  have base : s.logBase = 0x600000 := if_pos h.log_eq.1
  have entry (t : State) (ht : t.StartRings) : Served t (t.writeMem (s.logBase + 64 + 64 * (s.fw.logWr % 2 ^ t.fw.logLog2))
      (s.logEntry cls body) 9 0xFF).2 := by
    obtain ⟨-, log2, -⟩ := ht.log_eq
    have slot : s.fw.logWr % 2 ^ t.fw.logLog2 < 2 ^ 14 := by rw [log2]; exact Nat.mod_lt _ (by decide)
    exact .writeMem_sram t _ _ _ (by omega) (by rw [s.logEntry_length]; omega)
  have count (n : Nat) (off : Nat) (ho : off ≤ 8) (v : Nat) (hn : n ≤ 8) (t : State) :
      Served t (t.writeMem (s.logBase + off) (leBytes n v) 9 0xFF).2 :=
    .writeMem_sram t _ _ _ (by omega) (by rw [leBytes_length]; omega)
  unfold State.log
  dsimp only
  refine Served.trans (Served.next h (Served.next h ?lost (entry _)) fun _ => count 8 0 (by decide) _ (by decide) _) (.withFw _ _ rfl)
  exact .ite (count 4 8 (by decide) _ (by decide) s) (.refl s)

theorem Served.tracePt (s : State) (pt : Nat) (args : List Nat) (h : s.StartRings) : Served s (s.tracePt pt args) :=
  .ite (.log s _ _ h) (.refl s)

/-! ### Records, exports and messages -/

theorem Served.enqueue (s : State) (k stream : Nat) (m : Msg) : Served s (s.enqueue k stream m) := .of_parts rfl rfl rfl rfl rfl

theorem Served.toHandler (s : State) (e : FaultEvent) : Served s (s.toHandler e) := .of_parts rfl rfl rfl rfl rfl

/-- A report to the manager waits in a port's queue or in this module's own inbox (R318). -/
theorem Served.toManager (s : State) (except : Option Nat) (kind : Nat) (bs : List Byte) (h : s.StartRings) :
    Served s (s.toManager except kind bs) := by
  unfold State.toManager
  split
  · exact .refl s
  · split
    · exact .of_parts rfl rfl rfl rfl rfl
    · split
      · exact Served.foldl (fun s f _ => .enqueue s _ _ _) _ h
      · exact .refl s

/-- A record exported while no ring takes it (R464). -/
theorem Served.exportRec (s : State) (cls sev : Nat) (body : List Byte) (h : s.StartRings) : Served s (s.exportRec cls sev body) := by
  set t := s.setHist { s.fw.hist with cperId := s.fw.hist.cperId + 1 }
  have counted : Served s t := .of_parts rfl rfl rfl rfl rfl
  have told := counted.trans (.toManager t none 4 (s.cper cls sev body) (counted.startRings h))
  obtain ⟨-, -, -, expBase⟩ := (told.startRings h).log_eq
  unfold State.exportRec
  dsimp only
  rw [if_pos expBase]
  exact told

theorem Served.record (s : State) (cls typ unit n : Nat) (body : List Byte) (h : s.StartRings) :
    Served s (s.record cls typ unit n body) := by
  have logged := Served.log s cls body h
  exact logged.trans (.ite (.of_parts rfl rfl rfl rfl rfl) (.exportRec _ _ _ _ (logged.startRings h)))

theorem Served.logMemEvent (s : State) (e : Event) (n : Nat) (h : s.StartRings) : Served s (s.logMemEvent e n) :=
  (Served.record s _ _ _ _ _ h).trans (.toHandler _ _)

theorem Served.logRemote (s : State) (e : Event) (h : s.StartRings) : Served s (s.logRemote e) := by
  unfold State.logRemote
  exact Served.record s _ _ _ _ _ h

/-- The records of the events that the firmware has not handled (R286). -/
theorem Served.logEvents (s : State) (h : s.StartRings) : Served s s.logEvents := by
  unfold State.logEvents
  dsimp only
  exact .thenFoldl (fun s e _ => .toHandler s e) h (.thenFoldl Served.logRemote h
    (.thenFoldl (fun s e hs => .logMemEvent s e _ hs) h (.withFw s _ rfl)))

/-- The firmware rereads a unit's state (R421, R423). -/
theorem Served.observe (s : State) (u : Nat) (h : s.StartRings) : Served s (s.observe u) := by
  unfold State.observe
  split
  · exact .refl s
  · have taken : Served s ((s.bumpSeq u).takeState u) := .of_parts rfl rfl rfl rfl rfl
    exact Served.next h (Served.next h taken (.log _ _ _)) (.exportRec _ _ _ _)

theorem Served.exportSummaries (s : State) (h : s.StartRings) : Served s s.exportSummaries := by
  have cleared : Served s { s with fw := { s.fw with corr := [] } } := .of_parts rfl rfl rfl rfl rfl
  exact cleared.trans (Served.foldl (fun s e hs => .exportRec s _ _ _ hs) _ (cleared.startRings h))

/-! ### Swaps for retirement -/

theorem Served.setFld_pstate (s : State) {p : Nat} (hp : p < 256) (f : Fld) (v : Nat) : Served s (s.setFld (Reg.ISL_PSTATE p) f v) :=
  .setReg s _ (by unfold Reg.ISL_PSTATE; omega) (by unfold Reg.ISL_PSTATE Reg.ISL_SWAP_CTL; omega)

theorem Served.setPstate (s : State) {p : Nat} (hp : p < 256) (st : Nat) : Served s (s.setPstate p st) :=
  .ite (.refl s) ((Served.setFld_pstate s hp _ _).trans (.setFld_pstate _ hp _ _))

theorem Served.abortSwap (s : State) : Served s s.abortSwap := by
  have width (f : Fld) (hf : f.w = 8) : s.fld Reg.ISL_SWAP_CTL f < 256 := by
    have := f.get_lt (s.reg Reg.ISL_SWAP_CTL)
    rwa [hf] at this
  unfold State.abortSwap
  extract_lets src dst t w u
  have islands : Served s t := (Served.setPstate s (width _ rfl) 1).trans (.setPstate _ (width _ rfl) 2)
  have tested : Served s u := islands.trans (.withFw t _ rfl)
  have go := tested.trans (.setFld_swapCtl _ (f := Fd.ISL_SWAP_CTL_GO) 0 (by decide))
  exact .ite (.refl s) ((go.trans (.setFld_swapCtl _ (f := Fd.ISL_SWAP_CTL_COPIED) 0 (by decide))).trans
    (.setFld_swapCtl _ (f := Fd.ISL_SWAP_CTL_ABORT) 0 (by decide)))

theorem Served.swapStart (s : State) (h : s.StartRings) : Served s s.swapStart := by
  have width (f : Fld) (hf : f.w = 8) : s.fld Reg.ISL_SWAP_CTL f < 256 := by
    have := f.get_lt (s.reg Reg.ISL_SWAP_CTL)
    rwa [hf] at this
  refine .ite (.setFld_swapCtl s 1 (by decide)) ?_
  have islands := (Served.setPstate s (width Fd.ISL_SWAP_CTL_SRC rfl) 4).trans (.setPstate _ (width Fd.ISL_SWAP_CTL_DST rfl) 5)
  have go := (islands.trans (.setFld_swapCtl _ (f := Fd.ISL_SWAP_CTL_GO) 1 (by decide))).trans
    (.setFld_swapCtl _ (f := Fd.ISL_SWAP_CTL_COPIED) 0 (by decide))
  have cursor := go.trans (.setReg _ (a := Reg.ISL_SWAP_CURSOR) 0 (by decide) (by decide))
  exact .next h cursor (.tracePt _ _ _)

/-- HOLD is a read-only field of ISL_SWAP_CTL (R32). -/
theorem swapCtl_row : ∃ row, regRow? Reg.ISL_SWAP_CTL = some row ∧ Fd.ISL_SWAP_CTL_HOLD ∈ row.fields := by
  have found : ((regRow? Reg.ISL_SWAP_CTL).any fun r => decide (Fd.ISL_SWAP_CTL_HOLD ∈ r.fields)) = true := by decide +kernel
  obtain ⟨row, hrow, hmem⟩ := (Option.any_eq_true _ _).1 found
  exact ⟨row, hrow, of_decide_eq_true hmem⟩

/-- The fields that a write keeps are put back one by one. -/
theorem Served.keepFlds (old : Word) (keep : List Fld) (hk : ∀ f ∈ keep, f.lo + f.w ≤ 23) (s : State) :
    Served s (keep.foldl (fun s f => s.setFld Reg.ISL_SWAP_CTL f (f.get old)) s) := by
  induction keep generalizing s with
  | nil => exact .refl s
  | cons f fs ih =>
    obtain ⟨hf, hfs⟩ := List.forall_mem_cons.1 hk
    exact (Served.setFld_swapCtl s _ hf).trans (ih hfs _)

/-- A software write of ISL_SWAP_CTL writes no HOLD (R16, R32). -/
theorem Served.swWrite_swapCtl (s : State) (v : Word) : Served s (s.swWrite Reg.ISL_SWAP_CTL v) := by
  obtain ⟨row, hrow, hmem⟩ := swapCtl_row
  obtain ⟨value, keeps, regs⟩ := s.swWrite_effect hrow v
  have hold : (s.swWrite Reg.ISL_SWAP_CTL v).bit Reg.ISL_SWAP_CTL Fd.ISL_SWAP_CTL_HOLD
      = s.bit Reg.ISL_SWAP_CTL Fd.ISL_SWAP_CTL_HOLD := by
    rw [State.bit, State.fld, value]
    exact congrArg (· == 1) (Fld.get_congr _ fun b hb hc => (regRow?_laid hrow).swWrite_of_covers hmem _ v hb hc)
  have fw : (s.swWrite Reg.ISL_SWAP_CTL v).fw = s.fw := keeps.2 .fw (by decide)
  exact ⟨keeps.1, keeps.2 .cycle (by decide), by rw [State.rings, fw]; rfl,
    fun a ha => regs a (by rw [List.mem_singleton]; exact Nat.ne_of_lt (ha.trans_le (Nat.le_add_right _ _))), hold,
    fun a _ _ => State.byte_congr (keeps.2 .mem (by decide)) a⟩

/-- The firmware's write of ISL_SWAP_CTL while no hold is in force (R31, R32). -/
theorem Served.swapCtlWrite (s : State) (v : Word) (h : s.StartRings)
    (hh : s.bit Reg.ISL_SWAP_CTL Fd.ISL_SWAP_CTL_HOLD = false) : Served s (s.swapCtlWrite v) := by
  unfold State.swapCtlWrite State.swWriteKeep
  extract_lets a busy go abort rel keep old written kept acted
  have hkeep : ∀ f ∈ keep, f.lo + f.w ≤ 23 := by
    intro f hf
    rcases List.mem_append.1 hf with hf | hf
    · exact (by decide : ∀ f ∈ [Fd.ISL_SWAP_CTL_GO, Fd.ISL_SWAP_CTL_ABORT, Fd.ISL_SWAP_CTL_RELEASE], f.lo + f.w ≤ 23) f hf
    · split at hf
      · exact (by decide : ∀ f ∈ [Fd.ISL_SWAP_CTL_SRC, Fd.ISL_SWAP_CTL_DST, Fd.ISL_SWAP_CTL_AFTER], f.lo + f.w ≤ 23) f hf
      · cases hf
  have hkept : Served s kept := (Served.swWrite_swapCtl s v).trans (.keepFlds _ _ hkeep _)
  have hacted : Served s acted := .next h hkept fun ht =>
    .ite (.abortSwap _) (.ite (.ite (.setFld_swapCtl _ (f := Fd.ISL_SWAP_CTL_REJ) 1 (by decide)) (.swapStart _ ht)) (.refl _))
  have idle : acted.swapRelease = acted := if_pos (by rw [hacted.hold, hh]; rfl)
  rw [idle]
  exact .ite hacted hacted

/-- The firmware starts a retirement swap only while no swap is held (R450). -/
theorem Served.serveRetire (s : State) (h : s.StartRings) : Served s s.serveRetire := by
  unfold State.serveRetire
  extract_lets l w t
  have ht : Served s t := .withFw s _ rfl
  split
  · exact ht
  · rename_i idle
    have hold : t.bit Reg.ISL_SWAP_CTL Fd.ISL_SWAP_CTL_HOLD = false := by
      simpa using (Bool.and_eq_true_iff.1 (by simpa using idle : t.swapIdle = true)).2
    split
    · exact ht
    · split
      · exact ht.trans (.swapCtlWrite t _ (ht.startRings h) hold)
      · exact ht

/-! ### The whole of the firmware's work in a cycle -/

theorem Reg.tideStatus_lt : Reg.TIDE_STATUS < modWin := by decide

theorem Served.tideSt {s t : State} (h : Served s t) : t.tideSt = s.tideSt :=
  congrArg Fd.TIDE_STATUS_STATE.get (h.regs _ Reg.tideStatus_lt)

/-- No checkpoint is requested while the Tide is UNLOADED (R386). -/
theorem State.ckptRequest_unloaded {s : State} (h : s.tideSt = 0) : s.ckptRequest = s := by
  simp [State.ckptRequest, h]

theorem Served.tickFw (s : State) (h : s.StartRings) (hst : s.tideSt = 0) : Served s s.tickFw := by
  unfold State.tickFw
  split
  · exact .refl s
  · have seen : Served s (fwUnits.foldl State.observe s.logEvents) := .thenFoldl (fun s u hs => .observe s u hs) h (.logEvents s h)
    have retired := Served.next h seen (.serveRetire _)
    rw [State.ckptRequest_unloaded (retired.tideSt.trans hst)]
    exact .ite (.next h retired (.exportSummaries _)) retired

theorem Served.tickWdog (s : State) {c : Nat} (hc : c < 4) : Served s (s.tickWdog c) :=
  .ite (.setReg s _ (by unfold Reg.PLT_WDOG; omega) (by unfold Reg.PLT_WDOG Reg.ISL_SWAP_CTL; omega)) (.refl s)

end Sys2Proof.Machine
end

section
/-! SUPPORT. What one context's count in a cycle depends on, and what the counts of the others leave of it (R111, R146). -/

namespace Sys2Proof.Machine

/-- The registers that say whether a context is ready, its state aside, and its count. -/
def viewRegs (p c : Nat) : List Nat := [Reg.ISL_PSTATE p, Reg.ISL_SEQ_PC p c, Reg.ISL_SEQ_PRED p c, Reg.ISL_SEQ_CNT_STALL p c]

/-- Two states that agree on everything that says whether context (p, c) counts a cycle, and on its count. -/
structure SameView (p c : Nat) (s t : State) : Prop where
  mem : t.mem = s.mem
  frys : t.frys = s.frys
  regs : ∀ a ∈ viewRegs p c, t.reg a = s.reg a
  st : t.ctxSt p c = s.ctxSt p c
  mmWaiting : (t.isl p).mmWaiting = (s.isl p).mmWaiting
  ebbq : (t.isl p).ebbq = (s.isl p).ebbq
  shlq : (t.isl p).shlq = (s.isl p).shlq
  ctx : t.ctx p c = s.ctx p c

namespace SameView

variable {p c : Nat} {s t u : State}

theorem refl (p c : Nat) (s : State) : SameView p c s s := ⟨rfl, rfl, fun _ _ => rfl, rfl, rfl, rfl, rfl, rfl⟩

theorem trans (h : SameView p c s t) (h' : SameView p c t u) : SameView p c s u :=
  ⟨h'.mem.trans h.mem, h'.frys.trans h.frys, fun a ha => (h'.regs a ha).trans (h.regs a ha), h'.st.trans h.st,
    h'.mmWaiting.trans h.mmWaiting, h'.ebbq.trans h.ebbq, h'.shlq.trans h.shlq, h'.ctx.trans h.ctx⟩

theorem ite {b : Prop} [Decidable b] (ht : SameView p c s t) (hu : SameView p c s u) : SameView p c s (if b then t else u) := by
  split
  · exact ht
  · exact hu

/-- An update of registers only. -/
theorem of_regs (hk : KeepsBut [.regs] s t) (hr : ∀ a ∈ viewRegs p c, t.reg a = s.reg a) (hst : t.ctxSt p c = s.ctxSt p c) :
    SameView p c s t := by
  have isls : t.isls = s.isls := hk.2 .isls (by decide)
  have isl : t.isl p = s.isl p := by rw [State.isl, isls]; rfl
  exact ⟨hk.2 .mem (by decide), hk.2 .frys (by decide), hr, hst, congrArg Isl.mmWaiting isl, congrArg Isl.ebbq isl,
    congrArg Isl.shlq isl, congrArg (·.ctx c) isl⟩

/-- A count elsewhere. -/
theorem count (s : State) {a : Nat} (ha : a ∉ viewRegs p c) (hst : a ≠ Reg.ISL_SEQ_STATUS p) : SameView p c s (s.count a 1) :=
  of_regs (s.setReg_keeps a _) (fun _ hb => s.reg_setReg_other _ (fun e => ha (e ▸ hb)))
    (s.fld_setReg_other _ _ hst.symm)

/-- What such a pair shows of the context is the same (R146). -/
theorem shownSt (h : SameView p c s t) : t.shownSt p c = s.shownSt p c := by
  have reg {a : Nat} (ha : a ∈ viewRegs p c) := h.regs a ha
  have hpstate : t.pstate p = s.pstate p := by rw [State.pstate, State.fld, reg (by simp [viewRegs])]; rfl
  have hpc : t.pc p c = s.pc p c := by rw [State.pc, State.fld, reg (by simp [viewRegs])]; rfl
  have hpred (i : Nat) : t.pred p c i = s.pred p c i := by rw [State.pred, reg (by simp [viewRegs])]; rfl
  have hruns : t.runs p c = s.runs p c := by rw [State.runs, h.st, hpstate]; rfl
  have hword : t.iword p c = s.iword p c := by simp only [State.iword, State.bytes, State.byte, hpc, h.mem]
  have hroom (w : Nat) : t.hasRoom p c w = s.hasRoom p c w := by
    unfold State.hasRoom State.fry
    rw [h.mmWaiting, h.ebbq, h.shlq, h.ctx, h.frys]
  have hready : t.ready p c = s.ready p c := by
    simp only [State.ready, State.predOff, State.lacks, hruns, hword, hpred, hroom, h.ctx]
  rw [State.shownSt, hruns, hready, h.st]; rfl

end SameView

/-! ### The counts of the other contexts -/

/-- Bringing another context's state up to date. -/
theorem SameView.syncCtx (s : State) {p q : Fin 144} {c d : Fin 2} (h : (q, d) ≠ (p, c)) : SameView p c s (s.syncCtx q d) := by
  refine .of_regs (s.syncCtx_keeps q d) (fun a ha => s.syncCtx_regsBut q d a ?_) ?_
  · rw [List.mem_singleton]
    rintro rfl
    simp only [viewRegs, List.mem_cons, List.not_mem_nil, or_false, Reg.ISL_SEQ_STATUS, Reg.ISL_PSTATE, Reg.ISL_SEQ_PC,
      Reg.ISL_SEQ_PRED, Reg.ISL_SEQ_CNT_STALL, islWin, modWin] at ha
    omega
  · by_cases hq : p = q
    · subst hq
      exact s.ctxSt_syncCtx_other p fun hd => h (by rw [hd])
    · have : Reg.ISL_SEQ_STATUS p ≠ Reg.ISL_SEQ_STATUS q := by
        unfold Reg.ISL_SEQ_STATUS islWin; omega
      exact congrArg (stFld c).get (s.syncCtx_regsBut q d _ (by rwa [List.mem_singleton]))

theorem Isl.setCtx_queues (x : Isl) (d : Nat) (y : Ctx) : (x.setCtx d y).mmWaiting = x.mmWaiting
    ∧ (x.setCtx d y).ebbq = x.ebbq ∧ (x.setCtx d y).shlq = x.shlq := by
  unfold Isl.setCtx
  split <;> exact ⟨rfl, rfl, rfl⟩

theorem Isl.ctx_setCtx_other (x : Isl) {c d : Fin 2} (h : c ≠ d) (y : Ctx) : (x.setCtx d y).ctx c = x.ctx c :=
  match c, d, h with
  | 0, 0, h => absurd rfl h
  | 0, 1, _ => rfl
  | 1, 0, _ => rfl
  | 1, 1, h => absurd rfl h

/-- Another context's own record. -/
theorem SameView.setCtx (s : State) {p q : Fin 144} {c d : Fin 2} (h : (q, d) ≠ (p, c)) (y : Ctx) :
    SameView p c s (s.setCtx q d y) := by
  have isl : (s.setCtx q d y).isl p = if p.val = q.val then (s.isl q).setCtx d y else s.isl p := s.isl_setIsl q p _
  by_cases hq : p = q
  · subst hq
    rw [if_pos rfl] at isl
    obtain ⟨mm, ebb, shl⟩ := (s.isl p).setCtx_queues d y
    have own := (s.isl p).ctx_setCtx_other (fun hd : c = d => h (by rw [hd])) y
    exact ⟨rfl, rfl, fun _ _ => rfl, rfl, (congrArg Isl.mmWaiting isl).trans mm, (congrArg Isl.ebbq isl).trans ebb,
      (congrArg Isl.shlq isl).trans shl, (congrArg (·.ctx c) isl).trans own⟩
  · rw [if_neg (fun e => hq (Fin.ext e))] at isl
    exact ⟨rfl, rfl, fun _ _ => rfl, rfl, congrArg Isl.mmWaiting isl, congrArg Isl.ebbq isl, congrArg Isl.shlq isl,
      congrArg (·.ctx c) isl⟩

/-- A cycle's counts of another context. -/
theorem SameView.tickCtx (s : State) {p q : Fin 144} {c d : Fin 2} (h : (q, d) ≠ (p, c)) : SameView p c s (s.tickCtx q d) := by
  have apart : Reg.ISL_SEQ_CNT_STALL q d ≠ Reg.ISL_SEQ_CNT_STALL p c := by
    intro e
    have hc := c.isLt
    have hd := d.isLt
    unfold Reg.ISL_SEQ_CNT_STALL islWin at e
    have hq : q.val = p.val := by omega
    have hcd : d.val = c.val := by omega
    exact h (by rw [Fin.ext hq, Fin.ext hcd])
  have away : Reg.ISL_SEQ_CNT_STALL q d ∉ viewRegs p c := by
    simp only [viewRegs, List.mem_cons, List.not_mem_nil, or_false, not_or]
    refine ⟨?_, ?_, ?_, apart⟩
    · unfold Reg.ISL_SEQ_CNT_STALL Reg.ISL_PSTATE islWin modWin; omega
    · unfold Reg.ISL_SEQ_CNT_STALL Reg.ISL_SEQ_PC islWin; omega
    · unfold Reg.ISL_SEQ_CNT_STALL Reg.ISL_SEQ_PRED islWin; omega
  have synced := SameView.syncCtx s h
  have counted := synced.trans (.count _ away (by unfold Reg.ISL_SEQ_CNT_STALL Reg.ISL_SEQ_STATUS islWin; omega))
  exact .ite (.ite (counted.trans (.setCtx _ h _)) counted) synced

/-- A cycle's counts of an Island's array. -/
theorem SameView.tickArr (s : State) (p q : Fin 144) (c : Fin 2) : SameView p c s (s.tickArr q) := by
  have away {off : Nat} (h1 : off < 0x10000) (h2 : 0x50 ≤ off) (h3 : off < 0x300 ∨ 0x308 ≤ off) :
      islWin q + off ∉ viewRegs p c ∧ islWin q + off ≠ Reg.ISL_SEQ_STATUS p := by
    have hc := c.isLt
    simp only [viewRegs, List.mem_cons, List.not_mem_nil, or_false, Reg.ISL_SEQ_STATUS, Reg.ISL_PSTATE, Reg.ISL_SEQ_PC,
      Reg.ISL_SEQ_PRED, Reg.ISL_SEQ_CNT_STALL, islWin, modWin]
    omega
  have count (t : State) {off : Nat} (h1 : off < 0x10000) (h2 : 0x50 ≤ off) (h3 : off < 0x300 ∨ 0x308 ≤ off) :
      SameView p c t (t.count (islWin q + off) 1) := .count t (away h1 h2 h3).1 (away h1 h2 h3).2
  unfold State.tickArr
  extract_lets x
  split
  · exact .refl p c s
  · extract_lets aligned drained
    have haligned : SameView p c s aligned := .ite (count s (off := 0x201C) (by decide) (by decide) (by decide)) (.refl p c s)
    have hdrained : SameView p c s drained :=
      haligned.trans (.ite (count aligned (off := 0x54) (by decide) (by decide) (by decide)) (.refl p c aligned))
    exact .ite hdrained (.ite (hdrained.trans (count drained (off := 0x2018) (by decide) (by decide) (by decide))) hdrained)

/-! ### The context's own count -/

/-- A context's count after the cycle, by what it showed before it. -/
def State.stallNext (s : State) (p c : Nat) : Nat :=
  if s.shownSt p c = 2 ∨ s.shownSt p c = 3 then min ((s.reg (Reg.ISL_SEQ_CNT_STALL p c)).toNat + 1) 0xFFFFFFFF
  else (s.reg (Reg.ISL_SEQ_CNT_STALL p c)).toNat

/-- A context that shows STALL or WAIT counts the cycle (R146). -/
theorem State.tickCtx_stall (s : State) (p : Fin 144) (c : Fin 2) :
    ((s.tickCtx p c).reg (Reg.ISL_SEQ_CNT_STALL p c)).toNat = s.stallNext p c := by
  have synced : (s.syncCtx p c).reg (Reg.ISL_SEQ_CNT_STALL p c) = s.reg (Reg.ISL_SEQ_CNT_STALL p c) :=
    s.syncCtx_regsBut p c _ (by rw [List.mem_singleton]; unfold Reg.ISL_SEQ_CNT_STALL Reg.ISL_SEQ_STATUS; omega)
  have counted := (s.syncCtx p c).count_toNat (Reg.ISL_SEQ_CNT_STALL p c) 1
  rw [synced] at counted
  unfold State.tickCtx State.stallNext
  dsimp only
  rw [s.ctxSt_syncCtx_same p c]
  split
  · split
    · exact counted
    · exact counted
  · rw [synced]

/-- A context shows STALL or WAIT where it waits, is stopped in STALL, or runs and is not ready (R111, R146). -/
theorem State.shownSt_stalls (s : State) (p c : Nat) : (s.shownSt p c = 2 ∨ s.shownSt p c = 3)
    ↔ s.ctxSt p c = 3 ∨ (if s.runs p c = true then s.ready p c = false else s.ctxSt p c = 2) := by
  unfold State.shownSt
  by_cases hr : s.runs p c = true
  · have running : s.ctxSt p c ≠ 3 := by
      intro h
      simp [State.runs, h] at hr
    rw [if_pos hr, if_pos hr]
    cases s.ready p c <;> simp [running]
  · rw [if_neg hr, if_neg hr, or_comm]

/-! ### The whole of the Islands' counts -/

/-- One Island's counts in a cycle. -/
def State.tickIsl (s : State) (p : Nat) : State := ((s.tickCtx p 0).tickCtx p 1).tickArr p

theorem SameView.tickIsl (s : State) {p q : Fin 144} (c : Fin 2) (h : q ≠ p) : SameView p c s (s.tickIsl q) :=
  have apart (d : Fin 2) : (q, d) ≠ (p, c) := fun e => h (congrArg Prod.fst e)
  ((SameView.tickCtx s (apart 0)).trans (.tickCtx _ (apart 1))).trans (.tickArr _ p q c)

theorem SameView.foldIsl (p : Fin 144) (c : Fin 2) (l : List Nat) (hl : ∀ q ∈ l, q < 144 ∧ q ≠ p) (s : State) :
    SameView p c s (l.foldl State.tickIsl s) := by
  induction l generalizing s with
  | nil => exact .refl p c s
  | cons q l ih =>
    obtain ⟨⟨hq, hne⟩, hl⟩ := List.forall_mem_cons.1 hl
    exact (SameView.tickIsl s (q := ⟨q, hq⟩) c (fun e => hne (congrArg Fin.val e))).trans (ih hl _)

theorem SameView.stall {p c : Nat} {s t : State} (h : SameView p c s t) :
    t.reg (Reg.ISL_SEQ_CNT_STALL p c) = s.reg (Reg.ISL_SEQ_CNT_STALL p c) := h.regs _ (by simp [viewRegs])

theorem SameView.stallNext {p c : Nat} {s t : State} (h : SameView p c s t) : t.stallNext p c = s.stallNext p c := by
  rw [State.stallNext, h.shownSt, h.stall]; rfl

/-- Each of an Island's contexts counts once. -/
theorem State.tickIsl_stall (s : State) (p : Fin 144) (c : Fin 2) :
    ((s.tickIsl p).reg (Reg.ISL_SEQ_CNT_STALL p c)).toNat = s.stallNext p c := by
  have after := (SameView.tickArr ((s.tickCtx p 0).tickCtx p 1) p p c).stall
  unfold State.tickIsl
  rw [after]
  match c with
  | 0 =>
    have other := SameView.tickCtx (s.tickCtx p 0) (p := p) (q := p) (c := 0) (d := 1) (by simp)
    exact (congrArg BitVec.toNat other.stall).trans (s.tickCtx_stall p 0)
  | 1 =>
    have other := SameView.tickCtx s (p := p) (q := p) (c := 1) (d := 0) (by simp)
    exact ((s.tickCtx p 0).tickCtx_stall p 1).trans other.stallNext

/-- Every context counts once in the cycle. -/
theorem State.tickIsls_stall (s : State) (p : Fin 144) (c : Fin 2) :
    (((List.range 144).foldl State.tickIsl s).reg (Reg.ISL_SEQ_CNT_STALL p c)).toNat = s.stallNext p c := by
  obtain ⟨before, after, split⟩ := List.append_of_mem (List.mem_range.2 p.isLt)
  have nodup : (before ++ p.val :: after).Nodup := split ▸ List.nodup_range
  obtain ⟨hp, -⟩ := List.nodup_cons.1 (List.nodup_middle.1 nodup)
  have rest (q : Nat) (hq : q ∈ before ++ after) : q < 144 ∧ q ≠ p := by
    refine ⟨List.mem_range.1 (split ▸ ?_), fun e => hp (e ▸ hq)⟩
    rw [List.mem_append, List.mem_cons]
    exact (List.mem_append.1 hq).imp_right .inr
  rw [split, List.foldl_append, List.foldl_cons]
  have first := SameView.foldIsl p c before (fun q hq => rest q (List.mem_append_left _ hq)) s
  have last := SameView.foldIsl p c after (fun q hq => rest q (List.mem_append_right _ hq))
    ((before.foldl State.tickIsl s).tickIsl p)
  rw [last.stall, State.tickIsl_stall, first.stallNext]

/-! ### What the Islands' counts leave alone -/

/-- Counts of Islands: the Islands' records and registers of their windows. -/
def Counted (s t : State) : Prop := KeepsBut [.regs, .isls] s t ∧ ∀ a, qtrWin 0 ≤ a → t.reg a = s.reg a

namespace Counted

variable {s t u : State}

theorem refl (s : State) : Counted s s := ⟨.refl _ s, fun _ _ => rfl⟩

theorem trans (h : Counted s t) (h' : Counted t u) : Counted s u :=
  ⟨(h.1.trans h'.1).mono (by simp), fun a ha => (h'.2 a ha).trans (h.2 a ha)⟩

theorem ite {b : Prop} [Decidable b] (ht : Counted s t) (hu : Counted s u) : Counted s (if b then t else u) := by
  split
  · exact ht
  · exact hu

theorem of_reg {a : Nat} (ha : a < qtrWin 0) (hk : KeepsBut [.regs] s t) (hr : RegsBut [a] s t) : Counted s t :=
  ⟨hk.mono (by simp), fun b hb => hr b (by rw [List.mem_singleton]; exact (Nat.ne_of_lt (ha.trans_le hb)).symm)⟩

theorem count (s : State) {a : Nat} (ha : a < qtrWin 0) : Counted s (s.count a 1) :=
  of_reg ha (s.setReg_keeps a _) (s.setReg_regsBut a _)

theorem tickCtx (s : State) (p : Fin 144) (c : Fin 2) : Counted s (s.tickCtx p c) := by
  have synced : Counted s (s.syncCtx p c) :=
    of_reg (by unfold Reg.ISL_SEQ_STATUS islWin qtrWin; omega) (s.syncCtx_keeps p c) (s.syncCtx_regsBut p c)
  have counted := synced.trans (.count _ (a := Reg.ISL_SEQ_CNT_STALL p c) (by unfold Reg.ISL_SEQ_CNT_STALL islWin qtrWin; omega))
  exact .ite (.ite (counted.trans ⟨(State.setCtx_keeps _ p c _).mono (by simp), fun _ _ => rfl⟩) counted) synced

theorem tickArr (s : State) (p : Fin 144) : Counted s (s.tickArr p) := by
  have count (t : State) {off : Nat} (h : off < 0x10000) : Counted t (t.count (islWin p + off) 1) :=
    .count t (by unfold islWin qtrWin; omega)
  unfold State.tickArr
  extract_lets x
  split
  · exact .refl s
  · extract_lets aligned drained
    have haligned : Counted s aligned := .ite (count s (off := 0x201C) (by decide)) (.refl s)
    have hdrained : Counted s drained := haligned.trans (.ite (count aligned (off := 0x54) (by decide)) (.refl aligned))
    exact .ite hdrained (.ite (hdrained.trans (count drained (off := 0x2018) (by decide))) hdrained)

theorem tickIsl (s : State) (p : Fin 144) : Counted s (s.tickIsl p) :=
  ((tickCtx s p 0).trans (tickCtx _ p 1)).trans (tickArr _ p)

theorem foldIsl (l : List Nat) (hl : ∀ q ∈ l, q < 144) (s : State) : Counted s (l.foldl State.tickIsl s) := by
  induction l generalizing s with
  | nil => exact refl s
  | cons q l ih =>
    obtain ⟨hq, hl⟩ := List.forall_mem_cons.1 hl
    exact (tickIsl s ⟨q, hq⟩).trans (ih hl _)

end Counted

/-! ### The cycle -/

/-- The state once the clock and the Islands' counters have moved on. -/
def State.clocked (s : State) : State := (List.range 144).foldl State.tickIsl { s with cycle := s.cycle + 1 }

/-- The clock alone says nothing about a context. -/
theorem State.stallNext_cycle (s : State) (n p c : Nat) : State.stallNext { s with cycle := n } p c = s.stallNext p c :=
  SameView.stallNext ⟨rfl, rfl, fun _ _ => rfl, rfl, rfl, rfl, rfl, rfl⟩

theorem tick_up {s : State} (h : s.up = true) : tick s = tideCheck ((List.range 4).foldl State.tickWdog s.clocked).tickFw :=
  if_neg (by rw [h]; decide)

/-- Tidelogic waits for nothing while it does not run (R333). -/
theorem tideCheck_of_not_running {s : State} (h : s.tideSt ≠ 1) : tideCheck s = s := if_pos h

/-- The Islands' counts in a cycle, from the clock's next value on. -/
theorem Counted.clocked (s : State) : Counted { s with cycle := s.cycle + 1 } s.clocked :=
  .foldIsl (List.range 144) (fun _ => List.mem_range.1) _

theorem State.clocked_rings (s : State) : s.clocked.rings = s.rings := by
  have fw : s.clocked.fw = s.fw := (Counted.clocked s).1.2 .fw (by decide)
  rw [State.rings, fw]; rfl

theorem State.clocked_tideSt (s : State) : s.clocked.tideSt = s.tideSt := by
  have status : s.clocked.reg Reg.TIDE_STATUS = s.reg Reg.TIDE_STATUS :=
    ((Counted.clocked s).2 Reg.TIDE_STATUS (Nat.le_add_right _ _)).trans (State.reg_congr rfl _)
  exact congrArg Fd.TIDE_STATUS_STATE.get status

/-- The watchdog counts of the four cores. -/
theorem Served.tickWdogs (l : List Nat) (hl : ∀ c ∈ l, c < 4) (s : State) : Served s (l.foldl State.tickWdog s) := by
  induction l generalizing s with
  | nil => exact .refl s
  | cons c l ih =>
    obtain ⟨hc, hl⟩ := List.forall_mem_cons.1 hl
    exact (Served.tickWdog s hc).trans (ih hl _)

/-- A cycle's work after the Islands' counts. -/
theorem Served.tick {s : State} (hup : s.up = true) (hr : s.StartRings) (hst : s.tideSt = 0) : Served s.clocked (tick s) := by
  have shown := Served.tickWdogs (List.range 4) (fun _ => List.mem_range.1) s.clocked
  have worked := shown.trans
    (.tickFw _ (shown.startRings (s.clocked_rings.trans hr)) (shown.tideSt.trans (s.clocked_tideSt.trans hst)))
  have idle := worked.tideSt.trans (s.clocked_tideSt.trans hst)
  rw [tick_up hup, tideCheck_of_not_running (by rw [idle]; decide)]
  exact worked

/-- Settles O57: the Islands' counts move each context's own counter by what it showed, and the firmware's work touches registers of the
module window and SRAM only. -/
theorem idleCycle : Obligations.IdleCycle := by
  unfold Obligations.IdleCycle
  intro s hempty
  have hstep : step s = .next (tick s) := by rw [step, hempty]
  refine ⟨fun hoff => hstep.trans (congrArg Host.Outcome.next (if_pos (by rw [hoff]; rfl))),
    fun hup htrace hbase hlog2 hexp hst => ?_⟩
  have rings : s.StartRings := by rw [State.StartRings, State.rings, htrace, hbase, hlog2, hexp]
  have served := Served.tick hup rings hst
  have keeps := (Counted.clocked s).1
  refine ⟨tick s, hstep, served.cycle.trans (keeps.2 .cycle (by decide)), served.pending.trans (keeps.1.trans hempty),
    fun p c => ?_, fun a hlo hhi => ?_⟩
  · have below : Reg.ISL_SEQ_CNT_STALL p c < modWin := by unfold Reg.ISL_SEQ_CNT_STALL islWin modWin; omega
    rw [served.regs _ below, State.clocked, State.tickIsls_stall, State.stallNext_cycle, State.stallNext]
    exact if_congr (s.shownSt_stalls p c) rfl rfl
  · exact (served.lagoon a hlo hhi).trans (State.byte_congr (keeps.2 .mem (by decide)) a)

end Sys2Proof.Machine
end

section
/-! SUPPORT. BSIG, BRST and BWAIT where they issue, and the signal queue (R136 to R138, R447, R462). -/

namespace Sys2Proof.Machine

/-! ### What these instructions read while their context is in RUN -/

section
variable (s : State) (p : Fin 144) (c : Nat)

theorem State.policy_running : (s.running p c).reg Reg.ISL_POLICY = s.reg Reg.ISL_POLICY :=
  s.reg_running p c (by unfold Reg.ISL_POLICY Reg.ISL_SEQ_STATUS modWin islWin; omega)

theorem State.home_running (l : Nat) : (s.running p c).home l = s.home l := State.home_congr (s.policy_running p c) l

theorem State.logicalCount_running : (s.running p c).logicalCount = s.logicalCount := by
  rw [State.logicalCount, State.fld, s.policy_running p c]; rfl

theorem State.buoy_running (q b : Nat) : (s.running p c).buoy q b = s.buoy q b :=
  congrArg Fd.BUOY_VAL_COUNT.get
    (s.reg_running p c (by unfold Reg.BUOY_VAL Reg.ISL_SEQ_STATUS buoyWin islWin; omega))

end

/-! ### Issue -/

section
variable {s : State} {p : Fin 144} {c : Fin 2}

/-- An operation on a Buoy of a logical Island of the module enters the signal queue (R136, R137). -/
theorem sigAct_ok {t : State} {rst : Bool} {pc w : Nat} (h : ifld w 30 23 < t.logicalCount) :
    sigAct rst p c t pc w = .next (((t.addWork 4 (.ctx p c) pc).2).setCtx p c { t.ctx p c with sigq := (t.ctx p c).sigq
      ++ [⟨t.nextWork, rst, ifld w 12 12 == 1, ifld w 22 13, ifld w 30 23, ifld w 44 31,
        if rst then 0 else sext 32 (ifld w 95 64), ifld w 50 45, pc⟩] }) :=
  if_neg (Nat.not_le.2 h)

/-- The issue of BSIG or BRST (R114, R137). -/
theorem sigIssue_ready {o mask : Nat} (rst : Bool) (ho : o = 0x70 ∨ o = 0x72) (h : Ready s p c o [])
    (hv : rsvInfo mask [] (s.iword p c) = none) (hl : ifld (s.iword p c) 30 23 < s.logicalCount)
    (hroom : (s.ctx p c).sigq.length < 16) :
    s.issueOut p c ⟨fun w => opc w == o, rsvInfo mask [], sigAct rst p c⟩
      = issues s p c (.next ((((s.running p c).addWork 4 (.ctx p c) (s.pc p c)).2).setCtx p c { s.ctx p c with sigq :=
        (s.ctx p c).sigq ++ [⟨s.nextWork, rst, ifld (s.iword p c) 12 12 == 1, ifld (s.iword p c) 22 13, ifld (s.iword p c) 30 23,
          ifld (s.iword p c) 44 31, if rst then 0 else sext 32 (ifld (s.iword p c) 95 64), ifld (s.iword p c) 50 45,
          s.pc p c⟩] })) := by
  have defined : definedOpc o = true ∧ srcFields (s.iword p c) = [] ∧ s.hasRoom p c (s.iword p c) = true := by
    rcases ho with rfl | rfl <;> simp [definedOpc, srcFields, State.hasRoom, h.opc_eq, hroom]
  obtain ⟨hdef, hsrc, hfree⟩ := defined
  refine (issueOut_ready h _ (beq_iff_eq.2 h.opc_eq) hdef hsrc hfree hv).trans ?_
  dsimp only
  rw [sigAct_ok (by rwa [s.logicalCount_running p c])]
  rfl

theorem exec_bwait_ready (h : Ready s p c 0x71 []) (hv : rsvInfo (maskOf 44 23 ||| maskOf 95 64) [] (s.iword p c) = none) :
    exec (.bwait p c) s = issues s p c (bwaitAct p c (s.running p c) (s.pc p c) (s.iword p c)) :=
  issueOut_plain h _ rfl rfl (by decide) (by simp [srcFields, h.opc_eq]) hv

theorem State.ctx_registerWait (t : State) (q b : Nat) (thr : Int) (x d pc y e : Nat) :
    (t.registerWait q b thr x d pc).ctx y e = t.ctx y e := by
  have isls : (t.registerWait q b thr x d pc).isls = t.isls := by
    rw [State.registerWait, State.count_isls, State.setReg_isls, State.setReg_isls, State.syncWaiters, State.setFld_isls,
      State.setQtr_isls]
  rw [State.ctx, State.isl, isls]
  rfl

/-- A wait whose threshold the count meets passes (R138). -/
theorem bwaitAct_passes {t : State} {pc w : Nat} (hl : ifld w 30 23 < t.logicalCount)
    (h : sext 32 (ifld w 95 64) ≤ (t.buoy (t.home (ifld w 30 23)) (ifld w 44 31) : Int)) :
    bwaitAct p c t pc w = .next t :=
  (if_neg (Nat.not_le.2 hl)).trans (if_pos h)

/-- A wait whose threshold the count does not meet is registered at its Buoy, and its context waits (R138, R152). -/
theorem bwaitAct_waits {t : State} {pc w : Nat} (hl : ifld w 30 23 < t.logicalCount)
    (h : (t.buoy (t.home (ifld w 30 23)) (ifld w 44 31) : Int) < sext 32 (ifld w 95 64)) :
    bwaitAct p c t pc w = .next (((t.registerWait (t.home (ifld w 30 23)) (ifld w 44 31) (sext 32 (ifld w 95 64)) p c pc).setSt
      p c 3).setCtx p c { t.ctx p c with
        wait := .buoy (ifld w 44 31) (sext 32 (ifld w 95 64)), waitReported := false, waitCycles := 0 }) := by
  rw [bwaitAct]
  dsimp only
  rw [if_neg (Nat.not_le.2 hl), if_neg (Int.not_le.2 h), State.ctx_registerWait]

/-! ### The signal queue -/

/-- The oldest entry stays queued while earlier work of its AFTER classes is not completed (R137). -/
theorem signalQueueSend_waits {g : Sig} {r : List Sig} {n : Nat} (hq : (s.ctx p c).sigq = g :: r)
    (hw : s.workBefore p c g.after g.id = true) : Waits (.signalQueueSend p ⟨c, n⟩) s := by
  simp only [Waits, exec, execSignalQueueSend, hq, hw, if_true]

/-- The oldest entry is sent where its transfer does not fail, or crosses no Isthmus pair (R137). -/
theorem signalQueueSend_sends {g : Sig} {r : List Sig} {n : Nat} (hq : (s.ctx p c).sigq = g :: r)
    (hw : s.workBefore p c g.after g.id = false) (hp : n = 0 ∨ s.sigPair p g = none) :
    exec (.signalQueueSend p ⟨c, n⟩) s = settled ((s.setCtx p c { s.ctx p c with sigq := r }).sendSig p c g) := by
  have pair : (if n = 0 then none else s.sigPair p g) = none := by
    rcases hp with rfl | hp
    · rfl
    · rw [hp, ite_self]
  simp [exec, execSignalQueueSend, hq, hw, pair]

/-- A transfer that fails on an Isthmus pair is resent below ISTH_LIMIT, and given up there (R447). -/
theorem signalQueueSend_fails {g : Sig} {r : List Sig} {n u : Nat} (hq : (s.ctx p c).sigq = g :: r)
    (hw : s.workBefore p c g.after g.id = false) (hn : 0 < n) (hp : s.sigPair p g = some u) :
    exec (.signalQueueSend p ⟨c, n⟩) s = settled (if n < s.fw.isthLimit
      then ((s.isthmusFails u n).setCtx p c { s.ctx p c with sigq := r }).sendSig p c g else s.isthmusFails u n) := by
  have pair : (if n = 0 then none else s.sigPair p g) = some u := (if_neg (Nat.ne_of_gt hn)).trans hp
  simp only [exec, execSignalQueueSend, hq, hw, pair]
  exact (apply_ite settled _ _ _).symm

/-- Whether an entry goes to another module (R137). -/
def Sig.leaves (g : Sig) (self : Nat) : Bool := g.rem && g.mod != self

theorem Sig.leaves_of_here {g : Sig} {self : Nat} (h : g.rem = true → g.mod = self) : g.leaves self = false := by
  cases hr : g.rem
  · simp [Sig.leaves, hr]
  · simp [Sig.leaves, h hr]

theorem Sig.leaves_of_other {g : Sig} {self : Nat} (hr : g.rem = true) (h : g.mod ≠ self) : g.leaves self = true := by
  simp [Sig.leaves, hr, h]

theorem State.sigPair_of_leaves {g : Sig} (h : g.leaves (s.selfId (quarterOf p)) = true) : s.sigPair p g = none :=
  if_pos (by rw [Bool.or_eq_true]; exact .inl h)

theorem State.sigPair_of_home {g : Sig} (h : s.home g.lisl = quarterOf p) : s.sigPair p g = none :=
  if_pos (by rw [Bool.or_eq_true]; exact .inr (beq_iff_eq.2 h))

theorem State.sigPair_of_away {g : Sig} (h : g.leaves (s.selfId (quarterOf p)) = false) (hq : s.home g.lisl ≠ quarterOf p) :
    s.sigPair p g = some (pairUnit (quarterOf p) (s.home g.lisl)) :=
  if_neg (by rw [Bool.or_eq_true, not_or]; exact ⟨Bool.eq_false_iff.1 h, fun e => hq (beq_iff_eq.1 e)⟩)

/-- An entry of this module goes to the Buoy unit of the home Quarter (R137, R153). -/
theorem State.sendSig_here {v : State} {g : Sig} (h : g.leaves (v.selfId (quarterOf p)) = false) :
    v.sendSig p c g = v.buoyArrive (v.home g.lisl)
      { port := islPort (v.home g.lisl) p, bidx := g.bidx, tl := g.lisl, kind := if g.rst then 2 else 1, val := g.val,
        mod := v.selfId (quarterOf p), lisl := v.logicalOf p, sctx := c, pc := g.pc, src := some (p, c, g.id), answer := none } :=
  if_neg (Bool.eq_false_iff.1 h)

/-- An entry of another module goes out as a BUOY message (R137, R307). -/
theorem State.sendSig_leaves {v : State} {g : Sig} (h : g.leaves (v.selfId (quarterOf p)) = true) :
    v.sendSig p c g = v.request (quarterOf p) (v.engVc (v.logicalOf p)).2 (reqMsg 5 (v.engVc (v.logicalOf p)).1 0 false g.mod
      (buoyFields g.lisl g.bidx (if g.rst then 1 else 0) g.val) [] []) (.sig g.id p c g.lisl g.bidx g.pc) :=
  if_pos h

end

end Sys2Proof.Machine
end

section
/-! SUPPORT. What an operation on a Buoy leaves alone beside its own Buoy: its record and its answer, down to the completion of its
work or the fault of its context, write no count and no event flag (R126, R142, R149, R157). -/

namespace Sys2Proof.Machine

/-- A field of a Buoy that holds its count or one of its event flags: COUNT, or a field of BUOY_FLAGS below WAITERS (R147, R158). -/
def BuoyFld (a : Nat) (f : Fld) : Prop := a < islWin 0 ∧ (a % 256 = 0 ∨ a % 256 = 4 ∧ f.lo + f.w ≤ 12)

/-- The counts, the event flags, the arrivals and memory are as they were; waits may have been dropped. -/
structure CountsKept (s t : State) : Prop where
  fld : ∀ a f, BuoyFld a f → t.fld a f = s.fld a f
  arrivals : ∀ q, (t.qtr q).arrivals = (s.qtr q).arrivals
  mem : t.mem = s.mem

/-- The counts, the event flags, the Quarters and memory are as they were. -/
structure UnitKept (s t : State) : Prop where
  fld : ∀ a f, BuoyFld a f → t.fld a f = s.fld a f
  qtrs : t.qtrs = s.qtrs
  mem : t.mem = s.mem

theorem State.qtr_congr {s t : State} (h : t.qtrs = s.qtrs) (q : Nat) : t.qtr q = s.qtr q := by
  rw [State.qtr, h]; rfl

theorem CountsKept.trans {s t u : State} (h : CountsKept s t) (h' : CountsKept t u) : CountsKept s u :=
  ⟨fun a f hf => (h'.fld a f hf).trans (h.fld a f hf), fun q => (h'.arrivals q).trans (h.arrivals q), h'.mem.trans h.mem⟩

namespace UnitKept

variable {s t u : State}

theorem counts (h : UnitKept s t) : CountsKept s t :=
  ⟨h.fld, fun q => congrArg Qtr.arrivals (State.qtr_congr h.qtrs q), h.mem⟩

theorem refl (s : State) : UnitKept s s := ⟨fun _ _ _ => rfl, rfl, rfl⟩

theorem trans (h : UnitKept s t) (h' : UnitKept t u) : UnitKept s u :=
  ⟨fun a f hf => (h'.fld a f hf).trans (h.fld a f hf), h'.qtrs.trans h.qtrs, h'.mem.trans h.mem⟩

theorem ite {b : Prop} [Decidable b] (ht : UnitKept s t) (hu : UnitKept s u) : UnitKept s (if b then t else u) := by
  split
  · exact ht
  · exact hu

/-- An update of other parts. -/
theorem of_parts (hr : t.regs = s.regs) (hq : t.qtrs = s.qtrs) (hm : t.mem = s.mem) : UnitKept s t :=
  ⟨fun a f _ => congrArg f.get (State.reg_congr hr a), hq, hm⟩

/-- A write of a register that is neither BUOY_VAL nor BUOY_FLAGS. -/
theorem setReg (s : State) {a : Nat} (v : Word) (h : islWin 0 ≤ a ∨ a % 256 ≠ 0 ∧ a % 256 ≠ 4) : UnitKept s (s.setReg a v) := by
  refine ⟨fun b f hf => s.fld_setReg_other f v ?_, rfl, rfl⟩
  rintro rfl
  unfold BuoyFld at hf
  omega

theorem setFld (s : State) {a : Nat} (f : Fld) (v : Nat) (h : islWin 0 ≤ a ∨ a % 256 ≠ 0 ∧ a % 256 ≠ 4) :
    UnitKept s (s.setFld a f v) := setReg s _ h

theorem count (s : State) {a : Nat} (n : Nat) (h : islWin 0 ≤ a) : UnitKept s (s.count a n) := setReg s _ (.inl h)

theorem report (s : State) (k : EventKind) (x a b : Nat) : UnitKept s (s.report k x a b) := of_parts rfl rfl rfl

theorem setIsl (s : State) (p : Nat) (x : Isl) : UnitKept s (s.setIsl p x) := of_parts rfl rfl rfl

theorem setCtx (s : State) (p c : Nat) (y : Ctx) : UnitKept s (s.setCtx p c y) := setIsl s p _

end UnitKept

/-! ### Stops and faults of a context -/

namespace UnitKept

theorem setSt (s : State) (p c st : Nat) : UnitKept s (s.setSt p c st) :=
  setFld s _ _ (.inl (by unfold Reg.ISL_SEQ_STATUS islWin; omega))

/-- What a stop writes of the context's registers (R146). -/
theorem setRun (s : State) (p c run st : Nat) : UnitKept s (s.setRun p c run st) :=
  (setFld s _ _ (.inl (by unfold Reg.ISL_SEQ_CTL islWin; omega))).trans (setSt _ p c st)

/-- A stop of a context that waits on no Buoy. -/
theorem stopCtx {s : State} {p c : Nat} (st : Nat) (h : ∀ b thr, (s.ctx p c).wait ≠ .buoy b thr) :
    UnitKept s (s.stopCtx p c st) := by
  unfold State.stopCtx
  dsimp only
  split
  case h_1 b thr hb => exact absurd hb (h b thr)
  case h_2 => exact (setRun s p c 0 st).trans (setCtx _ p c _)

theorem raisePlaus (s : State) (p : Nat) : UnitKept s (s.raisePlaus p) := by
  have window : islWin 0 ≤ plausReg p := by
    unfold plausReg Reg.TIDE_BCN_PLAUS_LO Reg.TIDE_BCN_PLAUS_HI qtrWin islWin; split <;> omega
  exact .ite (setIsl s p _) ((setIsl s p _).trans (setReg _ _ (.inl window)))

theorem recordFault (s : State) (p c code pc info : Nat) : UnitKept s (s.recordFault p c code pc info) := by
  have fault : islWin 0 ≤ Reg.ISL_SEQ_FAULT p c := by unfold Reg.ISL_SEQ_FAULT islWin; omega
  have finfo : islWin 0 ≤ Reg.ISL_SEQ_FINFO p c := by unfold Reg.ISL_SEQ_FINFO islWin; omega
  exact .ite (setFld s _ _ (.inl fault)) ((setReg s _ (.inl fault)).trans (setReg _ _ (.inl finfo)))

theorem discardSigs (s : State) (p c : Nat) : UnitKept s (s.discardSigs p c) := of_parts rfl rfl rfl

end UnitKept

theorem State.arrivals_setQtr {s : State} {q : Nat} {x : Qtr} (h : x.arrivals = (s.qtr q).arrivals) (k : Nat) :
    ((s.setQtr q x).qtr k).arrivals = (s.qtr k).arrivals := by
  rw [State.qtr_setQtr]
  split
  case isTrue hk => rw [hk, h]
  case isFalse => rfl

theorem State.arrivals_dropWait (s : State) (q p c k : Nat) : ((s.dropWait q p c).qtr k).arrivals = (s.qtr k).arrivals := by
  unfold State.dropWait
  split
  · rfl
  · dsimp only
    rw [State.syncWaiters, State.qtr_setFld]
    exact State.arrivals_setQtr (by rfl) k

theorem State.arrivals_dropWaits (s : State) (p c k : Nat) : ((s.dropWaits p c).qtr k).arrivals = (s.qtr k).arrivals := by
  unfold State.dropWaits
  refine (foldl_keeps (g := fun s => (s.qtr k).arrivals) (fun s q => ?_) _ _).trans ?_
  · dsimp only
    split
    · exact State.arrivals_setQtr (by rfl) k
    · rfl
  · simp only [State.arrivals_dropWait]

namespace CountsKept

theorem dropWaits (s : State) (p c : Nat) : CountsKept s (s.dropWaits p c) :=
  ⟨fun _ _ hf => s.fld_dropWaits p c (by unfold BuoyFld at hf; omega), s.arrivals_dropWaits p c,
    State.mem_of_accs (s.dropWaits_accs p c)⟩

/-- A stop may drop a wait of its context, and writes WAITERS with it (R146, R152). -/
theorem stopCtx (s : State) (p c st : Nat) : CountsKept s (s.stopCtx p c st) := by
  have stopped := UnitKept.setRun s p c 0 st
  unfold State.stopCtx
  dsimp only
  split
  · exact (stopped.counts.trans (dropWaits _ p c)).trans (UnitKept.setCtx _ p c _).counts
  · exact (stopped.trans (.setCtx _ p c _)).counts

theorem seqFault (s : State) (p c code pc info : Nat) : CountsKept s (s.seqFault p c code pc info) := by
  have discarded : UnitKept s (if code = 0x10 then s else s.discardSigs p c) := .ite (.refl s) (.discardSigs s p c)
  have stopped := discarded.counts.trans (stopCtx _ p c 5)
  exact stopped.trans ((UnitKept.recordFault _ p c code pc info).trans
    ((UnitKept.ite (.refl _) (.raisePlaus _ p)).trans (.report _ _ _ _ _))).counts

end CountsKept

/-! ### Completion of work -/

namespace UnitKept

theorem wakeCtx (s : State) (p c : Nat) : UnitKept s (s.wakeCtx p c) := by
  have run (st : Nat) : UnitKept s
      ((s.setCtx p c { s.ctx p c with wait := .none, waitReported := false, waitCycles := 0 }).setSt p c st) :=
    (setCtx s p c _).trans (setSt _ p c st)
  unfold State.wakeCtx
  dsimp only
  split
  · exact .refl s
  · split
    case h_1 => exact .ite (.refl s) (run 1)
    case h_2 => exact .ite (.refl s) (run 4)
    case h_3 halt => exact .ite (.refl s) (stopCtx 0 fun b thr e => nomatch halt.symm.trans e)
    case h_4 => exact .refl s

theorem islandMark (s : State) (p : Nat) : UnitKept s (s.islandMark p) := .ite (setIsl s p _) (.refl s)

theorem shoalFree (s : State) (p id : Nat) : UnitKept s (s.shoalFree p id) := by
  have status : islWin 0 ≤ Reg.SHL_STATUS p := by unfold Reg.SHL_STATUS islWin; omega
  have ops : islWin 0 ≤ Reg.SHL_CNT_OPS p := by unfold Reg.SHL_CNT_OPS islWin; omega
  have free := (setIsl s p { s.isl p with shl := none }).trans (setFld _ Fd.SHL_STATUS_BUSY 0 (.inl status))
  unfold State.shoalFree
  dsimp only
  split
  · exact .ite (.ite free (free.trans (count _ 1 ops))) (.refl s)
  · exact .refl s

theorem ferryFree (s : State) (id : Nat) : UnitKept s (s.ferryFree id) := by
  have window (f : Nat) : islWin 0 ≤ Reg.FRY_STATUS (f / 4) (f % 4) ∧ islWin 0 ≤ Reg.FRY_CNT_KIB (f / 4) (f % 4)
      ∧ islWin 0 ≤ Reg.FRY_CNT_DESC (f / 4) (f % 4) := by
    unfold Reg.FRY_STATUS Reg.FRY_CNT_KIB Reg.FRY_CNT_DESC qtrWin islWin; omega
  unfold State.ferryFree
  split
  case h_1 f hf =>
    obtain ⟨status, kib, desc⟩ := window f
    have free : UnitKept s ((s.setFry f { s.fry f with run := none }).setFld (Reg.FRY_STATUS (f / 4) (f % 4))
        Fd.FRY_STATUS_BUSY 0) :=
      (of_parts (s := s) (t := s.setFry f { s.fry f with run := none }) rfl rfl rfl).trans (setFld _ _ _ (.inl status))
    dsimp only
    split
    · have counted (n : Nat) := free.trans (count _ n kib)
      exact .ite (counted _) ((counted _).trans (count _ 1 desc))
    · exact free
  case h_2 => exact .refl s

theorem syncEbb (s : State) (p : Nat) : UnitKept s (s.syncEbb p) :=
  have status : islWin 0 ≤ Reg.EBB_STATUS p := by unfold Reg.EBB_STATUS islWin; omega
  (setFld s _ _ (.inl status)).trans (setFld _ _ _ (.inl status))

theorem engineFree (s : State) (w : Work) : UnitKept s (s.engineFree w) := by
  unfold State.engineFree
  split
  · exact syncEbb s _
  · exact shoalFree s _ _
  · exact ferryFree s _
  · exact .refl s

theorem finishWork (s : State) (id : Nat) : UnitKept s (s.finishWork id) := by
  unfold State.finishWork
  split
  · exact .refl s
  case h_2 w hw =>
    have freed : UnitKept s ((s.dropWork id).engineFree w) :=
      (of_parts (s := s) (t := s.dropWork id) rfl rfl rfl).trans (engineFree _ w)
    refine .ite ?_ (.refl s)
    dsimp only
    split
    · exact freed.trans ((wakeCtx _ _ _).trans (islandMark _ _))
    · exact freed

theorem workDone (s : State) (id : Nat) : UnitKept s (s.workDone id) :=
  (of_parts (s := s) (t := s.modWork id fun w => { w with done := true }) rfl rfl rfl).trans (finishWork _ id)

/-! ### The record and the answer of an operation -/

theorem recordArr (s : State) (q : Nat) (a : BuoyArr) : UnitKept s (s.recordArr q a) := by
  refine ((setReg s _ (.inr ?_)).trans (setReg _ _ (.inr ?_))).trans (setReg _ _ (.inr ?_))
  · unfold Reg.BUOY_LSIG_SRC buoyWin; omega
  · unfold Reg.BUOY_LSIG_INFO buoyWin; omega
  · unfold Reg.BUOY_LSIG_VAL buoyWin; omega

/-- The answer to a local operation that was applied completes its work (R126). -/
theorem answerArr (s : State) (q : Nat) {a : BuoyArr} (h : a.answer = none) : UnitKept s (s.answerArr q a false) := by
  unfold State.answerArr
  rw [h]
  dsimp only
  split
  · exact workDone s _
  · exact .refl s

end UnitKept

/-- The answer to a local underflow stops the issuing context, if there is one, and completes its work (R149). -/
theorem CountsKept.answerArr (s : State) (q : Nat) {a : BuoyArr} (h : a.answer = none) :
    CountsKept s (s.answerArr q a true) := by
  unfold State.answerArr
  rw [h]
  dsimp only
  split
  · exact (CountsKept.seqFault s _ _ _ _ _).trans (UnitKept.workDone _ _).counts
  · exact (UnitKept.refl s).counts

theorem State.answerArr_of_no_source (s : State) (q : Nat) {a : BuoyArr} (h : a.answer = none) (hs : a.src = none) (u : Bool) :
    s.answerArr q a u = s := by
  simp only [State.answerArr, h, hs]

end Sys2Proof.Machine
end

section
/-! SUPPORT. The Buoy unit's cycle with one local operation, and the waits it serves (R148 to R154). -/

namespace Sys2Proof.Machine

/-! ### One operation -/

/-- The count after an operation on a count of `n` (R148, R149, R151). -/
def BuoyArr.newCount (a : BuoyArr) (n : Nat) : Nat :=
  if a.kind = 2 then 0 else if 0 ≤ a.val then min (n + a.val.toNat) 0x7FFFFFFF
  else if a.val.natAbs ≤ n then n - a.val.natAbs else n

/-- An operation that would take a count of `n` below 0 (R149). -/
def BuoyArr.Underflows (a : BuoyArr) (n : Nat) : Prop := a.kind ≠ 2 ∧ a.val < 0 ∧ n < a.val.natAbs

/-- What an operation does before the waits on its Buoy are served. -/
def State.applyOp (s : State) (q : Nat) (a : BuoyArr) : State :=
  if a.kind = 2 then s.applyResets q a.bidx [a]
  else if 0 ≤ a.val then s.applySignals q a.bidx [a] else s.applyDec q a.bidx a

/-- The operations of a cycle on one Buoy, where there is one. -/
theorem State.applyBuoy_singleton (s : State) (q : Nat) (a : BuoyArr) :
    s.applyBuoy q a.bidx [a] = (s.applyOp q a).buoyChanged q a.bidx := by
  unfold State.applyBuoy State.applyOp
  by_cases hk : a.kind = 2
  · simp [hk, State.applySignals]
  · by_cases hv : 0 ≤ a.val
    · simp [hk, hv, State.applyResets, Int.not_lt.2 hv]
    · simp [hk, hv, State.applyResets, State.applySignals, Int.not_le.1 hv]

/-- An operation applied: the count, UNDER, and what it leaves of the Buoy units and memory. -/
structure OpApplied (q : Nat) (a : BuoyArr) (s t : State) : Prop where
  count : t.buoy q a.bidx = a.newCount (s.buoy q a.bidx)
  under : a.Underflows (s.buoy q a.bidx) → t.bit (Reg.BUOY_FLAGS (16384 * q + a.bidx)) Fd.BUOY_FLAGS_UNDER = true
  qtrs : a.src = none ∨ ¬a.Underflows (s.buoy q a.bidx) → t.qtrs = s.qtrs
  arrivals : ∀ k, (t.qtr k).arrivals = (s.qtr k).arrivals
  mem : t.mem = s.mem

section
variable (s : State) (q : Fin 4) {b : Nat}

theorem State.buoy_lt (k i : Nat) : s.buoy k i < 2 ^ 31 := Fd.BUOY_VAL_COUNT.get_lt _

theorem State.setBuoy_qtrs (k i v : Nat) : (s.setBuoy k i v).qtrs = s.qtrs := by
  rw [State.setBuoy, State.setFld_qtrs]

theorem State.setBuoy_mem (k i v : Nat) : (s.setBuoy k i v).mem = s.mem := by
  rw [State.setBuoy, State.setFld_mem]

theorem State.buoy_setBuoy (k i v : Nat) : (s.setBuoy k i v).buoy k i = v % 2 ^ 31 :=
  s.fld_setFld_same _ Fd.BUOY_VAL_COUNT v (by decide)

theorem buoyFld_count (hb : b < 16384) : BuoyFld (Reg.BUOY_VAL (16384 * q + b)) Fd.BUOY_VAL_COUNT := by
  unfold BuoyFld Reg.BUOY_VAL buoyWin islWin; omega

theorem buoyFld_under (hb : b < 16384) : BuoyFld (Reg.BUOY_FLAGS (16384 * q + b)) Fd.BUOY_FLAGS_UNDER := by
  have low : Fd.BUOY_FLAGS_UNDER.lo + Fd.BUOY_FLAGS_UNDER.w ≤ 12 := by decide
  unfold BuoyFld Reg.BUOY_FLAGS buoyWin islWin; omega

/-- A write of an event flag changes no count. -/
theorem State.buoy_setFlag (k i v : Nat) (f : Fld) : (s.setFld (Reg.BUOY_FLAGS (16384 * k + i)) f v).buoy k i = s.buoy k i :=
  s.fld_setFld_other _ _ _ (by unfold Reg.BUOY_VAL Reg.BUOY_FLAGS; omega)

end

/-- An update of the count to the new one, and then only what keeps the counts. -/
theorem OpApplied.of_set {q : Fin 4} {a : BuoyArr} {s v t : State} (hb : a.bidx < 16384)
    (hu : ¬a.Underflows (s.buoy q a.bidx)) (hv : v.buoy q a.bidx = a.newCount (s.buoy q a.bidx)) (hq : v.qtrs = s.qtrs)
    (hm : v.mem = s.mem) (h : UnitKept v t) : OpApplied q a s t :=
  have qtrs := h.qtrs.trans hq
  ⟨(h.fld _ _ (buoyFld_count q hb)).trans hv, fun hn => absurd hn hu, fun _ => qtrs,
    fun k => congrArg Qtr.arrivals (State.qtr_congr qtrs k), h.mem.trans hm⟩

/-- What a saturation records (R148, R158). -/
def State.recordSat (s : State) (q b : Nat) : State :=
  ((s.setFld (Reg.BUOY_FLAGS (16384 * q + b)) Fd.BUOY_FLAGS_SAT 1).setFld (Reg.BUOY_ERR q) Fd.BUOY_ERR_SAT 1).report .buoySat q b 0

theorem UnitKept.recordSat (s : State) (q b : Nat) :
    UnitKept (s.setFld (Reg.BUOY_FLAGS (16384 * q + b)) Fd.BUOY_FLAGS_SAT 1) (s.recordSat q b) :=
  (setFld _ _ 1 (.inl (by unfold Reg.BUOY_ERR qtrWin islWin; omega))).trans (report _ _ _ _ _)

/-- A signal adds to the count, which saturates (R148); its record and its answer follow. -/
theorem State.applySignals_singleton (s : State) (q : Fin 4) {a : BuoyArr} (hb : a.bidx < 16384) :
    ∃ v : State, s.applySignals q a.bidx [a] = ((v.recordArr q a).answerArr q a false).count (Reg.BUOY_CNT_OPS q) 1
      ∧ v.buoy q a.bidx = min (s.buoy q a.bidx + a.val.toNat) 0x7FFFFFFF ∧ v.qtrs = s.qtrs ∧ v.mem = s.mem := by
  have signals : s.applySignals q a.bidx [a] = (((if s.buoy q a.bidx + a.val.toNat > buoyMax
      then (s.setBuoy q a.bidx (min (s.buoy q a.bidx + a.val.toNat) buoyMax)).recordSat q a.bidx
      else s.setBuoy q a.bidx (min (s.buoy q a.bidx + a.val.toNat) buoyMax)).recordArr q a).answerArr q a false).count
        (Reg.BUOY_CNT_OPS q) 1 := rfl
  have count : (min (s.buoy q a.bidx + a.val.toNat) buoyMax) % 2 ^ 31 = min (s.buoy q a.bidx + a.val.toNat) 0x7FFFFFFF := by
    unfold buoyMax; omega
  refine ⟨_, signals, ?_⟩
  split
  · have sat := UnitKept.recordSat (s.setBuoy q a.bidx (min (s.buoy q a.bidx + a.val.toNat) buoyMax)) q a.bidx
    refine ⟨?_, sat.qtrs.trans ((State.setFld_qtrs _ _ _ _).trans (s.setBuoy_qtrs _ _ _)),
      sat.mem.trans ((State.setFld_mem _ _ _ _).trans (s.setBuoy_mem _ _ _))⟩
    rw [State.buoy, sat.fld _ _ (buoyFld_count q hb)]
    exact (State.buoy_setFlag _ q a.bidx 1 _).trans ((s.buoy_setBuoy _ _ _).trans count)
  · exact ⟨(s.buoy_setBuoy _ _ _).trans count, s.setBuoy_qtrs _ _ _, s.setBuoy_mem _ _ _⟩

/-- The record of an underflow sets UNDER, and writes no other field of a Buoy (R149, R158). -/
theorem UnitKept.recordUnder (s : State) (q : Fin 4) (a : BuoyArr) :
    UnitKept (s.setFld (Reg.BUOY_FLAGS (16384 * q + a.bidx)) Fd.BUOY_FLAGS_UNDER 1) (s.recordUnder q a) := by
  have err : islWin 0 ≤ Reg.BUOY_ERR q := by unfold Reg.BUOY_ERR qtrWin islWin; omega
  have id : islWin 0 ≤ Reg.BUOY_ERR_ID q := by unfold Reg.BUOY_ERR_ID qtrWin islWin; omega
  have cnt : islWin 0 ≤ Reg.BUOY_CNT_UNDER q := by unfold Reg.BUOY_CNT_UNDER qtrWin islWin; omega
  unfold State.recordUnder
  extract_lets flagged named counted
  have hnamed : UnitKept flagged named := .ite (.refl _) (setReg _ _ (.inl id))
  have hcounted : UnitKept named counted := .ite (setFld _ _ 1 (.inl err)) (setFld _ _ 1 (.inl err))
  exact (hnamed.trans hcounted).trans ((count _ 1 cnt).trans (report _ _ _ _ _))

section
variable (s : State) {q : Fin 4} {a : BuoyArr} (hb : a.bidx < 16384) (ha : a.answer = none)
include ha

/-- The record, the answer and the counter of an operation that was applied (R126, R157, R158). -/
theorem UnitKept.applied : UnitKept s (((s.recordArr q a).answerArr q a false).count (Reg.BUOY_CNT_OPS q) 1) :=
  ((recordArr s q a).trans (answerArr _ q ha)).trans (count _ 1 (by unfold Reg.BUOY_CNT_OPS qtrWin islWin; omega))

include hb

theorem OpApplied.applyResets (hk : a.kind = 2) : OpApplied q a s (s.applyResets q a.bidx [a]) := by
  refine .of_set hb (fun hu => hu.1 hk) ?_ (s.setBuoy_qtrs q a.bidx 0) (s.setBuoy_mem q a.bidx 0) (.applied _ ha)
  rw [State.buoy_setBuoy, BuoyArr.newCount, if_pos hk]
  rfl

theorem OpApplied.applySignals (hk : a.kind ≠ 2) (hv : 0 ≤ a.val) : OpApplied q a s (s.applySignals q a.bidx [a]) := by
  obtain ⟨v, signals, count, qtrs, mem⟩ := s.applySignals_singleton q hb
  rw [signals]
  refine .of_set hb (fun hu => absurd hu.2.1 (Int.not_lt.2 hv)) ?_ qtrs mem (.applied v ha)
  rw [count, BuoyArr.newCount, if_neg hk, if_pos hv]

theorem OpApplied.applyDec_covered (hk : a.kind ≠ 2) (hv : a.val < 0) (hn : a.val.natAbs ≤ s.buoy q a.bidx) :
    OpApplied q a s (s.applyDec q a.bidx a) := by
  have dec : s.applyDec q a.bidx a = (((s.setBuoy q a.bidx (s.buoy q a.bidx - a.val.natAbs)).recordArr q a).answerArr q a
      false).count (Reg.BUOY_CNT_OPS q) 1 := if_pos hn
  rw [dec]
  refine .of_set hb (fun hu => absurd hu.2.2 (Nat.not_lt.2 hn)) ?_ (s.setBuoy_qtrs _ _ _) (s.setBuoy_mem _ _ _) (.applied _ ha)
  have bound := s.buoy_lt q a.bidx
  rw [State.buoy_setBuoy, BuoyArr.newCount, if_neg hk, if_neg (Int.not_le.2 hv), if_pos hn]
  omega

theorem OpApplied.applyDec_underflow (hu : a.Underflows (s.buoy q a.bidx)) : OpApplied q a s (s.applyDec q a.bidx a) := by
  obtain ⟨hk, hv, hn⟩ := hu
  have dec : s.applyDec q a.bidx a = (s.recordUnder q a).answerArr q a true := if_neg (Nat.not_le.2 hn)
  have record := UnitKept.recordUnder s q a
  have answer := CountsKept.answerArr (s.recordUnder q a) q ha
  rw [dec]
  refine ⟨?_, fun _ => ?_, fun hs => ?_, fun k => ?_,
    answer.mem.trans (record.mem.trans (State.setFld_mem _ _ _ _))⟩
  · rw [BuoyArr.newCount, if_neg hk, if_neg (Int.not_le.2 hv), if_neg (Nat.not_le.2 hn), State.buoy,
      answer.fld _ _ (buoyFld_count q hb), record.fld _ _ (buoyFld_count q hb)]
    exact s.buoy_setFlag q a.bidx 1 _
  · have under := (answer.fld _ _ (buoyFld_under q hb)).trans (record.fld _ _ (buoyFld_under q hb))
    rw [State.bit, under, s.fld_setFld_same _ Fd.BUOY_FLAGS_UNDER 1 (by decide)]
    rfl
  · rw [State.answerArr_of_no_source _ q ha (hs.resolve_right fun h => h ⟨hk, hv, hn⟩)]
    exact record.qtrs.trans (State.setFld_qtrs _ _ _ _)
  · rw [answer.arrivals k, record.counts.arrivals k, State.qtr_setFld]

/-- A local operation, by its kind and its value (R148, R149, R151). -/
theorem OpApplied.applyOp : OpApplied q a s (s.applyOp q a) := by
  unfold State.applyOp
  split
  case isTrue hk => exact .applyResets s hb ha hk
  case isFalse hk =>
    split
    case isTrue hv => exact .applySignals s hb ha hk hv
    case isFalse hv =>
      rcases Nat.lt_or_ge (s.buoy q a.bidx) a.val.natAbs with hn | hn
      · exact .applyDec_underflow s hb ha ⟨hk, Int.not_le.1 hv, hn⟩
      · exact .applyDec_covered s hb ha hk (Int.not_le.1 hv) hn

end

/-! ### The waits on a Buoy -/

section
variable (s : State) (q b : Nat)

theorem State.arrivals_releaseWaits (k : Nat) : ((s.releaseWaits q b).qtr k).arrivals = (s.qtr k).arrivals := by
  unfold State.releaseWaits
  dsimp only
  split
  · rfl
  · refine Eq.trans ?_ (State.arrivals_setQtr (s := s) (q := q) (x := { s.qtr q with
      waits := (s.qtr q).waits.filter fun w => !(w.bidx == b && decide (w.thr ≤ (s.buoy q b : Int)))
      releases := (s.qtr q).releases ++ ((s.qtr q).waits.filter fun w => w.bidx == b && decide (w.thr ≤ (s.buoy q b : Int))).map
        fun w => (w.p, w.c) }) rfl k)
    rw [State.syncWaiters, State.qtr_setFld]
    split
    · rw [State.qtr_setFld]
    · rfl

/-- The waits whose threshold the count meets are released (R152). -/
theorem State.mem_releases_releaseWaits {w : BuoyWait} (hw : w ∈ (s.qtr q).waits) (hb : w.bidx = b)
    (ht : w.thr ≤ (s.buoy q b : Int)) : (w.p, w.c) ∈ ((s.releaseWaits q b).qtr q).releases := by
  have ready : w ∈ (s.qtr q).waits.filter fun w => w.bidx == b && decide (w.thr ≤ (s.buoy q b : Int)) :=
    List.mem_filter.2 ⟨hw, by simp [hb, ht]⟩
  unfold State.releaseWaits
  dsimp only
  split
  case isTrue empty => exact absurd (List.isEmpty_iff.1 empty ▸ ready) List.not_mem_nil
  case isFalse =>
    have released (u : State) (h : u.qtrs = (s.setQtr q { s.qtr q with
        waits := (s.qtr q).waits.filter fun w => !(w.bidx == b && decide (w.thr ≤ (s.buoy q b : Int)))
        releases := (s.qtr q).releases ++ ((s.qtr q).waits.filter fun w => w.bidx == b
          && decide (w.thr ≤ (s.buoy q b : Int))).map fun w => (w.p, w.c) }).qtrs) :
        (w.p, w.c) ∈ ((u.syncWaiters q b).qtr q).releases := by
      rw [State.syncWaiters, State.qtr_setFld, State.qtr_congr h, State.qtr_setQtr, if_pos rfl]
      exact List.mem_append_right _ (List.mem_map_of_mem ready)
    apply released
    split
    · rw [State.setFld_qtrs]
    · rfl

theorem State.triggerBkts_qtrs : (s.triggerBkts q b).qtrs = s.qtrs := by
  unfold State.triggerBkts
  refine foldl_keeps (g := State.qtrs) (fun s ch => ?_) _ s
  dsimp only
  split
  · split
    · rw [State.setFld_qtrs]
    · rfl
  · rw [State.setChan_qtrs]
    split
    · rw [State.setFld_qtrs]
    · rfl

theorem State.qtr_buoyChanged (k : Nat) : (s.buoyChanged q b).qtr k = (s.releaseWaits q b).qtr k :=
  State.qtr_congr (State.triggerBkts_qtrs _ q b) k

theorem State.buoyChanged_mem : (s.buoyChanged q b).mem = s.mem :=
  (State.triggerBkts_mem _ q b).trans (s.releaseWaits_mem q b)

theorem State.buoy_buoyChanged : (s.buoyChanged q b).buoy q b = s.buoy q b :=
  s.fld_buoyChanged q b ⟨by unfold Reg.BUOY_VAL Reg.BUOY_LWAIT_SRC; omega,
    fun e => absurd e (by unfold Reg.BUOY_VAL Reg.BUOY_FLAGS; omega)⟩

theorem State.under_buoyChanged : (s.buoyChanged q b).bit (Reg.BUOY_FLAGS (16384 * q + b)) Fd.BUOY_FLAGS_UNDER
    = s.bit (Reg.BUOY_FLAGS (16384 * q + b)) Fd.BUOY_FLAGS_UNDER :=
  congrArg (· == 1) (s.fld_buoyChanged q b ⟨by unfold Reg.BUOY_FLAGS Reg.BUOY_LWAIT_SRC; omega, fun _ => by decide⟩)

end

/-! ### The cycle -/

theorem filterMap_range_single {α : Type} (k n : Nat) (x : α) :
    (List.range n).filterMap (fun i => if k = i then some x else none) = if k < n then [x] else [] := by
  induction n with
  | zero => rfl
  | succ n ih =>
    rw [List.range_succ, List.filterMap_append, ih]
    rcases Nat.lt_trichotomy k n with h | rfl | h
    · simp [h, Nat.ne_of_lt h, Nat.lt_succ_of_lt h]
    · simp
    · simp [Nat.not_lt_of_gt h, Nat.ne_of_gt h, Nat.not_lt.2 (Nat.succ_le_of_lt h)]

/-- One operation, on a port of the unit, is the whole of a cycle (R153). -/
theorem cycleOps_singleton {a : BuoyArr} (h : a.port < 44) : cycleOps [a] = [a] := by
  have single (p : Nat) : [a].find? (·.port == p) = if a.port = p then some a else none := by
    by_cases hp : a.port = p <;> simp [hp]
  simp only [cycleOps, single, filterMap_range_single, if_pos h]

theorem State.buoyCycle_singleton {s : State} {q : Nat} {a : BuoyArr} (h : (s.qtr q).arrivals = [a]) (hp : a.port < 44) :
    s.buoyCycle q = ((s.setQtr q { s.qtr q with arrivals := [] }).applyOp q a).buoyChanged q a.bidx := by
  rw [← State.applyBuoy_singleton]
  simp [State.buoyCycle, h, cycleOps_singleton hp, cycleRest]

/-! ### Release and report of a wait -/

section
variable {s : State} {p : Fin 144} {c : Fin 2}

/-- The release that reaches a context first is that of the lowest Quarter (R152). -/
theorem find_release {q : Fin 4} (hlow : ∀ k : Fin 4, k < q → (p.val, c.val) ∉ (s.qtr k).releases)
    (hq : (p.val, c.val) ∈ (s.qtr q).releases) :
    ((List.range 4).find? fun k => (s.qtr k).releases.contains (p.val, c.val)) = some q.val := by
  rw [List.find?_range_eq_some]
  refine ⟨List.contains_iff_mem.2 hq, List.mem_range.2 q.isLt, fun j hj => ?_⟩
  simpa using hlow ⟨j, hj.trans q.isLt⟩ hj

/-- A release puts its context back into RUN (R152). -/
theorem exec_buoyRelease {q : Fin 4} {b : Nat} {thr : Int}
    (hlow : ∀ k : Fin 4, k < q → (p.val, c.val) ∉ (s.qtr k).releases) (hq : (p.val, c.val) ∈ (s.qtr q).releases)
    (hst : s.ctxSt p c = 3) (hw : (s.ctx p c).wait = .buoy b thr) :
    exec (.buoyRelease p c) s = .next (((s.setQtr q { s.qtr q with releases := (s.qtr q).releases.erase (p.val, c.val) }).setCtx
      p c { s.ctx p c with wait := .none, waitReported := false, waitCycles := 0 }).setSt p c 1) := by
  set u := s.setQtr q { s.qtr q with releases := (s.qtr q).releases.erase (p.val, c.val) }
  have st : u.ctxSt p c = 3 := hst
  have wait : (u.ctx p c).wait = .buoy b thr := hw
  simp only [exec, execBuoyRelease, find_release hlow hq]
  rw [st, wait]
  rfl

/-- A wait that has not been reported is reported while the report is on (R138). -/
theorem exec_waitReport (hst : s.ctxSt p c = 3) (hr : (s.ctx p c).waitReported = false)
    (hl : s.fld (Reg.ISL_SEQ_WTO p) Fd.ISL_SEQ_WTO_LIMIT ≠ 0) :
    exec (.waitReport p c) s = .next (((s.setCtx p c { s.ctx p c with waitReported := true }).setFld (Reg.ISL_SEQ_EVT p)
      (waitLongFld c) 1).report .waitLong p c 0) :=
  if_pos ⟨hst, by simp [hr], hl⟩

theorem waitLongFld_fits (d : Nat) : (waitLongFld d).lo + (waitLongFld d).w ≤ 32 ∧ (waitLongFld d).w = 1 := by
  unfold waitLongFld; split <;> decide

end

/-! ### The parts of the statement -/

/-- The Buoy unit's cycle with one local operation (R148, R149, R151 to R153). -/
theorem settles_buoyApply {q : Fin 4} {s : State} {a : BuoyArr} (h : (s.qtr q).arrivals = [a]) (hp : a.port < 44)
    (hb : a.bidx < 16384) (ha : a.answer = none) :
    Settles (.buoyApply q) s fun t =>
      t.buoy q a.bidx = a.newCount (s.buoy q a.bidx)
      ∧ (a.Underflows (s.buoy q a.bidx) → t.bit (Reg.BUOY_FLAGS (16384 * q + a.bidx)) Fd.BUOY_FLAGS_UNDER = true)
      ∧ (a.src = none ∨ ¬a.Underflows (s.buoy q a.bidx) → ∀ w ∈ (s.qtr q).waits, w.bidx = a.bidx →
          w.thr ≤ (t.buoy q a.bidx : Int) → (w.p, w.c) ∈ (t.qtr q).releases)
      ∧ (t.qtr q).arrivals = [] ∧ ∀ b, t.byte b = s.byte b := by
  set v := s.setQtr q { s.qtr q with arrivals := [] } with hv
  have taken : v.qtr q = { s.qtr q with arrivals := [] } := (s.qtr_setQtr _ _ _).trans (if_pos rfl)
  have same : v.buoy q a.bidx = s.buoy q a.bidx := rfl
  obtain ⟨count, under, qtrs, arrivals, mem⟩ := OpApplied.applyOp v (q := q) hb ha
  rw [same] at count under qtrs
  set u := v.applyOp q a
  refine ⟨u.buoyChanged q a.bidx, congrArg settled (State.buoyCycle_singleton h hp), ?_, fun hu => ?_, fun hs w hw hwb hwt => ?_,
    ?_, fun b => State.byte_congr ?_ b⟩
  · rw [State.buoy_buoyChanged, count]
  · rw [State.under_buoyChanged, under hu]
  · rw [State.buoy_buoyChanged] at hwt
    rw [State.qtr_buoyChanged]
    refine State.mem_releases_releaseWaits u q a.bidx ?_ hwb hwt
    rw [State.qtr_congr (qtrs hs), taken]
    exact hw
  · rw [State.qtr_buoyChanged, State.arrivals_releaseWaits, arrivals, taken]
  · rw [State.buoyChanged_mem, mem, hv, State.setQtr_mem]

section
variable {s : State} {p : Fin 144} {c : Fin 2}

/-- What a release changes: the state and the wait of its context, and the releases of its Quarter (R152). -/
theorem gives_buoyRelease {q : Fin 4} {b : Nat} {thr : Int}
    (hlow : ∀ k : Fin 4, k < q → (p.val, c.val) ∉ (s.qtr k).releases) (hq : (p.val, c.val) ∈ (s.qtr q).releases)
    (hst : s.ctxSt p c = 3) (hw : (s.ctx p c).wait = .buoy b thr) :
    Gives (.buoyRelease p c) s fun t => t.ctxSt p c = 1 ∧ (t.ctx p c).wait = .none
      ∧ (t.qtr q).releases = (s.qtr q).releases.erase (p.val, c.val)
      ∧ KeepsBut [.regs, .isls, .qtrs] s t ∧ RegsBut [Reg.ISL_SEQ_STATUS p] s t := by
  refine ⟨_, exec_buoyRelease hlow hq hst hw, State.ctxSt_setSt_same _ p c (by decide), ?_, ?_, ?_, ?_⟩
  · exact congrArg Ctx.wait (State.ctx_setCtx_same _ p c _)
  · exact congrArg Qtr.releases ((s.qtr_setQtr _ _ _).trans (if_pos rfl))
  · exact (((s.setQtr_keeps q _).trans (State.setCtx_keeps _ p c _)).trans (State.setReg_keeps _ _ _)).mono (by simp)
  · exact State.setSt_regsBut _ p c 1

/-- What the report of a wait changes (R138). -/
theorem gives_waitReport (hst : s.ctxSt p c = 3) (hr : (s.ctx p c).waitReported = false)
    (hl : s.fld (Reg.ISL_SEQ_WTO p) Fd.ISL_SEQ_WTO_LIMIT ≠ 0) :
    Gives (.waitReport p c) s fun t => t.bit (Reg.ISL_SEQ_EVT p) (waitLongFld c) = true ∧ (t.ctx p c).waitReported = true
      ∧ t.events = s.events ++ [⟨.waitLong, p, c, 0, (s.reg Reg.TIDE_NUM).toNat, s.fw.qcore.getD (p.val / 36) 0⟩]
      ∧ KeepsBut [.regs, .isls, .events] s t ∧ RegsBut [Reg.ISL_SEQ_EVT p] s t := by
  set u := s.setCtx p c { s.ctx p c with waitReported := true }
  have regs : RegsBut [Reg.ISL_SEQ_EVT p] s (u.setFld (Reg.ISL_SEQ_EVT p) (waitLongFld c) 1) := u.setReg_regsBut _ _
  have num := regs Reg.TIDE_NUM (by
    rw [List.mem_singleton]; unfold Reg.TIDE_NUM Reg.ISL_SEQ_EVT qtrWin islWin; omega)
  obtain ⟨fits, width⟩ := waitLongFld_fits c
  refine ⟨_, exec_waitReport hst hr hl, ?_, ?_, ?_, ?_, regs⟩
  · have set : (u.setFld (Reg.ISL_SEQ_EVT p) (waitLongFld c) 1).fld (Reg.ISL_SEQ_EVT p) (waitLongFld c) = 1 := by
      rw [State.fld_setFld_same _ _ _ _ fits, width, Nat.mod_eq_of_lt (by decide)]
    exact beq_iff_eq.2 set
  · exact congrArg Ctx.waitReported (s.ctx_setCtx_same p c _)
  · rw [State.report, num]
    rfl
  · exact (((s.setCtx_keeps p c _).trans (State.setReg_keeps _ _ _)).trans (State.report_keeps _ _ _ _ _)).mono (by simp)

end

/-- Settles O6. At issue an operation joins the signal queue (`sigAct_ok`) and a wait passes or is registered; the queue sends its oldest
entry by where it goes; a cycle with one operation is `settles_buoyApply`. -/
theorem buoyOperations : Obligations.BuoyOperations := by
  unfold Obligations.BuoyOperations
  refine ⟨fun p c s => ⟨fun rst i hi h hv hl hroom => ?_, fun h hv hl hle => ?_, fun h hv hl hlt => ?_,
    fun g r n => signalQueueSend_waits, fun g r n hq hw hhere hn => ?_, fun g r n hq hw hrem hmod => ?_,
    fun g r n hq hw hhere haway hn => ?_⟩, fun q s a harr hport hbidx hans => ?_,
    fun p c s => ⟨fun q b thr => gives_buoyRelease, gives_waitReport⟩⟩
  · rw [Prod.mk.injEq, Prod.mk.injEq] at hi
    rcases hi with ⟨rfl, rfl⟩ | ⟨rfl, rfl⟩
    · exact sigIssue_ready (o := 0x70) false (.inl rfl) h hv hl hroom
    · exact sigIssue_ready (o := 0x72) true (.inr rfl) h hv hl hroom
  · rw [exec_bwait_ready h hv, bwaitAct_passes (by rwa [s.logicalCount_running])
      (by rwa [s.buoy_running, s.home_running])]
  · rw [exec_bwait_ready h hv, bwaitAct_waits (by rwa [s.logicalCount_running])
      (by rwa [s.buoy_running, s.home_running]), s.home_running]
    rfl
  · have here := g.leaves_of_here hhere
    rw [signalQueueSend_sends hq hw (hn.imp_right s.sigPair_of_home)]
    exact congrArg settled (State.sendSig_here here)
  · have leaves := g.leaves_of_other hrem hmod
    rw [signalQueueSend_sends hq hw (.inr (s.sigPair_of_leaves leaves))]
    exact congrArg settled (State.sendSig_leaves leaves)
  · exact signalQueueSend_fails hq hw hn (s.sigPair_of_away (g.leaves_of_here hhere) haway)
  · obtain ⟨t, ht, count, under, released, arrivals, mem⟩ := settles_buoyApply harr hport hbidx hans
    refine ⟨t, ht, count, fun hk hv hn => under ⟨hk, hv, hn⟩, fun hcase => released (hcase.imp_right fun hc hu => ?_), arrivals, mem⟩
    obtain ⟨hk, hv, hn⟩ := hu
    rcases hc with hc | hc | hc
    · exact hk hc
    · exact Int.not_lt.2 hc hv
    · exact Nat.not_lt.2 hc hn

end Sys2Proof.Machine
end


section
/-! SUPPORT. The element chain of the Ebb and its functions (R163 to R167). -/

namespace Sys2Proof.Machine

/-! ### The functions -/

section
variable {z : Nat} (a : Nat)

theorem ebbF_of_nan (n : Nat) (h : f32 z = .nan) : ebbF n a z = 0x7FC00000 := by
  rw [ebbF, h]
  rfl

theorem ebbD_of_nan (n : Nat) (h : f32 z = .nan) : ebbD n a z = 0x7FC00000 := by
  rw [ebbD, h]
  rfl

section
variable (h : f32 z ≠ .nan)
include h

/-- IDENT, RELU and LRELU of a number (R165). -/
theorem ebbF_of_number : ebbF 0 a z = z ∧ ebbF 1 a z = (if pos32 z then z else 0)
    ∧ ebbF 2 a z = (if pos32 z then z else f32Mul a z) := by
  unfold ebbF
  cases hz : f32 z with
  | nan => exact absurd hz h
  | inf neg => exact ⟨rfl, rfl, rfl⟩
  | fin neg m e => exact ⟨rfl, rfl, rfl⟩

/-- The derivatives of IDENT, RELU and LRELU at a number (R165). -/
theorem ebbD_of_number : ebbD 0 a z = 0x3F800000 ∧ ebbD 1 a z = (if pos32 z then 0x3F800000 else 0)
    ∧ ebbD 2 a z = (if pos32 z then 0x3F800000 else a) := by
  unfold ebbD
  cases hz : f32 z with
  | nan => exact absurd hz h
  | inf neg => exact ⟨rfl, rfl, rfl⟩
  | fin neg m e => exact ⟨rfl, rfl, rfl⟩

end

section
variable (n : Nat)

/-- The functions that are not piecewise linear, at the infinities (R166). -/
theorem ebbF_of_inf {neg : Bool} (h : f32 z = .inf neg) : ebbF (n + 3) a z =
    if n + 3 = 6 then (if neg then 0 else one32) else if n + 3 = 7 then (if neg then 0xBF800000 else one32)
    else if neg then 0x80000000 else z := by
  simp only [ebbF, h]

/-- Those functions at −0 (R166). -/
theorem ebbF_of_negZero {e : Int} (h : f32 z = .fin true 0 e) :
    ebbF (n + 3) a z = if n + 3 = 6 then 0x3F000000 else 0x80000000 := by
  simp only [ebbF, h]

/-- Their derivatives at the infinities (R166). -/
theorem ebbD_of_inf {neg : Bool} (h : f32 z = .inf neg) :
    ebbD (n + 3) a z = if n + 3 ≤ 5 then (if neg then 0 else one32) else 0 := by
  simp only [ebbD, h]

end
end

/-! ### Special values -/

theorem f32_posInf : f32 0x7F800000 = .inf false := by decide
theorem f32_negInf : f32 0xFF800000 = .inf true := by decide
theorem f32_negZero : f32 0x80000000 = .fin true 0 (-149) := by decide

/-- Settles O12, from the definition of the chain step by step, and from the functions at numbers, infinities and −0. -/
theorem ebbArithmetic : Obligations.EbbArithmetic := by
  unfold Obligations.EbbArithmetic
  refine ⟨fun d entry scale bias z gate hsrc => ⟨fun hb => ?_, fun hb => ?_, fun hg hm => ?_, fun hg hm => ?_, fun hg hm => ?_,
    fun hg hm => ?_⟩, fun n a z h => ⟨ebbF_of_nan a n h, ebbD_of_nan a n h⟩, fun a z h => ?_, fun n a hlo hhi => ?_, fun a => ?_,
    fun n a hlo hhi => ?_⟩
  iterate 2 · simp [ebbChain, hsrc, hb]
  iterate 4 · simp [ebbChain, hg, hm]
  · obtain ⟨ident, relu, lrelu⟩ := ebbF_of_number a h
    obtain ⟨ident', relu', lrelu'⟩ := ebbD_of_number a h
    refine ⟨ident, ident', fun hp => ?_, fun hp => ?_⟩
    · have pos : pos32 z = true := hp
      simp [relu, lrelu, relu', lrelu', pos]
    · have pos : pos32 z = false := hp
      simp [relu, lrelu, relu', lrelu', pos]
  · obtain ⟨n, rfl⟩ := Nat.exists_eq_add_of_le' hlo
    have h6 : n + 3 ≠ 6 := by omega
    have h7 : n + 3 ≠ 7 := by omega
    simp [ebbF_of_inf a n f32_posInf, ebbF_of_inf a n f32_negInf, ebbD_of_inf a n f32_posInf, ebbD_of_inf a n f32_negInf,
      ebbF_of_negZero a n f32_negZero, h6, h7, hhi, one32]
  · exact ⟨ebbF_of_inf a 3 f32_posInf, ebbF_of_inf a 3 f32_negInf, ebbF_of_negZero a 3 f32_negZero,
      ebbF_of_inf a 4 f32_posInf, ebbF_of_inf a 4 f32_negInf, ebbF_of_negZero a 4 f32_negZero⟩
  · obtain ⟨n, rfl⟩ := Nat.exists_eq_add_of_le' (Nat.le_of_succ_le (Nat.le_of_succ_le (Nat.le_of_succ_le hlo)))
    have h5 : ¬n + 3 ≤ 5 := by omega
    exact ⟨(ebbD_of_inf a n f32_posInf).trans (if_neg h5), (ebbD_of_inf a n f32_negInf).trans (if_neg h5)⟩

end Sys2Proof.Machine
end


section
/-! SUPPORT. What an Ebb holds, and the registers, through the stop of a context, the completion of work and the record of an error:
which of them stay as they were (R126, R142, R181, R287). -/

namespace Sys2Proof.Machine

theorem State.isl_congr {s t : State} (h : t.isls = s.isls) (p : Nat) : t.isl p = s.isl p := by
  rw [State.isl, h]
  rfl

theorem State.ctx_congr {s t : State} (h : t.isls = s.isls) (p c : Nat) : t.ctx p c = s.ctx p c := by
  rw [State.ctx, State.isl_congr h]
  rfl

theorem State.findWork_congr {s t : State} (h : t.work = s.work) (id : Nat) : t.findWork id = s.findWork id := by
  rw [State.findWork, h]
  rfl

/-- What the Ebb of an Island holds, with every other part of the Island empty. -/
def Isl.ebbPart (x : Isl) : Isl :=
  { ebbq := x.ebbq, ebb := x.ebb, ebbw := x.ebbw, lossN := x.lossN, lossVal := x.lossVal }

/-- Every Ebb holds what it held, and the registers in `K` read as they did. -/
structure EbbsKept (K : Nat → Prop) (s t : State) : Prop where
  part : ∀ p, (t.isl p).ebbPart = (s.isl p).ebbPart
  reg : ∀ a, K a → t.reg a = s.reg a

/-- No register. -/
def NoReg (_ : Nat) : Prop := False

namespace EbbsKept

variable {K L : Nat → Prop} {s t u : State}

theorem refl (s : State) : EbbsKept K s s := ⟨fun _ => rfl, fun _ _ => rfl⟩

theorem trans (h : EbbsKept K s t) (h' : EbbsKept K t u) : EbbsKept K s u :=
  ⟨fun p => (h'.part p).trans (h.part p), fun a ha => (h'.reg a ha).trans (h.reg a ha)⟩

theorem mono (h : EbbsKept K s t) (hK : ∀ a, L a → K a) : EbbsKept L s t := ⟨h.part, fun a ha => h.reg a (hK a ha)⟩

theorem ite {c : Prop} [Decidable c] (ht : EbbsKept K s t) (hu : EbbsKept K s u) : EbbsKept K s (if c then t else u) := by
  split
  · exact ht
  · exact hu

theorem of_isls (hi : t.isls = s.isls) (hr : ∀ a, K a → t.reg a = s.reg a) : EbbsKept K s t :=
  ⟨fun p => by rw [State.isl_congr hi], hr⟩

/-- An update of other parts than the Islands and the registers. -/
theorem of_parts (hi : t.isls = s.isls) (hr : t.regs = s.regs) : EbbsKept K s t := of_isls hi fun _ _ => State.reg_congr hr _

theorem setReg (s : State) {a : Nat} (v : Word) (h : ¬K a) : EbbsKept K s (s.setReg a v) :=
  of_isls rfl fun _ hb => s.reg_setReg_other v fun e => h (e ▸ hb)

theorem setFld (s : State) {a : Nat} (f : Fld) (v : Nat) (h : ¬K a) : EbbsKept K s (s.setFld a f v) := setReg s _ h

theorem count (s : State) {a : Nat} (n : Nat) (h : ¬K a) : EbbsKept K s (s.count a n) := setReg s _ h

/-- An update of an Island beside its Ebb. -/
theorem setIsl (s : State) {p : Nat} {x : Isl} (h : x.ebbPart = (s.isl p).ebbPart) : EbbsKept K s (s.setIsl p x) := by
  refine ⟨fun q => ?_, fun _ _ => rfl⟩
  rw [State.isl_setIsl]
  split
  case isTrue hq => rw [hq, h]
  case isFalse => rfl

theorem setCtx (s : State) (p c : Nat) (y : Ctx) : EbbsKept K s (s.setCtx p c y) := by
  refine setIsl s ?_
  unfold Isl.setCtx
  split <;> rfl

theorem raisePlaus (s : State) (p : Nat) (h : ¬K (plausReg p)) : EbbsKept K s (s.raisePlaus p) := by
  unfold State.raisePlaus
  dsimp only
  split
  · exact setIsl s rfl
  · exact (setIsl s (p := p) (x := { s.isl p with plaus := true }) rfl).trans (setReg _ _ h)

end EbbsKept

/-! ### The fault of a context -/

theorem State.dropWait_isls (s : State) (q p c : Nat) : (s.dropWait q p c).isls = s.isls := by
  unfold State.dropWait
  split
  · rfl
  · rw [State.syncWaiters, State.setFld_isls, State.setQtr_isls]

theorem State.dropWaits_isls (s : State) (p c : Nat) : (s.dropWaits p c).isls = s.isls := by
  unfold State.dropWaits
  refine (foldl_keeps (g := State.isls) (fun s q => ?_) _ _).trans ?_
  · dsimp only
    split <;> rfl
  · simp only [State.dropWait_isls]

theorem EbbsKept.stopCtx (s : State) (p c st : Nat) : EbbsKept NoReg s (s.stopCtx p c st) := by
  have stopped : EbbsKept NoReg s (s.setRun p c 0 st) :=
    of_isls ((s.setRun_frame p c 0 st).1.2 .isls (by decide)) fun _ h => h.elim
  unfold State.stopCtx
  dsimp only
  split
  · exact (stopped.trans (of_isls (State.dropWaits_isls _ p c) fun _ h => h.elim)).trans (setCtx _ p c _)
  · exact stopped.trans (setCtx _ p c _)

/-- The fault of a context discards nothing that an Ebb holds (R142). -/
theorem EbbsKept.seqFault (s : State) (p c code pc info : Nat) : EbbsKept NoReg s (s.seqFault p c code pc info) := by
  have discard : EbbsKept NoReg s (s.discardSigs p c) :=
    (setCtx s p c { s.ctx p c with sigq := [] }).trans (of_parts rfl rfl)
  have record (s : State) : EbbsKept NoReg s (s.recordFault p c code pc info) :=
    .ite (setFld s _ _ id) ((setReg s _ id).trans (setReg _ _ id))
  have raise (s : State) : EbbsKept NoReg s (if code = 0x10 then s else s.raisePlaus p) :=
    .ite (.refl s) (raisePlaus s p id)
  exact ((((EbbsKept.ite (.refl s) discard).trans (stopCtx _ p c 5)).trans (record _)).trans (raise _)).trans (of_parts rfl rfl)

/-- A fault records the PC in 14 bits, and only these (R144). -/
theorem State.seqFault_pc_mod (s : State) (p c code pc info : Nat) :
    s.seqFault p c code (pc % 2 ^ 14) info = s.seqFault p c code pc info := by
  simp only [State.seqFault, State.recordFault, Nat.mod_mod]

/-- The fault of a context writes, of its Island's other units, no field below bit 12 (R142). -/
theorem State.fld_seqFault (s : State) (p : Fin 144) (c : Fin 2) (code pc info : Nat) {off : Nat} {f : Fld} (ho : 0x30 ≤ off)
    (hoff : off < 0x10000) (hf : f.lo + f.w ≤ 12) :
    (s.seqFault p c code pc info).fld (islWin p + off) f = s.fld (islWin p + off) f := by
  have hc := c.isLt
  have fault : islWin p + off ≠ Reg.ISL_SEQ_FAULT p c := by unfold Reg.ISL_SEQ_FAULT; omega
  have finfo : islWin p + off ≠ Reg.ISL_SEQ_FINFO p c := by unfold Reg.ISL_SEQ_FINFO; omega
  have record (u : State) : (u.recordFault p c code pc info).fld (islWin p + off) f = u.fld (islWin p + off) f := by
    unfold State.recordFault
    split
    · exact u.fld_setFld_other _ _ _ fault
    · rw [State.fld_setReg_other _ _ _ finfo, State.fld_setReg_other _ _ _ fault]
  have raise (u : State) : (if code = 0x10 then u else u.raisePlaus p).fld (islWin p + off) f = u.fld (islWin p + off) f := by
    split
    · rfl
    · rw [State.fld, u.reg_raisePlaus p (islReg_ne_plausReg p hoff)]
      rfl
  have stop (u : State) : (u.stopCtx p c 5).fld (islWin p + off) f = u.fld (islWin p + off) f := by
    rw [u.fld_stopCtx p c 5 (.inr hf), State.setSt, State.fld_setFld_other _ _ _ _ (by unfold Reg.ISL_SEQ_STATUS; omega),
      State.fld_setFld_other _ _ _ _ (by unfold Reg.ISL_SEQ_CTL; omega)]
  have discard : (if code = 0x10 then s else s.discardSigs p c).fld (islWin p + off) f = s.fld (islWin p + off) f := by
    split <;> rfl
  exact (raise _).trans ((record _).trans ((stop _).trans discard))

/-! ### The completion of work -/

/-- A register of the sequencers, the arrays or the Ebbs that no engine writes when it is freed. -/
def NotFreed (a : Nat) : Prop :=
  a < qtrWin 0 ∧ a % 0x10000 ≠ 0x3000 ∧ a % 0x10000 ≠ 0x4000 ∧ a % 0x10000 ≠ 0x4020

/-- A register that the wake of a context leaves alone: any but ISL_SEQ_CTL and ISL_SEQ_STATUS. -/
def NotWoken (a : Nat) : Prop := a % 0x10000 ≠ 0 ∧ a % 0x10000 ≠ 4

namespace EbbsKept

theorem syncEbb (s : State) (p : Nat) : EbbsKept NotFreed s (s.syncEbb p) := by
  have status : ¬NotFreed (Reg.EBB_STATUS p) := by unfold NotFreed Reg.EBB_STATUS islWin; omega
  exact (setFld s _ _ status).trans (setFld _ _ _ status)

theorem shoalFree (s : State) (p id : Nat) : EbbsKept NotFreed s (s.shoalFree p id) := by
  have status : ¬NotFreed (Reg.SHL_STATUS p) := by unfold NotFreed Reg.SHL_STATUS islWin; omega
  have ops : ¬NotFreed (Reg.SHL_CNT_OPS p) := by unfold NotFreed Reg.SHL_CNT_OPS islWin; omega
  have free := (setIsl (K := NotFreed) s (p := p) (x := { s.isl p with shl := none }) rfl).trans
    (setFld _ Fd.SHL_STATUS_BUSY 0 status)
  unfold State.shoalFree
  dsimp only
  split
  · exact .ite (.ite free (free.trans (count _ 1 ops))) (.refl s)
  · exact .refl s

theorem ferryFree (s : State) (id : Nat) : EbbsKept NotFreed s (s.ferryFree id) := by
  have window {a : Nat} (h : qtrWin 0 ≤ a) : ¬NotFreed a := fun ha => Nat.not_lt.2 h ha.1
  have inside (f : Nat) : qtrWin 0 ≤ Reg.FRY_STATUS (f / 4) (f % 4) ∧ qtrWin 0 ≤ Reg.FRY_CNT_KIB (f / 4) (f % 4)
      ∧ qtrWin 0 ≤ Reg.FRY_CNT_DESC (f / 4) (f % 4) := by
    unfold Reg.FRY_STATUS Reg.FRY_CNT_KIB Reg.FRY_CNT_DESC qtrWin; omega
  unfold State.ferryFree
  split
  case h_1 f hf =>
    obtain ⟨status, kib, desc⟩ := inside f
    have free : EbbsKept NotFreed s ((s.setFry f { s.fry f with run := none }).setFld (Reg.FRY_STATUS (f / 4) (f % 4))
        Fd.FRY_STATUS_BUSY 0) :=
      (of_parts (s := s) (t := s.setFry f { s.fry f with run := none }) rfl rfl).trans (setFld _ _ _ (window status))
    dsimp only
    split
    · have counted (n : Nat) := free.trans (count _ n (window kib))
      exact .ite (counted _) ((counted _).trans (count _ 1 (window desc)))
    · exact free
  case h_2 => exact .refl s

theorem engineFree (s : State) (w : Work) : EbbsKept NotFreed s (s.engineFree w) := by
  unfold State.engineFree
  split
  · exact syncEbb s _
  · exact shoalFree s _ _
  · exact ferryFree s _
  · exact .refl s

theorem setSt (s : State) (p c st : Nat) : EbbsKept NotWoken s (s.setSt p c st) :=
  setFld s _ _ (by unfold NotWoken Reg.ISL_SEQ_STATUS islWin; omega)

theorem wakeCtx (s : State) (p c : Nat) : EbbsKept NotWoken s (s.wakeCtx p c) := by
  have run (st : Nat) : EbbsKept NotWoken s
      ((s.setCtx p c { s.ctx p c with wait := .none, waitReported := false, waitCycles := 0 }).setSt p c st) :=
    (setCtx s p c _).trans (setSt _ p c st)
  have stop (h : (s.ctx p c).wait = .halt) : EbbsKept NotWoken s (s.stopCtx p c 0) := by
    have stopped : EbbsKept NotWoken s (s.setRun p c 0 0) :=
      (setFld s _ _ (by unfold NotWoken Reg.ISL_SEQ_CTL islWin; omega)).trans (setSt _ p c 0)
    have ctx : (s.setRun p c 0 0).ctx p c = s.ctx p c := State.ctx_congr ((s.setRun_frame p c 0 0).1.2 .isls (by decide)) p c
    change EbbsKept NotWoken s (State.setCtx (match ((s.setRun p c 0 0).ctx p c).wait with
      | .buoy _ _ => (s.setRun p c 0 0).dropWaits p c
      | _ => s.setRun p c 0 0) p c _)
    rw [ctx, h]
    exact stopped.trans (setCtx _ p c _)
  unfold State.wakeCtx
  dsimp only
  split
  · exact .refl s
  · split
    case h_1 => exact .ite (.refl s) (run 1)
    case h_2 => exact .ite (.refl s) (run 4)
    case h_3 halt => exact .ite (.refl s) (stop halt)
    case h_4 => exact .refl s

theorem islandMark (K : Nat → Prop) (s : State) (p : Nat) : EbbsKept K s (s.islandMark p) := .ite (setIsl s rfl) (.refl s)

theorem finishWork (s : State) (id : Nat) : EbbsKept (fun a => NotFreed a ∧ NotWoken a) s (s.finishWork id) := by
  unfold State.finishWork
  split
  · exact .refl s
  case h_2 w hw =>
    have freed : EbbsKept (fun a => NotFreed a ∧ NotWoken a) s ((s.dropWork id).engineFree w) :=
      (of_parts (s := s) (t := s.dropWork id) rfl rfl).trans ((engineFree _ w).mono fun _ h => h.1)
    refine .ite ?_ (.refl s)
    dsimp only
    split
    · exact freed.trans (((wakeCtx _ _ _).mono fun _ h => h.2).trans (islandMark _ _ _))
    · exact freed

/-- The completion of work leaves every Ebb alone, and the registers that neither a freed engine nor a woken context writes. -/
theorem workDone (s : State) (id : Nat) : EbbsKept (fun a => NotFreed a ∧ NotWoken a) s (s.workDone id) :=
  (of_parts (s := s) (t := s.modWork id fun w => { w with done := true }) rfl rfl).trans (finishWork _ id)

end EbbsKept

/-- A write of a context's state leaves that of a context in another state alone: two contexts either share the field or lie apart. -/
theorem State.ctxSt_setSt_of_ne (s : State) {p q c d : Nat} (st : Nat) (h : s.ctxSt p c ≠ s.ctxSt q d) :
    (s.setSt q d st).ctxSt p c = s.ctxSt p c := by
  by_cases hp : Reg.ISL_SEQ_STATUS p = Reg.ISL_SEQ_STATUS q
  · have apart : (stFld c).lo + (stFld c).w ≤ (stFld d).lo ∨ (stFld d).lo + (stFld d).w ≤ (stFld c).lo := by
      have differ : stFld c ≠ stFld d := fun e => h (by
        show s.fld (Reg.ISL_SEQ_STATUS p) (stFld c) = s.fld (Reg.ISL_SEQ_STATUS q) (stFld d)
        rw [hp, e])
      have either (x : Nat) : stFld x = Fd.ISL_SEQ_STATUS_ST0 ∨ stFld x = Fd.ISL_SEQ_STATUS_ST1 := ite_eq_or_eq _ _ _
      rcases either c with hc | hc <;> rcases either d with hd | hd <;> rw [hc, hd] at differ ⊢
      · exact absurd rfl differ
      · decide
      · decide
      · exact absurd rfl differ
    show (s.setFld _ _ _).fld (Reg.ISL_SEQ_STATUS p) (stFld c) = s.fld (Reg.ISL_SEQ_STATUS p) (stFld c)
    rw [hp]
    exact s.fld_setFld_disjoint _ _ _ _ (stFld_fits d) apart
  · exact s.fld_setFld_other _ _ _ hp

/-- So does a stop. -/
theorem State.ctxSt_stopCtx_of_ne (s : State) {p q c d : Nat} (st : Nat) (h : s.ctxSt p c ≠ s.ctxSt q d) :
    (s.stopCtx q d st).ctxSt p c = s.ctxSt p c := by
  have apart (x : Nat) : Reg.ISL_SEQ_STATUS x ≠ Reg.ISL_SEQ_CTL q := by
    unfold Reg.ISL_SEQ_STATUS Reg.ISL_SEQ_CTL islWin; omega
  have same (x y : Nat) : (s.setFld (Reg.ISL_SEQ_CTL q) (runFld d) 0).ctxSt x y = s.ctxSt x y :=
    s.fld_setFld_other _ _ _ (apart x)
  have low : (stFld c).lo + (stFld c).w ≤ 12 := by unfold stFld; split <;> decide
  refine (s.fld_stopCtx q d st (.inr low)).trans ((State.ctxSt_setSt_of_ne _ st ?_).trans (same p c))
  rwa [same, same]

/-- The wake of contexts leaves one alone that is not waiting (R126, R139, R140). -/
theorem State.ctxSt_wakeCtx (s : State) {p c : Nat} (q d : Nat) (h : s.ctxSt p c ≠ 3) :
    (s.wakeCtx q d).ctxSt p c = s.ctxSt p c := by
  by_cases hw : s.ctxSt q d = 3
  · have differ : s.ctxSt p c ≠ s.ctxSt q d := fun e => h (e.trans hw)
    have run (st : Nat) : ((s.setCtx q d { s.ctx q d with wait := .none, waitReported := false, waitCycles := 0 }).setSt q d
        st).ctxSt p c = s.ctxSt p c :=
      State.ctxSt_setSt_of_ne (s.setCtx q d _) st differ
    unfold State.wakeCtx
    dsimp only
    rw [if_neg (not_not.2 hw)]
    split
    case h_1 => split; exacts [rfl, run 1]
    case h_2 => split; exacts [rfl, run 4]
    case h_3 halt =>
      split
      · rfl
      · exact s.ctxSt_stopCtx_of_ne 0 differ
    case h_4 => rfl
  · exact congrArg (fun t : State => t.ctxSt p c) (if_pos hw)

/-- The completion of work leaves the state of a context alone that is not waiting. -/
theorem State.ctxSt_workDone (s : State) (p : Fin 144) {c : Nat} (id : Nat) (h : s.ctxSt p c ≠ 3) :
    (s.workDone id).ctxSt p c = s.ctxSt p c := by
  have status : NotFreed (Reg.ISL_SEQ_STATUS p) := by unfold NotFreed Reg.ISL_SEQ_STATUS islWin qtrWin; omega
  have fld {u v : State} (e : v.reg (Reg.ISL_SEQ_STATUS p) = u.reg (Reg.ISL_SEQ_STATUS p)) : v.ctxSt p c = u.ctxSt p c :=
    congrArg (Fld.get _) e
  unfold State.workDone State.finishWork
  split
  · rfl
  case h_2 w hw =>
    split
    case isFalse => rfl
    case isTrue =>
      set u := s.modWork id fun w => { w with done := true }
      have freed : ((u.dropWork id).engineFree w).ctxSt p c = s.ctxSt p c :=
        fld ((EbbsKept.engineFree (u.dropWork id) w).reg _ status)
      dsimp only
      split
      case h_1 q d hsrc =>
        refine (fld ((EbbsKept.islandMark (fun _ => True) _ q).reg _ trivial)).trans ((State.ctxSt_wakeCtx _ q d ?_).trans freed)
        rwa [freed]
      case h_2 => exact freed

end Sys2Proof.Machine
end


section
/-! SUPPORT. The Chart entries that a drain reads (R179, R182, R183): where they lie and what they hold does not depend on the
errors that the reads record, and these leave the Ebbs alone (R271, R272, R287). -/

namespace Sys2Proof.Machine

/-! ### Registers apart from the records of errors -/

/-- A register at an offset at which no controller records its errors and no plausibility bit stands (R287, R389). -/
def QuietReg (a : Nat) : Prop := a % 0x1000 < 0x10 ∨ (0x40 ≤ a % 0x1000 ∧ a % 0x1000 ≠ 0x280 ∧ a % 0x1000 ≠ 0x284)

theorem not_quietReg_memReg (m : MemUnit) {off : Nat} (hlo : 0x10 ≤ off) (hhi : off < 0x40) : ¬QuietReg (memReg m off) := by
  cases m <;> simp only [QuietReg, memReg, islWin, qtrWin] <;> omega

theorem not_quietReg_plausReg (p : Nat) : ¬QuietReg (plausReg p) := by
  unfold plausReg
  split
  · unfold QuietReg Reg.TIDE_BCN_PLAUS_LO qtrWin; omega
  · unfold QuietReg Reg.TIDE_BCN_PLAUS_HI qtrWin; omega

/-- Errors may have been recorded: quiet registers and every part but the registers and the events are as they were. -/
structure ErrorsNoted (s t : State) : Prop where
  keeps : KeepsBut [.regs, .events] s t
  reg : ∀ a, QuietReg a → t.reg a = s.reg a

namespace ErrorsNoted

theorem refl (s : State) : ErrorsNoted s s := ⟨.refl _ s, fun _ _ => rfl⟩

theorem trans {s t u : State} (h : ErrorsNoted s t) (h' : ErrorsNoted t u) : ErrorsNoted s u :=
  ⟨(h.keeps.trans h'.keeps).mono (by simp), fun a ha => (h'.reg a ha).trans (h.reg a ha)⟩

/-- The record of an error: its first occurrence, a counter and an event (R287). -/
theorem firstErr (s : State) (m : MemUnit) (f g : Fld) {o n : Nat} (cwa : Nat) (info : Word) (k : EventKind) (u a b : Nat)
    (ho : 0x10 ≤ o) (ho' : o < 0x30) (hn : 0x10 ≤ n) (hn' : n < 0x40) :
    ErrorsNoted s (((s.firstErr m f g o cwa info).count (memReg m n) 1).report k u a b) := by
  refine ⟨((s.firstErr_keeps m _ _ _ _ _).trans ((State.setReg_keeps _ _ _).trans (State.report_keeps _ _ _ _ _))).mono (by simp),
    fun x hx => ?_⟩
  have apart {i : Nat} (hlo : 0x10 ≤ i) (hhi : i < 0x40) : x ≠ memReg m i := fun e => not_quietReg_memReg m hlo hhi (e ▸ hx)
  rw [State.reg_congr (State.report_regs _ _ _ _ _), State.reg_count, if_neg (apart hn hn')]
  refine s.firstErr_regsBut m f g o cwa info x ?_
  simp only [List.mem_cons, List.not_mem_nil, or_false, not_or]
  exact ⟨apart (by omega) (by omega), apart (by omega) (by omega), apart (by omega) (by omega), apart (by omega) (by omega)⟩

/-- The check of a codeword (R271, R272). -/
theorem checkCw (s : State) (a req lisl : Nat) : ErrorsNoted s (s.checkCw a req lisl).2 := by
  unfold State.checkCw
  split
  · exact .refl s
  case h_2 m hm =>
    split
    case h_1 => exact .refl s
    case h_2 sym hcw =>
      rw [State.recordCe_eq]
      exact firstErr s m _ _ _ _ _ _ _ _ (by decide) (by decide) (by decide) (by decide)
    case h_3 hcw =>
      rw [State.recordUe_eq]
      exact firstErr s m _ _ _ _ _ _ _ _ (by decide) (by decide) (by decide) (by decide)
    case h_4 hcw =>
      rw [State.recordUe_eq]
      exact firstErr s m _ _ _ _ _ _ _ _ (by decide) (by decide) (by decide) (by decide)

theorem checkCws (s : State) (a req lisl k : Nat) : ErrorsNoted s (s.checkCws a req lisl k).2 := by
  induction k generalizing s a with
  | zero => exact .refl s
  | succ k ih => exact (checkCw s a req lisl).trans (ih _ _)

end ErrorsNoted

/-- Clean codewords are read without a record (R271). -/
theorem State.checkCws_of_ok (s : State) {a : Nat} (req lisl : Nat) {k : Nat} (h : ∀ i < k, s.cwAt (a + 32 * i) = .ok) :
    s.checkCws a req lisl k = (false, s) := by
  induction k generalizing a with
  | zero => rfl
  | succ k ih =>
    have here : s.checkCw a req lisl = (false, s) := by
      unfold State.checkCw
      rw [show s.cwAt a = .ok from h 0 (Nat.succ_pos k)]
      split <;> rfl
    have rest : s.checkCws (a + 32) req lisl k = (false, s) := ih fun i hi => by
      have next := h (i + 1) (Nat.succ_lt_succ hi)
      rwa [Nat.mul_succ, Nat.add_comm (32 * i), ← Nat.add_assoc] at next
    simp only [State.checkCws, here, rest, Bool.or_self]

/-! ### Where the entries lie -/

/-- The Islands and stacks of a region are those that there are (R36). -/
def Region.Inside : Region → Prop
  | .lag p | .acc p | .prog p => p < 144
  | .hbm k => k < 8
  | _ => True

theorem Region.Inside.ite {c : Prop} [Decidable c] {x y : Region} (hx : c → x.Inside) (hy : y.Inside) :
    (if c then x else y).Inside := by
  split
  case isTrue hc => exact hx hc
  case isFalse => exact hy

theorem region_inside (a : Nat) : (region a).Inside := by
  unfold region
  iterate 9 refine .ite (fun _ => trivial) ?_
  iterate 3 refine .ite (fun h => show _ < 144 by omega) ?_
  refine .ite (fun h => show _ < 8 by omega) ?_
  iterate 2 refine .ite (fun _ => trivial) ?_
  trivial

theorem lpxChannel_lt (a : Nat) : lpxChannel a < 32 :=
  Nat.xor_lt_two_pow (n := 5) (Nat.mod_lt _ (by decide)) (Nat.mod_lt _ (by decide))

/-- Where the entry lies that Island `p` reads for a slot (R182, R183, R441). -/
def State.chartPlace (s : State) (p ctx slot : Nat) : Nat :=
  s.chartEntry (quarterOf p) (s.chartCtx p ctx) (s.chartIsl p) slot

/-- It follows from the Island's state and its logical Island, and from the base of the context's table. -/
theorem State.chartPlace_congr {s t : State} {p ctx slot : Nat} (hs : t.reg (Reg.ISL_PSTATE p) = s.reg (Reg.ISL_PSTATE p))
    (ht : t.reg (Reg.CHT_CTX_PT_CT (quarterOf p) (s.chartCtx p ctx)) = s.reg (Reg.CHT_CTX_PT_CT (quarterOf p) (s.chartCtx p ctx)))
    (hh : t.reg (Reg.CHT_CTX_PT_CTHI (quarterOf p) (s.chartCtx p ctx))
      = s.reg (Reg.CHT_CTX_PT_CTHI (quarterOf p) (s.chartCtx p ctx))) : t.chartPlace p ctx slot = s.chartPlace p ctx slot := by
  have state : t.pstate p = s.pstate p := congrArg (Fld.get _) hs
  have logical : t.logicalOf p = s.logicalOf p := congrArg (Fld.get _) hs
  have isl : t.chartIsl p = s.chartIsl p := by simp only [State.chartIsl, state, logical]
  have context : t.chartCtx p ctx = s.chartCtx p ctx := by simp only [State.chartCtx, state]
  rw [State.chartPlace, isl, context, State.chartEntry, ht, hh]
  rfl

/-- `t` reads Chart entries for Island `p` as `s` does: the Island's copies, memory, and the registers that say where an entry lies
and whether it can be read. -/
structure ChartsAlike (p : Nat) (s t : State) : Prop where
  copies : (t.isl p).charts = (s.isl p).charts
  mem : t.mem = s.mem
  reg : ∀ a, QuietReg a → a ≠ Reg.EBB_STATUS p → t.reg a = s.reg a

namespace ChartsAlike

variable {p : Nat} {s t u : State}

theorem symm (h : ChartsAlike p s t) : ChartsAlike p t s :=
  ⟨h.copies.symm, h.mem.symm, fun a ha hp => (h.reg a ha hp).symm⟩

theorem trans (h : ChartsAlike p s t) (h' : ChartsAlike p t u) : ChartsAlike p s u :=
  ⟨h'.copies.trans h.copies, h'.mem.trans h.mem, fun a ha hp => (h'.reg a ha hp).trans (h.reg a ha hp)⟩

section
variable (h : ChartsAlike p s t)
include h

theorem fld (f : Fld) {a : Nat} (ha : QuietReg a) (hp : a ≠ Reg.EBB_STATUS p) : t.fld a f = s.fld a f :=
  congrArg f.get (h.reg a ha hp)

theorem pstate {q : Nat} (hq : q < 144) : t.pstate q = s.pstate q :=
  h.fld _ (by unfold QuietReg Reg.ISL_PSTATE modWin; omega) (by unfold Reg.ISL_PSTATE modWin Reg.EBB_STATUS islWin; omega)

theorem islStopped (q : Nat) : t.islStopped q = s.islStopped q := by
  have status (c : Nat) : t.ctxSt q c = s.ctxSt q c :=
    h.fld _ (by unfold QuietReg Reg.ISL_SEQ_STATUS islWin; omega) (by unfold Reg.ISL_SEQ_STATUS Reg.EBB_STATUS islWin; omega)
  simp only [State.islStopped, State.ctxStopped, status]

/-- An access through the address map completes in the same way (R37, R38). -/
theorem accessKind (hp : p < 144) (a : Nat) (wr : Bool) : t.accessKind a wr = s.accessKind a wr := by
  have inside := region_inside a
  have channel := lpxChannel_lt a
  have hbm (k : Nat) : t.fld (qtrWin (k / 2) + 0x40000 + (k % 2) * 0x2000) Fd.HBM_STATUS_STATE
      = s.fld (qtrWin (k / 2) + 0x40000 + (k % 2) * 0x2000) Fd.HBM_STATUS_STATE :=
    h.fld _ (by unfold QuietReg qtrWin; omega) (by unfold qtrWin Reg.EBB_STATUS islWin; omega)
  have lpx (ch : Nat) : t.fld (qtrWin (ch / 8) + 0xC0000 + (ch % 8) * 0x1000) Fd.HBM_STATUS_STATE
      = s.fld (qtrWin (ch / 8) + 0xC0000 + (ch % 8) * 0x1000) Fd.HBM_STATUS_STATE :=
    h.fld _ (by unfold QuietReg qtrWin; omega) (by unfold qtrWin Reg.EBB_STATUS islWin; omega)
  unfold State.accessKind
  cases hr : region a with
  | lag q => rw [hr] at inside; simp only [h.pstate inside]
  | acc q => rw [hr] at inside; simp only [h.pstate inside, h.islStopped]
  | prog q => rw [hr] at inside; simp only [h.pstate inside, h.islStopped]
  | hbm k => simp only [hbm]
  | lpx => simp only [lpx]
  | _ => rfl

theorem entry (hp : p < 144) {ctx : Nat} (hc : ctx < 16) (slot : Nat) : t.chartPlace p ctx slot = s.chartPlace p ctx slot := by
  have small : s.chartCtx p ctx < 16 := by unfold State.chartCtx; split <;> omega
  refine State.chartPlace_congr (h.reg _ ?_ ?_) (h.reg _ ?_ ?_) (h.reg _ ?_ ?_)
  · unfold QuietReg Reg.ISL_PSTATE modWin; omega
  · unfold Reg.ISL_PSTATE modWin Reg.EBB_STATUS islWin; omega
  · unfold QuietReg Reg.CHT_CTX_PT_CT qtrWin; omega
  · unfold Reg.CHT_CTX_PT_CT qtrWin Reg.EBB_STATUS islWin; omega
  · unfold QuietReg Reg.CHT_CTX_PT_CTHI qtrWin; omega
  · unfold Reg.CHT_CTX_PT_CTHI qtrWin Reg.EBB_STATUS islWin; omega

end
end ChartsAlike

/-! ### The read of an entry -/

/-- Chart entries may have been read: quiet registers, the Ebbs, and every part but the registers, the Islands and the events are as
they were. -/
structure ChartsRead (s t : State) : Prop where
  keeps : KeepsBut [.regs, .isls, .events] s t
  kept : EbbsKept QuietReg s t

namespace ChartsRead

theorem refl (s : State) : ChartsRead s s := ⟨.refl _ s, .refl s⟩

theorem trans {s t u : State} (h : ChartsRead s t) (h' : ChartsRead t u) : ChartsRead s u :=
  ⟨(h.keeps.trans h'.keeps).mono (by simp), h.kept.trans h'.kept⟩

theorem of_errorsNoted {s t : State} (h : ErrorsNoted s t) : ChartsRead s t :=
  ⟨h.keeps.mono (by simp), .of_isls (h.keeps.2 .isls (by decide)) h.reg⟩

theorem raisePlaus (s : State) (p : Nat) : ChartsRead s (s.raisePlaus p) := by
  refine ⟨?_, .raisePlaus s p (not_quietReg_plausReg p)⟩
  unfold State.raisePlaus
  dsimp only
  split
  · exact (s.setIsl_keeps p _).mono (by simp)
  · exact ((s.setIsl_keeps p _).trans (State.setReg_keeps _ _ _)).mono (by simp)

theorem chartTouch (s : State) (p a : Nat) : ChartsRead s (s.chartTouch p a) := by
  have check := of_errorsNoted (ErrorsNoted.checkCws s a 6 (s.logicalOf p) 4)
  unfold State.chartTouch
  dsimp only
  split
  · exact check.trans (raisePlaus _ p)
  · exact check

theorem setCharts (s : State) (p : Nat) (ks : List ChartCopy) : ChartsRead s (s.setIsl p { s.isl p with charts := ks }) :=
  ⟨(s.setIsl_keeps p _).mono (by simp), .setIsl s rfl⟩

theorem chartOf (s : State) (p ctx slot : Nat) : ChartsRead s (s.chartOf p ctx slot).2 := by
  unfold State.chartOf
  dsimp only
  split
  · exact refl s
  · exact (chartTouch s p _).trans (setCharts _ p _)

end ChartsRead

theorem State.charts_raisePlaus (s : State) (p : Nat) : ((s.raisePlaus p).isl p).charts = (s.isl p).charts := by
  have set (x : Isl) : (s.setIsl p x).isl p = x := (s.isl_setIsl p p x).trans (if_pos rfl)
  unfold State.raisePlaus
  dsimp only
  split
  · rw [set]
  · rw [State.setPlausBit, State.isl, State.setReg_isls]
    exact (congrArg Isl.charts (set { s.isl p with plaus := true })).trans rfl

/-- The read of an entry changes no copy and no register that a later read depends on. -/
theorem ChartsAlike.chartTouch (s : State) (p a : Nat) : ChartsAlike p s (s.chartTouch p a) := by
  obtain ⟨keeps, kept⟩ := ChartsRead.chartTouch s p a
  refine ⟨?_, keeps.2 .mem (by decide), fun x hx _ => kept.reg x hx⟩
  have check := (ErrorsNoted.checkCws s a 6 (s.logicalOf p) 4).keeps.2 .isls (by decide)
  have copies : (((s.checkCws a 6 (s.logicalOf p) 4).2.isl p).charts) = (s.isl p).charts := by
    rw [State.isl, check]
    rfl
  unfold State.chartTouch
  dsimp only
  split
  · exact (State.charts_raisePlaus _ p).trans copies
  · exact copies

/-- Another copy in the Island, of the same entry. -/
theorem ChartsAlike.setCharts {p : Nat} {s t : State} (h : ChartsAlike p s t) (ks : List ChartCopy) :
    ChartsAlike p (s.setIsl p { s.isl p with charts := ks }) (t.setIsl p { t.isl p with charts := ks }) := by
  refine ⟨?_, h.mem, h.reg⟩
  rw [State.isl_setIsl, if_pos rfl, State.isl_setIsl, if_pos rfl]

/-- What an Island finds for a slot that it holds a copy of, and for one that it does not (R183). -/
theorem State.chartOf_of_copy {s : State} {p ctx slot : Nat} {k : ChartCopy}
    (h : (s.isl p).charts.find? (fun k => k.ctx == ctx && k.slot == slot) = some k) : s.chartOf p ctx slot = (k.raw, s) := by
  simp only [State.chartOf, h]

theorem State.chartOf_of_no_copy {s : State} {p ctx slot : Nat}
    (h : (s.isl p).charts.find? (fun k => k.ctx == ctx && k.slot == slot) = none) {a raw : Nat}
    (ha : a = s.chartPlace p ctx slot)
    (hraw : raw = if s.accessKind a false = 0 then s.memNat a 128 else 0) :
    s.chartOf p ctx slot = (raw, (s.chartTouch p a).setIsl p { (s.chartTouch p a).isl p with
      charts := ⟨ctx, slot, raw⟩ :: (s.isl p).charts }) := by
  simp only [State.chartOf, h, ha, hraw, State.chartPlace]

section
variable {p ctx : Nat} (hp : p < 144) (hc : ctx < 16)
include hp hc

/-- Two states that read Charts alike find the same entry, and read alike afterwards. -/
theorem ChartsAlike.chartOf {s t : State} (h : ChartsAlike p s t) (slot : Nat) :
    (t.chartOf p ctx slot).1 = (s.chartOf p ctx slot).1
      ∧ ChartsAlike p (s.chartOf p ctx slot).2 (t.chartOf p ctx slot).2 := by
  cases hk : (s.isl p).charts.find? (fun k => k.ctx == ctx && k.slot == slot) with
  | some k =>
    rw [State.chartOf_of_copy hk, State.chartOf_of_copy (h.copies ▸ hk)]
    exact ⟨rfl, h⟩
  | none =>
    set a := s.chartPlace p ctx slot with ha
    have raw : (if t.accessKind a false = 0 then t.memNat a 128 else 0)
        = if s.accessKind a false = 0 then s.memNat a 128 else 0 := by
      rw [h.accessKind hp, State.memNat_congr fun x _ _ => State.byte_congr h.mem x]
    rw [State.chartOf_of_no_copy hk ha rfl, State.chartOf_of_no_copy (h.copies ▸ hk) (h.entry hp hc slot).symm raw.symm, h.copies]
    exact ⟨rfl, (((chartTouch s p a).symm.trans h).trans (chartTouch t p a)).setCharts _⟩

end

/-! ### The entries of a drain -/

/-- The code of an entry that a drain may not use: CHART, or PROT (R179, R185, R190). -/
def drainChartFault (raw ctx : Nat) : Option Nat :=
  match (parseChart raw).check ctx with
  | .chart => some 0x00B
  | .prot => some 0x00A
  | .ok => if (parseChart raw).sparse then some 0x00B else none

/-- Puts an entry before those that follow. -/
def addChart (raw : Nat) (r : Except Nat (List Nat) × State) : Except Nat (List Nat) × State := (r.1.map (raw :: ·), r.2)

theorem State.ebbCharts_none (s : State) (p ctx : Nat) (r : List (Option Nat)) :
    s.ebbCharts p ctx (none :: r) = addChart 0 (s.ebbCharts p ctx r) := by
  change (match s.ebbCharts p ctx r with
    | (.ok cs, u) => (.ok (0 :: cs), u)
    | e => e : Except Nat (List Nat) × State) = _
  obtain ⟨_ | cs, u⟩ := s.ebbCharts p ctx r <;> rfl

theorem State.ebbCharts_some (s : State) (p ctx slot : Nat) (r : List (Option Nat)) :
    s.ebbCharts p ctx (some slot :: r) = match drainChartFault (s.chartOf p ctx slot).1 ctx with
      | some code => (.error code, (s.chartOf p ctx slot).2)
      | none => addChart (s.chartOf p ctx slot).1 ((s.chartOf p ctx slot).2.ebbCharts p ctx r) := by
  change (match (parseChart (s.chartOf p ctx slot).1).check ctx with
    | .chart => (.error 0x00B, (s.chartOf p ctx slot).2)
    | .prot => (.error 0x00A, (s.chartOf p ctx slot).2)
    | .ok => if (parseChart (s.chartOf p ctx slot).1).sparse then (.error 0x00B, (s.chartOf p ctx slot).2)
      else match (s.chartOf p ctx slot).2.ebbCharts p ctx r with
        | (.ok cs, u) => (.ok ((s.chartOf p ctx slot).1 :: cs), u)
        | e => e : Except Nat (List Nat) × State) = _
  unfold drainChartFault
  cases (parseChart (s.chartOf p ctx slot).1).check ctx with
  | chart => rfl
  | prot => rfl
  | ok =>
    cases (parseChart (s.chartOf p ctx slot).1).sparse with
    | true => rfl
    | false =>
      obtain ⟨_ | cs, u⟩ := (s.chartOf p ctx slot).2.ebbCharts p ctx r <;> rfl

/-- Two states that read Charts alike read the same ones for a drain (R179). -/
theorem ChartsAlike.ebbCharts {p ctx : Nat} (hp : p < 144) (hc : ctx < 16) {s t : State} (h : ChartsAlike p s t)
    (slots : List (Option Nat)) : (t.ebbCharts p ctx slots).1 = (s.ebbCharts p ctx slots).1 := by
  induction slots generalizing s t with
  | nil => rfl
  | cons o r ih =>
    cases o with
    | none => rw [State.ebbCharts_none, State.ebbCharts_none, addChart, ih h]; rfl
    | some slot =>
      obtain ⟨raw, alike⟩ := h.chartOf hp hc slot
      rw [State.ebbCharts_some, State.ebbCharts_some, raw]
      split
      · rfl
      · rw [addChart, ih alike]; rfl

/-- A relation that each read of a drain's entries respects, all of them together respect. -/
theorem State.ebbCharts_rel {R : State → State → Prop} (refl : ∀ s, R s s) (trans : ∀ {s t u}, R s t → R t u → R s u) {p ctx : Nat}
    {slots : List (Option Nat)} (read : ∀ s slot, some slot ∈ slots → R s (s.chartOf p ctx slot).2) (s : State) :
    R s (s.ebbCharts p ctx slots).2 := by
  induction slots generalizing s with
  | nil => exact refl s
  | cons o r ih =>
    have rest := ih fun s slot h => read s slot (List.mem_cons_of_mem _ h)
    cases o with
    | none => rw [State.ebbCharts_none]; exact rest s
    | some slot =>
      have first := read s slot List.mem_cons_self
      rw [State.ebbCharts_some]
      split
      · exact first
      · exact trans first (rest _)

/-! ### Entries that are read without a record -/

/-- Copies may have been added to Islands, and nothing else has changed. -/
structure CopiesAdded (s t : State) : Prop where
  keeps : KeepsBut [.isls] s t
  copies : ∀ p, ∀ k ∈ (s.isl p).charts, k ∈ (t.isl p).charts

theorem CopiesAdded.refl (s : State) : CopiesAdded s s := ⟨.refl _ s, fun _ _ h => h⟩

theorem CopiesAdded.trans {s t u : State} (h : CopiesAdded s t) (h' : CopiesAdded t u) : CopiesAdded s u :=
  ⟨(h.keeps.trans h'.keeps).mono (by simp), fun p k hk => h'.copies p k (h.copies p k hk)⟩

theorem State.ChartClean.mono {s t : State} {p ctx slot : Nat} (hcopies : ∀ k ∈ (s.isl p).charts, k ∈ (t.isl p).charts)
    (hplace : t.chartPlace p ctx slot = s.chartPlace p ctx slot) (hcw : t.cw = s.cw) (h : s.ChartClean p ctx slot) :
    t.ChartClean p ctx slot := by
  rcases h with ⟨k, hk, hkey⟩ | clean
  · exact .inl ⟨k, hcopies k hk, hkey⟩
  · refine .inr fun i hi => ?_
    change t.cwAt (t.chartPlace p ctx slot + 32 * i) = .ok
    rw [hplace, State.cwAt, hcw]
    exact clean i hi

theorem State.ChartClean.of_copiesAdded {s t : State} {p ctx slot : Nat} (h : CopiesAdded s t) (hs : s.ChartClean p ctx slot) :
    t.ChartClean p ctx slot := by
  have regs (a : Nat) : t.reg a = s.reg a := State.reg_congr (h.keeps.2 .regs (by decide)) a
  exact hs.mono (h.copies p) (State.chartPlace_congr (regs _) (regs _) (regs _)) (h.keeps.2 .cw (by decide))

/-- A clean entry is read without a record (R183, R271). -/
theorem CopiesAdded.chartOf {s : State} {p ctx slot : Nat} (h : s.ChartClean p ctx slot) :
    CopiesAdded s (s.chartOf p ctx slot).2 := by
  cases hk : (s.isl p).charts.find? (fun k => k.ctx == ctx && k.slot == slot) with
  | some k => rw [State.chartOf_of_copy hk]; exact refl s
  | none =>
    have clean := h.resolve_left fun ⟨k, hmem, hctx, hslot⟩ => by
      have := List.find?_eq_none.1 hk k hmem
      simp [hctx, hslot] at this
    set a := s.chartPlace p ctx slot with ha
    have touch : s.chartTouch p a = s := by
      rw [State.chartTouch, s.checkCws_of_ok (a := a) _ _ clean]
      rfl
    rw [State.chartOf_of_no_copy hk ha rfl, touch]
    refine ⟨s.setIsl_keeps p _, fun q k hq => ?_⟩
    rw [State.isl_setIsl]
    split
    case isTrue hqp => exact List.mem_cons_of_mem _ (hqp ▸ hq)
    case isFalse => exact hq

/-- A drain's clean entries are read without a record. -/
theorem CopiesAdded.ebbCharts {s : State} {p ctx : Nat} {slots : List (Option Nat)}
    (h : ∀ slot, some slot ∈ slots → s.ChartClean p ctx slot) : CopiesAdded s (s.ebbCharts p ctx slots).2 :=
  (State.ebbCharts_rel
    (R := fun s t => (∀ slot, some slot ∈ slots → s.ChartClean p ctx slot) → CopiesAdded s t)
    (fun s _ => refl s)
    (fun first rest hs => (first hs).trans (rest fun slot hm => (hs slot hm).of_copiesAdded (first hs)))
    (fun _ slot hm hs => chartOf (hs slot hm)) s) h

end Sys2Proof.Machine
end


section
/-! SUPPORT. The begin of a drain, and the fault of one whose descriptor fails a check (R175, R178 to R180). -/

namespace Sys2Proof.Machine

section
variable (s : State) (p : Nat)

theorem State.setIsl_isl (x : Isl) : (s.setIsl p x).isl p = x := (s.isl_setIsl p p x).trans (if_pos rfl)

theorem State.isl_syncEbb (q : Nat) : (s.syncEbb p).isl q = s.isl q :=
  State.isl_congr (by rw [State.syncEbb, State.setFld_isls, State.setFld_isls]) q

theorem State.syncEbb_keeps : KeepsBut [.regs] s (s.syncEbb p) :=
  ((s.setReg_keeps _ _).trans (State.setReg_keeps _ _ _)).mono (by simp)

theorem State.syncEbb_regsBut : RegsBut [Reg.EBB_STATUS p] s (s.syncEbb p) :=
  (s.setReg_regsBut _ _).trans (State.setReg_regsBut _ _ _)

/-- An update of an Island that the Ebb's status then shows (R181). -/
theorem State.setIsl_syncEbb_effect (x : Isl) : let t := (s.setIsl p x).syncEbb p
    t.isl p = x ∧ KeepsBut [.regs, .isls] s t ∧ RegsBut [Reg.EBB_STATUS p] s t := by
  intro t
  have keeps : KeepsBut ([.isls] ++ [.regs]) s t := (s.setIsl_keeps p x).trans (State.syncEbb_keeps _ p)
  exact ⟨(State.isl_syncEbb _ p p).trans (s.setIsl_isl p x), keeps.mono (by simp), State.syncEbb_regsBut (s.setIsl p x) p⟩

/-- BUSY is 1 while a drain reads (R181). -/
theorem State.busy_syncEbb (h : (s.isl p).ebb.isSome = true) : (s.syncEbb p).fld (Reg.EBB_STATUS p) Fd.EBB_STATUS_BUSY = 1 := by
  rw [State.syncEbb, State.fld_setFld_disjoint _ _ _ _ _ (by decide) (by decide), State.fld_setFld_same _ _ _ _ (by decide), h]
  rfl

end

/-! ### The oldest drain is taken -/

/-- The oldest drain leaves the queue, and its slot is shown. -/
def State.takeDrain (s : State) (p : Nat) (o : DrainOp) (rest : List DrainOp) : State :=
  (s.setIsl p { s.isl p with ebbq := rest }).setFld (Reg.EBB_STATUS p) Fd.EBB_STATUS_SLOT o.edesc

section
variable (s : State) (p : Nat) (o : DrainOp) (rest : List DrainOp)

theorem State.isl_takeDrain : (s.takeDrain p o rest).isl p = { s.isl p with ebbq := rest } := by
  rw [State.isl, State.takeDrain, State.setFld_isls]
  exact s.setIsl_isl p _

theorem State.takeDrain_keeps : KeepsBut [.regs, .isls] s (s.takeDrain p o rest) :=
  ((s.setIsl_keeps p _).trans (State.setReg_keeps _ _ _)).mono (by simp)

theorem State.takeDrain_regsBut : RegsBut [Reg.EBB_STATUS p] s (s.takeDrain p o rest) :=
  State.setReg_regsBut (s.setIsl p { s.isl p with ebbq := rest }) _ _

theorem State.findWork_takeDrain (id : Nat) : (s.takeDrain p o rest).findWork id = s.findWork id :=
  State.findWork_congr ((s.takeDrain_keeps p o rest).2 .work (by decide)) id

theorem State.reg_takeDrain {a : Nat} (h : a ≠ Reg.EBB_STATUS p) : (s.takeDrain p o rest).reg a = s.reg a :=
  s.takeDrain_regsBut p o rest a (by simpa using h)

theorem State.ebbDesc_takeDrain (i : Nat) : (s.takeDrain p o rest).ebbDesc p i = s.ebbDesc p i := by
  unfold State.ebbDesc
  refine List.map_congr_left fun j _ => ?_
  rw [s.reg_takeDrain p o rest (by unfold Reg.EBB_DESC Reg.EBB_STATUS; omega)]

/-- The slot stands above the bits of a context number, so that the show of it changes none that is read. -/
theorem State.mctx_takeDrain (c : Nat) : (s.takeDrain p o rest).mctx p c = s.mctx p c := by
  by_cases h : Reg.ISL_SEQ_CTXID p c = Reg.EBB_STATUS p
  · rw [State.mctx, h, State.takeDrain, State.fld_setFld_disjoint _ _ _ _ _ (by decide) (by decide), State.mctx, h]
    rfl
  · exact congrArg (Fld.get _) (s.reg_takeDrain p o rest h)

theorem ChartsAlike.takeDrain : ChartsAlike p s (s.takeDrain p o rest) :=
  ⟨(congrArg Isl.charts (s.isl_takeDrain p o rest)).trans rfl, (s.takeDrain_keeps p o rest).2 .mem (by decide),
    fun _ _ => s.reg_takeDrain p o rest⟩

end

theorem exec_ebbDrainBegin {s : State} {p : Fin 144} {o : DrainOp} {rest : List DrainOp} (hq : (s.isl p).ebbq = o :: rest)
    (hidle : (s.isl p).ebb = none) (hinit : s.bit (Reg.ACC_STATUS p) Fd.ACC_STATUS_INIT_DONE = true) :
    exec (.ebbDrainBegin p) s = settled (s.beginDrain p o rest) := by
  change execEbbDrainBegin p s = _
  simp [execEbbDrainBegin, hq, hidle, hinit]

/-! ### A drain that begins -/

section
variable {s : State} {p : Fin 144} {o : DrainOp} {rest : List DrainOp}

/-- The state in which the entries of the taken drain have been read. -/
def State.drainCharts (s : State) (p : Nat) (o : DrainOp) (rest : List DrainOp) : State :=
  ((s.takeDrain p o rest).ebbCharts p (s.mctx p o.c) (ebbSlots o (s.ebbDesc p o.edesc))).2

theorem ChartsRead.drainCharts : ChartsRead (s.takeDrain p o rest) (s.drainCharts p o rest) :=
  State.ebbCharts_rel ChartsRead.refl ChartsRead.trans (fun u slot _ => ChartsRead.chartOf u p _ slot) _

/-- A drain that passes every check reads from its first tile row (R179). -/
theorem State.beginDrain_ok {cs : List Nat} (hd : descCheck (s.ebbDesc p o.edesc) o.count = none)
    (hcs : (s.ebbCharts p (s.mctx p o.c) (ebbSlots o (s.ebbDesc p o.edesc))).1 = .ok cs)
    (hf : ebbFmtCheck o (s.ebbDesc p o.edesc) cs = none) : let u := s.drainCharts p o rest
    s.beginDrain p o rest = (u.setIsl p { u.isl p with ebb := some ⟨o, s.ebbDesc p o.edesc, cs.getD 0 0, cs.getD 1 0,
      cs.getD 2 0, cs.getD 3 0, cs.getD 4 0, 0⟩ }).syncEbb p := by
  intro u
  have hctx : s.mctx p o.c < 16 := Fd.ISL_SEQ_CTXID_CTX.get_lt _
  have read : ((s.takeDrain p o rest).ebbCharts p (s.mctx p o.c) (ebbSlots o (s.ebbDesc p o.edesc))).1 = .ok cs :=
    ((ChartsAlike.takeDrain s p o rest).ebbCharts p.isLt hctx _).trans hcs
  have both : (s.takeDrain p o rest).ebbCharts p (s.mctx p o.c) (ebbSlots o (s.ebbDesc p o.edesc)) = (.ok cs, u) :=
    Prod.ext read rfl
  have desc := s.ebbDesc_takeDrain p o rest o.edesc
  have context := s.mctx_takeDrain p o rest o.c
  rw [State.takeDrain] at both desc context
  simp only [State.beginDrain, desc, context, hd, both, hf]

/-- What the begin of a drain changes, by whether its entries are read without a record (R179, R181). -/
theorem State.beginDrain_effect {cs : List Nat} (hd : descCheck (s.ebbDesc p o.edesc) o.count = none)
    (hcs : (s.ebbCharts p (s.mctx p o.c) (ebbSlots o (s.ebbDesc p o.edesc))).1 = .ok cs)
    (hf : ebbFmtCheck o (s.ebbDesc p o.edesc) cs = none) : let t := s.beginDrain p o rest
    (t.isl p).ebbq = rest
      ∧ (t.isl p).ebb = some ⟨o, s.ebbDesc p o.edesc, cs.getD 0 0, cs.getD 1 0, cs.getD 2 0, cs.getD 3 0, cs.getD 4 0, 0⟩
      ∧ t.fld (Reg.EBB_STATUS p) Fd.EBB_STATUS_BUSY = 1 ∧ KeepsBut [.regs, .isls, .events] s t
      ∧ ((∀ slot, some slot ∈ ebbSlots o (s.ebbDesc p o.edesc) → s.ChartClean p (s.mctx p o.c) slot) →
          KeepsBut [.regs, .isls] s t ∧ RegsBut [Reg.EBB_STATUS p] s t) := by
  intro t
  obtain ⟨keeps, kept⟩ := ChartsRead.drainCharts (s := s) (p := p) (o := o) (rest := rest)
  have ht : t = _ := State.beginDrain_ok hd hcs hf
  set u := s.drainCharts p o rest with hu
  set x : Isl := { u.isl p with ebb := some ⟨o, s.ebbDesc p o.edesc, cs.getD 0 0, cs.getD 1 0, cs.getD 2 0, cs.getD 3 0,
    cs.getD 4 0, 0⟩ } with hx
  obtain ⟨hisl, update, regs⟩ := u.setIsl_syncEbb_effect p x
  rw [← ht] at hisl update regs
  refine ⟨?_, by rw [hisl], ?_, ?_, fun clean => ?_⟩
  · rw [hisl]
    exact congrArg Isl.ebbq ((kept.part p).trans (congrArg Isl.ebbPart (s.isl_takeDrain p o rest)))
  · rw [ht]
    exact State.busy_syncEbb _ p (by rw [State.setIsl_isl]; rfl)
  · exact (((s.takeDrain_keeps p o rest).trans keeps).trans update).mono (by simp)
  · have alike := ChartsAlike.takeDrain s p o rest
    have hctx : s.mctx p o.c < 16 := Fd.ISL_SEQ_CTXID_CTX.get_lt _
    have quiet : KeepsBut [.isls] (s.takeDrain p o rest) u := (CopiesAdded.ebbCharts fun slot h =>
      (clean slot h).mono (fun k hk => alike.copies ▸ hk) (alike.entry p.isLt hctx slot)
        ((s.takeDrain_keeps p o rest).2 .cw (by decide))).keeps
    exact ⟨(((s.takeDrain_keeps p o rest).trans quiet).trans update).mono (by simp),
      ((s.takeDrain_regsBut p o rest).trans (.of_regs_eq (quiet.2 .regs (by decide)))).trans regs⟩

end

/-! ### A drain that fails -/

theorem descCheck_code_le {d : List Nat} {n code : Nat} (h : descCheck d n = some code) : code ≤ 8 := by
  unfold descCheck at h
  dsimp only at h
  split_ifs at h <;> cases h <;> decide

/-- The work of drains is dropped. -/
def State.dropWorks (s : State) (ds : List DrainOp) : State := ds.foldl (fun s d => s.dropWork d.id) s

/-- What no drop of work changes, none of them changes. -/
theorem State.dropWorks_keeps {β : Type} {g : State → β} (h : ∀ s id, g (s.dropWork id) = g s) (s : State) (ds : List DrainOp) :
    g (s.dropWorks ds) = g s :=
  foldl_keeps (f := fun s d => s.dropWork d.id) (fun s d => h s d.id) ds s

/-- Work stays that is none of the work dropped. -/
theorem State.findWork_dropWorks {ds : List DrainOp} (s : State) {id : Nat} (h : ∀ d ∈ ds, d.id ≠ id) :
    (s.dropWorks ds).findWork id = s.findWork id := by
  induction ds generalizing s with
  | nil => rfl
  | cons d r ih =>
    have other := h d List.mem_cons_self
    refine (ih (s.dropWork d.id) fun x hx => h x (List.mem_cons_of_mem _ hx)).trans ?_
    rw [State.findWork, State.dropWork, List.find?_filter, State.findWork]
    congr 1
    funext w
    by_cases hw : w.id = id <;> simp [hw, other.symm]

/-- The drains of a context that are queued leave the queue, their work is dropped, and EBB_ERR.FAULT is set. -/
def State.discardDrains (s : State) (p : Nat) (c : Nat) : State :=
  ((s.setIsl p { s.isl p with ebbq := (s.isl p).ebbq.filter fun d => d.c ≠ c }).dropWorks
    ((s.isl p).ebbq.filter fun d => d.c = c)).setFld (Reg.EBB_ERR p) Fd.EBB_ERR_FAULT 1

section
variable (s : State) (p c : Nat)

theorem State.isl_discardDrains : (s.discardDrains p c).isl p
    = { s.isl p with ebbq := (s.isl p).ebbq.filter fun d => d.c ≠ c } := by
  rw [State.isl, State.discardDrains, State.setFld_isls, State.dropWorks_keeps (g := State.isls) fun _ _ => rfl]
  exact s.setIsl_isl p _

theorem State.reg_discardDrains {a : Nat} (h : a ≠ Reg.EBB_ERR p) : (s.discardDrains p c).reg a = s.reg a :=
  (State.reg_setFld_other _ _ _ h).trans (State.reg_congr (State.dropWorks_keeps (g := State.regs) (fun _ _ => rfl) _ _) a)

theorem State.discardDrains_mem : (s.discardDrains p c).mem = s.mem := by
  rw [State.discardDrains, State.setFld_mem]
  exact State.dropWorks_keeps (g := State.mem) (fun _ _ => rfl) _ _

theorem State.findWork_discardDrains {id : Nat} (h : ∀ d ∈ (s.isl p).ebbq, d.id ≠ id) :
    (s.discardDrains p c).findWork id = s.findWork id :=
  (State.findWork_congr (State.setFld_work _ _ _ _) id).trans
    ((State.findWork_dropWorks _ fun d hd => h d (List.mem_of_mem_filter hd)).trans (State.findWork_congr (s.setIsl_work _ _) id))

end

/-- A fault of a drain (R179): its context stops with the Ebb's code, the drains of the context that are queued are discarded, and
EBB_ERR.FAULT is set. -/
theorem State.ebbFault_effect (s : State) (p : Fin 144) {o : DrainOp} {code : Nat} {w : Work} (hcode : code ≤ 8)
    (hw : s.findWork o.id = some w) (hsrc : w.src = .ctx p o.c) (hc : o.c < 2) (hq : ∀ d ∈ (s.isl p).ebbq, d.id ≠ o.id)
    (hfirst : s.bit (Reg.ISL_SEQ_FAULT p o.c) Fd.ISL_SEQ_FAULT_VALID = false) : let t := s.ebbFault p o code
    t.ctxSt p o.c = 5 ∧ (t.isl p).ebb = (s.isl p).ebb ∧ (t.isl p).ebbq = (s.isl p).ebbq.filter (fun d => d.c ≠ o.c)
      ∧ t.bit (Reg.EBB_ERR p) Fd.EBB_ERR_FAULT = true ∧ t.fld (Reg.ISL_SEQ_FAULT p o.c) Fd.ISL_SEQ_FAULT_CODE = 0x0F
      ∧ (t.reg (Reg.ISL_SEQ_FINFO p o.c)).toNat = 1 + 16 * code ∧ ∀ a, t.byte a = s.byte a := by
  intro t
  set u := s.discardDrains p o.c
  have found : u.findWork o.id = some w := (s.findWork_discardDrains p o.c hq).trans hw
  have first : u.bit (Reg.ISL_SEQ_FAULT p o.c) Fd.ISL_SEQ_FAULT_VALID = false := by
    rw [← hfirst]
    exact State.bit_congr (s.reg_discardDrains p o.c (by unfold Reg.ISL_SEQ_FAULT Reg.EBB_ERR; omega)) _
  set f := u.seqFault p o.c 0x0F w.pc (1 + code * 16) with hf
  have ht : t = (f.workDone o.id).syncEbb p := by
    change (u.engineFault o.id 1 code).syncEbb p = _
    rw [State.engineFault, found]
    simp only [hsrc, hf]
  obtain ⟨stopped, -, fault, -, -, finfo, -, bytes⟩ := u.seqFault_effect p ⟨o.c, hc⟩ (code := 0x0F) (pc := w.pc % 2 ^ 14)
    (info := 1 + code * 16) (by decide) (Nat.mod_lt _ (by decide)) (by omega) (by decide) first
  rw [State.seqFault_pc_mod] at stopped fault finfo bytes
  have done := EbbsKept.workDone f o.id
  have sync := EbbsKept.syncEbb (f.workDone o.id) p
  have part : (t.isl p).ebbPart = (u.isl p).ebbPart := by
    rw [ht, sync.part, done.part, (EbbsKept.seqFault u p o.c _ _ _).part]
  have reg {a : Nat} (h : NotFreed a ∧ NotWoken a) : t.reg a = f.reg a := by rw [ht, sync.reg _ h.1, done.reg _ h]
  refine ⟨?_, ?_, ?_, ?_, ?_, ?_, fun a => ?_⟩
  · have status : t.ctxSt p o.c = (f.workDone o.id).ctxSt p o.c :=
      ht ▸ congrArg (Fld.get _) (sync.reg _ (by unfold NotFreed Reg.ISL_SEQ_STATUS islWin qtrWin; omega))
    rw [status, f.ctxSt_workDone p o.id (stopped ▸ by decide)]
    exact stopped
  · exact (congrArg Isl.ebb part).trans ((congrArg Isl.ebb (s.isl_discardDrains p o.c)).trans rfl)
  · exact (congrArg Isl.ebbq part).trans ((congrArg Isl.ebbq (s.isl_discardDrains p o.c)).trans rfl)
  · have flag : u.fld (Reg.EBB_ERR p) Fd.EBB_ERR_FAULT = 1 := State.fld_setFld_same _ _ _ _ (by decide)
    have held : f.fld (Reg.EBB_ERR p) Fd.EBB_ERR_FAULT = u.fld (Reg.EBB_ERR p) Fd.EBB_ERR_FAULT :=
      u.fld_seqFault p ⟨o.c, hc⟩ _ _ _ (off := 0x3004) (by decide) (by decide) (by decide)
    rw [State.bit_congr (reg (by unfold NotFreed NotWoken Reg.EBB_ERR islWin qtrWin; omega)), State.bit, held, flag]
    rfl
  · rw [State.fld, reg (by unfold NotFreed NotWoken Reg.ISL_SEQ_FAULT islWin qtrWin; omega)]
    exact fault
  · rw [reg (by unfold NotFreed NotWoken Reg.ISL_SEQ_FINFO islWin qtrWin; omega), finfo, Nat.mul_comm]
  · have mem : t.mem = f.mem := by
      rw [ht]
      exact State.mem_of_accs ((State.syncEbb_accs _ _).trans (State.workDone_accs _ _))
    rw [State.byte_congr mem, bytes, State.byte_congr (s.discardDrains_mem p o.c)]

end Sys2Proof.Machine
end


section
/-! SUPPORT. The read cycles of a drain and the writes of its elements (R160, R164, R169, R170, R173, R176). -/

namespace Sys2Proof.Machine

/-! ### A read cycle -/

section
variable {s : State} {p : Fin 144} {r : EbbRun}

/-- A cycle with a held row waits (R115, R177). -/
theorem exec_ebbReadCycle_held (h : (s.isl p).ebb = some r)
    (hheld : ∃ j, j < min 8 (r.op.count - r.next) ∧ (s.isl p).rowHeld r.op.id (r.op.trow + r.next + j) = true) :
    exec (.ebbReadCycle p) s = .next (s.count (Reg.EBB_CNT_WAIT p) 1) := by
  change execEbbReadCycle p s = _
  simp only [execEbbReadCycle, h]
  exact if_pos (by simpa using hheld)

/-- A cycle without a held row reads. -/
theorem exec_ebbReadCycle_free (h : (s.isl p).ebb = some r)
    (hfree : ∀ j, j < min 8 (r.op.count - r.next) → (s.isl p).rowHeld r.op.id (r.op.trow + r.next + j) = false) :
    exec (.ebbReadCycle p) s = settled (s.ebbRead p r) := by
  change execEbbReadCycle p s = _
  simp only [execEbbReadCycle, h]
  exact if_neg (by simpa using hfree)

end

/-- An auxiliary element of those read, and +0 where its Chart is not used. -/
def auxAt (l : List FElem) (k : Nat) : Nat := aux32 (l.getD k ⟨⟨.fin false 0 0, 0⟩, false⟩)

/-- The entries of a read cycle with their s2 and s4 (R164). -/
def EbbRun.elements (r : EbbRun) (es : List (Nat × Nat)) (rows : List (List Nat)) (sc bi zs gs : List FElem) :
    List ((Nat × Nat) × (Nat × Nat)) :=
  (List.range es.length).map fun k => (es.getD k (0, 0),
    ebbChain r.desc ((rows.getD ((es.getD k (0, 0)).1 - r.next) []).getD (es.getD k (0, 0)).2 0)
      (if eScaleVec r.desc then auxAt sc k else eScale r.desc) (auxAt bi k) (auxAt zs k) (auxAt gs k))

/-- The end of a read cycle of `n` rows: its elements wait behind the batches before, and the drain goes on behind its rows. -/
def State.endRead (s : State) (p : Nat) (r : EbbRun) (n : Nat) (els : List ((Nat × Nat) × (Nat × Nat))) : State :=
  ((s.setIsl p { s.isl p with
      ebb := if r.op.count ≤ r.next + n then none else some { r with next := r.next + n }
      ebbw := (s.isl p).ebbw ++ [⟨r.op, r.desc, r.out, r.zch, ebbRows r n els, decide (r.op.count ≤ r.next + n), none⟩] }).count
    (Reg.EBB_CNT_ROWS p) n).syncEbb p

/-- A read cycle all of whose operands have come (R160, R164). -/
theorem State.ebbRead_reads {s u0 u1 u2 u3 u4 u5 : State} {p : Nat} {r : EbbRun} {n : Nat} {A : Acc} {es : List (Nat × Nat)}
    {sc bi zs gs : List FElem} {rows : List (List Nat)} (hn : n = min 8 (r.op.count - r.next)) (hA : A = ebbAcc s p r.op)
    (hes : es = ebbEntries r.desc r.next n) (hlimit : s.ebbLimit A r es = (es.length, none, u0))
    (hsc : u0.ebbAux A (eScaleVec r.desc) r.sch (es.map fun ie => ebbVecCoord r.op r.desc ie.1 ie.2) = (.ok sc, u1))
    (hbi : u1.ebbAux A (eBias r.desc) r.bch (es.map fun ie => ebbVecCoord r.op r.desc ie.1 ie.2) = (.ok bi, u2))
    (hzs : u2.ebbAux A (eMode r.desc == 1) r.zch (es.map fun ie => ebbCoord r.op r.desc ie.1 ie.2) = (.ok zs, u3))
    (hgs : u3.ebbAux A (eGate r.desc) r.gch (es.map fun ie => ebbCoord r.op r.desc ie.1 ie.2) = (.ok gs, u4))
    (hrows : u4.readRows p (r.op.trow + r.next) n = (rows, u5)) :
    s.ebbRead p r = u5.endRead p r n (r.elements es rows sc bi zs gs) := by
  simp only [State.ebbRead, ← hn, ← hA, ← hes, hlimit, List.take_length, hsc, hbi, hzs, hgs, hrows]
  simp [State.endRead, EbbRun.elements, auxAt]

/-- An update of an Island with a count of tile rows read (R181). -/
theorem State.setIsl_countRows_effect (s : State) (p n : Nat) (x : Isl) :
    let t := ((s.setIsl p x).count (Reg.EBB_CNT_ROWS p) n).syncEbb p
    t.isl p = x ∧ (t.reg (Reg.EBB_CNT_ROWS p)).toNat = min ((s.reg (Reg.EBB_CNT_ROWS p)).toNat + n) 0xFFFFFFFF
      ∧ ∀ a, t.byte a = s.byte a := by
  intro t
  have count : t.reg (Reg.EBB_CNT_ROWS p) = ((s.setIsl p x).count (Reg.EBB_CNT_ROWS p) n).reg (Reg.EBB_CNT_ROWS p) :=
    State.syncEbb_regsBut _ p _ (by simp [Reg.EBB_CNT_ROWS, Reg.EBB_STATUS])
  have isl : t.isl p = x := by
    rw [State.isl_syncEbb, State.isl_congr (State.count_isls _ _ _), State.setIsl_isl]
  have mem : t.mem = s.mem := ((State.syncEbb_keeps _ p).2 .mem (by decide)).trans
    ((State.count_mem _ _ _).trans (State.setIsl_mem _ _ _))
  refine ⟨isl, ?_, State.byte_congr mem⟩
  rw [count, State.count_toNat, State.reg_congr (State.setIsl_regs _ _ _)]

/-- What the end of a read cycle changes. -/
theorem State.endRead_effect (s : State) (p : Nat) (r : EbbRun) (n : Nat) (els : List ((Nat × Nat) × (Nat × Nat))) :
    let t := s.endRead p r n els
    (t.isl p).ebbw = (s.isl p).ebbw ++ [⟨r.op, r.desc, r.out, r.zch, ebbRows r n els, decide (r.op.count ≤ r.next + n), none⟩]
      ∧ (t.isl p).ebb = (if r.op.count ≤ r.next + n then none else some { r with next := r.next + n })
      ∧ (t.reg (Reg.EBB_CNT_ROWS p)).toNat = min ((s.reg (Reg.EBB_CNT_ROWS p)).toNat + n) 0xFFFFFFFF
      ∧ ∀ a, t.byte a = s.byte a := by
  intro t
  obtain ⟨isl, count, bytes⟩ := s.setIsl_countRows_effect p n _
  exact ⟨congrArg Isl.ebbw isl, congrArg Isl.ebb isl, count, bytes⟩

/-! ### The write of a batch -/

section
variable {s u : State} {A : Acc} {p : Nat} {b : EbbBatch} {rest : List EbbBatch} {r : EbbRow} {rs : List EbbRow}

theorem exec_ebbElementWrite {p : Fin 144} (h : (s.isl p).ebbw = b :: rest) :
    exec (.ebbElementWrite p) s = settled (s.ebbWriteRows (ebbAcc s p b.op) p b rest b.rows) := by
  change execEbbElementWrite p s = _
  simp only [execEbbElementWrite, h]

/-- A row that is written in FORWARD or DERIV mode ends with its bytes visible, and the next one follows (R176). -/
theorem State.ebbWriteRows_row {w : WBytes} (hm : eMode b.desc ≠ 2) (h : s.ebbRow A p b r = (none, w, u)) :
    s.ebbWriteRows A p b rest (r :: rs) = (u.commit A w).ebbWriteRows A p b rest rs := by
  refine (if_neg hm).trans ?_
  rw [h]

/-- So it is with one in ACCUM mode whose lines have all come (R170). -/
theorem State.ebbWriteRows_add (hm : eMode b.desc = 2) (h : s.ebbRowAdd A p b r = (.ok none, u)) :
    s.ebbWriteRows A p b rest (r :: rs) = u.ebbWriteRows A p b rest rs := by
  refine (if_pos hm).trans ?_
  rw [h]

/-- The value that a LOSS drain delivers: the s4 of its one element (R173). -/
def EbbBatch.loss? (b : EbbBatch) : Option Nat :=
  if eLoss b.desc then (b.rows.head?.bind fun r => r.vals.headD none).map (·.2) else none

theorem EbbBatch.loss?_eq {s2 v : Nat} {vals : List (Option (Nat × Nat))} (hl : eLoss b.desc = true) (hr : b.rows = [r])
    (hv : r.vals = some (s2, v) :: vals) : b.loss? = some v := by
  simp [EbbBatch.loss?, hl, hr, hv]

/-- A batch that has no rows left and no fault leaves, and the last one of a drain completes it (R176). -/
theorem State.ebbWriteRows_nil (hf : b.fault = none) : s.ebbWriteRows A p b rest []
    = (if b.last then (s.setIsl p { s.isl p with ebbw := rest }).drainDone p b b.loss?
        else s.setIsl p { s.isl p with ebbw := rest }).syncEbb p := by
  obtain ⟨op, desc, out, zch, rows, last, fault⟩ := b
  cases hf
  rfl

end

/-- The value of a LOSS drain is shown, and its work completes: the Ebbs stay as they are. -/
theorem EbbsKept.loss (s : State) (p : Fin 144) (id v : Nat) :
    let t := ((s.setReg (Reg.EBB_LOSS p) (BitVec.ofNat 32 v)).workDone id).syncEbb p
    (t.reg (Reg.EBB_LOSS p)).toNat = v % 2 ^ 32 ∧ (t.isl p).ebbPart = (s.isl p).ebbPart := by
  set x := s.setReg (Reg.EBB_LOSS p) (BitVec.ofNat 32 v)
  have kept : EbbsKept (fun a => NotFreed a ∧ NotWoken a) x ((x.workDone id).syncEbb p) :=
    (workDone x id).trans ((syncEbb (x.workDone id) p).mono fun _ h => h.1)
  refine ⟨?_, (kept.part p).trans (by rw [State.isl_congr (s.setReg_isls _ _)])⟩
  rw [kept.reg _ (by unfold NotFreed NotWoken Reg.EBB_LOSS islWin qtrWin; omega), State.reg_setReg_same, BitVec.toNat_ofNat]

/-- What the completion of a LOSS drain shows (R173): its value, and that there was one more. -/
theorem State.drainDone_loss (s : State) (p : Fin 144) (b : EbbBatch) (v : Nat) : let t := (s.drainDone p b (some v)).syncEbb p
    (t.reg (Reg.EBB_LOSS p)).toNat = v % 2 ^ 32
      ∧ (t.isl p).ebbPart = { (s.isl p).ebbPart with lossN := (s.isl p).lossN + 1, lossVal := v } := by
  intro t
  set u := if (s.isl p).lossN = 0 then s else s.setFld (Reg.EBB_ERR p) Fd.EBB_ERR_LOSS_MULTI 1
  obtain ⟨loss, part⟩ :=
    EbbsKept.loss (u.setIsl p { s.isl p with lossN := (s.isl p).lossN + 1, lossVal := v }) p b.op.id v
  exact ⟨loss, part.trans (congrArg Isl.ebbPart (u.setIsl_isl p _))⟩

end Sys2Proof.Machine
end

section
/-! SUPPORT. The parts of the statement about drains: the fault of one, and the end of a batch (R160 to R164, R169 to R180). -/

namespace Sys2Proof.Machine

section
variable {s : State} {p : Fin 144}

/-- A drain whose descriptor fails a check (R179). -/
theorem settles_ebbDrainBegin_fault {o : DrainOp} {rest : List DrainOp} {code : Nat} {w : Work}
    (hq : (s.isl p).ebbq = o :: rest) (hidle : (s.isl p).ebb = none)
    (hinit : s.bit (Reg.ACC_STATUS p) Fd.ACC_STATUS_INIT_DONE = true)
    (hd : descCheck (s.ebbDesc p o.edesc) o.count = some code) (hw : s.findWork o.id = some w) (hsrc : w.src = .ctx p o.c)
    (hc : o.c < 2) (hrest : ∀ x ∈ rest, x.id ≠ o.id) (hfirst : s.bit (Reg.ISL_SEQ_FAULT p o.c) Fd.ISL_SEQ_FAULT_VALID = false) :
    Settles (.ebbDrainBegin p) s fun t => t.ctxSt p o.c = 5 ∧ (t.isl p).ebb = none
      ∧ (t.isl p).ebbq = rest.filter (fun x => x.c ≠ o.c)
      ∧ t.bit (Reg.EBB_ERR p) Fd.EBB_ERR_FAULT = true ∧ t.fld (Reg.ISL_SEQ_FAULT p o.c) Fd.ISL_SEQ_FAULT_CODE = 0x0F
      ∧ (t.reg (Reg.ISL_SEQ_FINFO p o.c)).toNat = 1 + 16 * code ∧ (∀ x, t.byte x = s.byte x) := by
  set v := s.takeDrain p o rest with hv
  have fails : s.beginDrain p o rest = v.ebbFault p o code := by
    have desc := s.ebbDesc_takeDrain p o rest o.edesc
    rw [State.takeDrain] at desc
    simp only [State.beginDrain, desc, hd]
    rfl
  have isl : v.isl p = { s.isl p with ebbq := rest } := s.isl_takeDrain p o rest
  have first : v.bit (Reg.ISL_SEQ_FAULT p o.c) Fd.ISL_SEQ_FAULT_VALID = false :=
    (State.bit_congr (s.reg_takeDrain p o rest (by unfold Reg.ISL_SEQ_FAULT Reg.EBB_STATUS; omega)) _).trans hfirst
  obtain ⟨stopped, reads, queue, flag, fault, info, bytes⟩ :=
    v.ebbFault_effect p (descCheck_code_le hd) ((s.findWork_takeDrain p o rest o.id).trans hw) hsrc hc (by rw [isl]; exact hrest) first
  rw [← fails, isl] at queue
  rw [← fails, isl] at reads
  rw [← fails] at stopped flag fault info bytes
  exact ⟨_, exec_ebbDrainBegin hq hidle hinit, stopped, reads.trans hidle, queue, flag, fault, info,
    fun x => (bytes x).trans (State.byte_congr ((s.takeDrain_keeps p o rest).2 .mem (by decide)) x)⟩

/-- A batch without rows that another one of its drain follows leaves (R176). -/
theorem settles_ebbElementWrite_leaves {b : EbbBatch} {rest : List EbbBatch} (h : (s.isl p).ebbw = b :: rest) (hr : b.rows = [])
    (hf : b.fault = none) (hl : b.last = false) :
    Settles (.ebbElementWrite p) s fun t =>
      (t.isl p).ebbw = rest ∧ KeepsBut [.regs, .isls] s t ∧ RegsBut [Reg.EBB_STATUS p] s t := by
  obtain ⟨isl, keeps, regs⟩ := s.setIsl_syncEbb_effect p { s.isl p with ebbw := rest }
  refine ⟨_, exec_ebbElementWrite h, ?_⟩
  rw [hr, State.ebbWriteRows_nil hf, hl, if_neg Bool.false_ne_true]
  exact ⟨by rw [isl], keeps, regs⟩

/-- The batch of a LOSS drain completes it with its value (R173). -/
theorem settles_ebbElementWrite_loss {b : EbbBatch} {rest : List EbbBatch} {r : EbbRow} {s2 v : Nat}
    {vals : List (Option (Nat × Nat))} {w : WBytes} {u : State} (h : (s.isl p).ebbw = b :: rest) (hr : b.rows = [r])
    (hv : r.vals = some (s2, v) :: vals) (hf : b.fault = none) (hl : b.last = true) (hloss : eLoss b.desc = true)
    (hm : eMode b.desc ≠ 2) (hrow : s.ebbRow (ebbAcc s p b.op) p b r = (none, w, u)) :
    Settles (.ebbElementWrite p) s fun t => (t.reg (Reg.EBB_LOSS p)).toNat = v % 2 ^ 32
      ∧ (t.isl p).lossN = ((u.commit (ebbAcc s p b.op) w).isl p).lossN + 1 ∧ (t.isl p).lossVal = v ∧ (t.isl p).ebbw = rest := by
  set x := u.commit (ebbAcc s p b.op) w
  have writes : s.ebbWriteRows (ebbAcc s p b.op) p b rest b.rows
      = ((x.setIsl p { x.isl p with ebbw := rest }).drainDone p b (some v)).syncEbb p := by
    rw [hr, State.ebbWriteRows_row hm hrow, State.ebbWriteRows_nil hf, hl, if_pos rfl, EbbBatch.loss?_eq hloss hr hv]
  obtain ⟨loss, part⟩ := (x.setIsl p { x.isl p with ebbw := rest }).drainDone_loss p b v
  rw [← writes, State.setIsl_isl] at part
  rw [← writes] at loss
  exact ⟨_, exec_ebbElementWrite h, loss, congrArg Isl.lossN part, congrArg Isl.lossVal part, congrArg Isl.ebbw part⟩

end

/-- Settles O11. A drain begins (`State.beginDrain_effect`) or fails (`State.ebbFault_effect`), a read cycle waits or ends with its
elements behind the batches (`State.ebbRead_reads`), and a batch is written row by row (`State.ebbWriteRows_row`). -/
theorem ebbDrains : Obligations.EbbDrains := by
  unfold Obligations.EbbDrains
  refine ⟨fun p s o rest hq hidle hinit => ⟨fun cs hd hcs hf => ?_, fun code w => settles_ebbDrainBegin_fault hq hidle hinit⟩,
    fun p s r h => ⟨fun held => ?_, fun u0 u1 u2 u3 u4 u5 sc bi zs gs rows hfree hlimit hsc hbi hzs hgs hrows => ?_⟩,
    fun p s b rest h => ⟨fun r rs w u hr hm hrow => ?_, fun r rs u hr hm hrow => ?_, settles_ebbElementWrite_leaves h,
      fun r s2 v vals w u => settles_ebbElementWrite_loss h⟩⟩
  · exact ⟨_, exec_ebbDrainBegin hq hidle hinit, State.beginDrain_effect hd hcs hf⟩
  · exact ⟨_, exec_ebbReadCycle_held h held, s.count_toNat _ 1, s.setReg_keeps _ _, s.setReg_regsBut _ _⟩
  · refine ⟨_, exec_ebbReadCycle_free h hfree, ?_⟩
    rw [State.ebbRead_reads rfl rfl rfl hlimit hsc hbi hzs hgs hrows]
    exact u5.endRead_effect p r _ _
  · rw [exec_ebbElementWrite h, hr, State.ebbWriteRows_row hm hrow, settled]
  · rw [exec_ebbElementWrite h, hr, State.ebbWriteRows_add hm hrow, settled]

end Sys2Proof.Machine
end


section
/-! SUPPORT. Sparse tiles: the header, the bitmap and the values that a COMPRESS writes, and the decoder that reads them back
(R204, R232 to R235, R242). -/

namespace Sys2Proof.Machine

/-! ### Streams of little-endian values -/

/-- The values of a stream, one after the other, read back by number. -/
theorem valAt_flatMap_leBytes (e : Nat) (ns : List Nat) (hn : ∀ n ∈ ns, n < 256 ^ e) {j : Nat} (hj : j < ns.length) :
    valAt e (ns.flatMap (leBytes e)) j = ns[j] := by
  induction ns generalizing j with
  | nil => exact absurd hj (Nat.not_lt_zero j)
  | cons n ns ih =>
    cases j with
    | zero =>
      have whole : (leBytes e n ++ ns.flatMap (leBytes e)).take e = leBytes e n := 
        List.take_left' (leBytes_length e n)
      rw [valAt, Nat.zero_mul, List.drop_zero, List.flatMap_cons, whole, leNat_leBytes, Nat.mod_eq_of_lt (hn n (by simp))]
      rfl
    | succ j =>
      have skip : (leBytes e n ++ ns.flatMap (leBytes e)).drop ((j + 1) * e) = (ns.flatMap (leBytes e)).drop (j * e) := by
        rw [List.drop_append, leBytes_length, List.drop_eq_nil_of_le (by rw [leBytes_length, Nat.succ_mul]; omega),
          Nat.succ_mul, Nat.add_sub_cancel, List.nil_append]
      rw [valAt, List.flatMap_cons, skip]
      exact ih (fun m hm => hn m (by simp [hm])) (Nat.lt_of_succ_lt_succ hj)

/-! ### Ranks: how many of the places below a place are kept -/

section
variable (p : Nat → Bool)

/-- How many places below `b` are kept. -/
def rank (b : Nat) : Nat := (List.range b).countP p

theorem rank_succ (b : Nat) : rank p (b + 1) = rank p b + if p b then 1 else 0 := by
  rw [rank, List.range_succ, List.countP_append, List.countP_singleton]
  rfl

theorem rank_add_le (b k : Nat) : rank p (b + k) ≤ rank p b + k := by
  induction k with
  | zero => exact le_rfl
  | succ k ih => rw [← Nat.add_assoc, rank_succ]; split <;> omega

theorem rank_mono {b c : Nat} (h : b ≤ c) : rank p b ≤ rank p c := (List.range_sublist.2 h).countP_le

/-- The place `b`, where it is kept, stands in the list of the kept places at its rank. -/
theorem getElem?_filter_range_rank {b n : Nat} (hb : b < n) (hp : p b = true) :
    ((List.range n).filter p)[rank p b]? = some b := by
  obtain ⟨k, rfl⟩ := Nat.exists_eq_add_of_lt hb
  rw [show b + k + 1 = b + 1 + k by omega, List.range_add, List.filter_append, List.range_succ, List.filter_append, rank,
    List.countP_eq_length_filter, List.append_assoc, List.getElem?_append_right le_rfl, Nat.sub_self]
  simp [hp]

/-- The number whose ones stand at the kept places below `n`. -/
def bitmap (n : Nat) : Nat := ((List.range n).filter p).foldl (fun m b => m + 2 ^ b) 0

theorem bitmap_succ (n : Nat) : bitmap p (n + 1) = bitmap p n + if p n then 2 ^ n else 0 := by
  rw [bitmap, List.range_succ, List.filter_append, List.foldl_append]
  cases hp : p n <;> simp [hp, bitmap]

theorem bitmap_lt (n : Nat) : bitmap p n < 2 ^ n := by
  induction n with
  | zero => exact Nat.one_pos
  | succ n ih => rw [bitmap_succ, Nat.pow_succ]; split <;> omega

theorem testBit_bitmap {b n : Nat} (h : b < n) : (bitmap p n).testBit b = p b := by
  induction n with
  | zero => exact absurd h (Nat.not_lt_zero b)
  | succ n ih =>
    rw [bitmap_succ, Nat.add_comm]
    rcases Nat.lt_succ_iff_lt_or_eq.1 h with hlt | rfl
    · rw [← ih hlt]
      split
      · exact Nat.testBit_two_pow_add_gt hlt _
      · rw [Nat.zero_add]
    · have top := Nat.testBit_lt_two_pow (bitmap_lt p b)
      split
      case isTrue hp => rw [Nat.testBit_two_pow_add_eq, top, hp]; rfl
      case isFalse hp => rw [Nat.zero_add, top]; simpa using hp

/-- The most places kept in a group of four, of the 256 groups of a tile. -/
def mostKept (nz : List Nat) : Nat := (List.range 256).foldl (fun m g => max m ((nz.filter fun b => b / 4 == g).length)) 0

theorem le_foldl_max {f : Nat → Nat} {gs : List Nat} (m : Nat) :
    m ≤ gs.foldl (fun m g => max m (f g)) m ∧ ∀ g ∈ gs, f g ≤ gs.foldl (fun m g => max m (f g)) m := by
  induction gs generalizing m with
  | nil => exact ⟨le_rfl, fun g hg => absurd hg List.not_mem_nil⟩
  | cons g gs ih =>
    obtain ⟨hm, hgs⟩ := ih (max m (f g))
    refine ⟨(Nat.le_max_left _ _).trans hm, fun h hh => ?_⟩
    rcases List.mem_cons.1 hh with rfl | hh
    · exact (Nat.le_max_right _ _).trans hm
    · exact hgs h hh

theorem rank_group {g n : Nat} (hg : 4 * g + 4 ≤ n) :
    rank p (4 * g + 4) ≤ rank p (4 * g) + (((List.range n).filter p).filter fun b => b / 4 == g).length := by
  have here (i : Nat) (hi : i < 4) : ((4 * g + i) / 4 == g) = true := by rw [beq_iff_eq]; omega
  have group : rank p (4 * g + 4) ≤ rank p (4 * g) + rank (fun b => (b / 4 == g) && p b) (4 * g + 4) := by
    have first : (4 * g / 4 == g) = true := here 0 (by decide)
    simp only [rank_succ, first, here 1 (by decide), here 2 (by decide), here 3 (by decide), Bool.true_and]
    omega
  refine group.trans (Nat.add_le_add_left ((rank_mono _ hg).trans (le_of_eq ?_)) _)
  rw [List.filter_filter, rank, List.countP_eq_length_filter]

/-- No group keeps more places than the most. -/
theorem rank_group_le_mostKept {g : Nat} (hg : g < 256) :
    rank p (4 * g + 4) ≤ rank p (4 * g) + mostKept ((List.range 1024).filter p) :=
  (rank_group p (n := 1024) (by omega)).trans (Nat.add_le_add_left
    ((le_foldl_max (f := fun g => (((List.range 1024).filter p).filter fun b => b / 4 == g).length) 0).2 g (List.mem_range.2 hg)) _)

end

/-! ### The bits of a packed tile, in ascending order (R235) -/

section
variable {p : Nat → Bool} {e P n bits : Nat} {vs : List Byte} {val : Nat → Nat}

/-- One step of the decoder: at a new group the values of the last one have been passed, and a set bit takes the next value. -/
theorem unpackBits_eq (hbits : ∀ b < 1024, bits.testBit b = p b) (hgroup : ∀ g < 256, rank p (4 * g + 4) ≤ rank p (4 * g) + n)
    (hP : rank p 1024 ≤ P) (hval : ∀ b < 1024, p b = true → valAt e vs (rank p b) = val b) (fuel b c o : Nat)
    (hb : b + fuel = 1024) (ho : o = rank p (4 * ((b - 1) / 4))) (hc : o + c = rank p b) :
    unpackBits e P n bits vs fuel b (rank p b) c o = (List.range' b fuel).map fun b => if p b then val b else 0 := by
  induction fuel generalizing b c o with
  | zero => rfl
  | succ fuel ih =>
    have group := hgroup (b / 4) (by omega)
    -- the counts after the decoder has looked whether a group begins
    obtain ⟨c', o', start, ho', hc'⟩ : ∃ c' o', (if b % 4 = 0 ∧ b ≠ 0 then (0, o + min c n) else (c, o)) = (c', o')
        ∧ o' = rank p (4 * (b / 4)) ∧ o' + c' = rank p b := by
      split
      case isTrue h =>
        have last := hgroup ((b - 1) / 4) (by omega)
        rw [show 4 * ((b - 1) / 4) + 4 = b by omega, ← hc, ← ho] at last
        exact ⟨_, _, rfl, by rw [Nat.min_eq_left (by omega), hc, show 4 * (b / 4) = b by omega],
          by rw [Nat.min_eq_left (by omega), hc]; rfl⟩
      case isFalse h => exact ⟨_, _, rfl, by rw [ho, show (b - 1) / 4 = b / 4 by omega], hc⟩
    have next (c o : Nat) := ih (b + 1) c o (by omega)
    rw [Nat.add_sub_cancel, rank_succ] at next
    have bit : (bits / 2 ^ b % 2 = 0) ↔ p b = false := by
      rw [← hbits b (by omega), Nat.testBit_eq_decide_div_mod_eq, decide_eq_false_iff_not]
      omega
    rw [unpackBits, start, List.range'_succ, List.map_cons]
    dsimp only
    cases hp : p b
    case false =>
      rw [if_pos (bit.2 hp)]
      rw [hp] at next
      exact congrArg _ (next c' o' ho' hc')
    case true =>
      have succ : rank p (b + 1) = rank p b + 1 := by rw [rank_succ, hp]; rfl
      have room : rank p (b + 1) ≤ rank p (4 * (b / 4) + 4) := rank_mono p (by omega)
      have total : rank p (b + 1) ≤ rank p 1024 := rank_mono p (by omega)
      have fits : c' < n := by omega
      have below : rank p b < P := by omega
      rw [if_neg (by rw [bit, hp]; decide), hc', if_pos below, if_pos (And.intro fits below), hval b (by omega) hp, ite_self]
      rw [hp] at next
      exact congrArg _ (next (c' + 1) o' ho' (by rw [← Nat.add_assoc, hc']; rfl))

end

/-! ### The tile that a COMPRESS writes -/

/-- An element's pattern is a zero of its format: of either sign, but in the integer format 7. -/
def patIsZero (fmt v : Nat) : Bool := if fmt = 7 then v == 0 else v % 2 ^ (fmtBits fmt - 1) == 0

/-- Place `b` of a tile holds a value that a packed form keeps. -/
def tileKeeps (fmt : Nat) (vals : List Nat) (b : Nat) : Bool := !patIsZero fmt (vals.getD b 0)

/-- The places of a tile that a packed form keeps, in ascending order. -/
def tileKept (fmt : Nat) (vals : List Nat) : List Nat := (List.range 1024).filter (tileKeeps fmt vals)

/-- Whether a packed form would be no shorter than the DENSE one (R204). -/
def tileDense (fmt : Nat) (vals : List Nat) : Bool := decide ((tileKept fmt vals).length > 1024 - 128 / fmtBytes fmt)

/-- STRUCT of a tile's header (R234). -/
def tileStruct (fmt : Nat) (vals : List Nat) : Nat :=
  if tileDense fmt vals then 0 else if mostKept (tileKept fmt vals) ≤ 1 then 2
  else if mostKept (tileKept fmt vals) ≤ 2 then 1 else 0

/-- The hint bit of a tile's header (R204, R237). -/
def tileHint (fmt thresh : Nat) (vals : List Nat) : Nat :=
  if !tileDense fmt vals && fmt != 7 && decide ((tileKept fmt vals).length ≤ min thresh 1024) then 1 else 0

/-- The header of a tile as a number (R233). -/
def tileHeader (fmt thresh : Nat) (vals : List Nat) : Nat :=
  fmt + (if tileDense fmt vals then 2 ^ 4 else 0) + tileStruct fmt vals * 2 ^ 5 + tileHint fmt thresh vals * 2 ^ 7
    + (tileKept fmt vals).length * 2 ^ 16

theorem tileBytes_eq (fmt thresh : Nat) (vals : List Nat) : tileBytes fmt thresh vals =
    if tileDense fmt vals then (leBytes 16 (tileHeader fmt thresh vals) ++ vals.flatMap (leBytes (fmtBytes fmt)), true)
    else (leBytes 16 (tileHeader fmt thresh vals) ++ leBytes 128 (bitmap (tileKeeps fmt vals) 1024)
      ++ (tileKept fmt vals).flatMap fun b => leBytes (fmtBytes fmt) (vals.getD b 0), false) := rfl

/-! ### The header read back -/

section
variable (fmt thresh : Nat) (vals : List Nat)

theorem tileKept_length : (tileKept fmt vals).length = rank (tileKeeps fmt vals) 1024 := by
  rw [tileKept, rank, List.countP_eq_length_filter]

/-- The parts of a header fit their fields. -/
theorem tileHeader_parts : (tileKept fmt vals).length ≤ 1024 ∧ tileStruct fmt vals ≤ 2 ∧ tileHint fmt thresh vals ≤ 1 := by
  refine ⟨(List.length_filter_le _ _).trans (le_of_eq List.length_range), ?_, ?_⟩
  · unfold tileStruct; split_ifs <;> decide
  · unfold tileHint; split <;> decide

variable {fmt} (hfmt : fmt ≤ 7)
include hfmt

theorem leNat_tileHeader : leNat (leBytes 16 (tileHeader fmt thresh vals)) = tileHeader fmt thresh vals := by
  obtain ⟨hn, hs, hh⟩ := tileHeader_parts fmt thresh vals
  rw [leNat_leBytes]
  apply Nat.mod_eq_of_lt
  unfold tileHeader
  split <;> omega

theorem hdrDense_tileHeader : hdrDense (leBytes 16 (tileHeader fmt thresh vals)) = tileDense fmt vals := by
  obtain ⟨hn, hs, hh⟩ := tileHeader_parts fmt thresh vals
  rw [hdrDense, leNat_tileHeader thresh vals hfmt, tileHeader, bitsOf]
  cases tileDense fmt vals
  · rw [beq_eq_false_iff_ne]; simp only [Bool.false_eq_true, if_false]; omega
  · rw [beq_iff_eq, if_pos rfl]; omega

theorem hdrStruct_tileHeader : hdrStruct (leBytes 16 (tileHeader fmt thresh vals)) = tileStruct fmt vals := by
  obtain ⟨hn, hs, hh⟩ := tileHeader_parts fmt thresh vals
  rw [hdrStruct, leNat_tileHeader thresh vals hfmt, tileHeader, bitsOf]
  split <;> omega

theorem hdrPop_tileHeader : hdrPop (leBytes 16 (tileHeader fmt thresh vals)) = (tileKept fmt vals).length := by
  obtain ⟨hn, hs, hh⟩ := tileHeader_parts fmt thresh vals
  rw [hdrPop, leNat_tileHeader thresh vals hfmt, tileHeader, bitsOf]
  split <;> omega

end

/-! ### The round trip -/

/-- How many values of a group of four a packed tile with this STRUCT can hold (R234). -/
def structRoom (st : Nat) : Nat := match st with | 1 => 2 | 2 => 1 | _ => 4

/-- STRUCT leaves room for the values of every group. -/
theorem rank_group_le_structRoom {fmt : Nat} {vals : List Nat} (hd : tileDense fmt vals = false) {g : Nat} (hg : g < 256) :
    rank (tileKeeps fmt vals) (4 * g + 4) ≤ rank (tileKeeps fmt vals) (4 * g) + structRoom (tileStruct fmt vals) := by
  have most := rank_group_le_mostKept (tileKeeps fmt vals) hg
  have four : rank (tileKeeps fmt vals) (4 * g + 4) ≤ rank (tileKeeps fmt vals) (4 * g) + 4 :=
    rank_add_le _ _ 4
  rw [tileStruct, hd, tileKept, if_neg Bool.false_ne_true]
  split
  · simp only [structRoom]; omega
  · split
    · simp only [structRoom]; omega
    · exact four

/-- A pattern that is below 2 to its format's width fits the bytes of an element. -/
theorem two_pow_fmtBits : ∀ fmt ≤ 7, fmtIsMx fmt = false → 2 ^ fmtBits fmt = 256 ^ fmtBytes fmt := by decide

section
variable {fmt : Nat} (thresh : Nat) {vals : List Nat} (hfmt : fmt ≤ 7) (hlen : vals.length = 1024)
  (hvals : ∀ v ∈ vals, v < 256 ^ fmtBytes fmt)
include hfmt hlen hvals

/-- A DENSE tile's patterns all come back. -/
theorem decodeTile_dense (hd : tileDense fmt vals = true) :
    let t := decodeTile (fmtBytes fmt) (leBytes 16 (tileHeader fmt thresh vals)) (vals.flatMap (leBytes (fmtBytes fmt)))
    t.dense = true ∧ t.vals = vals := by
  intro t
  have ht : t = ⟨true, hdrPop (leBytes 16 (tileHeader fmt thresh vals)), 2 ^ 1024 - 1,
      (List.range 1024).map (valAt (fmtBytes fmt) (vals.flatMap (leBytes (fmtBytes fmt))))⟩ :=
    if_pos ((hdrDense_tileHeader thresh vals hfmt).trans hd)
  rw [ht]
  refine ⟨rfl, List.ext_getElem (by rw [List.length_map, List.length_range, hlen]) fun i _ hi => ?_⟩
  rw [List.getElem_map, List.getElem_range, valAt_flatMap_leBytes _ _ hvals hi]

omit hfmt in
/-- The value that a packed tile holds for a place that it keeps, read by the place's rank. -/
theorem valAt_tileKept {b : Nat} (hb : b < 1024) (hp : tileKeeps fmt vals b = true) :
    valAt (fmtBytes fmt) ((tileKept fmt vals).flatMap fun b => leBytes (fmtBytes fmt) (vals.getD b 0))
      (rank (tileKeeps fmt vals) b) = vals.getD b 0 := by
  obtain ⟨hlt, here⟩ := List.getElem?_eq_some_iff.1 (getElem?_filter_range_rank (tileKeeps fmt vals) hb hp)
  have stream : ((tileKept fmt vals).flatMap fun b => leBytes (fmtBytes fmt) (vals.getD b 0))
      = ((tileKept fmt vals).map fun b => vals.getD b 0).flatMap (leBytes (fmtBytes fmt)) := by rw [List.flatMap_map]
  rw [stream, valAt_flatMap_leBytes _ _ (fun n hn => ?_) (by rwa [List.length_map]), List.getElem_map]
  · exact congrArg (vals.getD · 0) here
  · obtain ⟨a, ha, rfl⟩ := List.mem_map.1 hn
    have ha : a < vals.length := hlen ▸ List.mem_range.1 (List.mem_filter.1 ha).1
    rw [List.getD_eq_getElem _ _ ha]
    exact hvals _ (List.getElem_mem ha)

/-- A packed tile's patterns come back, its zeros as +0. -/
theorem decodeTile_packed (hd : tileDense fmt vals = false) :
    let t := decodeTile (fmtBytes fmt) (leBytes 16 (tileHeader fmt thresh vals)) (leBytes 128 (bitmap (tileKeeps fmt vals) 1024)
      ++ (tileKept fmt vals).flatMap fun b => leBytes (fmtBytes fmt) (vals.getD b 0))
    t.dense = false ∧ t.vals = vals.map fun v => if patIsZero fmt v then 0 else v := by
  intro t
  have bits : leNat (leBytes 128 (bitmap (tileKeeps fmt vals) 1024)) = bitmap (tileKeeps fmt vals) 1024 := by
    rw [leNat_leBytes]
    exact Nat.mod_eq_of_lt ((bitmap_lt _ _).trans_eq (by rw [show 256 = 2 ^ 8 from rfl, ← Nat.pow_mul]))
  have count : packedCount (fmtBytes fmt) (tileKept fmt vals).length = rank (tileKeeps fmt vals) 1024 := by
    rw [tileDense, decide_eq_false_iff_not, Nat.not_lt] at hd
    rw [packedCount, Nat.min_eq_left hd, tileKept_length]
  have ht : t = ⟨false, (tileKept fmt vals).length, bitmap (tileKeeps fmt vals) 1024,
      unpackBits (fmtBytes fmt) (rank (tileKeeps fmt vals) 1024) (structRoom (tileStruct fmt vals))
        (bitmap (tileKeeps fmt vals) 1024) ((tileKept fmt vals).flatMap fun b => leBytes (fmtBytes fmt) (vals.getD b 0))
        1024 0 (rank (tileKeeps fmt vals) 0) 0 0⟩ := by
    rw [← count, ← hdrPop_tileHeader thresh vals hfmt, ← hdrStruct_tileHeader thresh vals hfmt]
    refine (if_neg (by rw [hdrDense_tileHeader thresh vals hfmt, hd]; decide)).trans ?_
    dsimp only
    rw [List.take_left' (leBytes_length _ _), List.drop_left' (leBytes_length _ _), bits]
    rfl
  rw [ht]
  refine ⟨rfl, (unpackBits_eq (fun b hb => testBit_bitmap _ hb) (fun g hg => rank_group_le_structRoom hd hg) le_rfl
    (fun b hb hp => valAt_tileKept hlen hvals hb hp) 1024 0 0 0 rfl rfl rfl).trans ?_⟩
  refine List.ext_getElem (by rw [List.length_map, List.length_range', List.length_map, hlen]) fun i _ hi => ?_
  rw [List.length_map] at hi
  rw [List.getElem_map, List.getElem_map, List.getElem_range', tileKeeps, Nat.zero_add, Nat.one_mul,
    List.getD_eq_getElem _ _ hi]
  cases patIsZero fmt vals[i] <;> rfl

end

theorem patIsZero_iff (fmt v : Nat) : patIsZero fmt v = true ↔ v = 0 ∨ (fmt ≠ 7 ∧ v % 2 ^ (fmtBits fmt - 1) = 0) := by
  unfold patIsZero
  by_cases h : fmt = 7
  · simp [h]
  · simp only [h, if_false, beq_iff_eq, ne_eq, not_false_eq_true, true_and]
    exact ⟨.inr, fun hz => hz.elim (fun h0 => by rw [h0, Nat.zero_mod]) id⟩

/-- Settles O14: the decoder finds the value of a kept place by the place's rank, and STRUCT leaves room for it in its group. -/
theorem tileRoundTrip : Obligations.TileRoundTrip := by
  intro fmt thresh vals hfmt hmx hlen hlt
  rw [two_pow_fmtBits fmt hfmt hmx] at hlt
  rw [tileBytes_eq]
  cases hd : tileDense fmt vals
  case true =>
    dsimp only
    rw [if_pos rfl, List.take_left' (leBytes_length _ _), List.drop_left' (leBytes_length _ _)]
    exact ⟨fun _ => decodeTile_dense thresh hfmt hlen hlt hd, fun h => absurd h.symm Bool.false_ne_true⟩
  case false =>
    dsimp only
    rw [if_neg Bool.false_ne_true, List.append_assoc, List.take_left' (leBytes_length _ _), List.drop_left' (leBytes_length _ _)]
    refine ⟨fun h => absurd h Bool.false_ne_true, fun _ => ?_⟩
    simpa only [patIsZero_iff] using decodeTile_packed thresh hfmt hlen hlt hd

end Sys2Proof.Machine
end


section
/-! SUPPORT. What an access to memory or through a Chart records beside what it reads or writes: errors, codewords, translations, and
lines of other modules asked for (R191 to R193, R271 to R273, R310, R312). It leaves memory alone, and the registers that none of
these records writes. -/

namespace Sys2Proof.Machine

/-- A register that no record of an error, no walk of a page table and no request to another module writes. -/
def SteadyReg (a : Nat) : Prop := QuietReg a ∧ ∀ q, a ≠ Reg.CHT_CNT_WALK q ∧ a ≠ Reg.STR_TRK_STATUS q

theorem not_steadyReg_of_not_quietReg {a : Nat} (h : ¬QuietReg a) : ¬SteadyReg a := fun hs => h hs.1

theorem not_steadyReg_cntWalk (q : Nat) : ¬SteadyReg (Reg.CHT_CNT_WALK q) := fun h => (h.2 q).1 rfl

theorem not_steadyReg_trkStatus (q : Nat) : ¬SteadyReg (Reg.STR_TRK_STATUS q) := fun h => (h.2 q).2 rfl

theorem steadyReg_swapCtl : SteadyReg Reg.ISL_SWAP_CTL := by
  refine ⟨by unfold QuietReg Reg.ISL_SWAP_CTL modWin; omega, fun q => ?_⟩
  unfold Reg.ISL_SWAP_CTL Reg.CHT_CNT_WALK Reg.STR_TRK_STATUS modWin qtrWin
  omega

/-- What an access may change beside the bytes that it writes. -/
def accessParts : List Part := [.regs, .cw, .isls, .events, .accessErrs, .qtrs, .ports, .remLines]

/-- An access may have been recorded: steady registers and every part but `accessParts` are as they were. -/
structure AccessNoted (s t : State) : Prop where
  keeps : KeepsBut accessParts s t
  reg : ∀ a, SteadyReg a → t.reg a = s.reg a

theorem State.setPort_keeps (s : State) (k : Nat) (x : Port) : KeepsBut [.ports] s (s.setPort k x) := by
  refine ⟨rfl, fun p hp => ?_⟩
  cases p with
  | ports => exact absurd (List.mem_singleton.2 rfl) hp
  | _ => rfl

theorem State.withRemLines_keeps (s : State) (l : List RemLine) : KeepsBut [.remLines] s { s with remLines := l } := by
  refine ⟨rfl, fun p hp => ?_⟩
  cases p with
  | remLines => exact absurd (List.mem_singleton.2 rfl) hp
  | _ => rfl

namespace AccessNoted

variable {s t u : State}

theorem refl (s : State) : AccessNoted s s := ⟨.refl _ s, fun _ _ => rfl⟩

theorem trans (h : AccessNoted s t) (h' : AccessNoted t u) : AccessNoted s u :=
  ⟨(h.keeps.trans h'.keeps).mono (by simp), fun a ha => (h'.reg a ha).trans (h.reg a ha)⟩

theorem ite {c : Prop} [Decidable c] (ht : AccessNoted s t) (hu : AccessNoted s u) : AccessNoted s (if c then t else u) := by
  split
  · exact ht
  · exact hu

/-- Memory, the Ferries, the work and the firmware's records are as they were. -/
theorem mem (h : AccessNoted s t) : t.mem = s.mem := h.keeps.2 .mem (by decide)

theorem frys (h : AccessNoted s t) : t.frys = s.frys := h.keeps.2 .frys (by decide)

theorem byte (h : AccessNoted s t) (a : Nat) : t.byte a = s.byte a := State.byte_congr h.mem a

theorem swapIdle (h : AccessNoted s t) (hs : s.bit Reg.ISL_SWAP_CTL Fd.ISL_SWAP_CTL_GO = false) :
    t.bit Reg.ISL_SWAP_CTL Fd.ISL_SWAP_CTL_GO = false :=
  (State.bit_congr (h.reg _ steadyReg_swapCtl) _).trans hs

/-! ### Single updates -/

/-- An update of parts that an access may change, other than the registers. -/
theorem of_parts {ps : List Part} (h : KeepsBut ps s t) (hp : ps ⊆ accessParts) (hr : .regs ∉ ps) : AccessNoted s t :=
  ⟨h.mono hp, fun a _ => State.reg_congr (h.2 .regs hr) a⟩

theorem setReg (s : State) {a : Nat} (v : Word) (h : ¬SteadyReg a) : AccessNoted s (s.setReg a v) :=
  ⟨(s.setReg_keeps a v).mono (by decide), fun _ hb => s.reg_setReg_other v fun e => h (e ▸ hb)⟩

theorem setFld (s : State) {a : Nat} (f : Fld) (v : Nat) (h : ¬SteadyReg a) : AccessNoted s (s.setFld a f v) := setReg s _ h

theorem count (s : State) {a : Nat} (n : Nat) (h : ¬SteadyReg a) : AccessNoted s (s.count a n) := setReg s _ h

theorem of_chartsRead (h : ChartsRead s t) : AccessNoted s t :=
  ⟨h.keeps.mono (by decide), fun a ha => h.kept.reg a ha.1⟩

theorem of_errorsNoted (h : ErrorsNoted s t) : AccessNoted s t := of_chartsRead (.of_errorsNoted h)

theorem raisePlaus (s : State) (p : Nat) : AccessNoted s (s.raisePlaus p) := of_chartsRead (.raisePlaus s p)

theorem report (s : State) (k : EventKind) (u a b : Nat) : AccessNoted s (s.report k u a b) :=
  of_parts (s.report_keeps k u a b) (by decide) (by decide)

theorem accessErr (s : State) (a r : Nat) (w : Bool) (k : Nat) : AccessNoted s (s.accessErr a r w k) :=
  of_parts (s.accessErr_keeps a r w k) (by decide) (by decide)

theorem setQtr (s : State) (q : Nat) (x : Qtr) : AccessNoted s (s.setQtr q x) :=
  of_parts (s.setQtr_keeps q x) (by decide) (by decide)

theorem setCw (s : State) (a : Nat) (e : CwErr) : AccessNoted s (s.setCw a e) :=
  of_parts (s.setCw_keeps a e) (by decide) (by decide)

theorem withRemLines (s : State) (l : List RemLine) : AccessNoted s { s with remLines := l } :=
  of_parts (s.withRemLines_keeps l) (by decide) (by decide)

/-! ### Codewords -/

theorem badRead (s : State) (A : Acc) : AccessNoted s (s.badRead A) := by
  unfold State.badRead
  split
  · exact raisePlaus s _
  · exact .ite (report s _ _ _ _) (refl s)

theorem touchCws (s : State) (A : Acc) (as : List Nat) : AccessNoted s (s.touchCws A as) := by
  induction as generalizing s with
  | nil => exact refl s
  | cons a as ih =>
    have check := of_errorsNoted (ErrorsNoted.checkCw s a A.req A.lisl)
    refine .trans ?_ (ih _)
    exact .ite (accessErr s _ _ _ _) (.ite (check.trans (badRead _ A)) check)

theorem touch (s : State) (A : Acc) (ps : List Piece) : AccessNoted s (s.touch A ps) :=
  (AccessNoted.ite (accessErr s 0 A.req false 1) (refl s)).trans (touchCws _ A _)

theorem storeCw (s : State) (a : Nat) (e : CwErr) : AccessNoted s (s.storeCw a e) := by
  unfold State.storeCw
  split
  · exact (setCw s a e).trans (setCw _ _ e)
  · exact setCw s a e

theorem writeCw (s : State) (cwa lo hi req lisl : Nat) : AccessNoted s (s.writeCw cwa lo hi req lisl).2 := by
  have check := of_errorsNoted (ErrorsNoted.checkCw s cwa req lisl)
  unfold State.writeCw
  split
  · exact refl s
  case h_2 m hm =>
    split
    · exact storeCw s cwa .ok
    · dsimp only
      split
      · exact (check.trans (storeCw _ cwa .poison)).trans
          (count _ _ (not_steadyReg_of_not_quietReg (not_quietReg_memReg m (by decide) (by decide))))
      · exact check.trans (storeCw _ cwa .ok)

theorem writeCws (s : State) (cwa lo hi req lisl k : Nat) : AccessNoted s (s.writeCws cwa lo hi req lisl k).2 := by
  induction k generalizing s cwa with
  | zero => exact refl s
  | succ k ih => exact (writeCw s cwa lo hi req lisl).trans (ih _ _)

theorem commitCws (s : State) (A : Acc) (as cws : List Nat) : AccessNoted s (s.commitCws A as cws) := by
  induction cws generalizing s with
  | nil => exact refl s
  | cons cw cws ih =>
    refine .trans ?_ (ih _)
    have write := writeCw s cw (if (List.range 32).all fun i => as.contains (cw + i) then cw else cw + 1) (cw + 32) A.req A.lisl
    exact .ite (accessErr s _ _ _ _) (.ite (write.trans (badRead _ A)) write)

/-! ### Translation -/

theorem walkTouch (s : State) (A : Acc) (va : Nat) : AccessNoted s (s.walkTouch A va) := touchCws s A _

theorem countWalk (s : State) (q : Nat) : AccessNoted s (s.count (Reg.CHT_CNT_WALK q) 1) := count s 1 (not_steadyReg_cntWalk q)

theorem pageOf (s : State) (A : Acc) (va : Nat) : AccessNoted s (s.pageOf A va).2 := by
  unfold State.pageOf
  dsimp only
  split
  · exact refl s
  · have count := AccessNoted.ite (c := (s.reg (Reg.CHT_CTX_PT_ROOT A.q A.ctx)).toNat % 2 = 0) (refl s) (countWalk s A.q)
    split
    · exact count.trans (walkTouch _ A va)
    · exact (count.trans (walkTouch _ A va)).trans (setQtr _ _ _)

theorem xlate (s : State) (A : Acc) (va : Int) (wr : Bool) : AccessNoted s (s.xlate A va wr).2 := by
  have page := pageOf s A va.toNat
  unfold State.xlate
  split
  · exact refl s
  · dsimp only
    split
    case h_1 hp => rw [hp] at page; exact page
    case h_2 hp =>
      rw [hp] at page
      split_ifs <;> exact page

theorem vaPieces (s : State) (A : Acc) (va : Int) (n : Nat) (wr : Bool) : AccessNoted s (s.vaPieces A va n wr).2 := by
  have first := xlate s A va wr
  unfold State.vaPieces
  dsimp only
  split
  case h_1 hx => rw [hx] at first; exact first
  case h_2 pa u hx =>
    rw [hx] at first
    have second := first.trans (xlate u A (va + (2 ^ 21 - (va % (2 ^ 21 : Int)).toNat : Nat)) wr)
    split
    · exact first
    · split
      case h_1 hy => rw [hy] at second; exact second
      case h_2 hy => rw [hy] at second; exact second

theorem chartPieces (s : State) (A : Acc) (c : Chart) (d va : Int) (n : Nat) (wr : Bool) :
    AccessNoted s (s.chartPieces A c d va n wr).2 := by
  unfold State.chartPieces
  dsimp only
  split
  · exact refl s
  · split
    · exact refl s
    · split
      · split
        · exact refl s
        · split
          · exact refl s
          · split <;> exact refl s
      · exact vaPieces s A va n wr

/-! ### Lines of other modules -/

theorem noteStatus (s : State) (m : Msg) (status : Nat) : AccessNoted s (s.noteStatus m status) :=
  .ite (refl s) (report s _ _ _ _)

theorem workPlaus (s : State) (id : Nat) : AccessNoted s (s.workPlaus id) := by
  unfold State.workPlaus
  split
  · exact raisePlaus s _
  · exact report s _ _ _ _

theorem completeRead (s : State) (w mod addr status : Nat) (data : List Byte) :
    AccessNoted s (s.completeUse (.read w mod addr) status data) :=
  .ite (withRemLines s _) ((withRemLines s _).trans (workPlaus _ w))

theorem enqueue (s : State) (k stream : Nat) (m : Msg) : AccessNoted s (s.enqueue k stream m) :=
  of_parts (s.setPort_keeps k _) (by decide) (by decide)

theorem sendRead (s : State) (q i stream : Nat) (m : Msg) (w mod addr : Nat) :
    AccessNoted s (s.sendReq q i stream m (.read w mod addr)) := by
  unfold State.sendReq
  dsimp only
  split
  · refine ((setQtr s q _).trans (count _ _ (not_steadyReg_of_not_quietReg ?_))).trans
      ((noteStatus _ _ _).trans (completeRead _ w mod addr _ _))
    unfold QuietReg Reg.STR_CNT_NOROUTE qtrWin
    omega
  · split
    · exact (setQtr s q _).trans ((noteStatus _ _ _).trans (completeRead _ w mod addr _ _))
    · refine .trans ?_ (enqueue _ _ _ _)
      refine .trans ?_ (setFld _ _ _ (not_steadyReg_trkStatus q))
      exact (setQtr s q _).trans (setQtr _ q _)

theorem requestRead (s : State) (q stream : Nat) (m : Msg) (w mod addr : Nat) :
    AccessNoted s (s.request q stream m (.read w mod addr)) := by
  unfold State.request
  split
  · exact sendRead s q _ stream m w mod addr
  · refine (setQtr s q _).trans (count _ _ (not_steadyReg_of_not_quietReg ?_))
    unfold QuietReg Reg.STR_CNT_TRK_FULL qtrWin
    omega

theorem remRead (s : State) (q lisl work mod addr : Nat) : AccessNoted s (s.remRead q lisl work mod addr).2 := by
  unfold State.remRead
  split
  · exact refl s
  · dsimp only
    exact (withRemLines s _).trans (requestRead _ q _ _ work mod addr)

theorem askLines (s : State) (A : Acc) (mod : Nat) (ls : List Nat) : AccessNoted s (s.askLines A mod ls).2 := by
  induction ls generalizing s with
  | nil => exact refl s
  | cons l ls ih => exact (remRead s A.q A.lisl A.work mod l).trans (ih _)

theorem askPieces (s : State) (A : Acc) (ps : List Piece) : AccessNoted s (s.askPieces A ps).2 := by
  induction ps generalizing s with
  | nil => exact refl s
  | cons p ps ih =>
    refine .trans ?_ (ih _)
    split
    · exact askLines s A _ _
    · exact refl s

end AccessNoted

end Sys2Proof.Machine
end


section
/-! SUPPORT. CHT_INV, and what an invalidation drops (R193, R210). -/

namespace Sys2Proof.Machine

/-! ### Register words -/

/-- A field reads the same where bits outside it are set. -/
theorem Fld.get_or_of_apart (f : Fld) (v : Word) {m : Word} (h : ∀ b < 32, f.Covers b → m.getLsbD b = false) :
    f.get (v ||| m) = f.get v :=
  f.get_congr fun b hb c => by rw [BitVec.getLsbD_or, h b hb c, Bool.or_false]

/-- A field of a register that software writes reads the word written (R16). -/
theorem State.fld_swWrite (s : State) {a : Nat} {row : RegRow} (h : regRow? a = some row) (v : Word) {f : Fld}
    (hf : f ∈ row.fields) (hrw : f.ty = .rw) : (s.swWrite a v).fld a f = f.get v := by
  rw [State.fld, (s.swWrite_effect h v).1]
  exact ((registerFieldTypes a row h (s.reg a) v).1 f hf).1 hrw

theorem chtInv_row (q : Fin 4) : regRow? (Reg.CHT_INV q)
    = some ⟨0x80000, [], false, [Fd.CHT_INV_CTX, Fd.CHT_INV_SCOPE, Fd.CHT_INV_GO, Fd.CHT_INV_DONE]⟩ := by
  revert q
  decide +kernel

/-! ### The write of CHT_INV -/

theorem exec_chtInv {r : Requester} {q : Fin 4} {v : BitVec 32} {s : State} (hup : s.up = true)
    (hm : s.mayWrite r (Reg.CHT_INV q) = true) :
    exec (.chtInv r q v) s = .next ((s.swWrite (Reg.CHT_INV q) (v ||| 0x40)).setFld (Reg.CHT_INV q) Fd.CHT_INV_GO 1) := by
  have go : (bitsOf (v ||| 0x40).toNat 6 6 == 1) = true := by
    have bit : (v ||| 0x40).toNat.testBit 6 = true := by rw [BitVec.testBit_toNat, BitVec.getLsbD_or]; simp
    rw [Nat.testBit_eq_decide_div_mod_eq, decide_eq_true_eq] at bit
    rw [beq_iff_eq, bitsOf]
    exact bit
  change Host.Outcome.next (s.guarded r (Reg.CHT_INV q) fun s => s.chtInvWrite q (v ||| 0x40)) = _
  rw [State.guarded_permitted _ hup hm, State.chtInvWrite]
  simp only [go, Bool.or_true, if_true]

theorem gives_chtInv {r : Requester} {q : Fin 4} {v : BitVec 32} {s : State} (hup : s.up = true)
    (hm : s.mayWrite r (Reg.CHT_INV q) = true) :
    Gives (.chtInv r q v) s fun t => t.bit (Reg.CHT_INV q) Fd.CHT_INV_GO = true
      ∧ t.fld (Reg.CHT_INV q) Fd.CHT_INV_CTX = v.toNat % 16 ∧ t.fld (Reg.CHT_INV q) Fd.CHT_INV_SCOPE = bitsOf v.toNat 5 4
      ∧ KeepsBut [.regs] s t ∧ RegsBut [Reg.CHT_INV q] s t := by
  obtain ⟨-, keeps, regs⟩ := s.swWrite_effect (chtInv_row q) (v ||| 0x40)
  refine ⟨_, exec_chtInv hup hm, ?_, ?_, ?_, (keeps.trans (State.setReg_keeps _ _ _)).mono (by simp),
    regs.trans (State.setReg_regsBut _ _ _)⟩
  · rw [State.bit, State.fld_setFld_same _ _ _ _ (by decide)]; rfl
  · rw [State.fld_setFld_disjoint _ _ _ _ _ (by decide) (by decide), s.fld_swWrite (chtInv_row q) _ (by decide) rfl,
      Fd.CHT_INV_CTX.get_or_of_apart _ (by decide)]
    exact congrArg (· % 16) (Nat.div_one _)
  · rw [State.fld_setFld_disjoint _ _ _ _ _ (by decide) (by decide), s.fld_swWrite (chtInv_row q) _ (by decide) rfl,
      Fd.CHT_INV_SCOPE.get_or_of_apart _ (by decide)]
    rfl

/-! ### What an invalidation drops -/

section
variable (s : State) (q : Nat)

theorem State.dropTlb_effect (f : TlbEnt → Bool) : let t := s.dropTlb q f
    (t.qtr q).tlb = (s.qtr q).tlb.filter (fun e => !f e) ∧ KeepsBut [.qtrs] s t ∧ t.regs = s.regs :=
  ⟨by rw [State.dropTlb, State.qtr_setQtr, if_pos rfl], s.setQtr_keeps q _, rfl⟩

/-- Drops the Chart copies of one Island. -/
def State.dropIslCharts (s : State) (p : Nat) (f : Nat → Bool) : State :=
  if (s.isl p).charts.isEmpty then s else s.setIsl p { s.isl p with charts := (s.isl p).charts.filter fun c => !f c.ctx }

theorem State.dropIslCharts_keeps (p : Nat) (f : Nat → Bool) : KeepsBut [.isls] s (s.dropIslCharts p f) := by
  unfold State.dropIslCharts
  split
  · exact .refl _ s
  · exact s.setIsl_keeps p _

theorem State.charts_dropIslCharts (p x : Nat) (f : Nat → Bool) : ((s.dropIslCharts p f).isl x).charts
    = if x = p then (s.isl x).charts.filter (fun c => !f c.ctx) else (s.isl x).charts := by
  unfold State.dropIslCharts
  by_cases hx : x = p
  · subst hx
    rw [if_pos rfl]
    split
    case isTrue h => rw [List.isEmpty_iff.1 h]; rfl
    case isFalse => rw [State.setIsl_isl]
  · rw [if_neg hx]
    split
    · rfl
    · rw [State.isl_setIsl, if_neg hx]

theorem State.dropCharts_eq (f : Nat → Bool) :
    s.dropCharts q f = (List.range 36).foldl (fun s n => s.dropIslCharts (36 * q + n) f) s := rfl

theorem State.charts_foldl_dropIslCharts (f : Nat → Bool) (n : Nat) (ns : List Nat) :
    ((ns.foldl (fun s n => s.dropIslCharts (36 * q + n) f) s).isl (36 * q + n)).charts
      = if n ∈ ns then (s.isl (36 * q + n)).charts.filter (fun c => !f c.ctx) else (s.isl (36 * q + n)).charts := by
  induction ns generalizing s with
  | nil => rfl
  | cons m ns ih =>
    rw [List.foldl_cons, ih, State.charts_dropIslCharts]
    by_cases hm : n = m
    · subst hm
      simp only [List.mem_cons, true_or, if_true, List.filter_filter, Bool.and_self, ite_self]
    · simp only [List.mem_cons, hm, false_or, Nat.add_left_cancel_iff, if_false]

theorem State.dropCharts_effect (f : Nat → Bool) : let t := s.dropCharts q f
    (∀ n < 36, (t.isl (36 * q + n)).charts = (s.isl (36 * q + n)).charts.filter (fun c => !f c.ctx))
      ∧ KeepsBut [.isls] s t := by
  refine ⟨fun n hn => ?_, ?_⟩
  · rw [State.dropCharts_eq, State.charts_foldl_dropIslCharts, if_pos (List.mem_range.2 hn)]
  · rw [State.dropCharts_eq]
    induction List.range 36 generalizing s with
    | nil => exact .refl _ s
    | cons n ns ih => exact ((s.dropIslCharts_keeps (36 * q + n) f).trans (ih _)).mono (by simp)

/-- What a scope drops of a Quarter: 1 leaves the translations, 0 the Charts, and 3 takes them of every context (R210). -/
theorem State.invalidate_effect (c k : Nat) : let t := s.invalidate q c k
    (t.qtr q).tlb = (s.qtr q).tlb.filter (fun e => k == 1 || (k != 3 && e.ctx != c))
      ∧ (∀ n < 36, (t.isl (36 * q + n)).charts
          = (s.isl (36 * q + n)).charts.filter fun e => k == 0 || (k != 3 && e.ctx != c))
      ∧ KeepsBut [.isls, .qtrs] s t := by
  intro t
  set u := if k = 1 then s else s.dropTlb q fun t => k == 3 || t.ctx == c with hu
  have tlb : (u.qtr q).tlb = (s.qtr q).tlb.filter (fun e => k == 1 || (k != 3 && e.ctx != c)) ∧ KeepsBut [.qtrs] s u := by
    rw [hu]
    split
    case isTrue hk => exact ⟨by simp [hk], .refl _ s⟩
    case isFalse hk =>
      obtain ⟨drop, keeps, -⟩ := s.dropTlb_effect q fun t => k == 3 || t.ctx == c
      exact ⟨drop.trans (by simp [beq_false_of_ne hk, bne]), keeps⟩
  have charts : (t.qtr q).tlb = (u.qtr q).tlb ∧ (∀ n < 36, (t.isl (36 * q + n)).charts
      = (s.isl (36 * q + n)).charts.filter fun e => k == 0 || (k != 3 && e.ctx != c)) ∧ KeepsBut [.isls] u t := by
    have same (p : Nat) : u.isl p = s.isl p := State.isl_congr (tlb.2.2 .isls (by decide)) p
    have ht : t = if k = 0 then u else u.dropCharts q fun x => k == 3 || x == c := rfl
    rw [ht]
    split
    case isTrue hk => exact ⟨rfl, fun n _ => by rw [same]; simp [hk], .refl _ u⟩
    case isFalse hk =>
      obtain ⟨drop, keeps⟩ := u.dropCharts_effect q fun x => k == 3 || x == c
      exact ⟨congrArg Qtr.tlb (State.qtr_congr (keeps.2 .qtrs (by decide)) q),
        fun n hn => (drop n hn).trans (by rw [same]; simp [beq_false_of_ne hk, bne]), keeps⟩
  exact ⟨charts.1.trans tlb.1, charts.2.1, (tlb.2.trans charts.2.2).mono (by simp)⟩

end

/-- GO is cleared and DONE set. -/
theorem State.setFld_chtInv_done (s : State) (q : Fin 4) :
    let t := (s.setFld (Reg.CHT_INV q) Fd.CHT_INV_GO 0).setFld (Reg.CHT_INV q) Fd.CHT_INV_DONE 1
    t.bit (Reg.CHT_INV q) Fd.CHT_INV_GO = false ∧ t.bit (Reg.CHT_INV q) Fd.CHT_INV_DONE = true
      ∧ KeepsBut [.regs] s t ∧ RegsBut [Reg.CHT_INV q] s t := by
  refine ⟨?_, ?_, ((State.setReg_keeps _ _ _).trans (State.setReg_keeps _ _ _)).mono (by simp),
    (State.setReg_regsBut _ _ _).trans (State.setReg_regsBut _ _ _)⟩
  · rw [State.bit, State.fld_setFld_disjoint _ _ _ _ _ (by decide) (by decide), State.fld_setFld_same _ _ _ _ (by decide)]
    rfl
  · rw [State.bit, State.fld_setFld_same _ _ _ _ (by decide)]
    rfl

/-- The end of an invalidation: its context and scope are those that the register holds. -/
theorem gives_chtInvDone {q : Fin 4} {s : State} (hgo : s.bit (Reg.CHT_INV q) Fd.CHT_INV_GO = true) :
    let c := s.fld (Reg.CHT_INV q) Fd.CHT_INV_CTX
    let k := s.fld (Reg.CHT_INV q) Fd.CHT_INV_SCOPE
    Gives (.chtInvDone q) s fun t => t.bit (Reg.CHT_INV q) Fd.CHT_INV_GO = false
      ∧ t.bit (Reg.CHT_INV q) Fd.CHT_INV_DONE = true
      ∧ (t.qtr q).tlb = (s.qtr q).tlb.filter (fun e => k == 1 || (k != 3 && e.ctx != c))
      ∧ (∀ n : Fin 36, (t.isl (36 * q + n)).charts
          = (s.isl (36 * q + n)).charts.filter fun e => k == 0 || (k != 3 && e.ctx != c))
      ∧ KeepsBut [.regs, .isls, .qtrs] s t ∧ RegsBut [Reg.CHT_INV q] s t := by
  intro c k
  obtain ⟨tlb, charts, keeps⟩ := s.invalidate_effect q c k
  have done : exec (.chtInvDone q) s = .next (((s.invalidate q c k).setFld (Reg.CHT_INV q) Fd.CHT_INV_GO 0).setFld
      (Reg.CHT_INV q) Fd.CHT_INV_DONE 1) := by
    change execChtInvDone q s = _
    simp only [execChtInvDone, hgo, Bool.not_true, Bool.false_eq_true, if_false]
    rfl
  obtain ⟨go, flag, flds, regs⟩ := (s.invalidate q c k).setFld_chtInv_done q
  exact ⟨_, done, go, flag, (congrArg Qtr.tlb (State.qtr_congr (flds.2 .qtrs (by decide)) q)).trans tlb,
    fun n => (congrArg Isl.charts (State.isl_congr (flds.2 .isls (by decide)) _)).trans (charts n n.isLt),
    (keeps.trans flds).mono (by simp), (RegsBut.of_regs_eq (keeps.2 .regs (by decide))).trans regs⟩

end Sys2Proof.Machine
end


section
/-! SUPPORT. The validation of a T1 descriptor (R194, R195, R210). -/

namespace Sys2Proof.Machine

/-! ### The page table and the Chart table of a context -/

theorem steadyReg_ctxPt (q : Nat) {ctx : Nat} (hc : ctx < 16) {off : Nat} (h : off ≤ 0xC) :
    SteadyReg (qtrWin q + (0x80100 + off) + ctx * 0x10) := by
  refine ⟨by unfold QuietReg qtrWin; omega, fun q' => ?_⟩
  unfold Reg.CHT_CNT_WALK Reg.STR_TRK_STATUS qtrWin
  omega

section
variable {s t : State} {q ctx : Nat} (hc : ctx < 16) (hreg : ∀ a, SteadyReg a → t.reg a = s.reg a)
include hc hreg

theorem State.ptRoot_congr : t.reg (Reg.CHT_CTX_PT_ROOT q ctx) = s.reg (Reg.CHT_CTX_PT_ROOT q ctx) :=
  hreg _ (steadyReg_ctxPt q hc (off := 0) (by decide))

theorem State.chartEntry_congr (l slot : Nat) : t.chartEntry q ctx l slot = s.chartEntry q ctx l slot := by
  rw [State.chartEntry, State.chartEntry, hreg (Reg.CHT_CTX_PT_CT q ctx) (steadyReg_ctxPt q hc (off := 8) (by decide)),
    hreg (Reg.CHT_CTX_PT_CTHI q ctx) (steadyReg_ctxPt q hc (off := 12) (by decide))]

/-- A walk reads the context's root and memory only. -/
theorem State.walk_congr (hpte : ∀ a, t.pteNat a = s.pteNat a) (va : Nat) : t.walk q ctx va = s.walk q ctx va := by
  have l0 : t.l0At q ctx va = s.l0At q ctx va := by
    rw [State.l0At, State.l0At, State.ptRoot_congr hc hreg,
      hreg (Reg.CHT_CTX_PT_ROOTHI q ctx) (steadyReg_ctxPt q hc (off := 4) (by decide))]
  simp only [State.walk, State.ptRoot_congr hc hreg, l0, hpte]

end

theorem ChartsAlike.of_errorsNoted (p : Nat) {s t : State} (h : ErrorsNoted s t) : ChartsAlike p s t :=
  ⟨congrArg Isl.charts (State.isl_congr (h.keeps.2 .isls (by decide)) p), h.keeps.2 .mem (by decide), fun a ha _ => h.reg a ha⟩

theorem ChartsAlike.pteNat {s t : State} (h : ChartsAlike 0 s t) (a : Nat) : t.pteNat a = s.pteNat a := by
  rw [State.pteNat, State.pteNat, h.accessKind (by decide), State.memNat_congr fun x _ _ => State.byte_congr h.mem x]

/-! ### The walk over the pages of the extent -/

section
variable {s u : State} {q ctx : Nat} (hwalk : ∀ va, u.walk q ctx va = s.walk q ctx va) (wr : Bool)
include hwalk

theorem State.walkAddr_congr (va : Nat) : u.walkAddr q ctx va = s.walkAddr q ctx va := by
  rw [State.walkAddr, State.walkAddr, hwalk]

/-- The answer is that of the page table, whatever the walk records. -/
theorem State.t1Walk_status (n va pa : Nat) (t t' : State) : (u.t1Walk q ctx wr n va pa t').1 = (s.t1Walk q ctx wr n va pa t).1 := by
  induction n generalizing va pa t t' with
  | zero => rfl
  | succ n ih =>
    simp only [State.t1Walk, hwalk]
    cases s.walk q ctx va with
    | error w => rfl
    | ok p =>
      dsimp only
      generalize (if p.2 = true then _ else _ : Nat) = a
      split_ifs
      · rfl
      · rfl
      · rfl
      · exact ih _ _ _ _

end

/-- A walk that finds every page records its reads only. -/
theorem State.t1Walk_noted (s : State) {q ctx : Nat} {wr : Bool} {n va pa : Nat} {t : State}
    (h : (s.t1Walk q ctx wr n va pa t).1 = 0) : AccessNoted t (s.t1Walk q ctx wr n va pa t).2 := by
  induction n generalizing va pa t with
  | zero => exact .refl t
  | succ n ih =>
    have page : AccessNoted t ((t.count (Reg.CHT_CNT_WALK q) 1).walkTouch ⟨q, ctx, 0xFF, 5, 9, 0⟩ va) :=
      (AccessNoted.countWalk t q).trans (.walkTouch _ _ va)
    simp only [State.t1Walk] at h ⊢
    cases hw : s.walk q ctx va with
    | error w => simp [hw] at h
    | ok p =>
      rw [hw] at h
      dsimp only at h ⊢
      generalize (if p.2 = true then _ else _ : Nat) = a at h ⊢
      split_ifs at h ⊢
      exact page.trans (ih h)

/-! ### The answers of a validation -/

section
variable (s : State) {q ctx : Nat} (l slot src : Nat)

/-- The state after the read of the descriptor. -/
def State.t1Read : State := (s.readMem src 48 9 0xFF).2.2

theorem State.t1Read_noted : ErrorsNoted s (s.t1Read src) := ErrorsNoted.checkCws s (src / 32 * 32) 9 0xFF (cwSpan src 48)

theorem State.t1Read_steady (a : Nat) (h : SteadyReg a) : (s.t1Read src).reg a = s.reg a := (s.t1Read_noted src).reg a h.1

/-- The descriptor that a validation reads. -/
theorem State.t1Read_data : (s.readMem src 48 9 0xFF).1 = s.bytes src 48 :=
  State.bytes_congr ((s.t1Read_noted src).keeps.2 .mem (by decide)) src 48

theorem State.t1Validate_noTable (hc : ctx < 16) (hroot : (s.reg (Reg.CHT_CTX_PT_ROOT q ctx)).toNat % 2 = 0) :
    s.t1Validate q ctx l slot src = (5, s.t1Read src) := by
  have root := State.ptRoot_congr (q := q) hc (s.t1Read_steady src)
  unfold State.t1Read at root
  unfold State.t1Validate State.t1Read
  dsimp only
  rw [root, if_pos hroot]

theorem State.t1Validate_badFmt (hc : ctx < 16) (hroot : (s.reg (Reg.CHT_CTX_PT_ROOT q ctx)).toNat % 2 = 1)
    (hfmt : t1Fmt (parseT1 (leNat (s.bytes src 48))).fmt = none) : s.t1Validate q ctx l slot src = (1, s.t1Read src) := by
  have root := State.ptRoot_congr (q := q) hc (s.t1Read_steady src)
  have data := s.t1Read_data src
  unfold State.t1Read at root
  unfold State.t1Validate State.t1Read
  dsimp only
  rw [data, root, if_neg (by omega), hfmt]

/-- A valid descriptor is written as a Chart entry, after reads that are only recorded. -/
theorem State.t1Validate_ok (hc : ctx < 16) {e fmt : Nat} (hroot : (s.reg (Reg.CHT_CTX_PT_ROOT q ctx)).toNat % 2 = 1) :
    let d := parseT1 (leNat (s.bytes src 48))
    t1Fmt d.fmt = some (e, fmt) → 1 ≤ d.ndim → d.ndim ≤ 4 → (∀ n ∈ d.size.take d.ndim, n ≠ 0) →
    d.base + d.extent e ≤ 2 ^ 52 → d.extent e ≤ 2 ^ 44 →
    (s.t1Walk q ctx d.wr ((d.base + d.extent e - 1) / 2 ^ 21 - d.base / 2 ^ 21 + 1) d.base (s.walkAddr q ctx d.base) s).1 = 0 →
    ∃ u, AccessNoted s u ∧ s.t1Validate q ctx l slot src = (0, (u.writeMem (s.chartEntry q ctx l slot)
      (leBytes 128 (d.entry fmt ctx (s.walkAddr q ctx d.base))) 9 0xFF).2) := by
  intro d hfmt hlo hhi hsize hbase hext hst
  have read := AccessNoted.of_errorsNoted (s.t1Read_noted src)
  have alike := ChartsAlike.of_errorsNoted 0 (s.t1Read_noted src)
  have root := State.ptRoot_congr (q := q) hc read.reg
  have walk := State.walk_congr (q := q) hc read.reg alike.pteNat
  have data := s.t1Read_data src
  have some_zero : (d.size.take d.ndim).any (· == 0) = false := by
    rw [List.any_eq_false]
    exact fun n hn => by simpa using hsize n hn
  have st := (State.t1Walk_status walk d.wr _ d.base _ s (s.t1Read src)).trans hst
  have noted := read.trans (State.t1Walk_noted _ st)
  refine ⟨_, noted, ?_⟩
  have addr := State.walkAddr_congr walk d.base
  have entry := State.chartEntry_congr (q := q) hc noted.reg l slot
  unfold State.t1Read at root st addr entry
  unfold State.t1Validate State.t1Read
  dsimp only
  rw [data, show parseT1 (leNat (s.bytes src 48)) = d from rfl, root, if_neg (by omega), hfmt]
  dsimp only
  rw [if_neg (by rw [some_zero]; simp; omega), if_neg (by omega), addr, st, if_neg (by decide), entry]

end

theorem chtT1_row (q : Fin 4) : regRow? (Reg.CHT_T1_CTL q) = some ⟨0x80028, [], false, [Fd.CHT_T1_CTL_CTX, Fd.CHT_T1_CTL_LISL,
    Fd.CHT_T1_CTL_SLOT, Fd.CHT_T1_CTL_GO, Fd.CHT_T1_CTL_DONE, Fd.CHT_T1_CTL_STATUS]⟩ := by
  revert q
  decide +kernel

/-! ### The write of CHT_T1_CTL -/

/-- The state in which the descriptor is validated: the register written, with GO as it was (R210). -/
def State.t1Written (s : State) (q : Fin 4) (v : Word) : State := s.swWriteKeep (Reg.CHT_T1_CTL q) [Fd.CHT_T1_CTL_GO] (v ||| 0x40000)

/-- The state after an answer: the status stands in the register, and DONE is set. -/
def State.t1Answer (s : State) (q : Fin 4) (st : Nat) : State :=
  (s.setFld (Reg.CHT_T1_CTL q) Fd.CHT_T1_CTL_STATUS st).setFld (Reg.CHT_T1_CTL q) Fd.CHT_T1_CTL_DONE 1

/-- A write with GO validates with the fields that the register then holds (R210). -/
theorem State.t1CtlWrite_go (s : State) (q : Fin 4) (v : Word) {st : Nat} {u : State} (go : bitsOf v.toNat 18 18 ≠ 0) :
    let s' := s.swWriteKeep (Reg.CHT_T1_CTL q) [Fd.CHT_T1_CTL_GO] v
    s'.t1Validate q (s'.fld (Reg.CHT_T1_CTL q) Fd.CHT_T1_CTL_CTX) (s'.fld (Reg.CHT_T1_CTL q) Fd.CHT_T1_CTL_LISL)
      (s'.fld (Reg.CHT_T1_CTL q) Fd.CHT_T1_CTL_SLOT) (s'.addr48 (Reg.CHT_T1_SRC_LO q) (Reg.CHT_T1_SRC_HI q)) = (st, u) →
    s.t1CtlWrite q v = u.t1Answer q st := by
  intro s' h
  unfold State.t1CtlWrite
  rw [if_neg go]
  extract_lets src
  split
  next st' u' answer =>
    obtain ⟨rfl, rfl⟩ := Prod.mk.inj (answer.symm.trans h)
    rfl

section
variable (s : State) (q : Fin 4) (v : Word)

theorem State.t1Written_effect : let t := s.t1Written q v
    t.fld (Reg.CHT_T1_CTL q) Fd.CHT_T1_CTL_CTX = v.toNat % 16 ∧ t.fld (Reg.CHT_T1_CTL q) Fd.CHT_T1_CTL_LISL = bitsOf v.toNat 11 4
      ∧ t.fld (Reg.CHT_T1_CTL q) Fd.CHT_T1_CTL_SLOT = bitsOf v.toNat 17 12
      ∧ KeepsBut [.regs] s t ∧ RegsBut [Reg.CHT_T1_CTL q] s t := by
  obtain ⟨-, keeps, regs⟩ := s.swWrite_effect (chtT1_row q) (v ||| 0x40000)
  have written {f : Fld} (hf : f ∈ [Fd.CHT_T1_CTL_CTX, Fd.CHT_T1_CTL_LISL, Fd.CHT_T1_CTL_SLOT])
      (hv : f.get (v ||| 0x40000) = f.get v) : (s.t1Written q v).fld (Reg.CHT_T1_CTL q) f = f.get v := by
    have row : f ∈ [Fd.CHT_T1_CTL_CTX, Fd.CHT_T1_CTL_LISL, Fd.CHT_T1_CTL_SLOT, Fd.CHT_T1_CTL_GO, Fd.CHT_T1_CTL_DONE,
        Fd.CHT_T1_CTL_STATUS] ∧ f.ty = .rw ∧ f.lo + f.w ≤ 18 := by
      clear hv
      revert f
      decide
    obtain ⟨mem, rw', below⟩ := row
    rw [← hv, ← s.fld_swWrite (chtT1_row q) _ mem rw']
    exact State.fld_setFld_disjoint _ _ _ _ _ (by decide) (.inl below)
  refine ⟨?_, ?_, ?_, (keeps.trans (State.setReg_keeps _ _ _)).mono (by simp), regs.trans (State.setReg_regsBut _ _ _)⟩
  · rw [written (by decide) (Fd.CHT_T1_CTL_CTX.get_or_of_apart _ (by decide))]
    exact congrArg (· % 16) (Nat.div_one _)
  · rw [written (by decide) (Fd.CHT_T1_CTL_LISL.get_or_of_apart _ (by decide))]; rfl
  · rw [written (by decide) (Fd.CHT_T1_CTL_SLOT.get_or_of_apart _ (by decide))]; rfl

theorem State.t1Answer_effect {st : Nat} (hst : st < 16) : let t := s.t1Answer q st
    t.bit (Reg.CHT_T1_CTL q) Fd.CHT_T1_CTL_DONE = true ∧ t.fld (Reg.CHT_T1_CTL q) Fd.CHT_T1_CTL_STATUS = st ∧ t.mem = s.mem := by
  refine ⟨?_, ?_, ((State.setReg_keeps _ _ _).trans (State.setReg_keeps _ _ _)).2 .mem (by decide)⟩
  · rw [State.t1Answer, State.bit, State.fld_setFld_same _ _ _ _ (by decide)]; rfl
  · rw [State.t1Answer, State.fld_setFld_disjoint _ _ _ _ _ (by decide) (by decide), State.fld_setFld_same _ _ _ _ (by decide)]
    exact Nat.mod_eq_of_lt hst

theorem exec_t1Validation {r : Requester} {s : State} {q : Fin 4} (hup : s.up = true)
    (hm : s.mayWrite r (Reg.CHT_T1_CTL q) = true) {st : Nat} {u : State}
    (h : (s.t1Written q v).t1Validate q (v.toNat % 16) (bitsOf v.toNat 11 4) (bitsOf v.toNat 17 12)
      (s.addr48 (Reg.CHT_T1_SRC_LO q) (Reg.CHT_T1_SRC_HI q)) = (st, u)) :
    exec (.t1Validation r q v) s = .next (u.t1Answer q st) := by
  obtain ⟨ctx, lisl, slot, -, regs⟩ := s.t1Written_effect q v
  have src : (s.t1Written q v).addr48 (Reg.CHT_T1_SRC_LO q) (Reg.CHT_T1_SRC_HI q)
      = s.addr48 (Reg.CHT_T1_SRC_LO q) (Reg.CHT_T1_SRC_HI q) := by
    rw [State.addr48, State.addr48, regs (Reg.CHT_T1_SRC_LO q) (by simp [Reg.CHT_T1_SRC_LO, Reg.CHT_T1_CTL]),
      regs (Reg.CHT_T1_SRC_HI q) (by simp [Reg.CHT_T1_SRC_HI, Reg.CHT_T1_CTL])]
  have go : bitsOf (v ||| 0x40000).toNat 18 18 ≠ 0 := by
    have bit : (v ||| 0x40000).toNat.testBit 18 = true := by rw [BitVec.testBit_toNat, BitVec.getLsbD_or]; simp
    rw [Nat.testBit_eq_decide_div_mod_eq, decide_eq_true_eq] at bit
    rw [bitsOf]
    omega
  change Host.Outcome.next (s.guarded r (Reg.CHT_T1_CTL q) fun s => s.t1CtlWrite q (v ||| 0x40000)) = _
  rw [State.guarded_permitted _ hup hm]
  refine congrArg Host.Outcome.next (State.t1CtlWrite_go s q _ go ?_)
  unfold State.t1Written at ctx lisl slot src h
  rw [src, ctx, lisl, slot, h]

end

/-! ### The obligation -/

section
variable {r : Requester} {q : Fin 4} {v : Word} {s : State} (hup : s.up = true) (hm : s.mayWrite r (Reg.CHT_T1_CTL q) = true)

/-- The write of the register changes nothing that a validation reads. -/
theorem State.t1Written_alike (s : State) (q : Fin 4) (v : Word) :
    ChartsAlike 0 s (s.t1Written q v) ∧ ∀ a, SteadyReg a → (s.t1Written q v).reg a = s.reg a := by
  obtain ⟨-, -, -, keeps, regs⟩ := s.t1Written_effect q v
  have quiet (a : Nat) (h : QuietReg a) : (s.t1Written q v).reg a = s.reg a := by
    refine regs a fun ha => ?_
    rw [List.mem_singleton.1 ha] at h
    unfold QuietReg Reg.CHT_T1_CTL qtrWin at h
    omega
  exact ⟨⟨congrArg Isl.charts (State.isl_congr (keeps.2 .isls (by decide)) 0), keeps.2 .mem (by decide), fun a h _ => quiet a h⟩,
    fun a h => quiet a h.1⟩

/-- A write of memory while no swap runs stores its bytes; beside them it records the codewords' conditions (R271 to R273). -/
theorem State.writeMem_of_idle {s : State} (h : s.bit Reg.ISL_SWAP_CTL Fd.ISL_SWAP_CTL_GO = false) (a : Nat) (bs : List Byte)
    (req lisl : Nat) : ∃ u, AccessNoted s u ∧ (s.writeMem a bs req lisl).2 = u.setBytes a bs :=
  have noted := AccessNoted.writeCws s (a / 32 * 32) a (a + bs.length) req lisl (cwSpan a bs.length)
  ⟨_, noted, State.store_of_idle (noted.swapIdle h) a bs⟩

include hup hm

/-- A validation that only reads its descriptor answers and leaves memory alone. -/
theorem gives_t1Refused {st : Nat} (hst : st < 16)
    (h : (s.t1Written q v).t1Validate q (v.toNat % 16) (bitsOf v.toNat 11 4) (bitsOf v.toNat 17 12)
      (s.addr48 (Reg.CHT_T1_SRC_LO q) (Reg.CHT_T1_SRC_HI q))
      = (st, (s.t1Written q v).t1Read (s.addr48 (Reg.CHT_T1_SRC_LO q) (Reg.CHT_T1_SRC_HI q)))) :
    Gives (.t1Validation r q v) s fun t => (t.bit (Reg.CHT_T1_CTL q) Fd.CHT_T1_CTL_DONE = true
      ∧ t.fld (Reg.CHT_T1_CTL q) Fd.CHT_T1_CTL_STATUS = st) ∧ ∀ x, t.byte x = s.byte x := by
  obtain ⟨done, status, mem⟩ := State.t1Answer_effect
    ((s.t1Written q v).t1Read (s.addr48 (Reg.CHT_T1_SRC_LO q) (Reg.CHT_T1_SRC_HI q))) q hst
  have read := ((s.t1Written q v).t1Read_noted (s.addr48 (Reg.CHT_T1_SRC_LO q) (Reg.CHT_T1_SRC_HI q))).keeps.2 .mem (by decide)
  exact ⟨_, exec_t1Validation v hup hm h, ⟨done, status⟩, State.byte_congr (mem.trans (read.trans (s.t1Written_alike q v).1.mem))⟩

theorem gives_t1Stored {e fmt : Nat} :
    let ctx := v.toNat % 16
    let slot := s.chartEntry q ctx (bitsOf v.toNat 11 4) (bitsOf v.toNat 17 12)
    let d := parseT1 (leNat (s.bytes (s.addr48 (Reg.CHT_T1_SRC_LO q) (Reg.CHT_T1_SRC_HI q)) 48))
    (s.reg (Reg.CHT_CTX_PT_ROOT q ctx)).toNat % 2 = 1 → t1Fmt d.fmt = some (e, fmt) → 1 ≤ d.ndim → d.ndim ≤ 4 →
    (∀ n ∈ d.size.take d.ndim, n ≠ 0) → d.base + d.extent e ≤ 2 ^ 52 → d.extent e ≤ 2 ^ 44 →
    s.bit Reg.ISL_SWAP_CTL Fd.ISL_SWAP_CTL_GO = false →
    (s.t1Walk q ctx d.wr ((d.base + d.extent e - 1) / 2 ^ 21 - d.base / 2 ^ 21 + 1) d.base (s.walkAddr q ctx d.base) s).1 = 0 →
    Gives (.t1Validation r q v) s fun t => (t.bit (Reg.CHT_T1_CTL q) Fd.CHT_T1_CTL_DONE = true
        ∧ t.fld (Reg.CHT_T1_CTL q) Fd.CHT_T1_CTL_STATUS = 0)
      ∧ t.memNat slot 128 = d.entry fmt ctx (s.walkAddr q ctx d.base) % 256 ^ 128 ∧ BytesBut slot 128 s t := by
  intro ctx slot d hroot hfmt hlo hhi hsize hbase hext hidle hst
  have hc : ctx < 16 := Nat.mod_lt _ (by decide)
  obtain ⟨alike, steady⟩ := s.t1Written_alike q v
  have walk := State.walk_congr (q := q) hc steady alike.pteNat
  have data : parseT1 (leNat ((s.t1Written q v).bytes (s.addr48 (Reg.CHT_T1_SRC_LO q) (Reg.CHT_T1_SRC_HI q)) 48)) = d := by
    rw [State.bytes_congr alike.mem]
  have addr := State.walkAddr_congr walk d.base
  have status := (State.t1Walk_status walk d.wr _ d.base _ s (s.t1Written q v)).trans hst
  obtain ⟨u, noted, valid⟩ := (s.t1Written q v).t1Validate_ok (bitsOf v.toNat 11 4) (bitsOf v.toNat 17 12)
    (s.addr48 (Reg.CHT_T1_SRC_LO q) (Reg.CHT_T1_SRC_HI q)) hc (e := e) (fmt := fmt) (q := q)
    (by rw [State.ptRoot_congr hc steady]; exact hroot) (by rw [data]; exact hfmt) (by rw [data]; exact hlo)
    (by rw [data]; exact hhi) (by rw [data]; exact hsize) (by rw [data]; exact hbase) (by rw [data]; exact hext)
    (by rw [data, addr]; exact status)
  rw [data, addr, State.chartEntry_congr hc steady] at valid
  have idle := noted.swapIdle ((State.bit_congr (steady _ steadyReg_swapCtl) _).trans hidle)
  obtain ⟨w, written, stored⟩ := State.writeMem_of_idle idle slot (leBytes 128 (d.entry fmt ctx (s.walkAddr q ctx d.base))) 9 0xFF
  rw [stored] at valid
  obtain ⟨done, stat, mem⟩ := State.t1Answer_effect
    (w.setBytes slot (leBytes 128 (d.entry fmt ctx (s.walkAddr q ctx d.base)))) q (st := 0) (by decide)
  have same : w.mem = s.mem := (written.mem.trans noted.mem).trans alike.mem
  refine ⟨_, exec_t1Validation v hup hm valid, ⟨done, stat⟩, ?_, fun b hb => ?_⟩
  · rw [State.memNat_congr fun x _ _ => State.byte_congr mem x, State.memNat_setBytes_same]
  · have apart := State.setBytes_bytesBut (s := w) slot (leBytes 128 (d.entry fmt ctx (s.walkAddr q ctx d.base))) b
    rw [leBytes_length] at apart
    exact (State.byte_congr mem b).trans ((apart hb).trans (State.byte_congr same b))

end

/-- Settles O19: a write of CHT_INV and its end from the fields of the register; a validation by its three answers, the last through
the walk that finds every page and the write of the entry. -/
theorem invalidationAndT1 : Obligations.InvalidationAndT1 := by
  refine ⟨fun r q v s => ⟨gives_chtInv, gives_chtInvDone⟩, fun r q v s hup hm => ?_⟩
  intro ctx slot src d root done
  have hc : ctx < 16 := Nat.mod_lt _ (by decide)
  obtain ⟨alike, steady⟩ := s.t1Written_alike q v
  have hroot := State.ptRoot_congr (q := q) hc steady
  refine ⟨fun h => ?_, fun h hfmt => ?_, fun e fmt => gives_t1Stored hup hm⟩
  · exact gives_t1Refused hup hm (by decide) (State.t1Validate_noTable _ _ _ _ hc (by rw [hroot]; exact h))
  · exact gives_t1Refused hup hm (by decide) (State.t1Validate_badFmt _ _ _ _ hc (by rw [hroot]; exact h)
      (by rw [State.bytes_congr alike.mem]; exact hfmt))

end Sys2Proof.Machine
end


section
/-! SUPPORT. The Ferries' queues, and a submission (R208, R211). -/

namespace Sys2Proof.Machine

theorem State.setFry_keeps (s : State) (f : Nat) (x : Fry) : KeepsBut [.frys] s (s.setFry f x) := by
  refine ⟨rfl, fun p hp => ?_⟩
  cases p with
  | frys => exact absurd (List.mem_singleton.2 rfl) hp
  | _ => rfl

theorem State.addWork_keeps (s : State) (cls : Nat) (src : WorkSrc) (pc : Nat) :
    KeepsBut [.work, .nextWork] s (s.addWork cls src pc).2 := by
  refine ⟨rfl, fun p hp => ?_⟩
  cases p with
  | work => exact absurd (by decide) hp
  | nextWork => exact absurd (by decide) hp
  | _ => rfl

theorem State.fry_congr {s t : State} (h : t.frys = s.frys) (f : Nat) : t.fry f = s.fry f := by
  rw [State.fry, State.fry, h]

section
variable (s : State) (f : Nat)

theorem State.syncFry_keeps : KeepsBut [.regs] s (s.syncFry f) := s.setReg_keeps _ _

theorem State.syncFry_regsBut : RegsBut [Reg.FRY_STATUS (f / 4) (f % 4)] s (s.syncFry f) := s.setReg_regsBut _ _

theorem State.fry_syncFry (g : Nat) : (s.syncFry f).fry g = s.fry g := State.fry_congr ((s.syncFry_keeps f).2 .frys (by decide)) g

end

/-! ### Submission -/

theorem exec_frySubmit {r : Requester} {f : Fin 16} {v : Word} {s : State} (hup : s.up = true)
    (hm : s.mayWrite r (Reg.FRY_SUBMIT_CTL (f / 4) (f % 4)) = true) :
    exec (.frySubmit r f v) s = .next (if v.toNat % 2 = 1 then s.ferrySubmit f else s) := by
  change Host.Outcome.next (s.guarded r (Reg.FRY_SUBMIT_CTL (f / 4) (f % 4))
    fun s => if v.toNat % 2 = 1 then s.ferrySubmit f else s) = _
  rw [State.guarded_permitted _ hup hm]

/-- What the Pilot's descriptor joins (R211): the queue behind the others, and the work under the next number. -/
theorem State.ferryQueue_effect (s : State) (f : Nat) (a : Nat) (h : (s.fry f).queue.length < 64) : let t := (s.ferryQueue f a false).2
    (t.fry f).queue = (s.fry f).queue ++ [⟨s.nextWork, .pilot, 0, a, false⟩]
      ∧ t.work = s.work ++ [⟨s.nextWork, 3, .pilot, 0, false, 0⟩] ∧ t.nextWork = s.nextWork + 1
      ∧ t.fld (Reg.FRY_STATUS (f / 4) (f % 4)) Fd.FRY_STATUS_QDEPTH = (s.fry f).queue.length + 1
      ∧ KeepsBut [.regs, .frys, .work, .nextWork] s t ∧ RegsBut [Reg.FRY_STATUS (f / 4) (f % 4)] s t := by
  intro t
  set u := (s.addWork 3 .pilot 0).2 with hu
  have fry : u.fry f = s.fry f := rfl
  set x : Fry := { u.fry f with queue := (u.fry f).queue ++ [⟨s.nextWork, .pilot, 0, a, false⟩] } with hx
  have ht : t = (u.setFry f x).syncFry f := rfl
  have hfry : (u.setFry f x).fry f = x := by rw [State.fry_setFry, if_pos rfl]
  have shown := (u.setFry f x).syncFry_keeps f
  rw [ht]
  refine ⟨?_, (shown.2 .work (by decide)).trans rfl, (shown.2 .nextWork (by decide)).trans rfl, ?_,
    (((s.addWork_keeps 3 .pilot 0).trans (u.setFry_keeps f x)).trans shown).mono (by simp),
    fun b hb => ((u.setFry f x).syncFry_regsBut f b hb).trans rfl⟩
  · rw [State.fry_syncFry, hfry]
    rfl
  · rw [State.syncFry, State.fld_setFld_same _ _ _ _ (by decide), hfry, hx, fry, List.length_append, List.length_singleton]
    exact Nat.mod_eq_of_lt (by change _ < 128; omega)

theorem State.ferrySubmit_room {s : State} {f : Nat} (h : (s.fry f).queue.length < 64) : s.ferrySubmit f
    = (s.ferryQueue f (s.addr48 (Reg.FRY_SUBMIT_LO (f / 4) (f % 4)) (Reg.FRY_SUBMIT_HI (f / 4) (f % 4)) / 64 * 64) false).2 :=
  if_neg (by rw [State.ferryFull, decide_eq_true_eq]; omega)

theorem State.ferrySubmit_full {s : State} {f : Nat} (h : 64 ≤ (s.fry f).queue.length) :
    s.ferrySubmit f = s.setFld (Reg.FRY_ERR (f / 4) (f % 4)) Fd.FRY_ERR_SUBREJ 1 :=
  if_pos (by rw [State.ferryFull, decide_eq_true_eq]; exact h)

/-- The three outcomes of a write of FRY_SUBMIT_CTL (R211). -/
theorem frySubmit_outcomes {r : Requester} {f : Fin 16} {v : Word} {s : State} (hup : s.up = true)
    (hm : s.mayWrite r (Reg.FRY_SUBMIT_CTL (f / 4) (f % 4)) = true) : let x := s.fry f
    (v.toNat % 2 = 1 → x.queue.length < 64 →
      Gives (.frySubmit r f v) s fun t =>
        (t.fry f).queue = x.queue ++ [⟨s.nextWork, .pilot, 0,
            s.addr48 (Reg.FRY_SUBMIT_LO (f / 4) (f % 4)) (Reg.FRY_SUBMIT_HI (f / 4) (f % 4)) / 64 * 64, false⟩]
          ∧ t.work = s.work ++ [⟨s.nextWork, 3, .pilot, 0, false, 0⟩] ∧ t.nextWork = s.nextWork + 1
          ∧ t.fld (Reg.FRY_STATUS (f / 4) (f % 4)) Fd.FRY_STATUS_QDEPTH = x.queue.length + 1
          ∧ KeepsBut [.regs, .frys, .work, .nextWork] s t ∧ RegsBut [Reg.FRY_STATUS (f / 4) (f % 4)] s t)
    ∧ (v.toNat % 2 = 1 → 64 ≤ x.queue.length →
      Gives (.frySubmit r f v) s fun t => t.bit (Reg.FRY_ERR (f / 4) (f % 4)) Fd.FRY_ERR_SUBREJ = true
        ∧ KeepsBut [.regs] s t ∧ RegsBut [Reg.FRY_ERR (f / 4) (f % 4)] s t)
    ∧ (v.toNat % 2 = 0 → Waits (.frySubmit r f v) s) := by
  have exec := exec_frySubmit (v := v) hup hm
  refine ⟨fun hv hroom => ⟨_, exec, ?_⟩, fun hv hfull => ⟨_, exec, ?_⟩, fun hv => exec.trans ?_⟩
  · rw [if_pos hv, State.ferrySubmit_room hroom]
    exact s.ferryQueue_effect f _ hroom
  · rw [if_pos hv, State.ferrySubmit_full hfull]
    refine ⟨?_, s.setReg_keeps _ _, s.setReg_regsBut _ _⟩
    rw [State.bit, State.fld_setFld_same _ _ _ _ (by decide)]
    rfl
  · rw [if_neg (by omega)]

/-! ### The reads before a descriptor begins -/

theorem AccessNoted.snd_ite {α : Type} {s : State} {c : Prop} [Decidable c] {x y : α × State} (hx : AccessNoted s x.2)
    (hy : AccessNoted s y.2) : AccessNoted s (if c then x else y).2 := by
  split
  · exact hx
  · exact hy

/-- A read at a device virtual address that gives its bytes. -/
theorem State.fetchVa_ok {s u : State} {A : Acc} {va : Int} {n : Nat} {bs : List Byte} (h : s.fetchVa A va n = (.ok bs, u)) :
    AccessNoted s u ∧ ∃ ps v, s.vaPieces A va n false = (.ok ps, v) ∧ bs = u.peek A ps := by
  have pieces := AccessNoted.vaPieces s A va n false
  unfold State.fetchVa at h
  split at h
  · cases h
  next ps v hp =>
    rw [hp] at pieces
    have asked := AccessNoted.askPieces v A ps
    split at h
    · cases h
    next w ha =>
      rw [ha] at asked
      cases h
      exact ⟨(pieces.trans asked).trans (.touch w A ps), ps, v, hp, rfl⟩

theorem AccessNoted.ferryChart (s : State) (f : Nat) (o : FryOp) (d slot : Nat) : AccessNoted s (s.ferryChart f o d slot).2 := by
  unfold State.ferryChart
  split
  · exact .of_chartsRead (ChartsRead.chartOf s _ _ slot)
  · exact .touchCws s _ _

theorem AccessNoted.ferryCheck (s : State) (f : Nat) (o : FryOp) (d : Nat) : AccessNoted s (s.ferryCheck f o d).2 := by
  have charts := (AccessNoted.ferryChart s f o d (fSrc d)).trans
    (AccessNoted.ferryChart (s.ferryChart f o d (fSrc d)).2 f o d (fDst d))
  unfold State.ferryCheck
  dsimp only
  exact .snd_ite (.refl s) (.snd_ite (.snd_ite (.refl s) (.snd_ite (.refl s) (.snd_ite (.refl s) (.refl s))))
    (.snd_ite (.refl s) (.snd_ite charts (.snd_ite charts (.snd_ite charts (.snd_ite charts charts))))))

end Sys2Proof.Machine
end


section
/-! SUPPORT. A Ferry descriptor that fails: what the fault of its context and the end of its work leave of the Ferries (R142, R143,
R208, R209). -/

namespace Sys2Proof.Machine

/-! ### Engines that are freed -/

/-- Engines may have been freed: the Ferries' queues, and every register at an offset at which no freed engine writes one, are as
they were. -/
structure EnginesFreed (s t : State) : Prop where
  queue : ∀ f, (t.fry f).queue = (s.fry f).queue
  reg : ∀ a, a % 0x4000 = 4 → t.reg a = s.reg a

namespace EnginesFreed

variable {s t u : State}

theorem refl (s : State) : EnginesFreed s s := ⟨fun _ => rfl, fun _ _ => rfl⟩

theorem trans (h : EnginesFreed s t) (h' : EnginesFreed t u) : EnginesFreed s u :=
  ⟨fun f => (h'.queue f).trans (h.queue f), fun a ha => (h'.reg a ha).trans (h.reg a ha)⟩

theorem ite {c : Prop} [Decidable c] (ht : EnginesFreed s t) (hu : EnginesFreed s u) : EnginesFreed s (if c then t else u) := by
  split
  · exact ht
  · exact hu

/-- An update of other parts than the Ferries and the registers. -/
theorem of_parts {ps : List Part} (h : KeepsBut ps s t) (hf : .frys ∉ ps) (hr : .regs ∉ ps) : EnginesFreed s t :=
  ⟨fun f => by rw [State.fry_congr (h.2 .frys hf)], fun a _ => State.reg_congr (h.2 .regs hr) a⟩

theorem setReg (s : State) {a : Nat} (v : Word) (h : a % 0x4000 ≠ 4) : EnginesFreed s (s.setReg a v) :=
  ⟨fun f => by rw [State.fry_congr ((s.setReg_keeps a v).2 .frys (by decide))],
    fun _ hb => s.reg_setReg_other v fun e => h (e ▸ hb)⟩

theorem setFld (s : State) {a : Nat} (f : Fld) (v : Nat) (h : a % 0x4000 ≠ 4) : EnginesFreed s (s.setFld a f v) := setReg s _ h

theorem count (s : State) {a : Nat} (n : Nat) (h : a % 0x4000 ≠ 4) : EnginesFreed s (s.count a n) := setReg s _ h

theorem setFry (s : State) (f : Nat) {x : Fry} (h : x.queue = (s.fry f).queue) : EnginesFreed s (s.setFry f x) := by
  refine ⟨fun g => ?_, fun a _ => State.reg_congr (State.setFry_regs s f x) a⟩
  rw [State.fry_setFry]
  split
  case isTrue e => rw [h, e]
  case isFalse => rfl

theorem dropWork (s : State) (id : Nat) : EnginesFreed s (s.dropWork id) := ⟨fun _ => rfl, fun _ _ => rfl⟩

theorem syncEbb (s : State) (p : Nat) : EnginesFreed s (s.syncEbb p) := by
  have apart : Reg.EBB_STATUS p % 0x4000 ≠ 4 := by unfold Reg.EBB_STATUS islWin; omega
  exact (setFld s _ _ apart).trans (setFld _ _ _ apart)

theorem shoalFree (s : State) (p id : Nat) : EnginesFreed s (s.shoalFree p id) := by
  have free := (of_parts (s.setIsl_keeps p { s.isl p with shl := none }) (by decide) (by decide)).trans
    (setFld _ Fd.SHL_STATUS_BUSY 0 (by unfold Reg.SHL_STATUS islWin; omega : Reg.SHL_STATUS p % 0x4000 ≠ 4))
  unfold State.shoalFree
  dsimp only
  split
  · exact .ite (.ite free (free.trans (count _ 1 (by unfold Reg.SHL_CNT_OPS islWin; omega)))) (.refl s)
  · exact .refl s

theorem ferryFree (s : State) (id : Nat) : EnginesFreed s (s.ferryFree id) := by
  unfold State.ferryFree
  split
  case h_1 f hf =>
    have free := (setFry s f (x := { s.fry f with run := none }) rfl).trans
      (setFld _ Fd.FRY_STATUS_BUSY 0 (by unfold Reg.FRY_STATUS qtrWin; omega : Reg.FRY_STATUS (f / 4) (f % 4) % 0x4000 ≠ 4))
    dsimp only
    split
    · have counted (n : Nat) := free.trans (count _ n (by unfold Reg.FRY_CNT_KIB qtrWin; omega :
        Reg.FRY_CNT_KIB (f / 4) (f % 4) % 0x4000 ≠ 4))
      exact .ite (counted _) ((counted _).trans (count _ 1 (by unfold Reg.FRY_CNT_DESC qtrWin; omega)))
    · exact free
  case h_2 => exact .refl s

theorem engineFree (s : State) (w : Work) : EnginesFreed s (s.engineFree w) := by
  unfold State.engineFree
  split
  · exact syncEbb s _
  · exact shoalFree s _ _
  · exact ferryFree s _
  · exact .refl s

theorem islandMark (s : State) (p : Nat) : EnginesFreed s (s.islandMark p) :=
  .ite (of_parts (s.setIsl_keeps p _) (by decide) (by decide)) (.refl s)

end EnginesFreed

/-! ### The completion of work -/

/-- The issuer of a piece of work stays its issuer when the engine has finished with it. -/
theorem State.src_findWork_modWork {s : State} {id : Nat} {w : Work}
    (h : (s.modWork id fun w => { w with done := true }).findWork id = some w) : ∃ v, s.findWork id = some v ∧ w.src = v.src := by
  have same : ((fun w : Work => w.id == id) ∘ fun w => if w.id = id then { w with done := true } else w) = fun w => w.id == id := by
    funext w
    by_cases hw : w.id = id <;> simp [hw]
  rw [State.findWork, State.modWork, List.find?_map, same] at h
  obtain ⟨v, hv, rfl⟩ := Option.map_eq_some_iff.1 h
  refine ⟨v, hv, ?_⟩
  split <;> rfl

/-- The completion of work of a context that does not wait wakes nothing: only its engine is freed (R126, R143). -/
theorem EnginesFreed.workDone {s : State} {p c id : Nat} (hst : s.ctxSt p c ≠ 3)
    (hsrc : ∀ w, s.findWork id = some w → w.src = .ctx p c) : EnginesFreed s (s.workDone id) := by
  have marked : EnginesFreed s (s.modWork id fun w => { w with done := true }) := ⟨fun _ => rfl, fun _ _ => rfl⟩
  unfold State.workDone State.finishWork
  split
  · exact marked
  case h_2 w hw =>
    obtain ⟨v, hv, src⟩ := State.src_findWork_modWork hw
    set u := s.modWork id fun w => { w with done := true }
    have freed : EnginesFreed s ((u.dropWork id).engineFree w) := marked.trans ((EnginesFreed.dropWork u id).trans (.engineFree _ w))
    have awake : ((u.dropWork id).engineFree w).ctxSt p c ≠ 3 := by
      rw [State.ctxSt, State.fld, freed.reg _ (by unfold Reg.ISL_SEQ_STATUS islWin; omega)]
      exact hst
    refine .ite ?_ marked
    dsimp only
    rw [src, hsrc v hv]
    dsimp only
    rw [State.wakeCtx, if_pos awake]
    exact freed.trans (.islandMark _ p)

/-! ### The fault of a context -/

theorem State.dropWait_keeps (s : State) (q p c : Nat) : KeepsBut [.regs, .qtrs] s (s.dropWait q p c) := by
  unfold State.dropWait
  split
  · exact .refl _ s
  · exact ((s.setQtr_keeps q _).trans (State.setReg_keeps _ _ _)).mono (by simp)

theorem State.dropWaits_keeps (s : State) (p c : Nat) : KeepsBut [.regs, .qtrs] s (s.dropWaits p c) := by
  have waits : KeepsBut [.regs, .qtrs] s ((((s.dropWait 0 p c).dropWait 1 p c).dropWait 2 p c).dropWait 3 p c) :=
    ((((s.dropWait_keeps 0 p c).trans (State.dropWait_keeps _ 1 p c)).trans (State.dropWait_keeps _ 2 p c)).trans
      (State.dropWait_keeps _ 3 p c)).mono (by simp)
  have release (s : State) (q : Nat) : KeepsBut [.regs, .qtrs] s (if (s.qtr q).releases.any (fun r => r == (p, c)) then
      s.setQtr q { s.qtr q with releases := (s.qtr q).releases.filter (· ≠ (p, c)) } else s) := by
    split
    · exact (s.setQtr_keeps q _).mono (by simp)
    · exact .refl _ s
  have releases (s : State) (qs : List Nat) : KeepsBut [.regs, .qtrs] s (qs.foldl (fun s q =>
      if (s.qtr q).releases.any (fun r => r == (p, c)) then
        s.setQtr q { s.qtr q with releases := (s.qtr q).releases.filter (· ≠ (p, c)) } else s) s) := by
    induction qs generalizing s with
    | nil => exact .refl _ s
    | cons q qs ih => exact ((release s q).trans (ih _)).mono (by simp)
  exact (waits.trans (releases _ _)).mono (by simp)

theorem State.stopCtx_keeps (s : State) (p c st : Nat) : KeepsBut [.regs, .isls, .qtrs] s (s.stopCtx p c st) := by
  have run := (s.setRun_frame p c 0 st).1
  unfold State.stopCtx
  dsimp only
  split
  · exact ((run.trans (State.dropWaits_keeps _ p c)).trans (State.setCtx_keeps _ p c _)).mono (by simp)
  · exact (run.trans (State.setCtx_keeps _ p c _)).mono (by simp)

theorem State.recordFault_keeps (s : State) (p c code pc info : Nat) : KeepsBut [.regs] s (s.recordFault p c code pc info) := by
  unfold State.recordFault
  split
  · exact s.setReg_keeps _ _
  · exact ((s.setReg_keeps _ _).trans (State.setReg_keeps _ _ _)).mono (by simp)

section
variable (s : State) (p c code pc info : Nat)

/-- The fault of a context leaves the Ferries alone, and of the work takes only signals that are not sent. -/
theorem State.seqFault_frame (h : code ≠ 0x10) : let t := s.seqFault p c code pc info
    t.frys = s.frys ∧ ∃ ids : List Nat, t.work = s.work.filter fun w => !ids.contains w.id := by
  have rest := (((s.discardSigs p c).stopCtx_keeps p c 5).trans (State.recordFault_keeps _ p c code pc info)).trans
    ((AccessNoted.raisePlaus _ p).keeps.trans (State.report_keeps _ .seqFault p
      (code % 256 + c % 2 * 2 ^ 8 + pc % 2 ^ 14 * 2 ^ 9) info))
  dsimp only
  rw [State.seqFault, if_neg h, if_neg h]
  exact ⟨rest.2 .frys (by decide), _, rest.2 .work (by decide)⟩

/-- So the work that is found afterwards was found before. -/
theorem State.findWork_seqFault (h : code ≠ 0x10) {id : Nat} {w : Work} (hw : (s.seqFault p c code pc info).findWork id = some w) :
    s.findWork id = some w := by
  obtain ⟨-, ids, work⟩ := s.seqFault_frame p c code pc info h
  rw [State.findWork, work, List.find?_filter] at hw
  rw [State.findWork, ← hw]
  have kept := List.find?_some hw
  simp only [beq_iff_eq, decide_eq_true_eq] at kept
  obtain ⟨out, same⟩ := kept
  rw [same] at out
  congr 1
  funext v
  by_cases hv : v.id = id
  · simpa [hv] using out
  · simp [hv]

end

/-- The other registers of a fault stand apart from a Ferry's errors and from the contexts' states. -/
theorem State.reg_seqFault_of_stopCtx (s : State) (p : Nat) {c : Nat} (hc : c < 2) (code pc info : Nat) (h : code ≠ 0x10) {a : Nat}
    (ha : a % 0x4000 = 4) : (s.seqFault p c code pc info).reg a = ((s.discardSigs p c).stopCtx p c 5).reg a := by
  have plaus : a ≠ plausReg p := by
    unfold plausReg Reg.TIDE_BCN_PLAUS_LO Reg.TIDE_BCN_PLAUS_HI qtrWin
    split <;> omega
  have fault : a ≠ Reg.ISL_SEQ_FAULT p c := by unfold Reg.ISL_SEQ_FAULT islWin; omega
  have finfo : a ≠ Reg.ISL_SEQ_FINFO p c := by unfold Reg.ISL_SEQ_FINFO islWin; omega
  have record (u : State) : (u.recordFault p c code pc info).reg a = u.reg a := by
    unfold State.recordFault
    split
    · exact State.reg_setFld_other _ _ _ fault
    · rw [State.reg_setReg_other _ _ finfo, State.reg_setReg_other _ _ fault]
  rw [State.seqFault, if_neg h, if_neg h, State.reg_congr (State.report_regs _ _ _ _ _), State.reg_raisePlaus _ _ plaus, record]

theorem State.ctxSt_seqFault (s : State) (p : Nat) {c : Nat} (hc : c < 2) (code pc info : Nat) (h : code ≠ 0x10) :
    (s.seqFault p c code pc info).ctxSt p c = 5 := by
  obtain ⟨stopped, -, -⟩ := (s.discardSigs p c).stopCtx_stops p ⟨c, hc⟩ (st := 5) (by decide)
  rw [State.ctxSt, State.fld, s.reg_seqFault_of_stopCtx p hc code pc info h (by unfold Reg.ISL_SEQ_STATUS islWin; omega)]
  exact stopped

/-- A Ferry's FAULT bit stays set: where the state of a context stands in the same register, STOPPED has its low bit set. -/
theorem State.ferryErr_seqFault (s : State) (f p : Nat) {c : Nat} (hc : c < 2) (code pc info : Nat) (h : code ≠ 0x10)
    (hf : s.bit (Reg.FRY_ERR (f / 4) (f % 4)) Fd.FRY_ERR_FAULT = true) :
    (s.seqFault p c code pc info).bit (Reg.FRY_ERR (f / 4) (f % 4)) Fd.FRY_ERR_FAULT = true := by
  have ctl : Reg.FRY_ERR (f / 4) (f % 4) ≠ Reg.ISL_SEQ_CTL p := by unfold Reg.FRY_ERR Reg.ISL_SEQ_CTL qtrWin islWin; omega
  rw [State.bit_congr (s.reg_seqFault_of_stopCtx p hc code pc info h (by unfold Reg.FRY_ERR qtrWin; omega)), State.bit,
    State.fld_stopCtx _ p c 5 (.inr (by decide)), State.setSt]
  by_cases hs : Reg.FRY_ERR (f / 4) (f % 4) = Reg.ISL_SEQ_STATUS p
  · rw [hs] at hf ctl ⊢
    unfold stFld
    split
    · have low (w : Word) : Fd.FRY_ERR_FAULT.get w = Fd.ISL_SEQ_STATUS_ST0.get w % 2 := by
        simp only [Fld.get, Fd.FRY_ERR_FAULT, Fd.ISL_SEQ_STATUS_ST0]
        omega
      have set := State.fld_setFld_same ((s.discardSigs p c).setFld (Reg.ISL_SEQ_CTL p) (runFld c) 0) (Reg.ISL_SEQ_STATUS p)
        Fd.ISL_SEQ_STATUS_ST0 5 (by decide)
      rw [State.fld] at set ⊢
      rw [low, set]
      rfl
    · rw [State.fld_setFld_disjoint _ _ _ _ _ (by decide) (by decide), State.fld_setFld_other _ _ _ _ ctl]
      exact hf
  · rw [State.fld_setFld_other _ _ _ _ hs, State.fld_setFld_other _ _ _ _ ctl]
    exact hf

/-! ### The fault of a descriptor -/

/-- The work of descriptors is dropped. -/
def State.dropDescs (s : State) (gs : List FryOp) : State := gs.foldl (fun s g => s.dropWork g.id) s

theorem State.dropDescs_keeps (s : State) (gs : List FryOp) : KeepsBut [.work, .remLines] s (s.dropDescs gs) := by
  have one (s : State) (id : Nat) : KeepsBut [.work, .remLines] s (s.dropWork id) := by
    refine ⟨rfl, fun p hp => ?_⟩
    cases p with
    | work => exact absurd (by decide) hp
    | remLines => exact absurd (by decide) hp
    | _ => rfl
  induction gs generalizing s with
  | nil => exact .refl _ s
  | cons g gs ih => exact ((one s g.id).trans (ih (s.dropWork g.id))).mono (by simp)

theorem State.findWork_dropWork_other (s : State) {id g : Nat} (h : g ≠ id) : (s.dropWork g).findWork id = s.findWork id := by
  rw [State.findWork, State.dropWork, List.find?_filter, State.findWork]
  congr 1
  funext w
  by_cases hw : w.id = id <;> simp [hw, h.symm]

theorem State.findWork_dropDescs {gs : List FryOp} (s : State) {id : Nat} (h : ∀ g ∈ gs, g.id ≠ id) :
    (s.dropDescs gs).findWork id = s.findWork id := by
  induction gs generalizing s with
  | nil => rfl
  | cons g gs ih =>
    exact (ih (s.dropWork g.id) fun x hx => h x (List.mem_cons_of_mem _ hx)).trans
      (s.findWork_dropWork_other (h g List.mem_cons_self))

/-- FRY_ERR records a fault: the first one with its code, and a further one as MULTI (R209). -/
def State.ferryErr (s : State) (f code lisl c : Nat) : State :=
  if s.bit (Reg.FRY_ERR (f / 4) (f % 4)) Fd.FRY_ERR_FAULT then s.setFld (Reg.FRY_ERR (f / 4) (f % 4)) Fd.FRY_ERR_MULTI 1
  else (s.setFld (Reg.FRY_ERR (f / 4) (f % 4)) Fd.FRY_ERR_FAULT 1).setReg (Reg.FRY_ERR_INFO (f / 4) (f % 4))
    (BitVec.ofNat 32 (code + lisl * 2 ^ 12 + c * 2 ^ 20))

theorem State.ferryErr_effect (s : State) (f code lisl c : Nat) : let t := s.ferryErr f code lisl c
    t.bit (Reg.FRY_ERR (f / 4) (f % 4)) Fd.FRY_ERR_FAULT = true ∧ KeepsBut [.regs] s t := by
  unfold State.ferryErr
  dsimp only
  split
  case isTrue h =>
    refine ⟨?_, s.setReg_keeps _ _⟩
    rw [State.bit, State.fld_setFld_disjoint _ _ _ _ _ (by decide) (by decide)]
    exact h
  case isFalse =>
    refine ⟨?_, ((s.setReg_keeps _ _).trans (State.setReg_keeps _ _ _)).mono (by simp)⟩
    rw [State.bit, State.fld_setReg_other _ _ _ (by unfold Reg.FRY_ERR Reg.FRY_ERR_INFO; omega),
      State.fld_setFld_same _ _ _ _ (by decide)]
    rfl

/-- A fault of a context's descriptor is recorded and reported (R209). -/
def State.ferryNoted (s : State) (f p c code : Nat) : State :=
  (s.ferryErr f code (s.logicalOf p) c).toHandler
    { engEvent 3 (0x8000 + f) code 0 0 0 with lisl := BitVec.ofNat 8 (s.logicalOf p), sctx := BitVec.ofNat 1 c }

/-- The running descriptor has failed, and those of an issuer that are queued leave the queue with their work (R209). -/
def State.discardDescs (s : State) (f : Nat) (src : WorkSrc) : State :=
  (s.setFry f { queue := (s.fry f).queue.filter (·.src ≠ src), run := (s.fry f).run.map fun r => { r with failed := true } }).dropDescs
    ((s.fry f).queue.filter (·.src = src))

theorem State.ferryFault_ctx (s : State) (f : Nat) {o : FryOp} {p c : Nat} (h : o.src = .ctx p c) (code : Nat) :
    s.ferryFault f o code = (((s.ferryNoted f p c code).discardDescs f (.ctx p c)).engineFault o.id 3 code).syncFry f := by
  obtain ⟨id, src, pc, addr, drain⟩ := o
  cases h
  rfl

theorem State.toHandler_keeps (s : State) (e : FaultEvent) : KeepsBut [.fw] s (s.toHandler e) := by
  refine ⟨rfl, fun p hp => ?_⟩
  cases p with
  | fw => exact absurd (List.mem_singleton.2 rfl) hp
  | _ => rfl

theorem State.ferryNoted_effect (s : State) (f p c code : Nat) : let t := s.ferryNoted f p c code
    t.bit (Reg.FRY_ERR (f / 4) (f % 4)) Fd.FRY_ERR_FAULT = true ∧ KeepsBut [.regs, .fw] s t := by
  obtain ⟨flag, recorded⟩ := s.ferryErr_effect f code (s.logicalOf p) c
  have told := State.toHandler_keeps (s.ferryErr f code (s.logicalOf p) c)
    { engEvent 3 (0x8000 + f) code 0 0 0 with lisl := BitVec.ofNat 8 (s.logicalOf p), sctx := BitVec.ofNat 1 c }
  exact ⟨(State.bit_congr (State.reg_congr (told.2 .regs (by decide)) _) _).trans flag, (recorded.trans told).mono (by simp)⟩

theorem State.discardDescs_effect (s : State) (f : Nat) (src : WorkSrc) : let t := s.discardDescs f src
    (t.fry f).queue = (s.fry f).queue.filter (·.src ≠ src) ∧ KeepsBut [.frys, .work, .remLines] s t
      ∧ ∀ id, (∀ g ∈ (s.fry f).queue, g.id ≠ id) → t.findWork id = s.findWork id := by
  set x : Fry := { queue := (s.fry f).queue.filter (·.src ≠ src), run := (s.fry f).run.map fun r => { r with failed := true } }
  have drop := (s.setFry f x).dropDescs_keeps ((s.fry f).queue.filter (·.src = src))
  have fry : (s.discardDescs f src).fry f = x := by
    rw [State.discardDescs, State.fry_congr (drop.2 .frys (by decide)), State.fry_setFry, if_pos rfl]
  refine ⟨congrArg Fry.queue fry, ((s.setFry_keeps f x).trans drop).mono (by simp), fun id other => ?_⟩
  exact (State.findWork_dropDescs _ fun g hg => other g (List.mem_of_mem_filter hg)).trans
    (State.findWork_congr ((s.setFry_keeps f x).2 .work (by decide)) id)

/-- The fault of a context's descriptor (R209): the context stops, FRY_ERR.FAULT is set, none of the context's descriptors stays in
the queue, and memory is as it was. -/
theorem State.ferryFault_effect (s : State) (f : Nat) {o : FryOp} {p c : Nat} {w : Work} (code : Nat) (hsrc : o.src = .ctx p c)
    (hc : c < 2) (hw : s.findWork o.id = some w) (hwork : w.src = .ctx p c) (hq : ∀ g ∈ (s.fry f).queue, g.id ≠ o.id) :
    let t := s.ferryFault f o code
    t.ctxSt p c = 5 ∧ t.bit (Reg.FRY_ERR (f / 4) (f % 4)) Fd.FRY_ERR_FAULT = true
      ∧ (∀ g ∈ (t.fry f).queue, g.src ≠ .ctx p c) ∧ t.mem = s.mem := by
  obtain ⟨noted, recorded⟩ := s.ferryNoted_effect f p c code
  obtain ⟨left, dropped, found⟩ := (s.ferryNoted f p c code).discardDescs_effect f (.ctx p c)
  rw [State.fry_congr (recorded.2 .frys (by decide))] at left found
  set u := (s.ferryNoted f p c code).discardDescs f (.ctx p c) with hu
  have mem : u.mem = s.mem := (recorded.trans dropped).2 .mem (by decide)
  have hid : u.findWork o.id = some w :=
    (found o.id hq).trans ((State.findWork_congr (recorded.2 .work (by decide)) o.id).trans hw)
  have flag := (State.bit_congr (State.reg_congr (dropped.2 .regs (by decide)) _) _).trans noted
  have fault : u.engineFault o.id 3 code = (u.seqFault p c 0x0F w.pc (3 + code * 16)).workDone o.id := by
    rw [State.engineFault, hid]
    dsimp only
    rw [hwork]
  set v := u.seqFault p c 0x0F w.pc (3 + code * 16) with hv
  have stopped : v.ctxSt p c = 5 := u.ctxSt_seqFault p hc _ _ _ (by decide)
  have freed : EnginesFreed v (v.workDone o.id) := .workDone (by rw [stopped]; decide) fun x hx => by
    have same := u.findWork_seqFault p c _ _ _ (by decide) hx
    rw [hid] at same
    cases same
    exact hwork
  have shown : EnginesFreed (v.workDone o.id) ((v.workDone o.id).syncFry f) :=
    .setFld _ _ _ (by unfold Reg.FRY_STATUS qtrWin; omega)
  have after := freed.trans shown
  rw [s.ferryFault_ctx f hsrc code, ← hu, fault]
  refine ⟨?_, ?_, fun g hg => ?_, ?_⟩
  · rw [← stopped]
    exact congrArg (Fld.get _) (after.reg _ (by unfold Reg.ISL_SEQ_STATUS islWin; omega))
  · rw [State.bit_congr (after.reg _ (by unfold Reg.FRY_ERR qtrWin; omega))]
    exact u.ferryErr_seqFault f p hc _ _ _ (by decide) flag
  · rw [after.queue, State.fry_congr (u.seqFault_frame p c _ _ _ (by decide)).1, left] at hg
    simpa using (List.mem_filter.1 hg).2
  · have done : (v.workDone o.id).mem = v.mem := State.mem_of_accs (State.workDone_accs _ _)
    have fell : v.mem = u.mem := State.mem_of_accs (State.seqFault_accs _ _ _ _ _ _)
    exact ((State.setReg_keeps _ _ _).2 .mem (by decide)).trans (done.trans (fell.trans mem))

/-! ### The begin of a descriptor -/

section
variable {s u : State} {f : Fin 16} {o : FryOp} {rest : List FryOp} {bs : List Byte}

/-- Each of the four instructions starts the oldest descriptor of a Ferry that runs nothing. -/
theorem exec_ferryStart {i : Instr} {op : Nat}
    (hi : (i, op) ∈ [(Instr.move f, 0), (Instr.compress f, 1), (Instr.expand f, 2), (Instr.bytes f, 3)])
    (hrun : (s.fry f).run = none) : exec i s = settled (s.ferryStart f op) := by
  have start (k : State → Nat → FryRun → State) : s.ferryRun f op k = s.ferryStart f op := by rw [State.ferryRun, hrun]
  simp only [List.mem_cons, Prod.mk.injEq, List.not_mem_nil, or_false] at hi
  rcases hi with ⟨rfl, rfl⟩ | ⟨rfl, rfl⟩ | ⟨rfl, rfl⟩ | ⟨rfl, rfl⟩ <;> exact congrArg settled (start _)

/-- How the oldest descriptor is read (R135, R211). -/
def ReadsDesc (s : State) (f : Nat) (o : FryOp) (bs : List Byte) (u : State) : Prop :=
  o.src = .pilot ∧ u = s.touch (ferryAcc s f o 0) [⟨.mem o.addr.toNat, 64⟩]
      ∧ bs = u.peek (ferryAcc s f o 0) [⟨.mem o.addr.toNat, 64⟩]
    ∨ o.src ≠ .pilot ∧ s.fetchVa (ferryAcc s f o 0) o.addr 64 = (.ok bs, u)

theorem ReadsDesc.noted (h : ReadsDesc s f o bs u) : AccessNoted s u := by
  rcases h with ⟨-, rfl, -⟩ | ⟨-, h⟩
  · exact .touch s _ _
  · exact (State.fetchVa_ok h).1

theorem State.ferryStart_eq (op : Nat) (hq : (s.fry f).queue = o :: rest) (h : ReadsDesc s f o bs u) :
    s.ferryStart f op = u.ferryBegin f op o rest (leNat bs) := by
  rw [State.ferryStart, hq]
  rcases h with ⟨hsrc, rfl, rfl⟩ | ⟨hsrc, h⟩
  · obtain ⟨id, src, pc, addr, drain⟩ := o
    cases hsrc
    rfl
  · obtain ⟨id, src, pc, addr, drain⟩ := o
    cases src with
    | pilot => exact absurd rfl hsrc
    | ctx p c =>
      dsimp only at h ⊢
      rw [h]

theorem State.ferryBegin_error {op d code : Nat} {v : State} (hop : fOp d = op)
    (hc : (u.ferryTake f o rest d).ferryCheck f o d = (.error code, v)) : u.ferryBegin f op o rest d = v.ferryFault f o code := by
  rw [State.ferryBegin, if_neg fun h => h.1 hop]
  dsimp only
  rw [hc]

theorem State.ferryBegin_ok {op d a b : Nat} {v : State} (hop : fOp d = op)
    (hc : (u.ferryTake f o rest d).ferryCheck f o d = (.ok (a, b), v)) (hn : 0 < ferrySteps d (fInPlace d a b && fOp d == 0)) :
    u.ferryBegin f op o rest d = v.setFry f { v.fry f with run := some ⟨o, d, [a, b], 0, 0, false⟩ } := by
  rw [State.ferryBegin, if_neg fun h => h.1 hop]
  dsimp only
  rw [hc]
  dsimp only
  rw [if_neg (by omega)]

/-- The oldest descriptor runs, the others stay queued, and the Ferry is shown busy (R208). -/
theorem State.ferryTake_effect (u : State) (f : Nat) (o : FryOp) (rest : List FryOp) (d : Nat) : let t := u.ferryTake f o rest d
    (t.fry f).queue = rest ∧ t.bit (Reg.FRY_STATUS (f / 4) (f % 4)) Fd.FRY_STATUS_BUSY = true ∧ KeepsBut [.regs, .frys] u t := by
  set x : Fry := { queue := rest, run := some ⟨o, d, [], 0, 0, false⟩ }
  set v := (u.setFry f x).setFld (Reg.FRY_STATUS (f / 4) (f % 4)) Fd.FRY_STATUS_BUSY 1 with hv
  have shown : KeepsBut [.regs] (u.setFry f x) (u.ferryTake f o rest d) :=
    (((u.setFry f x).setReg_keeps _ _).trans ((v.setReg_keeps _ _).trans (State.setReg_keeps _ _ _))).mono (by simp)
  refine ⟨?_, ?_, ((u.setFry_keeps f x).trans shown).mono (by simp)⟩
  · rw [State.fry_congr (shown.2 .frys (by decide)), State.fry_setFry, if_pos rfl]
  · rw [State.ferryTake, State.bit, State.syncFry, State.fld_setFld_disjoint _ _ _ _ _ (by decide) (by decide),
      State.fld_setFld_disjoint _ _ _ _ _ (by decide) (by decide), State.fld_setFld_same _ _ _ _ (by decide)]
    rfl

theorem steadyReg_ferryStatus (f : Fin 16) : SteadyReg (Reg.FRY_STATUS (f / 4) (f % 4)) := by
  refine ⟨by unfold QuietReg Reg.FRY_STATUS qtrWin; omega, fun q => ?_⟩
  unfold Reg.FRY_STATUS Reg.CHT_CNT_WALK Reg.STR_TRK_STATUS qtrWin
  omega

/-- The two outcomes of the checks of the oldest descriptor (R203 to R209). -/
theorem ferryBegin_outcomes {i : Instr} {op : Nat}
    (hi : (i, op) ∈ [(Instr.move f, 0), (Instr.compress f, 1), (Instr.expand f, 2), (Instr.bytes f, 3)])
    (hrun : (s.fry f).run = none) (hq : (s.fry f).queue = o :: rest) (hread : ReadsDesc s f o bs u) (hop : fOp (leNat bs) = op) :
    let d := leNat bs
    (∀ a b v, (u.ferryTake f o rest d).ferryCheck f o d = (.ok (a, b), v) → 0 < ferrySteps d (fInPlace d a b && fOp d == 0) →
      Settles i s fun t => (t.fry f).run = some ⟨o, d, [a, b], 0, 0, false⟩ ∧ (t.fry f).queue = rest
        ∧ t.bit (Reg.FRY_STATUS (f / 4) (f % 4)) Fd.FRY_STATUS_BUSY = true ∧ (∀ x, t.byte x = s.byte x))
    ∧ (∀ code v p c w, (u.ferryTake f o rest d).ferryCheck f o d = (.error code, v) → o.src = .ctx p c → c < 2 →
      v.findWork o.id = some w → w.src = .ctx p c → (∀ g ∈ rest, g.id ≠ o.id) →
      Settles i s fun t => t.ctxSt p c = 5 ∧ t.bit (Reg.FRY_ERR (f / 4) (f % 4)) Fd.FRY_ERR_FAULT = true
        ∧ (∀ g ∈ (t.fry f).queue, g.src ≠ .ctx p c) ∧ (∀ x, t.byte x = s.byte x)) := by
  intro d
  have exec := exec_ferryStart hi hrun
  rw [State.ferryStart_eq op hq hread] at exec
  obtain ⟨queue, busy, take⟩ := u.ferryTake_effect f o rest d
  have check := AccessNoted.ferryCheck (u.ferryTake f o rest d) f o d
  have fry : ((u.ferryTake f o rest d).ferryCheck f o d).2.fry f = (u.ferryTake f o rest d).fry f :=
    State.fry_congr check.frys f
  have mem : ((u.ferryTake f o rest d).ferryCheck f o d).2.mem = s.mem :=
    check.mem.trans ((take.2 .mem (by decide)).trans hread.noted.mem)
  refine ⟨fun a b v hv hn => ⟨_, exec, ?_⟩, fun code v p c w hv hsrc hc hw hwork hrest => ⟨_, exec, ?_⟩⟩
  · rw [hv] at check fry mem
    rw [State.ferryBegin_ok hop hv hn, State.fry_setFry, if_pos rfl]
    refine ⟨rfl, (congrArg Fry.queue fry).trans queue, ?_, State.byte_congr ((State.setFry_mem v f _).trans mem)⟩
    rw [State.bit_congr (State.reg_congr (State.setFry_regs v f _) _), State.bit_congr (check.reg _ (steadyReg_ferryStatus f))]
    exact busy
  · rw [hv] at fry mem
    rw [State.ferryBegin_error hop hv]
    obtain ⟨stopped, flag, left, same⟩ := v.ferryFault_effect f code hsrc hc hw hwork (by rw [fry, queue]; exact hrest)
    exact ⟨stopped, flag, left, State.byte_congr (same.trans mem)⟩

end

end Sys2Proof.Machine
end


section
/-! SUPPORT. The steps of a Ferry descriptor that runs (R202 to R205, R208): the bytes that a step puts in one piece of this module's
memory, and its end. -/

namespace Sys2Proof.Machine

/-! ### Bytes that a read gives -/

theorem State.vaPieces_length {s u : State} {A : Acc} {va : Int} {n : Nat} {wr : Bool} {ps : List Piece}
    (h : s.vaPieces A va n wr = (.ok ps, u)) : (ps.map (·.n)).sum = n := by
  unfold State.vaPieces at h
  dsimp only at h
  split at h
  · cases h
  · split at h
    · cases h
      exact Nat.add_zero n
    · split at h
      · cases h
      · cases h
        simp only [List.map_cons, List.map_nil, List.sum_cons, List.sum_nil]
        omega

theorem State.peek_length (s : State) (A : Acc) (ps : List Piece) : (s.peek A ps).length = (ps.map (·.n)).sum := by
  simp [State.peek, List.length_flatMap]

theorem State.fetchVa_length {s u : State} {A : Acc} {va : Int} {n : Nat} {bs : List Byte} (h : s.fetchVa A va n = (.ok bs, u)) :
    bs.length = n := by
  obtain ⟨-, ps, v, pieces, rfl⟩ := State.fetchVa_ok h
  rw [State.peek_length, State.vaPieces_length pieces]

/-! ### Elements that a step reads -/

theorem AccessNoted.planElem (s : State) (A : Acc) (c : Chart) (x : List Int) : AccessNoted s (s.planElem A c x).2 := by
  have pieces := AccessNoted.chartPieces s A c (c.byteOff x)
  unfold State.planElem
  split
  · exact .refl s
  · split
    · exact .refl s
    · split
      · have block := pieces ((c.base : Int) + c.byteOff x) (mxBytes c.fmt) false
        split
        case h_1 u hp => rw [hp] at block; exact block
        case h_2 u hp =>
          rw [hp] at block
          have scale := block.trans (AccessNoted.vaPieces u A (c.scaleVa x) 1 false)
          split
          case h_1 hs => rw [hs] at scale; exact scale
          case h_2 hs => rw [hs] at scale; exact scale
      · have element := pieces (c.va x) c.eb false
        split
        case h_1 hp => rw [hp] at element; exact element
        case h_2 hp => rw [hp] at element; exact element

theorem AccessNoted.planPrefix (s : State) (A : Acc) (c : Chart) (xs : List (List Int)) :
    AccessNoted s (s.planPrefix A c xs).2.2 ∧ (s.planPrefix A c xs).1.length ≤ xs.length := by
  induction xs generalizing s with
  | nil => exact ⟨.refl s, le_rfl⟩
  | cons x xs ih =>
    have first := AccessNoted.planElem s A c x
    unfold State.planPrefix
    split
    case h_1 hp => rw [hp] at first; exact ⟨first, Nat.zero_le _⟩
    case h_2 p u hp =>
      rw [hp] at first
      obtain ⟨rest, length⟩ := ih u
      exact ⟨first.trans rest, Nat.succ_le_succ length⟩

/-- A read of elements that all have come. -/
theorem State.ferryRead_ok {s u : State} {A : Acc} {c : Chart} {xs : List (List Int)} {es : List Elem} {x : Option XFail}
    (h : s.ferryRead A c xs = (some (es, x), u)) : AccessNoted s u ∧ es.length ≤ xs.length := by
  obtain ⟨plans, length⟩ := AccessNoted.planPrefix s A c xs
  unfold State.ferryRead at h
  dsimp only at h
  split at h
  · cases h
  next v asked =>
    have come := AccessNoted.askPieces (s.planPrefix A c xs).2.2 A (plansPieces (s.planPrefix A c xs).1)
    rw [asked] at come
    cases h
    exact ⟨(plans.trans come).trans (.touch v A _), by rw [List.length_map]; exact length⟩

theorem tileElems_length (d t : Nat) : (tileElems d t).length = 1024 := (List.length_map _).trans List.length_range

/-- A tile takes 16 bytes, 128 more where it is packed, and at most four for each pattern (R232 to R234, R242). -/
theorem tileBytes_length_le (fmt thresh : Nat) (vals : List Nat) :
    (tileBytes fmt thresh vals).1.length ≤ 144 + fmtBytes fmt * max vals.length 1024 := by
  have patterns (f : Nat → List Byte) (l : List Nat) (hf : ∀ x, (f x).length = fmtBytes fmt) (hl : l.length ≤ max vals.length 1024) :
      (l.flatMap f).length ≤ fmtBytes fmt * max vals.length 1024 := by
    rw [List.length_flatMap, List.map_congr_left fun x _ => hf x, List.map_const', List.sum_replicate, smul_eq_mul, Nat.mul_comm]
    exact Nat.mul_le_mul_left _ hl
  obtain ⟨kept, -, -⟩ := tileHeader_parts fmt thresh vals
  rw [tileBytes_eq]
  split
  · have body := patterns (leBytes (fmtBytes fmt)) vals (fun x => leBytes_length _ x) (le_max_left _ _)
    simp only [List.length_append, leBytes_length]
    omega
  · have body := patterns (fun b => leBytes (fmtBytes fmt) (vals.getD b 0)) (tileKept fmt vals) (fun x => leBytes_length _ _)
      (kept.trans (le_max_right _ _))
    simp only [List.length_append, leBytes_length]
    omega

/-! ### Bytes put in one piece of this module's memory -/

/-- What an access records of bytes put from an address of this module upward. -/
def hereBytes (pa : Nat) (d : List Byte) : WBytes := (List.range d.length).map fun i => (0, pa + i, d.getD i 0)

theorem State.putPieces_mem {s : State} (A : Acc) {pa : Nat} (d : List Byte) (h : s.accessKind pa true = 0)
    (hidle : s.bit Reg.ISL_SWAP_CTL Fd.ISL_SWAP_CTL_GO = false) :
    s.putPieces A [⟨.mem pa, d.length⟩] d = (hereBytes pa d, s.setBytes pa d) := by
  simp [State.putPieces, hereBytes, h, State.store_of_idle hidle]

section
variable {pa : Nat} {d : List Byte} (h : pa + d.length ≤ 2 ^ 64)
include h

theorem hereBytes_not_void {b : Nat × Nat × Byte} (hb : b ∈ hereBytes pa d) : b.1 = 0 ∧ (b.2.1 == voidAddr) = false := by
  obtain ⟨i, hi, rfl⟩ := List.mem_map.1 hb
  have lt := List.mem_range.1 hi
  exact ⟨rfl, beq_false_of_ne (show pa + i ≠ 2 ^ 64 by omega)⟩

theorem length_hereBytes_filter : ((hereBytes pa d).filter fun b => !(b.1 == 0 && b.2.1 == voidAddr)).length = d.length := by
  rw [List.filter_eq_self.2 fun b hb => by rw [(hereBytes_not_void h hb).2, Bool.and_false]; rfl]
  simp [hereBytes]

/-- The end of an access that put bytes of this module only: what it records of them (R273). -/
theorem AccessNoted.commit (s : State) (A : Acc) : AccessNoted s (s.commit A (hereBytes pa d)) := by
  have void : (hereBytes pa d).any (fun b => b.1 == 0 && b.2.1 == voidAddr) = false := by
    rw [List.any_eq_false]
    intro b hb
    rw [(hereBytes_not_void h hb).2, Bool.and_false]
    decide
  have away : (hereBytes pa d).filter (fun b => b.1 != 0) = [] := by
    rw [List.filter_eq_nil_iff]
    intro b hb
    rw [(hereBytes_not_void h hb).1]
    decide
  unfold State.commit
  dsimp only
  rw [void, away]
  exact .commitCws s A _ _

/-- The end of a step that put bytes of this module only: the descriptor goes on by one step with their number, and memory stays as
the step left it (R208). -/
theorem State.ferryStep_here (s : State) (f : Nat) (r : FryRun) (A : Acc) (total : Nat) :
    let t := s.ferryStep f r A (hereBytes pa d) total none
    t.mem = s.mem ∧ (r.pos + 1 < total → (t.fry f).run = some { r with pos := r.pos + 1, bytes := r.bytes + d.length }) := by
  have noted := AccessNoted.commit h s A
  unfold State.ferryStep
  dsimp only
  rw [length_hereBytes_filter h]
  set u : State := { s.commit A (hereBytes pa d) with remLines := (s.commit A (hereBytes pa d)).remLines.filter (·.work ≠ r.op.id) }
  set x : Fry := { u.fry f with run := some { r with pos := r.pos + 1, bytes := r.bytes + d.length } }
  have mem : (u.setFry f x).mem = s.mem := (State.setFry_mem u f x).trans noted.mem
  constructor
  · split
    · exact (State.mem_of_accs (State.workDone_accs _ _)).trans mem
    · exact mem
  · intro hn
    rw [if_neg (by omega), State.fry_setFry, if_pos rfl]

/-- A step that puts bytes in one piece of this module stores them, and nothing else. -/
theorem State.ferryStep_stores {s u v : State} (hu : AccessNoted s u) (hv : AccessNoted (u.setBytes pa d) v) (f : Nat) (r : FryRun)
    (A : Acc) (total : Nat) : let t := v.ferryStep f r A (hereBytes pa d) total none
    t.bytes pa d.length = d ∧ BytesBut pa d.length s t
      ∧ (r.pos + 1 < total → (t.fry f).run = some { r with pos := r.pos + 1, bytes := r.bytes + d.length }) := by
  intro t
  obtain ⟨mem, run⟩ := v.ferryStep_here h f r A total
  have same : t.mem = (u.setBytes pa d).mem := mem.trans hv.mem
  refine ⟨?_, fun b hb => ?_, run⟩
  · rw [State.bytes_congr same, State.bytes_setBytes_same]
  · exact (State.byte_congr same b).trans ((u.setBytes_bytesBut pa d b hb).trans (hu.byte b))

end

/-! ### Steps -/

section
variable {s u v : State} {f : Fin 16} {r : FryRun} {w : Work} (hrun : (s.fry f).run = some r) (hfail : r.failed = false)
  (hw : s.findWork r.op.id = some w) (hdone : w.done = false)
include hrun hfail hw hdone

/-- A descriptor that runs takes its next step. -/
theorem State.ferryRun_steps {op : Nat} (hop : fOp r.desc = op) (k : State → Nat → FryRun → State) :
    s.ferryRun f op k = k s f r := by
  rw [State.ferryRun, hrun]
  dsimp only
  rw [hw]
  dsimp only
  exact if_pos ⟨hop, by rw [hdone]; rfl, hfail⟩

theorem exec_move (hop : fOp r.desc = 0) (hplace : fInPlace r.desc (r.charts.getD 0 0) (r.charts.getD 1 0) = false) :
    exec (.move f) s = settled (s.moveStep f r) := by
  refine congrArg settled ((s.ferryRun_steps hrun hfail hw hdone hop _).trans ?_)
  rw [hplace, if_neg Bool.false_ne_true]

theorem exec_compress (hop : fOp r.desc = 1) : exec (.compress f) s = settled (s.compressStep f r) :=
  congrArg settled (State.ferryRun_steps hrun hfail hw hdone hop _)

theorem exec_expand (hop : fOp r.desc = 2) : exec (.expand f) s = settled (s.expandStep f r) :=
  congrArg settled (State.ferryRun_steps hrun hfail hw hdone hop _)

theorem exec_bytes (hop : fOp r.desc = 3) : exec (.bytes f) s = settled (s.bytesStep f r) :=
  congrArg settled (State.ferryRun_steps hrun hfail hw hdone hop _)

/-- A BYTES descriptor moves its next line (R205). -/
theorem bytes_stores {bs : List Byte} {pa : Nat} (hidle : s.bit Reg.ISL_SWAP_CTL Fd.ISL_SWAP_CTL_GO = false)
    (hop : fOp r.desc = 3) (hlocal : fRemote r.desc = false) (hdrain : r.op.drain = false)
    (hread : s.fetchVa (ferryAcc s f r.op r.desc) (fSva r.desc + 64 * r.pos : Nat) 64 = (.ok bs, u))
    (hplace : u.vaPieces (ferryAcc s f r.op r.desc) (fDaddr r.desc + 64 * r.pos : Nat) 64 true = (.ok [⟨.mem pa, 64⟩], v))
    (hkind : v.accessKind pa true = 0) (hpa : pa < 2 ^ 63) :
    Settles (.bytes f) s fun t => t.bytes pa 64 = bs ∧ BytesBut pa 64 s t
      ∧ (r.pos + 1 < ferrySteps r.desc false → (t.fry f).run = some { r with pos := r.pos + 1, bytes := r.bytes + 64 }) := by
  have len : bs.length = 64 := State.fetchVa_length hread
  have place := AccessNoted.vaPieces u (ferryAcc s f r.op r.desc) (fDaddr r.desc + 64 * r.pos : Nat) 64 true
  rw [hplace] at place
  have noted := (State.fetchVa_ok hread).1.trans place
  have put := State.putPieces_mem (ferryAcc s f r.op r.desc) bs hkind (noted.swapIdle hidle)
  rw [len] at put
  have step : s.bytesStep f r
      = (v.setBytes pa bs).ferryStep f r (ferryAcc s f r.op r.desc) (hereBytes pa bs) (ferrySteps r.desc false) none := by
    have line : s.bytesRead (ferryAcc s f r.op r.desc) r.op (fSva r.desc + 64 * r.pos) = (.ok bs, u) := by
      rw [State.bytesRead, hdrain, if_neg Bool.false_ne_true]
      exact hread
    rw [State.bytesStep]
    dsimp only
    rw [line]
    dsimp only
    rw [hlocal, if_neg Bool.false_ne_true, hplace]
    dsimp only
    rw [put]
  have stored := State.ferryStep_stores (pa := pa) (d := bs) (by omega) noted (.refl _) f r (ferryAcc s f r.op r.desc)
    (ferrySteps r.desc false)
  rw [len] at stored
  exact ⟨_, exec_bytes hrun hfail hw hdone hop, by rw [step]; exact stored⟩

/-- A COMPRESS descriptor writes its next tile (R204, R232 to R234). -/
theorem compress_stores {es : List Elem} {pa : Nat} (hidle : s.bit Reg.ISL_SWAP_CTL Fd.ISL_SWAP_CTL_GO = false)
    (hop : fOp r.desc = 1)
    (hread : s.ferryRead (ferryAcc s f r.op r.desc) (r.chart 0) ((tileElems r.desc r.pos).map (sumCoord (fSorg r.desc)))
      = (some (es, none), u)) :
    let x := sumCoord (fDorg r.desc) (tileIdx r.desc r.pos)
    let b := r.chart 1
    let z := tileBytes b.fmt (u.ferryThresh r.op r.desc) (es.map (·.pat))
    b.inBounds x = true →
    u.chartPieces (ferryAcc s f r.op r.desc) b (b.slotOff x) ((b.base : Int) + b.slotOff x) z.1.length true
      = (.ok [⟨.mem pa, z.1.length⟩], v) →
    v.accessKind pa true = 0 → pa < 2 ^ 63 →
    Settles (.compress f) s fun t => t.bytes pa z.1.length = z.1 ∧ BytesBut pa z.1.length s t
      ∧ (r.pos + 1 < tileCount r.desc → (t.fry f).run = some { r with pos := r.pos + 1, bytes := r.bytes + z.1.length }) := by
  intro x b z hin hplace hkind hpa
  obtain ⟨read, count⟩ := State.ferryRead_ok hread
  have place := AccessNoted.chartPieces u (ferryAcc s f r.op r.desc) b (b.slotOff x) ((b.base : Int) + b.slotOff x) z.1.length true
  rw [hplace] at place
  have noted := read.trans place
  have put := State.putPieces_mem (ferryAcc s f r.op r.desc) z.1 hkind (noted.swapIdle hidle)
  have dense : AccessNoted (v.setBytes pa z.1)
      (if z.2 = true then (v.setBytes pa z.1).count (Reg.FRY_CNT_DENSE (f / 4) (f % 4)) 1 else v.setBytes pa z.1) := by
    refine .ite (.count _ 1 (not_steadyReg_of_not_quietReg ?_)) (.refl _)
    unfold QuietReg Reg.FRY_CNT_DENSE qtrWin
    omega
  have fits : pa + z.1.length ≤ 2 ^ 64 := by
    have bound := tileBytes_length_le b.fmt (u.ferryThresh r.op r.desc) (es.map (·.pat))
    have width : fmtBytes b.fmt ≤ 4 := by unfold fmtBytes fmtBits; split <;> decide
    rw [List.length_map, tileElems_length] at count
    rw [List.length_map, max_eq_right count] at bound
    change pa + (tileBytes b.fmt (u.ferryThresh r.op r.desc) (es.map (·.pat))).1.length ≤ 2 ^ 64
    omega
  have step : s.compressStep f r
      = (if z.2 = true then (v.setBytes pa z.1).count (Reg.FRY_CNT_DENSE (f / 4) (f % 4)) 1 else v.setBytes pa z.1).ferryStep f r
          (ferryAcc s f r.op r.desc) (hereBytes pa z.1) (tileCount r.desc) none := by
    unfold State.compressStep
    simp only [hread, show b.inBounds x = true from hin, Bool.not_true, Bool.false_eq_true, if_false, hplace, put, x, b, z]
  exact ⟨_, exec_compress hrun hfail hw hdone hop, by
    rw [step]; exact State.ferryStep_stores fits noted dense f r (ferryAcc s f r.op r.desc) (tileCount r.desc)⟩

/-- A MOVE to elements writes the converted elements of its next row (R202, R203). -/
theorem exec_move_row {es : List Elem} {wb : WBytes} (hop : fOp r.desc = 0)
    (hplace : fInPlace r.desc (r.charts.getD 0 0) (r.charts.getD 1 0) = false) (hmx : fmtIsMx (r.chart 1).fmt = false)
    (hread : s.ferryRead (ferryAcc s f r.op r.desc) (r.chart 0)
      ((moveRow r.desc r.pos).map fun x => sumCoord (fSorg r.desc) (srcIdx r.desc x)) = (some (es, none), u))
    (hwrite : u.ferryElems (ferryAcc s f r.op r.desc) f (r.chart 1)
      ((((moveRow r.desc r.pos).map (sumCoord (fDorg r.desc))).zip es).map fun xe =>
        (xe.1, ferryPat u r.desc (r.chart 0).fmt (r.chart 1) xe.1 xe.2)) = (none, wb, v)) :
    exec (.move f) s = .next (tideCheck (v.ferryStep f r (ferryAcc s f r.op r.desc) wb (ferrySteps r.desc false) none)) := by
  refine (exec_move hrun hfail hw hdone hop hplace).trans (congrArg settled ?_)
  unfold State.moveStep
  simp only [hread, hmx, Bool.false_eq_true, if_false, hwrite, Option.map_none, Option.or_none]

/-- An EXPAND whose slot is in bounds writes the elements of its next tile (R204, R235). -/
theorem exec_expand_tile {wb : WBytes} {sl : SlotRead} {tl : Tile} (hop : fOp r.desc = 2)
    (hin : (r.chart 0).inBounds (sumCoord (fSorg r.desc) (tileIdx r.desc r.pos)) = true)
    (hread : s.readSlots (ferryAcc s f r.op r.desc) (r.chart 0) false (fun _ => false)
      [(r.chart 0).slotOff (sumCoord (fSorg r.desc) (tileIdx r.desc r.pos))] = (.ok [sl], u)) (htile : sl.tile = some tl)
    (hwrite : u.ferryElems (ferryAcc s f r.op r.desc) f (r.chart 1) (((tileElems r.desc r.pos).map (sumCoord (fDorg r.desc))).zip
      ((((tileElems r.desc r.pos).map (sumCoord (fSorg r.desc))).zip tl.vals).map fun xv =>
        if (r.chart 0).inBounds xv.1 then xv.2 else (r.chart 0).fillElem.pat)) = (none, wb, v)) :
    exec (.expand f) s = .next (tideCheck (v.ferryStep f r (ferryAcc s f r.op r.desc) wb (tileCount r.desc) none)) := by
  refine (exec_expand hrun hfail hw hdone hop).trans (congrArg settled ?_)
  obtain ⟨slot, hdr, tile⟩ := sl
  cases htile
  unfold State.expandStep
  simp only [hin, Bool.not_true, Bool.false_eq_true, if_false, hread, hwrite]

end

/-- Settles O13: a submission by the room in the queue (`frySubmit_outcomes`), the begin of the oldest descriptor by its checks
(`ferryBegin_outcomes`), and a step of each of the four operations, of which BYTES and COMPRESS store the bytes that they put
(`State.ferryStep_stores`). -/
theorem ferries : Obligations.Ferries := by
  refine ⟨fun r f v s => frySubmit_outcomes, fun f i op s u o rest bs hi hrun hq hread => ferryBegin_outcomes hi hrun hq hread,
    fun f s r w hrun hfail hw hdone hidle => ⟨?_, ?_, ?_, ?_⟩⟩
  · exact fun bs u v pa hop hlocal hdrain => bytes_stores hrun hfail hw hdone hidle hop hlocal hdrain
  · exact fun es u v pa hop hread => compress_stores hrun hfail hw hdone hidle hop hread
  · exact fun es u v wb => exec_move_row hrun hfail hw hdone
  · exact fun u v wb sl tl => exec_expand_tile hrun hfail hw hdone

end Sys2Proof.Machine
end


section
/-! SUPPORT. What a Shoal holds, through the fault of a context and the completion of work (R126, R142, R143, R244). -/

namespace Sys2Proof.Machine

/-- What the Shoal of an Island holds. -/
def Isl.shoalPart (x : Isl) : List ShoalOp × Option ShoalRun := (x.shlq, x.shl)

/-- Every Island is as it was in what `g` reads of it. -/
def IslsAlike {β : Type} (g : Isl → β) (s t : State) : Prop := ∀ p, g (t.isl p) = g (s.isl p)

namespace IslsAlike

variable {β γ : Type} {g : Isl → β} {s t u : State}

theorem refl (g : Isl → β) (s : State) : IslsAlike g s s := fun _ => rfl

theorem trans (h : IslsAlike g s t) (h' : IslsAlike g t u) : IslsAlike g s u := fun p => (h' p).trans (h p)

theorem ite {c : Prop} [Decidable c] (ht : IslsAlike g s t) (hu : IslsAlike g s u) : IslsAlike g s (if c then t else u) := by
  split
  · exact ht
  · exact hu

theorem of_isls (h : t.isls = s.isls) : IslsAlike g s t := fun p => by rw [State.isl_congr h]

/-- A part of what is as it was is as it was. -/
theorem comp (h : IslsAlike g s t) (f : β → γ) : IslsAlike (f ∘ g) s t := fun p => congrArg f (h p)

theorem setIsl (s : State) {p : Nat} {x : Isl} (h : g x = g (s.isl p)) : IslsAlike g s (s.setIsl p x) := by
  intro q
  rw [State.isl_setIsl]
  split
  case isTrue hq => rw [hq, h]
  case isFalse => rfl

end IslsAlike

/-- Every Shoal holds what it held. -/
abbrev ShoalsKept : State → State → Prop := IslsAlike Isl.shoalPart

namespace ShoalsKept

theorem setCtx (s : State) (p c : Nat) (y : Ctx) : ShoalsKept s (s.setCtx p c y) := by
  refine .setIsl s ?_
  unfold Isl.setCtx
  split <;> rfl

theorem raisePlaus (s : State) (p : Nat) : ShoalsKept s (s.raisePlaus p) := by
  unfold State.raisePlaus
  dsimp only
  split
  · exact .setIsl s rfl
  · exact (IslsAlike.setIsl s (p := p) (x := { s.isl p with plaus := true }) rfl).trans (.of_isls rfl)

theorem stopCtx (s : State) (p c st : Nat) : ShoalsKept s (s.stopCtx p c st) := by
  have stopped : ShoalsKept s (s.setRun p c 0 st) := .of_isls ((s.setRun_frame p c 0 st).1.2 .isls (by decide))
  unfold State.stopCtx
  dsimp only
  split
  · exact (stopped.trans (.of_isls (State.dropWaits_isls _ p c))).trans (setCtx _ p c _)
  · exact stopped.trans (setCtx _ p c _)

/-- The fault of a context itself discards nothing that a Shoal holds (R142). -/
theorem seqFault (s : State) (p c code pc info : Nat) : ShoalsKept s (s.seqFault p c code pc info) := by
  have discard : ShoalsKept s (s.discardSigs p c) := (setCtx s p c { s.ctx p c with sigq := [] }).trans (.of_isls rfl)
  have record (s : State) : ShoalsKept s (s.recordFault p c code pc info) :=
    .of_isls ((s.recordFault_keeps p c code pc info).2 .isls (by decide))
  have raise (s : State) : ShoalsKept s (if code = 0x10 then s else s.raisePlaus p) := .ite (.refl _ s) (raisePlaus s p)
  exact ((((IslsAlike.ite (.refl _ s) discard).trans (stopCtx _ p c 5)).trans (record _)).trans (raise _)).trans (.of_isls rfl)

theorem wakeCtx (s : State) (p c : Nat) : ShoalsKept s (s.wakeCtx p c) := by
  have run (st : Nat) : ShoalsKept s
      ((s.setCtx p c { s.ctx p c with wait := .none, waitReported := false, waitCycles := 0 }).setSt p c st) :=
    (setCtx s p c _).trans (.of_isls rfl)
  unfold State.wakeCtx
  dsimp only
  split
  · exact .refl _ s
  · split
    case h_1 => exact .ite (.refl _ s) (run 1)
    case h_2 => exact .ite (.refl _ s) (run 4)
    case h_3 => exact .ite (.refl _ s) (stopCtx s p c 0)
    case h_4 => exact .refl _ s

theorem islandMark (s : State) (p : Nat) : ShoalsKept s (s.islandMark p) := .ite (.setIsl s rfl) (.refl _ s)

end ShoalsKept

/-! ### The completion of work -/

theorem State.ferryFree_isls (s : State) (id : Nat) : (s.ferryFree id).isls = s.isls := by
  unfold State.ferryFree
  split
  · dsimp only
    split
    · split
      · rw [State.count_isls, State.setFld_isls, State.setFry_isls]
      · rw [State.count_isls, State.count_isls, State.setFld_isls, State.setFry_isls]
    · rw [State.setFld_isls, State.setFry_isls]
  · rfl

/-- A freed engine takes nothing from a Shoal's queue. -/
theorem IslsAlike.engineFree (s : State) (w : Work) : IslsAlike Isl.shlq s (s.engineFree w) := by
  unfold State.engineFree
  split
  · exact fun q => by rw [State.isl_syncEbb]
  case h_2 p c _ _ =>
    have free : IslsAlike Isl.shlq s ((s.setIsl p { s.isl p with shl := none }).setFld (Reg.SHL_STATUS p) Fd.SHL_STATUS_BUSY 0) :=
      (IslsAlike.setIsl s (p := p) (x := { s.isl p with shl := none }) rfl).trans (.of_isls rfl)
    unfold State.shoalFree
    dsimp only
    split
    · exact .ite (.ite free (free.trans (.of_isls rfl))) (.refl _ s)
    · exact .refl _ s
  · exact .of_isls (s.ferryFree_isls _)
  · exact .refl _ s

/-- The completion of work takes nothing from a Shoal's queue. -/
theorem IslsAlike.workDone (s : State) (id : Nat) : IslsAlike Isl.shlq s (s.workDone id) := by
  have marked : IslsAlike Isl.shlq s (s.modWork id fun w => { w with done := true }) := .of_isls rfl
  unfold State.workDone State.finishWork
  split
  · exact marked
  case h_2 w hw =>
    set u := s.modWork id fun w => { w with done := true }
    have freed : IslsAlike Isl.shlq s ((u.dropWork id).engineFree w) :=
      (marked.trans (.of_isls rfl)).trans (.engineFree (u.dropWork id) w)
    refine .ite ?_ marked
    dsimp only
    split
    · exact freed.trans (((ShoalsKept.wakeCtx _ _ _).trans (ShoalsKept.islandMark _ _)).comp Prod.fst)
    · exact freed

/-- Work is found under its own number. -/
theorem State.id_findWork {s : State} {id : Nat} {w : Work} (h : s.findWork id = some w) : w.id = id := by
  rw [State.findWork] at h
  simpa using List.find?_some h

/-- Work that its engine has finished is the same work. -/
theorem State.findWork_finished {s : State} {id : Nat} {w : Work} (h : s.findWork id = some w) :
    (s.modWork id fun w => { w with done := true }).findWork id = some { w with done := true } := by
  have same : ((fun w : Work => w.id == id) ∘ fun w => if w.id = id then { w with done := true } else w) = fun w => w.id == id := by
    funext w
    by_cases hw : w.id = id <;> simp [hw]
  have hid := State.id_findWork h
  rw [State.findWork] at h
  rw [State.findWork, State.modWork, List.find?_map, same, h, Option.map_some, if_pos hid]

/-- The completion of the operation that a Shoal runs (R244, R247): the Shoal is free, and the operation is counted. -/
theorem State.workDone_shoal {s : State} {p c : Nat} {w : Work} {r : ShoalRun} (hw : s.findWork r.op.id = some w)
    (hsrc : w.src = .ctx p c) (hout : w.out = 0) (hcls : w.cls = 2) (hrun : (s.isl p).shl = some r) (hfail : r.failed = false) :
    let t := s.workDone r.op.id
    (t.isl p).shoalPart = ((s.isl p).shlq, none)
      ∧ (t.reg (Reg.SHL_CNT_OPS p)).toNat = min ((s.reg (Reg.SHL_CNT_OPS p)).toNat + 1) 0xFFFFFFFF := by
  intro t
  have hid := State.id_findWork hw
  set u := (s.modWork r.op.id fun w => { w with done := true }).dropWork r.op.id with hu
  set f := (u.setIsl p { s.isl p with shl := none }).setFld (Reg.SHL_STATUS p) Fd.SHL_STATUS_BUSY 0 with hf
  have running : (u.isl p).shl = some r := hrun
  have free : u.shoalFree p r.op.id = f.count (Reg.SHL_CNT_OPS p) 1 := by
    unfold State.shoalFree
    dsimp only
    rw [running]
    dsimp only
    rw [if_pos rfl, hfail, if_neg Bool.false_ne_true]
    rfl
  have ht : t = ((f.count (Reg.SHL_CNT_OPS p) 1).wakeCtx p c).islandMark p := by
    have finished : t = ((u.engineFree { w with done := true }).wakeCtx p c).islandMark p := by
      simp only [t, State.workDone, State.finishWork, State.findWork_finished hw, hout, hsrc, Bool.true_and, beq_self_eq_true,
        if_true, hu]
    have engine : u.engineFree { w with done := true } = u.shoalFree p r.op.id := by
      obtain ⟨id, cls, src, pc, done, out⟩ := w
      cases hsrc
      cases hcls
      cases hid
      rfl
    rw [finished, engine, free]
  have woken := (ShoalsKept.wakeCtx (f.count (Reg.SHL_CNT_OPS p) 1) p c).trans (ShoalsKept.islandMark _ p)
  have count : t.reg (Reg.SHL_CNT_OPS p) = (f.count (Reg.SHL_CNT_OPS p) 1).reg (Reg.SHL_CNT_OPS p) := by
    rw [ht, (EbbsKept.islandMark (fun _ => True) _ p).reg _ trivial]
    exact (EbbsKept.wakeCtx _ p c).reg _ (by unfold NotWoken Reg.SHL_CNT_OPS islWin; omega)
  refine ⟨?_, ?_⟩
  · rw [ht, woken p, State.isl_congr (State.count_isls _ _ _), State.isl_congr (State.setFld_isls _ _ _ _), State.setIsl_isl]
    rfl
  · rw [count, State.count_toNat, hf, State.reg_setFld_other _ _ _ (by unfold Reg.SHL_CNT_OPS Reg.SHL_STATUS; omega)]
    rfl

end Sys2Proof.Machine
end


section
/-! SUPPORT. The reads before a Shoal's operation begins (R214, R217, R245, R246): they leave memory alone. -/

namespace Sys2Proof.Machine

namespace AccessNoted

theorem shoalCharts (s : State) (p ctx : Nat) (slots : List Nat) : AccessNoted s (s.shoalCharts p ctx slots).2 := by
  induction slots generalizing s with
  | nil => exact refl s
  | cons slot slots ih =>
    have first := of_chartsRead (ChartsRead.chartOf s p ctx slot)
    have rest := first.trans (ih (s.chartOf p ctx slot).2)
    unfold State.shoalCharts
    dsimp only
    split
    · split
      case h_1 hr => rw [hr] at rest; exact rest
      case h_2 => exact rest
    · exact first

theorem shoalCheck (s : State) (p : Nat) (o : ShoalOp) (d : Nat) : AccessNoted s (s.shoalCheck p o d).2 := by
  have charts := shoalCharts s p (s.mctx p o.c) (sSlots o.sop d)
  unfold State.shoalCheck
  refine .snd_ite (refl s) (.snd_ite (refl s) (.snd_ite (refl s) (.snd_ite (refl s) ?_)))
  split
  case h_1 hc => rw [hc] at charts; exact charts
  case h_2 hc =>
    rw [hc] at charts
    exact .snd_ite charts (.snd_ite charts charts)

end AccessNoted

/-! ### Lists -/

/-- A failed translation is recorded in registers only (R192, R193). -/
theorem State.recordX_keeps (s : State) (A : Acc) (wr : Bool) (f : XFail) : KeepsBut [.regs] s (s.recordX A wr f) := by
  have write {u : State} (h : KeepsBut [.regs] s u) (a : Nat) (v : Word) : KeepsBut [.regs] s (u.setReg a v) :=
    (h.trans (u.setReg_keeps a v)).mono (by simp)
  have noted (c : Prop) [Decidable c] (a b d e : Nat) (v w x y : Word) :
      KeepsBut [.regs] s (if c then s.setReg a v else ((s.setReg b w).setReg d x).setReg e y) := by
    split
    · exact s.setReg_keeps a v
    · exact write (write (s.setReg_keeps b w) d x) e y
  unfold State.recordX
  dsimp only
  split
  · exact write (write (noted _ _ _ _ _ _ _ _ _) _ _) _ _
  · exact write (write (noted _ _ _ _ _ _ _ _ _) _ _) _ _
  · exact write (noted _ _ _ _ _ _ _ _ _) _ _

/-- A read at a device virtual address leaves memory alone, whatever its answer. -/
theorem State.fetchVa_mem (s : State) (A : Acc) (va : Int) (n : Nat) : (s.fetchVa A va n).2.mem = s.mem := by
  have pieces := AccessNoted.vaPieces s A va n false
  unfold State.fetchVa
  split
  case h_1 f u hp => rw [hp] at pieces; exact ((u.recordX_keeps A false f).2 .mem (by decide)).trans pieces.mem
  case h_2 ps u hp =>
    rw [hp] at pieces
    have asked := pieces.trans (AccessNoted.askPieces u A ps)
    split
    case h_1 ha => rw [ha] at asked; exact asked.mem
    case h_2 ha => rw [ha] at asked; exact (asked.trans (AccessNoted.touch _ A ps)).mem

theorem State.readList_mem (s : State) (A : Acc) (fuel va n : Nat) : (s.readList A fuel va n).2.mem = s.mem := by
  induction fuel generalizing s va n with
  | zero => rfl
  | succ fuel ih =>
    unfold State.readList
    dsimp only
    split
    · rfl
    · have page := s.fetchVa_mem A va (4 * min n ((2 ^ 21 - va % 2 ^ 21) / 4))
      split
      case h_1 bs u hp =>
        rw [hp] at page
        have rest := (ih u (va + 4 * min n ((2 ^ 21 - va % 2 ^ 21) / 4)) (n - min n ((2 ^ 21 - va % 2 ^ 21) / 4))).trans page
        split
        case h_1 hr => rw [hr] at rest; exact rest
        case h_2 => exact rest
      case h_2 hp => rw [hp] at page; exact page
      case h_3 hp => rw [hp] at page; exact page

theorem State.readLists_mem (s : State) (A : Acc) (l : List (Nat × Nat)) : (s.readLists A l).2.mem = s.mem := by
  induction l generalizing s with
  | nil => rfl
  | cons x l ih =>
    obtain ⟨va, n⟩ := x
    have list : (s.listAt A va n).2.mem = s.mem := s.readList_mem A _ va n
    unfold State.readLists
    split
    case h_1 ws u hl =>
      rw [hl] at list
      have rest := (ih u).trans list
      split
      case h_1 hr => rw [hr] at rest; exact rest
      case h_2 => exact rest
    case h_2 hl => rw [hl] at list; exact list
    case h_3 hl => rw [hl] at list; exact list

theorem State.readWordsAt_mem (s : State) (A : Acc) (va : Nat) (is : List Nat) : (s.readWordsAt A va is).2.mem = s.mem := by
  induction is generalizing s with
  | nil => rfl
  | cons i is ih =>
    have word := s.fetchVa_mem A (va + 4 * i : Nat) 4
    unfold State.readWordsAt
    split
    case h_1 b u hw =>
      rw [hw] at word
      have rest := (ih u).trans word
      split
      case h_1 hr => rw [hr] at rest; exact rest
      case h_2 => exact rest
    case h_2 hw => rw [hw] at word; exact word
    case h_3 hw => rw [hw] at word; exact word

/-- The lists of an operation are read and not written (R217). -/
theorem State.shoalLists_mem (s : State) (A : Acc) (sop d : Nat) : (s.shoalLists A sop d).2.mem = s.mem := by
  unfold State.shoalLists
  dsimp only
  split
  case h_1 => exact s.readLists_mem A _
  case h_2 => exact s.readLists_mem A _
  case h_3 => exact s.readLists_mem A _
  case h_4 => exact s.readLists_mem A _
  case h_5 => split; exacts [rfl, s.readLists_mem A _]
  case h_6 => rfl
  case h_7 =>
    have lists := s.readLists_mem A [(sIdx d, sCount d), (sAuxVa d, sCount d)]
    split
    case h_1 ls u hl =>
      rw [hl] at lists
      have words := (u.readWordsAt_mem A (sLva d) (ls.getD 0 []).eraseDups).trans lists
      split
      case h_1 hw => rw [hw] at words; exact words
      case h_2 hw => rw [hw] at words; exact words
      case h_3 hw => rw [hw] at words; exact words
    case h_2 => exact lists

end Sys2Proof.Machine
end


section
/-! SUPPORT. The begin of a Shoal's oldest operation, and the fault of one that fails a check (R216 to R218, R244 to R246). -/

namespace Sys2Proof.Machine

/-! ### The oldest operation is taken -/

/-- The oldest operation runs, the others stay queued, and the Shoal is shown busy with it (R244, R247). -/
theorem State.shoalTake_effect (s : State) (p : Nat) (o : ShoalOp) (rest : List ShoalOp) (d : Nat) : let t := s.shoalTake p o rest d
    t.isl p = { s.isl p with shlq := rest, shl := some ⟨o, d, [], [], 0, [], false⟩ }
      ∧ t.bit (Reg.SHL_STATUS p) Fd.SHL_STATUS_BUSY = true ∧ t.fld (Reg.SHL_STATUS p) Fd.SHL_STATUS_SOP = o.sop % 16
      ∧ KeepsBut [.regs, .isls] s t ∧ RegsBut [Reg.SHL_STATUS p] s t := by
  intro t
  set u := s.setIsl p { s.isl p with shlq := rest, shl := some ⟨o, d, [], [], 0, [], false⟩ }
  set b := u.setFld (Reg.SHL_STATUS p) Fd.SHL_STATUS_BUSY 1
  set f := b.setFld (Reg.SHL_STATUS p) Fd.SHL_STATUS_SOP o.sop
  have ht : t = f.setFld (Reg.SHL_STATUS p) Fd.SHL_STATUS_QDEPTH (f.isl p).shlq.length := rfl
  have shown : KeepsBut [.regs] u t := ((u.setReg_keeps _ _).trans ((b.setReg_keeps _ _).trans (f.setReg_keeps _ _))).mono (by simp)
  refine ⟨?_, ?_, ?_, ((s.setIsl_keeps p _).trans shown).mono (by simp), ?_⟩
  · rw [State.isl_congr (shown.2 .isls (by decide)), State.setIsl_isl]
  · rw [ht, State.bit, State.fld_setFld_disjoint _ _ _ _ _ (by decide) (by decide),
      State.fld_setFld_disjoint _ _ _ _ _ (by decide) (by decide), State.fld_setFld_same _ _ _ _ (by decide)]
    rfl
  · rw [ht, State.fld_setFld_disjoint _ _ _ _ _ (by decide) (by decide), State.fld_setFld_same _ _ _ _ (by decide)]
    rfl
  · exact (u.setReg_regsBut _ _).trans ((b.setReg_regsBut _ _).trans (f.setReg_regsBut _ _))

/-! ### The fault of an operation -/

/-- SHL_ERR records a fault: the first one with its code and entry, and a further one as MULTI (R246). -/
def State.shoalErr (s : State) (p : Nat) (o : ShoalOp) (code entry : Nat) : State :=
  if s.bit (Reg.SHL_ERR p) Fd.SHL_ERR_FAULT then s.setFld (Reg.SHL_ERR p) Fd.SHL_ERR_MULTI 1
  else ((s.setFld (Reg.SHL_ERR p) Fd.SHL_ERR_FAULT 1).setReg (Reg.SHL_ERR_INFO p)
    (BitVec.ofNat 32 (code + o.sop * 2 ^ 12 + o.c * 2 ^ 16))).setReg (Reg.SHL_ERR_ENTRY p) (BitVec.ofNat 32 entry)

/-- The running operation has failed, and those of a context that are queued leave the queue with their work (R246). -/
def State.discardShoals (s : State) (p c : Nat) : State :=
  ((s.isl p).shlq.filter fun d => d.c = c).foldl (fun s d => s.dropWork d.id)
    (s.setIsl p { s.isl p with
      shlq := (s.isl p).shlq.filter (fun d => d.c ≠ c), shl := (s.isl p).shl.map fun r => { r with failed := true } })

theorem State.shoalFault_eq (s : State) (p : Nat) (o : ShoalOp) (code entry : Nat) : s.shoalFault p o code entry
    = (((s.shoalErr p o code entry).discardShoals p o.c).engineFault o.id 2 code).syncShl p := rfl

theorem State.shoalErr_effect (s : State) (p : Nat) (o : ShoalOp) (code entry : Nat) : let t := s.shoalErr p o code entry
    t.fld (Reg.SHL_ERR p) Fd.SHL_ERR_FAULT = 1 ∧ KeepsBut [.regs] s t := by
  unfold State.shoalErr
  dsimp only
  split
  case isTrue h =>
    rw [State.fld_setFld_disjoint _ _ _ _ _ (by decide) (by decide)]
    exact ⟨beq_iff_eq.1 h, s.setReg_keeps _ _⟩
  case isFalse =>
    have apart : Reg.SHL_ERR p ≠ Reg.SHL_ERR_ENTRY p ∧ Reg.SHL_ERR p ≠ Reg.SHL_ERR_INFO p := by
      unfold Reg.SHL_ERR Reg.SHL_ERR_ENTRY Reg.SHL_ERR_INFO
      omega
    rw [State.fld_setReg_other _ _ _ apart.1, State.fld_setReg_other _ _ _ apart.2, State.fld_setFld_same _ _ _ _ (by decide)]
    exact ⟨rfl, ((s.setReg_keeps _ _).trans ((State.setReg_keeps _ _ _).trans (State.setReg_keeps _ _ _))).mono (by simp)⟩

/-- Work stays that is none of the work dropped. -/
theorem State.findWork_foldl_dropWork {α : Type} (f : α → Nat) {xs : List α} (s : State) {id : Nat} (h : ∀ x ∈ xs, f x ≠ id) :
    (xs.foldl (fun s x => s.dropWork (f x)) s).findWork id = s.findWork id := by
  induction xs generalizing s with
  | nil => rfl
  | cons x xs ih =>
    exact (ih (s.dropWork (f x)) fun y hy => h y (List.mem_cons_of_mem _ hy)).trans
      (s.findWork_dropWork_other (h x List.mem_cons_self))

theorem State.discardShoals_effect (s : State) (p c : Nat) : let t := s.discardShoals p c
    (t.isl p).shlq = (s.isl p).shlq.filter (fun d => d.c ≠ c) ∧ t.regs = s.regs ∧ t.mem = s.mem
      ∧ ∀ id, (∀ d ∈ (s.isl p).shlq, d.id ≠ id) → t.findWork id = s.findWork id := by
  intro t
  set x : Isl := { s.isl p with
    shlq := (s.isl p).shlq.filter (fun d => d.c ≠ c), shl := (s.isl p).shl.map fun r => { r with failed := true } }
  have dropped {β : Type} {g : State → β} (h : ∀ s id, g (s.dropWork id) = g s) : g t = g (s.setIsl p x) :=
    foldl_keeps (f := fun (s : State) (d : ShoalOp) => s.dropWork d.id) (fun s d => h s d.id) _ _
  refine ⟨?_, dropped (g := State.regs) fun _ _ => rfl, dropped (g := State.mem) fun _ _ => rfl, fun id other => ?_⟩
  · rw [State.isl_congr (dropped (g := State.isls) fun _ _ => rfl), State.setIsl_isl]
  · exact State.findWork_foldl_dropWork ShoalOp.id _ fun d hd => other d (List.mem_of_mem_filter hd)

/-- The fault of an operation (R246): its context stops, SHL_ERR.FAULT is set, none of the context's operations stays in the queue,
and memory is as it was. -/
theorem State.shoalFault_effect (s : State) (p : Fin 144) {o : ShoalOp} {w : Work} (code entry : Nat) (hw : s.findWork o.id = some w)
    (hsrc : w.src = .ctx p o.c) (hc : o.c < 2) (hq : ∀ d ∈ (s.isl p).shlq, d.id ≠ o.id) : let t := s.shoalFault p o code entry
    t.ctxSt p o.c = 5 ∧ t.bit (Reg.SHL_ERR p) Fd.SHL_ERR_FAULT = true
      ∧ (∀ d ∈ (t.isl p).shlq, d.c ≠ o.c) ∧ t.mem = s.mem := by
  intro t
  obtain ⟨noted, recorded⟩ := s.shoalErr_effect p o code entry
  obtain ⟨left, regs, mem, found⟩ := (s.shoalErr p o code entry).discardShoals_effect p o.c
  rw [State.isl_congr (recorded.2 .isls (by decide))] at left found
  set u := (s.shoalErr p o code entry).discardShoals p o.c with hu
  have hid : u.findWork o.id = some w :=
    (found o.id hq).trans ((State.findWork_congr (recorded.2 .work (by decide)) o.id).trans hw)
  set v := u.seqFault p o.c 0x0F w.pc (2 + code * 16) with hv
  have fault : u.engineFault o.id 2 code = v.workDone o.id := by
    rw [State.engineFault, hid]
    dsimp only
    rw [hsrc]
  set f := v.workDone o.id with hf
  have ht : t = f.setFld (Reg.SHL_STATUS p) Fd.SHL_STATUS_QDEPTH (f.isl p).shlq.length :=
    (s.shoalFault_eq p o code entry).trans (by rw [← hu, fault, State.syncShl])
  have stopped : v.ctxSt p o.c = 5 := u.ctxSt_seqFault p hc _ _ _ (by decide)
  refine ⟨?_, ?_, ?_, ?_⟩
  · rw [ht, State.ctxSt, State.fld_setFld_other _ _ _ _ (by unfold Reg.ISL_SEQ_STATUS Reg.SHL_STATUS; omega)]
    exact (v.ctxSt_workDone p o.id (by rw [stopped]; decide)).trans stopped
  · have done : f.reg (Reg.SHL_ERR p) = v.reg (Reg.SHL_ERR p) :=
      (EbbsKept.workDone v o.id).reg _ (by unfold NotFreed NotWoken Reg.SHL_ERR islWin qtrWin; omega)
    have fell : v.fld (Reg.SHL_ERR p) Fd.SHL_ERR_FAULT = u.fld (Reg.SHL_ERR p) Fd.SHL_ERR_FAULT :=
      u.fld_seqFault p ⟨o.c, hc⟩ _ _ _ (off := 0x4008) (by decide) (by decide) (by decide)
    have flag : u.fld (Reg.SHL_ERR p) Fd.SHL_ERR_FAULT = 1 := (congrArg (Fld.get _) (State.reg_congr regs _)).trans noted
    rw [ht, State.bit, State.fld_setFld_other _ _ _ _ (by unfold Reg.SHL_ERR Reg.SHL_STATUS; omega), State.fld, done]
    exact beq_iff_eq.2 (fell.trans flag)
  · have queue : (t.isl p).shlq = (s.isl p).shlq.filter fun d => d.c ≠ o.c := by
      rw [ht, State.isl_congr (State.setFld_isls _ _ _ _), IslsAlike.workDone v o.id p, ← left]
      exact (ShoalsKept.seqFault u p o.c _ _ _).comp Prod.fst p
    intro d hd
    rw [queue] at hd
    simpa using (List.mem_filter.1 hd).2
  · have done : f.mem = v.mem := State.mem_of_accs (State.workDone_accs _ _)
    have fell : v.mem = u.mem := State.mem_of_accs (State.seqFault_accs _ _ _ _ _ _)
    rw [ht]
    exact done.trans (fell.trans (mem.trans (recorded.2 .mem (by decide))))

/-! ### The begin of an operation -/

/-- A Shoal instruction goes by its sub-operation (R216): in its run phase it is a step of the Shoal. -/
theorem exec_shoal {p : Fin 144} {i : ShoalPhase → Instr} {sop : Nat} (s : State)
    (hi : (i, sop) ∈ [(Instr.gather p, 0), (Instr.scatter p, 1), (Instr.shoalMerge p, 2), (Instr.segred p, 3), (Instr.topk p, 4),
      (Instr.pack p, 5), (Instr.unpack p, 6), (Instr.spmm p, 7)]) :
    sop < 8 ∧ ∃ f, exec (i .run) s = settled (s.shoalStep p sop f) := by
  simp only [List.mem_cons, Prod.mk.injEq, List.not_mem_nil, or_false] at hi
  rcases hi with ⟨rfl, rfl⟩ | ⟨rfl, rfl⟩ | ⟨rfl, rfl⟩ | ⟨rfl, rfl⟩ | ⟨rfl, rfl⟩ | ⟨rfl, rfl⟩ | ⟨rfl, rfl⟩ | ⟨rfl, rfl⟩ <;>
    exact ⟨by decide, _, rfl⟩

section
variable {s u v : State} {p : Fin 144} {o : ShoalOp} {rest : List ShoalOp} {bs : List Byte}

/-- A Shoal that runs nothing begins its oldest operation, whose descriptor has come (R244). -/
theorem State.shoalStep_begins (f : State → Nat → ShoalRun → State) (hrun : (s.isl p).shl = none) (hq : (s.isl p).shlq = o :: rest)
    (hread : s.fetchVa (shoalAcc s p o) o.desc 64 = (.ok bs, u)) : s.shoalStep p o.sop f = u.shoalBegin p o rest (leNat bs) := by
  rw [State.shoalStep, hrun]
  dsimp only
  rw [State.shoalStart, hq]
  dsimp only
  rw [if_neg (not_not.2 rfl), hread]

theorem State.shoalBegin_error {d code : Nat} (h : u.shoalCheck p o d = (.error code, v)) :
    u.shoalBegin p o rest d = (v.shoalTake p o rest d).shoalFault p o code 0 := by
  rw [State.shoalBegin, h]

theorem State.shoalBegin_empty {d : Nat} {cs : List Nat} (h : u.shoalCheck p o d = (.ok cs, v)) (hn : sCount d = 0)
    (hclear : ¬(o.sop = 4 ∧ sCclr d = true)) : u.shoalBegin p o rest d = (v.shoalTake p o rest d).workDone o.id := by
  rw [State.shoalBegin, h]
  dsimp only
  rw [if_pos hn, if_neg hclear]

theorem State.shoalBegin_runs {d : Nat} {cs : List Nat} {ls : List (List Nat)} {x : State} (h : u.shoalCheck p o d = (.ok cs, v))
    (hn : 0 < sCount d) (hlists : v.shoalLists (shoalAcc u p o) o.sop d = (.ok ls, x))
    (hfree : overlapping (shoalRegions o.sop d (cs.map parseChart) ls).1 (shoalRegions o.sop d (cs.map parseChart) ls).2 = false)
    (hclear : ¬(o.sop = 4 ∧ sCclr d = true)) :
    u.shoalBegin p o rest d = (x.shoalTake p o rest d).shoalRunning p ⟨o, d, cs, ls, 0, [], false⟩ := by
  rw [State.shoalBegin, h]
  dsimp only
  rw [if_neg hn.ne', hlists]
  dsimp only
  rw [hfree, if_neg Bool.false_ne_true, if_neg hclear]

/-- An operation whose checks pass and whose regions lie apart runs, with its Charts and lists (R217, R244, R245). -/
theorem State.shoalBegin_runs_effect {d : Nat} {cs : List Nat} {ls : List (List Nat)} {x : State}
    (h : u.shoalCheck p o d = (.ok cs, v)) (hn : 0 < sCount d) (hlists : v.shoalLists (shoalAcc u p o) o.sop d = (.ok ls, x))
    (hfree : overlapping (shoalRegions o.sop d (cs.map parseChart) ls).1 (shoalRegions o.sop d (cs.map parseChart) ls).2 = false)
    (hclear : ¬(o.sop = 4 ∧ sCclr d = true)) : let t := u.shoalBegin p o rest d
    (t.isl p).shl = some ⟨o, d, cs, ls, 0, [], false⟩ ∧ (t.isl p).shlq = rest
      ∧ t.bit (Reg.SHL_STATUS p) Fd.SHL_STATUS_BUSY = true ∧ t.fld (Reg.SHL_STATUS p) Fd.SHL_STATUS_SOP = o.sop % 16
      ∧ t.mem = u.mem := by
  have checked := (AccessNoted.shoalCheck u p o d).mem
  have read := v.shoalLists_mem (shoalAcc u p o) o.sop d
  rw [h] at checked
  rw [hlists] at read
  obtain ⟨taken, busy, shown, keeps, -⟩ := x.shoalTake_effect p o rest d
  rw [State.shoalBegin_runs h hn hlists hfree hclear]
  set t := x.shoalTake p o rest d
  have runs := t.setIsl_keeps p { t.isl p with shl := some ⟨o, d, cs, ls, 0, [], false⟩ }
  have regs := State.reg_congr (runs.2 .regs (by decide)) (Reg.SHL_STATUS p)
  have held := t.setIsl_isl p { t.isl p with shl := some ⟨o, d, cs, ls, 0, [], false⟩ }
  exact ⟨congrArg Isl.shl held, (congrArg Isl.shlq held).trans (congrArg Isl.shlq taken), (State.bit_congr regs _).trans busy,
    (congrArg (Fld.get _) regs).trans shown, (runs.2 .mem (by decide)).trans ((keeps.2 .mem (by decide)).trans (read.trans checked))⟩

/-- An operation with COUNT 0 completes at once (R217). -/
theorem State.shoalBegin_empty_effect {d : Nat} {cs : List Nat} {w : Work} (h : u.shoalCheck p o d = (.ok cs, v))
    (hn : sCount d = 0) (hclear : ¬(o.sop = 4 ∧ sCclr d = true)) (hw : v.findWork o.id = some w) (hsrc : w.src = .ctx p o.c)
    (hout : w.out = 0) (hcls : w.cls = 2) : let t := u.shoalBegin p o rest d
    (t.isl p).shl = none ∧ (t.isl p).shlq = rest
      ∧ (t.reg (Reg.SHL_CNT_OPS p)).toNat = min ((v.reg (Reg.SHL_CNT_OPS p)).toNat + 1) 0xFFFFFFFF ∧ t.mem = u.mem := by
  have checked := (AccessNoted.shoalCheck u p o d).mem
  rw [h] at checked
  obtain ⟨taken, -, -, keeps, regs⟩ := v.shoalTake_effect p o rest d
  rw [State.shoalBegin_empty h hn hclear]
  obtain ⟨part, count⟩ := State.workDone_shoal (r := ⟨o, d, [], [], 0, [], false⟩)
    ((State.findWork_congr (keeps.2 .work (by decide)) o.id).trans hw) hsrc hout hcls (congrArg Isl.shl taken) rfl
  rw [regs _ (by simp [Reg.SHL_CNT_OPS, Reg.SHL_STATUS])] at count
  exact ⟨congrArg Prod.snd part, (congrArg Prod.fst part).trans (congrArg Isl.shlq taken), count,
    (State.mem_of_accs (State.workDone_accs _ _)).trans ((keeps.2 .mem (by decide)).trans checked)⟩

/-- An operation whose descriptor fails a check stops its context (R246). -/
theorem State.shoalBegin_error_effect {d code : Nat} {w : Work} (h : u.shoalCheck p o d = (.error code, v))
    (hw : v.findWork o.id = some w) (hsrc : w.src = .ctx p o.c) (hc : o.c < 2) (hrest : ∀ x ∈ rest, x.id ≠ o.id) :
    let t := u.shoalBegin p o rest d
    t.ctxSt p o.c = 5 ∧ t.bit (Reg.SHL_ERR p) Fd.SHL_ERR_FAULT = true ∧ (∀ x ∈ (t.isl p).shlq, x.c ≠ o.c) ∧ t.mem = u.mem := by
  have checked := (AccessNoted.shoalCheck u p o d).mem
  rw [h] at checked
  obtain ⟨taken, -, -, keeps, -⟩ := v.shoalTake_effect p o rest d
  obtain ⟨stopped, flag, left, same⟩ := (v.shoalTake p o rest d).shoalFault_effect p code 0
    ((State.findWork_congr (keeps.2 .work (by decide)) o.id).trans hw) hsrc hc (by rw [taken]; exact hrest)
  rw [State.shoalBegin_error h]
  exact ⟨stopped, flag, left, same.trans ((keeps.2 .mem (by decide)).trans checked)⟩

end

end Sys2Proof.Machine
end


section
/-! SUPPORT. The steps of a Shoal's operation that runs (R219 to R222, R227, R230, R231). -/

namespace Sys2Proof.Machine

section
variable {s : State} {p : Fin 144} {r : ShoalRun} {w : Work} (hrun : (s.isl p).shl = some r) (hfail : r.failed = false)
  (hw : s.findWork r.op.id = some w) (hdone : w.done = false)
include hrun hfail hw hdone

/-- An operation that runs takes its next step. -/
theorem State.shoalStep_steps {sop : Nat} (hsop : r.op.sop = sop) (f : State → Nat → ShoalRun → State) :
    s.shoalStep p sop f = f s p r := by
  rw [State.shoalStep, hrun]
  dsimp only
  rw [hw]
  dsimp only
  exact if_pos ⟨hsop, by rw [hdone]; rfl, hfail⟩

/-- GATHER, SCATTER, PACK and UNPACK step by rows (R219, R220, R230, R231). -/
theorem exec_shoalRow {i : ShoalPhase → Instr}
    (hi : (i, r.op.sop) ∈ [(Instr.gather p, 0), (Instr.scatter p, 1), (Instr.pack p, 5), (Instr.unpack p, 6)]) :
    exec (i .run) s = settled (s.runRow p r) := by
  have step {sop : Nat} (hsop : r.op.sop = sop) : settled (s.shoalStep p sop State.runRow) = settled (s.runRow p r) :=
    congrArg settled (State.shoalStep_steps hrun hfail hw hdone hsop _)
  simp only [List.mem_cons, Prod.mk.injEq, List.not_mem_nil, or_false] at hi
  rcases hi with ⟨rfl, h⟩ | ⟨rfl, h⟩ | ⟨rfl, h⟩ | ⟨rfl, h⟩ <;> exact step h

theorem exec_segred (hsop : r.op.sop = 3) : exec (.segred p .run) s = settled (s.runSegred p r) :=
  congrArg settled (State.shoalStep_steps hrun hfail hw hdone hsop _)

end

section
variable {s u v : State} {p : Nat} {r : ShoalRun}

/-- An entry with a source row that is read and written without a failure (R219, R220). -/
theorem State.runRow_row {xs : List (List Int)} {l : LaneRes} (hrow : (entryRows r.op.sop r.desc r.lists r.pos).1 = some xs)
    (hread : s.laneRead (shoalAcc s p r.op) p r (r.pos % 32) (r.chart 0) xs = (some l, u)) (hl : l.fail = none)
    (hwrite : (u.shoalRunning p l.run).dstElems (shoalAcc s p r.op) p (r.chart 1) (sMrg r.op.sop r.desc) {}
      (((entryRows r.op.sop r.desc r.lists r.pos).2.zip l.vals).map fun xv =>
        (xv.1, shoalPat (u.shoalRunning p l.run) r.desc (r.chart 1) (sMrg r.op.sop r.desc).mop xv.1 xv.2)) = (none, v)) :
    s.runRow p r = v.shoalNext p l.run (sCount r.desc) := by
  unfold State.runRow
  dsimp only
  rw [hrow]
  dsimp only
  rw [hread]
  dsimp only
  rw [hwrite, hl]
  rfl

/-- An entry of PACK whose position is beyond its expert's capacity has no row (R230). -/
theorem entryRows_pack_full {d i : Nat} {ls : List (List Nat)} (h : (ls.getD 2 []).getD i 0 ≤ (ls.getD 1 []).getD i 0) :
    entryRows 5 d ls i = (none, []) := if_pos h

/-- An entry of UNPACK whose position is beyond its expert's capacity has a destination only (R231). -/
theorem entryRows_unpack_full {d i : Nat} {ls : List (List Nat)} (h : (ls.getD 2 []).getD i 0 ≤ (ls.getD 1 []).getD i 0) :
    entryRows 6 d ls i = (none, rowCoords (sDorg d) (sRowlen d) i 0) := congrArg (·, _) (if_pos h)

theorem State.runRow_pack_full (hsop : r.op.sop = 5) (h : (r.lists.getD 2 []).getD r.pos 0 ≤ (r.lists.getD 1 []).getD r.pos 0) :
    s.runRow p r = (s.count (Reg.SHL_CNT_CAPDROP p) 1).shoalNext p r (sCount r.desc) := by
  unfold State.runRow
  dsimp only
  rw [hsop, entryRows_pack_full h]
  rfl

theorem State.runRow_unpack_full (hsop : r.op.sop = 6) (h : (r.lists.getD 2 []).getD r.pos 0 ≤ (r.lists.getD 1 []).getD r.pos 0)
    (hwrite : s.dstElems (shoalAcc s p r.op) p (r.chart 1) (sMrg r.op.sop r.desc) {}
      ((rowCoords (sDorg r.desc) (sRowlen r.desc) r.pos 0).map fun x => (x, 0)) = (none, v)) :
    s.runRow p r = v.shoalNext p r (sCount r.desc) := by
  unfold State.runRow
  dsimp only
  rw [hsop] at hwrite ⊢
  rw [entryRows_unpack_full h]
  dsimp only
  rw [if_neg (by decide), hwrite]
  rfl

/-- A segment without rows writes FILL (R227). -/
theorem State.runSegred_empty (h : (r.lists.getD 0 []).getD (r.pos + 1) 0 ≤ (r.lists.getD 0 []).getD r.pos 0)
    (hwrite : (if (r.lists.getD 0 []).getD (r.pos + 1) 0 < (r.lists.getD 0 []).getD r.pos 0 then s.count (Reg.SHL_CNT_SEGBAD p) 1
      else s).dstElems (shoalAcc s p r.op) p (r.chart 1) (sMrg 3 r.desc) {}
        ((rowCoords (sDorg r.desc) (sRowlen r.desc) r.pos 0).map fun x =>
          (x, (r.chart 1).fill % 2 ^ fmtBits (r.chart 1).fmt)) = (none, v)) :
    s.runSegred p r = v.shoalNext p r (sCount r.desc) := by
  unfold State.runSegred
  dsimp only
  rw [if_pos h, hwrite]
  rfl

/-- Before the last entry the operation only goes on to the next one. -/
theorem State.shoalNext_effect (s : State) (p : Nat) {r : ShoalRun} {total : Nat} (h : r.pos + 1 < total) :
    let t := s.shoalNext p r total
    (t.isl p).shl = some { r with pos := r.pos + 1 } ∧ t.regs = s.regs ∧ KeepsBut [.isls, .remLines] s t := by
  intro t
  set u : State := { s with remLines := s.remLines.filter (·.work ≠ r.op.id) }
  have ht : t = u.setIsl p { u.isl p with shl := some { r with pos := r.pos + 1 } } := if_neg (Nat.not_le.2 h)
  have keeps := (s.withRemLines_keeps (s.remLines.filter (·.work ≠ r.op.id))).trans
    (u.setIsl_keeps p { u.isl p with shl := some { r with pos := r.pos + 1 } })
  rw [ht, State.setIsl_isl]
  exact ⟨rfl, keeps.2 .regs (by decide), keeps.mono (by simp)⟩

/-- An entry that PACK drops counts, and the operation goes on (R230). -/
theorem State.shoalDrop_effect (s : State) (p : Nat) {r : ShoalRun} {total : Nat} (h : r.pos + 1 < total) :
    let t := (s.count (Reg.SHL_CNT_CAPDROP p) 1).shoalNext p r total
    (t.isl p).shl = some { r with pos := r.pos + 1 }
      ∧ (t.reg (Reg.SHL_CNT_CAPDROP p)).toNat = min ((s.reg (Reg.SHL_CNT_CAPDROP p)).toNat + 1) 0xFFFFFFFF
      ∧ KeepsBut [.regs, .isls, .remLines] s t ∧ RegsBut [Reg.SHL_CNT_CAPDROP p] s t := by
  obtain ⟨running, regs, keeps⟩ := (s.count (Reg.SHL_CNT_CAPDROP p) 1).shoalNext_effect p h
  exact ⟨running, by rw [State.reg_congr regs, State.count_toNat], (s.setReg_keeps _ _).trans keeps,
    (s.setReg_regsBut _ _).trans (.of_regs_eq regs)⟩

end

/-- Settles O15: the oldest operation begins by its checks (`State.shoalBegin_runs_effect`, `State.shoalBegin_empty_effect`,
`State.shoalBegin_error_effect`); and an operation that runs takes a step: an entry that is read and written, one that PACK drops, one
of UNPACK without a source, and a segment without rows. -/
theorem shoalBeginsAndMoves : Obligations.ShoalBeginsAndMoves := by
  refine ⟨fun p i sop s u v o rest bs hi hrun hq hsop hread => ?_, fun p s r w hrun hfail hw hdone => ⟨?_, ?_, ?_, ?_⟩⟩
  · intro d
    subst hsop
    obtain ⟨hlt, f, exec⟩ := exec_shoal s hi
    rw [State.shoalStep_begins f hrun hq hread] at exec
    have fetched : u.mem = s.mem := (State.fetchVa_ok hread).1.mem
    refine ⟨fun cs ls x h hn hlists hfree hclear => ⟨_, exec, ?_⟩, fun cs w h hn hclear hw hsrc hout hcls => ⟨_, exec, ?_⟩,
      fun code w h hw hsrc hc hrest => ⟨_, exec, ?_⟩⟩
    · obtain ⟨runs, queue, busy, shown, mem⟩ := State.shoalBegin_runs_effect (rest := rest) h hn hlists hfree
        (by rwa [not_and_or, Bool.not_eq_true])
      exact ⟨runs, queue, busy, shown.trans (Nat.mod_eq_of_lt (by omega)), State.byte_congr (mem.trans fetched)⟩
    · obtain ⟨free, queue, count, mem⟩ := State.shoalBegin_empty_effect (rest := rest) h hn
        (by rwa [not_and_or, Bool.not_eq_true]) hw hsrc hout hcls
      exact ⟨free, queue, count, State.byte_congr (mem.trans fetched)⟩
    · obtain ⟨stopped, flag, left, mem⟩ := State.shoalBegin_error_effect h hw hsrc hc hrest
      exact ⟨stopped, flag, left, State.byte_congr (mem.trans fetched)⟩
  · intro i xs l u v hi hrow hread hl hwrite
    rw [exec_shoalRow hrun hfail hw hdone hi, State.runRow_row hrow hread hl hwrite]
    rfl
  · intro hsop hfull hmore
    have pack := exec_shoalRow (i := .pack p) hrun hfail hw hdone (by simp [show r.op.sop = 5 from hsop])
    rw [State.runRow_pack_full hsop hfull] at pack
    exact ⟨_, pack, s.shoalDrop_effect p hmore⟩
  · intro v hsop hfull hwrite
    rw [exec_shoalRow (i := .unpack p) hrun hfail hw hdone (by simp [show r.op.sop = 6 from hsop]),
      State.runRow_unpack_full hsop hfull hwrite]
    rfl
  · intro v hsop lo hi c hempty hwrite
    rw [exec_segred hrun hfail hw hdone hsop, State.runSegred_empty hempty hwrite]
    rfl

end Sys2Proof.Machine
end


section
/-! SUPPORT. The commands in flight, and the registers that say which Tide runs, through accesses to memory and the records of the
firmware (R271 to R273, R321, R403, R424 to R426, R464). -/

namespace Sys2Proof.Machine

/-- The PCP commands in flight are as they were. -/
structure CmdsKept (s t : State) : Prop where
  same : t.fw.cmds = s.fw.cmds

/-- The registers that say which Tide runs and whether a program is loaded (R326, R335). -/
def JobReg (a : Nat) : Prop := a = Reg.TIDE_NUM ∨ a = Reg.TIDE_STATUS ∨ a = Reg.TIDE_GCMD ∨ a = Reg.ISL_POLICY

/-- The commands in flight and the job's registers are as they were. -/
structure JobKept (s t : State) : Prop where
  cmds : CmdsKept s t
  reg : ∀ a, JobReg a → t.reg a = s.reg a

theorem jobReg_iff (a : Nat) : JobReg a ↔ a = 0x5060018 ∨ a = 0x5060024 ∨ a = 0x5060070 ∨ a = 0x6040000 := Iff.rfl

/-- Addresses below TIDE_NUM, between TIDE_GCMD and ISL_POLICY, and above ISL_POLICY. -/
theorem not_jobReg {a : Nat} (h : a < 0x5060018 ∨ (0x5060070 < a ∧ a < 0x6040000) ∨ 0x6040000 < a) : ¬JobReg a := by
  rw [jobReg_iff]
  omega

/-- The 256 windows of Islands that a field can name lie below the job's registers (R39). -/
theorem not_jobReg_isl {p off : Nat} (hp : p < 256) (ho : off < 0x10000) : ¬JobReg (islWin p + off) :=
  not_jobReg (by unfold islWin; omega)

theorem not_jobReg_memReg (m : MemUnit) {off : Nat} (h : off < 0x1000) : ¬JobReg (memReg m off) := by
  rw [jobReg_iff]
  cases m <;> simp only [memReg, islWin, qtrWin] <;> omega

theorem not_jobReg_plausReg (p : Nat) : ¬JobReg (plausReg p) := by
  rw [jobReg_iff]
  unfold plausReg Reg.TIDE_BCN_PLAUS_LO Reg.TIDE_BCN_PLAUS_HI qtrWin
  split <;> omega

namespace CmdsKept

variable {s t u : State}

theorem refl (s : State) : CmdsKept s s := ⟨rfl⟩

theorem trans (h : CmdsKept s t) (h' : CmdsKept t u) : CmdsKept s u := ⟨h'.same.trans h.same⟩

theorem of_fw (h : t.fw = s.fw) : CmdsKept s t := ⟨congrArg Fw.cmds h⟩

theorem ite {c : Prop} [Decidable c] (ht : CmdsKept s t) (hu : CmdsKept s u) : CmdsKept s (if c then t else u) := by
  split
  · exact ht
  · exact hu

/-- A fold of updates that each keep the commands in flight. -/
theorem foldl {α : Type} {f : State → α → State} (h : ∀ s x, CmdsKept s (f s x)) (xs : List α) (s : State) :
    CmdsKept s (xs.foldl f s) := ⟨foldl_keeps (g := fun s => s.fw.cmds) (fun s x => (h s x).same) xs s⟩

theorem of_keeps {ps : List Part} (h : KeepsBut ps s t) (hp : .fw ∉ ps) : CmdsKept s t :=
  .of_fw (h.2 .fw hp)

end CmdsKept

namespace JobKept

variable {s t u : State}

theorem refl (s : State) : JobKept s s := ⟨.refl s, fun _ _ => rfl⟩

theorem trans (h : JobKept s t) (h' : JobKept t u) : JobKept s u :=
  ⟨h.cmds.trans h'.cmds, fun a ha => (h'.reg a ha).trans (h.reg a ha)⟩

theorem ite {c : Prop} [Decidable c] (ht : JobKept s t) (hu : JobKept s u) : JobKept s (if c then t else u) := by
  split
  · exact ht
  · exact hu

/-- A fold of updates that each keep the commands in flight and the job's registers. -/
theorem foldl {α : Type} {f : State → α → State} {xs : List α} (h : ∀ s, ∀ x ∈ xs, JobKept s (f s x)) (s : State) :
    JobKept s (xs.foldl f s) := by
  induction xs generalizing s with
  | nil => exact refl s
  | cons x xs ih =>
    exact (h s x (List.mem_cons_self ..)).trans (ih (fun s y hy => h s y (List.mem_cons_of_mem _ hy)) _)

/-- A fold over the numbers below `n`. -/
theorem foldRange {f : State → Nat → State} {n : Nat} (h : ∀ s, ∀ i < n, JobKept s (f s i)) (s : State) :
    JobKept s ((List.range n).foldl f s) := foldl (fun s i hi => h s i (List.mem_range.1 hi)) s

/-- An update that writes no register and none of the commands in flight. -/
theorem of_parts (hc : CmdsKept s t) (hr : t.regs = s.regs) : JobKept s t := ⟨hc, fun a _ => State.reg_congr hr a⟩

theorem of_keeps {ps : List Part} (h : KeepsBut ps s t) (hf : .fw ∉ ps) (hr : .regs ∉ ps) : JobKept s t :=
  of_parts (.of_keeps h hf) (h.2 .regs hr)

theorem setReg (s : State) {a : Nat} (v : Word) (h : ¬JobReg a) : JobKept s (s.setReg a v) :=
  ⟨.of_fw rfl, fun _ hb => s.reg_setReg_other v fun e => h (e ▸ hb)⟩

theorem setFld (s : State) {a : Nat} (f : Fld) (v : Nat) (h : ¬JobReg a) : JobKept s (s.setFld a f v) := setReg s _ h

theorem count (s : State) {a : Nat} (n : Nat) (h : ¬JobReg a) : JobKept s (s.count a n) := setReg s _ h

theorem tideNum (h : JobKept s t) : t.tideNum = s.tideNum := congrArg BitVec.toNat (h.reg _ (.inl rfl))

theorem tideSt (h : JobKept s t) : t.tideSt = s.tideSt := congrArg Fd.TIDE_STATUS_STATE.get (h.reg _ (.inr (.inl rfl)))

theorem gcmd (h : JobKept s t) : t.reg Reg.TIDE_GCMD = s.reg Reg.TIDE_GCMD := h.reg _ (.inr (.inr (.inl rfl)))

theorem loaded (h : JobKept s t) : t.loaded = s.loaded := State.bit_congr (h.reg _ (.inr (.inr (.inr rfl)))) _

/-! ### Accesses to memory -/

theorem firstErr (s : State) (m : MemUnit) (f g : Fld) {o n : Nat} (cwa : Nat) (info : Word) (k : EventKind) (u a b : Nat)
    (ho : o < 0xFF0) (hn : n < 0x1000) :
    JobKept s (((s.firstErr m f g o cwa info).count (memReg m n) 1).report k u a b) := by
  have first : JobKept s (s.firstErr m f g o cwa info) := by
    refine ⟨.of_keeps (s.firstErr_keeps m f g o cwa info) (by decide), fun x hx => ?_⟩
    refine s.firstErr_regsBut m f g o cwa info x ?_
    have apart {i : Nat} (hi : i < 0x1000) : x ≠ memReg m i := fun e => not_jobReg_memReg m hi (e ▸ hx)
    simp only [List.mem_cons, List.not_mem_nil, or_false, not_or]
    exact ⟨apart (by omega), apart (by omega), apart (by omega), apart (by omega)⟩
  exact (first.trans (count _ 1 (not_jobReg_memReg m hn))).trans (of_parts (.of_fw rfl) rfl)

/-- The check of a codeword records an error in registers of its controller (R271, R272, R287). -/
theorem checkCw (s : State) (a req lisl : Nat) : JobKept s (s.checkCw a req lisl).2 := by
  unfold State.checkCw
  split
  · exact refl s
  · split
    · exact refl s
    · rw [State.recordCe_eq]
      exact firstErr s _ _ _ _ _ _ _ _ _ (by decide) (by decide)
    · rw [State.recordUe_eq]
      exact firstErr s _ _ _ _ _ _ _ _ _ (by decide) (by decide)
    · rw [State.recordUe_eq]
      exact firstErr s _ _ _ _ _ _ _ _ _ (by decide) (by decide)

theorem checkRange (s : State) (a n req lisl : Nat) : JobKept s (s.checkRange a n req lisl).2 := by
  have step (r : Bool × State) (cs : List Nat) : JobKept r.2 (cs.foldl (fun r c =>
      ((r.1 || (r.2.checkCw c req lisl).1), (r.2.checkCw c req lisl).2)) r).2 := by
    induction cs generalizing r with
    | nil => exact refl _
    | cons c cs ih => exact (checkCw r.2 c req lisl).trans (ih (r.1 || (r.2.checkCw c req lisl).1, (r.2.checkCw c req lisl).2))
  exact step (false, s) _

theorem storeCw (s : State) (a : Nat) (e : CwErr) : JobKept s (s.storeCw a e) := by
  unfold State.storeCw
  split <;> exact of_parts (.of_fw rfl) rfl

theorem writeCw (s : State) (cwa lo hi req lisl : Nat) : JobKept s (s.writeCw cwa lo hi req lisl).2 := by
  have check := checkCw s cwa req lisl
  unfold State.writeCw
  split
  · exact refl s
  · split
    · exact storeCw s cwa .ok
    · dsimp only
      split
      · exact (check.trans (storeCw _ cwa .poison)).trans (count _ 1 (not_jobReg_memReg _ (by decide)))
      · exact check.trans (storeCw _ cwa .ok)

theorem writeCws (s : State) (cwa lo hi req lisl k : Nat) : JobKept s (s.writeCws cwa lo hi req lisl k).2 := by
  induction k generalizing s cwa with
  | zero => exact refl s
  | succ k ih => exact (writeCw s cwa lo hi req lisl).trans (ih _ _)

end JobKept

theorem State.storeByte_keeps (s : State) (a : Nat) (b : Byte) : KeepsBut [.mem] s (s.storeByte a b) := by
  unfold State.storeByte
  split
  · exact ((s.setByte_keeps a b).trans (State.setByte_keeps _ _ b)).mono (by simp)
  · exact s.setByte_keeps a b

theorem State.store_keeps (s : State) (a : Nat) (bs : List Byte) : KeepsBut [.mem] s (s.store a bs) := by
  induction bs generalizing s a with
  | nil => exact .refl _ s
  | cons b bs ih => exact ((s.storeByte_keeps a b).trans (ih _ _)).mono (by simp)

/-- A write to memory (R273). -/
theorem JobKept.writeMem (s : State) (a : Nat) (bs : List Byte) (req lisl : Nat) : JobKept s (s.writeMem a bs req lisl).2 :=
  (JobKept.writeCws s _ _ _ req lisl _).trans (.of_keeps (State.store_keeps _ a bs) (by decide) (by decide))

/-! ### Records and messages of the firmware -/

theorem JobKept.setLogWr {s t : State} (h : JobKept s t) (n : Nat) : JobKept s { t with fw := { t.fw with logWr := n } } :=
  ⟨⟨h.cmds.same⟩, h.reg⟩

/-- A record in the log ring (R425). -/
theorem JobKept.log (s : State) (cls : Nat) (body : List Byte) : JobKept s (s.log cls body) := by
  have lost : JobKept s (if s.fw.logBase = 0 ∧ s.fw.logWr ≥ 2 ^ s.fw.logLog2 then
      (s.writeMem (s.logBase + 8) (leBytes 4 (s.memNat (s.logBase + 8) 4 + 1)) 9 0xFF).2 else s) :=
    .ite (.writeMem s _ _ 9 0xFF) (.refl s)
  exact ((lost.trans (.writeMem _ _ _ 9 0xFF)).trans (.writeMem _ _ _ 9 0xFF)).setLogWr _

theorem JobKept.tracePt (s : State) (pt : Nat) (args : List Nat) : JobKept s (s.tracePt pt args) := .ite (.log s _ _) (.refl s)

theorem JobKept.notify (s : State) (event arg : Nat) : JobKept s (s.notify event arg) := by
  refine .foldRange (fun s m _ => ?_) s
  split
  · exact .of_parts ⟨rfl⟩ rfl
  · exact .refl s

namespace CmdsKept

variable (s : State)

theorem sendFrags (k dst kind : Nat) (bs : List Byte) : CmdsKept s (s.sendFrags k dst kind bs) := by
  have queued (s : State) (m : Msg) : CmdsKept s (s.enqueue k 0 m) := .of_fw rfl
  unfold State.sendFrags
  exact .foldl (fun s _ => queued s _) _ s

theorem toManager (except : Option Nat) (kind : Nat) (bs : List Byte) : CmdsKept s (s.toManager except kind bs) := by
  unfold State.toManager
  split
  · exact .refl s
  · split
    · exact ⟨rfl⟩
    · split
      · exact sendFrags s _ _ kind bs
      · exact .refl s

theorem exportRec (cls sev : Nat) (body : List Byte) : CmdsKept s (s.exportRec cls sev body) := by
  have told : CmdsKept s ((s.setHist { s.fw.hist with cperId := s.fw.hist.cperId + 1 }).toManager none 4 (s.cper cls sev body)) :=
    CmdsKept.trans (t := s.setHist { s.fw.hist with cperId := s.fw.hist.cperId + 1 }) ⟨rfl⟩ (toManager _ none 4 _)
  unfold State.exportRec
  dsimp only
  refine .ite told (told.trans ?_)
  exact ⟨((JobKept.writeMem _ _ _ 9 0xFF).trans (.writeMem _ _ _ 9 0xFF)).cmds.same⟩

theorem record (cls typ unit n : Nat) (body : List Byte) : CmdsKept s (s.record cls typ unit n body) := by
  have logged := (JobKept.log s cls body).cmds
  exact .ite (logged.trans ⟨rfl⟩) (logged.trans (exportRec _ cls 1 body))

theorem flushLink (k : Nat) : CmdsKept s (s.flushLink k) := by
  have linkRecord (s : State) (n tide typ dir count : Nat) :
      CmdsKept s (if n = 0 then s else s.logLinkAt tide typ k dir 0 0xF 0 count 0 0 0) :=
    .ite (.refl s) ⟨(record s _ _ _ _ _).same⟩
  have records := (linkRecord s (s.port k).cRetry (s.port k).tRetry 5 1 (s.port k).cRetry).trans
    (linkRecord _ (s.port k).cUe (s.port k).tUe 7 0 (s.port k).cUe)
  exact .ite records (records.trans (.of_fw rfl))

/-- The link records of every port (R321). -/
theorem flushLinks : CmdsKept s s.flushLinks := .foldl flushLink _ s

theorem sendTide (k kind n : Nat) (line : List Byte) : CmdsKept s (s.sendTide k kind n line) := .ite (.refl s) (.of_fw rfl)

theorem sendKids (kind n : Nat) (line : List Byte) : CmdsKept s (s.sendKids kind n line) :=
  .foldl (fun s k => sendTide s k kind n line) _ s

end CmdsKept

end Sys2Proof.Machine
end


section
/-! SUPPORT. The job's registers through the start of a Tide and the stop of a job (R28, R327, R335, R341, R349). -/

namespace Sys2Proof.Machine

theorem JobReg.mod_ne_four {a : Nat} (h : JobReg a) : a % 256 ≠ 4 := by
  rw [jobReg_iff] at h
  omega

theorem not_jobReg_of_mod {a : Nat} (h : a % 256 = 4 ∨ a % 256 = 0x14) : ¬JobReg a := by
  rw [jobReg_iff]
  omega

/-- Registers of the Quarters' windows that stand at none of the three offsets. -/
theorem not_jobReg_qtr {q off : Nat} (hq : q < 8) (ho : off < 0x100000)
    (hne : off ≠ 0x60018 ∧ off ≠ 0x60024 ∧ off ≠ 0x60070) : ¬JobReg (qtrWin q + off) := by
  rw [jobReg_iff]
  unfold qtrWin
  omega

/-- Registers from the bindings' tables on (R32). -/
theorem not_jobReg_mod {off : Nat} (h : 0x40000 < off) : ¬JobReg (modWin + off) := not_jobReg (by unfold modWin; omega)

theorem not_jobReg_pstate (p : Nat) : ¬JobReg (Reg.ISL_PSTATE p) := by
  unfold Reg.ISL_PSTATE
  rw [Nat.add_assoc]
  exact not_jobReg_mod (by omega)

theorem not_jobReg_lmap (l : Nat) : ¬JobReg (Reg.ISL_LMAP l) := by
  unfold Reg.ISL_LMAP
  rw [Nat.add_assoc]
  exact not_jobReg_mod (by omega)

theorem not_jobReg_swapCtl : ¬JobReg Reg.ISL_SWAP_CTL := not_jobReg_mod (off := 0x40800) (by decide)

theorem not_jobReg_fuuState {u : Nat} (h : u < 8) : ¬JobReg (Reg.FUU_STATE (u / 2) (u % 2)) := by
  unfold Reg.FUU_STATE
  rw [Nat.add_assoc]
  exact not_jobReg_qtr (by omega) (by omega) (by omega)

theorem not_jobReg_rchStatus {ch : Nat} (h : ch < 8) : ¬JobReg (Reg.RCH_STATUS (ch / 2) (ch % 2)) := by
  unfold Reg.RCH_STATUS
  rw [Nat.add_assoc]
  exact not_jobReg_qtr (by omega) (by omega) (by omega)

theorem get_word (w : Word) : Fld.get ⟨0, 32, .rw, 0⟩ w = w.toNat := by
  simp only [Fld.get, Nat.pow_zero, Nat.div_one]
  exact Nat.mod_eq_of_lt w.isLt

/-- A register reads the same where its whole word does. -/
theorem State.reg_of_fld {s t : State} {a : Nat} (h : t.fld a ⟨0, 32, .rw, 0⟩ = s.fld a ⟨0, 32, .rw, 0⟩) : t.reg a = s.reg a := by
  rw [State.fld, State.fld, get_word, get_word] at h
  exact BitVec.eq_of_toNat_eq h

theorem State.home_lt (s : State) {l : Nat} (h : l < 256) : s.home l < 8 := by
  unfold State.home State.perQuarter
  split <;> omega

/-- The registers that a swap carries stand in the Islands' windows (R28). -/
theorem swapOffsets_lt {o : Nat} (h : o ∈ swapOffsets) : o < 0x10000 := by
  have table {n b : Nat} (hn : b + 4 * n ≤ 0x10000) (h : o ∈ (List.range n).map fun i => b + 4 * i) : o < 0x10000 := by
    obtain ⟨i, hi, rfl⟩ := List.mem_map.1 h
    have := List.mem_range.1 hi
    omega
  simp only [swapOffsets, List.mem_append] at h
  obtain ((((h | h) | h) | h) | h) | h := h
  · exact (by decide : ∀ o ∈ [0x000, 0x004, 0x010, 0x014, 0x018, 0x01C, 0x030, 0x034, 0x300, 0x304, 0x2004, 0x4004], o < 0x10000) o h
  all_goals exact table (by decide) h

namespace CmdsKept

/-! ### A further update -/

section
variable {s t : State} (h : CmdsKept s t)
include h

theorem andFw {u : State} (hu : u.fw = t.fw) : CmdsKept s u := h.trans (.of_fw hu)

theorem andFoldl {α : Type} {f : State → α → State} (hf : ∀ s x, CmdsKept s (f s x)) (xs : List α) : CmdsKept s (xs.foldl f t) :=
  h.trans (.foldl hf xs t)

/-- An update that may happen. -/
theorem andIf {c : Prop} [Decidable c] {u : State} (hu : CmdsKept t u) : CmdsKept s (if c then u else t) := .ite (h.trans hu) h

theorem setReg (a : Nat) (v : Word) : CmdsKept s (t.setReg a v) := h.andFw (t.setReg_fw a v)

theorem setFld (a : Nat) (f : Fld) (v : Nat) : CmdsKept s (t.setFld a f v) := h.andFw (t.setFld_fw a f v)

theorem count (a n : Nat) : CmdsKept s (t.count a n) := h.andFw (t.count_fw a n)

theorem setReg64 (lo hi v : Nat) : CmdsKept s (t.setReg64 lo hi v) := (h.setReg lo _).setReg hi _

theorem setIsl (p : Nat) (x : Isl) : CmdsKept s (t.setIsl p x) := h.andFw (t.setIsl_fw p x)

theorem setChan (ch : Nat) (x : Chan) : CmdsKept s (t.setChan ch x) := h.andFw (t.setChan_fw ch x)

theorem setPort (k : Nat) (x : Port) : CmdsKept s (t.setPort k x) := h.andFw (t.setPort_fw k x)

theorem setFuu (u : Nat) (x : Fuu) : CmdsKept s (t.setFuu u x) := h.andFw (t.setFuu_fw u x)

/-- A load and a Tide start replace what the Tide logic keeps, and forget the messages seen (R326, R335). -/
theorem startJob (x : TideSt) : CmdsKept s { t with tide := x, fw := { t.fw with seen := [] } } := ⟨h.same⟩

theorem report (k : EventKind) (u a b : Nat) : CmdsKept s (t.report k u a b) := h.andFw (t.report_fw k u a b)

end

variable (s : State)

theorem stopCtx (p c st : Nat) : CmdsKept s (s.stopCtx p c st) := .of_keeps (s.stopCtx_keeps p c st) (by decide)

theorem triggerBkts (q b : Nat) : CmdsKept s (s.triggerBkts q b) := by
  refine .foldl (fun s ch => ?_) _ s
  extract_lets x hit a last released
  have hreleased : CmdsKept s released := .ite ((refl s).setFld _ _ _) (.refl s)
  exact .ite hreleased (hreleased.setChan _ _)

end CmdsKept

namespace JobKept

section
variable {s t : State} (h : JobKept s t)
include h

theorem andReg {a : Nat} (v : Word) (ha : ¬JobReg a) : JobKept s (t.setReg a v) := h.trans (setReg t v ha)

theorem andFld {a : Nat} (f : Fld) (v : Nat) (ha : ¬JobReg a) : JobKept s (t.setFld a f v) := h.andReg _ ha

/-- An update that writes no register. -/
theorem andParts {u : State} (hc : u.fw = t.fw) (hr : u.regs = t.regs) : JobKept s u := h.trans (of_parts (.of_fw hc) hr)

theorem andRange {f : State → Nat → State} {n : Nat} (hf : ∀ s, ∀ i < n, JobKept s (f s i)) :
    JobKept s ((List.range n).foldl f t) := h.trans (foldRange hf t)

end

variable (s : State)

theorem setIsl (p : Nat) (x : Isl) : JobKept s (s.setIsl p x) := of_parts (.of_fw (State.setIsl_fw ..)) (State.setIsl_regs ..)

theorem setChan (ch : Nat) (x : Chan) : JobKept s (s.setChan ch x) := of_parts (.of_fw (State.setChan_fw ..)) (State.setChan_regs ..)

theorem setIslFld {p off : Nat} (hp : p < 256) (ho : off < 0x10000) (f : Fld) (v : Nat) : JobKept s (s.setFld (islWin p + off) f v) :=
  setFld s f v (not_jobReg_isl hp ho)

theorem stopCtx {p : Nat} (hp : p < 256) (c st : Nat) : JobKept s (s.stopCtx p c st) := by
  refine ⟨.stopCtx s p c st, fun a ha => State.reg_of_fld ?_⟩
  have written : JobKept s ((s.setFld (Reg.ISL_SEQ_CTL p) (runFld c) 0).setSt p c st) :=
    (setIslFld s (off := 0) hp (by decide) _ _).andFld _ _ (not_jobReg_isl (off := 4) hp (by decide))
  rw [s.fld_stopCtx p c st (.inl ha.mod_ne_four), State.fld, State.fld, written.reg a ha]

theorem setPstate (p st : Nat) : JobKept s (s.setPstate p st) :=
  .ite (.refl s) ((setFld s _ _ (not_jobReg_pstate p)).andFld _ _ (not_jobReg_pstate p))

theorem syncChan {ch : Nat} (h : ch < 8) : JobKept s (s.syncChan ch) := by
  have apart := not_jobReg_rchStatus h
  unfold State.syncChan
  extract_lets x a armed
  have harmed : JobKept s armed := setFld s _ _ apart
  split
  · exact (harmed.andFld _ _ apart).andFld _ _ apart
  · exact harmed.andFld _ _ apart

theorem triggerBkts (q b : Nat) : JobKept s (s.triggerBkts q b) := by
  refine ⟨.triggerBkts s q b, fun a ha => State.reg_of_fld (s.fld_triggerBkts q b ⟨?_, fun e => absurd ha ?_⟩)⟩
  · rintro rfl
    exact not_jobReg_of_mod (.inr (by unfold Reg.BUOY_LWAIT_SRC buoyWin; omega)) ha
  · exact e ▸ not_jobReg_of_mod (.inl (by unfold Reg.BUOY_FLAGS buoyWin; omega))

/-! ### The start of a Tide -/

theorem applySwap : JobKept s s.applySwap := by
  have width (t : State) (f : Fld) (hf : f.w = 8) : t.fld Reg.ISL_SWAP_CTL f < 256 := by
    have := f.get_lt (t.reg Reg.ISL_SWAP_CTL)
    rwa [hf] at this
  unfold State.applySwap
  extract_lets src dst l carried x y contexts stopped bound named states tide swapped a
  have hsrc : src < 256 := width s _ rfl
  have hdst : dst < 256 := width s _ rfl
  have control : ¬JobReg a := not_jobReg_swapCtl
  have hcarried : JobKept s carried := .foldl (fun s o ho => setReg s _ (not_jobReg_isl hdst (swapOffsets_lt ho))) s
  have hcontexts : JobKept s contexts := hcarried.trans (setIsl _ _ _)
  have hstopped : JobKept s stopped := ((hcontexts.trans (setIsl _ _ _)).trans (stopCtx _ hsrc 0 0)).trans (stopCtx _ hsrc 1 0)
  have hbound : JobKept s bound := .ite ((hstopped.andFld _ _ (not_jobReg_lmap l)).andFld _ _ (not_jobReg_lmap l)) hstopped
  have hnamed : JobKept s named := (hbound.andFld _ _ (not_jobReg_pstate _)).andFld _ _ (not_jobReg_pstate _)
  have hstates : JobKept s states := (hnamed.trans (setPstate _ _ _)).trans (setPstate _ _ _)
  have hswapped : JobKept s swapped := hstates.andParts rfl rfl
  exact .ite (.refl s) (((((hswapped.andFld _ _ control).andFld _ _ control).andFld _ _ control).andFld _ _ control).trans
    (tracePt _ _ _))

theorem portNewTide (n k : Nat) : JobKept s (s.portNewTide n k) :=
  (checkRange s _ _ _ _).andParts (State.setPort_fw ..) (State.setPort_regs ..)

theorem islNewTide {p : Nat} (hp : p < 256) : JobKept s (s.islNewTide p) := by
  unfold State.islNewTide
  extract_lets x marked cleared
  have hmarked : JobKept s marked := setIsl s _ _
  have hcleared : JobKept s cleared := (hmarked.andReg _ (not_jobReg_isl (off := 0x3014) hp (by decide))).andReg _
    (not_jobReg_isl (off := 0x3018) hp (by decide))
  exact .ite (hcleared.andReg _ (not_jobReg_plausReg p)) hcleared

/-- A wait of a channel writes the records of its Buoy, whose home is below 8 (R157, R349). -/
theorem channelWait (raw : Nat) : JobKept s (s.channelWait raw) := by
  unfold State.channelWait
  extract_lets t q g
  have hq : q < 8 := s.home_lt (Nat.mod_lt _ (by decide))
  have hb : t.2.1 < 16384 := Nat.mod_lt _ (by decide)
  have hg : g = 16384 * q + t.2.1 := rfl
  have src : ¬JobReg (Reg.BUOY_LWAIT_SRC g) := not_jobReg_of_mod (.inr (by unfold Reg.BUOY_LWAIT_SRC buoyWin; omega))
  have thr : ¬JobReg (Reg.BUOY_LWAIT_THR g) := not_jobReg (.inl (by unfold Reg.BUOY_LWAIT_THR buoyWin; omega))
  have ops : ¬JobReg (Reg.BUOY_CNT_OPS q) := not_jobReg_qtr (off := 0x70020) hq (by decide) (by decide)
  exact .ite (.refl s) (((setReg s _ src).andReg _ thr).trans (count _ _ ops))

theorem armBuckets (n : Nat) : JobKept s (s.armBuckets n) := by
  unfold State.armBuckets
  extract_lets waiting triggered
  have hwaiting : JobKept s waiting := .foldl (fun s e _ => .ite ((setChan s _ _).trans (channelWait _ _)) (.refl s)) s
  have htriggered : JobKept s triggered := hwaiting.trans (.foldl (fun s e _ => .ite (triggerBkts s _ _) (.refl s)) _)
  exact htriggered.andRange fun s ch h => syncChan s h

theorem fuuStart {u : Nat} (h : u < 8) (set : Nat) (inplace : Bool) : JobKept s (s.fuuStart u set inplace) := by
  unfold State.fuuStart
  split
  · exact .refl s
  · exact JobKept.andFld (of_parts (.of_fw (State.setFuu_fw ..)) (State.setFuu_regs ..)) _ _ (not_jobReg_fuuState h)

theorem fuuUpdate {u : Nat} (h : u < 8) : JobKept s (s.fuuUpdate u) := (setFld s _ _ (not_jobReg_fuuState h)).trans (fuuStart _ h 0 _)

theorem islandMark (p : Nat) : JobKept s (s.islandMark p) := .ite (setIsl s _ _) (.refl s)

theorem islStart {p : Nat} (hp : p < 256) : JobKept s (s.islStart p) := by
  have status : ¬JobReg (Reg.ISL_SEQ_STATUS p) := not_jobReg_isl (off := 4) hp (by decide)
  have go (s : State) (c : Nat) : JobKept s (if s.ctxSt p c = 4 then s.setSt p c 1 else s) := .ite (setFld s _ _ status) (.refl s)
  unfold State.islStart
  extract_lets counted arbited resume
  have hcounted : JobKept s counted := setReg s _ (not_jobReg_isl (off := 0x30) hp (by decide))
  have harbited : JobKept s arbited := .ite (hcounted.andFld _ _ status) hcounted
  exact ((harbited.trans (go _ 0)).trans (go _ 1)).trans (islandMark _ p)

theorem islsStart : JobKept s s.islsStart := foldRange (fun s _ h => islStart s (h.trans (by decide))) s

theorem newWindow : JobKept s s.newWindow := by
  have apart {q off : Nat} (hq : q < 4) (ho : off < 0x100000) (hne : 0x60070 < off) : ¬JobReg (qtrWin q + off) :=
    not_jobReg_qtr (by omega) ho (by omega)
  have sums : JobKept s ((((s.setReg Reg.TIDE_BCN_WLOSS 0).setReg Reg.TIDE_BCN_WLOSSN 0).setReg Reg.TIDE_BCN_WNONFIN 0).setReg
      Reg.TIDE_BCN_WBOUND 0) :=
    (((setReg s _ (apart (by decide) (by decide) (by decide))).andReg _ (apart (by decide) (by decide) (by decide))).andReg _
      (apart (by decide) (by decide) (by decide))).andReg _ (apart (by decide) (by decide) (by decide))
  exact (sums.andFld _ _ (apart (by decide) (by decide) (by decide))).andRange fun s q hq =>
    (setReg s _ (apart hq (by decide) (by decide))).andReg _ (apart hq (by decide) (by decide))

/-! ### The stop of a job -/

theorem haltCtx {p : Nat} (hp : p < 256) (c : Nat) : JobKept s (s.haltCtx p c) := by
  have discarded : JobKept s (s.discardSigs p c) := of_parts (.of_fw rfl) rfl
  exact .ite (setFld s _ _ (not_jobReg_isl (off := 0) hp (by decide))) (discarded.trans (stopCtx _ hp c 5))

theorem haltAll : JobKept s s.haltAll := foldRange (fun s p h => .ite (refl s)
  ((haltCtx s (h.trans (by decide)) 0).trans (haltCtx _ (h.trans (by decide)) 1))) s

theorem clearChans : JobKept s s.clearChans := foldRange (fun s ch h => (setChan s ch {}).trans (syncChan _ h)) s

theorem abortSwap : JobKept s s.abortSwap := by
  unfold State.abortSwap
  extract_lets src dst states fw untested
  have hstates : JobKept s states := (setPstate s _ 1).trans (setPstate _ _ 2)
  have huntested : JobKept s untested := hstates.trans (of_parts ⟨rfl⟩ rfl)
  exact .ite (.refl s) (((huntested.andFld _ _ not_jobReg_swapCtl).andFld _ _ not_jobReg_swapCtl).andFld _ _ not_jobReg_swapCtl)

end JobKept

end Sys2Proof.Machine
end


section
/-! SUPPORT. The commands in flight through what a Tide start, a stop of the job and a mark do (R326, R327, R334, R335, R341,
R378). -/

namespace Sys2Proof.Machine

namespace CmdsKept

variable (s : State)

theorem notify (event arg : Nat) : CmdsKept s (s.notify event arg) := (JobKept.notify s event arg).cmds

theorem checkRange (a n req lisl : Nat) : CmdsKept s (s.checkRange a n req lisl).2 := (JobKept.checkRange s a n req lisl).cmds

theorem writeMem (a : Nat) (bs : List Byte) (req lisl : Nat) : CmdsKept s (s.writeMem a bs req lisl).2 :=
  (JobKept.writeMem s a bs req lisl).cmds

/-! ### The start of a Tide -/

theorem commitUnit (u : Nat) : CmdsKept s (s.commitUnit u) := by
  unfold State.commitUnit
  extract_lets a x counted turned y used
  have hcounted : CmdsKept s counted := (refl s).setFuu _ _
  have hturned : CmdsKept s turned := .ite hcounted (hcounted.setFld _ _ _)
  have hused : CmdsKept s used := .ite (hturned.setFuu _ _) hturned
  exact hused.setReg _ _

theorem lockUnit (u : Nat) : CmdsKept s (s.lockUnit u) := .ite (.refl s) (((refl s).setFld _ _ _).setFuu _ _)

theorem lockAll (n : Nat) : CmdsKept s (s.lockAll n) := by
  have locked : CmdsKept s ((List.range 8).foldl State.lockUnit s) := .foldl lockUnit _ s
  exact .ite ⟨locked.same⟩ locked

end CmdsKept

/-- A Tide start writes the Tide's number, state RUNNING and the CMD of its GO, and these stay (R335). -/
theorem State.tideStart_from (s : State) (n cmd gnsq : Nat) : ∃ u : State, CmdsKept s u ∧ u.reg Reg.TIDE_NUM = BitVec.ofNat 32 n
    ∧ u.reg Reg.TIDE_STATUS = 1 ∧ u.reg Reg.TIDE_GCMD = BitVec.ofNat 32 (cmd % 256) ∧ JobKept u (s.tideStart n cmd gnsq) := by
  unfold State.tideStart
  extract_lets first k flushed committed locked numbered commanded counted window tide fw started running parts swapped ports islands
    armed updated traced
  have hlocked : CmdsKept s locked := ((CmdsKept.flushLinks s).andIf (.foldl .commitUnit _ _)).andIf
    ((CmdsKept.lockAll _ n).trans (JobKept.tracePt _ _ _).cmds)
  have hcounted : CmdsKept s counted := ((((hlocked.setReg _ _).setReg _ _).setReg64 _ _ _).setReg _ _).count _ _
  have hstarted : CmdsKept s started := (hcounted.andIf (JobKept.newWindow _).cmds).startJob _
  have hcmds : CmdsKept s running := hstarted.setReg _ _
  have hcommanded : JobKept commanded counted := .count _ _ (not_jobReg_qtr (off := 0x600A0) (by decide) (by decide) (by decide))
  have hwindow : JobKept commanded window := .ite (hcommanded.trans (.newWindow _)) hcommanded
  have hstatus : running.reg Reg.TIDE_STATUS = 1 := started.reg_setReg_same _ _
  have hrunning {a : Nat} (ha : JobReg a) (hne : a ≠ Reg.TIDE_STATUS) : running.reg a = commanded.reg a :=
    (started.reg_setReg_other _ hne).trans (hwindow.reg a ha)
  have hnum : running.reg Reg.TIDE_NUM = BitVec.ofNat 32 n := calc
    running.reg Reg.TIDE_NUM = commanded.reg Reg.TIDE_NUM := hrunning (.inl rfl) (by decide)
    _ = numbered.reg Reg.TIDE_NUM := by
      rw [State.reg_setReg_other _ _ (by decide), State.setReg64, State.reg_setReg_other _ _ (by decide),
        State.reg_setReg_other _ _ (by decide)]
    _ = BitVec.ofNat 32 n := by rw [State.reg_setReg_other _ _ (by decide), State.reg_setReg_same]
  have hgcmd : running.reg Reg.TIDE_GCMD = BitVec.ofNat 32 (cmd % 256) := by
    rw [hrunning (.inr (.inr (.inl rfl))) (by decide)]
    exact State.reg_setReg_same _ _ _
  have hparts : JobKept running parts := .foldRange (fun s q hq => .setReg s _
    (not_jobReg_qtr (off := 0x60200) (hq.trans (by decide)) (by decide) (by decide))) _
  have hports : JobKept running ports := (hparts.trans (.applySwap _)).andRange fun s k _ => .portNewTide s n k
  have harmed : JobKept running armed := (hports.andRange fun s p hp => .islNewTide s (hp.trans (by decide))).trans (.armBuckets _ n)
  have hupdated : JobKept running updated := .ite (harmed.andRange fun s u hu => .fuuUpdate s hu) harmed
  have htraced : JobKept running traced := hupdated.trans (.tracePt _ _ _)
  exact ⟨running, hcmds, hnum, hstatus, hgcmd, .ite (htraced.andParts rfl rfl) (htraced.trans (.islsStart _))⟩

namespace CmdsKept

variable (s : State)

theorem tideStart (n cmd gnsq : Nat) : CmdsKept s (s.tideStart n cmd gnsq) := by
  obtain ⟨u, cmds, -, -, -, kept⟩ := s.tideStart_from n cmd gnsq
  exact cmds.trans kept.cmds

/-! ### The stop of a job -/

theorem fail (reason md : Nat) : CmdsKept s (s.fail reason md) := by
  unfold State.fail
  extract_lets flushed recorded failed line n sent tide unheld
  have hfailed : CmdsKept s failed := (CmdsKept.ite (flushLinks s) ((flushLinks s).setReg _ _)).setFld _ _ _
  have hsent : CmdsKept s sent :=
    .ite hfailed ((CmdsKept.ite hfailed (hfailed.trans (sendTide _ _ 5 n line))).trans (sendKids _ 5 n line))
  have hunheld : CmdsKept s unheld := ⟨hsent.same⟩
  exact .ite (.refl s) ((((hunheld.trans (JobKept.haltAll _).cmds).trans (JobKept.clearChans _).cmds).setFld _ _ _).report _ _ _ _)

theorem failHere (reason : Nat) : CmdsKept s (s.failHere reason) := fail s reason _

theorem clearSched : CmdsKept s s.clearSched := .foldl (fun s _ => (refl s).setFld _ _ _) _ s

theorem unload : CmdsKept s s.unload := by
  have stopped (t : State) : JobKept t (t.haltAll.clearChans).abortSwap :=
    ((JobKept.haltAll t).trans (.clearChans _)).trans (.abortSwap _)
  exact .ite (((((flushLinks s).trans (clearSched _)).setFld _ _ _).trans (stopped _).cmds).setFld _ _ _) (.refl s)

theorem failUnload : CmdsKept s s.failUnload := (failHere s 6).trans (unload _)

theorem progUnload : CmdsKept s s.progUnload := (CmdsKept.ite (failHere s 6) (.refl s)).trans (unload _)

/-! ### GO, the Beacon and the mark -/

theorem sendGo : CmdsKept s s.sendGo := by
  unfold State.sendGo
  exact .ite (failHere s 5) (((((refl s).setFld _ _ _).setFld _ _ _).trans (sendKids _ 2 _ _)).trans (tideStart _ _ _ _))

theorem beaconEma : CmdsKept s s.beaconEma := .ite (.refl s) (((refl s).setReg _ _).count _ _)

theorem beaconRecord (v reason : Nat) : CmdsKept s (s.beaconRecord v reason) := by
  unfold State.beaconRecord
  extract_lets shown counted cmd
  have hshown : CmdsKept s shown := ((refl s).setFld _ _ _).setFld _ _ _
  have hcounted : CmdsKept s counted := by
    unfold counted
    split
    · exact (hshown.trans (beaconEma shown)).count _ _
    · exact hshown.count _ _
    · exact hshown.count _ _
    · exact hshown
  exact hcounted.setFld _ _ _

theorem beaconAdd (v : MarkVals) : CmdsKept s (s.beaconAdd v) := by
  unfold State.beaconAdd
  extract_lets sat loss lossN nonfin bound
  have hbound : CmdsKept s bound := ((((refl s).setReg _ _).setReg _ _).setReg _ _).setReg _ _
  exact .ite (hbound.setFld _ _ _) hbound

theorem rootMark (v : MarkVals) : CmdsKept s (s.rootMark v) := by
  unfold State.rootMark
  extract_lets added held
  have hadded : CmdsKept s added := .ite (.refl s) (beaconAdd s v)
  have hheld : CmdsKept s held := hadded.setFld _ _ _
  refine .ite (hadded.trans (sendGo _)) (.ite hheld ?_)
  split
  extract_lets recorded replay
  have hrecorded : CmdsKept s recorded := (hheld.trans (beaconRecord _ _ _)).trans (JobKept.tracePt _ _ _).cmds
  exact .ite ((hrecorded.andIf (notify _ _ _)).report _ _ _ _) (hrecorded.trans (sendGo _))

theorem setAgg (v : MarkVals) : CmdsKept s (s.setAgg v) :=
  ((((((((refl s).setReg _ _).setReg _ _).setReg _ _).setReg _ _).setReg64 _ _ _).setReg _ _).setReg _ _).setReg _ _

theorem tideCheck : CmdsKept s (tideCheck s) := by
  unfold Machine.tideCheck
  extract_lets parts own agg shown
  have hparts : CmdsKept s parts := .foldl (fun s q => (refl s).setFld _ _ _) _ s
  have hown : CmdsKept s own := hparts.setFld _ _ _
  have hshown : CmdsKept s shown := hown.trans (setAgg _ _)
  exact .ite (.refl s) (.ite hparts (.ite hown (.ite (hshown.trans (rootMark _ _))
    ((hshown.trans (sendTide _ _ _ _ _)).setFld _ _ _))))

end CmdsKept

end Sys2Proof.Machine
end


section
/-! SUPPORT. The commands in flight through a load (R24, R326, R414) and through the writes of its image (R324, R413). -/

namespace Sys2Proof.Machine

namespace CmdsKept

variable (s : State)

/-! ### TIDE_CTL.LOAD -/

theorem clearEntries : CmdsKept s s.clearEntries := .foldl (fun s _ => ((refl s).setFld _ _ _).setFld _ _ _) _ s

theorem loadCtx (p c : Nat) : CmdsKept s (s.loadCtx p c) :=
  .ite (.refl s) (.ite ((stopCtx s p c 4).setFld _ _ _) (stopCtx s p c 0))

theorem setSched : CmdsKept s s.setSched := .foldl (fun s _ => (refl s).setFld _ _ _) _ s

theorem namePort (k : Nat) : CmdsKept s (s.namePort k) := .ite ((refl s).setPort _ _) (.refl s)

theorem loadAccept : CmdsKept s s.loadAccept := by
  unfold State.loadAccept
  extract_lets first n bkts grps flushed marked numbered contexts entries ctxs bktsRead grpsRead fw started chans ports running
  have hnumbered : CmdsKept s numbered := (((flushLinks s).setFld _ _ _).setReg _ _).setReg _ _
  have hcontexts : CmdsKept s contexts := hnumbered.andFoldl
    (fun s p => (((loadCtx s p 0).trans (loadCtx _ p 1)).setIsl _ _).setReg _ _) _
  have hread : CmdsKept s grpsRead := ((hcontexts.trans (clearEntries _)).trans (checkRange _ _ _ _ _)).trans (checkRange _ _ _ _ _)
  clear_value grpsRead
  have hstarted : CmdsKept s started := hread.startJob _
  have hports : CmdsKept s ports := ((hstarted.trans (JobKept.clearChans _).cmds).trans (setSched _)).andFoldl namePort _
  exact (hports.setReg _ _).andFoldl (fun s p => (JobKept.islandMark s p).cmds) _

theorem loadReject (code : Nat) : CmdsKept s (s.loadReject code) := (((refl s).setFld _ _ _).setReg _ _).trans (clearEntries _)

theorem load : CmdsKept s s.load :=
  .ite (.refl s) (.ite (loadReject s _) ((loadAccept s).trans (tideCheck _)))

/-! ### The bindings -/

theorem syncIsl (p : Nat) : CmdsKept s (s.syncIsl p) := by
  unfold State.syncIsl
  split
  · exact (JobKept.setPstate s p 1).cmds.setFld _ _ _
  · exact .ite ((JobKept.setPstate s p 2).cmds.setFld _ _ _) (.refl s)

theorem syncBind : CmdsKept s s.syncBind :=
  (CmdsKept.foldl syncIsl _ s).andFoldl (fun s _ => (refl s).setFld _ _ _) _

theorem bindNew (l p : Nat) : CmdsKept s (s.bindNew l p) := ((refl s).setFld _ _ _).trans (syncIsl _ p)

theorem bindQuarter (q : Nat) : CmdsKept s (s.bindQuarter q) := by
  unfold State.bindQuarter
  extract_lets es pinned hs bound
  have hbound : CmdsKept s bound := .foldl (fun s e => .ite (.refl s) (bindNew s _ _)) _ s
  refine hbound.andFoldl (fun s l => .ite (.refl s) ?_) _
  split
  · exact bindNew s l _
  · exact .refl s

theorem reportShort : CmdsKept s s.reportShort := .foldl (fun s _ => .ite ((refl s).report _ _ _ _) (.refl s)) _ s

theorem unbindAll : CmdsKept s s.unbindAll :=
  (CmdsKept.foldl (fun s _ => .ite (.refl s) ((refl s).setFld _ _ _)) _ s).trans (syncBind _)

theorem bindStart : CmdsKept s s.bindStart := ((unbindAll s).andFoldl bindQuarter _).trans (syncBind _)

theorem bindInvalid : CmdsKept s s.bindInvalid := by
  refine .foldl (fun s l => .ite (.refl s) ?_) _ s
  split
  · exact ((refl s).setFld _ _ _).trans (syncBind _)
  · exact .refl s

theorem placerLoad (policy : Nat) : CmdsKept s (s.placerLoad policy) :=
  .ite (.refl s) (.ite ((bindInvalid s).trans (reportShort _))
    (((((refl s).setFld _ _ _).trans (bindStart _)).trans (bindInvalid _)).trans (reportShort _)))

/-! ### The image -/

theorem tpId (a : Nat) : CmdsKept s (s.tpId a) := .foldl (fun s _ => ((refl s).setFld _ _ _).setFld _ _ _) _ s

theorem tpHeader (a : Nat) : CmdsKept s (s.tpHeader a) :=
  ((refl s).setReg64 _ _ _).andFoldl (fun s _ => .ite ((refl s).setFld _ _ _) (.refl s)) _

theorem invalidate (q ctx scope : Nat) : CmdsKept s (s.invalidate q ctx scope) :=
  .of_keeps (s.invalidate_effect q ctx scope).2.2 (by decide)

theorem invNow (ctx scope : Nat) : CmdsKept s (s.invNow ctx scope) :=
  .foldl (fun s q => ((((refl s).setFld _ _ _).setFld _ _ _).trans (invalidate _ q ctx scope)).setFld _ _ _) _ s

theorem zeroFill (a n : Nat) : CmdsKept s (s.zeroFill a n) := ⟨rfl⟩

theorem openCtx (ctx : Nat) : CmdsKept s (s.openCtx ctx) :=
  ((((zeroFill s _ _).trans (zeroFill _ _ _)).andFoldl
    (fun s _ => ((((refl s).setReg _ _).setReg _ _).setReg _ _).setReg _ _) _)).trans (invNow _ ctx 2)

theorem tpCtx (ctx : Nat) : CmdsKept s (s.tpCtx ctx) :=
  .ite (openCtx s ctx) (.foldl (fun s _ => .foldl (fun s _ => (refl s).setReg _ _) _ s) _ s)

theorem put8 (a v : Nat) : CmdsKept s (s.put8 a v) := writeMem s _ _ _ _

theorem newTable : CmdsKept s s.newTable.2 := ⟨rfl⟩

theorem tableOf (e : Nat) : CmdsKept s (s.tableOf e).2 := by
  unfold State.tableOf
  extract_lets v
  split
  · exact .refl s
  · dsimp only
    exact CmdsKept.trans (.ite (newTable s) ((newTable s).andFoldl (fun s _ => put8 s _ _) _)) (put8 _ _ _)

theorem putPte (ctx va pte : Nat) (giga : Bool) : CmdsKept s (s.putPte ctx va pte giga) := by
  unfold State.putPte
  dsimp only
  exact .ite ((tableOf s _).trans (put8 _ _ _)) (((tableOf s _).trans (tableOf _ _)).trans (put8 _ _ _))

theorem swWrite (a : Nat) (v : Word) : CmdsKept s (s.swWrite a v) := by
  unfold State.swWrite
  split
  · exact (refl s).setReg _ _
  · exact .refl s

theorem swWriteKeep (a : Nat) (keep : List Fld) (v : Word) : CmdsKept s (s.swWriteKeep a keep v) :=
  (swWrite s a v).andFoldl (fun s _ => (refl s).setFld _ _ _) keep

theorem setRegs (a : Nat) (bs : List Byte) : CmdsKept s (s.setRegs a bs) := by
  fun_induction s.setRegs a bs with
  | case1 s a b0 b1 b2 b3 r ih => exact (swWrite s a _).trans ih
  | case2 => exact refl _

/-! ### The sections of the image -/

theorem tpT1 (a n : Nat) : CmdsKept s (s.tpT1 a n) := .foldl (fun s _ => .ite (writeMem s _ _ _ _) (.refl s)) _ s

theorem tpPages (ctx : Nat) (ws : List Nat) : CmdsKept s (s.tpPages ctx ws) := by
  fun_induction s.tpPages ctx ws with
  | case1 s va e r ih => exact (putPte s _ _ _ _).trans ih
  | case2 => exact refl _

theorem tpBuoys (ws : List Nat) : CmdsKept s (s.tpBuoys ws) := .foldl (fun s _ => .ite ((refl s).setFld _ _ _) (.refl s)) ws s

theorem tpData (ctx va n : Nat) (bs : List Byte) : CmdsKept s (s.tpData ctx va n bs) := by
  induction n generalizing s va bs with
  | zero => exact refl s
  | succ n ih => exact .ite (.refl s) ((CmdsKept.ite (.refl s) (writeMem s _ _ _ _)).trans (ih _ _ _))

theorem tpEntry (w : Nat) : CmdsKept s (s.tpEntry w) := by
  unfold State.tpEntry
  split
  · exact .refl s
  · exact (((refl s).setFld _ _ _).setFld _ _ _).setFld _ _ _

theorem tpFuu (ws : List Nat) : CmdsKept s (s.tpFuu ws) := by
  fun_induction s.tpFuu ws with
  | case1 s a v r ih => exact (CmdsKept.ite (swWrite s a _) (.ite (put8 s a v) (.refl s))).trans ih
  | case2 => exact refl _

theorem tpTable (lo hi dflt : Nat) : CmdsKept s (s.tpTable lo hi dflt).2 := by
  unfold State.tpTable
  extract_lets a
  split
  · exact ((refl s).setReg _ _).setReg _ _
  · exact .refl s

theorem tpWrite (a : Nat) (g : TpSec) : CmdsKept s (s.tpWrite a g) := by
  unfold State.tpWrite
  extract_lets bs ws put onIsl
  have hput {t : Nat × State} (h : CmdsKept s t.2) : CmdsKept s (put t) := h.trans (writeMem _ _ _ _ _)
  have honIsl {f : Nat → State} (h : ∀ p, CmdsKept s (f p)) : CmdsKept s (onIsl f) := by
    unfold onIsl
    split
    · exact h _
    · exact .refl s
  split
  · exact honIsl fun p => writeMem s _ _ _ _
  · exact (hput (refl s)).trans (tpT1 _ _ _)
  · exact tpPages s _ ws
  · exact honIsl fun p => setRegs s _ _
  · exact honIsl fun p => setRegs s _ _
  · exact tpBuoys s ws
  · exact tpData s _ _ _ bs
  · exact .foldl (fun s q => setRegs s _ _) _ s
  · exact hput (tpTable s _ _ _)
  · exact hput (tpTable s _ _ _)
  · exact hput (tpTable s _ _ _)
  · exact (setRegs s _ _).trans (setRegs _ _ _)
  · exact .foldl tpEntry ws s
  · exact (setRegs s _ _).trans (setRegs _ _ _)
  · exact tpFuu s ws
  · exact .refl s

theorem clearBuoys : CmdsKept s s.clearBuoys := ⟨rfl⟩

theorem tpGens (a : Nat) : CmdsKept s (s.tpGens a) := .foldl (fun s _ => .foldl (fun s _ => (refl s).setFld _ _ _) _ s) _ s

theorem tpProfile (a : Nat) : CmdsKept s (s.tpProfile a) :=
  (((refl s).setFld _ _ _).setFld _ _ _).andFoldl (fun s _ => (refl s).setFld _ _ _) _

theorem loadSent : CmdsKept s s.loadSent := by
  refine .foldl (fun s p => ?_) _ s
  have drawn : CmdsKept s s.free.2 := .of_fw s.free_fw
  exact .ite drawn (((drawn.setReg _ _).setReg _ _).setReg _ _)

theorem withImage {t : State} (h : CmdsKept s t) (a n : Nat) :
    CmdsKept s { t with fw := { t.fw with image := a, imageLen := n } } := ⟨h.same⟩

/-- A load of the program image at `a` (R414). -/
theorem tpLoad (a n first : Nat) : CmdsKept s (s.tpLoad a n first) := by
  unfold State.tpLoad
  extract_lets keep bound named tables sections gens invalidated fw
  have hbound : CmdsKept s bound := placerLoad s _
  have hnamed : CmdsKept s named := (CmdsKept.ite hbound (hbound.trans (tpId _ a))).trans (tpHeader _ a)
  have htables : CmdsKept s tables := hnamed.andFoldl tpCtx _
  have hcleared : CmdsKept s tables.clearBuoys := htables.trans (clearBuoys _)
  have hsections : CmdsKept s sections := hcleared.andFoldl (fun s g => .ite (.refl s) (tpWrite s a g)) _
  have hgens : CmdsKept s gens := ((hsections.trans (tpGens _ a)).trans (tpProfile _ a)).trans (loadSent _)
  have hinvalidated : CmdsKept s invalidated := (hgens.setReg _ _).trans (invNow _ 0 3)
  clear_value invalidated
  exact (withImage s hinvalidated a n).trans (load _)

/-- A load of the last image, or of what the registers hold. -/
theorem loadAt (first : Nat) : CmdsKept s (s.loadAt first) :=
  .ite (.refl s) (.ite (((refl s).setReg _ _).trans (load _)) (tpLoad s _ _ first))

end CmdsKept

/-- A load of this module is refused and changes nothing, or it is accepted or rejected by the checks (R326, R414). -/
theorem State.loadHere_cases (s : State) (a n : Nat) (first : Option Nat) :
    (∃ st, s.loadHere a n first = (st, 0, s) ∧ st ≠ 0 ∧ st ≠ 8 ∧ (s.loaded = true → st = 4))
      ∨ s.loaded = false ∧ ∃ u, CmdsKept s u
        ∧ s.loadHere a n first = if u.loaded then (0, 0, u) else (8, (u.reg Reg.TIDE_LOADERR).toNat % 256, u) := by
  by_cases busy : s.loaded || s.anyShort
  · exact .inl ⟨4, if_pos busy, by decide, by decide, fun _ => rfl⟩
  · have idle : s.loaded = false := by simp_all
    unfold State.loadHere
    rw [if_neg busy]
    split
    · exact .inl ⟨0x0E, rfl, by decide, by decide, by simp [idle]⟩
    · split
      · exact .inl ⟨1, rfl, by decide, by decide, by simp [idle]⟩
      · split
        · exact .inl ⟨4, rfl, by decide, by decide, by simp [idle]⟩
        · exact .inr ⟨idle, _, .tpLoad s a n _, rfl⟩

end Sys2Proof.Machine
end


section
/-! SUPPORT. The start of a Tide, the GO that starts it (R334, R335), and the stop of a job (R327, R341, R415). -/

namespace Sys2Proof.Machine

/-! ### The Tide that a GO starts -/

/-- The start of a Tide (R335). -/
theorem State.tideStart_effect (s : State) (n cmd gnsq : Nat) : let t := s.tideStart n cmd gnsq
    t.tideNum = n % 2 ^ 32 ∧ t.tideSt = 1 ∧ (t.reg Reg.TIDE_GCMD).toNat = cmd % 256 := by
  obtain ⟨u, -, number, status, gcmd, kept⟩ := s.tideStart_from n cmd gnsq
  refine ⟨?_, ?_, ?_⟩
  · rw [kept.tideNum, State.tideNum, number, BitVec.toNat_ofNat]
  · rw [kept.tideSt, State.tideSt, State.fld, status]
    rfl
  · rw [kept.gcmd, gcmd, BitVec.toNat_ofNat]
    omega

theorem tideGo_row : regRow? Reg.TIDE_GO = some ⟨0x60028, [], true, [Fd.TIDE_GO_GO, Fd.TIDE_GO_CMD]⟩ := by decide +kernel

/-- The root's GO outside a start marker: the next Tide runs, with CMD as TIDE_GO holds it (R334). -/
theorem State.sendGo_effect (s : State) (hn : s.tideNum < 0xFFFFFFFF) (hm : s.tide.startMarker = false) : let t := s.sendGo
    t.tideNum = s.tideNum + 1 ∧ t.tideSt = 1 ∧ (t.reg Reg.TIDE_GCMD).toNat = s.fld Reg.TIDE_GO Fd.TIDE_GO_CMD := by
  have cmd : s.fld Reg.TIDE_GO Fd.TIDE_GO_CMD < 256 := Fd.TIDE_GO_CMD.get_lt _
  intro t
  have started : ∃ (u : State) (gnsq : Nat), t = u.tideStart ((s.tideNum + 1) % 2 ^ 32) (s.fld Reg.TIDE_GO Fd.TIDE_GO_CMD) gnsq := by
    have notLast : ¬(s.tideNum = 0xFFFFFFFF ∧ !s.tide.startMarker) := fun h => absurd h.1 hn.ne
    simp only [t, State.sendGo]
    rw [if_neg notLast]
    simp only [hm, if_neg Bool.false_ne_true]
    exact ⟨_, _, rfl⟩
  obtain ⟨u, gnsq, ht⟩ := started
  rw [ht]
  obtain ⟨number, running, gcmd⟩ := u.tideStart_effect ((s.tideNum + 1) % 2 ^ 32) (s.fld Reg.TIDE_GO Fd.TIDE_GO_CMD) gnsq
  exact ⟨by rw [number]; omega, running, by rw [gcmd]; omega⟩

/-- A GO written in HELD starts the next Tide with the CMD written (R334). -/
theorem State.goWrite_effect (s : State) {v : Word} (hgo : Fd.TIDE_GO_GO.get v = 1) (hs : s.tideSt = 3) (hn : s.tideNum < 0xFFFFFFFF)
    (hm : s.tide.startMarker = false) : let t := s.goWrite v
    CmdsKept s t ∧ t.tideNum = s.tideNum + 1 ∧ t.tideSt = 1 ∧ (t.reg Reg.TIDE_GCMD).toNat = Fd.TIDE_GO_CMD.get v := by
  set u := s.swWriteKeep Reg.TIDE_GO [Fd.TIDE_GO_GO] v with hu
  obtain ⟨-, keeps, others⟩ := s.swWrite_effect tideGo_row v
  have reg {a : Nat} (ha : a ≠ Reg.TIDE_GO) : u.reg a = s.reg a :=
    (State.reg_setReg_other _ _ ha).trans (others a (by rwa [List.mem_singleton]))
  have number : u.tideNum = s.tideNum := congrArg BitVec.toNat (reg (by decide))
  have held : u.tideSt = s.tideSt := congrArg Fd.TIDE_STATUS_STATE.get (reg (by decide))
  have marker : u.tide.startMarker = s.tide.startMarker := congrArg TideSt.startMarker (keeps.2 .tide (by decide))
  have cmd : u.fld Reg.TIDE_GO Fd.TIDE_GO_CMD = Fd.TIDE_GO_CMD.get v :=
    (State.fld_setFld_disjoint _ _ Fd.TIDE_GO_GO Fd.TIDE_GO_CMD _ (by decide) (.inr (by decide))).trans
      (s.fld_swWrite tideGo_row v (by decide) rfl)
  have sent : s.goWrite v = u.sendGo := if_pos ⟨hgo, held.trans hs⟩
  intro t
  obtain ⟨next, running, gcmd⟩ := u.sendGo_effect (by rwa [number]) (by rwa [marker])
  rw [← sent] at next running gcmd
  have cmds : CmdsKept s u.sendGo := (CmdsKept.swWriteKeep s _ _ v).trans (.sendGo u)
  rw [← sent] at cmds
  exact ⟨cmds, by rw [next, number], running, by rw [gcmd, cmd]⟩

/-! ### The stop of a job -/

/-- A FAIL leaves STATE FAILED (R341). -/
theorem State.fail_tideSt (s : State) (reason md : Nat) (h : s.tideSt ≠ 0) : (s.fail reason md).tideSt = 4 := by
  have failed (t : State) : ((t.setTideSt 4).report .tideFail 0 reason md).tideSt = 4 :=
    t.fld_setFld_same _ Fd.TIDE_STATUS_STATE 4 (by decide)
  unfold State.fail
  split
  case isTrue done => exact done.resolve_left h
  case isFalse => exact failed _

/-- UNLOAD out of MARKED, HELD or FAILED (R327). -/
theorem State.unload_effect (s : State) (h : s.tideSt = 2 ∨ s.tideSt = 3 ∨ s.tideSt = 4) :
    s.unload.loaded = false ∧ s.unload.tideSt = 0 := by
  set u := s.flushLinks.clearSched.setFld Reg.ISL_POLICY Fd.ISL_POLICY_LOADED 0 with hu
  have kept : JobKept u (u.haltAll.clearChans).abortSwap := ((JobKept.haltAll u).trans (.clearChans _)).trans (.abortSwap _)
  have unloaded : s.unload = (u.haltAll.clearChans).abortSwap.setTideSt 0 := if_pos h
  rw [unloaded]
  refine ⟨?_, State.fld_setFld_same _ _ _ _ (by decide)⟩
  have cleared : u.loaded = false := by
    rw [State.loaded, State.bit, hu, State.fld_setFld_same _ _ _ _ (by decide)]
    rfl
  exact (State.bit_congr (State.reg_setReg_other _ _ (by decide)) _).trans (kept.loaded.trans cleared)

/-- FAILNOW, then UNLOAD, of a program in any state (R381). -/
theorem State.failUnload_effect (s : State) (h : s.tideSt ≠ 0) : s.failUnload.loaded = false ∧ s.failUnload.tideSt = 0 :=
  State.unload_effect _ (.inr (.inr (s.fail_tideSt 6 _ h)))

theorem State.progUnload_effect (s : State) (h0 : s.tideSt ≠ 0) (h4 : s.tideSt ≤ 4) :
    s.progUnload.loaded = false ∧ s.progUnload.tideSt = 0 := by
  unfold State.progUnload
  split
  · exact State.unload_effect _ (.inr (.inr (s.fail_tideSt 6 _ h0)))
  · exact State.unload_effect _ (by omega)

theorem JobKept.fuuSetStart (s : State) {u : Nat} (hu : u < 8) (set : Nat) : JobKept s (s.fuuSetStart u set) := by
  have apart {off : Nat} (ho : off < 0x1000) : ¬JobReg (qtrWin (u / 2) + (0xA0000 + off) + u % 2 * 0x1000) := by
    rw [Nat.add_assoc]
    exact not_jobReg_qtr (by omega) (by omega) (by omega)
  unfold State.fuuSetStart
  extract_lets going zeroed
  have hgoing : JobKept s going := setFld s _ _ (apart (off := 0) (by decide))
  have hzeroed : JobKept s zeroed :=
    .ite ((hgoing.andReg _ (apart (off := 0x38) (by decide))).andReg _ (apart (off := 0x3C) (by decide))) hgoing
  split
  · exact (hzeroed.andFld _ _ (apart (off := 0) (by decide))).andFld _ _ (apart (off := 0) (by decide))
  · exact hzeroed.trans (fuuStart _ hu set false)

theorem JobKept.acted (s : State) (u : Nat) : JobKept s (s.acted u) := of_parts ⟨rfl⟩ rfl

theorem JobKept.allSets (s : State) (set : Nat) : JobKept s (s.allSets set) :=
  foldRange (fun s _ hu => (fuuSetStart s hu set).trans (acted _ _)) s

end Sys2Proof.Machine
end


section
/-! SUPPORT. Memory through the stop of a job (R327, R341), and the steps of BATCH_CANCEL: contexts stopped, generations written
(R146, R258, R259, R417). -/

namespace Sys2Proof.Machine

/-! ### Memory while a job stops -/

/-- Memory is as it was, and no port has got a link record that is due. -/
structure MemQuiet (s t : State) : Prop where
  mem : t.mem = s.mem
  links : s.LinksQuiet → t.LinksQuiet

namespace MemQuiet

variable {s t u : State}

theorem refl (s : State) : MemQuiet s s := ⟨rfl, id⟩

theorem trans (h : MemQuiet s t) (h' : MemQuiet t u) : MemQuiet s u := ⟨h'.mem.trans h.mem, fun hl => h'.links (h.links hl)⟩

theorem ite {c : Prop} [Decidable c] (ht : MemQuiet s t) (hu : MemQuiet s u) : MemQuiet s (if c then t else u) := by
  split
  · exact ht
  · exact hu

theorem foldl {α : Type} {f : State → α → State} (h : ∀ s x, MemQuiet s (f s x)) (xs : List α) (s : State) :
    MemQuiet s (xs.foldl f s) := by
  induction xs generalizing s with
  | nil => exact refl s
  | cons x xs ih => exact (h s x).trans (ih _)

theorem of_parts (hm : t.mem = s.mem) (hp : t.ports = s.ports) : MemQuiet s t := by
  refine ⟨hm, fun h k => ?_⟩
  rw [State.port, hp]
  exact h k

theorem of_keeps {ps : List Part} (h : KeepsBut ps s t) (hm : .mem ∉ ps) (hp : .ports ∉ ps) : MemQuiet s t :=
  of_parts (h.2 .mem hm) (h.2 .ports hp)

/-- A port whose counts stay. -/
theorem setPort (s : State) (k : Nat) {x : Port} (hr : x.cRetry = (s.port k).cRetry) (hu : x.cUe = (s.port k).cUe) :
    MemQuiet s (s.setPort k x) := by
  refine ⟨s.setPort_mem k x, fun h j => ?_⟩
  rw [State.port_setPort]
  split
  case isTrue e => exact ⟨by rw [hr, ← e]; exact (h j).1, by rw [hu, ← e]; exact (h j).2⟩
  case isFalse => exact h j

section
variable (h : MemQuiet s t)
include h

theorem andFld (a : Nat) (f : Fld) (v : Nat) : MemQuiet s (t.setFld a f v) := h.trans (of_parts (t.setFld_mem a f v) (t.setFld_ports a f v))

theorem andReg (a : Nat) (v : Word) : MemQuiet s (t.setReg a v) := h.trans (of_parts (t.setReg_mem a v) (t.setReg_ports a v))

end

variable (s)

theorem setPstate (p st : Nat) : MemQuiet s (s.setPstate p st) := .ite (refl s) (((refl s).andFld _ _ _).andFld _ _ _)

theorem stopCtx (p c st : Nat) : MemQuiet s (s.stopCtx p c st) := of_keeps (s.stopCtx_keeps p c st) (by decide) (by decide)

theorem haltAll : MemQuiet s s.haltAll := by
  have halt (s : State) (p c : Nat) : MemQuiet s (s.haltCtx p c) := by
    have discarded : MemQuiet s (s.discardSigs p c) := of_parts rfl rfl
    exact .ite ((refl s).andFld _ _ _) (discarded.trans (stopCtx _ p c 5))
  exact .foldl (fun s p => .ite (refl s) ((halt s p 0).trans (halt _ p 1))) _ s

theorem syncChan (ch : Nat) : MemQuiet s (s.syncChan ch) := by
  unfold State.syncChan
  extract_lets x a armed
  have harmed : MemQuiet s armed := (refl s).andFld _ _ _
  split
  · exact (harmed.andFld _ _ _).andFld _ _ _
  · exact harmed.andFld _ _ _

theorem clearChans : MemQuiet s s.clearChans :=
  .foldl (fun s ch => (of_parts (State.setChan_mem ..) (State.setChan_ports ..)).trans (syncChan (s.setChan ch {}) ch)) _ s

theorem abortSwap : MemQuiet s s.abortSwap := by
  unfold State.abortSwap
  extract_lets src dst states fw untested
  have hstates : MemQuiet s states := (setPstate s _ 1).trans (setPstate _ _ 2)
  have huntested : MemQuiet s untested := hstates.trans (of_parts rfl rfl)
  exact .ite (refl s) (((huntested.andFld _ _ _).andFld _ _ _).andFld _ _ _)

theorem clearSched : MemQuiet s s.clearSched := .foldl (fun s _ => (refl s).andFld _ _ _) _ s

theorem sendTide (k kind n : Nat) (line : List Byte) : MemQuiet s (s.sendTide k kind n line) := .ite (refl s) (setPort s k rfl rfl)

theorem sendKids (kind n : Nat) (line : List Byte) : MemQuiet s (s.sendKids kind n line) :=
  .foldl (fun s k => sendTide s k kind n line) _ s

variable {s}

/-- No link record is due (R321). -/
theorem flushLinks (h : s.LinksQuiet) : s.flushLinks = s := by
  have one (k : Nat) (hk : k < 16) : s.flushLink k = s := by
    obtain ⟨retry, ue⟩ := h ⟨k, hk⟩
    simp only at retry ue
    simp [State.flushLink, retry, ue]
  have all (ks : List Nat) (hks : ∀ k ∈ ks, k < 16) : ks.foldl State.flushLink s = s := by
    induction ks with
    | nil => rfl
    | cons k ks ih =>
      rw [List.foldl_cons, one k (hks k (List.mem_cons_self ..))]
      exact ih fun j hj => hks j (List.mem_cons_of_mem _ hj)
  exact all _ fun k hk => List.mem_range.1 hk

theorem fail (h : s.LinksQuiet) (reason md : Nat) : MemQuiet s (s.fail reason md) := by
  unfold State.fail
  rw [flushLinks h]
  extract_lets flushed recorded failed line n sent tide unheld
  have hfailed : MemQuiet s failed := (MemQuiet.ite (refl s) ((refl s).andReg _ _)).andFld _ _ _
  have hsent : MemQuiet s sent :=
    .ite hfailed ((MemQuiet.ite hfailed (hfailed.trans (sendTide _ _ 5 n line))).trans (sendKids _ 5 n line))
  have hunheld : MemQuiet s unheld := hsent.trans (of_parts rfl rfl)
  exact .ite (refl s) ((((hunheld.trans (haltAll _)).trans (clearChans _)).andFld _ _ _).trans
    (of_parts (State.report_mem ..) (State.report_ports ..)))

theorem unload (h : s.LinksQuiet) : MemQuiet s s.unload := by
  unfold State.unload
  rw [flushLinks h]
  exact .ite ((((((clearSched s).andFld _ _ _).trans (haltAll _)).trans (clearChans _)).trans (abortSwap _)).andFld _ _ _) (refl s)

theorem progUnload (h : s.LinksQuiet) : MemQuiet s s.progUnload := by
  have stopped : MemQuiet s (if s.tideSt = 1 then s.failHere 6 else s) := .ite (fail h 6 _) (refl s)
  exact stopped.trans (unload (stopped.links h))

end MemQuiet

/-! ### Contexts stopped for a batch -/

/-- What the stop of contexts leaves: memory, the firmware's records, the bindings, the generations, and stopped contexts. -/
structure StopKept (s t : State) : Prop where
  mem : t.mem = s.mem
  fw : t.fw = s.fw
  physOf : ∀ l, t.physOf l = s.physOf l
  gen : ∀ p, ∀ i < 16, t.reg (Reg.SHL_GEN p i) = s.reg (Reg.SHL_GEN p i)
  stopped : ∀ p c, s.ctxStopped p c = true → t.ctxStopped p c = true

namespace StopKept

theorem refl (s : State) : StopKept s s := ⟨rfl, rfl, fun _ => rfl, fun _ _ _ => rfl, fun _ _ => id⟩

theorem trans {s t u : State} (h : StopKept s t) (h' : StopKept t u) : StopKept s u :=
  ⟨h'.mem.trans h.mem, h'.fw.trans h.fw, fun l => (h'.physOf l).trans (h.physOf l),
    fun p i hi => (h'.gen p i hi).trans (h.gen p i hi), fun p c hs => h'.stopped p c (h.stopped p c hs)⟩

end StopKept

theorem State.ctxStopped_iff (s : State) (p c : Nat) : s.ctxStopped p c = true ↔ s.ctxSt p c = 0 ∨ s.ctxSt p c = 5 := by
  simp [State.ctxStopped]

theorem State.physOf_lt (s : State) {l p : Nat} (h : s.physOf l = some p) : p < 256 := by
  unfold State.physOf at h
  split at h
  · exact Option.some.inj h ▸ Fd.ISL_LMAP_PHYS.get_lt _
  · cases h

/-- A stop of a context writes ISL_SEQ_CTL and ISL_SEQ_STATUS of its Island, and of other registers no field but WAITERS. -/
theorem State.fld_stopRun_other (s : State) (p c : Nat) {a : Nat} {f : Fld} (h : a % 256 ≠ 4 ∨ f.lo + f.w ≤ 12)
    (hctl : a ≠ Reg.ISL_SEQ_CTL p) (hst : a ≠ Reg.ISL_SEQ_STATUS p) : (s.stopRun p c).fld a f = s.fld a f := by
  unfold State.stopRun
  split
  · exact s.fld_setFld_other _ _ _ hctl
  · rw [s.fld_stopCtx p c 5 h, State.setSt, State.fld_setFld_other _ _ _ _ hst, State.fld_setFld_other _ _ _ _ hctl]

/-- ISL_SEQ_CTL of no Island shows a context's state. -/
theorem State.ctxSt_setSeqCtl (s : State) (p : Nat) (f : Fld) (v q d : Nat) :
    (s.setFld (Reg.ISL_SEQ_CTL p) f v).ctxSt q d = s.ctxSt q d :=
  s.fld_setFld_other _ _ _ (by unfold Reg.ISL_SEQ_STATUS Reg.ISL_SEQ_CTL islWin; omega)

/-- The context is stopped (R146). -/
theorem State.stopRun_stops (s : State) (p : Nat) (c : Fin 2) : (s.stopRun p c).ctxStopped p c = true := by
  rw [State.ctxStopped_iff]
  unfold State.stopRun
  split
  case isTrue already =>
    rw [State.ctxSt_setSeqCtl]
    exact already
  case isFalse => exact .inr (s.stopCtx_stops p c (by decide)).1

theorem State.stopRun_keeps (s : State) (p c : Nat) : KeepsBut [.regs, .isls, .qtrs] s (s.stopRun p c) := by
  unfold State.stopRun
  split
  · exact (s.setReg_keeps _ _).mono (by decide)
  · exact s.stopCtx_keeps p c 5

theorem State.physOf_stopRun (s : State) {p : Nat} (hp : p < 256) (c l : Nat) : (s.stopRun p c).physOf l = s.physOf l := by
  have fld (f : Fld) (hf : f.lo + f.w ≤ 12) : (s.stopRun p c).fld (Reg.ISL_LMAP l) f = s.fld (Reg.ISL_LMAP l) f :=
    s.fld_stopRun_other p c (.inr hf) (by unfold Reg.ISL_LMAP modWin Reg.ISL_SEQ_CTL islWin; omega)
      (by unfold Reg.ISL_LMAP modWin Reg.ISL_SEQ_STATUS islWin; omega)
  rw [State.physOf, State.physOf, State.bit, fld Fd.ISL_LMAP_VALID (by decide), fld Fd.ISL_LMAP_PHYS (by decide)]
  rfl

theorem State.gen_stopRun (s : State) (p c q : Nat) {i : Nat} (hi : i < 16) :
    (s.stopRun p c).reg (Reg.SHL_GEN q i) = s.reg (Reg.SHL_GEN q i) :=
  State.reg_of_fld (s.fld_stopRun_other p c (.inl (by unfold Reg.SHL_GEN islWin; omega))
    (by unfold Reg.SHL_GEN Reg.ISL_SEQ_CTL islWin; omega) (by unfold Reg.SHL_GEN Reg.ISL_SEQ_STATUS islWin; omega))

/-- The stop of a context that is neither IDLE nor STOPPED leaves one that is. -/
theorem State.ctxStopped_stopRun (s : State) (p c : Nat) {q d : Nat} (h : s.ctxStopped q d = true) :
    (s.stopRun p c).ctxStopped q d = true := by
  rw [State.ctxStopped_iff] at h ⊢
  unfold State.stopRun
  split
  case isTrue =>
    rw [State.ctxSt_setSeqCtl]
    exact h
  case isFalse active =>
    have low : (stFld d).lo + (stFld d).w ≤ 12 := by unfold stFld; split <;> decide
    have status : (s.stopCtx p c 5).ctxSt q d = s.ctxSt q d := calc
      (s.stopCtx p c 5).ctxSt q d = ((s.setFld (Reg.ISL_SEQ_CTL p) (runFld c) 0).setSt p c 5).ctxSt q d :=
        s.fld_stopCtx p c 5 (.inr low)
      _ = (s.setFld (Reg.ISL_SEQ_CTL p) (runFld c) 0).ctxSt q d :=
        State.ctxSt_setSt_of_ne _ 5 (by rw [State.ctxSt_setSeqCtl, State.ctxSt_setSeqCtl]; omega)
      _ = s.ctxSt q d := s.ctxSt_setSeqCtl ..
    rw [status]
    exact h

theorem StopKept.stopRun (s : State) {p : Nat} (hp : p < 256) (c : Nat) : StopKept s (s.stopRun p c) where
  mem := (s.stopRun_keeps p c).2 .mem (by decide)
  fw := (s.stopRun_keeps p c).2 .fw (by decide)
  physOf := s.physOf_stopRun hp c
  gen := fun q i => s.gen_stopRun p c q
  stopped := fun q d => s.ctxStopped_stopRun p c

/-- The listed contexts of a batch are stopped one after the other (R417). -/
theorem State.stopRuns_effect (es : List (Nat × Nat × Nat)) (hp : ∀ e ∈ es, e.1 < 256) (hc : ∀ e ∈ es, e.2.1 < 2) (s : State) :
    let t := es.foldl (fun s e => s.stopRun e.1 e.2.1) s
    StopKept s t ∧ ∀ e ∈ es, t.ctxStopped e.1 e.2.1 = true := by
  induction es generalizing s with
  | nil => exact ⟨.refl s, fun _ h => absurd h List.not_mem_nil⟩
  | cons e es ih =>
    obtain ⟨hpe, hpes⟩ := List.forall_mem_cons.1 hp
    obtain ⟨hce, hces⟩ := List.forall_mem_cons.1 hc
    obtain ⟨kept, stopped⟩ := ih hpes hces (s.stopRun e.1 e.2.1)
    refine ⟨(StopKept.stopRun s hpe _).trans kept, List.forall_mem_cons.2 ⟨?_, stopped⟩⟩
    exact kept.stopped _ _ (s.stopRun_stops e.1 ⟨e.2.1, hce⟩)

/-! ### Generations -/

/-- A write to memory leaves the registers that no record of an error writes (R271). -/
theorem State.writeMem_steady (s : State) (a : Nat) (bs : List Byte) (req lisl : Nat) {r : Nat} (h : SteadyReg r) :
    (s.writeMem a bs req lisl).2.reg r = s.reg r :=
  (State.reg_congr ((State.store_keeps _ a bs).2 .regs (by decide)) r).trans
    ((AccessNoted.writeCws s (a / 32 * 32) a (a + bs.length) req lisl (cwSpan a bs.length)).reg r h)

/-- The write of a new generation to an image's table (R259): the commands in flight and steady registers stay. -/
theorem CmdsKept.writeGen (s : State) (a t g : Nat) : CmdsKept s (s.writeGen a t g) :=
  .ite (.refl s) ((writeMem s _ _ _ _).andFoldl (fun s _ => writeMem s _ _ _ _) _)

theorem State.writeGen_steady (s : State) (a t g : Nat) {r : Nat} (h : SteadyReg r) : (s.writeGen a t g).reg r = s.reg r := by
  unfold State.writeGen
  extract_lets tab n ds
  split
  · rfl
  · exact (foldl_keeps (g := fun s => s.reg r) (fun s _ => s.writeMem_steady _ _ _ _ h) _ _).trans (s.writeMem_steady _ _ _ _ h)

theorem State.writeGen_none (s : State) {a : Nat} (h : s.genTable a = 0) (t g : Nat) : s.writeGen a t g = s := if_pos h

theorem State.genTable_congr {s t : State} (h : t.mem = s.mem) (a : Nat) : t.genTable a = s.genTable a := by
  rw [State.genTable, State.genTable, State.memNat_congr fun _ _ _ => State.byte_congr h _]

theorem steadyReg_isl {p off : Nat} (hp : p < 256) (ho : off < 0x10000) (h : QuietReg (islWin p + off)) :
    SteadyReg (islWin p + off) := by
  refine ⟨h, fun q => ?_⟩
  unfold Reg.CHT_CNT_WALK Reg.STR_TRK_STATUS qtrWin islWin
  omega

theorem steadyReg_shlGen {p i : Nat} (hp : p < 256) (hi : i < 16) : SteadyReg (Reg.SHL_GEN p i) := by
  rw [Reg.SHL_GEN, Nat.add_assoc]
  exact steadyReg_isl hp (by omega) (by unfold QuietReg islWin; omega)

theorem steadyReg_seqStatus {p : Nat} (hp : p < 256) : SteadyReg (Reg.ISL_SEQ_STATUS p) :=
  steadyReg_isl hp (by decide) (by unfold QuietReg islWin; omega)

/-- SHL_GEN of a tag slot, in every Island (R417). -/
def State.setGens (s : State) (k g : Nat) : State :=
  (List.range 144).foldl (fun s p => s.setFld (Reg.SHL_GEN p k) Fd.SHL_GEN_TAG g) s

theorem State.setGens_gen (s : State) {k g : Nat} (hg : g < 2 ^ 16) (p : Fin 144) :
    (s.setGens k g).fld (Reg.SHL_GEN p k) Fd.SHL_GEN_TAG = g := by
  have upTo (n : Nat) : ∀ q < n, ((List.range n).foldl (fun s p => s.setFld (Reg.SHL_GEN p k) Fd.SHL_GEN_TAG g) s).fld
      (Reg.SHL_GEN q k) Fd.SHL_GEN_TAG = g := by
    induction n with
    | zero => omega
    | succ n ih =>
      intro q hq
      rw [List.range_succ, List.foldl_append, List.foldl_cons, List.foldl_nil]
      by_cases e : q = n
      · rw [e, State.fld_setFld_same _ _ _ _ (by decide)]
        exact Nat.mod_eq_of_lt hg
      · rw [State.fld_setFld_other _ _ _ _ (by unfold Reg.SHL_GEN islWin; omega)]
        exact ih q (by omega)
  exact upTo 144 p p.isLt

theorem State.setGens_mem (s : State) (k g : Nat) : (s.setGens k g).mem = s.mem := foldl_keeps (fun s _ => s.setFld_mem _ _ _) _ s

theorem State.setGens_fw (s : State) (k g : Nat) : (s.setGens k g).fw = s.fw := foldl_keeps (fun s _ => s.setFld_fw _ _ _) _ s

theorem State.setGens_ctxStopped (s : State) {k : Nat} (hk : k < 16) (g p c : Nat) : (s.setGens k g).ctxStopped p c = s.ctxStopped p c := by
  refine foldl_keeps (g := fun s => s.ctxStopped p c) (fun s q => ?_) _ s
  have apart : Reg.ISL_SEQ_STATUS p ≠ Reg.SHL_GEN q k := by
    unfold Reg.ISL_SEQ_STATUS Reg.SHL_GEN islWin
    omega
  rw [State.ctxStopped, State.ctxStopped, State.ctxSt, s.fld_setFld_other _ _ _ apart]
  rfl

/-! ### Contexts started again -/

/-- A reissued context takes its PC and runs (R145, R417): generations, memory and the firmware's records stay. -/
theorem State.reissue_frame (s : State) (p pc : Nat) {c : Nat} (hc : c < 2) : let t := (s.setPc p c pc).runCtx p c
    t.mem = s.mem ∧ t.fw = s.fw ∧ ∀ q i, i < 16 → t.reg (Reg.SHL_GEN q i) = s.reg (Reg.SHL_GEN q i) := by
  have other {u : State} {q i off : Nat} (f : Fld) (v : Nat) (hi : i < 16) (ho : off < 0x20) :
      (u.setFld (islWin p + off) f v).reg (Reg.SHL_GEN q i) = u.reg (Reg.SHL_GEN q i) :=
    u.reg_setReg_other _ (by unfold Reg.SHL_GEN islWin; omega)
  have moved {q i : Nat} (hi : i < 16) : (s.setPc p c pc).reg (Reg.SHL_GEN q i) = s.reg (Reg.SHL_GEN q i) := by
    rw [State.setPc, Reg.ISL_SEQ_PC, Nat.add_assoc]
    exact other _ _ hi (by omega)
  intro t
  by_cases runs : (s.setPc p c pc).ctxStopped p c && (s.setPc p c pc).pstate p != 6
  · have ht : t = ((s.setPc p c pc).setFld (Reg.ISL_SEQ_CTL p) (runFld c) 1).setSt p c 1 := if_pos runs
    rw [ht]
    exact ⟨rfl, rfl, fun q i hi =>
      (other (off := 4) _ _ hi (by decide)).trans ((other (off := 0) _ _ hi (by decide)).trans (moved hi))⟩
  · have ht : t = s.setPc p c pc := if_neg runs
    rw [ht]
    exact ⟨rfl, rfl, fun q i hi => moved hi⟩

end Sys2Proof.Machine
end


section
/-! SUPPORT. A command that its row may perform (R397, R402), the answer it gets, and what an answer leaves alone. -/

namespace Sys2Proof.Machine

/-- The command that a row may perform is in flight, of the source asked for, and not performed yet. -/
theorem State.pcpCmd_pending {s : State} {src : PcpSrc} {opc : Nat} {c : Cmd} (h : s.pcpCmd src opc = some c) :
    c ∈ s.fw.cmds ∧ c.src = src ∧ c.res = none := by
  unfold State.pcpCmd at h
  split at h
  · cases h
  case h_2 d found =>
    split at h
    · cases h
      case isTrue may =>
      simp only [Bool.and_eq_true, Option.isNone_iff_eq_none] at may
      exact ⟨List.mem_of_find?_eq_some found, by simpa using List.find?_some found, by simp_all⟩
    · cases h

/-- A change of the commands in flight is no other change. -/
theorem State.modCmd_keeps (s : State) (src : PcpSrc) (f : Cmd → Cmd) : KeepsBut [.fw] s (s.modCmd src f) := by
  refine ⟨rfl, fun p hp => ?_⟩
  cases p with
  | fw => exact absurd (List.mem_singleton.2 rfl) hp
  | _ => rfl

section
variable (s : State) (c : Cmd) (st r0 r1 : Nat)

theorem State.answer_keeps : KeepsBut [.fw] s (s.answer c st r0 r1) := s.modCmd_keeps _ _

@[simp] theorem State.answer_reg (a : Nat) : (s.answer c st r0 r1).reg a = s.reg a := rfl

end

section
variable {s u : State} {src : PcpSrc} {opc : Nat} {c : Cmd} (h : s.pcpCmd src opc = some c) (hu : CmdsKept s u)
include h hu

/-- After an answer every command in flight of the source is performed with it. -/
theorem answered_answer (st r0 r1 : Nat) : Answered src st r0 r1 (u.answer c st r0 r1) := by
  obtain ⟨pending, hsrc, -⟩ := State.pcpCmd_pending h
  have cmds : (u.answer c st r0 r1).fw.cmds = s.fw.cmds.map
      fun x => if x.src == c.src then { x with res := some (st, r0 % 2 ^ 64, r1 % 2 ^ 64) } else x := by
    rw [← hu.same]
    rfl
  rw [Answered, cmds]
  refine ⟨⟨_, List.mem_map_of_mem pending, by simp [hsrc]⟩, fun y hy hys => ?_⟩
  obtain ⟨x, -, rfl⟩ := List.mem_map.1 hy
  by_cases own : x.src = c.src
  · simp [own]
  · simp only [beq_iff_eq, own, if_false] at hys
    exact absurd (hys.trans hsrc.symm) own

/-- A command taken to a further stage is in flight there, not performed. -/
theorem staged_toCmdStage (n : Nat) : ∃ y ∈ (u.toCmdStage c n).fw.cmds, y.src = src ∧ y.res = none ∧ y.stage = n := by
  obtain ⟨pending, hsrc, unperformed⟩ := State.pcpCmd_pending h
  have cmds : (u.toCmdStage c n).fw.cmds = s.fw.cmds.map fun x => if x.src == c.src then { x with stage := n } else x := by
    rw [← hu.same]
    rfl
  rw [cmds]
  exact ⟨_, List.mem_map_of_mem pending, by simp [hsrc], by simp [unperformed], by simp⟩

omit hu

/-- The row of a command that it may perform ends in the state that its action gives. -/
theorem settles_of_act {i : Instr} {act : State → Cmd → State} (hi : exec i s = s.pcp src opc act) (ha : act s c = u)
    {Q : State → Prop} (hQ : Q u) : Settles i s Q := by
  refine ⟨u, ?_, hQ⟩
  rw [hi, State.pcp, h]
  exact congrArg settled ha

include hu

/-- A command is performed where its action ends in an answer. -/
theorem performs_of_answer {i : Instr} {act : State → Cmd → State} (hi : exec i s = s.pcp src opc act) {st r0 r1 : Nat}
    (ha : act s c = u.answer c st r0 r1) {Q : State → Prop} (hQ : Q (u.answer c st r0 r1)) : Performs i src s st r0 r1 Q :=
  settles_of_act h hi ha ⟨answered_answer h hu st r0 r1, hQ⟩

omit hu

/-- A command that is only answered changes nothing else. -/
theorem performs_refusal {i : Instr} {act : State → Cmd → State} (hi : exec i s = s.pcp src opc act) {st r0 r1 : Nat}
    (ha : act s c = s.answer c st r0 r1) : Performs i src s st r0 r1 (KeepsBut [.fw] s) :=
  performs_of_answer h (.refl s) hi ha (s.answer_keeps c st r0 r1)

end

theorem State.isManager_iff (s : State) : s.isManager = true ↔ s.fw.manager = s.selfId 0 + 1 := beq_iff_eq

theorem State.jobHalted_iff (s : State) : s.jobHalted = true ↔ s.fw.manager = s.selfId 0 + 1 ∧ s.isRoot = true ∧ s.tideSt = 3
    ∧ s.fld Reg.TIDE_BCN_VERDICT Fd.TIDE_BCN_VERDICT_VERDICT = 4 := by
  simp only [State.jobHalted, Bool.and_eq_true, State.isManager_iff, beq_iff_eq, and_assoc]

end Sys2Proof.Machine
end


section
/-! Settles O44: loads, unloads, resumptions and cancelled batches (R259, R414 to R417). -/

namespace Sys2Proof.Machine

section
variable (src : PcpSrc) (as : List ModuleAnswer) (s : State)

theorem exec_progLoad : exec (.progLoad src as) s = execProgLoad src as s := rfl

theorem exec_progUnload : exec (.progUnload src as) s = execProgUnload src as s := rfl

theorem exec_jobResumeContinue : exec (.jobResumeContinue src) s = execJobResumeContinue src s := rfl

theorem exec_jobResumeRewind : exec (.jobResumeRewind src) s = execJobResumeRewind src s := rfl

theorem exec_jobResumeRestore : exec (.jobResumeRestore src) s = execJobResumeRestore src s := rfl

theorem exec_batchCancel : exec (.batchCancel src) s = execBatchCancel src s := rfl

end

theorem CmdsKept.withUnloadImg {s t : State} (h : CmdsKept s t) (n : Nat) :
    CmdsKept s { t with fw := { t.fw with unloadImg := n } } := ⟨h.same⟩

section
variable {src : PcpSrc} {s : State} {c : Cmd}

/-! ### PROG_LOAD and PROG_UNLOAD -/

/-- PROG_LOAD of one module (R414). -/
theorem progLoad_here (as : List ModuleAnswer) (h : s.pcpCmd src 0x0301 = some c) (h1 : c.arg 3 % 2 = 0) {st code : Nat} {u : State}
    (hl : s.loadHere (c.arg 0) (c.arg 1) (if bitsOf (c.arg 3) 1 1 = 1 then some (c.arg 2) else none) = (st, code, u)) :
    (s.loaded = true → st = 4) ∧ (st = 0 → u.loaded = true ∧ Performs (.progLoad src as) src s 0 1 0 fun t => t.loaded = true)
      ∧ (st = 8 → Performs (.progLoad src as) src s 8 code (u.selfId 0 + code * 2 ^ 16) fun t => t.loaded = false)
      ∧ (st ≠ 0 → st ≠ 8 → Performs (.progLoad src as) src s st 0 0 (KeepsBut [.fw] s)) := by
  have performs {r0 r1 : Nat} {Q : State → Prop} (hu : CmdsKept s u) (hQ : Q (u.answer c st r0 r1))
      (ha : (if st = 0 then u.answer c 0 1 0 else if st = 8 then u.answer c 8 code (u.selfId 0 + code * 2 ^ 16) else u.answer c st 0 0)
        = u.answer c st r0 r1) : Performs (.progLoad src as) src s st r0 r1 Q := by
    refine performs_of_answer h hu (exec_progLoad src as s) ?_ hQ
    simp only [h1, Nat.zero_ne_one, if_false, hl]
    exact ha
  rcases s.loadHere_cases (c.arg 0) (c.arg 1) (if bitsOf (c.arg 3) 1 1 = 1 then some (c.arg 2) else none) with
    ⟨st', refused, hne0, hne8, busy⟩ | ⟨idle, v, kept, loaded⟩
  · obtain ⟨rfl, rfl, rfl⟩ : st' = st ∧ 0 = code ∧ s = u := by simpa [refused] using hl
    exact ⟨busy, fun e => absurd e hne0, fun e => absurd e hne8,
      fun _ _ => performs (.refl s) (s.answer_keeps ..) (by simp [hne0, hne8])⟩
  · rw [loaded] at hl
    refine ⟨fun e => absurd e (by simp [idle]), ?_⟩
    split at hl
    case isTrue yes =>
      obtain ⟨rfl, rfl, rfl⟩ : 0 = st ∧ 0 = code ∧ v = u := by simpa using hl
      exact ⟨fun _ => ⟨yes, performs kept yes rfl⟩, fun e => absurd e (by decide), fun e => absurd rfl e⟩
    case isFalse no =>
      obtain ⟨rfl, rfl, rfl⟩ : 8 = st ∧ _ = code ∧ v = u := by simpa using hl
      exact ⟨fun e => absurd e (by decide), fun _ => performs kept (Bool.eq_false_iff.2 no) rfl, fun _ e => absurd rfl e⟩

/-- SCOPE 1 of PROG_LOAD is for the manager (R414). -/
theorem progLoad_notManager (as : List ModuleAnswer) (h : s.pcpCmd src 0x0301 = some c) (h1 : c.arg 3 % 2 = 1)
    (hm : s.fw.manager ≠ s.selfId 0 + 1) : Performs (.progLoad src as) src s 0x0F 0 0 (KeepsBut [.fw] s) := by
  have client : s.isManager = false := Bool.eq_false_iff.2 fun e => hm (s.isManager_iff.1 e)
  refine performs_refusal h (exec_progLoad src as s) ?_
  simp only [h1, if_true, State.loadImages, client]
  rfl

/-- PROG_UNLOAD of one module (R415). -/
theorem progUnload_here (as : List ModuleAnswer) (h : s.pcpCmd src 0x0302 = some c) (h0 : c.arg 0 % 2 = 0) (h4 : s.tideSt ≤ 4)
    (hl : s.loaded = true ↔ s.tideSt ≠ 0) : Performs (.progUnload src as) src s 0 0 0 fun t => t.loaded = false ∧ t.tideSt = 0
      ∧ (s.LinksQuiet → ∀ b, t.byte b = s.byte b) := by
  have performs {u : State} (hu : CmdsKept s u) (unloaded : u.loaded = false) (idle : u.tideSt = 0)
      (bytes : s.LinksQuiet → ∀ b, u.byte b = s.byte b)
      (ha : (if s.loaded then { s.progUnload with fw := { s.progUnload.fw with unloadImg := s.fw.imgSeq } } else s) = u) :
      Performs (.progUnload src as) src s 0 0 0 fun t => t.loaded = false ∧ t.tideSt = 0
        ∧ (s.LinksQuiet → ∀ b, t.byte b = s.byte b) := by
    refine performs_of_answer h hu (exec_progUnload src as s) ?_ ⟨unloaded, idle, bytes⟩
    simp only [h0, Nat.zero_ne_one, false_and, if_false, ha, unloaded, Bool.false_eq_true]
  cases loaded : s.loaded
  case false =>
    have idle : s.tideSt = 0 := by
      by_contra running
      exact Bool.false_ne_true (loaded.symm.trans (hl.2 running))
    exact performs (.refl s) loaded idle (fun _ _ => rfl) (by simp [loaded])
  case true =>
    have stopped := s.progUnload_effect (hl.1 loaded) h4
    have cmds := CmdsKept.progUnload s
    have quiet (hq : s.LinksQuiet) := (MemQuiet.progUnload hq).mem
    generalize hu : s.progUnload = u at stopped cmds quiet
    exact performs (cmds.withUnloadImg s.fw.imgSeq) stopped.1 stopped.2 (fun hq b => State.byte_congr (quiet hq) b)
      (by rw [loaded, if_pos rfl, hu])

theorem progUnload_notManager (as : List ModuleAnswer) (h : s.pcpCmd src 0x0302 = some c) (h1 : c.arg 0 % 2 = 1)
    (hm : s.fw.manager ≠ s.selfId 0 + 1) : Performs (.progUnload src as) src s 0x0F 0 0 (KeepsBut [.fw] s) := by
  have client : s.isManager = false := Bool.eq_false_iff.2 fun e => hm (s.isManager_iff.1 e)
  refine performs_refusal h (exec_progUnload src as s) ?_
  simp only [h1, client]
  rfl

/-! ### JOB_RESUME -/

/-- JOB_RESUME, continue, without a halted root (R416). -/
theorem jobResumeContinue_refused (h : s.pcpCmd src 0x0303 = some c) (h0 : c.arg 0 % 4 = 0) (hh : ¬s.jobHalted = true) :
    Performs (.jobResumeContinue src) src s 4 0 0 (KeepsBut [.fw] s) := by
  refine performs_refusal h (exec_jobResumeContinue src s) ?_
  simp only [h0, ne_eq, not_true_eq_false, if_false, hh, Bool.not_false, if_true]

/-- JOB_RESUME, continue: GO with its ACTION (R416). -/
theorem jobResumeContinue_go (h : s.pcpCmd src 0x0303 = some c) (h0 : c.arg 0 % 4 = 0) (hh : s.jobHalted = true)
    (hact : bitsOf (c.arg 0) 3 2 = 1 ∨ bitsOf (c.arg 0) 3 2 = 2) (hn : s.tideNum ≠ 0xFFFFFFFF) (hm : s.tide.startMarker = false) :
    Performs (.jobResumeContinue src) src s 0 (s.tideNum + 1) 0 fun t => t.tideSt = 1 ∧ t.tideNum = s.tideNum + 1
      ∧ (t.reg Reg.TIDE_GCMD).toNat % 4 = bitsOf (c.arg 0) 3 2 := by
  obtain ⟨-, -, held, -⟩ := s.jobHalted_iff.1 hh
  have number : s.tideNum < 0xFFFFFFFF := by
    have : s.tideNum < 2 ^ 32 := (s.reg Reg.TIDE_NUM).isLt
    omega
  have cmd : s.fld Reg.TIDE_GO Fd.TIDE_GO_CMD < 256 := Fd.TIDE_GO_CMD.get_lt _
  generalize hact' : bitsOf (c.arg 0) 3 2 = act at hact ⊢
  generalize hcmd : s.fld Reg.TIDE_GO Fd.TIDE_GO_CMD = old at cmd
  generalize hv : BitVec.ofNat 32 (1 + (old / 4 * 4 + act) * 2 ^ 8) = v
  have word : v.toNat = 1 + (old / 4 * 4 + act) * 2 ^ 8 := by
    rw [← hv, BitVec.toNat_ofNat]
    omega
  have go : Fd.TIDE_GO_GO.get v = 1 := by
    simp only [Fld.get, word, Fd.TIDE_GO_GO]
    omega
  have written : Fd.TIDE_GO_CMD.get v = old / 4 * 4 + act := by
    simp only [Fld.get, word, Fd.TIDE_GO_CMD]
    omega
  obtain ⟨cmds, next, running, gcmd⟩ := s.goWrite_effect go held number hm
  generalize hu : s.goWrite v = u at cmds next running gcmd
  refine performs_of_answer h cmds (exec_jobResumeContinue src s) ?_ ⟨running, next, ?_⟩
  · have valid : ¬(act ≠ 1 ∧ act ≠ 2) := by omega
    have wrap : (s.tideNum + 1) % 2 ^ 32 = s.tideNum + 1 := by omega
    simp only [h0, ne_eq, not_true_eq_false, if_false, hh, Bool.not_true, Bool.false_eq_true, hact', valid, hcmd, hv, hu, wrap]
  · rw [State.answer_reg, gcmd, written]
    omega

/-- JOB_RESUME, rewind: the program is unloaded, and its sets run (R381, R416). -/
theorem jobResumeRewind_unload (h : s.pcpCmd src 0x0303 = some c) (h1 : c.arg 0 % 4 = 1) (h0 : c.stage = 0) (hh : s.jobHalted = true) :
    Settles (.jobResumeRewind src) s fun t => t.loaded = false
      ∧ ∃ y ∈ t.fw.cmds, y.src = src ∧ y.res = none ∧ y.stage = s.windowFirst s.tideNum + 1 := by
  obtain ⟨-, -, held, -⟩ := s.jobHalted_iff.1 hh
  have unloaded := (s.failUnload_effect (by rw [held]; decide)).1
  have sets := JobKept.allSets s.failUnload 1
  have cmds := (CmdsKept.failUnload s).trans sets.cmds
  have idle := sets.loaded.trans unloaded
  generalize hu : s.failUnload.allSets 1 = u at cmds idle
  refine settles_of_act h (u := u.toCmdStage c (s.windowFirst s.tideNum + 1)) (exec_jobResumeRewind src s) ?_
    ⟨idle, staged_toCmdStage h cmds _⟩
  simp only [h1, ne_eq, not_true_eq_false, if_false, h0, if_true, hh, Bool.not_true, Bool.false_eq_true, hu]

/-- JOB_RESUME, rewind: the program is loaded again once the sets have run (R381, R416). -/
theorem jobResumeRewind_load (h : s.pcpCmd src 0x0303 = some c) (h1 : c.arg 0 % 4 = 1) (h0 : c.stage ≠ 0) (hd : s.setsDone = true) :
    let u := s.loadAt (c.stage - 1)
    (u.loaded = true → Performs (.jobResumeRewind src) src s 0 (c.stage - 1) 0 fun t => t.loaded = true
      ∧ t.bit Reg.TIDE_BCN_CFG Fd.TIDE_BCN_CFG_REPLAY = true)
    ∧ (u.loaded = false → Performs (.jobResumeRewind src) src s 8 ((u.reg Reg.TIDE_LOADERR).toNat % 256) 0
      fun t => t.loaded = false) := by
  have cmds := CmdsKept.loadAt s (c.stage - 1)
  generalize hu : s.loadAt (c.stage - 1) = u at cmds
  obtain ⟨v, hv⟩ : ∃ v, u.setFld Reg.TIDE_BCN_CFG Fd.TIDE_BCN_CFG_REPLAY 1 = v := ⟨_, rfl⟩
  have flagged : v.bit Reg.TIDE_BCN_CFG Fd.TIDE_BCN_CFG_REPLAY = true := by
    rw [← hv, State.bit, State.fld_setFld_same _ _ _ _ (by decide)]
    rfl
  have other {a : Nat} (ha : a ≠ Reg.TIDE_BCN_CFG) : v.reg a = u.reg a := hv ▸ u.reg_setReg_other _ ha
  have loaded : v.loaded = u.loaded := State.bit_congr (other (by decide)) _
  have hcmds : CmdsKept s v := hv ▸ cmds.setFld _ _ _
  have performs {st r0 : Nat} {Q : State → Prop} (hQ : Q (v.answer c st r0 0))
      (ha : (if v.loaded then v.answer c 0 (c.stage - 1) 0 else v.answer c 8 ((v.reg Reg.TIDE_LOADERR).toNat % 256) 0)
        = v.answer c st r0 0) :
      Performs (.jobResumeRewind src) src s st r0 0 Q := by
    refine performs_of_answer h hcmds (exec_jobResumeRewind src s) ?_ hQ
    simp only [h1, ne_eq, not_true_eq_false, if_false, h0, hd, Bool.not_true, Bool.false_eq_true, hu, hv]
    exact ha
  intro w
  refine ⟨fun hl => performs ⟨loaded.trans hl, flagged⟩ (if_pos (loaded.trans hl)), fun hl => ?_⟩
  rw [show w.reg Reg.TIDE_LOADERR = v.reg Reg.TIDE_LOADERR from (other (by decide)).symm]
  exact performs (loaded.trans hl) (if_neg (by rw [loaded, hl]; decide))

/-- JOB_RESUME, restore: the program is unloaded, and a restore is asked for (R387, R416). -/
theorem jobResumeRestore_unload (h : s.pcpCmd src 0x0303 = some c) (h2 : c.arg 0 % 4 = 2) (h0 : c.stage = 0) (hh : s.jobHalted = true) :
    Settles (.jobResumeRestore src) s fun t => t.loaded = false ∧ ∃ y ∈ t.fw.cmds, y.src = src ∧ y.res = none ∧ y.stage = 1 := by
  obtain ⟨-, -, held, -⟩ := s.jobHalted_iff.1 hh
  have unloaded := (s.failUnload_effect (by rw [held]; decide)).1
  have cmds := CmdsKept.failUnload s
  generalize hu : s.failUnload = u at cmds unloaded
  have told := JobKept.notify u 4 u.tideNum
  generalize hv : u.notify 4 u.tideNum = v at told
  have idle := told.loaded.trans unloaded
  refine settles_of_act h (u := v.toCmdStage c 1) (exec_jobResumeRestore src s) ?_
    ⟨idle, staged_toCmdStage h (cmds.trans told.cmds) _⟩
  simp only [h2, ne_eq, not_true_eq_false, if_false, h0, if_true, hh, Bool.not_true, Bool.false_eq_true, hu, hv]
  rfl

/-- JOB_RESUME, restore, completes once the job is loaded again (R387, R416). -/
theorem jobResumeRestore_loaded (h : s.pcpCmd src 0x0303 = some c) (h2 : c.arg 0 % 4 = 2) (h0 : c.stage ≠ 0) (hl : s.loaded = true) :
    Performs (.jobResumeRestore src) src s 0 (s.reg Reg.TIDE_FIRST).toNat 0 (KeepsBut [.fw] s) := by
  refine performs_refusal h (exec_jobResumeRestore src s) ?_
  simp only [h2, ne_eq, not_true_eq_false, if_false, h0, hl, if_true]
  rfl

/-! ### BATCH_CANCEL -/

theorem State.batchList_ctx_lt (s : State) {a n : Nat} {e : Nat × Nat × Nat} (he : e ∈ s.batchList a n) : e.2.1 < 2 := by
  obtain ⟨i, -, rfl⟩ := List.mem_map.1 he
  exact Nat.mod_lt _ (by decide)

/-- The listed contexts, by their physical Islands (R417). -/
def State.batchAt (s : State) (l : List (Nat × Nat × Nat)) : List (Nat × Nat × Nat) :=
  l.filterMap fun e => (s.physOf e.1).map fun p => (p, e.2.1, e.2.2)

theorem State.mem_batchAt {s : State} {l : List (Nat × Nat × Nat)} {e : Nat × Nat × Nat} :
    e ∈ s.batchAt l ↔ ∃ d ∈ l, s.physOf d.1 = some e.1 ∧ e.2 = d.2 := by
  simp only [State.batchAt, List.mem_filterMap, Option.map_eq_some_iff]
  constructor
  · rintro ⟨d, hd, p, hp, rfl⟩
    exact ⟨d, hd, hp, rfl⟩
  · rintro ⟨d, hd, hp, he⟩
    exact ⟨d, hd, e.1, hp, Prod.ext rfl he.symm⟩

/-- The contexts of a batch that are reissued take their PC and run (R417). -/
theorem State.reissues_frame (es : List (Nat × Nat × Nat)) (hc : ∀ e ∈ es, e.2.1 < 2) (s : State) :
    let t := es.foldl (fun s e => (s.setPc e.1 e.2.1 e.2.2).runCtx e.1 e.2.1) s
    t.mem = s.mem ∧ t.fw = s.fw ∧ ∀ q i, i < 16 → t.reg (Reg.SHL_GEN q i) = s.reg (Reg.SHL_GEN q i) := by
  induction es generalizing s with
  | nil => exact ⟨rfl, rfl, fun _ _ _ => rfl⟩
  | cons e es ih =>
    obtain ⟨hce, hces⟩ := List.forall_mem_cons.1 hc
    obtain ⟨mem, fw, gen⟩ := s.reissue_frame e.1 e.2.2 hce
    obtain ⟨mem', fw', gen'⟩ := ih hces ((s.setPc e.1 e.2.1 e.2.2).runCtx e.1 e.2.1)
    exact ⟨mem'.trans mem, fw'.trans fw, fun q i hi => (gen' q i hi).trans (gen q i hi)⟩

/-- BATCH_CANCEL from the stop of the listed contexts `es` on (R259, R417). -/
def State.cancelBatch (s : State) (es : List (Nat × Nat × Nat)) (k : Nat) (reissue : Prop) [Decidable reissue] : Nat × State :=
  let s := es.foldl (fun s e => s.stopRun e.1 e.2.1) s
  let g := (s.fld (Reg.SHL_GEN ((s.physOf 0).getD 0) k) Fd.SHL_GEN_TAG + 1) % 2 ^ 16
  let s := s.setGens k g
  let s := s.writeGen s.fw.image k g
  (g, if reissue then es.foldl (fun s e => (s.setPc e.1 e.2.1 e.2.2).runCtx e.1 e.2.1) s else s)

theorem State.cancelBatch_effect (s : State) (es : List (Nat × Nat × Nat)) (hp : ∀ e ∈ es, e.1 < 256) (hc : ∀ e ∈ es, e.2.1 < 2)
    {k : Nat} (hk : k < 16) (reissue : Prop) [Decidable reissue] : let r := s.cancelBatch es k reissue
    r.1 = (s.fld (Reg.SHL_GEN ((s.physOf 0).getD 0) k) Fd.SHL_GEN_TAG + 1) % 2 ^ 16 ∧ CmdsKept s r.2
      ∧ (∀ p : Fin 144, r.2.fld (Reg.SHL_GEN p k) Fd.SHL_GEN_TAG = r.1)
      ∧ (¬reissue → ∀ e ∈ es, r.2.ctxStopped e.1 e.2.1 = true)
      ∧ (s.genTable s.fw.image = 0 → ∀ b, r.2.byte b = s.byte b) := by
  obtain ⟨kept, stopped⟩ := State.stopRuns_effect es hp hc s
  unfold State.cancelBatch
  extract_lets s1 g s2 s3 r
  replace kept : StopKept s s1 := kept
  replace stopped : ∀ e ∈ es, s1.ctxStopped e.1 e.2.1 = true := stopped
  clear_value s1
  have hgen : g = (s.fld (Reg.SHL_GEN ((s.physOf 0).getD 0) k) Fd.SHL_GEN_TAG + 1) % 2 ^ 16 := by
    unfold g
    rw [kept.physOf, State.fld, State.fld, kept.gen _ k hk]
  have lt : g < 2 ^ 16 := Nat.mod_lt _ (by decide)
  have fw2 : s2.fw = s.fw := (s1.setGens_fw k g).trans kept.fw
  have mem2 : s2.mem = s.mem := (s1.setGens_mem k g).trans kept.mem
  have gens2 (p : Fin 144) : s2.fld (Reg.SHL_GEN p k) Fd.SHL_GEN_TAG = g := s1.setGens_gen lt p
  have stopped2 : ∀ e ∈ es, s2.ctxStopped e.1 e.2.1 = true := fun e he => (s1.setGens_ctxStopped hk g _ _).trans (stopped e he)
  clear_value g s2
  have cmds3 : CmdsKept s s3 := (CmdsKept.of_fw fw2).trans (.writeGen s2 _ k g)
  have gens3 (p : Fin 144) : s3.fld (Reg.SHL_GEN p k) Fd.SHL_GEN_TAG = g :=
    (congrArg Fd.SHL_GEN_TAG.get (s2.writeGen_steady _ k g (steadyReg_shlGen (p.isLt.trans (by decide)) hk))).trans (gens2 p)
  have stopped3 : ∀ e ∈ es, s3.ctxStopped e.1 e.2.1 = true := by
    intro e he
    have status : s3.reg (Reg.ISL_SEQ_STATUS e.1) = s2.reg (Reg.ISL_SEQ_STATUS e.1) :=
      s2.writeGen_steady _ k g (steadyReg_seqStatus (hp e he))
    rw [State.ctxStopped, State.ctxSt, State.fld, status]
    exact stopped2 e he
  have mem3 (h : s.genTable s.fw.image = 0) : s3.mem = s.mem := by
    have none : s2.genTable s2.fw.image = 0 := by rwa [fw2, State.genTable_congr mem2]
    exact (congrArg State.mem (s2.writeGen_none none k g)).trans mem2
  clear_value s3
  obtain ⟨memR, fwR, genR⟩ := State.reissues_frame es hc s3
  suffices ∀ t : State, CmdsKept s3 t ∧ t.mem = s3.mem ∧ (∀ q i, i < 16 → t.reg (Reg.SHL_GEN q i) = s3.reg (Reg.SHL_GEN q i))
      ∧ (¬reissue → t = s3) → CmdsKept s t ∧ (∀ p : Fin 144, t.fld (Reg.SHL_GEN p k) Fd.SHL_GEN_TAG = g)
        ∧ (¬reissue → ∀ e ∈ es, t.ctxStopped e.1 e.2.1 = true) ∧ (s.genTable s.fw.image = 0 → ∀ b, t.byte b = s.byte b) by
    refine ⟨hgen, this r.2 ?_⟩
    unfold r
    dsimp only
    split
    case isTrue again => exact ⟨.of_fw fwR, memR, genR, fun once => absurd again once⟩
    case isFalse => exact ⟨.refl s3, rfl, fun _ _ _ => rfl, fun _ => rfl⟩
  rintro t ⟨cmds, mem, gen, same⟩
  refine ⟨cmds3.trans cmds, fun p => (congrArg Fd.SHL_GEN_TAG.get (gen p k hk)).trans (gens3 p), fun once => ?_,
    fun h b => State.byte_congr (mem.trans (mem3 h)) b⟩
  rw [same once]
  exact stopped3

/-- BATCH_CANCEL of contexts that are all bound (R417). -/
theorem batchCancel_bound (h : s.pcpCmd src 0x0304 = some c) (h0 : bitsOf (c.arg 0) 5 5 = 0)
    (hread : readable (c.arg 1) (8 * c.arg 2) = true) (hb : ∀ e ∈ s.batchList (c.arg 1) (c.arg 2), (s.physOf e.1).isSome = true) :
    let k := c.arg 0 % 16
    let g := (s.fld (Reg.SHL_GEN ((s.physOf 0).getD 0) k) Fd.SHL_GEN_TAG + 1) % 2 ^ 16
    Performs (.batchCancel src) src s 0 g 0 fun t => (∀ p : Fin 144, t.fld (Reg.SHL_GEN p k) Fd.SHL_GEN_TAG = g)
      ∧ (bitsOf (c.arg 0) 4 4 = 0 → ∀ e ∈ s.batchList (c.arg 1) (c.arg 2), ∀ p, s.physOf e.1 = some p → t.ctxStopped p e.2.1 = true)
      ∧ (s.genTable s.fw.image = 0 → ∀ b, t.byte b = s.byte b) := by
  intro k g
  generalize hl : s.batchList (c.arg 1) (c.arg 2) = l at hb
  have ctx : ∀ e ∈ l, e.2.1 < 2 := fun e he => s.batchList_ctx_lt (hl ▸ he)
  have all : (s.batchAt l).length = l.length := List.filterMap_length_eq_length.2 fun e he => by
    rw [Option.isSome_map]
    exact hb e he
  obtain ⟨hg, cmds, gens, stopped, bytes⟩ := s.cancelBatch_effect (s.batchAt l)
    (fun e he => by
      obtain ⟨d, -, hp, -⟩ := State.mem_batchAt.1 he
      exact s.physOf_lt hp)
    (fun e he => by
      obtain ⟨d, hd, -, hc⟩ := State.mem_batchAt.1 he
      rw [hc]
      exact ctx d hd)
    (Nat.mod_lt (c.arg 0) (by decide) : k < 16) (bitsOf (c.arg 0) 4 4 = 1)
  obtain ⟨r, hr⟩ : ∃ r, s.cancelBatch (s.batchAt l) k (bitsOf (c.arg 0) 4 4 = 1) = r := ⟨_, rfl⟩
  rw [hr] at hg cmds gens stopped bytes
  have bad : ¬(bitsOf (c.arg 0) 5 5 = 1 ∧ (!s.isManager) = true) := fun e => by omega
  have readable : ¬(!readable (c.arg 1) (8 * c.arg 2)) = true := by simp [hread]
  subst hl
  refine performs_of_answer h cmds (exec_batchCancel src s) ?_ ⟨fun p => (gens p).trans hg, fun keep e he p hp => ?_, bytes⟩
  · refine (if_neg bad).trans ((if_neg readable).trans ((if_neg (not_not_intro all)).trans ?_))
    rw [show g = r.1 from hg.symm, ← hr]
    rfl
  · exact stopped (by omega) (p, e.2) (State.mem_batchAt.2 ⟨e, he, hp, rfl⟩)

end

/-- Settles O44, from the effects of loads, unloads, a written GO and a cancelled batch. -/
theorem pcpJobs : Obligations.PcpJobs := by
  unfold Obligations.PcpJobs
  intro src as s c
  refine ⟨fun st code u h h1 hl => progLoad_here as h h1 hl, fun h h1 hm => progLoad_notManager as h h1 hm,
    fun h h0 h4 hl => progUnload_here as h h0 h4 hl, fun h h1 hm => progUnload_notManager as h h1 hm, fun h => ?_,
    fun h h0 hr hb => batchCancel_bound h h0 hr hb⟩
  intro act halted
  have hh : halted ↔ s.jobHalted = true := s.jobHalted_iff.symm
  exact ⟨fun h0 yes hact hn hm => jobResumeContinue_go h h0 (hh.1 yes) hact hn hm,
    fun h0 no => jobResumeContinue_refused h h0 fun e => no (hh.2 e),
    fun h1 h0 yes => jobResumeRewind_unload h h1 h0 (hh.1 yes), fun h1 h0 hd => jobResumeRewind_load h h1 h0 hd,
    fun h2 h0 yes => jobResumeRestore_unload h h2 h0 (hh.1 yes), fun h2 h0 hl => jobResumeRestore_loaded h h2 h0 hl⟩

end Sys2Proof.Machine
end


section
/-! SUPPORT. What a scrub read records, how the scrubber moves on, and what a write back leaves (R274, R282, R283, R287). -/

namespace Sys2Proof.Machine

/-- The offset of a controller's register in its window (R287). -/
theorem memReg_mod (m : MemUnit) {off : Nat} (h : off < 0x1000) : memReg m off % 0x1000 = off := by
  cases m <;> simp only [memReg, islWin, qtrWin] <;> omega

variable (s : State) (m : MemUnit)

/-! ### The corrections on their way -/

@[simp] theorem State.scrub_setScrub_same (x : Option Scrub) : (s.setScrub m x).scrub m = x := tget_tset_same ..

theorem State.scrub_congr {s t : State} (h : t.scrubs = s.scrubs) (m : MemUnit) : t.scrub m = s.scrub m := by
  rw [State.scrub, h]; rfl

theorem State.setScrub_keeps (x : Option Scrub) : KeepsBut [.scrubs] s (s.setScrub m x) := by
  refine ⟨rfl, fun p hp => ?_⟩
  cases p with
  | scrubs => exact absurd (List.mem_singleton.2 rfl) hp
  | _ => rfl

/-! ### The scrub read of a unit -/

/-- The record of a codeword that a scrub read corrects (R283, R287). -/
def State.scrubCe (a sym : Nat) : State :=
  ((s.firstErr m Fd.HBM_ERR_CE Fd.HBM_ERR_CE_MULTI 0x014 (a / 32 * 32) (memInfo sym (memLoc a) 11 0xFF false)).count
    (memReg m 0x03C) 1).report .scrubCe (a / 32 * 32) sym (11 + 0xFF * 16)

/-- The record of a codeword that a scrub read finds bad (R283, R287). -/
def State.scrubUe (a : Nat) (poison : Bool) : State :=
  ((s.firstErr m Fd.HBM_ERR_UE Fd.HBM_ERR_UE_MULTI 0x020 (a / 32 * 32) (memInfo 0x7F (memLoc a) 11 0xFF poison)).count
    (memReg m (if poison then 0x038 else 0x034)) 1).report .scrubUe (a / 32 * 32) 0x7F (11 + 0xFF * 16)

section
variable {a : Nat}

theorem State.scrubCw_of_ok (h : s.cwAt a = .ok) : s.scrubCw m a = (false, s) := by
  rw [State.scrubCw, h]

theorem State.scrubCw_of_ce {sym : Fin 68} (h : s.cwAt a = .ce sym) : s.scrubCw m a = (true, s.scrubCe m a sym) := by
  rw [State.scrubCw, h]; rfl

theorem State.scrubCw_of_bad {poison : Bool} (h : s.cwAt a = if poison then .poison else .ue) :
    s.scrubCw m a = (false, s.scrubUe m a poison) := by
  cases poison <;> (rw [State.scrubCw, h]; rfl)

end

theorem ErrorsNoted.scrubCe (a sym : Nat) : ErrorsNoted s (s.scrubCe m a sym) :=
  firstErr s m _ _ _ _ _ _ _ _ (by decide) (by decide) (by decide) (by decide)

theorem ErrorsNoted.scrubUe (a : Nat) (poison : Bool) : ErrorsNoted s (s.scrubUe m a poison) :=
  firstErr s m _ _ _ _ _ _ _ _ (by decide) (by decide) (by cases poison <;> decide) (by cases poison <;> decide)

theorem ErrorsNoted.scrubCw (a : Nat) : ErrorsNoted s (s.scrubCw m a).2 := by
  cases h : s.cwAt a with
  | ok => rw [s.scrubCw_of_ok m h]; exact refl s
  | ce sym => rw [s.scrubCw_of_ce m h]; exact scrubCe s m a sym
  | ue => rw [s.scrubCw_of_bad m (poison := false) h]; exact scrubUe s m a false
  | poison => rw [s.scrubCw_of_bad m (poison := true) h]; exact scrubUe s m a true

theorem ErrorsNoted.scrubRead (a : Nat) : ErrorsNoted s (s.scrubRead m a).2 := (scrubCw s m a).trans (scrubCw _ m (a + 32))

/-- A unit whose second codeword is clean: what is recorded, and written back, is that of the first. -/
theorem State.scrubRead_of_second_ok {a : Nat} (h : s.cwAt (a + 32) = .ok) :
    s.scrubRead m a = (if (s.scrubCw m a).1 then [a] else [], (s.scrubCw m a).2) := by
  have second : (s.scrubCw m a).2.cwAt (a + 32) = .ok := by
    rw [State.cwAt, (ErrorsNoted.scrubCw s m a).keeps.2 .cw (by decide)]
    exact h
  simp [State.scrubRead, State.scrubCw_of_ok _ m second]

/-- A correctable codeword counts in CNT_SCRUB_CE (R283). -/
theorem State.scrubCe_count (a sym : Nat) :
    ((s.scrubCe m a sym).reg (memReg m 0x03C)).toNat = min ((s.reg (memReg m 0x03C)).toNat + 1) 0xFFFFFFFF := by
  rw [State.scrubCe, State.reg_congr (State.report_regs _ _ _ _ _), State.count_toNat,
    s.firstErr_regsBut m _ _ _ _ _ (memReg m 0x03C) (by simp)]

/-! ### The scrubber moves on -/

theorem scrubUnits_lt : scrubUnits m < 2 ^ 32 := by
  cases m <;> simp [scrubUnits]

theorem State.scrubNext_keeps : KeepsBut [.regs] s (s.scrubNext m) := by
  have write {t : State} (h : KeepsBut [.regs] s t) (a : Nat) (v : Word) : KeepsBut [.regs] s (t.setReg a v) :=
    (h.trans (t.setReg_keeps a v)).mono (by simp)
  unfold State.scrubNext
  dsimp only
  split
  · exact write (s.setReg_keeps _ _) _ _
  · exact write (write (s.setReg_keeps _ _) _ _) _ _

theorem State.scrubNext_regsBut : RegsBut [memReg m 0x000, memReg m 0x008, memReg m 0x00C] s (s.scrubNext m) := by
  have write {t : State} {a : Nat} (h : RegsBut [memReg m 0x000, memReg m 0x008, memReg m 0x00C] s t)
      (ha : a ∈ [memReg m 0x000, memReg m 0x008, memReg m 0x00C]) (v : Word) :
      RegsBut [memReg m 0x000, memReg m 0x008, memReg m 0x00C] s (t.setReg a v) :=
    h.trans ((t.setReg_regsBut a v).mono (by simpa using ha))
  unfold State.scrubNext
  dsimp only
  split
  · exact write (write (.refl _ s) (by simp) _) (by simp) _
  · exact write (write (write (.refl _ s) (by simp) _) (by simp) _) (by simp) _

/-- Before the last unit the scrubber takes the next one (R282). -/
theorem State.scrubNext_within (h : (s.reg (memReg m 0x008)).toNat + 1 < scrubUnits m) : let t := s.scrubNext m
    (t.reg (memReg m 0x008)).toNat = (s.reg (memReg m 0x008)).toNat + 1 ∧ t.reg (memReg m 0x00C) = s.reg (memReg m 0x00C) := by
  have fits := scrubUnits_lt m
  intro t
  have ht : t = (s.setReg (memReg m 0x008) (BitVec.ofNat 32 ((s.reg (memReg m 0x008)).toNat + 1))).setFld (memReg m 0x000)
      Fd.HBM_STATUS_SCRUB_ACT 1 := if_pos h
  rw [ht]
  simp [State.reg_setFld, State.reg_setReg]
  omega

/-- After the last unit the scrubber starts again, and the pass counts (R282). -/
theorem State.scrubNext_last (h : (s.reg (memReg m 0x008)).toNat + 1 = scrubUnits m) : let t := s.scrubNext m
    t.reg (memReg m 0x008) = 0
      ∧ (t.reg (memReg m 0x00C)).toNat = min ((s.reg (memReg m 0x00C)).toNat + 1) 0xFFFFFFFF := by
  intro t
  have ht : t = ((s.setReg (memReg m 0x008) 0).setFld (memReg m 0x000) Fd.HBM_STATUS_SCRUB_ACT 0).count (memReg m 0x00C) 1 :=
    if_neg (by omega)
  rw [ht]
  simp [State.reg_count, State.reg_setFld, State.reg_setReg]

/-! ### SCRUB_INTERVAL -/

/-- The scrubber is enabled, its controller is UP, no correction is on its way and the memory is not that of a RETIRED Island
(R274, R282). -/
abbrev State.ScrubDue : Prop :=
  s.bit (memReg m 0x004) Fd.HBM_SCRUB_EN = true ∧ s.memState m = 1 ∧ s.scrub m = none ∧ s.sliceGone m = false

/-- The unit that the scrubber reads next. -/
abbrev State.scrubPos : Nat := (s.reg (memReg m 0x008)).toNat

/-- The state after the scrubber's read: the scrubber has moved on, and what the read corrected is on its way back. -/
def State.scrubbed : State :=
  let r := s.scrubRead m (scrubAddr m (s.scrubPos m))
  if r.1.isEmpty then r.2.scrubNext m else (r.2.scrubNext m).setScrub m (some ⟨s.scrubPos m, r.1⟩)

theorem exec_scrubInterval : exec (.scrubInterval m) s = execScrubInterval m s := rfl

theorem waits_scrubInterval {s : State} {m : MemUnit} (h : ¬s.ScrubDue m) : Waits (.scrubInterval m) s := by
  rw [Waits, exec_scrubInterval, execScrubInterval, if_pos]
  by_contra due
  exact h (by simpa [and_assoc] using due)

theorem exec_scrubInterval_due {s : State} {m : MemUnit} (h : s.ScrubDue m) :
    exec (.scrubInterval m) s = .next (s.scrubbed m) := by
  obtain ⟨enabled, up, free, present⟩ := h
  rw [exec_scrubInterval, execScrubInterval, if_neg (by simp [enabled, up, free, present])]
  rfl

/-- The scrubber's registers and its other parts after the read, whatever the read found. -/
theorem State.scrubbed_reg (i : Nat) :
    (s.scrubbed m).reg (memReg m i) = ((s.scrubRead m (scrubAddr m (s.scrubPos m))).2.scrubNext m).reg (memReg m i) := by
  unfold State.scrubbed
  dsimp only
  split <;> rfl

/-- Where the scrubber stands after a read, and how many passes it has made (R282). -/
theorem State.scrubbed_position : let t := s.scrubbed m
    (s.scrubPos m + 1 < scrubUnits m → (t.reg (memReg m 0x008)).toNat = s.scrubPos m + 1
      ∧ t.reg (memReg m 0x00C) = s.reg (memReg m 0x00C))
    ∧ (s.scrubPos m + 1 = scrubUnits m → t.reg (memReg m 0x008) = 0
      ∧ (t.reg (memReg m 0x00C)).toNat = min ((s.reg (memReg m 0x00C)).toNat + 1) 0xFFFFFFFF) := by
  intro t
  set u := (s.scrubRead m (scrubAddr m (s.scrubPos m))).2 with hu
  have reg (i : Nat) : t.reg (memReg m i) = (u.scrubNext m).reg (memReg m i) := s.scrubbed_reg m i
  have quiet {i : Nat} (hi : i < 0x10) : u.reg (memReg m i) = s.reg (memReg m i) :=
    (ErrorsNoted.scrubRead s m _).reg _ (.inl (by rw [memReg_mod m (by omega)]; exact hi))
  have pos : (u.reg (memReg m 0x008)).toNat = s.scrubPos m := by rw [quiet (by decide)]
  rw [reg, reg, ← quiet (i := 0x00C) (by decide), ← pos]
  exact ⟨u.scrubNext_within m, u.scrubNext_last m⟩

section
variable {s m} {a : Nat} (ha : scrubAddr m (s.scrubPos m) = a) (second : s.cwAt (a + 32) = .ok)
include ha second

/-- A unit with nothing to write back. -/
theorem State.scrubbed_of_uncorrected {t : State} (first : s.scrubCw m a = (false, t)) : s.scrubbed m = t.scrubNext m := by
  rw [State.scrubbed, ha, s.scrubRead_of_second_ok m second, first]
  rfl

/-- A unit whose first codeword is to be written back. -/
theorem State.scrubbed_of_corrected {t : State} (first : s.scrubCw m a = (true, t)) :
    s.scrubbed m = (t.scrubNext m).setScrub m (some ⟨s.scrubPos m, [a]⟩) := by
  rw [State.scrubbed, ha, s.scrubRead_of_second_ok m second, first]
  rfl

/-- A clean unit: nothing but the scrubber's registers changes. -/
theorem State.scrubbed_clean (free : s.scrub m = none) (first : s.cwAt a = .ok) :
    (s.scrubbed m).scrub m = none ∧ KeepsBut [.regs] s (s.scrubbed m) := by
  rw [State.scrubbed_of_uncorrected ha second (s.scrubCw_of_ok m first)]
  have keeps := s.scrubNext_keeps m
  exact ⟨(State.scrub_congr (keeps.2 .scrubs (by decide)) m).trans free, keeps⟩

/-- A correctable codeword is counted, and its correction is on its way (R283). -/
theorem State.scrubbed_ce {sym : Fin 68} (first : s.cwAt a = .ce sym) : let t := s.scrubbed m
    t.scrub m = some ⟨s.scrubPos m, [a]⟩ ∧ KeepsBut [.regs, .events, .scrubs] s t
      ∧ (t.reg (memReg m 0x03C)).toNat = min ((s.reg (memReg m 0x03C)).toNat + 1) 0xFFFFFFFF := by
  intro t
  set u := s.scrubCe m a sym
  have ht : t = (u.scrubNext m).setScrub m (some ⟨s.scrubPos m, [a]⟩) :=
    State.scrubbed_of_corrected ha second (s.scrubCw_of_ce m first)
  have count : t.reg (memReg m 0x03C) = u.reg (memReg m 0x03C) := by
    rw [ht]
    exact u.scrubNext_regsBut m _ (by simp)
  refine ⟨by rw [ht, State.scrub_setScrub_same], ?_, by rw [count, s.scrubCe_count]⟩
  rw [ht]
  exact (((ErrorsNoted.scrubCe s m a sym).keeps.trans (u.scrubNext_keeps m)).trans (State.setScrub_keeps _ m _)).mono (by simp)

/-- An uncorrectable codeword stays as it is (R283). -/
theorem State.scrubbed_ue (free : s.scrub m = none) (first : s.cwAt a = .ue) :
    (s.scrubbed m).scrub m = none ∧ KeepsBut [.regs, .events] s (s.scrubbed m) := by
  rw [State.scrubbed_of_uncorrected ha second (s.scrubCw_of_bad m (poison := false) first)]
  have keeps := ((ErrorsNoted.scrubUe s m a false).keeps.trans (State.scrubNext_keeps _ m)).mono
    (show [.regs, .events] ++ [.regs] ⊆ [Part.regs, .events] by simp)
  exact ⟨(State.scrub_congr (keeps.2 .scrubs (by decide)) m).trans free, keeps⟩

end

/-! ### SCRUB_WRITE_BACK -/

/-- The condition of a codeword after its correction is written back: only a correctable error becomes clean (R283). -/
def CwErr.writtenBack : CwErr → CwErr
  | .ce _ => .ok
  | e => e

theorem CwErr.writtenBack_writtenBack (e : CwErr) : e.writtenBack.writtenBack = e.writtenBack := by cases e <;> rfl

theorem CwErr.writtenBack_of_not_ce {e : CwErr} (h : ∀ y, e ≠ .ce y) : e.writtenBack = e := by
  cases e with
  | ce y => exact absurd rfl (h y)
  | _ => rfl

/-- The write back of one codeword (R283). -/
def State.writeBack (a : Nat) : State :=
  match s.cwAt a with
  | .ce _ => s.setCw a .ok
  | _ => s

theorem State.writeBack_of_ce {s : State} {a : Nat} {sym : Fin 68} (h : s.cwAt a = .ce sym) : s.writeBack a = s.setCw a .ok := by
  rw [State.writeBack, h]

theorem State.writeBack_of_not_ce {s : State} {a : Nat} (h : ∀ sym, s.cwAt a ≠ .ce sym) : s.writeBack a = s := by
  unfold State.writeBack
  split
  case h_1 sym e => exact absurd e (h sym)
  case h_2 => rfl

theorem State.writeBack_keeps (a : Nat) : KeepsBut [.cw] s (s.writeBack a) := by
  unfold State.writeBack
  split
  · exact s.setCw_keeps a .ok
  · exact .refl _ s

theorem State.cwAt_writeBack (a b : Nat) :
    (s.writeBack a).cwAt b = if b / 32 = a / 32 then (s.cwAt b).writtenBack else s.cwAt b := by
  by_cases corrected : ∃ sym, s.cwAt a = .ce sym
  · obtain ⟨sym, ce⟩ := corrected
    rw [State.writeBack_of_ce ce, s.cwAt_setCw]
    split
    case isTrue line => rw [s.cwAt_congr line, ce]; rfl
    case isFalse => rfl
  · have stays := not_exists.1 corrected
    rw [State.writeBack_of_not_ce stays]
    split
    case isTrue line => rw [s.cwAt_congr line, CwErr.writtenBack_of_not_ce stays]
    case isFalse => rfl

/-- The write back of the corrected codewords of a unit: these have been written back, and no other. -/
theorem State.writeBacks_effect (as : List Nat) (s : State) : let t := as.foldl State.writeBack s
    (∀ b, t.cwAt b = if b / 32 ∈ as.map (· / 32) then (s.cwAt b).writtenBack else s.cwAt b) ∧ KeepsBut [.cw] s t := by
  induction as generalizing s with
  | nil => exact ⟨fun b => by simp, .refl _ s⟩
  | cons a as ih =>
    obtain ⟨cw, keeps⟩ := ih (s.writeBack a)
    refine ⟨fun b => (cw b).trans ?_, ((s.writeBack_keeps a).trans keeps).mono (by simp)⟩
    rw [s.cwAt_writeBack a b]
    by_cases here : b / 32 = a / 32
    · simp [here, CwErr.writtenBack_writtenBack]
    · simp [here]

section
variable {s m} {x : Scrub} (h : s.scrub m = some x)
include h

theorem exec_scrubWriteBack : exec (.scrubWriteBack m) s
    = .next (if s.sliceGone m then s.setScrub m none else x.fixes.foldl State.writeBack (s.setScrub m none)) := by
  change execScrubWriteBack m s = _
  have gone : (s.setScrub m none).sliceGone m = s.sliceGone m := rfl
  simp only [execScrubWriteBack, h, gone]
  split <;> rfl

/-- Nothing is written to the memory of a RETIRED Island (R274). -/
theorem gives_scrubWriteBack_gone (hg : s.sliceGone m = true) :
    Gives (.scrubWriteBack m) s fun t => t.scrub m = none ∧ KeepsBut [.scrubs] s t :=
  ⟨_, (exec_scrubWriteBack h).trans (by rw [if_pos hg]), s.scrub_setScrub_same m none, s.setScrub_keeps m none⟩

/-- A corrected codeword becomes clean, unless it has been written since (R283). -/
theorem gives_scrubWriteBack (hg : s.sliceGone m = false) :
    Gives (.scrubWriteBack m) s fun t => t.scrub m = none
      ∧ (∀ b, (b / 32 ∈ x.fixes.map (· / 32) → ∀ y, s.cwAt b = .ce y → t.cwAt b = .ok)
        ∧ (b / 32 ∉ x.fixes.map (· / 32) ∨ (∀ y, s.cwAt b ≠ .ce y) → t.cwAt b = s.cwAt b))
      ∧ KeepsBut [.cw, .scrubs] s t := by
  obtain ⟨cw, keeps⟩ := State.writeBacks_effect x.fixes (s.setScrub m none)
  refine ⟨_, (exec_scrubWriteBack h).trans (by rw [if_neg (by simp [hg])]), ?_, fun b => ⟨fun fixed y hy => ?_, fun stays => ?_⟩,
    ((s.setScrub_keeps m none).trans keeps).mono (by simp)⟩
  · exact (State.scrub_congr (keeps.2 .scrubs (by decide)) m).trans (s.scrub_setScrub_same m none)
  · rw [cw b, if_pos fixed]
    exact congrArg CwErr.writtenBack hy
  · rw [cw b]
    split
    case isTrue fixed => exact CwErr.writtenBack_of_not_ce (stays.resolve_left (not_not_intro fixed))
    case isFalse => rfl

end

theorem waits_scrubWriteBack {s : State} {m : MemUnit} (h : s.scrub m = none) : Waits (.scrubWriteBack m) s := by
  change execScrubWriteBack m s = _
  rw [execScrubWriteBack, h]

end Sys2Proof.Machine
end


section
/-! SUPPORT. The memory records that the firmware writes (R286, R424, R425, R464): wherever the log ring and the ring of exported
records lie, of a controller's registers a record writes none but those of codeword errors. -/

namespace Sys2Proof.Machine

/-- The registers of a controller outside those of codeword errors and their counters (R287). -/
theorem quietReg_memReg (m : MemUnit) {off : Nat} (h : off < 0x10 ∨ 0x40 ≤ off ∧ off < 0x280) : QuietReg (memReg m off) := by
  unfold QuietReg
  rw [memReg_mod m (by omega)]
  omega

theorem memReg_ne_error (m u : MemUnit) {off : Nat} (hlo : 0x010 < off) (hhi : off < 0x1000) : memReg u 0x010 ≠ memReg m off := by
  intro e
  have := congrArg (· % 0x1000) e
  simp only [memReg_mod u (show 0x010 < 0x1000 by decide), memReg_mod m hhi] at this
  omega

/-- `n` log records may have been written: quiet registers and every controller's LINK are as they were, and no event is lost. -/
structure Recorded (n : Nat) (s t : State) : Prop where
  reg : ∀ a, QuietReg a → t.reg a = s.reg a
  link : ∀ u, t.fld (memReg u 0x010) Fd.HBM_ERR_LINK = s.fld (memReg u 0x010) Fd.HBM_ERR_LINK
  events : s.events.length ≤ t.events.length
  logWr : t.fw.logWr = s.fw.logWr + n

namespace Recorded

variable {n k : Nat} {s t u : State}

theorem refl (s : State) : Recorded 0 s s := ⟨fun _ _ => rfl, fun _ => rfl, Nat.le_refl _, rfl⟩

theorem trans (h : Recorded n s t) (h' : Recorded k t u) : Recorded (n + k) s u :=
  ⟨fun a ha => (h'.reg a ha).trans (h.reg a ha), fun m => (h'.link m).trans (h.link m), h.events.trans h'.events,
    by rw [h'.logWr, h.logWr, Nat.add_assoc]⟩

theorem ite {c : Prop} [Decidable c] (ht : Recorded n s t) (hu : Recorded n s u) : Recorded n s (if c then t else u) := by
  split
  · exact ht
  · exact hu

/-- An update of other parts. -/
theorem of_parts (hr : t.regs = s.regs) (he : t.events = s.events) (hf : t.fw.logWr = s.fw.logWr + n) : Recorded n s t :=
  ⟨fun a _ => State.reg_congr hr a, fun u => congrArg _ (State.reg_congr hr _), by rw [he], hf⟩

theorem of_keeps {ps : List Part} (h : KeepsBut ps s t) (hr : .regs ∉ ps) (he : .events ∉ ps) (hf : .fw ∉ ps) : Recorded 0 s t :=
  of_parts (h.2 .regs hr) (h.2 .events he) (congrArg Fw.logWr (h.2 .fw hf))

/-- A part of the work that writes no record. -/
theorem foldl {α : Type} {f : State → α → State} (h : ∀ s x, Recorded 0 s (f s x)) (xs : List α) (s : State) :
    Recorded 0 s (xs.foldl f s) := by
  induction xs generalizing s with
  | nil => exact refl s
  | cons x xs ih => exact (h s x).trans (ih _)

theorem report (s : State) (e : EventKind) (x a b : Nat) : Recorded 0 s (s.report e x a b) :=
  ⟨fun _ _ => rfl, fun _ => rfl, by rw [State.report]; simp, rfl⟩

/-- A write of a register of codeword errors, beside the event bits. -/
theorem count (s : State) (m : MemUnit) {off : Nat} (x : Nat) (hlo : 0x10 < off) (hhi : off < 0x40) :
    Recorded 0 s (s.count (memReg m off) x) :=
  ⟨fun a ha => s.reg_setReg_other _ fun e => not_quietReg_memReg m (by omega) hhi (e ▸ ha),
    fun u => s.fld_setReg_other _ _ (memReg_ne_error m u hlo (by omega)), Nat.le_refl _, rfl⟩

/-! ### Accesses to memory -/

/-- The event bits of a codeword error lie below LINK (R287). -/
theorem link_setErr (s : State) (a b : Nat) {f g : Fld} (hf : f.lo + f.w ≤ 4) (hg : g.lo + g.w ≤ 4) :
    (s.setErr a f g).fld b Fd.HBM_ERR_LINK = s.fld b Fd.HBM_ERR_LINK := by
  have write (e : Fld) (he : e.lo + e.w ≤ 4) : (s.setFld a e 1).fld b Fd.HBM_ERR_LINK = s.fld b Fd.HBM_ERR_LINK := by
    by_cases here : b = a
    · rw [here, s.fld_setFld_disjoint a e _ 1 (by omega) (.inr he)]
    · exact s.fld_setFld_other e _ 1 here
  unfold State.setErr
  split
  · exact write g hg
  · exact write f hf

theorem link_firstErr (s : State) (m u : MemUnit) {f g : Fld} {o : Nat} (cwa : Nat) (info : Word) (hf : f.lo + f.w ≤ 4)
    (hg : g.lo + g.w ≤ 4) (hlo : 0x10 < o) (hhi : o < 0x30) :
    (s.firstErr m f g o cwa info).fld (memReg u 0x010) Fd.HBM_ERR_LINK = s.fld (memReg u 0x010) Fd.HBM_ERR_LINK := by
  have held {t : State} {i : Nat} (v : Word) (hi : 0x10 < i) (hi' : i < 0x40) :
      (t.setReg (memReg m i) v).fld (memReg u 0x010) Fd.HBM_ERR_LINK = t.fld (memReg u 0x010) Fd.HBM_ERR_LINK :=
    t.fld_setReg_other _ _ (memReg_ne_error m u hi (by omega))
  rw [State.firstErr, link_setErr _ _ _ hf hg]
  split
  · rfl
  · rw [held _ (by omega) (by omega), State.setReg64, held _ (by omega) (by omega), held _ (by omega) (by omega)]

/-- The record of an error in the registers of its controller (R287). -/
theorem firstErr (s : State) (m : MemUnit) {f g : Fld} {o c : Nat} (cwa : Nat) (info : Word) (e : EventKind) (x a b : Nat)
    (hf : f.lo + f.w ≤ 4) (hg : g.lo + g.w ≤ 4) (hlo : 0x10 < o) (hhi : o < 0x30) (hlo' : 0x10 < c) (hhi' : c < 0x40) :
    Recorded 0 s (((s.firstErr m f g o cwa info).count (memReg m c) 1).report e x a b) := by
  have noted := ErrorsNoted.firstErr s m f g cwa info e x a b (by omega) hhi (by omega) hhi'
  refine ⟨noted.reg, fun u => ?_, ?_, congrArg Fw.logWr (noted.keeps.2 .fw (by decide))⟩
  · exact (((Recorded.count _ m 1 hlo' hhi').trans (.report _ e x a b)).link u).trans (link_firstErr s m u cwa info hf hg hlo hhi)
  · have same : (s.firstErr m f g o cwa info).events = s.events := (s.firstErr_keeps m f g o cwa info).2 .events (by decide)
    rw [← same]
    exact ((Recorded.count _ m 1 hlo' hhi').trans (.report _ e x a b)).events

theorem checkCw (s : State) (a req lisl : Nat) : Recorded 0 s (s.checkCw a req lisl).2 := by
  unfold State.checkCw
  split
  · exact refl s
  · split
    · exact refl s
    · rw [State.recordCe_eq]
      exact firstErr s _ _ _ _ _ _ _ (by decide) (by decide) (by decide) (by decide) (by decide) (by decide)
    · rw [State.recordUe_eq]
      exact firstErr s _ _ _ _ _ _ _ (by decide) (by decide) (by decide) (by decide) (by decide) (by decide)
    · rw [State.recordUe_eq]
      exact firstErr s _ _ _ _ _ _ _ (by decide) (by decide) (by decide) (by decide) (by decide) (by decide)

theorem storeCw (s : State) (a : Nat) (e : CwErr) : Recorded 0 s (s.storeCw a e) := by
  unfold State.storeCw
  split <;> exact of_parts rfl rfl rfl

theorem writeCw (s : State) (cwa lo hi req lisl : Nat) : Recorded 0 s (s.writeCw cwa lo hi req lisl).2 := by
  have check := checkCw s cwa req lisl
  unfold State.writeCw
  split
  · exact refl s
  · split
    · exact storeCw s cwa .ok
    · dsimp only
      split
      · exact (check.trans (storeCw _ cwa .poison)).trans (count _ _ 1 (by decide) (by decide))
      · exact check.trans (storeCw _ cwa .ok)

theorem writeCws (s : State) (cwa lo hi req lisl k : Nat) : Recorded 0 s (s.writeCws cwa lo hi req lisl k).2 := by
  induction k generalizing s cwa with
  | zero => exact refl s
  | succ k ih => exact (writeCw s cwa lo hi req lisl).trans (ih _ _)

/-- A write to memory (R273). -/
theorem writeMem (s : State) (a : Nat) (bs : List Byte) (req lisl : Nat) : Recorded 0 s (s.writeMem a bs req lisl).2 :=
  (writeCws s _ _ _ req lisl _).trans (.of_keeps (State.store_keeps _ a bs) (by decide) (by decide) (by decide))

theorem andWrite (h : Recorded n s t) (a : Nat) (bs : List Byte) : Recorded n s (t.writeMem a bs 9 0xFF).2 :=
  h.trans (writeMem t a bs 9 0xFF)

/-! ### Records -/

/-- A record in the log ring (R425). -/
theorem log (s : State) (cls : Nat) (body : List Byte) : Recorded 1 s (s.log cls body) := by
  have lost : Recorded 0 s (if s.fw.logBase = 0 ∧ s.fw.logWr ≥ 2 ^ s.fw.logLog2 then
      (s.writeMem (s.logBase + 8) (leBytes 4 (s.memNat (s.logBase + 8) 4 + 1)) 9 0xFF).2 else s) :=
    .ite (.writeMem s _ _ 9 0xFF) (.refl s)
  obtain ⟨reg, link, events, -⟩ := (lost.trans (.writeMem _ _ _ 9 0xFF)).trans (.writeMem _ _ _ 9 0xFF)
  exact ⟨reg, link, events, rfl⟩

theorem sendFrags (s : State) (port dst kind : Nat) (bs : List Byte) : Recorded 0 s (s.sendFrags port dst kind bs) := by
  have queued (s : State) (m : Msg) : Recorded 0 s (s.enqueue port 0 m) := of_parts rfl rfl rfl
  unfold State.sendFrags
  exact foldl (fun s _ => queued s _) _ s

/-- A report to the manager (R318). -/
theorem toManager (s : State) (except : Option Nat) (kind : Nat) (bs : List Byte) : Recorded 0 s (s.toManager except kind bs) := by
  unfold State.toManager
  split
  · exact refl s
  · split
    · exact of_parts rfl rfl rfl
    · split
      · exact sendFrags s _ _ kind bs
      · exact refl s

theorem setHist (s : State) (h : Hist) : Recorded 0 s (s.setHist h) := of_parts rfl rfl rfl

theorem setExpWr (h : Recorded n s t) (x : Nat) : Recorded n s { t with fw := { t.fw with expWr := x } } :=
  ⟨h.reg, h.link, h.events, h.logWr⟩

/-- A record exported (R464). -/
theorem exportRec (s : State) (cls sev : Nat) (body : List Byte) : Recorded 0 s (s.exportRec cls sev body) := by
  have told : Recorded 0 s ((s.setHist { s.fw.hist with cperId := s.fw.hist.cperId + 1 }).toManager none 4 (s.cper cls sev body)) :=
    (setHist s { s.fw.hist with cperId := s.fw.hist.cperId + 1 }).trans (toManager _ none 4 (s.cper cls sev body))
  unfold State.exportRec
  dsimp only
  refine .ite told (setExpWr (n := 0) ?_ _)
  exact (told.andWrite _ _).andWrite _ _

theorem record (s : State) (cls typ unit x : Nat) (body : List Byte) : Recorded 1 s (s.record cls typ unit x body) :=
  have logged := log s cls body
  .ite (logged.trans (k := 0) (of_parts rfl rfl rfl)) (logged.trans (exportRec _ cls 1 body))

/-- A memory record (R286). -/
theorem logMem (s : State) (typ tier unit x addr info md : Nat) : Recorded 1 s (s.logMem typ tier unit x addr info md) :=
  (record s 1 typ _ x _).trans (k := 0) (of_parts rfl rfl rfl)

end Recorded

end Sys2Proof.Machine
end


section
/-! SUPPORT. Training loss, maintenance and loopbacks of a DRAM controller, and the stack's own ECC count (R281, R284, R285, R287). -/

namespace Sys2Proof.Machine

variable {s : State} {m : MemUnit}

/-! ### Fields of a controller's registers -/

/-- A further write of a register. -/
theorem KeepsBut.andFld {t : State} (h : KeepsBut [.regs] s t) (a : Nat) (f : Fld) (v : Nat) : KeepsBut [.regs] s (t.setFld a f v) :=
  (h.trans (t.setReg_keeps a _)).mono (by simp)

theorem State.fld_setFld_memReg (s : State) {i j : Nat} (f g : Fld) (v : Nat) (h : i ≠ j) :
    (s.setFld (memReg m i) f v).fld (memReg m j) g = s.fld (memReg m j) g :=
  s.fld_setFld_other f g v (by simpa using h.symm)

theorem State.bit_iff {a : Nat} {f : Fld} : s.bit a f = true ↔ s.fld a f = 1 := by simp [State.bit]

/-- A field of one bit is not 1 where it is 0. -/
theorem State.bit_of_fld_zero {a : Nat} {f : Fld} (h : s.fld a f = 0) : s.bit a f = false := by simp [State.bit, h]

theorem Recorded.fld {n : Nat} {t : State} (h : Recorded n s t) {i : Nat} (hi : i < 0x10 ∨ 0x40 ≤ i ∧ i < 0x280) (f : Fld) :
    t.fld (memReg m i) f = s.fld (memReg m i) f := congrArg f.get (h.reg _ (quietReg_memReg m hi))

/-! ### CONTROLLER_TRAINING_LOST -/

/-- A controller that cannot regain its training (R281). -/
def State.untrained (s : State) (m : MemUnit) : State :=
  ((s.setFld (memReg m 0x010) Fd.HBM_ERR_LINK 1).setFld (memReg m 0x000) Fd.HBM_STATUS_STATE 3).setFld Reg.BOOT_STATUS
    Fd.BOOT_STATUS_MEMORY 1

theorem State.untrained_fw (s : State) (m : MemUnit) : (s.untrained m).fw = s.fw := by
  simp only [State.untrained, State.setFld_fw]

theorem State.untrained_events (s : State) (m : MemUnit) : (s.untrained m).events = s.events := by
  simp only [State.untrained, State.setFld_events]

/-- A field of the controller's registers is not one of BOOT_STATUS. -/
theorem State.untrained_fld (s : State) (m : MemUnit) {i : Nat} (hi : i < 0x1000) (f : Fld) : (s.untrained m).fld (memReg m i) f
    = ((s.setFld (memReg m 0x010) Fd.HBM_ERR_LINK 1).setFld (memReg m 0x000) Fd.HBM_STATUS_STATE 3).fld (memReg m i) f :=
  State.fld_setFld_other _ _ _ _ (memReg_ne_of_modWin_le m hi (by decide))

theorem State.untrained_link (s : State) (m : MemUnit) : (s.untrained m).fld (memReg m 0x010) Fd.HBM_ERR_LINK = 1 := by
  rw [s.untrained_fld m (by decide), State.fld_setFld_memReg _ _ _ _ (by decide)]
  exact s.fld_setFld_same _ _ 1 (by decide)

theorem State.untrained_state (s : State) (m : MemUnit) : (s.untrained m).memState m = 3 := by
  rw [State.memState, s.untrained_fld m (by decide)]
  exact State.fld_setFld_same _ _ _ 3 (by decide)

theorem waits_controllerTrainingLost_lagoon (s : State) (p : Fin 144) (g : Bool) : Waits (.controllerTrainingLost (.lag p) g) s := rfl

section
variable (hup : s.up = true) (hd : isDram m = true)
include hup hd

theorem exec_controllerTrainingLost_regained :
    exec (.controllerTrainingLost m true) s = .next (s.setFld (memReg m 0x010) Fd.HBM_ERR_LINK 1) := by
  change execControllerTrainingLost m true s = _
  simp [execControllerTrainingLost, hup, hd]

/-- A controller that cannot regain its training is logged, and reported as failed and as missing (R281). -/
theorem exec_controllerTrainingLost_failed : ∃ t, Recorded 1 (s.untrained m) t ∧ exec (.controllerTrainingLost m false) s
    = .next ((t.report .ctrlFailed (memTier m).1 (memTier m).2 0).report .memoryShortfall (memTier m).1 (memTier m).2 0) := by
  refine ⟨_, .logMem (s.untrained m) 7 (memTier m).1 (memTier m).2 1 0 (0x7F + 0xFF * 2 ^ 16) ((s.untrained m).selfId 0), ?_⟩
  change execControllerTrainingLost m false s = _
  rw [execControllerTrainingLost, if_neg (by simp [hup, hd])]
  rfl

theorem gives_controllerTrainingLost (g : Bool) : Gives (.controllerTrainingLost m g) s fun t =>
    t.bit (memReg m 0x010) Fd.HBM_ERR_LINK = true ∧ t.memState m = (if g = true then s.memState m else 3)
      ∧ t.fw.logWr = (if g = true then s.fw.logWr else s.fw.logWr + 1) ∧ (g = true → KeepsBut [.regs] s t)
      ∧ (g = false → s.events.length + 2 ≤ t.events.length) := by
  cases g with
  | true =>
    refine ⟨_, exec_controllerTrainingLost_regained hup hd, ?_, ?_, rfl, fun _ => s.setReg_keeps _ _, nofun⟩
    · exact State.bit_iff.2 (s.fld_setFld_same _ _ 1 (by decide))
    · exact s.fld_setFld_memReg _ _ _ (by decide)
  | false =>
    obtain ⟨t, logged, ht⟩ := exec_controllerTrainingLost_failed hup hd
    have logWr : t.fw.logWr = s.fw.logWr + 1 := by rw [logged.logWr, State.untrained_fw]
    have grown : s.events.length ≤ t.events.length := by rw [← s.untrained_events m]; exact logged.events
    refine ⟨_, ht, State.bit_iff.2 ?_, ?_, by rw [if_neg Bool.false_ne_true]; exact logWr, nofun, fun _ => ?_⟩
    · exact (logged.link m).trans (s.untrained_link m)
    · exact (logged.fld (by decide) _).trans (s.untrained_state m)
    · simpa [State.report] using grown

end

/-! ### MEMORY_MAINT -/

section
variable {r : Requester} (hup : s.up = true) (hm : s.mayWrite r (memReg m 0x04C) = true)
include hup hm

theorem exec_memoryMaint (on : Bool) :
    exec (.memoryMaint r m on) s = .next (if isDram m then s.memMaint m on else s) := by
  change execMemoryMaint r m on s = _
  rw [execMemoryMaint, State.guarded_permitted _ hup hm]

/-- MAINT is ignored while a program is loaded (R284). -/
theorem waits_memoryMaint_loaded (hl : s.loaded = true) : Waits (.memoryMaint r m true) s := by
  have same : s.memMaint m true = s := by simp [State.memMaint, hl]
  rw [Waits, exec_memoryMaint hup hm, same, ite_self]

variable (hd : isDram m = true)
include hd

/-- An UP controller enters MAINT while no program is loaded (R284). -/
theorem gives_memoryMaint_enter (hl : s.loaded = false) (hs : s.memState m = 1) :
    Gives (.memoryMaint r m true) s fun t => t.memState m = 2 ∧ KeepsBut [.regs] s t := by
  set u := s.setFld (memReg m 0x04C) Fd.HBM_CTL_MAINT 1
  have up : u.memState m = 1 := (s.fld_setFld_memReg _ _ _ (by decide)).trans hs
  have enter : s.memMaint m true = u.setFld (memReg m 0x000) Fd.HBM_STATUS_STATE 2 := by
    rw [State.memMaint, if_pos rfl, if_neg (by simp [hl])]
    exact if_pos up
  refine ⟨_, (exec_memoryMaint hup hm true).trans (by rw [if_pos hd, enter]), ?_, ?_⟩
  · exact State.fld_setFld_same _ _ _ 2 (by decide)
  · exact ((KeepsBut.refl _ s).andFld _ _ _).andFld _ _ _

/-- The end of MAINT ends any loopback (R284). -/
theorem gives_memoryMaint_leave (hs : s.memState m = 2) :
    Gives (.memoryMaint r m false) s fun t => t.memState m = 1 ∧ t.bit (memReg m 0x000) Fd.HBM_STATUS_LB_BUSY = false
      ∧ t.bit (memReg m 0x050) Fd.HBM_LB_CTL_GO = false ∧ KeepsBut [.regs] s t := by
  set u := s.setFld (memReg m 0x04C) Fd.HBM_CTL_MAINT 0
  have maint : u.memState m = 2 := (s.fld_setFld_memReg _ _ _ (by decide)).trans hs
  have leave : s.memMaint m false = ((u.setFld (memReg m 0x000) Fd.HBM_STATUS_STATE 1).setFld (memReg m 0x000)
      Fd.HBM_STATUS_LB_BUSY 0).setFld (memReg m 0x050) Fd.HBM_LB_CTL_GO 0 := if_pos maint
  refine ⟨_, (exec_memoryMaint hup hm false).trans (by rw [if_pos hd, leave]), ?_, ?_, ?_, ?_⟩
  · rw [State.memState, State.fld_setFld_memReg _ _ _ _ (by decide), State.fld_setFld_disjoint _ _ _ _ _ (by decide) (by decide)]
    exact State.fld_setFld_same _ _ _ 1 (by decide)
  · refine State.bit_of_fld_zero ?_
    rw [State.fld_setFld_memReg _ _ _ _ (by decide)]
    exact State.fld_setFld_same _ _ _ 0 (by decide)
  · exact State.bit_of_fld_zero (State.fld_setFld_same _ _ _ 0 (by decide))
  · exact ((((KeepsBut.refl _ s).andFld _ _ _).andFld _ _ _).andFld _ _ _).andFld _ _ _

end

/-! ### MEMORY_LOOPBACK_GO -/

/-- LB_CTL of a DRAM controller: DEPTH is RW, and GO stands above it (R287). -/
theorem lbCtl_row (h : isDram m = true) : ∃ row, regRow? (memReg m 0x050) = some row ∧ Fd.HBM_LB_CTL_DEPTH ∈ row.fields := by
  have hbm : ∀ k : Fin 8, ((regRow? (memReg (.hbm k) 0x050)).any fun r => decide (Fd.HBM_LB_CTL_DEPTH ∈ r.fields)) = true := by
    decide +kernel
  have lpx : ∀ c : Fin 32, ((regRow? (memReg (.lpx c) 0x050)).any fun r => decide (Fd.HBM_LB_CTL_DEPTH ∈ r.fields)) = true := by
    decide +kernel
  have found : ((regRow? (memReg m 0x050)).any fun r => decide (Fd.HBM_LB_CTL_DEPTH ∈ r.fields)) = true := by
    cases m with
    | lag p => cases h
    | hbm k => exact hbm k
    | lpx c => exact lpx c
  obtain ⟨row, hrow, hmem⟩ := (Option.any_eq_true _ _).1 found
  exact ⟨row, hrow, of_decide_eq_true hmem⟩

/-- LB_CTL as a write with GO leaves it before the loopback is considered. -/
def State.lbWritten (s : State) (m : MemUnit) (v : Word) : State := s.swWriteKeep (memReg m 0x050) [Fd.HBM_LB_CTL_GO] (v ||| 4)

/-- DEPTH takes the low bits of the value, GO stays, and nothing else is written (R16, R285). -/
theorem State.lbWritten_effect (s : State) (hd : isDram m = true) (v : Word) : let t := s.lbWritten m v
    t.fld (memReg m 0x050) Fd.HBM_LB_CTL_DEPTH = v.toNat % 4
      ∧ t.fld (memReg m 0x050) Fd.HBM_LB_CTL_GO = s.fld (memReg m 0x050) Fd.HBM_LB_CTL_GO
      ∧ KeepsBut [.regs] s t ∧ RegsBut [memReg m 0x050] s t := by
  obtain ⟨row, hrow, depth⟩ := lbCtl_row hd
  obtain ⟨value, keeps, regs⟩ := s.swWrite_effect hrow (v ||| 4)
  set a := memReg m 0x050
  set u := s.swWrite a (v ||| 4)
  have goes : Fd.HBM_LB_CTL_GO.get (s.reg a) % 2 = Fd.HBM_LB_CTL_GO.get (s.reg a) :=
    Nat.mod_eq_of_lt (Fd.HBM_LB_CTL_GO.get_lt (s.reg a))
  have low : Fd.HBM_LB_CTL_DEPTH.get (v ||| 4) = Fd.HBM_LB_CTL_DEPTH.get v := Fld.get_congr _ fun b hb c => by
    have : b < 2 := c.2
    interval_cases b <;> simp
  intro t
  have ht : t = u.setFld a Fd.HBM_LB_CTL_GO (Fd.HBM_LB_CTL_GO.get (s.reg a)) := rfl
  rw [ht]
  refine ⟨?_, ?_, keeps.andFld _ _ _, regs.trans (u.setReg_regsBut a _)⟩
  · calc
      _ = u.fld a Fd.HBM_LB_CTL_DEPTH := u.fld_setFld_disjoint _ _ _ _ (by decide) (by decide)
      _ = Fd.HBM_LB_CTL_DEPTH.get (row.swWrite (s.reg a) (v ||| 4)) := congrArg _ value
      _ = Fd.HBM_LB_CTL_DEPTH.get (v ||| 4) :=
        Fld.get_congr _ fun b hb c => (regRow?_laid hrow).swWrite_of_covers depth _ _ hb c
      _ = v.toNat % 4 := by rw [low]; simp [Fld.get, Fd.HBM_LB_CTL_DEPTH]
  · exact (u.fld_setFld_same _ _ _ (by decide)).trans goes

section
variable {r : Requester} {v : BitVec 32} (hup : s.up = true) (hm : s.mayWrite r (memReg m 0x050) = true)
include hup hm

theorem exec_memoryLoopbackGo :
    exec (.memoryLoopbackGo r m v) s = .next (if isDram m then s.memLbGo m (v ||| 4) else s) := by
  change execMemoryLoopbackGo r m v s = _
  rw [execMemoryLoopbackGo, State.guarded_permitted _ hup hm]

variable (hd : isDram m = true)
include hd

/-- In MAINT a loopback starts at depth 0 to 2 (R285). -/
theorem gives_memoryLoopbackGo_start (hs : s.memState m = 2) (hv : v.toNat % 4 ≠ 3)
    (hb : s.bit (memReg m 0x000) Fd.HBM_STATUS_LB_BUSY = false) :
    Gives (.memoryLoopbackGo r m v) s fun t => t.bit (memReg m 0x000) Fd.HBM_STATUS_LB_BUSY = true
      ∧ t.bit (memReg m 0x050) Fd.HBM_LB_CTL_GO = true ∧ t.fld (memReg m 0x050) Fd.HBM_LB_CTL_DEPTH = v.toNat % 4
      ∧ KeepsBut [.regs] s t ∧ RegsBut [memReg m 0x000, memReg m 0x050] s t := by
  obtain ⟨depth, -, keeps, regs⟩ := s.lbWritten_effect hd v
  set u := s.lbWritten m v
  have status : u.reg (memReg m 0x000) = s.reg (memReg m 0x000) := regs _ (by simp)
  have state : u.memState m = 2 := (congrArg _ status).trans hs
  have idle : u.bit (memReg m 0x000) Fd.HBM_STATUS_LB_BUSY = false := (State.bit_congr status _).trans hb
  have start : s.memLbGo m (v ||| 4)
      = (u.setFld (memReg m 0x050) Fd.HBM_LB_CTL_GO 1).setFld (memReg m 0x000) Fd.HBM_STATUS_LB_BUSY 1 :=
    if_neg (show ¬(u.memState m ≠ 2 ∨ u.fld (memReg m 0x050) Fd.HBM_LB_CTL_DEPTH = 3
      ∨ u.bit (memReg m 0x000) Fd.HBM_STATUS_LB_BUSY = true) by simp [state, depth, hv, idle])
  refine ⟨_, (exec_memoryLoopbackGo hup hm).trans (by rw [if_pos hd, start]), ?_, ?_, ?_, (keeps.andFld _ _ _).andFld _ _ _, ?_⟩
  · exact State.bit_iff.2 (State.fld_setFld_same _ _ _ 1 (by decide))
  · rw [State.bit_iff, State.fld_setFld_memReg _ _ _ _ (by decide)]
    exact u.fld_setFld_same _ _ 1 (by decide)
  · rw [State.fld_setFld_memReg _ _ _ _ (by decide), u.fld_setFld_disjoint _ _ _ _ (by decide) (by decide)]
    exact depth
  · exact ((regs.mono (by simp)).trans ((u.setReg_regsBut _ _).mono (by simp))).trans ((State.setReg_regsBut _ _ _).mono (by simp))

/-- Outside MAINT, and with DEPTH 3, GO is ignored (R284, R285). -/
theorem gives_memoryLoopbackGo_ignored (h : s.memState m ≠ 2 ∨ v.toNat % 4 = 3) :
    Gives (.memoryLoopbackGo r m v) s fun t => KeepsBut [.regs] s t ∧ RegsBut [memReg m 0x050] s t
      ∧ t.fld (memReg m 0x050) Fd.HBM_LB_CTL_GO = s.fld (memReg m 0x050) Fd.HBM_LB_CTL_GO := by
  obtain ⟨depth, go, keeps, regs⟩ := s.lbWritten_effect hd v
  set u := s.lbWritten m v
  have state : u.memState m = s.memState m := congrArg Fd.HBM_STATUS_STATE.get (regs _ (by simp))
  have ignored : s.memLbGo m (v ||| 4) = u :=
    if_pos (show u.memState m ≠ 2 ∨ u.fld (memReg m 0x050) Fd.HBM_LB_CTL_DEPTH = 3
      ∨ u.bit (memReg m 0x000) Fd.HBM_STATUS_LB_BUSY = true by rw [state, depth, ← or_assoc]; exact .inl h)
  exact ⟨u, (exec_memoryLoopbackGo hup hm).trans (by rw [if_pos hd, ignored]), keeps, regs, go⟩

end

/-! ### MEMORY_LOOPBACK_DONE -/

/-- The result of a loopback in the controller's registers (R285, R287). -/
def State.lbShown (s : State) (m : MemUnit) (x lane : Nat) : State :=
  let t := ((s.setFld (memReg m 0x000) Fd.HBM_STATUS_LB_BUSY 0).setFld (memReg m 0x054) Fd.HBM_LB_RESULT_MISMATCH
    (min x 0xFFFF)).setFld (memReg m 0x054) Fd.HBM_LB_RESULT_LANE lane
  ((t.setFld (memReg m 0x050) Fd.HBM_LB_CTL_GO 0).setFld (memReg m 0x050) Fd.HBM_LB_CTL_DONE 1).setFld (memReg m 0x050)
    Fd.HBM_LB_CTL_PASS (if x = 0 then 1 else 0)

/-- What the registers of a controller show of the result of a loopback. -/
def State.LbShows (t : State) (m : MemUnit) (x lane : Nat) : Prop :=
  t.bit (memReg m 0x000) Fd.HBM_STATUS_LB_BUSY = false ∧ t.bit (memReg m 0x050) Fd.HBM_LB_CTL_GO = false
    ∧ t.bit (memReg m 0x050) Fd.HBM_LB_CTL_DONE = true ∧ (t.bit (memReg m 0x050) Fd.HBM_LB_CTL_PASS = true ↔ x = 0)
    ∧ t.fld (memReg m 0x054) Fd.HBM_LB_RESULT_MISMATCH = min x 0xFFFF
    ∧ t.fld (memReg m 0x054) Fd.HBM_LB_RESULT_LANE = lane % 1024

/-- The log leaves the result of a loopback as it is shown. -/
theorem Recorded.lbShows {n : Nat} {t : State} (h : Recorded n s t) {x lane : Nat} (shows : s.LbShows m x lane) :
    t.LbShows m x lane := by
  unfold State.LbShows State.bit at shows ⊢
  rwa [h.fld (i := 0x000) (by decide), h.fld (i := 0x050) (by decide), h.fld (i := 0x050) (by decide),
    h.fld (i := 0x050) (by decide), h.fld (i := 0x054) (by decide), h.fld (i := 0x054) (by decide)]

theorem State.lbShown_shows (s : State) (m : MemUnit) (x lane : Nat) : (s.lbShown m x lane).LbShows m x lane := by
  have fits : min x 0xFFFF % 2 ^ 16 = min x 0xFFFF := Nat.mod_eq_of_lt (by omega)
  unfold State.LbShows State.lbShown
  refine ⟨State.bit_of_fld_zero ?_, State.bit_of_fld_zero ?_, State.bit_iff.2 ?_, State.bit_iff.trans ?_, ?_, ?_⟩ <;>
    simp (disch := decide) only [State.fld_setFld_memReg, State.fld_setFld_disjoint, State.fld_setFld_same]
  · rfl
  · rfl
  · rfl
  · by_cases h : x = 0 <;> simp [h, Fd.HBM_LB_CTL_PASS]
  · exact fits
  · rfl

theorem State.lbShown_keeps (s : State) (m : MemUnit) (x lane : Nat) : KeepsBut [.regs] s (s.lbShown m x lane) :=
  ((((((KeepsBut.refl _ s).andFld _ _ _).andFld _ _ _).andFld _ _ _).andFld _ _ _).andFld _ _ _).andFld _ _ _

theorem waits_memoryLoopbackDone (hb : s.bit (memReg m 0x000) Fd.HBM_STATUS_LB_BUSY = false) (x : Nat) (lane : Option Nat) :
    Waits (.memoryLoopbackDone m x lane) s := by
  change execMemoryLoopbackDone m x lane s = _
  rw [execMemoryLoopbackDone, if_neg (by simp [hb])]

section
variable (hb : s.bit (memReg m 0x000) Fd.HBM_STATUS_LB_BUSY = true) (lane : Option Nat)
include hb

/-- A loopback without a mismatch leaves no record. -/
theorem exec_memoryLoopbackDone_clean :
    exec (.memoryLoopbackDone m 0 lane) s = .next (s.lbShown m 0 (lane.getD 0x3FF)) := by
  change execMemoryLoopbackDone m 0 lane s = _
  rw [execMemoryLoopbackDone, if_pos hb]
  rfl

/-- Mismatched beats are recorded (R285). -/
theorem exec_memoryLoopbackDone_mismatched {x : Nat} (hx : x ≠ 0) : ∃ t, Recorded 1 (s.lbShown m x (lane.getD 0x3FF)) t
    ∧ exec (.memoryLoopbackDone m x lane) s = .next t := by
  refine ⟨_, (Recorded.logMem (s.lbShown m x (lane.getD 0x3FF)) 8 (memTier m).1 (memTier m).2 x 0 (0x7F + 0xFF * 2 ^ 16)
    ((s.lbShown m x (lane.getD 0x3FF)).selfId 0)).trans (.report _ .memLoopbackFail (memTier m).1 (memTier m).2 x), ?_⟩
  change execMemoryLoopbackDone m x lane s = _
  rw [execMemoryLoopbackDone, if_pos hb]
  exact congrArg _ (if_neg hx)

/-- The end of a loopback shows its result, and mismatches are recorded (R285). -/
theorem gives_memoryLoopbackDone (x : Nat) : Gives (.memoryLoopbackDone m x lane) s fun t => t.LbShows m x (lane.getD 0x3FF)
    ∧ (x = 0 → KeepsBut [.regs] s t) ∧ (x ≠ 0 → t.fw.logWr = s.fw.logWr + 1) := by
  have shows := s.lbShown_shows m x (lane.getD 0x3FF)
  by_cases clean : x = 0
  · subst clean
    exact ⟨_, exec_memoryLoopbackDone_clean hb lane, shows, fun _ => s.lbShown_keeps m 0 _, fun h => absurd rfl h⟩
  · obtain ⟨t, logged, ht⟩ := exec_memoryLoopbackDone_mismatched hb lane clean
    exact ⟨t, ht, logged.lbShows shows, fun h => absurd h clean, fun _ => logged.logWr⟩

end

/-! ### ODECC_READ -/

/-- The record of the errors that a stack's own ECC has counted. -/
def State.odeccNoted (s : State) (k n : Nat) : State :=
  (s.logMem 6 1 k n 0 (0x7F + 0xFF * 2 ^ 16) (s.selfId 0)).report .odecc k n 0

theorem Recorded.odeccNoted (s : State) (k n : Nat) : Recorded 1 s (s.odeccNoted k n) :=
  (Recorded.logMem s 6 1 k n 0 _ _).trans (.report _ .odecc k n 0)

theorem exec_odeccRead (hup : s.up = true) (k : Fin 8) (n : Nat) : exec (.odeccRead k n) s =
    .next (if n = 0 then s.count (memReg (.hbm k) 0x040) n else (s.count (memReg (.hbm k) 0x040) n).odeccNoted k n) := by
  have up (a : Nat) : (s.count a n).up = true := by rw [← hup, State.up, State.count_power]; rfl
  change execOdeccRead k n s = _
  by_cases none : n = 0 <;> simp [execOdeccRead, hup, up, none, State.odeccNoted]

/-- The stack's own ECC count adds up, with a record where there were errors (R287). -/
theorem gives_odeccRead (hup : s.up = true) (k : Fin 8) (n : Nat) : Gives (.odeccRead k n) s fun t =>
    (t.reg (memReg (.hbm k) 0x040)).toNat = min ((s.reg (memReg (.hbm k) 0x040)).toNat + n) 0xFFFFFFFF
      ∧ t.fw.logWr = (if n = 0 then s.fw.logWr else s.fw.logWr + 1) := by
  refine ⟨_, exec_odeccRead hup k n, ?_⟩
  have count := s.count_toNat (memReg (.hbm k) 0x040) n
  have logged := Recorded.odeccNoted (s.count (memReg (.hbm k) 0x040) n) k n
  have logWr : (s.count (memReg (.hbm k) 0x040) n).fw.logWr = s.fw.logWr := congrArg Fw.logWr (State.count_fw ..)
  split
  · exact ⟨count, logWr⟩
  · refine ⟨(congrArg BitVec.toNat (logged.reg _ (quietReg_memReg _ (by decide)))).trans count, ?_⟩
    rw [logged.logWr, logWr]

end Sys2Proof.Machine
end


section
/-! SUPPORT. The memory tiers' scrubbing and the DRAM controllers' upkeep, put together (chapter 10). -/

namespace Sys2Proof.Machine

/-- Settles O36. A scrub read is `State.scrubbed`, by what it finds; a write back cleans the correctable codewords
(`State.writeBacks_effect`); the controllers' commands write their registers, and a log record leaves these alone wherever the log
lies (`Recorded.logMem`). -/
theorem scrubbingAndControllers : Obligations.ScrubbingAndControllers := by
  unfold Obligations.ScrubbingAndControllers
  refine ⟨fun m s => ?_, fun m s hup hd => ?_⟩
  · intro pos a on
    refine ⟨fun h => waits_scrubInterval h, fun due _ => ?_, fun x h hg => gives_scrubWriteBack_gone h hg,
      fun x h hg => gives_scrubWriteBack h hg, fun h => waits_scrubWriteBack h⟩
    obtain ⟨next, last⟩ := s.scrubbed_position m
    have ⟨_, _, free, _⟩ := due
    exact ⟨s.scrubbed m, exec_scrubInterval_due due, next, last,
      fun first second => State.scrubbed_clean rfl second free first,
      fun sym first second => State.scrubbed_ce rfl second first,
      fun first second => State.scrubbed_ue rfl second free first⟩
  · intro st lb
    refine ⟨gives_controllerTrainingLost hup hd, fun r hm => ⟨gives_memoryMaint_enter hup hm hd, waits_memoryMaint_loaded hup hm,
      gives_memoryMaint_leave hup hm hd⟩, fun r v hm => ⟨gives_memoryLoopbackGo_start hup hm hd,
      gives_memoryLoopbackGo_ignored hup hm hd⟩, fun x lane hb => ?_, waits_memoryLoopbackDone, gives_odeccRead hup,
      fun p r g v => ⟨waits_controllerTrainingLost_lagoon s p g, fun hm b => exec_memoryMaint hup hm b,
        fun hm => exec_memoryLoopbackGo hup hm⟩⟩
    obtain ⟨t, ht, ⟨busy, go, done, pass, mismatch, failing⟩, clean, recorded⟩ := gives_memoryLoopbackDone hb lane x
    exact ⟨t, ht, busy, go, done, pass, mismatch, failing, clean, recorded⟩

end Sys2Proof.Machine
end
